-- ==== Sys2Proof/Word.lean ====
section
/-! DEFINITION. The word types of the machine and their plainest arithmetic (R16, R20). -/

namespace Sys2Proof

/-- A byte of any memory of the machine. -/
abbrev Byte := BitVec 8
/-- A 64-bit register, operand or memory word. -/
abbrev Word := BitVec 64
/-- The 2048 bits of a vector register or of a result-queue entry. -/
abbrev Vec := BitVec 2048
/-- A 256-bit code block (R48). -/
abbrev Block := BitVec 256
/-- The 24 bits of one slot of a bundle (R52). -/
abbrev SlotWord := BitVec 24
/-- A 5-bit format tag (R100). -/
abbrev Tag := BitVec 5

/-- Field `[hi:lo]` of a word as a number, `len = hi - lo + 1` (R16). -/
abbrev fld {n : Nat} (w : BitVec n) (lo len : Nat) : Nat := (w.extractLsb' lo len).toNat

/-- One bit of a word (R16). -/
abbrev bit {n : Nat} (w : BitVec n) (i : Nat) : Bool := w.getLsbD i

/-- `SInt` of the low `n` bits of a natural number (R20). -/
def sintN (n x : Nat) : Int := (BitVec.ofNat n x).toInt

/-- The largest natural `r` with `r * r ≤ n`, by binary digits from bit `k - 1` down. -/
def isqrtGo (n : Nat) : Nat → Nat → Nat
  | 0, r => r
  | k + 1, r => let t := r + 2 ^ k; isqrtGo n k (if t * t ≤ n then t else r)

/-- Integer square root. -/
def isqrt (n : Nat) : Nat := isqrtGo n (n.log2 / 2 + 1) 0

/-- The little-endian bytes of a number, lowest first (R16). -/
def bytesLE : Nat → Nat → List Byte
  | 0, _ => []
  | k + 1, x => BitVec.ofNat 8 x :: bytesLE k (x / 256)

/-- The number whose little-endian bytes these are (R16). -/
def numLE : List Byte → Nat
  | [] => 0
  | b :: bs => b.toNat + 256 * numLE bs

end Sys2Proof
end

