-- ==== Sys2Proof/Config.lean ====
section
/-! DEFINITION. What an implementation fixes and the manual leaves open: the free values. Each is opaque, so
nothing can be proved of its value (notes/assumptions/2.md). -/

namespace Sys2Proof.Config

/-- An undefined 64-bit value, the `n`-th one met (R136). -/
opaque freeWord : Nat → Word
/-- An undefined byte of a destination, the `n`-th undefined region met, at an address (R46, R201, R235, R306). -/
opaque freeByte : Nat → Nat → Byte
/-- The device identity public key (R341). -/
opaque identityKey : Vector Byte 64
/-- The signature of measurements, a nonce and the device identity public key under the identity key (R341). -/
opaque signature : List (BitVec 256) → BitVec 256 → Vector Byte 64 → Vector Byte 29792
/-- The word that the measurement registers and the attestation mailbox show at a management offset, of measurements, nonce,
key and signature: R340 gives the region and no offset in it. -/
opaque mailbox : List (BitVec 256) → List Byte → Nat → Word
/-- The telemetry value read at a management offset, of the clusters' clock steps and a tile cycle (R340). -/
opaque telemetry : List Nat → Nat → Nat → Word

/-- The launch level that an optical port's error monitor still needs, by port and tile cycle (R317). -/
opaque monitorNeed : Nat → Nat → BitVec 8
/-- The soft-error counter of the block that holds a byte, by the byte's key: R370 gives the blocks and not the places of
their counters. -/
opaque softBlock : Nat → Nat
/-- The soft-error counter of a tile, by its physical number (R370). -/
opaque tileBlock : Nat → Nat
/-- Whether a translation is served from an older cached entry, in a tile cycle and for a 64 KiB region of addresses
(R241, R363). -/
opaque staleServed : Nat → Nat → Bool

end Sys2Proof.Config
end

