-- ==== Sys2Proof/Fields.lean ====
section
/-! DEFINITION. The operand and field types of the slot operations: guards, sources, ports, element
formats, scopes (R52 to R66, R80), and the fields of an MXE micro-word (R208). -/

namespace Sys2Proof

/-- The guard of a move slot (R57, R58). -/
inductive Guard | always | leaf1 | leaf2 | leaf3 | leaf4 | leaf5 | first | last
deriving DecidableEq, Repr

/-- What every move slot carries beside its destination and source: S, K and G (R57). -/
structure Slot where
  stop  : Bool
  kill  : Bool
  guard : Guard
deriving DecidableEq, Repr

/-- The source mode X[8:7] (R59). -/
inductive Mode | read | peek | bind | bindPeek
deriving DecidableEq, Repr

/-- The sources of R57 by id; the reserved ids have no constructor. -/
inductive Source
  | q (n : Fin 16) | s (n : Fin 32) | v (n : Fin 16) | f (n : Fin 8) | k (n : Fin 4) | col
  | c (n : Fin 16) | lit (n : Fin 21) | zero | one | lane
  | rank | task | clus | die | modId | cyc | lcin
deriving DecidableEq, Repr

/-- The source field X of a move slot: mode and source (R57). -/
structure Src where
  mode : Mode
  src  : Source
deriving DecidableEq, Repr

/-- The eight units in slot order (R63, R78 to R83). -/
inductive UnitName | sc | va | vb | en | ca | cb | tr | ct
deriving DecidableEq, Repr

/-- The operand ports beside A (R63). -/
inductive OpPort | b | c | d
deriving DecidableEq, Repr

/-- The floating element formats EF 0 to 8 (R80, R95). -/
inductive FpFmt | f64 | f32 | f16 | bf16 | e4m3 | e5m2 | e3m2 | e2m3 | e2m1
deriving DecidableEq, Repr

/-- The integer element widths ES 0 to 3 (R80). -/
inductive IntW | i8 | i16 | i32 | i64
deriving DecidableEq, Repr

/-- The conversion targets CT 0 to 18 (R80). -/
inductive CvtT
  | fp (f : FpFmt) | i64 | i32 | i16 | i8 | i4 | ui64 | ui32 | ui16 | ui8 | ui4
deriving DecidableEq, Repr

/-- The five scopes of a fence (R79, R273). -/
inductive Scope | tile | cluster | die | device | domain
deriving DecidableEq, Repr

/-- The fields of an MXE micro-word beside its OP (R208). -/
structure Micro where
  j   : BitVec 3
  k   : BitVec 3
  bk  : BitVec 3
  s   : Bool
  p   : Bool
  c   : Bool
  cb  : BitVec 6
  opx : BitVec 8
  imm : BitVec 32
deriving DecidableEq, Repr

namespace Guard
/-- The code of a guard (R57). -/
def code : Guard → Nat
  | always => 0 | leaf1 => 1 | leaf2 => 2 | leaf3 => 3 | leaf4 => 4 | leaf5 => 5 | first => 6 | last => 7
/-- The guard with a code, read from three bits (R57). -/
def ofCode : Nat → Guard
  | 0 => always | 1 => leaf1 | 2 => leaf2 | 3 => leaf3 | 4 => leaf4 | 5 => leaf5 | 6 => first | _ => last
end Guard

namespace Mode
/-- X[8:7] (R57). -/
def code : Mode → Nat | read => 0 | peek => 1 | bind => 2 | bindPeek => 3
/-- The mode of two bits (R57). -/
def ofCode : Nat → Mode | 0 => read | 1 => peek | 2 => bind | _ => bindPeek
end Mode

namespace Source
/-- The source id of R57. -/
def code : Source → Nat
  | q n => n | s n => 16 + n | v n => 48 + n | f n => 64 + n | k n => 72 + n | col => 76
  | c n => 80 + n | lit n => 96 + n | zero => 117 | one => 118 | lane => 119 | rank => 120
  | task => 121 | clus => 122 | die => 123 | modId => 124 | cyc => 125 | lcin => 126

/-- The source of an id; ids 77, 78, 79 and 127 are reserved (R57). -/
def ofCode? (n : Nat) : Option Source :=
  if h : n < 16 then some (q ⟨n, h⟩)
  else if h : n < 48 ∧ 16 ≤ n then some (s ⟨n - 16, by omega⟩)
  else if h : n < 64 ∧ 48 ≤ n then some (v ⟨n - 48, by omega⟩)
  else if h : n < 72 ∧ 64 ≤ n then some (f ⟨n - 64, by omega⟩)
  else if h : n < 76 ∧ 72 ≤ n then some (k ⟨n - 72, by omega⟩)
  else if n = 76 then some col
  else if h : n < 96 ∧ 80 ≤ n then some (c ⟨n - 80, by omega⟩)
  else if h : n < 117 ∧ 96 ≤ n then some (lit ⟨n - 96, by omega⟩)
  else match n with
    | 117 => some zero | 118 => some one | 119 => some lane | 120 => some rank | 121 => some task
    | 122 => some clus | 123 => some die | 124 => some modId | 125 => some cyc | 126 => some lcin
    | _ => none
end Source

namespace Src
/-- The nine bits of X (R57). -/
def code (x : Src) : Nat := x.mode.code * 128 + x.src.code
/-- X read as mode and source; none for a reserved id (R57). -/
def ofCode? (n : Nat) : Option Src := (Source.ofCode? (n % 128)).map (⟨Mode.ofCode (n / 128), ·⟩)
end Src

namespace UnitName
/-- The slot number of a unit (R63). -/
def code : UnitName → Nat | sc => 0 | va => 1 | vb => 2 | en => 3 | ca => 4 | cb => 5 | tr => 6 | ct => 7
/-- The unit of a slot number (R63). -/
def ofCode : Nat → UnitName
  | 0 => sc | 1 => va | 2 => vb | 3 => en | 4 => ca | 5 => cb | 6 => tr | _ => ct
end UnitName

namespace OpPort
/-- D[3:2] of an operand-port destination (R63). -/
def code : OpPort → Nat | b => 1 | c => 2 | d => 3
/-- The port of D[3:2]; 00 is no port (R63). -/
def ofCode? : Nat → Option OpPort | 1 => some b | 2 => some c | 3 => some d | _ => none
end OpPort

namespace FpFmt
/-- EF, which is also the format tag (R80, R100). -/
def code : FpFmt → Nat
  | f64 => 0 | f32 => 1 | f16 => 2 | bf16 => 3 | e4m3 => 4 | e5m2 => 5 | e3m2 => 6 | e2m3 => 7 | e2m1 => 8
/-- The format of an EF code; 9 and above are illegal (R80). -/
def ofCode? : Nat → Option FpFmt
  | 0 => some f64 | 1 => some f32 | 2 => some f16 | 3 => some bf16 | 4 => some e4m3 | 5 => some e5m2
  | 6 => some e3m2 | 7 => some e2m3 | 8 => some e2m1 | _ => none
end FpFmt

namespace IntW
/-- ES (R80). -/
def code : IntW → Nat | i8 => 0 | i16 => 1 | i32 => 2 | i64 => 3
/-- The width of two bits (R80). -/
def ofCode : Nat → IntW | 0 => i8 | 1 => i16 | 2 => i32 | _ => i64
/-- The element width in bits. -/
def bits : IntW → Nat | i8 => 8 | i16 => 16 | i32 => 32 | i64 => 64
/-- The signed format tag of the width (R94). -/
def inTag : IntW → Nat | i8 => 12 | i16 => 11 | i32 => 10 | i64 => 9
/-- The unsigned format tag of the width (R94). -/
def uinTag : IntW → Nat | i8 => 17 | i16 => 16 | i32 => 15 | i64 => 14
end IntW

namespace CvtT
/-- CT, which is also the format tag (R80, R100). -/
def code : CvtT → Nat
  | fp f => f.code | i64 => 9 | i32 => 10 | i16 => 11 | i8 => 12 | i4 => 13
  | ui64 => 14 | ui32 => 15 | ui16 => 16 | ui8 => 17 | ui4 => 18
/-- The target of a CT code; 19 and above are illegal (R80). -/
def ofCode? (n : Nat) : Option CvtT :=
  match FpFmt.ofCode? n with
  | some f => some (fp f)
  | none => match n with
    | 9 => some i64 | 10 => some i32 | 11 => some i16 | 12 => some i8 | 13 => some i4
    | 14 => some ui64 | 15 => some ui32 | 16 => some ui16 | 17 => some ui8 | 18 => some ui4
    | _ => none
end CvtT

namespace Scope
/-- The place of a scope in the port order of R79. -/
def code : Scope → Nat | tile => 0 | cluster => 1 | die => 2 | device => 3 | domain => 4
/-- The scope of a place in R79's order. -/
def ofCode? : Nat → Option Scope
  | 0 => some tile | 1 => some cluster | 2 => some die | 3 => some device | 4 => some domain | _ => none
end Scope

end Sys2Proof
end

