-- ==== Sys2Proof/Events.lean ====
section
/-! DEFINITION. What the device's events carry: members, notices, chunks, contributions, packets
that leave the module, and the names of units, engines and ports (R288 to R312, R353, R374 to R384). -/

namespace Sys2Proof

/-- The two engines behind slot 3 (R190). -/
inductive Engine | mxe | xfu
deriving DecidableEq, Repr

/-- The claimable units of a tile, in the order of R353. -/
inductive TileUnit
  | bank (n : Fin 8) | queue | vfile | feeds | loops | mxe | acs (n : Fin 8) | xfu | block (n : Fin 512)
deriving DecidableEq, Repr

/-- A member word's tile: module id and physical tile number (R288). -/
structure Member where
  modu : Nat
  ptn  : Nat
deriving DecidableEq, Repr

/-- The parameter block of a collective, read (R255). -/
structure Coll where
  op     : Nat
  rop    : Nat
  etag   : Nat
  rr     : Bool
  pers   : Bool
  round  : Nat
  root   : Nat
  grp    : Nat
  sbuf   : Nat
  dbuf   : Nat
  blk    : Nat
  dpitch : Nat
  spitch : Nat
  bce    : Bool
  bca    : Nat
  cate   : Bool
  cati   : Nat
  rows   : Nat
  cols   : Nat
  esz    : Nat
  utag   : Nat
  tok    : Bool
deriving DecidableEq, Repr

/-- A tile-table entry, read (R292). -/
structure Entry64 where
  opr    : Nat
  etag   : Nat
  gf     : Bool
  ssp    : Bool
  rr     : Bool
  tok    : Bool
  cate   : Bool
  npm1   : Nat
  grp    : Nat
  cati   : Nat
  src    : Nat
  len    : Nat
  daddr  : Nat
  dpitch : Nat
  spitch : Nat
  bce    : Bool
  bca    : Nat
  self   : Nat
  plist  : Nat
  utag   : Nat
deriving DecidableEq, Repr

/-- What a readiness notice announces: a collective's post, or one peer's part of a firing (R295). -/
inductive NoticeBody
  | coll (c : Coll)
  | fire (e : Entry64) (index peer sender : Nat)
deriving DecidableEq, Repr

/-- A readiness notice (R295, R300): who sends it, under which transfer ID, to whom, and under
which topology version. `idx` is the sender's member index, `ridx` the
receiver's index in the sender's list, and `inst` the instance number. -/
structure Notice where
  frm    : Member
  strand : Nat
  ctx    : Nat
  chan   : Nat
  id     : Nat
  dest     : Member
  idx    : Nat
  ridx   : Nat
  inst   : Nat
  ver    : Nat
  body   : NoticeBody
deriving DecidableEq, Repr

/-- A pull request for one chunk (R295, R297): the transfer at the receiver, the sender's post and source
and the chunk's place in it. -/
structure Pull where
  xfer   : Nat
  frm    : Member
  dest     : Member
  strand : Nat
  ctx    : Nat
  chan   : Nat
  id     : Nat
  ssp    : Bool
  src    : Nat
  pos    : Nat
  len    : Nat
  ver    : Nat
  rr     : Bool
deriving DecidableEq, Repr

/-- The answer to a pull: the chunk's data, or the failure code of R306. -/
inductive ChunkData
  | data (bs : List Byte)
  | fail (code : Nat)
deriving DecidableEq, Repr

/-- One chunk on its way to the receiver (R295). -/
structure Flight where
  xfer : Nat
  dest   : Member
  pos  : Nat
  len  : Nat
  ver  : Nat
  port : Nat
  data : ChunkData
deriving DecidableEq, Repr

/-- The replica of a multicast line for one module (R308): the members there that it has yet to reach, by index and tile,
and those that have written it or refused it. -/
structure Replica where
  cmd     : Nat
  frm     : Nat
  dest    : Nat
  members : List (Nat × Nat)
  acks    : List Nat
  negs    : List Nat
  va      : Nat
  line    : List Byte
  ver     : Nat
  port    : Nat
deriving DecidableEq, Repr

/-- One contribution of CBR (R378), with the strand and slot that wait for the answer and the tile in its module (R386). -/
structure Contribution where
  gid    : Nat
  count  : Nat
  op     : Nat
  rmod   : Nat
  tmo    : Nat
  scope  : Nat
  midx   : Nat
  round  : Nat
  value  : Bool
  frm    : Nat
  strand : Nat
  slot   : Nat
  ver    : Nat
  tile   : Nat
deriving DecidableEq, Repr

/-- A receiver's report to a sender that its part of a transfer ID is over (R258, R259, R306, R309): the sender's
strand, channel and ID, the receiver's index, the failure code or 0, the flags, and the topology version (R312). -/
structure Served where
  dest   : Member
  strand : Nat
  chan   : Nat
  id     : Nat
  idx    : Nat
  code   : Nat
  nan    : Bool
  inf    : Bool
  ovf    : Bool
  miss   : Bool
  ver    : Nat
deriving DecidableEq, Repr

/-- What leaves the module through its switch chiplet, which gives it the version of the current table (R295, R308, R311,
R379 to R384). -/
inductive Packet
  | notice (n : Notice)
  | pull (p : Pull)
  | flight (f : Flight)
  | served (r : Served)
  | replica (r : Replica)
  | mcAck (dest cmd : Nat) (acks negs : List Nat)
  | contribution (c : Contribution)
  | answer (dest strand slot : Nat) (v : Bool) (status : Nat)
  | leave (rmod gid count midx : Nat) (outstanding : Bool)
  | excuse (rmod gid midx strand : Nat)
  | excuseAck (dest strand : Nat)
  | preempted (rmod gid midx : Nat)
  | resumed (rmod gid midx : Nat)
  | pm (dest gid : Nat) (on busy : Bool)
deriving DecidableEq, Repr

/-- A packet refused or re-driven because of its topology version (R312): `report` is any of the packets that answer or
inform, with the module that it goes to. -/
inductive Versioned
  | notice (n : Notice)
  | pull (p : Pull)
  | flight (f : Flight)
  | replica (r : Replica)
  | contribution (c : Contribution)
  | global (cmd : Nat)
  | report (dest : Nat) (p : Packet)
deriving DecidableEq, Repr

/-- What the module sends to the host: an interrupt, the answer to a read, an Unsupported Request completion, and an error
message of Advanced Error Reporting, correctable or not (R320, R321). -/
inductive HostMsg
  | msix (vec : Nat)
  | hostData (bs : List Byte)
  | unsupported
  | error (corrected : Bool)
deriving DecidableEq, Repr

/-- The base address registers of the function (R321). -/
inductive Bar | bar0 | bar2 | bar4
deriving DecidableEq, Repr

/-- A place in a BAR's aperture (R321). -/
structure BarPlace where
  bar : Bar
  off : Nat
deriving DecidableEq, Repr

/-- A group as a leave notice names it: its id and its member count, with the notice's topology version (R312, R377). -/
structure LeftGroup where
  gid   : Nat
  count : Nat
  ver   : Nat
deriving DecidableEq, Repr

/-- A Pre-empted member as a notice names it: its index, and whether a round is in progress, with the notice's topology version
(R312, R384). -/
structure PreemptedMember where
  midx : Nat
  busy : Bool
  ver  : Nat
deriving DecidableEq, Repr

/-- What the other modules' acknowledgement of a multicast store says: the members that refused the line, with its topology
version (R308, R312). -/
structure FarAck where
  negs : List Nat
  ver  : Nat
deriving DecidableEq, Repr

/-- For which strand a root acknowledges an excuse, with the topology version of an acknowledgement from another module (R312,
R377). -/
structure ExcuseAck where
  sid : Nat
  ver : Option Nat
deriving DecidableEq, Repr

/-- The status of an agreement's answer, with the topology version of an answer from another module (R312, R379). -/
structure AnswerStatus where
  status : Nat
  ver    : Option Nat
deriving DecidableEq, Repr

/-- A host access through a BAR (R321): a read of `size` bytes or a write of the bytes given. -/
inductive HostOp
  | read (size : Nat)
  | write (bs : List Byte)
deriving DecidableEq, Repr

end Sys2Proof
end

