-- ==== Sys2Proof/Syntax.lean ====
section
/-! DEFINITION. The instructions and events of the machine: one constructor for each row of the opcode
table: the slot operations in the table's order, the MXE's micro-operations, then the events. A slot operation carries S, K and G in `h` (R57) and operand A's source in `a`; an MXE
micro-operation carries its micro-word's fields (R208); an event of the device carries what it is about. -/

namespace Sys2Proof

/-- The rows of the opcode table. -/
inductive Instr
  /-- NOP (R72) -/
  | nop (h : Slot)
  /-- MOVE_OPERAND_PORT (R63) -/
  | moveOperandPort (h : Slot) (u : UnitName) (p : OpPort) (a : Src)
  /-- MOVE_SCALAR (R65) -/
  | moveScalar (h : Slot) (n : Fin 32) (a : Src)
  /-- MOVE_VECTOR (R65) -/
  | moveVector (h : Slot) (n : Fin 16) (a : Src)
  /-- MOVE_PREDICATE (R65) -/
  | movePredicate (h : Slot) (n : Fin 8) (a : Src)
  /-- MOVE_LC (R64) -/
  | moveLc (h : Slot) (n : Fin 6) (a : Src)
  /-- MOVE_LB (R64) -/
  | moveLb (h : Slot) (n : Fin 6) (a : Src)
  /-- MOVE_SLK (R64) -/
  | moveSlk (h : Slot) (a : Src)
  /-- MOVE_CBX (R64) -/
  | moveCbx (h : Slot) (a : Src)
  /-- IMM_BIND_B_INT (R66) -/
  | immBindBInt (stop : Bool) (imm : BitVec 20)
  /-- IMM_BIND_C_INT (R66) -/
  | immBindCInt (stop : Bool) (imm : BitVec 20)
  /-- IMM_BIND_B_F32 (R66) -/
  | immBindBF32 (stop : Bool) (imm : BitVec 20)
  /-- IMM_BIND_C_F32 (R66) -/
  | immBindCF32 (stop : Bool) (imm : BitVec 20)
  /-- IMM_BIND_B_F64 (R66) -/
  | immBindBF64 (stop : Bool) (imm : BitVec 20)
  /-- IMM_BIND_C_F64 (R66) -/
  | immBindCF64 (stop : Bool) (imm : BitVec 20)
  /-- IMM_SET_LB (R66) -/
  | immSetLb (stop : Bool) (imm : BitVec 20)
  /-- ADD (R123) -/
  | add (h : Slot) (a : Src)
  /-- SUB (R123) -/
  | sub (h : Slot) (a : Src)
  /-- AND (R123) -/
  | and (h : Slot) (a : Src)
  /-- OR (R123) -/
  | or (h : Slot) (a : Src)
  /-- XOR (R123) -/
  | xor (h : Slot) (a : Src)
  /-- ANDN (R123) -/
  | andn (h : Slot) (a : Src)
  /-- SHL (R123) -/
  | shl (h : Slot) (a : Src)
  /-- SHR (R123) -/
  | shr (h : Slot) (a : Src)
  /-- SAR (R123) -/
  | sar (h : Slot) (a : Src)
  /-- MUL (R123) -/
  | mul (h : Slot) (a : Src)
  /-- MULH (R123) -/
  | mulh (h : Slot) (a : Src)
  /-- MULHU (R123) -/
  | mulhu (h : Slot) (a : Src)
  /-- DIV (R124) -/
  | div (h : Slot) (a : Src)
  /-- DIVU (R124) -/
  | divu (h : Slot) (a : Src)
  /-- REM (R124) -/
  | rem (h : Slot) (a : Src)
  /-- REMU (R124) -/
  | remu (h : Slot) (a : Src)
  /-- MIN (R123) -/
  | min (h : Slot) (a : Src)
  /-- MINU (R123) -/
  | minu (h : Slot) (a : Src)
  /-- MAX (R123) -/
  | max (h : Slot) (a : Src)
  /-- MAXU (R123) -/
  | maxu (h : Slot) (a : Src)
  /-- CLZ (R123) -/
  | clz (h : Slot) (a : Src)
  /-- CTZ (R123) -/
  | ctz (h : Slot) (a : Src)
  /-- POPC (R123) -/
  | popc (h : Slot) (a : Src)
  /-- SEXT (R123) -/
  | sext (h : Slot) (a : Src)
  /-- ZEXT (R123) -/
  | zext (h : Slot) (a : Src)
  /-- LEA (R123) -/
  | lea (h : Slot) (a : Src)
  /-- BFX (R125) -/
  | bfx (h : Slot) (a : Src)
  /-- BFI (R125) -/
  | bfi (h : Slot) (a : Src)
  /-- CMPEQ (R126) -/
  | cmpeq (h : Slot) (a : Src)
  /-- CMPNE (R126) -/
  | cmpne (h : Slot) (a : Src)
  /-- CMPLT (R126) -/
  | cmplt (h : Slot) (a : Src)
  /-- CMPLE (R126) -/
  | cmple (h : Slot) (a : Src)
  /-- CMPLTU (R126) -/
  | cmpltu (h : Slot) (a : Src)
  /-- CMPLEU (R126) -/
  | cmpleu (h : Slot) (a : Src)
  /-- FCMPEQ (R126) -/
  | fcmpeq (h : Slot) (a : Src)
  /-- FCMPLT (R126) -/
  | fcmplt (h : Slot) (a : Src)
  /-- FCMPLE (R126) -/
  | fcmple (h : Slot) (a : Src)
  /-- FCMPUN (R126) -/
  | fcmpun (h : Slot) (a : Src)
  /-- FADD (R127) -/
  | fadd (h : Slot) (a : Src)
  /-- FSUB (R127) -/
  | fsub (h : Slot) (a : Src)
  /-- FMUL (R127) -/
  | fmul (h : Slot) (a : Src)
  /-- FFMA (R127) -/
  | ffma (h : Slot) (a : Src)
  /-- FDIV (R127) -/
  | fdiv (h : Slot) (a : Src)
  /-- FSQRT (R127) -/
  | fsqrt (h : Slot) (a : Src)
  /-- FMIN (R127) -/
  | fmin (h : Slot) (a : Src)
  /-- FMAX (R127) -/
  | fmax (h : Slot) (a : Src)
  /-- FABS (R127) -/
  | fabs (h : Slot) (a : Src)
  /-- FNEG (R127) -/
  | fneg (h : Slot) (a : Src)
  /-- FCVT_I64 (R127) -/
  | fcvtI64 (h : Slot) (a : Src)
  /-- FCVT_F64 (R127) -/
  | fcvtF64 (h : Slot) (a : Src)
  /-- LDB (R128) -/
  | ldb (h : Slot) (a : Src)
  /-- LDBU (R128) -/
  | ldbu (h : Slot) (a : Src)
  /-- LDH (R128) -/
  | ldh (h : Slot) (a : Src)
  /-- LDHU (R128) -/
  | ldhu (h : Slot) (a : Src)
  /-- LDW (R128) -/
  | ldw (h : Slot) (a : Src)
  /-- LDWU (R128) -/
  | ldwu (h : Slot) (a : Src)
  /-- LDD (R128) -/
  | ldd (h : Slot) (a : Src)
  /-- STB (R128) -/
  | stb (h : Slot) (a : Src)
  /-- STH (R128) -/
  | sth (h : Slot) (a : Src)
  /-- STW (R128) -/
  | stw (h : Slot) (a : Src)
  /-- STD (R128) -/
  | std (h : Slot) (a : Src)
  /-- LDW_CL (R130) -/
  | ldwCl (h : Slot) (a : Src)
  /-- LDD_CL (R130) -/
  | lddCl (h : Slot) (a : Src)
  /-- STW_CL (R130) -/
  | stwCl (h : Slot) (a : Src)
  /-- STD_CL (R130) -/
  | stdCl (h : Slot) (a : Src)
  /-- AADD (R132) -/
  | aadd (h : Slot) (a : Src)
  /-- AAND (R132) -/
  | aand (h : Slot) (a : Src)
  /-- AOR (R132) -/
  | aor (h : Slot) (a : Src)
  /-- AXOR (R132) -/
  | axor (h : Slot) (a : Src)
  /-- AMIN (R132) -/
  | amin (h : Slot) (a : Src)
  /-- AMAX (R132) -/
  | amax (h : Slot) (a : Src)
  /-- ASWAP (R132) -/
  | aswap (h : Slot) (a : Src)
  /-- ACAS (R132) -/
  | acas (h : Slot) (a : Src)
  /-- AADD_CL (R132) -/
  | aaddCl (h : Slot) (a : Src)
  /-- AAND_CL (R132) -/
  | aandCl (h : Slot) (a : Src)
  /-- AOR_CL (R132) -/
  | aorCl (h : Slot) (a : Src)
  /-- AXOR_CL (R132) -/
  | axorCl (h : Slot) (a : Src)
  /-- AMIN_CL (R132) -/
  | aminCl (h : Slot) (a : Src)
  /-- AMAX_CL (R132) -/
  | amaxCl (h : Slot) (a : Src)
  /-- ASWAP_CL (R132) -/
  | aswapCl (h : Slot) (a : Src)
  /-- ACAS_CL (R132) -/
  | acasCl (h : Slot) (a : Src)
  /-- CLD (R133) -/
  | cld (h : Slot) (a : Src)
  /-- JMP (R134) -/
  | jmp (h : Slot) (a : Src)
  /-- JMPR (R134) -/
  | jmpr (h : Slot) (a : Src)
  /-- CALL (R136) -/
  | call (h : Slot) (a : Src)
  /-- CALLR (R136) -/
  | callr (h : Slot) (a : Src)
  /-- RET (R136) -/
  | ret (h : Slot) (a : Src)
  /-- LOOP (R139) -/
  | loop (h : Slot) (a : Src)
  /-- LOOPX (R142) -/
  | loopx (h : Slot) (a : Src)
  /-- NEST (R144) -/
  | nest (h : Slot) (a : Src)
  /-- SLACK (R147) -/
  | slack (h : Slot) (a : Src)
  /-- BAR (R145) -/
  | bar (h : Slot) (a : Src)
  /-- TKPOST (R146) -/
  | tkpost (h : Slot) (a : Src)
  /-- CBR (R378) -/
  | cbr (h : Slot) (a : Src)
  /-- AGJOIN (R377) -/
  | agjoin (h : Slot) (a : Src)
  /-- AGLEAVE (R377) -/
  | agleave (h : Slot) (a : Src)
  /-- AGEXCUSE (R377) -/
  | agexcuse (h : Slot) (a : Src)
  /-- HEART (R150) -/
  | heart (h : Slot)
  /-- RETIRE (R44) -/
  | retire (h : Slot)
  /-- CSYNC (R152) -/
  | csync (h : Slot)
  /-- TRET (R349) -/
  | tret (h : Slot)
  /-- RDSR (R154) -/
  | rdsr (h : Slot) (a : Src)
  /-- WRSR (R154) -/
  | wrsr (h : Slot) (a : Src)
  /-- FENCE_ACQ (R281) -/
  | fenceAcq (h : Slot) (sc : Scope)
  /-- FENCE_REL (R281) -/
  | fenceRel (h : Slot) (sc : Scope)
  /-- FENCE_AR (R281) -/
  | fenceAr (h : Slot) (sc : Scope)
  /-- FENCE_SC_DEVICE (R280) -/
  | fenceScDevice (h : Slot)
  /-- FENCE_SC_DOMAIN (R280) -/
  | fenceScDomain (h : Slot)
  /-- ADD_F (R163) -/
  | addF (h : Slot) (e : FpFmt) (a : Src)
  /-- SUB_F (R163) -/
  | subF (h : Slot) (e : FpFmt) (a : Src)
  /-- MUL_F (R163) -/
  | mulF (h : Slot) (e : FpFmt) (a : Src)
  /-- FMA_F (R163) -/
  | fmaF (h : Slot) (e : FpFmt) (a : Src)
  /-- FMS_F (R163) -/
  | fmsF (h : Slot) (e : FpFmt) (a : Src)
  /-- FNMA_F (R163) -/
  | fnmaF (h : Slot) (e : FpFmt) (a : Src)
  /-- MIN_F (R163) -/
  | minF (h : Slot) (e : FpFmt) (a : Src)
  /-- MAX_F (R163) -/
  | maxF (h : Slot) (e : FpFmt) (a : Src)
  /-- DIV_F (R163) -/
  | divF (h : Slot) (e : FpFmt) (a : Src)
  /-- SQRT_F (R163) -/
  | sqrtF (h : Slot) (e : FpFmt) (a : Src)
  /-- ABS_F (R163) -/
  | absF (h : Slot) (e : FpFmt) (a : Src)
  /-- NEG_F (R163) -/
  | negF (h : Slot) (e : FpFmt) (a : Src)
  /-- CMPEQ_F (R164) -/
  | cmpeqF (h : Slot) (e : FpFmt) (a : Src)
  /-- CMPLT_F (R164) -/
  | cmpltF (h : Slot) (e : FpFmt) (a : Src)
  /-- CMPLE_F (R164) -/
  | cmpleF (h : Slot) (e : FpFmt) (a : Src)
  /-- CMPUN_F (R164) -/
  | cmpunF (h : Slot) (e : FpFmt) (a : Src)
  /-- IADD (R165) -/
  | iadd (h : Slot) (e : IntW) (a : Src)
  /-- ISUB (R165) -/
  | isub (h : Slot) (e : IntW) (a : Src)
  /-- IADDS (R166) -/
  | iadds (h : Slot) (e : IntW) (a : Src)
  /-- IADDSU (R166) -/
  | iaddsu (h : Slot) (e : IntW) (a : Src)
  /-- ISUBS (R166) -/
  | isubs (h : Slot) (e : IntW) (a : Src)
  /-- ISUBSU (R166) -/
  | isubsu (h : Slot) (e : IntW) (a : Src)
  /-- IMUL (R165) -/
  | imul (h : Slot) (e : IntW) (a : Src)
  /-- IMULH (R165) -/
  | imulh (h : Slot) (e : IntW) (a : Src)
  /-- IMULHU (R165) -/
  | imulhu (h : Slot) (e : IntW) (a : Src)
  /-- IMIN (R165) -/
  | imin (h : Slot) (e : IntW) (a : Src)
  /-- IMINU (R165) -/
  | iminu (h : Slot) (e : IntW) (a : Src)
  /-- IMAX (R165) -/
  | imax (h : Slot) (e : IntW) (a : Src)
  /-- IMAXU (R165) -/
  | imaxu (h : Slot) (e : IntW) (a : Src)
  /-- VEC_AND (R165) -/
  | vecAnd (h : Slot) (e : IntW) (a : Src)
  /-- VEC_OR (R165) -/
  | vecOr (h : Slot) (e : IntW) (a : Src)
  /-- VEC_XOR (R165) -/
  | vecXor (h : Slot) (e : IntW) (a : Src)
  /-- VEC_ANDN (R165) -/
  | vecAndn (h : Slot) (e : IntW) (a : Src)
  /-- VEC_SHL (R165) -/
  | vecShl (h : Slot) (e : IntW) (a : Src)
  /-- VEC_SHR (R165) -/
  | vecShr (h : Slot) (e : IntW) (a : Src)
  /-- VEC_SAR (R165) -/
  | vecSar (h : Slot) (e : IntW) (a : Src)
  /-- ICMPEQ (R165) -/
  | icmpeq (h : Slot) (e : IntW) (a : Src)
  /-- ICMPLT (R165) -/
  | icmplt (h : Slot) (e : IntW) (a : Src)
  /-- ICMPLTU (R165) -/
  | icmpltu (h : Slot) (e : IntW) (a : Src)
  /-- IABS (R165) -/
  | iabs (h : Slot) (e : IntW) (a : Src)
  /-- VEC_POPC (R165) -/
  | vecPopc (h : Slot) (e : IntW) (a : Src)
  /-- VEC_CLZ (R165) -/
  | vecClz (h : Slot) (e : IntW) (a : Src)
  /-- CVT (R168) -/
  | cvt (h : Slot) (t : CvtT) (a : Src)
  /-- CVTSC (R169) -/
  | cvtsc (h : Slot) (t : CvtT) (a : Src)
  /-- CVTSR (R170) -/
  | cvtsr (h : Slot) (t : CvtT) (a : Src)
  /-- REDADD (R171) -/
  | redadd (h : Slot) (a : Src)
  /-- REDMAX (R171) -/
  | redmax (h : Slot) (a : Src)
  /-- REDMIN (R171) -/
  | redmin (h : Slot) (a : Src)
  /-- VMAXI (R172) -/
  | vmaxi (h : Slot) (a : Src)
  /-- VMINI (R172) -/
  | vmini (h : Slot) (a : Src)
  /-- PERM (R173) -/
  | perm (h : Slot) (a : Src)
  /-- BCAST (R173) -/
  | bcast (h : Slot) (a : Src)
  /-- SEL (R173) -/
  | sel (h : Slot) (a : Src)
  /-- VLD (R176) -/
  | vld (h : Slot) (a : Src)
  /-- VST (R176) -/
  | vst (h : Slot) (a : Src)
  /-- VLDT (R177) -/
  | vldt (h : Slot) (a : Src)
  /-- VLD_CL (R180) -/
  | vldCl (h : Slot) (a : Src)
  /-- VST_CL (R180) -/
  | vstCl (h : Slot) (a : Src)
  /-- GATH (R178) -/
  | gath (h : Slot) (a : Src)
  /-- SCAT (R178) -/
  | scat (h : Slot) (a : Src)
  /-- FPSET (R174) -/
  | fpset (h : Slot) (a : Src)
  /-- FPFLUSH (R174) -/
  | fpflush (h : Slot) (a : Src)
  /-- TROW_E8 (R186) -/
  | trowE8 (h : Slot) (a : Src)
  /-- TROW_E16 (R186) -/
  | trowE16 (h : Slot) (a : Src)
  /-- TROW_E32 (R186) -/
  | trowE32 (h : Slot) (a : Src)
  /-- TROW_E64 (R186) -/
  | trowE64 (h : Slot) (a : Src)
  /-- TDRAIN (R186) -/
  | tdrain (h : Slot)
  /-- TCLR (R186) -/
  | tclr (h : Slot)
  /-- MPSET (R191) -/
  | mpset (h : Slot) (n : Fin 8) (a : Src)
  /-- MPGET (R191) -/
  | mpget (h : Slot) (n : Fin 8)
  /-- MXLOAD (R206) -/
  | mxload (h : Slot) (a : Src)
  /-- MXQ (R191) -/
  | mxq (h : Slot)
  /-- XPLAN (R220) -/
  | xplan (h : Slot) (a : Src)
  /-- XFFT (R225) -/
  | xfft (h : Slot) (a : Src)
  /-- XFFTI (R225) -/
  | xffti (h : Slot) (a : Src)
  /-- XLEGF (R226) -/
  | xlegf (h : Slot) (a : Src)
  /-- XLEGI (R226) -/
  | xlegi (h : Slot) (a : Src)
  /-- XSHTF (R227) -/
  | xshtf (h : Slot) (a : Src)
  /-- XSHTI (R227) -/
  | xshti (h : Slot) (a : Src)
  /-- MXCALL (R195) -/
  | mxcall (h : Slot) (n : Fin 256) (a : Src)
  /-- CPY_N (R242) -/
  | cpyN (h : Slot) (a : Src)
  /-- CPY_ND (R242) -/
  | cpyNd (h : Slot) (a : Src)
  /-- CE_GATH (R243) -/
  | ceGath (h : Slot) (a : Src)
  /-- CE_SCAT (R243) -/
  | ceScat (h : Slot) (a : Src)
  /-- ACC_LD (R244) -/
  | accLd (h : Slot) (a : Src)
  /-- ACC_ST (R244) -/
  | accSt (h : Slot) (a : Src)
  /-- GA_ADD (R245) -/
  | gaAdd (h : Slot) (a : Src)
  /-- GA_AND (R245) -/
  | gaAnd (h : Slot) (a : Src)
  /-- GA_OR (R245) -/
  | gaOr (h : Slot) (a : Src)
  /-- GA_XOR (R245) -/
  | gaXor (h : Slot) (a : Src)
  /-- GA_MIN (R245) -/
  | gaMin (h : Slot) (a : Src)
  /-- GA_MAX (R245) -/
  | gaMax (h : Slot) (a : Src)
  /-- GA_SWAP (R245) -/
  | gaSwap (h : Slot) (a : Src)
  /-- GA_CAS (R245) -/
  | gaCas (h : Slot) (a : Src)
  /-- MCST (R246) -/
  | mcst (h : Slot) (a : Src)
  /-- WBR (R247) -/
  | wbr (h : Slot) (a : Src)
  /-- INVR (R247) -/
  | invr (h : Slot) (a : Src)
  /-- PREF (R247) -/
  | pref (h : Slot) (a : Src)
  /-- WAITANY (R237) -/
  | waitany (h : Slot) (a : Src)
  /-- WAITALL (R237) -/
  | waitall (h : Slot) (a : Src)
  /-- FFR (R237) -/
  | ffr (h : Slot) (a : Src)
  /-- CLRTAG (R237) -/
  | clrtag (h : Slot) (a : Src)
  /-- BC_INIT (R249) -/
  | bcInit (h : Slot) (a : Src)
  /-- ARRIVE_EXP (R250) -/
  | arriveExp (h : Slot) (a : Src)
  /-- BC_SUB (R250) -/
  | bcSub (h : Slot) (a : Src)
  /-- BC_WAIT (R251) -/
  | bcWait (h : Slot) (a : Src)
  /-- XCOLL (R254) -/
  | xcoll (h : Slot) (a : Src)
  /-- TTREADY (R259) -/
  | ttready (h : Slot) (a : Src)
  /-- CAT_ARM (R261) -/
  | catArm (h : Slot) (a : Src)
  /-- CAT_DISARM (R261) -/
  | catDisarm (h : Slot) (a : Src)
  /-- WAITID (R260) -/
  | waitid (h : Slot) (a : Src)
  /-- MNOP (R210) -/
  | mnop (m : Micro)
  /-- MEND (R210) -/
  | mend (m : Micro)
  /-- MSETA (R210) -/
  | mseta (m : Micro)
  /-- MADD (R210) -/
  | madd (m : Micro)
  /-- MSETC (R210) -/
  | msetc (m : Micro)
  /-- MLOOP (R210) -/
  | mloop (m : Micro)
  /-- MJMP (R210) -/
  | mjmp (m : Micro)
  /-- MLDA (R210) -/
  | mlda (m : Micro)
  /-- MLDB (R210) -/
  | mldb (m : Micro)
  /-- MLDSA (R210) -/
  | mldsa (m : Micro)
  /-- MLDSW (R210) -/
  | mldsw (m : Micro)
  /-- MLDE (R210) -/
  | mlde (m : Micro)
  /-- MLDM (R210) -/
  | mldm (m : Micro)
  /-- MSTR (R213) -/
  | mstr (m : Micro)
  /-- MZERO (R210) -/
  | mzero (m : Micro)
  /-- MSTACC (R214) -/
  | mstacc (m : Micro)
  /-- MLDACC (R214) -/
  | mldacc (m : Micro)
  /-- BUNDLE_ISSUE (R76) -/
  | bundleIssue
  /-- CBX_RELOAD_END (R64) -/
  | cbxReloadEnd (sid : Nat)
  /-- WINDOW_ACCESS_PERFORM (R131) -/
  | windowAccessPerform (cluster : Nat)
  /-- RESULT_PUSH (R73) -/
  | resultPush (sid : Nat)
  /-- SPILL_WRITE_COMPLETE (R137) -/
  | spillWriteComplete (sid : Nat)
  /-- FILL_ARRIVE (R137) -/
  | fillArrive (sid : Nat)
  /-- FEED_ELEMENT_ARRIVE (R183) -/
  | feedElementArrive (ctx : Nat) (port : Fin 8)
  /-- HELD_OP_RUN (R147) -/
  | heldOpRun (ctx : Nat) (u : UnitName)
  /-- SLACK_EXHAUSTED (R147) -/
  | slackExhausted (sid : Nat)
  /-- STALL_END (R59) -/
  | stallEnd (sid : Nat)
  /-- TKPOST_DELIVER (R146) -/
  | tkpostDeliver (sid : Nat)
  /-- AGEXCUSE_ACK (R377) -/
  | agexcuseAck (x : ExcuseAck)
  /-- RETIRE_COMPLETE (R44) -/
  | retireComplete (sid : Nat)
  /-- CSYNC_SNAPSHOT (R152) -/
  | csyncSnapshot (sid : Nat)
  /-- L2DOM_SWITCH_DONE (R271) -/
  | l2domSwitchDone (die : Nat) (dom : Fin 16)
  /-- REPLAY_RESPONSE (R271) -/
  | replayResponse (cmd : Nat)
  /-- FENCE_COMPLETE (R282) -/
  | fenceComplete (sid : Nat)
  /-- INVALIDATION_APPLY (R282) -/
  | invalidationApply (die : Nat) (stamp : List Nat)
  /-- COLUMN_PRESENT (R187) -/
  | columnPresent (ctx : Nat)
  /-- HELD_CALL_ENQUEUE (R196) -/
  | heldCallEnqueue (ctx : Nat) (e : Engine)
  /-- MXE_CALL_START (R207) -/
  | mxeCallStart (ctx : Nat)
  /-- MXLOAD_RUN (R206) -/
  | mxloadRun (ctx : Nat)
  /-- ENGINE_CALL_COMPLETE (R197) -/
  | engineCallComplete (ctx : Nat) (e : Engine)
  /-- ENGINE_TOKEN_POST_DEFERRED (R199) -/
  | engineTokenPostDeferred (ctx : Nat) (e : Engine)
  /-- XFU_CALL_START (R225) -/
  | xfuCallStart (ctx : Nat)
  /-- MXE_QUIESCE (R217) -/
  | mxeQuiesce (ctx : Nat)
  /-- XFU_QUIESCE (R228) -/
  | xfuQuiesce (ctx : Nat)
  /-- TAG_COMMAND_ACCEPT (R232) -/
  | tagCommandAccept (cmd : Nat)
  /-- COPY_CHUNK (R241) -/
  | copyChunk (cmd : Nat)
  /-- TAG_COMMAND_COMPLETE (R235) -/
  | tagCommandComplete (cmd : Nat)
  /-- CATALOGUE_DISARM_COMPLETE (R261) -/
  | catalogueDisarmComplete (cmd : Nat)
  /-- COUNTER_ARRIVAL (R250) -/
  | counterArrival (ctx : Nat) (bca : Nat) (len : Nat)
  /-- READINESS_NOTICE (R295) -/
  | readinessNotice (n : Notice)
  /-- PULL_REQUEST (R297) -/
  | pullRequest (p : Pull)
  /-- CHUNK_LAND (R295) -/
  | chunkLand (f : Flight)
  /-- PARKED_CHUNK_WRITE (R298) -/
  | parkedChunkWrite (num : Nat)
  /-- LOCAL_PULL_FAULT (R319) -/
  | localPullFault (xfer : Nat)
  /-- PARKING_SPACE_FREE (R299) -/
  | parkingSpaceFree (port : Fin 64)
  /-- PARKED_NOTICE_RELEASE (R304) -/
  | parkedNoticeRelease (sid : Nat) (chan : Fin 16) (grp : Nat)
  /-- TRANSFER_ID_COMPLETE (R258) -/
  | transferIdComplete (sid : Nat) (chan : Fin 16) (id : Nat) (far : List Served)
  /-- K2_TOKEN_POST (R307) -/
  | k2TokenPost (sid : Nat)
  /-- STALE_REFUSE (R312) -/
  | staleRefuse (p : Versioned)
  /-- CHUNK_REDRIVE (R312) -/
  | chunkRedrive (xfer : Nat)
  /-- NOTICE_RESEND (R312) -/
  | noticeResend (n : Notice)
  /-- MCST_REPLICA_ARRIVE (R318) -/
  | mcstReplicaArrive (r : Replica)
  /-- MCST_ACK_ARRIVE (R308) -/
  | mcstAckArrive (cmd : Nat) (ack : FarAck)
  /-- CIRCUIT_CHANGE (R314) -/
  | circuitChange (port : Fin 64)
  /-- LINK_RETRAINED (R314) -/
  | linkRetrained (port : Fin 64)
  /-- RETRAIN_TIMEOUT (R314) -/
  | retrainTimeout (port : Fin 64)
  /-- LINK_FAIL (R314) -/
  | linkFail (port : Fin 64)
  /-- PACKET_TRAIN_START (R316) -/
  | packetTrainStart (port : Fin 64) (duty : BitVec 8)
  /-- ERROR_MONITOR_RAISE (R317) -/
  | errorMonitorRaise (port : Fin 64) (level : BitVec 8)
  /-- HOLD_EXPIRE (R317) -/
  | holdExpire (port : Fin 64) (need : BitVec 8)
  /-- CONTRIBUTION_ARRIVE (R379) -/
  | contributionArrive (c : Contribution)
  /-- AGREEMENT_TIMEOUT (R381) -/
  | agreementTimeout (gid : Nat)
  /-- ANSWER_ARRIVE (R380) -/
  | answerArrive (sid : Nat) (slot : Fin 4) (v : Bool) (st : AnswerStatus)
  /-- HELD_STORE_DRAIN (R387) -/
  | heldStoreDrain (sid : Nat)
  /-- LEAVE_NOTICE (R377) -/
  | leaveNotice (group : LeftGroup) (midx : Nat) (out : Bool)
  /-- PREEMPTED_NOTICE (R384) -/
  | preemptedNotice (gid : Nat) (member : PreemptedMember)
  /-- RESUME_NOTICE (R384) -/
  | resumeNotice (gid : Nat) (member : PreemptedMember)
  /-- TASK_FAIL (R46) -/
  | taskFail (sid : Nat) (cause : Nat) (sub : Nat) (addr : Nat)
  /-- WATCHDOG_FIRE (R368) -/
  | watchdogFire (task : Nat)
  /-- UNIT_CLAIM_COMPLETE (R355) -/
  | unitClaimComplete (sid : Nat) (u : TileUnit)
  /-- DIE_REPORT (R33) -/
  | dieReport (die : Nat)
  /-- TASK_PLACE (R34) -/
  | taskPlace (task : Nat)
  /-- TASK_RESUME (R37) -/
  | taskResume (task : Nat)
  /-- FRAME_START (R332) -/
  | frameStart
  /-- QUEUE_IDLE_UNMAP (R333) -/
  | queueIdleUnmap (q : Nat)
  /-- SIGNAL_ACK (R326) -/
  | signalAck (q : Nat) (idx : Nat)
  /-- INVAL_ACK (R364) -/
  | invalAck (q : Nat)
  /-- GRAPH_STEP_BEGIN (R336) -/
  | graphStepBegin (g : Fin 16)
  /-- GRAPH_NODE_COMPLETE (R336) -/
  | graphNodeComplete (g : Fin 16) (node : Nat)
  /-- COND_NODE_READ (R336) -/
  | condNodeRead (g : Fin 16) (node : Nat)
  /-- NOTIFY_WRITE (R324) -/
  | notifyWrite (q : Nat) (v : Word)
  /-- CRDIDX_WRITE (R331) -/
  | crdidxWrite (q : Nat) (v : Word)
  /-- QUEUE_REGISTER (R323) -/
  | queueRegister (q : Nat) (w : Fin 8) (v : Word)
  /-- QUEUE_UNREGISTER (R323) -/
  | queueUnregister (q : Nat) (v : Word)
  /-- QUEUE_HALT (R323) -/
  | queueHalt (q : Nat) (v : Word)
  /-- QUEUE_RESUME (R323) -/
  | queueResume (q : Nat) (v : Word)
  /-- RDIDX_WRITE (R323) -/
  | rdidxWrite (q : Nat) (v : Word)
  /-- HOST_MEMORY_ACCESS (R321) -/
  | hostMemoryAccess (place : BarPlace) (op : HostOp)
  /-- GROUP_MEMBER_WRITE (R289) -/
  | groupMemberWrite (g : Nat) (m : Nat) (v : BitVec 32)
  /-- GROUP_HEADER_WRITE (R290) -/
  | groupHeaderWrite (g : Nat) (v : Word)
  /-- ROUTING_ENTRY_WRITE (R389) -/
  | routingEntryWrite (m : Nat) (via : Bool) (v : Word)
  /-- RTCTL_STAGE (R389) -/
  | rtctlStage (v : Word)
  /-- TOPOLOGY_SWAP (R311) -/
  | topologySwap (v : Word)
  /-- PTROOT_WRITE (R361) -/
  | ptrootWrite (v : Word)
  /-- FLTBASE_WRITE (R365) -/
  | fltbaseWrite (v : Word)
  /-- FLTRESP_RESOLVE (R365) -/
  | fltrespResolve (num : BitVec 32)
  /-- FLTRESP_REFUSE (R365) -/
  | fltrespRefuse (num : BitVec 32)
  /-- ICLAMP_WRITE (R339) -/
  | iclampWrite (v : Word)
  /-- ATTEST_NONCE_WRITE (R341) -/
  | attestNonceWrite (nonce : BitVec 256)
  /-- REGISTER_WRITE (R18) -/
  | registerWrite (off : Nat) (v : Word)
  /-- CURRENT_CLAMP_REACHED (R339) -/
  | currentClampReached
  /-- CLOCK_RECOVER_STEP (R339) -/
  | clockRecoverStep
  /-- FUNCTION_LEVEL_RESET (R342) -/
  | functionLevelReset
  /-- MODULE_RESET (R341) -/
  | moduleReset (verified : Bool) (code : Word) (measure : List (BitVec 256))
  /-- PCIE_LINK_TRAIN (R320) -/
  | pcieLinkTrain (rate : Nat) (width : Nat)
  /-- FLTRD_WRITE (R365) -/
  | fltrdWrite (v : Word)
  /-- SCALAR_BANK_RETIRE (R358) -/
  | scalarBankRetire (ptn : Nat) (bank : Fin 8)
  /-- OPTICAL_BUDGET_CHANGE (R317) -/
  | opticalBudgetChange (port : Fin 64) (budget : BitVec 8)
  /-- PORT_DISABLE (R314) -/
  | portDisable (port : Fin 64)
deriving DecidableEq, Repr

end Sys2Proof
end

