-- ==== Sys2Proof/UnitOps.lean ====
section
/-! DEFINITION. The names of what the scalar and vector units compute: an operation that is held for a
late element keeps its name until it runs (R147). -/

namespace Sys2Proof

/-- What the scalar unit computes (R123 to R127). -/
inductive ScalarOp
  | add | sub | and | or | xor | andn | shl | shr | sar | mul | mulh | mulhu
  | div | divu | rem | remu | min | minu | max | maxu | clz | ctz | popc | sext | zext | lea | bfx | bfi
  | cmpeq | cmpne | cmplt | cmple | cmpltu | cmpleu | fcmpeq | fcmplt | fcmple | fcmpun
  | fadd | fsub | fmul | ffma | fdiv | fsqrt | fmin | fmax | fabs | fneg | fcvtI64 | fcvtF64
deriving DecidableEq, Repr

/-- The floating vector operations OP 0 to 15 (R80). -/
inductive FpOp
  | add | sub | mul | fma | fms | fnma | min | max | div | sqrt | abs | neg | cmpeq | cmplt | cmple | cmpun
deriving DecidableEq, Repr

/-- The integer vector operations OP 0 to 25 (R80). -/
inductive IntOp
  | add | sub | adds | addsu | subs | subsu | mul | mulh | mulhu | min | minu | max | maxu
  | and | or | xor | andn | shl | shr | sar | cmpeq | cmplt | cmpltu | abs | popc | clz
deriving DecidableEq, Repr

/-- The conversions (R167). -/
inductive CvtOp | cvt | cvtsc | cvtsr
deriving DecidableEq, Repr

/-- What a vector unit computes without touching memory (R163 to R173). -/
inductive VecOp
  | fp (o : FpOp) (e : FpFmt)
  | int (o : IntOp) (w : IntW)
  | cvt (o : CvtOp) (t : CvtT)
  | redadd | redmax | redmin | vmaxi | vmini | perm | bcast | sel
deriving DecidableEq, Repr

/-- An operation of fixed latency whose value is computed from its operands alone. -/
inductive PureOp
  | scalar (o : ScalarOp)
  | vector (o : VecOp)
deriving DecidableEq, Repr

/-- Atomic operations, in the port order of R132. -/
inductive AtomicOp | add | and | or | xor | min | max | swap | cas
deriving DecidableEq, Repr

end Sys2Proof
end

