-- ==== Sys2Proof/Machine/State.lean ====
section
/-! DEFINITION. The state of one LZD-2304 module: what every strand, tile, cluster, die and table of the
module holds, and the module after reset (R18, R31, R353 to R360, R373 to R376). -/

namespace Sys2Proof.Machine

/-- Why the machine stops. -/
inductive Fault
  /-- A slot operation or bundle was asked for while no strand has the turn to issue. Raised by the slot
  meanings and by `bundleIssue`; safe: no state that a strand's issue reaches has it. -/
  | noStrand
deriving DecidableEq, Repr

/-- Why an instruction has no meaning. -/
inductive Refusal
  /-- The instruction is not modelled yet; raised by its arm of the dispatch only; safe. -/
  | notModelled (mnemonic : String)
deriving DecidableEq, Repr

/-! ### Values, ports and the result queue -/

/-- A delivered operand: a tagged 2048-bit value, an untyped 64-bit value, or the lane index (R60). -/
inductive Val
  | tagged (tag : Tag) (bits : Vec)
  | untyped (w : Word)
  | lane
deriving DecidableEq, Repr

/-- What a bind leaves at an operand port (R59). -/
inductive Latch
  | value (v : Val)
  | stream (s : Source) (peek : Bool)
deriving DecidableEq, Repr

/-- An operand port: a supply for the next trigger above a binding (R71). -/
structure Port where
  supply : Option Val
  bind   : Option Latch
deriving DecidableEq, Repr

/-- A result-queue entry; a reserved entry is unfilled (R73, R148). -/
structure QEntry where
  tag    : Tag
  bits   : Vec
  filled : Bool
  rid    : Nat
deriving DecidableEq, Repr

/-- A fixed-latency operation in flight (R73, R74, R104). `due` is the issue cycle at whose end it
pushes; `ready` is false while it is held; `lfsr` is the LFSR before a CVTSR, with the counts of CVTSRs
and LFSR writes when it issued; `undo` the bytes that an atomic has written: key, old byte, new byte (R74). One with K = 1
under a guard of leaves 1 to 4 is `leafed`: its push waits for the end of its bundle, `since` counts the results pushed
meanwhile that are younger, and `clear` are the flags of FPST that it clears when it pushes. `disarm` is the key of a counter
that a test form with K = 1 disarms when it pushes (R93, R174, R251, notes/assumptions/62.md). -/
structure Flying where
  rid   : Nat
  due   : Nat
  slot  : Nat
  kill  : Bool
  tag   : Tag
  bits  : Vec
  flags : BitVec 6
  ready : Bool
  lfsr  : Option (BitVec 32 × Nat × Nat)
  undo  : List (Nat × Byte × Byte)
  leafed : Bool
  since : Nat
  clear : Word
  disarm : Option Nat
deriving DecidableEq, Repr

/-- An operand of an operation: delivered, a column of an open block still to come (R147, R187), or a feed element
whose sixteen chunks, by key, a store that still waits is to write (R162, R183). -/
inductive HeldArg
  | val (v : Val)
  | column (serial : Nat) (col : Nat)
  | element (tag : Tag) (keys : List Nat)
deriving DecidableEq, Repr

/-- What a held operation still has to do once its operands are known: compute a value, or act on the machine as its
instruction does (R147, R148). -/
inductive HeldOp
  | compute (o : PureOp)
  | again (i : Instr)
deriving DecidableEq, Repr

/-- A held operation in a unit's elastic buffer (R147, R148): the feed elements, columns and claimable units it waits
for, and for one whose operands are not known yet, or that stands behind such a one, what it has still to do. `fault` is
the address of a faulted element and `pc` the bundle of the trigger (R185). One that runs has left the buffer; it
completes at the end of the cycle `till`, its latency after it began. `foot` is the memory that it has still to read or
write, as keys and lengths, none while the address is not known; `writes` says that it stores (R162, R198). `word` are the
24 bits of its slot (R348). -/
structure Held where
  unit   : UnitName
  rid    : Nat
  feeds  : List (Nat × Nat)
  cols   : List (Nat × Nat)
  units  : List TileUnit
  op     : Option HeldOp
  args   : List HeldArg
  rm     : BitVec 2
  lfsr   : BitVec 32
  tag    : Tag
  bits   : Vec
  flags  : BitVec 6
  fault  : Option Nat
  pc     : Nat
  lat    : Nat
  till   : Option Nat
  foot   : Option (List (Nat × Nat))
  writes : Bool
  word   : BitVec 24
deriving DecidableEq, Repr

/-- A feed port: its nest, walk position and the elements present (R144, R182, R183). -/
structure Feed where
  bound   : Bool
  write   : Bool
  base    : Nat
  swz     : Nat
  tag     : Tag
  levels  : List (Nat × Int)
  pos     : Nat
  arrived : Nat
  since   : Nat
deriving DecidableEq, Repr

/-- A transposer block (R186, R187). -/
structure TBlock where
  serial   : Nat
  tag      : Tag
  width    : Nat
  rows     : List Vec
  closed   : Bool
  closedAt : Nat
  present  : Nat
  nextCol  : Nat
deriving DecidableEq, Repr

/-- A loop level (R139 to R143), with the loop buffer's blocks. -/
structure Level where
  active : Bool
  start  : Nat
  fin    : Nat
  after  : Nat
  depth  : Nat
  exit   : Option (Nat × Bool)
  lc     : BitVec 20
  lb     : BitVec 20
  code   : List (Nat × Block)
deriving DecidableEq, Repr

/-! ### The engines -/

/-- A routine-table entry on the store side (R205). -/
structure Routine where
  valid : Bool
  start : Nat
  len   : Nat
  adesc : Nat
  bdesc : Nat
deriving DecidableEq, Repr

/-- A routine-table entry on the issue side (R205). -/
structure IssueEntry where
  valid : Bool
  adesc : Nat
  bdesc : Nat
deriving DecidableEq, Repr

/-- A part of the microprogram store and its table, by index; what is not listed is zero and invalid (R205). `bad` lists the
words that hold uncorrectable data (R369). -/
structure MicroStore where
  words : List (Nat × Word)
  table : List (Nat × Routine)
  issue : List (Nat × IssueEntry)
  bad   : List Nat
deriving DecidableEq, Repr

/-- The operands of an MXLOAD (R206). -/
structure LoadImage where
  addr  : Nat
  index : Nat
  start : Nat
  adesc : Nat
  bdesc : Nat
  count : Nat
deriving DecidableEq, Repr

/-- A call in the MXE's queue: an MXCALL's snapshot or an MXLOAD's image (R195, R206). -/
structure MxCall where
  serial  : Nat
  routine : Nat
  snap    : Vector Word 8
  load    : Option LoadImage
  utag    : BitVec 32
deriving DecidableEq, Repr

/-- A staging set (R207); a tile is its lines' bytes. -/
structure Staging where
  a      : Option (List (List Byte))
  b      : Option (List (List Byte))
  sa     : Option (List Byte)
  sw     : Option (Word × Nat)
  se     : Option (List Byte)
  sm     : Option (List Byte)
deriving DecidableEq, Repr

/-- The flags of a call's status (R201). -/
structure CallFlags where
  nan : Bool
  inf : Bool
  ovf : Bool
deriving DecidableEq, Repr

/-- The state of a running MXE call (R207). `part` is the point reached within its micro-operation: a staging load that has
begun, the pass of a stride, or the row of an MZERO, MSTACC or MLDACC (R217). -/
structure MxRun where
  call  : MxCall
  entry : Routine
  ma    : Vector (BitVec 32) 8
  mc    : Vector (BitVec 16) 4
  upc   : Nat
  set0  : Staging
  set1  : Staging
  flags : CallFlags
  banks : List Nat
  wrote : List (Nat × Nat)
  part  : Nat
deriving DecidableEq, Repr

/-- A call that has finished, with its token (R197, R199). -/
structure Finished where
  serial : Nat
  token  : Word
  posted : Bool
deriving DecidableEq, Repr

/-- The MXE as one context sees it (R192, R205, R207, R217). -/
structure Mxe where
  mp    : Vector Word 8
  store : MicroStore
  queue : List MxCall
  held  : List MxCall
  run   : Option MxRun
  fin   : Option Finished
  stop  : Bool
  k0    : List Word
deriving DecidableEq, Repr

/-- An XFU plan, read (R221). -/
structure Plan where
  kind   : Nat
  f32    : Bool
  scl    : Nat
  radix  : List Nat
  sstr   : Int
  dstr   : Int
  sbst   : Int
  dbst   : Int
  n      : Nat
  m0     : Nat
  j      : Nat
  t      : Nat
  wbase  : Nat
  pbase  : Nat
  work   : Nat
  ppitch : Nat
deriving DecidableEq, Repr

/-- A call in the XFU's queue (R223). -/
structure XfuCall where
  serial : Nat
  port   : Nat
  plan   : Plan
  utag   : BitVec 32
  src    : Nat
  dst    : Nat
  batch  : Nat
deriving DecidableEq, Repr

/-- The state of a running XFU call (R228): its pencil, the butterfly stage or output element that comes next there, the
pencil buffer of complex elements, and the flags so far. -/
structure XfuRun where
  call   : XfuCall
  pencil : Nat
  place  : Nat
  buf    : List (Nat × Nat)
  flags  : CallFlags
deriving DecidableEq, Repr

/-- The XFU as one context sees it (R219, R228). -/
structure Xfu where
  plans : Vector (Option Plan) 8
  queue : List XfuCall
  held  : List XfuCall
  run   : Option XfuRun
  fin   : Option Finished
  stop  : Bool
  k1    : List Word
deriving DecidableEq, Repr

/-! ### The sequencer and a context -/

/-- A transfer of control that the control slot has asked for (R70, R134, R136, R139, R378). -/
inductive Transfer
  | jump (target : Nat)
  | call (target : Nat)
  | ret (target : Nat)
  | skip (target : Nat)
  | cbr (pred : Bool) (target : Nat)
deriving DecidableEq, Repr

/-- A change of a byte counter, by its record's key, that takes effect at the end of a group's cycle: BC.INIT, an update
with or without PEND, and a disarming (R249 to R251). -/
inductive CounterEnd
  | init (key : Nat) (bal : Word) (pend : Nat)
  | add (key : Nat) (by_ : Word) (pend : Bool)
  | disarm (key : Nat)
deriving DecidableEq, Repr

/-- The sequencer within a bundle (R76). With `issuing` false the strand stands at a bundle boundary and
`reached` is the bundle whose transfer led there (R348). `first` and `last` are the values of guards 110 and
111 at the bundle's start (R58); `pops` the streams popped in this group, each with its slot and whether a
binding popped it, `fpsets` whether an unconditional FPSET or FPFLUSH stands in it (R388), `fpst` the group's writes of FPST as masks and
values (R104), `lasting` those among them that no transfer can kill (R74), and `chunks` the scratchpad chunks it has
touched (R188). `resumed` marks a slot that TRET resumes within its group (R349), `portw` the operand ports that the
group has written, each as it stood before (R69), `late` the claimable units that the slot's trigger waits for (R355),
`foot` the memory that it reads or writes, as keys and lengths, `place` the address and swizzle at which its VST stores
(R184), and `ends` the counter changes that take effect at the end of the group's cycle (R249 to R251). -/
structure Seq where
  issuing : Bool
  block   : Block
  lits    : List (BitVec 32)
  slot    : Nat
  group   : Nat
  leaf    : Nat
  first   : Bool
  last    : Bool
  pops    : List (Nat × Source × Bool)
  fpsets  : Bool
  fpst    : List (Word × Word)
  lasting : List (Word × Word)
  chunks  : List Nat
  fresh   : Bool
  goto    : Option Transfer
  reached : Nat
  skip    : Option Nat
  resumed : Bool
  portw   : List (Nat × Port)
  late    : List TileUnit
  foot    : List (Nat × Nat)
  place   : Option (Nat × Nat)
  ends    : List CounterEnd
deriving DecidableEq, Repr

/-- The turn of a held operation that acts on the machine now (R147, R148): its number, and the sequencer and the next
operation's number, which it leaves as they are. -/
structure Again where
  rid     : Nat
  seq     : Seq
  nextRid : Nat
deriving DecidableEq, Repr

/-- A claimable unit whose state is in the save area, with the number of the image written there (R355). -/
structure Away where
  unit  : TileUnit
  image : Nat
deriving DecidableEq, Repr

/-- A word of the tile's own SRAM outside the address spaces: a scalar register by its place, a vector register, a
result-queue entry by its age, a word of the microprogram store, or a call in an engine's queue (R369). -/
inductive Sram
  | low (n : Nat) | ring (i : Nat) | vreg (n : Nat) | queue (age : Nat) | micro (i : Nat) | call (serial : Nat)
deriving DecidableEq, Repr

/-- What a soft error strikes: a byte of an address space by its key, or a word of a context's other SRAM (R369). -/
inductive Struck
  | byte (key : Nat)
  | sram (ctx : Nat) (x : Sram)
deriving DecidableEq, Repr

/-- One context: everything that a strand, or its trap handler, reads back from its own tile (R31, R347,
R353, R382). Its scratchpad and ACS bytes are the cells of `State.mem` under `id`. `away` lists the claimable units
whose state is in its save area, and `wants` those that held operations first touch, each with the group that touched
it (R355). `acsw` lists the ACS banks written since its strand's start (R372). `unflushed` is FPST as the last group left it but for
the FPFLUSHes with K = 1, which a transfer may kill (R74, R174), and `bad` what of its SRAM is uncorrectable (R369). -/
structure Ctx where
  id      : Nat
  pc      : Nat
  seq     : Seq
  depth   : Nat
  lo      : Nat
  hi      : Nat
  spill   : Word
  slk     : BitVec 16
  fpst    : Word
  writes  : Nat
  cvtsrs  : Nat
  preds   : BitVec 8
  low     : Vector Word 8
  ring    : Vector Word 256
  ports   : Vector Port 24
  icyc    : Nat
  nextRid : Nat
  queue   : Vector QEntry 16
  flying  : List Flying
  held    : List Held
  vregs   : Vector (Tag × Vec) 16
  blocks  : List TBlock
  feeds   : Vector Feed 8
  levels  : Vector Level 6
  mxe     : Mxe
  xfu     : Xfu
  away    : List Away
  wants   : List (Nat × TileUnit)
  acsw    : List Nat
  again   : Option Again
  unflushed : Option Word
  bad     : List Sram
deriving DecidableEq, Repr

/-! ### Strands -/

/-- What a strand waits for (R38) or stalls on (R137, R152, R156, R377). -/
inductive WaitOn
  | token (port : Nat) | tags (mask : Word) (any : Bool) | counter (bca : Nat) | transfer (chan id : Nat)
  | barrier (n : Nat) | agreement
  | fill (pair : Nat) | csync | fence (cls : Nat) (scope : Nat) | excuse (rmod gid midx : Nat) | element | claim (u : TileUnit) | buffer | cbx
deriving DecidableEq, Repr

/-- The request that a slot made of the rest of the device and that an event answers: it is done, its address is
refused, or what it read is uncorrectable (R371). -/
inductive Req
  | none
  | open (w : WaitOn)
  | done (w : WaitOn)
  | failed (w : WaitOn) (addr : Nat)
  | corrupt (w : WaitOn) (addr : Nat)
deriving DecidableEq, Repr

/-- A strand's own state (R28). -/
inductive Life | running | draining | retired
deriving DecidableEq, Repr

/-- An agreement slot (R373 to R376). -/
structure AgSlot where
  joined : Bool
  out    : Bool
  pm     : Bool
  lv     : Bool
  lst    : Nat
  rnd    : BitVec 8
  agb    : Word
  agc    : Word
deriving DecidableEq, Repr

/-- A fabric channel: the next transfer ID and the IDs issued and not complete (R253, R254). -/
structure Chan where
  next : Nat
  open_ : List Nat
deriving DecidableEq, Repr

/-- A persistent collective of the strand (R257): group, channel, last round and the transfer IDs of its
incomplete rounds. -/
structure PersRound where
  grp  : Nat
  chan : Nat
  last : Nat
  inc  : List Nat
deriving DecidableEq, Repr

/-- A store held during speculation: whether it goes to the window, the keys and bytes it will write, in order, and the
context and the number of the operation that stores (R287, R382). -/
structure HeldStore where
  window : Bool
  pieces : List (Nat × List Byte)
  ctx    : Nat
  rid    : Nat
deriving DecidableEq, Repr

/-- Where a held trigger that traps stood: its bundle, its slot and the slot's 24 bits (R348). -/
structure HeldAt where
  pc   : Nat
  slot : Nat
  word : BitVec 24
deriving DecidableEq, Repr

/-- A trap to be taken: cause, sub-cause, address, operands, and where a held trigger stood (R345, R348). -/
structure TrapRec where
  cause : Nat
  sub   : Nat
  addr  : Nat
  opa   : Word
  opb   : Word
  held  : Option HeldAt
deriving DecidableEq, Repr

/-- An access on its way to the cluster-shared window (R131). A load carries the strand's own held stores, which
it sees (R181, R287). -/
inductive WinOp
  | load (wide : Bool) (rid : Nat) (own : List HeldStore)
  | store (bytes : List Byte)
  | atomic (o : AtomicOp) (b c : Word) (rid : Nat)
  | vload (rid : Nat) (tag : Tag) (own : List HeldStore)
deriving DecidableEq, Repr

/-- A window access with the cycle in which it reaches its bank, and the number of the operation that made it (R131). -/
structure WinAcc where
  cluster : Nat
  due     : Nat
  pos     : Nat
  ctx     : Nat
  addr    : Nat
  op      : WinOp
  rid     : Nat
deriving DecidableEq, Repr

/-- What a group sees of the strand's state: the state at the group's start, and the tile cycle (R68). `undo` holds the
bytes that the group's own stores have overwritten since, and `held` the stores that were held then (R183). -/
structure Snap where
  ctx    : Ctx
  tags   : Word
  tagbz  : Word
  stats  : Vector Byte 64
  k2     : List Word
  k3     : List Word
  owners : List Nat
  undo   : List Host.Cell
  held   : List HeldStore
  cbank  : Vector Word 16
  cbxTill : Nat
  cbx    : BitVec 10
  cycle  : Nat
  chans  : Vector Chan 16
deriving DecidableEq, Repr

/-- What a CBR that AGTO stops issues with again (R349, R380): what its group sees, its unit's ports, the streams and the
tokens as they stood before it took its operands, and the slack. -/
structure Retry where
  snap   : Snap
  ports  : Vector Port 24
  feeds  : Vector Feed 8
  blocks : List TBlock
  popped : List (Nat × Word)
  slk    : BitVec 16
deriving DecidableEq, Repr

/-- Speculation after CBR (R378, R380, R382): the slot, the prediction, the checkpoint, the targets, and what is held: the
first trap with its save registers as raised, what the CBR issues with again, `dead` the operations in flight at the
checkpoint that a transfer of the speculation kills, and `suspended` the window atomics among them that had not reached
their bank, each with the cycles still to go in place of its cycle (R74, R345, R383). -/
structure Spec where
  slot    : Nat
  pred    : Bool
  check   : Ctx
  taken   : Nat
  other   : Nat
  group   : Nat
  stores  : List HeldStore
  bundles : Nat
  trap    : Option (TrapRec × Vector Word 8)
  popped  : List (Nat × Word)
  disarmed : List (Nat × Nat)
  heart   : Nat
  cbx     : BitVec 10
  cbank   : Vector Word 16
  cbxTill : Nat
  opa     : Word
  opb     : Word
  dead    : List Nat
  suspended : List WinAcc
  retry   : Retry
deriving DecidableEq, Repr

/-- A failure that is to end the task: the tile cycle it happened in, its cause, and the fault words (R351, R352). -/
structure FailRec where
  cycle : Nat
  cause : Nat
  sub   : Nat
  addr  : Nat
  words : List Word
deriving DecidableEq, Repr

/-- A resident or pre-empted strand (R28, R31, R347, R353). `cur` is the context that issues, `saved` the
interrupted one while a handler runs, `snap0` what its group sees (R349); `idle` counts the stall cycles still owed
(R137, R188), `drainGo` is the first tile cycle in which a confirmed store may be performed (R387), and `trap` a confirmed trap that waits
for those stores (R380). `drainFirst` says that a resumed strand issues nothing before they are performed (R385), and `acq`
that an answer's acquire still waits for invalidations (R282, R283). -/
structure Strand where
  sid     : Nat
  task    : Nat
  rank    : Nat
  ptn     : Nat
  cur     : Nat
  saved   : Option Nat
  life    : Life
  snap    : Snap
  snap0   : Option Snap
  idle    : Nat
  waits   : Option WaitOn
  req     : Req
  bar     : Option Nat
  barGo   : Nat
  spec    : Option Spec
  drain   : List HeldStore
  drainGo : Nat
  drainFirst : Bool
  acq     : Bool
  trap    : Option (TrapRec × Vector Word 8)
  privTask : Bool
  tags    : Word
  tagbz   : Word
  stats   : Vector Byte 64
  detach  : Word
  chans   : Vector Chan 16
  pers    : List PersRound
  insts   : List (Nat × Nat)
  k2      : List Word
  k2wait  : List Word
  k3      : List Word
  posts   : List (Nat × Nat × Word)
  ags     : Vector AgSlot 4
  heart   : Word
  wdt     : BitVec 32
  tsave   : Vector Word 8
  tvec    : Word
  csa     : Word
  ttb     : Word
  armed   : List Nat
  cseg    : Nat
  clen    : Nat
  const   : List Word
  cbx     : BitVec 10
  cbank   : Vector Word 16
  cbxTill : Nat
  cyc     : Nat
  spilling : List Nat
  images  : List (Nat × Nat × Nat)
  fail    : Option FailRec
deriving DecidableEq, Repr

/-! ### Tasks, queues and graphs -/

/-- A kernel header, read (R25). -/
structure Header where
  addr  : Nat
  entry : Nat
  rmap  : Word
  clen  : Nat
  agr   : Bool
  mxu   : Bool
  xfuse : Bool
  spb   : Nat
  acsb  : Nat
  tcnt  : Nat
  cseg  : Nat
  spz   : Bool
  seed  : BitVec 32
deriving DecidableEq, Repr

/-- Who handed a task to the distributor (R338). -/
inductive TaskSrc
  | packet (q idx : Nat)
  | node (g node : Nat)
  | catalogue (q entry : Nat)
deriving DecidableEq, Repr

/-- The states of a task (R28). -/
inductive TaskState | pending | placed | running | preempted | done | failed
deriving DecidableEq, Repr

/-- A task of the module (R28, R325, R328): `at_` is its header's address, `hdr` the header once it is placed, and
`cmpl` word 0 of a catalogue launch's record. A Placed task is bound to its cluster and waits for its victims to stop. -/
structure Task where
  tid    : Nat
  queue  : Nat
  src    : TaskSrc
  at_    : Nat
  hdr    : Option Header
  cmpl   : Option Word
  arg    : Word
  s9     : Word
  s10    : Word
  lctx   : Vector Word 4
  prio   : Nat
  acq    : Nat
  rel    : Nat
  pers   : Bool
  wdti   : BitVec 32
  st     : TaskState
  die    : Nat
  clus   : Nat
  sids   : List Nat
  const  : List Word
  wdInt  : Nat
  wdCnt  : Nat
  order  : Nat
deriving DecidableEq, Repr

/-- A started packet that has not completed (R326). -/
structure Started where
  idx   : Nat
  words : Vector Word 8
deriving DecidableEq, Repr

/-- A completion record waiting to be written, with the tiles of a failed task that return once it is written
(R30, R329). `begun` says that it is of a packet that was started (R342). -/
structure Record where
  w0   : Word
  w1   : Word
  w2   : Word
  done : Bool
  irq  : Bool
  tiles : List Nat
  begun : Bool
deriving DecidableEq, Repr

/-- A queue-table entry with its doorbells and the command core's view of it (R323, R324, R333): `busy` says that the queue
had work in this frame, and `gone` that it has been unregistered and is unmapped when the frame ends. -/
structure Queue where
  q       : Nat
  w0      : Word
  w1      : Word
  w2      : Word
  cwridx  : BitVec 32
  rdidx   : BitVec 32
  donecnt : BitVec 32
  wridx   : Word
  crdidx  : Word
  started : List Started
  held    : List Record
  mapped  : Option Nat
  idle    : Nat
  busy    : Bool
  gone    : Bool
deriving DecidableEq, Repr

/-- A graph node, read (R334). -/
structure Node where
  kind  : Nat
  prio  : Nat
  acq   : Nat
  rel   : Nat
  succ  : List Nat
  init  : Nat
  addr  : Nat
  val   : Word
  hstr  : Word
  sync  : Nat
  done  : Nat
  wdti  : BitVec 32
deriving DecidableEq, Repr

/-- A replay in progress (R336): its packet, the step number and how many steps are left with this one, whether the
step has begun, the dependence counts, the nodes that have fired, of those the ones whose work is done, the nodes
completed in this step, the persistent nodes' tasks, whether a step has gone before, the first failure's status, and the
tiles that return with the packet's record. -/
structure Replay where
  queue  : Nat
  idx    : Nat
  own    : Bool
  step   : Nat
  left   : Nat
  begun  : Bool
  counts : List Nat
  fired  : List Nat
  worked : List Nat
  doneN  : List Nat
  pers   : List (Nat × Nat)
  launched : List Nat
  ending : Bool
  later  : Bool
  over_  : Bool
  failed : Option Nat
  tiles  : List Nat
  rel    : Nat
  lctx   : Vector Word 4
deriving DecidableEq, Repr

/-- A replay that waits for its slot (R335): its packet or catalogue entry with the packet's words. -/
structure WaitingReplay where
  queue : Nat
  idx   : Nat
  own   : Bool
  words : Vector Word 8
deriving DecidableEq, Repr

/-- A graph slot (R335). -/
structure Graph where
  nodes : List Node
  hm1   : Nat
  run   : Option Replay
  waitq : List WaitingReplay
deriving DecidableEq, Repr

/-! ### Copy engines and the fabric -/

/-- A copy descriptor, read (R238). -/
structure CopyDesc where
  ssp    : Nat
  saddr  : Nat
  dsp    : Nat
  daddr  : Nat
  bce    : Bool
  bca    : Nat
  run    : Nat
  bounds : List Nat
  sstr   : List Int
  dstr   : List Int
  iw     : Nat
  idx    : Nat
deriving DecidableEq, Repr

/-- How a descriptor command takes its addresses (R242, R243). -/
inductive Walk | plain | gather | scatter
deriving DecidableEq, Repr

/-- A range operation (R247). -/
inductive RangeOp | wbr | invr | pref
deriving DecidableEq, Repr

/-- What a tag command does (R231). -/
inductive CmdKind
  | copy (d : CopyDesc) (w : Walk) (detach : Bool)
  | atomic (o : AtomicOp) (narrow : Bool) (va : Nat) (res : Option Nat) (c d : Word)
  | mcst (line : Nat) (grp : Nat) (rec : Nat) (va : Nat)
  | range (o : RangeOp) (base len level : Nat)
  | catArm (index : Nat) (va : Nat) (budget : Nat)
  | catDisarm (index : Nat)
deriving DecidableEq, Repr

/-- A tag command of a copy engine (R232, R235). -/
structure Cmd where
  id       : Nat
  sid      : Nat
  ctx      : Nat
  ptn      : Nat
  engineB  : Bool
  tag      : Nat
  kind     : CmdKind
  accepted : Bool
  started  : Nat
  pos      : Nat
  status   : Nat
  ended    : Bool
  members  : Option (List Member)
  acks     : List Nat
  negs     : List Nat
deriving DecidableEq, Repr

/-- Who holds a scratchpad block (R198). -/
inductive Holder
  | cmd (id : Nat) | call (serial : Nat) | counter (addr : Nat) | firing (sid chan id : Nat)
deriving DecidableEq, Repr

/-- A claim of blocks of one context's scratchpad (R198, R240); it stands from the end of its cycle. Operations of the
context numbered below `before` issued in its group or earlier. -/
structure Claim where
  ctx    : Nat
  holder : Holder
  blocks : List Nat
  live   : Bool
  before : Nat
deriving DecidableEq, Repr

/-- What a strand has posted on a channel: a collective, or the firing of a tile-table entry (R254, R259). -/
inductive Work
  | coll (c : Coll)
  | fire (index : Nat)
deriving DecidableEq, Repr

/-- A collective or firing that a strand has posted (R254, R259, R300). Once handed to the fabric sequencer it has
its members; `served` are the members that have pulled what they need or failed, `fail` is the first failure. `unit` is
the copy slot that posted it, whose buffer holds it until it is handed over (R147, R254). -/
structure PostRec where
  unit    : UnitName
  sid     : Nat
  ctx     : Nat
  ptn     : Nat
  chan    : Nat
  id      : Nat
  inst    : Nat
  work    : Work
  handed  : Bool
  entry   : Option Entry64
  members : List Member
  self    : Nat
  served  : List Nat
  got     : List Nat
  fail    : Option Nat
  flags   : CallFlags
  miss    : Bool
  tok     : Bool
  utag    : Nat
deriving DecidableEq, Repr

/-- What the receiver does with a transfer's bytes (R256, R293, R301). -/
inductive Landing
  | place
  | transposed (rows cols esz : Nat)
  | fold (rop etag : Nat)
deriving DecidableEq, Repr

/-- A page fault of a transfer within the module: its chunk by place and length, the address that has no translation, and the
number of its record once that is written (R319, R365). -/
structure Stuck where
  pos : Nat
  len : Nat
  va  : Nat
  num : Option Nat
deriving DecidableEq, Repr

/-- A transfer at its receiver (R295). `asked` is how far its source has been asked for, `out` the chunks in
flight by place and length, `redo` those to be asked for again (R312), `left` the bytes that have not landed.
`stuck` is its module-local page fault (R319). -/
structure Xfer where
  id     : Nat
  rx     : Member
  ctx    : Option Nat
  post   : Option (Nat × Nat × Nat)
  notice : Notice
  ssp    : Bool
  src    : Nat
  dst    : Nat
  len    : Nat
  how    : Landing
  bce    : Bool
  bca    : Nat
  rr     : Bool
  sender : Nat
  asked  : Nat
  out    : List (Nat × Nat)
  redo   : List (Nat × Nat)
  left   : Nat
  stuck  : Option Stuck
  flags  : CallFlags
  fail   : Option Nat
deriving DecidableEq, Repr

/-- How many contributions of one sender a peer has folded into a destination under a tile-table entry (R294). -/
structure FoldCount where
  ptn    : Nat
  index  : Nat
  daddr  : Nat
  sender : Nat
  count  : Nat
deriving DecidableEq, Repr

/-- A chunk parked for a page fault at an address, under its fault record's number once that is written (R298, R365). -/
structure Parked where
  id     : Nat
  num    : Nat
  va     : Nat
  flight : Flight
  recorded : Bool
  resolved : Bool
deriving DecidableEq, Repr

/-- A catalogue entry (R261, R309). -/
structure CatEntry where
  index  : Nat
  queue  : Nat
  left   : Option Nat
deriving DecidableEq, Repr

/-- An optical port (R314 to R317): `holdTill` is the tile cycle in which the error monitor's hold time ends, and `trains` the
packet trains that may still count for DUTY, by cycle and share of 1 µs. -/
structure OptPort where
  state  : Nat
  ver    : Nat
  rtc    : BitVec 16
  budget : BitVec 8
  actual : BitVec 8
  holdTill : Nat
  trains : List (Nat × Nat)
deriving DecidableEq, Repr

/-- An agreement root's state for one group (R375, R379, R381, R384). `first` is the first contribution, whose
fields the others must share; `got` the counted contributions of the round in progress, `mis` the indices answered
with MISMATCH, `later` those excused from the next round on, `early` the contributions of the next round, `last` the
last resolved round with its status, excused and counted indices, and `left` the tile cycles until the timeout. `count` is
the member count that a leave notice gave, `agreed` the number of the free value that every answer of a refused round
carries, and `tiles` the tiles of this module whose members have contributed (R379, R384, R386). -/
structure AgRoot where
  gid   : Nat
  first : Option Contribution
  round : Nat
  busy  : Bool
  got   : List Contribution
  mis   : List Nat
  exc   : List Nat
  later : List Nat
  early : List Contribution
  bad   : Bool
  last  : Option (Nat × Nat × List Nat × List Nat)
  pre   : List Nat
  mods  : List Nat
  left  : Nat
  count : Option Nat
  agreed : Option Nat
  tiles : List Nat
deriving DecidableEq, Repr

/-- A physical tile: its good banks, who holds each unit, its firmware store (R33, R205, R355, R358), and whether the
distributor offers it and knows of no resident task on it. A tile not listed in `State.tiles` is as at reset. -/
structure TileRec where
  ptn    : Nat
  banks  : List Nat
  owners : List (TileUnit × Nat)
  fw     : MicroStore
  offered : Bool
  vacant : Bool
deriving DecidableEq, Repr

/-- A compute die: its interleave domains (R267), and for each domain whether its old slices are still
writing back (R271). -/
structure Die where
  dom  : Vector Word 16
  busy : Vector Bool 16
deriving DecidableEq, Repr

/-- The clocks of one die: its clock and its pending clock, 12 components each (R282). -/
structure DieClock where
  clk  : List Nat
  pend : List Nat
  inv  : List (List Nat)
deriving DecidableEq, Repr

/-- A change that takes effect at the end of a tile cycle: a domain register of a die (R271), CATB (R154, R309), or a
strand's change of a byte counter, after the arrivals of the cycle (R249 to R251). -/
inductive LateWrite
  | domain (die n : Nat) (w : Word)
  | catb (w : Word)
  | counter (ctx : Nat) (x : CounterEnd)
deriving DecidableEq, Repr

/-- What caches translations: the TLB of a cluster, and the micro-TLB of a tile's copy engine A or B (R363). -/
inductive TlbHolder
  | cluster (n : Nat)
  | engine (ptn : Nat) (b : Bool)
deriving DecidableEq, Repr

/-- A cached translation of one 64 KiB range of virtual addresses (R361 to R363). -/
structure TlbEntry where
  holder : TlbHolder
  page   : Nat
  pa     : Nat
  w      : Bool
  x      : Bool
  ht     : Bool
deriving DecidableEq, Repr

/-- An attestation report: the measurements, the nonce, the device identity public key, and its signature (R341). -/
structure Report where
  measure : List (BitVec 256)
  nonce   : BitVec 256
  key     : Vector Byte 64
  sig     : Vector Byte 29792
deriving DecidableEq, Repr

/-- The state of the module. -/
structure State where
  /-- The model's own: inputs and events that act before the strands do (notes/assumptions/3.md). -/
  agenda  : List Instr
  /-- Management requests that have arrived and wait for cycles 950 to 999 of the command core's frame, oldest first
  (R332). -/
  requests : List Instr
  /-- The model's own: the strands that have yet to issue in this tile cycle. -/
  turn    : List Nat
  /-- The model's own: whether an event of the device has run since the last tile cycle ended. -/
  moved   : Bool
  /-- The model's own: the context whose MXE runs the next micro-operation. -/
  mxTurn  : Nat
  /-- The model's own: the number of free values drawn so far. -/
  fresh   : Nat
  /-- The model's own: the next identity to hand out. -/
  nextId  : Nat
  /-- The register writes and counter changes that take effect at the end of this tile cycle (R154, R250, R271). -/
  late    : List LateWrite
  /-- Tile cycles since reset. -/
  cycle   : Nat
  /-- The command core's frames begun since reset (R332). -/
  frames  : Nat
  /-- The tile cycle in which the present frame began (R332). -/
  frameAt : Nat
  /-- The next part of the frame: 0 to 63 the mapped slots, 64 to 71 the rotation slots, 72 the frame's end (R332). -/
  part    : Nat
  /-- The queues that this frame's rotation slots have taken (R333). -/
  rotated : List Nat
  /-- The tile cycle from which the graph sequencer may act next (R332). -/
  gsqAt   : Nat
  /-- Completions whose records wait for the frame's service phase, in completion order, with their queues; none for a
  packet that completes without a record (R329, R332). -/
  dues    : List (Nat × Option Record)
  /-- This module's id (R5). -/
  modId   : Nat
  /-- Every byte of memory of the module, by key, in canonical form (R263, R264). -/
  mem     : List Host.Cell
  /-- Keys whose stored bytes are uncorrectable (R369, R371). -/
  ecc     : List Nat
  /-- Soft errors that have struck and are not counted yet: what they struck, and whether the error is uncorrectable
  (R369, R370). -/
  struck  : List (Struck × Bool)
  strands : List Strand
  ctxs    : List Ctx
  claims  : List Claim
  tiles   : List TileRec
  dies    : Vector Die 8
  clocks  : Vector DieClock 12
  /-- The stamps of the last writes, by key and length of the bytes written; unlisted bytes have the zero stamp (R282). -/
  stamps  : List (Nat × Nat × List Nat)
  /-- The cached translations, the latest first (R363). -/
  tlb     : List TlbEntry
  win     : List WinAcc
  /-- For each cluster whose window ways have changed, the number of its free contents (R266). -/
  winFree : List (Nat × Nat)
  tasks   : List Task
  /-- The number of resident tasks of each cluster, as the dies last reported (R33). -/
  resident : Vector Nat 64
  nextTid : Nat
  queues  : List Queue
  rotor   : Nat
  graphs  : Vector Graph 16
  cmds    : List Cmd
  posts   : List PostRec
  /-- Completed collectives that failed before any notice reached them, so that later ones can be answered (R295, R300). -/
  ended   : List PostRec
  xfers   : List Xfer
  notices : List Notice
  arrived : List Notice
  /-- Readiness notices that a switch has refused as stale, to be sent again (R312). -/
  refused : List Notice
  pulls   : List Pull
  flights : List Flight
  replicas : List Replica
  parked  : List Parked
  folded  : List FoldCount
  contribs : List Contribution
  answers : List (Nat × Fin 4 × Bool × Nat)
  /-- Packets that have left through the switch chiplet, each with the version it carries (R311). -/
  outbox  : List (Nat × Packet)
  /-- Packets that wait for a retraining port, each with its destination module (R314). -/
  departing : List (Nat × Packet)
  /-- What has gone to the host (R320, R321). -/
  hostbox : List HostMsg
  /-- The groups with their root in another module that reports a round in progress (R384). -/
  roundsElsewhere : List Nat
  catb    : Word
  cat     : List CatEntry
  grpMem  : List (Nat × BitVec 32)
  groups  : List (Nat × Word × List (BitVec 32))
  stageMin : List (Nat × Word)
  stageVia : List (Nat × Word)
  curMin  : List (Nat × Word)
  curVia  : List (Nat × Word)
  swp     : Bool
  stg     : BitVec 4
  cur     : BitVec 4
  optical : Vector OptPort 64
  roots   : List AgRoot
  ptroot  : Word
  fltbase : Word
  fltwr   : BitVec 32
  fltrd   : BitVec 32
  fltvec  : Word
  fltlost : BitVec 32
  iclamp  : Word
  clockStep : Vector Nat 64
  clamped : Bool
  bootst  : Word
  measure : List (BitVec 256)
  nonce   : BitVec 256
  report  : Option Report
  locked  : Bool
  pcie    : Nat × Nat
  softErr : List (Nat × Word)
deriving DecidableEq, Repr

/-- The domain register L2DOM0 after reset (R267). -/
def resetDomain0 : Word := 0x800FFFFFF100007F

/-- A die's interleave domains after reset (R267). -/
def resetDie : Die := ⟨(Vector.replicate 16 0).set 0 resetDomain0, Vector.replicate 16 false⟩

/-- An optical port after reset: Off, every other field zero (R314). -/
def resetPort : OptPort := ⟨3, 0, 0, 0, 0, 0, []⟩

/-- A clock component after reset: nothing pending (R282). -/
def resetClock : DieClock := ⟨List.replicate 12 0, List.replicate 12 0, []⟩

/-- The module right after reset (R18, R267, R314, R323, R335, R339, R361, R365): no task, no registered queue,
translation disabled, every table empty. Module id 0 is the model's choice (notes/assumptions/5.md). -/
def State.reset : State where
  agenda := []
  requests := []
  turn := []
  moved := false
  mxTurn := 0
  fresh := 0
  nextId := 1
  late := []
  cycle := 0
  frames := 0
  frameAt := 0
  part := 73
  rotated := []
  gsqAt := 0
  dues := []
  modId := 0
  mem := []
  ecc := []
  struck := []
  strands := []
  ctxs := []
  claims := []
  tiles := []
  dies := Vector.replicate 8 resetDie
  clocks := Vector.replicate 12 resetClock
  stamps := []
  tlb := []
  win := []
  winFree := []
  tasks := []
  resident := Vector.replicate 64 0
  nextTid := 1
  queues := []
  rotor := 0
  graphs := Vector.replicate 16 ⟨[], 0, none, []⟩
  cmds := []
  posts := []
  ended := []
  xfers := []
  notices := []
  arrived := []
  refused := []
  pulls := []
  flights := []
  replicas := []
  parked := []
  folded := []
  contribs := []
  answers := []
  outbox := []
  departing := []
  hostbox := []
  roundsElsewhere := []
  catb := 0
  cat := []
  grpMem := []
  groups := []
  stageMin := []
  stageVia := []
  curMin := []
  curVia := []
  swp := false
  stg := 0
  cur := 0
  optical := Vector.replicate 64 resetPort
  roots := []
  ptroot := 0
  fltbase := 0
  fltwr := 0
  fltrd := 0
  fltvec := 0
  fltlost := 0
  iclamp := 3000
  clockStep := Vector.replicate 64 0
  clamped := false
  bootst := 0
  measure := []
  nonce := 0
  report := none
  locked := false
  pcie := (0, 0)
  softErr := []

end Sys2Proof.Machine
end

