-- ==== Sys2Proof/Machine/Ops.lean ====
section
/-! DEFINITION. The named operations over memory, strands and contexts: the cells of every address space, the
frame a strand issues in, and the start state of a context (R16, R31, R263). -/

namespace Sys2Proof.Machine

/-! ### Memory cells -/

/-- The byte at a key; what is not listed reads as zero (notes/assumptions/4.md). -/
def Memory.get : List Host.Cell → Nat → Byte
  | [], _ => 0
  | (k, b) :: m, a => if a < k then 0 else if a = k then b else Memory.get m a

/-- Writes one byte, keeping keys rising and zeros unlisted. -/
def Memory.set : List Host.Cell → Nat → Byte → List Host.Cell
  | [], a, b => if b = 0 then [] else [(a, b)]
  | (k, c) :: m, a, b =>
    if a < k then (if b = 0 then (k, c) :: m else (a, b) :: (k, c) :: m)
    else if a = k then (if b = 0 then m else (k, b) :: m)
    else (k, c) :: Memory.set m a b

/-- Keys at or above `lo`, strictly rising, no zero listed. -/
def Memory.wfFrom : Nat → List Host.Cell → Bool
  | _, [] => true
  | lo, (k, b) :: m => decide (lo ≤ k) && decide (b ≠ 0) && Memory.wfFrom (k + 1) m

/-- The canonical form of memory. -/
def Memory.wf (m : List Host.Cell) : Bool := Memory.wfFrom 0 m

/-- The bytes from a key up. -/
def Memory.read (m : List Host.Cell) (a : Nat) : Nat → List Byte
  | 0 => []
  | n + 1 => Memory.get m a :: Memory.read m (a + 1) n

/-- Writes bytes from a key up. -/
def Memory.write (m : List Host.Cell) (a : Nat) : List Byte → List Host.Cell
  | [] => m
  | b :: bs => Memory.write (Memory.set m a b) (a + 1) bs

/-- A little-endian number of `n` bytes (R16). -/
def Memory.num (m : List Host.Cell) (a n : Nat) : Nat := numLE (Memory.read m a n)

/-! ### Keys of the address spaces (R263) -/

/-- A byte of the module's HBM (R264). -/
def Key.hbm (pa : Nat) : Nat := pa % 2 ^ 40
/-- A byte of a cluster's shared window, the cluster numbered die * 8 + cluster (R266). -/
def Key.window (cluster o : Nat) : Nat := 2 ^ 40 + cluster * 2 ^ 24 + o
/-- A byte of a context's scratchpad. -/
def Key.pad (ctx a : Nat) : Nat := 2 ^ 41 + ctx * 2 ^ 22 + a
/-- A byte of a context's ACS: bank, row, column, four bytes each (R9, R203). -/
def Key.acs (ctx o : Nat) : Nat := 2 ^ 41 + ctx * 2 ^ 22 + 2 ^ 21 + o

/-- Writes bytes; the check bits of what is written are made anew (R369). -/
def State.write (s : State) (k : Nat) (bs : List Byte) : State :=
  { s with mem := Memory.write s.mem k bs, ecc := s.ecc.filter fun e => e < k || k + bs.length ≤ e }

/-- Whether a byte of a range is uncorrectable (R371). -/
def State.bad (s : State) (k n : Nat) : Bool := s.ecc.any fun e => k ≤ e && e < k + n

/-- Undefined bytes: the region's own free values (R46, R201, R235, R306). -/
def freeBytes (region k : Nat) : Nat → List Byte
  | 0 => []
  | n + 1 => Config.freeByte region k :: freeBytes region (k + 1) n

/-- Makes a region undefined; each such region met draws a new number. -/
def State.undefine (s : State) (k n : Nat) : State :=
  { s.write k (freeBytes s.fresh k n) with fresh := s.fresh + 1 }

/-! ### Lists keyed by a number -/

/-- The value stored under a key, or a default. -/
def lookupD {α : Type} (l : List (Nat × α)) (k : Nat) (d : α) : α := ((l.find? (·.1 == k)).map (·.2)).getD d

/-- Stores a value under a key; the keys stay rising. -/
def insertKey {α : Type} : List (Nat × α) → Nat → α → List (Nat × α)
  | [], k, v => [(k, v)]
  | (j, w) :: l, k, v => if k < j then (k, v) :: (j, w) :: l else if k = j then (k, v) :: l else (j, w) :: insertKey l k v

/-- Replaces the elements that a test picks. -/
def replaceIf {α : Type} (l : List α) (p : α → Bool) (v : α) : List α := l.map fun x => if p x then v else x

/-- Changes the elements that a test picks. -/
def updateIf {α : Type} (l : List α) (p : α → Bool) (g : α → α) : List α := l.map fun x => if p x then g x else x

/-- Puts an element before the first that it is not after. -/
def insertBy {α : Type} (le : α → α → Bool) (x : α) : List α → List α
  | [] => [x]
  | y :: l => if le x y then x :: y :: l else y :: insertBy le x l

/-- A list in order, equals as they stood. -/
def sortBy {α : Type} (le : α → α → Bool) (l : List α) : List α := l.foldr (insertBy le) []

/-- The numbers from `a` on, `n` of them. -/
def rangeFrom (a n : Nat) : List Nat := (List.range n).map (a + ·)

/-- The element of a vector at a number; out of range, a default. -/
def vget {α : Type} {n : Nat} (v : Vector α n) (i : Nat) (d : α) : α := v.toList.getD i d

/-- Sets the element of a vector at a number; out of range, nothing. -/
def vset {α : Type} {n : Nat} (v : Vector α n) (i : Nat) (x : α) : Vector α n := v.setIfInBounds i x

/-! ### Strands, contexts and the frame -/

/-- The strand with an identity. -/
def State.strand? (s : State) (sid : Nat) : Option Strand := s.strands.find? (·.sid == sid)
/-- The context with an identity. -/
def State.ctx? (s : State) (id : Nat) : Option Ctx := s.ctxs.find? (·.id == id)
/-- Writes a strand back. -/
def State.setStrand (s : State) (t : Strand) : State := { s with strands := replaceIf s.strands (·.sid == t.sid) t }
/-- Writes a context back. -/
def State.setCtx (s : State) (c : Ctx) : State := { s with ctxs := replaceIf s.ctxs (·.id == c.id) c }
/-- The strand one of whose contexts has an identity: the one that issues or the one interrupted. -/
def State.owner? (s : State) (id : Nat) : Option Strand := s.strands.find? fun t => t.cur == id || t.saved == some id

/-- What a slot acts on: the strand whose turn it is, its context, and the rest of the machine. -/
structure Frame where
  s : State
  t : Strand
  c : Ctx
deriving DecidableEq, Repr

/-- The frame of a strand. -/
def State.frameOf (s : State) (sid : Nat) : Option Frame :=
  (s.strand? sid).bind fun t => (s.ctx? t.cur).map fun c => ⟨s, t, c⟩

/-- The frame of the strand whose turn it is. -/
def State.frame (s : State) : Option Frame := s.turn.head?.bind s.frameOf

/-- The state with the frame's strand and context written back. -/
def Frame.put (f : Frame) : State := (f.s.setStrand f.t).setCtx f.c

/-- The task of a strand. -/
def State.task? (s : State) (tid : Nat) : Option Task := s.tasks.find? (·.tid == tid)
/-- Writes a task back. -/
def State.setTask (s : State) (k : Task) : State := { s with tasks := replaceIf s.tasks (·.tid == k.tid) k }

/-- The words of the firmware library's GEMM, routine 0 (R216). -/
def gemmWords : List Word :=
  [0x3820C30000000000, 0x1020800000000001, 0x0800000000000000, 0x0890000000000000, 0x0930000000000000,
   0x09B0000100000000, 0x0A40000000000000, 0x0AC0000100000000, 0x1C00000000000000, 0x2090000000000000,
   0x2500000000000000, 0x29F0800000000002, 0x3200000000000000, 0x2E80000000000000, 0x3420800000000000,
   0x0C50800000000000, 0x0CD0800000000001, 0x0D00000000000400, 0x0DD0800000000002, 0x0E00000000000400,
   0x0E80000000000200, 0x1400000000000FF3, 0x0400000000000000]

/-- The words of the firmware library's ZERO, routine 1 (R216). -/
def zeroWords : List Word :=
  [0x3820400000000000, 0x3822410000000000, 0x3824420000000000, 0x3826430000000000, 0x3828440000000000,
   0x382A450000000000, 0x382C460000000000, 0x382E470000000000, 0x0400000000000000]

/-- The firmware region of a tile's microprogram store: the library stands from store address 0 on
(R205, R216, notes/assumptions/11.md). -/
def firmwareStore : MicroStore :=
  ⟨(gemmWords ++ zeroWords).zipIdx.map fun p => (p.2, p.1),
   [(0, ⟨true, 0, 23, 0, 1⟩), (1, ⟨true, 23, 9, 8, 8⟩)],
   [(0, ⟨true, 0, 1⟩), (1, ⟨true, 8, 8⟩)], []⟩

/-- The fixed state of a tile that no record lists. -/
def TileRec.start (ptn : Nat) (fw : MicroStore) : TileRec := ⟨ptn, [0, 1, 2, 3, 4, 5, 6, 7], [], fw, true, true⟩
/-- The record of a physical tile (R33, R353); firmware that was not verified loads no library (R341). -/
def State.tile (s : State) (ptn : Nat) : TileRec :=
  (s.tiles.find? (·.ptn == ptn)).getD (TileRec.start ptn (if s.locked then ⟨[], [], [], []⟩ else firmwareStore))
/-- Writes a tile's record. -/
def State.setTile (s : State) (r : TileRec) : State :=
  { s with tiles := if s.tiles.any (·.ptn == r.ptn) then replaceIf s.tiles (·.ptn == r.ptn) r else r :: s.tiles }

/-- The die, the cluster in the module and the position of a physical tile number (R5). -/
def dieOf (ptn : Nat) : Nat := ptn / 128
/-- The cluster of a tile, numbered die * 8 + cluster (R5). -/
def clusterOf (ptn : Nat) : Nat := ptn / 16
/-- The position of a tile in its cluster (R5). -/
def positionOf (ptn : Nat) : Nat := ptn % 16

/-! ### Start states (R31, R205) -/

/-- An unbound operand port with nothing supplied (R31). -/
def Port.start : Port := ⟨none, none⟩
/-- A result-queue entry at strand start: zero, tagged ui64 (R31). -/
def QEntry.start : QEntry := ⟨14, 0, true, 0⟩
/-- An unbound feed port (R31). -/
def Feed.start : Feed := ⟨false, false, 0, 0, 0, [], 0, 0, 0⟩
/-- A loop level that is not active (R31). -/
def Level.idle : Level := ⟨false, 0, 0, 0, 0, none, 0, 0, []⟩
/-- A fabric channel at strand start (R31, R253). -/
def Chan.start : Chan := ⟨0, []⟩
/-- A free agreement slot (R31, R376). -/
def AgSlot.start : AgSlot := ⟨false, false, false, false, 0, 0, 0, 0⟩
/-- The sequencer at a bundle boundary. -/
def Seq.start : Seq :=
  ⟨false, 0, [], 0, 0, 5, true, true, [], false, [], [], [], true, none, 0, none, false, [], [], [], none, []⟩
/-- The microprogram store with nothing loaded (R205). -/
def MicroStore.start : MicroStore := ⟨[], [], [], []⟩
/-- The MXE of a context at strand start (R31, R205). -/
def Mxe.start : Mxe := ⟨Vector.replicate 8 0, MicroStore.start, [], [], none, none, false, []⟩
/-- The XFU of a context at strand start (R31). -/
def Xfu.start : Xfu := ⟨Vector.replicate 8 none, [], [], none, none, false, []⟩

/-- FPST with an LFSR value loaded: rounding RNE, flags clear; a zero LFSR is stored as one (R31, R103). -/
def fpstStart (lfsr : BitVec 32) : Word := (if lfsr = 0 then 1 else lfsr).zeroExtend 64 <<< 32

/-- A context at its start: at a bundle, with every unit in the state of R31. -/
def Ctx.start (id pc : Nat) (spill : Word) (lfsr : BitVec 32) : Ctx where
  id := id
  pc := pc
  seq := Seq.start
  depth := 0
  lo := 0
  hi := 1
  spill := spill
  slk := 0
  fpst := fpstStart lfsr
  writes := 0
  cvtsrs := 0
  preds := 0
  low := Vector.replicate 8 0
  ring := Vector.replicate 256 0
  ports := Vector.replicate 24 Port.start
  icyc := 0
  nextRid := 1
  queue := Vector.replicate 16 QEntry.start
  flying := []
  held := []
  vregs := Vector.replicate 16 (14, 0)
  blocks := []
  feeds := Vector.replicate 8 Feed.start
  levels := Vector.replicate 6 Level.idle
  mxe := Mxe.start
  xfu := Xfu.start
  away := []
  wants := []
  acsw := []
  again := none
  unflushed := none
  bad := []

/-! ### The scalar window (R135) -/

/-- The place of windowed register sn in the ring: half by half from the depth's first (R135). -/
def Ctx.ringIndex (c : Ctx) (n : Nat) : Nat := (16 * c.depth + n - 8) % 256

/-- Reads scalar register sn (R135). -/
def Ctx.readS (c : Ctx) (n : Nat) : Word := if n < 8 then vget c.low n 0 else vget c.ring (c.ringIndex n) 0

/-- Where scalar register sn stands in SRAM (R135, R369). -/
def Ctx.scalarPlace (c : Ctx) (n : Nat) : Sram := if n < 8 then .low n else .ring (c.ringIndex n)

/-- Whether a word of a context's SRAM can be read (R371). -/
def Ctx.sound (c : Ctx) (x : Sram) : Bool := !c.bad.contains x

/-- Words of SRAM are written: their check bits are made anew (R369). -/
def Ctx.mend (c : Ctx) (l : List Sram) : Ctx := { c with bad := c.bad.filter fun x => !l.contains x }

/-- Writes scalar register sn (R135). -/
def Ctx.writeS (c : Ctx) (n : Nat) (w : Word) : Ctx :=
  (if n < 8 then { c with low := vset c.low n w } else { c with ring := vset c.ring (c.ringIndex n) w }).mend [c.scalarPlace n]

/-- The sixteen words of pair e (R135, R137). -/
def Ctx.pair (c : Ctx) (e : Nat) : List Word := (List.range 16).map fun n => vget c.ring ((16 * e + n) % 256) 0

/-- The places of pair e (R135, R369). -/
def pairPlaces (e : Nat) : List Sram := (List.range 16).map fun n => .ring ((16 * e + n) % 256)

/-- Whether every word of pair e can be read (R371). -/
def Ctx.pairSound (c : Ctx) (e : Nat) : Bool := (pairPlaces e).all c.sound

/-- Puts the words of pair e in place (R137). -/
def Ctx.setPair (c : Ctx) (e : Nat) (ws : List Word) : Ctx :=
  ({ c with ring := (ws.zipIdx).foldl (fun r p => vset r ((16 * e + p.2) % 256) p.1) c.ring } : Ctx).mend (pairPlaces e)

/-- The bank that holds pair e on a tile with `b` good banks, counted among the good ones (R354). -/
def bankOfPair (e b : Nat) : Nat := if b = 0 then 0 else e % (2 * b) / 2

/-- A word's bytes in memory (R16). -/
def wordBytes (w : Word) : List Byte := bytesLE 8 w.toNat

/-- Eight-byte words of a byte list. -/
def wordsOf : Nat → List Byte → List Word
  | 0, _ => []
  | n + 1, bs => BitVec.ofNat 64 (numLE (bs.take 8)) :: wordsOf n (bs.drop 8)

/-- Notes the ACS banks that `n` bytes from an offset meet as written (R372). -/
def Ctx.markAcs (c : Ctx) (o n : Nat) : Ctx :=
  { c with acsw := (c.acsw ++ (List.range 8).filter fun b => 16384 * b < o + n && o < 16384 * (b + 1)).eraseDups }

/-! ### Owner bits and claims (R198, R240) -/

/-- The scratchpad blocks that engines own in a context: those of its standing claims (R155, R198). -/
def State.ownedBlocks (s : State) (ctx : Nat) : List Nat :=
  ((s.claims.filter fun k => k.ctx == ctx && k.live).map (·.blocks)).flatten

/-- The owner bit of a block as a group sees it: a claim stands from the end of its cycle (R198). A held operation sees
the claims of groups before its own. -/
def Frame.ownerBit (f : Frame) (b : Nat) : Bool :=
  match f.c.again with
  | none => f.t.snap.owners.contains b
  | some r => f.s.claims.any fun k => k.ctx == f.c.id && k.live && k.before ≤ r.rid && k.blocks.contains b

/-- A context's claims stand from the end of a group's cycle; the operations of the group came before them (R198, R240). -/
def State.standClaims (s : State) (ctx next : Nat) : State :=
  { s with claims := updateIf s.claims (fun k => k.ctx == ctx && !k.live) fun k => { k with live := true, before := next } }

/-- c0 to c15 from a snapshot and the constant-bank index (R64, R152). -/
def reloadBank (const : List Word) (cbx : BitVec 10) : Vector Word 16 :=
  Vector.ofFn fun i => const.getD (16 * cbx.toNat + i.val) 0

/-- Adds a claim, which stands from the end of the cycle; `before` is the number of the context's next operation
(R198, R240). -/
def State.claim (s : State) (ctx : Nat) (h : Holder) (before : Nat) (bs : List Nat) : State :=
  { s with claims := s.claims ++ [⟨ctx, h, bs, false, before⟩] }

/-- The saved blocks that a holder's claim names and no other claim of the context does: they come back when the holder
releases them (R356). -/
def State.freed (s : State) (h : Holder) (c : Ctx) : List TileUnit :=
  let mine := (s.claims.filter fun k => k.ctx == c.id && k.holder == h).map (·.blocks)
  let others := ((s.claims.filter fun k => k.ctx == c.id && k.holder != h).map (·.blocks)).flatten
  ((mine.flatten.filter fun b => !others.contains b).map fun b => TileUnit.block (Fin.ofNat 512 b)).filter
    fun u => c.away.any (·.unit == u) && !c.wants.any (·.2 == u)

/-- Ends a holder's claim (R198, R235); blocks that were saved while it stood are restored (R356). -/
def State.release (s : State) (h : Holder) : State :=
  { s with
    claims := s.claims.filter (·.holder != h)
    ctxs := s.ctxs.map fun c => { c with wants := c.wants ++ (s.freed h c).map fun u => (c.icyc, u) } }

/-- The blocks of `n` bytes from a scratchpad address; the field is twenty-one bits wide (R198). -/
def blocksOf (a n : Nat) : List Nat :=
  if n = 0 then [] else rangeFrom (a / 4096) ((a + n - 1) / 4096 - a / 4096 + 1)

/-! ### Events of the device -/

/-- An event has run: no further event of the device runs in this tile cycle. -/
def State.event (s : State) : Host.Outcome State Fault Refusal := .next { s with moved := true }

end Sys2Proof.Machine
end

