-- ==== Sys2Proof/Machine/Clocks.lean ====
section
/-! DEFINITION. The dies' vector clocks, the stamps of global writes and their invalidations, and the watchdog's
progress (R273, R277, R282, R367). Values of global memory are kept once, at their home. -/

namespace Sys2Proof.Machine

/-- Componentwise maximum (R282). -/
def clockMax (a b : List Nat) : List Nat := (a.zip b).map fun p => max p.1 p.2

/-- Whether a stamp is componentwise at or below another (R282). -/
def clockLe (a b : List Nat) : Bool := (a.zip b).all fun p => p.1 ≤ p.2

/-- The all-zero stamp. -/
def clockZero : List Nat := List.replicate 12 0

/-- A die's clocks. -/
def State.dieClock (s : State) (d : Nat) : DieClock := vget s.clocks d resetClock

/-- Writes a die's clocks. -/
def State.setDieClock (s : State) (d : Nat) (k : DieClock) : State := { s with clocks := vset s.clocks d k }

/-- What is left of the listed stamps once `n` bytes from a key are written. -/
def cutStamps (l : List (Nat × Nat × List Nat)) (k n : Nat) : List (Nat × Nat × List Nat) :=
  (l.map fun p =>
    if p.1 + p.2.1 ≤ k ∨ k + n ≤ p.1 then [p]
    else (if p.1 < k then [(p.1, k - p.1, p.2.2)] else [])
      ++ (if k + n < p.1 + p.2.1 then [(k + n, p.1 + p.2.1 - (k + n), p.2.2)] else [])).flatten

/-- The dies that a home sends invalidations to: every compute die but the writer's (notes/assumptions/8.md). -/
def otherDies (d : Nat) : List Nat := (List.range 8).filter (· != d)

/-- A global write leaving die d carries its clock, and the home invalidates other dies' copies (R282). -/
def State.noteWrite (s : State) (d k n : Nat) : State :=
  let c := (s.dieClock d).clk
  let s := { s with stamps := (if c = clockZero ∨ n = 0 then [] else [(k, n, c)]) ++ cutStamps s.stamps k n }
  (otherDies d).foldl (fun s e =>
    let g := s.dieClock e
    if g.inv.contains c then s else s.setDieClock e { g with inv := g.inv ++ [c] }) s

/-- A read by die d merges the stamps of the writes it returns into the die's pending clock (R282). -/
def State.noteRead (s : State) (d k n : Nat) : State :=
  let g := s.dieClock d
  let l := s.stamps.filter fun p => p.1 < k + n && k < p.1 + p.2.1
  s.setDieClock d { g with pend := l.foldl (fun c p => clockMax c p.2.2) g.pend }

/-- Writes and reads of several pieces by one die. -/
def State.noteWrites (s : State) (d : Nat) (l : List (Nat × Nat)) : State := l.foldl (fun s p => s.noteWrite d p.1 p.2) s
/-- Reads of several pieces by one die. -/
def State.noteReads (s : State) (d : Nat) (l : List (Nat × Nat)) : State := l.foldl (fun s p => s.noteRead d p.1 p.2) s

/-- A release of die scope or wider: the pending clock is merged and the die's own component raised (R282). -/
def State.releaseDie (s : State) (d : Nat) : State :=
  let g := s.dieClock d
  let c := clockMax g.clk g.pend
  s.setDieClock d { g with clk := c.set d ((c.getD d 0 + 1) % 2 ^ 48) }

/-- Whether an acquire of die scope or wider may complete on die d (R282). -/
def State.acquireReady (s : State) (d : Nat) : Bool :=
  let g := s.dieClock d
  g.inv.all fun x => !clockLe x g.pend

/-- Whether a stamped invalidation may be applied: no componentwise lower one is outstanding (R282). -/
def DieClock.appliable (g : DieClock) (x : List Nat) : Bool :=
  g.inv.contains x && g.inv.all fun y => y == x || !clockLe y x

/-- INVALIDATION_APPLY (R282): a die applies one stamped invalidation, in stamp order. -/
def execInvalidationApply (die : Nat) (stamp : List Nat) (s : State) : Host.Outcome State Fault Refusal :=
  let g := s.dieClock die
  if g.appliable stamp then (s.setDieClock die { g with inv := g.inv.erase stamp }).event else s.event

/-- The base die that homes a key of this module's HBM: 8 to 11 (R5, R264). -/
def homeDie (k : Nat) : Nat := 8 + k / 1024 % 4

/-- The base die of an optical port: sixteen ports to a base die (notes/assumptions/74.md). -/
def portDie (p : Nat) : Nat := 8 + p / 16 % 4

/-- A task makes progress: its watchdog's count restarts (R367). -/
def State.progress (s : State) (tid : Nat) : State :=
  { s with tasks := updateIf s.tasks (·.tid == tid) fun k => { k with wdCnt := 0 } }

end Sys2Proof.Machine
end

