-- ==== Sys2Proof/Machine/Float.lean ====
section
/-! DEFINITION. Floating-point values, their encodings, one exact rounding, and the arithmetic, compares and
conversions over them (R95 to R97, R105 to R109, R111, R112). -/

namespace Sys2Proof.Machine

/-! ### Formats -/

/-- The layout of a floating format (R95): exponent and mantissa bits, and the bias. -/
structure FmtSpec where
  ebits : Nat
  mbits : Nat
  bias  : Nat
deriving DecidableEq, Repr

/-- The layouts of R95. -/
def fmtSpec : FpFmt → FmtSpec
  | .f64 => ⟨11, 52, 1023⟩ | .f32 => ⟨8, 23, 127⟩ | .f16 => ⟨5, 10, 15⟩ | .bf16 => ⟨8, 7, 127⟩
  | .e4m3 => ⟨4, 3, 7⟩ | .e5m2 => ⟨5, 2, 15⟩ | .e3m2 => ⟨3, 2, 3⟩ | .e2m3 => ⟨2, 3, 1⟩ | .e2m1 => ⟨2, 1, 1⟩

/-- Whether a format has infinities and NaNs in its all-ones exponent (R96). -/
def hasInf : FpFmt → Bool
  | .f64 | .f32 | .f16 | .bf16 | .e5m2 => true
  | _ => false

/-- Whether a format tells signalling NaNs from quiet ones (R96). -/
def hasSignalling : FpFmt → Bool
  | .f64 | .f32 | .f16 | .bf16 => true
  | _ => false

/-- The bits an element of a format occupies in a register (R95, R99): FP6 takes a byte. -/
def elemBits : FpFmt → Nat
  | .f64 => 64 | .f32 => 32 | .f16 => 16 | .bf16 => 16 | .e2m1 => 4 | _ => 8

/-- The bits an encoding has: sign, exponent and mantissa (R95). -/
def codeBits (f : FpFmt) : Nat := 1 + (fmtSpec f).ebits + (fmtSpec f).mbits

/-- The canonical NaN; a format without NaN gives +0 (R96, R107). -/
def canonicalNaN : FpFmt → Nat
  | .f64 => 0x7FF8000000000000 | .f32 => 0x7FC00000 | .f16 => 0x7E00 | .bf16 => 0x7FC0
  | .e5m2 => 0x7E | .e4m3 => 0x7F | _ => 0

/-- The largest finite magnitude as mantissa and exponent (R95). -/
def maxFinite (f : FpFmt) : Nat × Int :=
  let p := fmtSpec f
  if hasInf f then (2 ^ (p.mbits + 1) - 1, (p.bias : Int) - p.mbits)
  else if f = .e4m3 then (14, 5)
  else (2 ^ (p.mbits + 1) - 1, (2 ^ p.ebits - 1 : Int) - p.bias - p.mbits)

/-- The encoding of the largest finite magnitude (R95, R96). -/
def maxFiniteCode (f : FpFmt) : Nat :=
  let p := fmtSpec f
  if hasInf f then (2 ^ p.ebits - 1) * 2 ^ p.mbits - 1
  else if f = .e4m3 then 0x7E
  else 2 ^ (p.ebits + p.mbits) - 1

/-! ### Values -/

/-- A floating value: a NaN, an infinity, or `±m * 2 ^ e`; zero keeps its sign (R95, R96). -/
inductive Fl
  | nan (signalling : Bool)
  | inf (neg : Bool)
  | fin (neg : Bool) (m : Nat) (e : Int)
deriving DecidableEq, Repr

/-- The value of an encoding (R95, R96). -/
def decodeFl (f : FpFmt) (n : Nat) : Fl :=
  let p := fmtSpec f
  let m := n % 2 ^ p.mbits
  let e := n / 2 ^ p.mbits % 2 ^ p.ebits
  let neg : Bool := n / 2 ^ (p.ebits + p.mbits) % 2 = 1
  if hasInf f && e == 2 ^ p.ebits - 1 then
    if m = 0 then .inf neg else .nan (hasSignalling f && m / 2 ^ (p.mbits - 1) == 0)
  else if f = .e4m3 && e == 15 && m == 7 then .nan false
  else if e = 0 then .fin neg m (1 - (p.bias : Int) - p.mbits)
  else .fin neg (2 ^ p.mbits + m) ((e : Int) - p.bias - p.mbits)

/-- The value of an E8M0 code (R97). -/
def decodeE8M0 (n : Nat) : Fl := if n % 256 = 255 then .nan false else .fin false 1 ((n % 256 : Nat) - 127)

/-- Flags of FPST by bit (R103). -/
abbrev Flags := BitVec 6
/-- NV: invalid operation. -/
def flagNV : Flags := 1
/-- DZ: division by zero. -/
def flagDZ : Flags := 2
/-- OF: overflow. -/
def flagOF : Flags := 4
/-- UF: underflow. -/
def flagUF : Flags := 8
/-- NX: inexact. -/
def flagNX : Flags := 16
/-- SAT: an integer result was clipped. -/
def flagSAT : Flags := 32

/-- A flag raised when a condition holds. -/
def flagIf (b : Bool) (x : Flags) : Flags := if b then x else 0

/-! ### Rounding -/

/-- Rounds `m * 2 ^ e` (with something below its last bit when `sticky`) to a whole number of units `2 ^ q`,
and says whether that was inexact; RM as FPST has it (R103, R105). -/
def roundUnits (rm : BitVec 2) (neg : Bool) (m : Nat) (e : Int) (sticky : Bool) (q : Int) : Nat × Bool :=
  if q ≤ e then (m * 2 ^ (e - q).toNat, sticky)
  else
    let k := (q - e).toNat
    let r := m / 2 ^ k
    let d := m % 2 ^ k
    let half := 2 ^ (k - 1)
    let inexact := d != 0 || sticky
    let up : Bool := match rm.toNat with
      | 0 => d > half || (d == half && (sticky || r % 2 == 1))
      | 1 => false
      | 2 => !neg && inexact
      | _ => neg && inexact
    (if up then r + 1 else r, inexact)

/-- The sign bit of a format's encoding (R95). -/
def signBit (f : FpFmt) (neg : Bool) : Nat := if neg then 2 ^ ((fmtSpec f).ebits + (fmtSpec f).mbits) else 0

/-- An infinity in a format: a format without one takes the largest finite magnitude and NV (R107). -/
def packInf (f : FpFmt) (neg : Bool) : Nat × Flags :=
  if hasInf f then (signBit f neg + (2 ^ (fmtSpec f).ebits - 1) * 2 ^ (fmtSpec f).mbits, 0)
  else (signBit f neg + maxFiniteCode f, flagNV)

/-- A NaN in a format: the canonical one, or +0 with NV where the format has none (R96, R107). -/
def packNaN (f : FpFmt) (nv : Bool) : Nat × Flags :=
  (canonicalNaN f, flagIf (nv || canonicalNaN f == 0) flagNV)

/-- An overflow (R107): infinity or the largest finite magnitude as the rounding mode gives; always the
largest finite magnitude where the format has no infinity. -/
def packOverflow (f : FpFmt) (rm : BitVec 2) (neg : Bool) : Nat × Flags :=
  let toInf : Bool := match rm.toNat with | 0 => true | 1 => false | 2 => !neg | _ => neg
  if hasInf f && toInf then (signBit f neg + (2 ^ (fmtSpec f).ebits - 1) * 2 ^ (fmtSpec f).mbits, flagOF ||| flagNX)
  else (signBit f neg + maxFiniteCode f, flagOF ||| flagNX)

/-- Whether `r * 2 ^ q` lies above `m * 2 ^ e`. -/
def aboveUnits (r : Nat) (q : Int) (m : Nat) (e : Int) : Bool :=
  let b := min q e
  m * 2 ^ (e - b).toNat < r * 2 ^ (q - b).toNat

/-- Rounds `±m * 2 ^ e` to a format, once, with the policy of R107; tininess is found after rounding (R105). -/
def packFin (f : FpFmt) (rm : BitVec 2) (neg : Bool) (m : Nat) (e : Int) (sticky : Bool) : Nat × Flags :=
  if m = 0 && !sticky then (signBit f neg, 0)
  else
    let p := fmtSpec f
    let top := (m.log2 : Int) + e
    let bottom := 1 - (p.bias : Int) - p.mbits
    let free := top - p.mbits
    let q := max free bottom
    let (r, inexact) := roundUnits rm neg m e sticky q
    let (r0, _) := roundUnits rm neg m e sticky free
    let tiny := aboveUnits 1 (1 - (p.bias : Int)) r0 free
    let mx := maxFinite f
    if aboveUnits r q mx.1 mx.2 then packOverflow f rm neg
    else (signBit f neg + (q - bottom).toNat * 2 ^ p.mbits + r,
      flagIf inexact flagNX ||| flagIf (tiny && inexact) flagUF)

/-- An exact result before its one rounding. -/
inductive Exact
  | nan
  | inf (neg : Bool)
  | num (neg : Bool) (m : Nat) (e : Int) (sticky : Bool)
deriving DecidableEq, Repr

/-- A result in a format, with the flags raised before the rounding (R105 to R107). -/
def packExact (f : FpFmt) (rm : BitVec 2) (fl : Flags) : Exact → Nat × Flags
  | .nan => let r := packNaN f false; (r.1, r.2 ||| fl)
  | .inf n => let r := packInf f n; (r.1, r.2 ||| fl)
  | .num n m e st => let r := packFin f rm n m e st; (r.1, r.2 ||| fl)

/-- Whether a value is a signalling NaN. -/
def Fl.sig : Fl → Bool | .nan s => s | _ => false
/-- Whether a value is a NaN. -/
def Fl.isNaN : Fl → Bool | .nan _ => true | _ => false

/-! ### Exact arithmetic (R105, R163) -/

/-- `±m * 2 ^ e` as a signed number of units `2 ^ b`, `b` at most `e`. -/
def units (neg : Bool) (m : Nat) (e b : Int) : Int :=
  let u : Int := m * 2 ^ (e - b).toNat
  if neg then -u else u

/-- A sum of two finite values, its zero signed as IEEE 754 gives it for the rounding mode. -/
def sumFin (rm : BitVec 2) (n1 : Bool) (m1 : Nat) (e1 : Int) (n2 : Bool) (m2 : Nat) (e2 : Int) : Exact :=
  if m1 = 0 ∧ m2 = 0 then .num (if n1 = n2 then n1 else rm = 3) 0 0 false
  else if m1 = 0 then .num n2 m2 e2 false
  else if m2 = 0 then .num n1 m1 e1 false
  else
    let b := min e1 e2
    let t := units n1 m1 e1 b + units n2 m2 e2 b
    if t = 0 then .num (rm = 3) 0 0 false else .num (t < 0) t.natAbs b false

/-- A + B, exactly. -/
def addFl (rm : BitVec 2) (a b : Fl) : Exact × Flags :=
  match a, b with
  | .nan s, y => (.nan, flagIf (s || y.sig) flagNV)
  | x, .nan s => (.nan, flagIf (s || x.sig) flagNV)
  | .inf n, .inf k => if n = k then (.inf n, 0) else (.nan, flagNV)
  | .inf n, .fin _ _ _ => (.inf n, 0)
  | .fin _ _ _, .inf n => (.inf n, 0)
  | .fin n1 m1 e1, .fin n2 m2 e2 => (sumFin rm n1 m1 e1 n2 m2 e2, 0)

/-- The value with its sign turned. -/
def Fl.neg : Fl → Fl
  | .nan s => .nan s | .inf n => .inf !n | .fin n m e => .fin (!n) m e

/-- A × B, exactly: none for an invalid product. -/
def prodFl (a b : Fl) : Option Fl :=
  match a, b with
  | .nan s, y => some (.nan (s || y.sig))
  | x, .nan s => some (.nan (s || x.sig))
  | .inf n, .inf k => some (.inf (n != k))
  | .inf n, .fin k m _ => if m = 0 then none else some (.inf (n != k))
  | .fin k m _, .inf n => if m = 0 then none else some (.inf (n != k))
  | .fin n1 m1 e1, .fin n2 m2 e2 => some (.fin (n1 != n2) (m1 * m2) (e1 + e2))

/-- A × B, before rounding. -/
def mulFl (a b : Fl) : Exact × Flags :=
  match prodFl a b with
  | none => (.nan, flagNV)
  | some (.nan s) => (.nan, flagIf s flagNV)
  | some (.inf n) => (.inf n, 0)
  | some (.fin n m e) => (.num n m e false, 0)

/-- A × B + C, before its one rounding; ∞ × 0 is invalid beside a NaN too (R105). -/
def fmaFl (rm : BitVec 2) (a b c : Fl) : Exact × Flags :=
  match prodFl a b with
  | none => (.nan, flagNV)
  | some p => addFl rm p c

/-- A / B, to at least `k` bits with the rest in the sticky bit. -/
def divFl (k : Nat) (a b : Fl) : Exact × Flags :=
  match a, b with
  | .nan s, y => (.nan, flagIf (s || y.sig) flagNV)
  | x, .nan s => (.nan, flagIf (s || x.sig) flagNV)
  | .inf _, .inf _ => (.nan, flagNV)
  | .inf n, .fin j _ _ => (.inf (n != j), 0)
  | .fin n _ _, .inf j => (.num (n != j) 0 0 false, 0)
  | .fin n1 m1 e1, .fin n2 m2 e2 =>
    if m2 = 0 then (if m1 = 0 then (.nan, flagNV) else (.inf (n1 != n2), flagDZ))
    else
      let sh := k + m2.log2 + 1
      let x := m1 * 2 ^ sh
      (.num (n1 != n2) (x / m2) (e1 - e2 - sh) (x % m2 != 0), 0)

/-- √A, to at least `k` bits with the rest in the sticky bit (R127). -/
def sqrtFl (k : Nat) (a : Fl) : Exact × Flags :=
  match a with
  | .nan s => (.nan, flagIf s flagNV)
  | .inf false => (.inf false, 0)
  | .inf true => (.nan, flagNV)
  | .fin n m e =>
    if m = 0 then (.num n 0 0 false, 0)
    else if n then (.nan, flagNV)
    else
      let sh := 2 * k + (if (e - 2 * k) % 2 = 0 then 0 else 1)
      let x := m * 2 ^ sh
      let r := isqrt x
      (.num false r ((e - sh) / 2) (r * r != x), 0)

/-- Whether a finite or infinite value lies below another; −0 equals +0. -/
def ltFl (a b : Fl) : Bool :=
  match a, b with
  | .nan _, _ => false
  | _, .nan _ => false
  | .inf n, .inf k => n && !k
  | .inf n, .fin _ _ _ => n
  | .fin _ _ _, .inf k => !k
  | .fin n1 m1 e1, .fin n2 m2 e2 => let c := min e1 e2; units n1 m1 e1 c < units n2 m2 e2 c

/-- Whether two values are equal as numbers. -/
def eqFl (a b : Fl) : Bool := !a.isNaN && !b.isNaN && !ltFl a b && !ltFl b a

/-- The sign of a value that is not a NaN. -/
def Fl.isNeg : Fl → Bool | .inf n => n | .fin n _ _ => n | .nan _ => false

/-- Whether A is before B in the order of MIN and MAX, with −0 below +0 (R105). -/
def beforeFl (a b : Fl) : Bool := ltFl a b || (eqFl a b && a.isNeg && !b.isNeg)

/-- minimumNumber or maximumNumber over encodings (R105): the other operand beside one NaN, the canonical NaN
for two; a signalling NaN sets NV. -/
def minMaxCode (f : FpFmt) (wantMax : Bool) (x y : Nat) : Nat × Flags :=
  let a := decodeFl f x
  let b := decodeFl f y
  let nv := flagIf (a.sig || b.sig) flagNV
  if a.isNaN && b.isNaN then (canonicalNaN f, nv)
  else if a.isNaN then (y, nv)
  else if b.isNaN then (x, nv)
  else if wantMax then (if beforeFl a b then y else x, nv) else (if beforeFl b a then y else x, nv)

/-- The relations of the compares (R126, R164). -/
inductive Rel | eq | lt | le | un
deriving DecidableEq, Repr

/-- A compare of two encodings: its truth and its flags (R126). -/
def compareCode (f : FpFmt) (r : Rel) (x y : Nat) : Bool × Flags :=
  let a := decodeFl f x
  let b := decodeFl f y
  let nan := a.isNaN || b.isNaN
  let sig := flagIf (a.sig || b.sig) flagNV
  match r with
  | .eq => (eqFl a b, sig)
  | .lt => (ltFl a b, flagIf nan flagNV)
  | .le => (!nan && !ltFl b a, flagIf nan flagNV)
  | .un => (nan, sig)

/-! ### The arithmetic of a format (R105, R106, R163) -/

/-- One element of a floating operation of R80 but the compares: operands A, B and C as encodings. -/
def fpElem (f : FpFmt) (o : FpOp) (rm : BitVec 2) (x y z : Nat) : Nat × Flags :=
  let w := codeBits f
  let x := x % 2 ^ w
  let y := y % 2 ^ w
  let z := z % 2 ^ w
  let a := decodeFl f x
  let b := decodeFl f y
  let c := decodeFl f z
  let out (r : Exact × Flags) := packExact f rm r.2 r.1
  match o with
  | .add => out (addFl rm a b)
  | .sub => out (addFl rm a b.neg)
  | .mul => out (mulFl a b)
  | .fma => out (fmaFl rm a b c)
  | .fms => out (fmaFl rm a b c.neg)
  | .fnma => out (fmaFl rm a.neg b c)
  | .min => minMaxCode f false x y
  | .max => minMaxCode f true x y
  | .div => out (divFl ((fmtSpec f).mbits + 4) a b)
  | .sqrt => out (sqrtFl ((fmtSpec f).mbits + 4) a)
  | .abs => (x % 2 ^ (w - 1), 0)
  | .neg => (if x / 2 ^ (w - 1) = 1 then x - 2 ^ (w - 1) else x + 2 ^ (w - 1), 0)
  | .cmpeq => let r := compareCode f .eq x y; (if r.1 then 1 else 0, r.2)
  | .cmplt => let r := compareCode f .lt x y; (if r.1 then 1 else 0, r.2)
  | .cmple => let r := compareCode f .le x y; (if r.1 then 1 else 0, r.2)
  | .cmpun => let r := compareCode f .un x y; (if r.1 then 1 else 0, r.2)

/-! ### Conversions (R107, R109) -/

/-- A value to a floating format (R107). -/
def flToFp (f : FpFmt) (rm : BitVec 2) : Fl → Nat × Flags
  | .nan s => packNaN f s
  | .inf n => packInf f n
  | .fin n m e => packFin f rm n m e false

/-- Clips an integer to a range; the second part says whether it was outside. -/
def clip (lo hi x : Int) : Int × Bool := if x < lo then (lo, true) else if hi < x then (hi, true) else (x, false)

/-- A value to an integer of a range, in two's complement of `w` bits (R109). -/
def flToInt (w : Nat) (lo hi : Int) (rm : BitVec 2) : Fl → Nat × Flags
  | .nan _ => (0, flagNV)
  | .inf n => ((BitVec.ofInt w (if n then lo else hi)).toNat, flagNV)
  | .fin n m e =>
    let (r, inexact) := roundUnits rm n m e false 0
    let c := clip lo hi (if n then -(r : Int) else r)
    ((BitVec.ofInt w c.1).toNat, if c.2 then flagNV else flagIf inexact flagNX)

/-- An integer as a value (R109). -/
def intToFl (x : Int) : Fl := .fin (x < 0) x.natAbs 0

/-! ### Stochastic rounding (R111, R112) -/

/-- One step of the LFSR (R111). -/
def lfsrStep (s : BitVec 32) : BitVec 32 := if bit s 0 then (s >>> 1) ^^^ 0x80200003 else s >>> 1

/-- Several steps of the LFSR. -/
def lfsrSteps : Nat → BitVec 32 → BitVec 32
  | 0, s => s
  | n + 1, s => lfsrSteps n (lfsrStep s)

/-- CVTSR's rounding of a value to a format with sixteen random bits (R112). -/
def stochasticFp (f : FpFmt) (rnd : Nat) : Fl → Nat × Flags
  | .nan s => packNaN f s
  | .inf n => packInf f n
  | .fin n m e =>
    if m = 0 then (signBit f n, 0)
    else
      let p := fmtSpec f
      let bottom := 1 - (p.bias : Int) - p.mbits
      let q := max ((m.log2 : Int) + e - p.mbits) bottom
      let t := (roundUnits 1 false m e false q).1
      let d16 := (roundUnits 1 false m e false (q - 16)).1 - t * 2 ^ 16
      let exact := !(roundUnits 1 false m e false q).2
      let r := if 2 ^ 16 ≤ d16 + rnd then t + 1 else t
      let mx := maxFinite f
      if aboveUnits r q mx.1 mx.2 then packOverflow f 0 n
      else (signBit f n + (q - bottom).toNat * 2 ^ p.mbits + r,
        flagIf (!exact) flagNX ||| flagIf (!exact && aboveUnits 1 (1 - (p.bias : Int)) r q) flagUF)

end Sys2Proof.Machine
end

