-- ==== Sys2Proof/Machine/Flags.lean ====
section
/-! DEFINITION. FPST: the rounding mode, the sticky flags and the LFSR (R103, R104, R174). -/

namespace Sys2Proof.Machine

/-- The rounding mode FPST.RM (R103). -/
def fpstRm (w : Word) : BitVec 2 := w.extractLsb' 8 2
/-- The LFSR (R103). -/
def fpstLfsr (w : Word) : BitVec 32 := w.extractLsb' 32 32
/-- The sticky flags (R103). -/
def fpstFlags (w : Word) : Flags := w.extractLsb' 0 6

/-- FPST from its fields; a zero LFSR is stored as one (R103). -/
def fpstMake (lfsr : BitVec 32) (rm : BitVec 2) (fl : Flags) : Word :=
  (if lfsr = 0 then 1 else lfsr) ++ (0 : BitVec 22) ++ rm ++ (0 : BitVec 2) ++ fl

/-- What a WRSR of a word leaves in FPST: a nonzero write to an RSV field is ignored (R19, R103). -/
def fpstWritten (w : Word) : Word := fpstMake (fpstLfsr w) (fpstRm w) (fpstFlags w)

/-- Writes the bits of FPST that a mask names (R174). -/
def fpstMasked (w : Word) (p : Word × Word) : Word := (w &&& ~~~p.1) ||| (p.2 &&& p.1)

/-- What a group's writes leave in FPST, in slot order (R69, R104, R174). FPSET and FPFLUSH write the bits that they select:
of two in one group, one of them guarded, each stands on the bits that the higher slot does not select
(notes/assumptions/70.md). -/
def fpstCommit (w : Word) : List (Word × Word) → Word
  | [] => w
  | l => fpstWritten (l.foldl fpstMasked w)

/-- FPST with flags ORed in (R104). -/
def fpstOr (w : Word) (fl : Flags) : Word := w ||| fl.zeroExtend 64

/-- FPST with another LFSR value (R111). -/
def fpstSetLfsr (w : Word) (l : BitVec 32) : Word := fpstMake l (fpstRm w) (fpstFlags w)

end Sys2Proof.Machine
end

