-- ==== Sys2Proof/Machine/Operands.lean ====
section
/-! DEFINITION. How a slot reads: claimable units first touched, sources and streams, operand ports, and what
stops a slot (R57 to R65, R71, R147, R160, R183 to R187, R353 to R355). -/

namespace Sys2Proof.Machine

/-- What keeps a slot from completing: it is tried again, it traps (a spill that cannot be written tells system software
too), it first needs a claimable unit, or its access stands behind an older one that still waits for its data. -/
inductive Stop
  | stall (w : WaitOn) (f : Frame)
  | trap (r : TrapRec)
  | spill (r : TrapRec) (why va : Nat)
  | claim (u : TileUnit)
  | behind (f : Frame)
deriving DecidableEq, Repr

/-- The trap causes of R345 by code. -/
inductive Cause
  | illenc | illdep | illfmt | badtgt | ownf | tagbusy | align | priv | winovf | agto | wdog | mchk | savef | csegf
deriving DecidableEq, Repr

/-- The code of a cause (R345, R352). -/
def Cause.code : Cause → Nat
  | illenc => 1 | illdep => 2 | illfmt => 3 | badtgt => 4 | ownf => 5 | tagbusy => 6 | align => 7 | priv => 8
  | winovf => 9 | agto => 10 | wdog => 11 | mchk => 12 | savef => 13 | csegf => 14

/-- A trap with its sub-cause and the address it records (R345, R348). -/
def trapAt (c : Cause) (sub addr : Nat) : Stop := .trap ⟨c.code, sub, addr, 0, 0, none⟩
/-- A trap that records no address. -/
def trapOf (c : Cause) : Stop := trapAt c 0 0

/-- Refuses with a stop unless a condition holds. -/
def need (b : Bool) (e : Stop) : Except Stop Unit := if b then .ok () else .error e

/-! ### Claimable units (R353 to R355) -/

/-- Whether a context belongs to a strand that has not ended (R355). -/
def State.liveCtx (s : State) (id : Nat) : Bool := (s.owner? id).isSome

/-- The number of good scalar banks of the strand's tile (R138, R358). -/
def Frame.banks (f : Frame) : Nat := (f.s.tile f.t.ptn).banks.length

/-- The holder of a unit of the strand's tile (R355). -/
def Frame.holderOf (f : Frame) (u : TileUnit) : Option Nat :=
  ((f.s.tile f.t.ptn).owners.find? (·.1 == u)).map (·.2)

/-- Whether another strand that has not ended holds a unit (R355). -/
def Frame.heldByOther (f : Frame) (u : TileUnit) : Bool :=
  match f.holderOf u with
  | none => false
  | some id => id != f.c.id && f.s.liveCtx id

/-- The unit of the bank that holds pair e (R354). -/
def Frame.pairBank (f : Frame) (e : Nat) : TileUnit :=
  .bank (Fin.ofNat 8 ((f.s.tile f.t.ptn).banks.getD (bankOfPair e f.banks) 0))

/-- The unit of the bank that holds windowed register sn (R135, R354). -/
def Frame.registerBank (f : Frame) (n : Nat) : TileUnit := f.pairBank (f.c.depth + (n - 8) / 16)

/-- Whether the pairs that the window names are resident (R135, R354). -/
def Frame.windowResident (f : Frame) : Bool := f.c.lo ≤ f.c.depth && f.c.depth + 1 ≤ f.c.hi

/-- Records this strand as the holder of a unit that nobody else holds (R355). -/
def Frame.own (f : Frame) (u : TileUnit) : Frame :=
  let r := f.s.tile f.t.ptn
  if f.holderOf u = some f.c.id then f
  else { f with s := f.s.setTile { r with owners := (u, f.c.id) :: r.owners.filter (·.1 != u) } }

/-- Whether a context's state for a unit is in its save area (R355). -/
def Ctx.isAway (c : Ctx) (u : TileUnit) : Bool := c.away.any (·.unit == u)

/-- Whether a unit is at hand: no other strand holds it, and its state is not in the save area (R355). -/
def Frame.atHand (f : Frame) (u : TileUnit) : Bool :=
  !f.heldByOther u && !f.c.isAway u && (match u with | .bank _ => f.windowResident | _ => true)

/-- A touch of a claimable unit: it is ours, or it must first be handed over or restored (R353, R355). -/
def Frame.touch (f : Frame) (u : TileUnit) : Except Stop Frame :=
  if f.atHand u then .ok (f.own u) else .error (.claim u)

/-- Touches in order (R355). -/
def Frame.touchAll (f : Frame) : List TileUnit → Except Stop Frame
  | [] => .ok f
  | u :: us => match f.touch u with
    | .ok g => g.touchAll us
    | .error e => .error e

/-- The slack that the group sees. -/
def Frame.slack (f : Frame) : BitVec 16 := f.t.snap.ctx.slk

/-- The unit of the slot that issues (R63). -/
def Frame.unit (f : Frame) : UnitName := UnitName.ofCode f.c.seq.slot

/-- The operations that a unit holds in its elastic buffer (R147). -/
def Ctx.holdsOf (c : Ctx) (u : UnitName) : Nat := (c.held.filter fun x => x.unit == u && x.till.isNone).length

/-- What a unit's elastic buffer holds of the group's context (R147): operations that have still to run, calls that their
engine's queue has no room for (R196), tag commands not yet accepted (R232), and posts not yet handed over (R254). -/
def Frame.buffered (f : Frame) (u : UnitName) : Nat :=
  f.c.holdsOf u + match u with
  | .en => f.c.mxe.held.length + f.c.xfu.held.length
  | .ca | .cb => (f.s.cmds.filter fun k => k.ctx == f.c.id && k.engineB == (u == .cb) && !k.accepted).length
      + (f.s.posts.filter fun p => p.ctx == f.c.id && p.unit == u && !p.handed).length
  | _ => 0

/-- Notes that the slot's trigger waits for a unit that is not at hand (R355). -/
def Frame.want (f : Frame) (u : TileUnit) : Frame :=
  { f with c := { f.c with
      wants := if f.c.wants.any (·.2 == u) then f.c.wants else f.c.wants ++ [(f.c.icyc, u)]
      seq := { f.c.seq with late := f.c.seq.late ++ [u] } } }

/-- A touch by a trigger (R147, R355): of a unit that is not at hand the trigger is late, so it is held while SLK runs
and its buffer has room, and else the tile stalls. An operation whose turn has come waits for nothing more. -/
def Frame.reach (f : Frame) (u : TileUnit) : Except Stop Frame :=
  if f.atHand u then .ok (f.own u)
  else if f.c.again.isSome || (f.slack != 0 && f.buffered f.unit < 4) then .ok (f.want u)
  else .error (.claim u)

/-- Touches of a trigger, in order (R355). -/
def Frame.reachAll (f : Frame) : List TileUnit → Except Stop Frame
  | [] => .ok f
  | u :: us => match f.reach u with
    | .ok g => g.reachAll us
    | .error e => .error e

/-- The scratchpad block of an address as a claimable unit (R353). -/
def blockUnit (a : Nat) : TileUnit := .block (Fin.ofNat 512 (a / 4096))

/-- The claimable units that naming a source touches (R353). -/
def Frame.sourceUnits (f : Frame) : Source → List TileUnit
  | .q _ => [.queue]
  | .s n => if n.val < 8 then [] else [f.registerBank n]
  | .v _ => [.vfile]
  | .f _ => [.feeds]
  | .k n => if n.val = 0 then [.mxe] else if n.val = 1 then [.xfu] else []
  | .col => [.vfile]
  | .lcin => [.loops]
  | _ => []

/-! ### The strand's scratchpad as it sees it (R129, R183, R287, R387) -/

/-- The stores that are held or still draining, oldest first (R287, R387). -/
def Strand.pendingStores (t : Strand) : List HeldStore :=
  t.drain ++ (match t.spec with | some p => p.stores | none => [])

/-- The byte that pending stores give a key, the latest standing. -/
def heldByte (l : List HeldStore) (k : Nat) : Option Byte :=
  ((l.map (·.pieces)).flatten).foldl (fun r p => if p.1 ≤ k ∧ k < p.1 + p.2.length then p.2[k - p.1]? else r) none

/-- A byte as the strand's own loads see it. -/
def Frame.byte (f : Frame) (k : Nat) : Byte := (heldByte f.t.pendingStores k).getD (Memory.get f.s.mem k)

/-- Bytes as the strand's own loads see them. -/
def Frame.bytes (f : Frame) (k n : Nat) : List Byte := (rangeFrom k n).map f.byte

/-- A byte as it stood at the group's start (R183). -/
def Frame.byteAtStart (f : Frame) (k : Nat) : Byte :=
  match heldByte f.t.snap.held k with
  | some b => b
  | none => match f.t.snap.undo.find? (·.1 == k) with
    | some p => p.2
    | none => Memory.get f.s.mem k

/-- The swizzle of a logical address (R175). -/
def swizzle (s x : Nat) : Nat := if s = 0 then x else x ^^^ ((x / 2 ^ s % 8) * 16)

/-- The physical chunk addresses of 256 bytes at a logical address (R176). -/
def chunkAddrs (s x : Nat) : List Nat := (List.range 16).map fun c => swizzle s (x + 16 * c)

/-- A vector from its bytes (R16). -/
def vecOfBytes (bs : List Byte) : Vec := BitVec.ofNat 2048 (numLE bs)

/-- The first address of a list in a block whose owner bit is one (R128, R179). -/
def Frame.firstOwned (f : Frame) (as : List Nat) : Option Nat := as.find? fun a => f.ownerBit (a / 4096)

/-! ### Accesses that stand behind one whose data has still to come (R162, R198) -/

/-- Whether an operand is a feed element that an older store has still to write. -/
def HeldArg.isElement : HeldArg → Bool
  | .element _ _ => true
  | _ => false

/-- Whether an instruction reads or writes the cluster-shared window (R130, R132, R180). -/
def reachesWindow : Instr → Bool
  | .ldwCl _ _ | .lddCl _ _ | .stwCl _ _ | .stdCl _ _ | .aaddCl _ _ | .aandCl _ _ | .aorCl _ _ | .axorCl _ _
  | .aminCl _ _ | .amaxCl _ _ | .aswapCl _ _ | .acasCl _ _ | .vldCl _ _ | .vstCl _ _ => true
  | _ => false

/-- Whether a held operation is to reach the window. -/
def Held.onWindow (x : Held) : Bool := match x.op with | some (.again i) => reachesWindow i | _ => false

/-- Whether a key is a window byte's. -/
def keyInWindow (k : Nat) : Bool := 2 ^ 40 ≤ k && k < 2 ^ 41

/-- Whether a held operation has still to read or write memory as it issued (R162, R183). -/
def Held.pending (x : Held) : Bool :=
  (match x.op with | some (.again _) => true | _ => false) || x.args.any (·.isElement)

/-- Whether two ranges of keys share a byte. -/
def rangesMeet (p q : Nat × Nat) : Bool := p.1 < q.1 + q.2 && q.1 < p.1 + p.2

/-- Whether an access of some keys must wait for a held operation: both touch a byte, and one of them writes it; or both go
to the window, whose banks a tile's accesses reach in issue order (R131). -/
def Held.meets (x : Held) (keys : List (Nat × Nat)) (writes : Bool) : Bool :=
  x.pending && ((x.onWindow && keys.any fun k => keyInWindow k.1) || match x.foot with
    | none => true
    | some l => (writes || x.writes) && l.any fun p => keys.any (rangesMeet p))

/-- Whether an access must wait for a held operation that issued before number `rid`: accesses take effect in the order
in which they issued (R162, R179). -/
def Ctx.blocked (c : Ctx) (rid : Nat) (keys : List (Nat × Nat)) (writes : Bool) : Bool :=
  c.held.any fun x => x.rid < rid && x.meets keys writes

/-- Whether stores are held rather than performed (R287, R387). -/
def Frame.holds (f : Frame) : Bool := f.t.spec.isSome || !f.t.drain.isEmpty

/-- Whether a store must wait for an older one that will be held: held stores are performed in the order in which they
issued (R382, R387). -/
def Frame.storeBehind (f : Frame) : Bool :=
  f.holds && f.c.held.any fun x => x.rid < f.c.nextRid && x.pending && x.writes

/-- Notes the memory that a slot reads or writes; one that an older access has still to touch waits behind it. -/
def Frame.access (f : Frame) (keys : List (Nat × Nat)) (writes : Bool) : Except Stop Frame :=
  let g : Frame := { f with c := { f.c with seq := { f.c.seq with foot := f.c.seq.foot ++ keys } } }
  if f.c.blocked f.c.nextRid keys writes || (writes && f.storeBehind) then .error (.behind g) else .ok g

/-! ### Feed ports (R182 to R185) -/

/-- The offset of element `k` of a walk, level 0 innermost (R183). -/
def walkOffset : List (Nat × Int) → Nat → Int
  | [], _ => 0
  | (b, st) :: l, k => (if b = 0 then 0 else (k % b : Nat) * st) + walkOffset l (if b = 0 then 0 else k / b)

/-- The logical address of element `k`; after the last the walk wraps (R183). -/
def Feed.addr (d : Feed) (k : Nat) : Nat :=
  ((d.base : Int) + walkOffset d.levels (k % (d.levels.foldl (fun p l => p * l.1) 1))).toNat

/-- The value a read port delivers as its element `k` (R183). -/
def Frame.feedValue (f : Frame) (d : Feed) (k : Nat) : Vec :=
  vecOfBytes (((chunkAddrs d.swz (d.addr k)).map fun a => (rangeFrom (Key.pad f.c.id a) 16).map f.byteAtStart).flatten)

/-- The keys of the sixteen chunks of element `k` (R183). -/
def Frame.feedKeys (f : Frame) (d : Feed) (k : Nat) : List Nat := (chunkAddrs d.swz (d.addr k)).map (Key.pad f.c.id)

/-- Element `k` as a trigger takes it: the bytes of the group's start, or, where a store of an earlier group has still
to write one of them, what that store will leave (R162, R183). -/
def Frame.feedArg (f : Frame) (d : Feed) (k : Nat) : HeldArg :=
  if f.c.blocked f.t.snap.ctx.nextRid ((f.feedKeys d k).map fun a => (a, 16)) false then .element d.tag (f.feedKeys d k)
  else .val (.tagged d.tag (f.feedValue d k))

/-- The port token of a write port (R184). -/
def portToken (n : Nat) : Word := BitVec.ofNat 64 (2 ^ 63 + n)

/-! ### The transposer's columns (R187) -/

/-- Column `j` of a block: element i is element j of row i; missing rows read as zero (R186, R187). -/
def TBlock.column (b : TBlock) (j : Nat) : Vec :=
  BitVec.ofNat 2048 ((b.rows.zipIdx.map fun p => fld p.1 (b.width * j) b.width * 2 ^ (b.width * p.2)).foldl (· + ·) 0)

/-- The block whose column is read next (R187). -/
def Ctx.headBlock (c : Ctx) : Option TBlock := c.blocks.find? (·.nextCol < 32)

/-- Whether a block is done with: closed, its last column popped, and no column still to come (R187). -/
def TBlock.spent (b : TBlock) : Bool := b.closed && 32 ≤ b.nextCol && 32 ≤ b.present

/-- Fills an open block's missing rows with free values (notes/assumptions/25.md). -/
def TBlock.freed (b : TBlock) (n : Nat) : TBlock :=
  { b with rows := b.rows ++ (rangeFrom b.rows.length (32 - b.rows.length)).map fun i =>
      BitVec.ofNat 2048 (numLE (freeBytes n (256 * i) 256)) }

/-- Takes the next column: a block is freed when its column 31 is popped (R187). -/
def Ctx.popColumn (c : Ctx) : Ctx :=
  match c.headBlock with
  | none => c
  | some b =>
    let bs := replaceIf c.blocks (·.serial == b.serial) { b with nextCol := b.nextCol + 1 }
    { c with blocks := bs.filter fun x => !x.spent }

/-! ### What kind of value a source delivers (R60, R101, R160) -/

/-- A delivered operand's kind, known before it is fetched (R160). -/
inductive Kind
  | tagged (t : Tag)
  | untyped
  | lane
deriving DecidableEq, Repr

/-- Whether a held NEST has still to bind a feed port, or may name it (R144, R147). -/
def Ctx.nestWaits (c : Ctx) (n : Nat) : Bool :=
  c.held.any fun x => match x.op, x.args with
    | some (.again (.nest _ _)), [_, .val v, _, _] =>
      (match v with | .tagged _ b => fld b 0 3 == n | .untyped w => fld w 0 3 == n | .lane => n == 0)
    | some (.again (.nest _ _)), _ => true
    | _, _ => false

/-- Whether an operand is a column of an open block. -/
def HeldArg.isColumn : HeldArg → Bool
  | .column _ _ => true
  | _ => false

/-- Whether a held operation is an FPSET (R174). -/
def Held.isFpset (x : Held) : Bool := match x.op with | some (.again (.fpset _ _)) => true | _ => false

/-- Whether a held FPSET has still to write FPST (R147, R174). -/
def Ctx.fpsetWaits (c : Ctx) : Bool := c.held.any (·.isFpset)

/-- What a slot does whose operation cannot be put off and needs what is not there yet: it waits at its slot, and SLK runs as
for an operation that is held (R147, notes/assumptions/17.md). -/
def Frame.waitHere (f : Frame) : Stop :=
  .stall .element { f with c := { f.c with slk := f.c.slk - (if f.c.slk = 0 then 0 else 1) } }

/-- The kind of a source; a feed port that no NEST has bound and a column port with no block trap, and one that a held NEST
is to bind has none yet (R144, R183, R187). -/
def Frame.kind (f : Frame) : Source → Except Stop Kind
  | .q n => .ok (.tagged (vget f.t.snap.ctx.queue n QEntry.start).tag)
  | .v n => .ok (.tagged (vget f.t.snap.ctx.vregs n (14, 0)).1)
  | .f n =>
    let d := vget f.c.feeds n Feed.start
    if f.c.nestWaits n then .error f.waitHere
    else if !d.bound then .error (trapOf .illenc) else if d.write then .ok .untyped else .ok (.tagged d.tag)
  | .col => match f.t.snap.ctx.headBlock with
    | none => .error (trapOf .illenc)
    | some b => .ok (.tagged b.tag)
  | .lane => .ok .lane
  | _ => .ok .untyped

/-- The kind of a delivered value. -/
def Val.kind : Val → Kind
  | .tagged t _ => .tagged t
  | .untyped _ => .untyped
  | .lane => .lane

/-- The low 64 bits of a value; a scalar consumer receives 0 from the lane index (R60, R65). -/
def Val.low : Val → Word
  | .tagged _ b => b.extractLsb' 0 64
  | .untyped w => w
  | .lane => 0

/-! ### Fetching -/

/-- What fetching has gathered: the frame with its pops done, the elements and columns that are late, and the
address of a faulted element (R147, R185). -/
structure Fetch where
  f     : Frame
  feeds : List (Nat × Nat)
  cols  : List (Nat × Nat)
  fault : Option Nat
deriving DecidableEq, Repr

/-- A token port's tokens (R199, R307). -/
def Frame.tokens (f : Frame) (n : Nat) : List Word :=
  match n with | 0 => f.c.mxe.k0 | 1 => f.c.xfu.k1 | 2 => f.t.k2 | _ => f.t.k3

/-- A token port's tokens at the group's start. -/
def Frame.tokensAtStart (f : Frame) (n : Nat) : List Word :=
  match n with | 0 => f.t.snap.ctx.mxe.k0 | 1 => f.t.snap.ctx.xfu.k1 | 2 => f.t.snap.k2 | _ => f.t.snap.k3

/-- Replaces a token port's tokens. -/
def Frame.setTokens (f : Frame) (n : Nat) (l : List Word) : Frame :=
  match n with
  | 0 => { f with c := { f.c with mxe := { f.c.mxe with k0 := l } } }
  | 1 => { f with c := { f.c with xfu := { f.c.xfu with k1 := l } } }
  | 2 => { f with t := { f.t with k2 := l } }
  | _ => { f with t := { f.t with k3 := l } }

/-- Notes a token popped during speculation, to be returned on a mismatch (R202, R380). -/
def Frame.notePop (f : Frame) (n : Nat) (w : Word) : Frame :=
  match f.t.spec with
  | none => f
  | some p => { f with t := { f.t with spec := some { p with popped := p.popped ++ [(n, w)] } } }

/-- The tokens of a port that the speculation popped (R202). -/
def Spec.poppedOf (p : Spec) (n : Nat) : List Word := (p.popped.filter (·.1 == n)).map (·.2)

/-- The tokens of a port that an unconfirmed agreement keeps their places for: a mismatch puts them back (R199, R202,
notes/assumptions/95.md). -/
def Strand.poppedHere (t : Strand) (n : Nat) : Nat :=
  (t.spec.map fun p => (p.poppedOf n).length + (p.retry.popped.filter (·.1 == n)).length).getD 0

/-- Whether k2 has room for a token (R307). -/
def Strand.k2Room (t : Strand) : Bool := decide (t.k2.length + t.poppedHere 2 < 16)

/-- Whether k3 has room for a token (R146). -/
def Strand.k3Room (t : Strand) : Bool := decide (t.k3.length + t.poppedHere 3 < 16)

/-- Notes a stream popped in this group; two slots popping one stream, one of them through a binding, trap (R388). -/
def Frame.popOnce (f : Frame) (x : Source) (bound : Bool) : Except Stop Frame :=
  let q := f.c.seq
  if q.pops.any fun p => p.2.1 == x && p.1 != q.slot && (bound || p.2.2) then .error (trapOf .illdep)
  else .ok { f with c := { f.c with seq := { q with pops := (q.slot, x, bound) :: q.pops } } }

/-- The counter that source 126 reads: that of the highest active level (R60, R139). -/
def Ctx.innermost (c : Ctx) : Word :=
  ((c.levels.toList.filter (·.active)).getLast?.map fun l => l.lc.zeroExtend 64).getD 0

/-- A value out of the tile's SRAM: uncorrectable data traps MCHK (R371). -/
def Frame.soundValue (f : Frame) (x : Sram) (v : Val) : Except Stop Val :=
  if f.t.snap.ctx.sound x then .ok v else .error (trapOf .mchk)

/-- Reads a source that is no stream, as it stood at the group's start (R57, R60, R68, R371). -/
def Frame.readValue (f : Frame) : Source → Except Stop Val
  | .q n =>
    let e := vget f.t.snap.ctx.queue n QEntry.start
    if e.filled then f.soundValue (.queue n) (.tagged e.tag e.bits) else .error (.stall .element f)
  | .s n => f.soundValue (f.t.snap.ctx.scalarPlace n) (.untyped (f.t.snap.ctx.readS n))
  | .v n => let r := vget f.t.snap.ctx.vregs n (14, 0); f.soundValue (.vreg n) (.tagged r.1 r.2)
  | .c n =>
    if f.t.snap.cbxTill = 0 then .ok (.untyped (vget f.t.snap.cbank n 0))
    else if f.s.cycle ≤ f.t.snap.cbxTill then .error (.stall .cbx f)
    else .ok (.untyped (vget (reloadBank f.t.const f.t.snap.cbx) n 0))
  | .lit n => .ok (.untyped ((f.c.seq.lits.getD n 0).zeroExtend 64))
  | .one => .ok (.untyped 1)
  | .lane => .ok .lane
  | .rank => .ok (.untyped (BitVec.ofNat 64 f.t.rank))
  | .task => .ok (.untyped (BitVec.ofNat 64 f.t.task))
  | .clus => .ok (.untyped (BitVec.ofNat 64 (clusterOf f.t.ptn % 8)))
  | .die => .ok (.untyped (BitVec.ofNat 64 (dieOf f.t.ptn)))
  | .modId => .ok (.untyped (BitVec.ofNat 64 f.s.modId))
  | .cyc => .ok (.untyped (BitVec.ofNat 64 (f.t.snap.cycle - f.t.cyc)))
  | .lcin => .ok (.untyped f.t.snap.ctx.innermost)
  | _ => .ok (.untyped 0)

/-- Pops or peeks a token port (R38, R59). An empty port is waited for before the second pop of a group through a binding
traps ILLDEP: R388 does not say which comes first (notes/assumptions/60.md). -/
def Fetch.token (k : Fetch) (n : Fin 4) (pop bound : Bool) : Except Stop (HeldArg × Fetch) :=
  if pop then
    match k.f.tokens n with
    | [] => .error (.stall (.token n) k.f)
    | w :: l => match k.f.popOnce (.k n) bound with
      | .error e => .error e
      | .ok g => .ok (.val (.untyped w), { k with f := (g.setTokens n l).notePop n w })
  else .ok (.val (.untyped ((k.f.tokensAtStart n).headD 0)), k)

/-- Pops or peeks a feed port (R59, R183 to R185). -/
def Fetch.feed (k : Fetch) (n : Fin 8) (pop bound : Bool) : Except Stop (HeldArg × Fetch) :=
  let d := vget k.f.c.feeds n Feed.start
  if !d.bound then .error (trapOf .illenc)
  else if d.write then .ok (.val (.untyped (portToken n)), k)
  else
    let pos := if pop then d.pos else (vget k.f.t.snap.ctx.feeds n Feed.start).pos
    let v := k.f.feedArg d pos
    let as := chunkAddrs d.swz (d.addr pos)
    match k.f.firstOwned as with
    | some a => .ok (v, { k with fault := some (k.fault.getD a) })
    | none => do
      let _ ← need (!((k.f.feedKeys d pos).any fun a => k.f.s.bad a 16)) (trapOf .mchk)
      let f ← k.f.reachAll (as.map blockUnit).eraseDups
      let k := { k with f := f }
      let late := if pos < d.arrived then k.feeds else k.feeds ++ [(n.val, pos)]
      if pop then
        match k.f.popOnce (.f n) bound with
        | .error e => .error e
        | .ok g => .ok (v, { k with f := { g with c := { g.c with feeds := vset g.c.feeds n { d with pos := d.pos + 1 } } }, feeds := late })
      else .ok (v, { k with feeds := late })

/-- A column of a block as the group found it: its value once the block is closed. A TCLR of the same group leaves the
missing rows of an open block with free values (R68, R187, notes/assumptions/25.md). -/
def Frame.columnArg (f : Frame) (b : TBlock) : HeldArg :=
  match f.c.blocks.find? (·.serial == b.serial) with
  | some x => if x.closed then .val (.tagged x.tag (x.column b.nextCol)) else .column b.serial b.nextCol
  | none => .val (.tagged b.tag ((if b.closed then b else b.freed (f.s.fresh - 1)).column b.nextCol))

/-- Whether column `j` of a block is there by now; a block that is gone had every column (R187). -/
def Ctx.columnHere (c : Ctx) (serial j : Nat) : Bool :=
  match c.blocks.find? (·.serial == serial) with
  | some b => j < b.present
  | none => true

/-- Pops or peeks the column port, whose head is that of the group's start; whether its column is late is judged as it
stands, for a slot that has stalled on it too (R59, R68, R187). -/
def Fetch.column (k : Fetch) (pop bound : Bool) : Except Stop (HeldArg × Fetch) :=
  match k.f.t.snap.ctx.headBlock with
  | none => .error (trapOf .illenc)
  | some b =>
    let j := b.nextCol
    let v := k.f.columnArg b
    let late := if k.f.c.columnHere b.serial j then k.cols else k.cols ++ [(b.serial, j)]
    if pop then
      match k.f.popOnce .col bound with
      | .error e => .error e
      | .ok g => .ok (v, { k with f := { g with c := g.c.popColumn }, cols := late })
    else .ok (v, { k with cols := late })

/-- Delivers a source, popping it if it is a stream and `pop` says so (R59, R60). -/
def Fetch.source (k : Fetch) (x : Source) (pop bound : Bool) : Except Stop (HeldArg × Fetch) :=
  match x with
  | .k n => k.token n pop bound
  | .f n => k.feed n pop bound
  | .col => k.column pop bound
  | y => match k.f.readValue y with
    | .ok v => .ok (.val v, k)
    | .error e => .error e

/-- Whether a source is a stream (R59). -/
def sourceStream : Source → Bool
  | .k _ | .f _ | .col => true
  | _ => false

/-- Whether a mode peeks. -/
def modePeeks : Mode → Bool
  | .peek | .bindPeek => true
  | _ => false

/-- The index of an operand port: three for each unit (R63, R71). -/
def portIndex (u : UnitName) (p : OpPort) : Nat := 3 * u.code + (p.code - 1)

/-- An operand port of a unit. -/
def Frame.port (f : Frame) (u : UnitName) (p : OpPort) : Port := vget f.c.ports (portIndex u p) Port.start

/-- What kind of value a port delivers at a trigger that uses it (R71). -/
def Frame.portKind (f : Frame) (u : UnitName) (p : OpPort) : Except Stop Kind :=
  let q := f.port u p
  match q.supply with
  | some v => .ok v.kind
  | none => match q.bind with
    | some (.value v) => .ok v.kind
    | some (.stream x _) => f.kind x
    | none => .ok .untyped

/-- The stream that a trigger using a port reads through its binding (R71). -/
def Frame.portStream (f : Frame) (u : UnitName) (p : OpPort) : Option Source :=
  let q := f.port u p
  match q.supply, q.bind with
  | none, some (.stream x _) => some x
  | _, _ => none

/-- Delivers an operand port to a trigger (R71). -/
def Fetch.portValue (k : Fetch) (u : UnitName) (p : OpPort) (used : Bool) : Except Stop (HeldArg × Fetch) :=
  let q := k.f.port u p
  match q.supply with
  | some v => .ok (.val v, k)
  | none => match q.bind with
    | some (.value v) => .ok (.val v, k)
    | some (.stream x peek) => if used then k.source x (!peek) true else .ok (.val (.untyped 0), k)
    | none => .ok (.val (.untyped 0), k)

/-- Consumes the supplies of a unit's ports (R71). -/
def Ctx.consume (c : Ctx) (u : UnitName) : Ctx :=
  let clear (v : Vector Port 24) (p : OpPort) :=
    let i := portIndex u p
    vset v i { vget v i Port.start with supply := none }
  { c with ports := clear (clear (clear c.ports .b) .c) .d }

/-- Privilege: a handler, or a task of a privileged queue (R121). -/
def Frame.privileged (f : Frame) : Bool := f.t.privTask || f.t.saved.isSome

/-- A slot that must wait until speculation ends (R157, R202, R233). Confirmed stores that still drain do not hold it up
(R387). -/
def Frame.settled (f : Frame) : Except Stop Unit :=
  if f.t.spec.isSome then .error (.stall .agreement f) else .ok ()

/-- An atomic waits, besides, for the confirmed stores to be performed: they come before it (R387,
notes/assumptions/61.md). -/
def Frame.drained (f : Frame) : Except Stop Unit :=
  if f.t.drain.isEmpty then .ok () else .error (.stall .buffer f)

/-- The lane index as a consumer of element width `w` receives it (R60). -/
def laneVec (w : Nat) : Vec :=
  BitVec.ofNat 2048 (((List.range (2048 / w)).map fun i => i % 2 ^ w * 2 ^ (w * i)).foldl (· + ·) 0)

/-- The low `w` bits of a word in every lane of width `w` (R60). -/
def broadcast (w : Nat) (x : Nat) : Vec :=
  BitVec.ofNat 2048 (((List.range (2048 / w)).map fun i => x % 2 ^ w * 2 ^ (w * i)).foldl (· + ·) 0)

/-- A value as an operation of element width `w` reads it (R60, R160). -/
def Val.lanes (w : Nat) : Val → Vec
  | .tagged _ b => b
  | .untyped x => broadcast w x.toNat
  | .lane => laneVec w

/-- A value as 64-bit elements: a move to vn, a store's data, a merge operand (R60, R65, R167, R176). -/
def Val.wide (v : Val) : Vec := v.lanes 64

end Sys2Proof.Machine
end

