-- ==== Sys2Proof/Machine/Compute.lean ====
section
/-! DEFINITION. What the scalar and vector units compute from their operands alone (R122 to R127, R163 to R173). -/

namespace Sys2Proof.Machine

/-- A result to push: its tag, its bits and its flags (R73, R104). -/
structure Push where
  tag   : Tag
  bits  : Vec
  flags : Flags
deriving DecidableEq, Repr

/-- A 64-bit result: its high bits are zero (R73). -/
def pushWord (tag : Tag) (w : Word) (fl : Flags) : Push := ⟨tag, w.zeroExtend 2048, fl⟩

/-! ### The scalar unit (R123 to R127) -/

/-- The number of leading zero bits of an `n`-bit number. -/
def leadingZeros (n x : Nat) : Nat := if x = 0 then n else n - 1 - x.log2

/-- The number of trailing zero bits of an `n`-bit number. -/
def trailingZeros : Nat → Nat → Nat
  | 0, _ => 0
  | n + 1, x => if x % 2 = 1 then 0 else 1 + trailingZeros n (x / 2)

/-- The number of one bits. -/
def onesCount : Nat → Nat → Nat
  | 0, _ => 0
  | n + 1, x => x % 2 + onesCount n (x / 2)

/-- DIV and REM (R124). -/
def divSigned (a b : Word) : Word × Word :=
  if b = 0 then (BitVec.allOnes 64, a)
  else if a = 0x8000000000000000 ∧ b = BitVec.allOnes 64 then (a, 0)
  else (BitVec.ofInt 64 (a.toInt.tdiv b.toInt), BitVec.ofInt 64 (a.toInt.tmod b.toInt))

/-- DIVU and REMU (R124). -/
def divUnsigned (a b : Word) : Word × Word := if b = 0 then (BitVec.allOnes 64, a) else (a / b, a % b)

/-- The field of BFX and BFI: a width of ones (R125). -/
def fieldMask (c : Word) : Word := BitVec.ofNat 64 (2 ^ min (fld c 0 7) 64 - 1)

/-- BFX (R125). -/
def bitExtract (a b c : Word) : Word := (a >>> fld b 0 6) &&& fieldMask c

/-- BFI (R125). -/
def bitInsert (a b c d : Word) : Word :=
  let mp := fieldMask c <<< fld b 0 6
  (d &&& ~~~mp) ||| ((a <<< fld b 0 6) &&& mp)

/-- A truth as a word (R126). -/
def truth (b : Bool) : Word := if b then 1 else 0

/-- SEXT and ZEXT: the low n + 1 bits, extended (R123). -/
def extendLow (signed : Bool) (a b : Word) : Word :=
  let n := fld b 0 6 + 1
  if signed then BitVec.ofInt 64 (sintN n a.toNat) else BitVec.ofNat 64 (a.toNat % 2 ^ n)

/-- The integer operations and compares (R123 to R126). -/
def scalarInt (o : ScalarOp) (a b c d : Word) : Word :=
  match o with
  | .add => a + b | .sub => a - b | .and => a &&& b | .or => a ||| b | .xor => a ^^^ b | .andn => a &&& ~~~b
  | .shl => a <<< fld b 0 6 | .shr => a >>> fld b 0 6 | .sar => a.sshiftRight (fld b 0 6)
  | .mul => a * b
  | .mulh => BitVec.ofInt 64 (a.toInt * b.toInt / 2 ^ 64)
  | .mulhu => BitVec.ofNat 64 (a.toNat * b.toNat / 2 ^ 64)
  | .div => (divSigned a b).1 | .divu => (divUnsigned a b).1
  | .rem => (divSigned a b).2 | .remu => (divUnsigned a b).2
  | .min => if a.slt b then a else b | .minu => if a.ult b then a else b
  | .max => if b.slt a then a else b | .maxu => if b.ult a then a else b
  | .clz => BitVec.ofNat 64 (leadingZeros 64 a.toNat)
  | .ctz => BitVec.ofNat 64 (trailingZeros 64 a.toNat)
  | .popc => BitVec.ofNat 64 (onesCount 64 a.toNat)
  | .sext => extendLow true a b | .zext => extendLow false a b
  | .lea => a + (b <<< fld c 0 3)
  | .bfx => bitExtract a b c | .bfi => bitInsert a b c d
  | .cmpeq => truth (a == b) | .cmpne => truth (a != b)
  | .cmplt => truth (a.slt b) | .cmple => truth (a.sle b)
  | .cmpltu => truth (a.ult b) | .cmpleu => truth (a.ule b)
  | _ => 0

/-- An FP64 result from an element operation (R127). -/
def fp64Result (r : Nat × Flags) : Push := pushWord 0 (BitVec.ofNat 64 r.1) r.2

/-- An FP64 compare, tagged i64 (R126). -/
def fp64Compare (r : Rel) (a b : Word) : Push :=
  let t := compareCode .f64 r a.toNat b.toNat
  pushWord 9 (truth t.1) t.2

/-- What the scalar unit computes; RM as read at issue (R123 to R127). -/
def scalarCompute (o : ScalarOp) (rm : BitVec 2) (a b c d : Word) : Push :=
  let fp (p : FpOp) := fp64Result (fpElem .f64 p rm a.toNat b.toNat c.toNat)
  match o with
  | .fcmpeq => fp64Compare .eq a b | .fcmplt => fp64Compare .lt a b
  | .fcmple => fp64Compare .le a b | .fcmpun => fp64Compare .un a b
  | .fadd => fp .add | .fsub => fp .sub | .fmul => fp .mul | .ffma => fp .fma | .fdiv => fp .div
  | .fsqrt => fp .sqrt | .fmin => fp .min | .fmax => fp .max | .fabs => fp .abs | .fneg => fp .neg
  | .fcvtI64 =>
    let r := flToInt 64 (-2 ^ 63) (2 ^ 63 - 1) rm (decodeFl .f64 a.toNat)
    pushWord 9 (BitVec.ofNat 64 r.1) r.2
  | .fcvtF64 => fp64Result (flToFp .f64 rm (intToFl a.toInt))
  | _ => pushWord 9 (scalarInt o a b c d) 0

/-- The latency of a scalar computation (R122). -/
def scalarLatency : ScalarOp → Nat
  | .mul | .mulh | .mulhu => 3
  | .div | .divu | .rem | .remu => 18
  | .fdiv | .fsqrt => 24
  | .fadd | .fsub | .fmul | .ffma | .fmin | .fmax | .fabs | .fneg | .fcvtF64
  | .fcmpeq | .fcmplt | .fcmple | .fcmpun | .fcvtI64 => 4
  | _ => 1

/-- Which of B, C and D a scalar computation uses (R123 to R127). -/
def scalarUses : ScalarOp → Bool × Bool × Bool
  | .clz | .ctz | .popc | .fsqrt | .fabs | .fneg | .fcvtI64 | .fcvtF64 => (false, false, false)
  | .lea | .bfx | .ffma => (true, true, false)
  | .bfi => (true, true, true)
  | _ => (true, false, false)

/-! ### Lanes and tags (R94 to R100, R159) -/

/-- The element width of a tag, 0 for a reserved one (R94, R95, R97, R98). -/
def tagWidth (t : Nat) : Nat :=
  match t with
  | 0 | 9 | 14 => 64
  | 1 | 10 | 15 => 32
  | 2 | 3 | 11 | 16 => 16
  | 4 | 5 | 6 | 7 | 12 | 17 | 21 => 8
  | 8 | 13 | 18 => 4
  | 19 => 1
  | 20 => 2
  | _ => 0

/-- Whether a tag is a floating format (R95). -/
def isFpTag (t : Nat) : Bool := t < 9
/-- Whether a tag is a signed integer format (R94). -/
def isIntTag (t : Nat) : Bool := 9 ≤ t && t < 14
/-- Whether a tag is an unsigned integer format (R94). -/
def isUintTag (t : Nat) : Bool := 14 ≤ t && t < 19

/-- The unsigned integer tag of a width (R164). -/
def uintTag (w : Nat) : Nat :=
  match w with | 64 => 14 | 32 => 15 | 16 => 16 | 8 => 17 | _ => 18

/-- The lanes of a value, lowest first (R16, R159). -/
def lanes (w : Nat) (v : Vec) : List Nat := (List.range (2048 / w)).map fun i => fld v (w * i) w

/-- The bits of lanes of width `w`, lowest first (R16). -/
def ofLanes (w : Nat) (l : List Nat) : Vec :=
  BitVec.ofNat 2048 (l.foldr (fun x acc => x % 2 ^ w + acc * 2 ^ w) 0)

/-- Results with flags: the lanes and the OR of their flags (R163). -/
def gatherLanes (w : Nat) (l : List (Nat × Flags)) : Vec × Flags :=
  (ofLanes w (l.map (·.1)), l.foldl (fun fl r => fl ||| r.2) 0)

/-- Whether a floating operation is a compare (R164). -/
def fpCompares : FpOp → Bool
  | .cmpeq | .cmplt | .cmple | .cmpun => true
  | _ => false

/-- Three lists lane by lane. -/
def zipLanes (a b c : List Nat) : List (Nat × Nat × Nat) := a.zip (b.zip c)

/-- The floating operations, lane by lane (R163, R164). -/
def vectorFp (o : FpOp) (e : FpFmt) (rm : BitVec 2) (a b c : Val) : Push :=
  let w := elemBits e
  let r := (zipLanes (lanes w (a.lanes w)) (lanes w (b.lanes w)) (lanes w (c.lanes w))).map fun p =>
    let x := fpElem e o rm p.1 p.2.1 p.2.2
    if fpCompares o then (if x.1 = 1 then 2 ^ w - 1 else 0, x.2) else x
  let g := gatherLanes w r
  ⟨BitVec.ofNat 5 (if fpCompares o then uintTag w else e.code), g.1, g.2⟩

/-- A saturating sum or difference (R166). -/
def saturate (w : Nat) (signed : Bool) (x : Int) : Nat × Flags :=
  let c := if signed then clip (-2 ^ (w - 1)) (2 ^ (w - 1) - 1) x else clip 0 (2 ^ w - 1) x
  ((BitVec.ofInt w c.1).toNat, flagIf c.2 flagSAT)

/-- One lane of an integer operation (R165, R166). -/
def intElem (o : IntOp) (w x y : Nat) : Nat × Flags :=
  let m := 2 ^ w
  let sx := sintN w x
  let sy := sintN w y
  let sh := y % w
  let ones := m - 1
  match o with
  | .add => ((x + y) % m, 0)
  | .sub => ((x + m - y) % m, 0)
  | .adds => saturate w true (sx + sy)
  | .addsu => saturate w false ((x : Int) + y)
  | .subs => saturate w true (sx - sy)
  | .subsu => saturate w false ((x : Int) - y)
  | .mul => (x * y % m, 0)
  | .mulh => ((BitVec.ofInt w (sx * sy / m)).toNat, 0)
  | .mulhu => (x * y / m, 0)
  | .min => (if sx < sy then x else y, 0)
  | .minu => (if x < y then x else y, 0)
  | .max => (if sy < sx then x else y, 0)
  | .maxu => (if y < x then x else y, 0)
  | .and => (x &&& y, 0)
  | .or => (x ||| y, 0)
  | .xor => (x ^^^ y, 0)
  | .andn => (x &&& (ones - y), 0)
  | .shl => (x * 2 ^ sh % m, 0)
  | .shr => (x / 2 ^ sh, 0)
  | .sar => ((BitVec.ofInt w (sx / 2 ^ sh)).toNat, 0)
  | .cmpeq => (if x = y then ones else 0, 0)
  | .cmplt => (if sx < sy then ones else 0, 0)
  | .cmpltu => (if x < y then ones else 0, 0)
  | .abs => ((BitVec.ofInt w sx.natAbs).toNat, 0)
  | .popc => (onesCount w x, 0)
  | .clz => (leadingZeros w x, 0)

/-- Whether an integer operation accepts any tag that is not reserved (R101, R165). -/
def intBitwise : IntOp → Bool
  | .and | .or | .xor | .andn | .shl | .shr | .sar => true
  | _ => false

/-- Whether an integer operation gives truths (R165). -/
def intCompares : IntOp → Bool
  | .cmpeq | .cmplt | .cmpltu => true
  | _ => false

/-- The tag of a delivered value, or a default for one that has none (R60). -/
def Val.tagOr (d : Nat) : Val → Nat
  | .tagged t _ => t.toNat
  | _ => d

/-- The integer operations, lane by lane (R165, R166). -/
def vectorInt (o : IntOp) (e : IntW) (a b : Val) : Push :=
  let w := e.bits
  let g := gatherLanes w (((lanes w (a.lanes w)).zip (lanes w (b.lanes w))).map fun p => intElem o w p.1 p.2)
  ⟨BitVec.ofNat 5 (if intCompares o then e.uinTag else a.tagOr e.inTag), g.1, g.2⟩

/-! ### Conversions (R167 to R170) -/

/-- The value of an element of a format (R95 to R97, R94). -/
def elemValue (t x : Nat) : Fl :=
  match FpFmt.ofCode? t with
  | some f => decodeFl f x
  | none => if t = 21 then decodeE8M0 x else intToFl (if isIntTag t then sintN (tagWidth t) x else x)

/-- The range of an integer format (R94). -/
def intRange (t : Nat) : Int × Int :=
  let w := tagWidth t
  if isIntTag t then (-2 ^ (w - 1), 2 ^ (w - 1) - 1) else (0, 2 ^ w - 1)

/-- A value to a target format (R107, R109). -/
def valueTo (t : Nat) (rm : BitVec 2) (x : Fl) : Nat × Flags :=
  match FpFmt.ofCode? t with
  | some f => flToFp f rm x
  | none => flToInt (tagWidth t) (intRange t).1 (intRange t).2 rm x

/-- CVT of one element (R107, R109, R168): integer to integer clips with SAT, and a code 0xFF of E8M0 sets NV. -/
def cvtElem (s t : Nat) (rm : BitVec 2) (x : Nat) : Nat × Flags :=
  if (isIntTag s || isUintTag s) && (isIntTag t || isUintTag t) then
    let c := clip (intRange t).1 (intRange t).2 (if isIntTag s then sintN (tagWidth s) x else (x : Int))
    ((BitVec.ofInt (tagWidth t) c.1).toNat, flagIf c.2 flagSAT)
  else
    let r := valueTo t rm (elemValue s x)
    (r.1, r.2 ||| flagIf (s = 21 && x == 255) flagNV)

/-- CVTSC of one element: the exact product with the multiplier, converted once (R110, R169). -/
def cvtscElem (s t : Nat) (rm : BitVec 2) (x m : Nat) : Nat × Flags :=
  match prodFl (elemValue s x) (decodeFl .f32 m) with
  | none => let r := valueTo t rm (.nan false); (r.1, r.2 ||| flagNV)
  | some p => valueTo t rm p

/-- CVTSR of elements in ascending order, each taking sixteen bits of the LFSR (R111, R112). -/
def cvtsrElems (s : Nat) (f : FpFmt) : List Nat → BitVec 32 → List (Nat × Flags)
  | [], _ => []
  | x :: xs, l => stochasticFp f (fld l 0 16) (elemValue s x) :: cvtsrElems s f xs (lfsrSteps 16 l)

/-- The number of elements a conversion converts (R167). -/
def cvtCount (s t : Nat) : Nat := min (2048 / tagWidth s) (2048 / tagWidth t)

/-- The number of parts a conversion has (R167). -/
def cvtParts (s t : Nat) : Nat := max (2048 / tagWidth s) (2048 / tagWidth t) / cvtCount s t

/-- The source elements that part P converts (R167). -/
def cvtSource (s t p : Nat) (v : Vec) : List Nat :=
  let n := cvtCount s t
  let l := lanes (tagWidth s) v
  if cvtParts s t ≠ 1 ∧ tagWidth s < tagWidth t then (l.drop (p * n)).take n else l.take n

/-- The result of a conversion: its elements, and around part P of a narrowing one the merge operand (R167). -/
def cvtMerge (s t p : Nat) (r : List Nat) (merge : Vec) : Vec :=
  let w := tagWidth t
  let n := cvtCount s t
  if tagWidth t < tagWidth s then
    let l := lanes w merge
    ofLanes w (l.take (p * n) ++ r ++ l.drop (p * n + n))
  else ofLanes w r

/-- The source format of a conversion: an untyped A is i64 for CVT and f64 for the others (R167). -/
def cvtSourceTag (o : CvtOp) (a : Val) : Nat := a.tagOr (match o with | .cvt => 9 | _ => 0)

/-- The part number and the merge operand of a conversion (R167). -/
def cvtPart (o : CvtOp) (b c d : Val) : Nat × Val :=
  match o with
  | .cvtsc => (fld c.low 5 3, d)
  | _ => (fld b.low 0 3, c)

/-- A conversion (R167 to R170); a part out of range or a run origin above 23 traps ILLENC. -/
def vectorCvt (o : CvtOp) (t : CvtT) (rm : BitVec 2) (lfsr : BitVec 32) (a b c d : Val) : Except Stop Push :=
  let s := cvtSourceTag o a
  let tt := t.code
  let p := (cvtPart o b c d).1
  let origin := fld c.low 0 5
  if cvtParts s tt ≤ p ∨ (o = .cvtsc ∧ 23 < origin) then .error (trapOf .illenc)
  else
    let xs := cvtSource s tt p (a.lanes (tagWidth s))
    let r : List (Nat × Flags) := match o with
      | .cvt => xs.map (cvtElem s tt rm)
      | .cvtsc =>
        let ms := lanes 32 (b.lanes 32)
        xs.zipIdx.map fun x => cvtscElem s tt rm x.1 (ms.getD ((x.2 + origin) / 24) 0)
      | .cvtsr => match FpFmt.ofCode? tt with
        | some f => cvtsrElems s f xs lfsr
        | none => []
    .ok ⟨BitVec.ofNat 5 tt, cvtMerge s tt p (r.map (·.1)) (cvtPart o b c d).2.wide,
      r.foldl (fun fl x => fl ||| x.2) 0⟩

/-! ### Reductions (R171, R172) -/

/-- The number of lanes that a reduction takes (R171). -/
def lanesTaken (w : Nat) (b : Word) : Nat :=
  let m := fld b 0 10
  if m = 0 ∨ 2048 / w < m then 2048 / w else m

/-- An exact finite sum, as a sign, a magnitude and the unit's exponent. -/
def exactSum (l : List Fl) : Int × Int :=
  let b := l.foldl (fun b x => match x with | .fin _ _ e => min b e | _ => b) 0
  (l.foldl (fun t x => match x with | .fin n m e => t + units n m e b | _ => t) 0, b)

/-- REDADD over floating lanes (R171). -/
def sumLanes (f : FpFmt) (rm : BitVec 2) (l : List Fl) : Nat × Flags :=
  let sig := flagIf (l.any (·.sig)) flagNV
  let pos := l.any (· == .inf false)
  let neg := l.any (· == .inf true)
  if l.any (·.isNaN) || (pos && neg) then (canonicalNaN f, sig ||| flagIf (pos && neg) flagNV)
  else if pos || neg then packInf f neg
  else
    let s := exactSum l
    if s.1 = 0 then
      let allNeg := l.all fun x => match x with | .fin true 0 _ => true | _ => false
      (signBit f (allNeg || rm = 3), 0)
    else packFin f rm (s.1 < 0) s.1.natAbs s.2 false

/-- The lanes of an element format; byte-form FP6 ignores bits [7:6] of each lane, and so returns them zero (R99). -/
def lanesOf (t : Nat) (v : Vec) : List Nat :=
  (lanes (tagWidth t) v).map fun x => if t = 6 ∨ t = 7 then x % 64 else x

/-- An integer lane by its tag's signedness (R171, R172). -/
def laneInt (t x : Nat) : Int := if isIntTag t then sintN (tagWidth t) x else x

/-- REDMAX and REDMIN (R171): minimumNumber and maximumNumber, or the integer order. -/
def reduceOrder (wantMax : Bool) (t : Nat) (l : List Nat) : Nat × Flags :=
  match FpFmt.ofCode? t, l with
  | some f, x :: xs =>
    let start : Nat × Flags := (x, flagIf (decodeFl f x).sig flagNV)
    let r := xs.foldl (fun r y => let s := minMaxCode f wantMax r.1 y; (s.1, r.2 ||| s.2)) start
    if (decodeFl f r.1).isNaN then (canonicalNaN f, r.2) else r
  | none, x :: xs =>
    (xs.foldl (fun r y =>
      if (if wantMax then laneInt t r < laneInt t y else laneInt t y < laneInt t r) then y else r) x, 0)
  | _, [] => (0, 0)

/-- Whether lane x is better than the best so far (R172). -/
def betterLane (wantMax : Bool) (t x y : Nat) : Bool :=
  match FpFmt.ofCode? t with
  | some f =>
    if wantMax then beforeFl (decodeFl f y) (decodeFl f x) else beforeFl (decodeFl f x) (decodeFl f y)
  | none => if wantMax then laneInt t y < laneInt t x else laneInt t x < laneInt t y

/-- Whether an element is a NaN. -/
def elemNaN (t x : Nat) : Bool :=
  match FpFmt.ofCode? t with | some f => (decodeFl f x).isNaN | none => false

/-- The search of VMAXI and VMINI over lanes in ascending order (R172). -/
def bestLane (wantMax prop : Bool) (t : Nat) : List (Nat × Nat) → Option (Nat × Nat) → Option (Nat × Nat)
  | [], best => best
  | (x, i) :: l, best =>
    if elemNaN t x then (if prop then some (x, i) else bestLane wantMax prop t l best)
    else match best with
      | none => bestLane wantMax prop t l (some (x, i))
      | some b => bestLane wantMax prop t l (if betterLane wantMax t x b.1 then some (x, i) else best)

/-- The canonical NaN of a tag's format (R172). -/
def nanOfTag (t : Nat) : Nat := match FpFmt.ofCode? t with | some f => canonicalNaN f | none => 0

/-- VMAXI and VMINI (R172). -/
def vectorBest (wantMax : Bool) (a b c : Val) : Push :=
  let t := a.tagOr 14
  let w := tagWidth t
  let l := (lanesOf t (a.lanes w)).take (lanesTaken w b.low)
  let nv := flagIf (l.any fun x => match FpFmt.ofCode? t with | some f => (decodeFl f x).sig | none => false) flagNV
  let r := match bestLane wantMax (bit c.low 0) t l.zipIdx none with
    | none => (2 ^ 64 - 1, nanOfTag t)
    | some (x, i) => (i, if elemNaN t x then nanOfTag t else x)
  ⟨9, BitVec.ofNat 2048 (r.1 + r.2 * 2 ^ 64), nv⟩

/-- REDADD, REDMAX and REDMIN (R171). -/
def vectorReduce (o : VecOp) (rm : BitVec 2) (a b : Val) : Push :=
  let t := a.tagOr 14
  let w := tagWidth t
  let l := (lanesOf t (a.lanes w)).take (lanesTaken w b.low)
  let out (tag : Nat) (r : Nat × Flags) : Push := ⟨BitVec.ofNat 5 tag, BitVec.ofNat 2048 r.1, r.2⟩
  match o with
  | .redadd => match FpFmt.ofCode? t with
    | some f => let g := if f = .f64 then FpFmt.f64 else .f32; out g.code (sumLanes g rm (l.map (decodeFl f)))
    | none => out 9 ((BitVec.ofInt 64 (l.foldl (fun s x => s + laneInt t x) 0)).toNat, 0)
  | .redmax => out t (reduceOrder true t l)
  | _ => out t (reduceOrder false t l)

/-! ### Permutes and selection (R173) -/

/-- PERM (R173). -/
def vectorPerm (a b : Val) : Push :=
  let t := a.tagOr 14
  let w := tagWidth t
  let l := lanesOf t (a.lanes w)
  ⟨BitVec.ofNat 5 t, ofLanes w ((lanes w (b.lanes w)).map fun i => l.getD (i % (2048 / w)) 0), 0⟩

/-- BCAST (R173). -/
def vectorBcast (a b : Val) : Push :=
  let t := a.tagOr 14
  let w := tagWidth t
  let l := lanesOf t (a.lanes w)
  ⟨BitVec.ofNat 5 t, ofLanes w (l.map fun _ => l.getD (fld b.low 0 9 % (2048 / w)) 0), 0⟩

/-- SEL (R173): an untyped operand takes the other's tag, and two untyped operands are ui64. -/
def vectorSel (a b c : Val) : Push :=
  let t := a.tagOr (b.tagOr 14)
  let w := tagWidth t
  ⟨BitVec.ofNat 5 t, ofLanes w
    ((zipLanes (lanesOf t (a.lanes w)) (lanesOf t (b.lanes w)) (lanes w (c.lanes w))).map fun p =>
      if p.2.2 ≠ 0 then p.1 else p.2.1), 0⟩

/-! ### The vector unit -/

/-- What the vector unit computes; RM and LFSR as read at issue (R163 to R173). -/
def vectorCompute (o : VecOp) (rm : BitVec 2) (lfsr : BitVec 32) (a b c d : Val) : Except Stop Push :=
  match o with
  | .fp o e => .ok (vectorFp o e rm a b c)
  | .int o w => .ok (vectorInt o w a b)
  | .cvt o t => vectorCvt o t rm lfsr a b c d
  | .redadd => .ok (vectorReduce .redadd rm a b)
  | .redmax => .ok (vectorReduce .redmax rm a b)
  | .redmin => .ok (vectorReduce .redmin rm a b)
  | .vmaxi => .ok (vectorBest true a b c)
  | .vmini => .ok (vectorBest false a b c)
  | .perm => .ok (vectorPerm a b)
  | .bcast => .ok (vectorBcast a b)
  | .sel => .ok (vectorSel a b c)

/-- The latency of a vector computation (R161). -/
def vectorLatency : VecOp → Nat
  | .fp .div .f64 | .fp .sqrt .f64 => 20
  | .fp .div _ | .fp .sqrt _ => 12
  | .redadd | .redmax | .redmin | .vmaxi | .vmini => 6
  | _ => 4

/-- Which of B, C and D a vector computation uses (R163 to R173). -/
def vectorUses : VecOp → Bool × Bool × Bool
  | .fp .fma _ | .fp .fms _ | .fp .fnma _ => (true, true, false)
  | .fp .sqrt _ | .fp .abs _ | .fp .neg _ => (false, false, false)
  | .fp _ _ => (true, false, false)
  | .int .abs _ | .int .popc _ | .int .clz _ => (false, false, false)
  | .int _ _ => (true, false, false)
  | .cvt .cvtsc _ => (true, true, true)
  | .cvt _ _ => (true, true, false)
  | .vmaxi | .vmini | .sel => (true, true, false)
  | _ => (true, false, false)

/-! ### Tag checks (R101, R108, R160, R165, R171 to R173) -/

/-- A kind's tag, none where it has none. -/
def Kind.tag? : Kind → Option Nat
  | .tagged t => some t.toNat
  | _ => none

/-- Whether a kind is untyped, the lane index, or a tag that a test accepts. -/
def Kind.accepts (p : Nat → Bool) (k : Kind) : Bool :=
  match k with
  | .tagged t => p t.toNat
  | _ => true

/-- The legal pairs of the conversions (R108). -/
def cvtLegal (o : CvtOp) (s t : Nat) : Bool :=
  match o with
  | .cvt => s < 19 || (s == 21 && t < 2)
  | .cvtsc => s < 4
  | .cvtsr => match FpFmt.ofCode? s, FpFmt.ofCode? t with
    | some f, some g =>
      s < 4 && ((fmtSpec g).ebits < (fmtSpec f).ebits || (fmtSpec g).mbits < (fmtSpec f).mbits)
    | _, _ => false

/-- Whether a reduction takes a tag (R171, R172). -/
def reduceTag (t : Nat) : Bool := t < 19

/-- An integer tag of a width (R173). -/
def intOfWidth (w t : Nat) : Bool := (isIntTag t || isUintTag t) && tagWidth t == w

/-- The tag of a kind, or a default. -/
def Kind.tagOr (d : Nat) (k : Kind) : Nat := (k.tag?).getD d

/-- Whether a vector computation accepts the kinds of its operands (R101, R102). -/
def vectorKinds (o : VecOp) (a b c : Kind) : Bool :=
  let u := vectorUses o
  match o with
  | .fp _ e =>
    let ok := Kind.accepts (· == e.code)
    ok a && (!u.1 || ok b) && (!u.2.1 || ok c)
  | .int op w =>
    let ok := Kind.accepts (if intBitwise op then (· < 22) else intOfWidth w.bits)
    ok a && (!u.1 || ok b)
  | .cvt op t =>
    cvtLegal op (a.tagOr (match op with | .cvt => 9 | _ => 0)) t.code
      && (match op with | .cvtsc => Kind.accepts (· == 1) b | _ => true)
  | .redadd | .redmax | .redmin | .vmaxi | .vmini => Kind.accepts reduceTag a
  | .perm =>
    let t := a.tagOr 14
    t < 22 && 8 ≤ tagWidth t && Kind.accepts (intOfWidth (tagWidth t)) b
  | .bcast => let t := a.tagOr 14; t < 22 && 4 ≤ tagWidth t
  | .sel =>
    let t := a.tagOr (b.tagOr 14)
    t < 22 && 4 ≤ tagWidth t && Kind.accepts (· == t) b && Kind.accepts (intOfWidth (tagWidth t)) c

/-! ### Either unit -/

/-- What an operation of fixed latency computes (R122 to R127, R163 to R173). -/
def pureCompute (o : PureOp) (rm : BitVec 2) (lfsr : BitVec 32) (a b c d : Val) : Except Stop Push :=
  match o with
  | .scalar o => .ok (scalarCompute o rm a.low b.low c.low d.low)
  | .vector o => vectorCompute o rm lfsr a b c d

/-- The latency of an operation (R122, R161). -/
def pureLatency : PureOp → Nat
  | .scalar o => scalarLatency o
  | .vector o => vectorLatency o

/-- Which of B, C and D an operation uses. -/
def pureUses : PureOp → Bool × Bool × Bool
  | .scalar o => scalarUses o
  | .vector o => vectorUses o

/-- Whether an operation accepts its operands' kinds; the scalar unit checks none (R101, R119). -/
def pureKinds (o : PureOp) (a b c : Kind) : Bool :=
  match o with
  | .scalar _ => true
  | .vector o => vectorKinds o a b c

end Sys2Proof.Machine
end

