-- ==== Sys2Proof/Decode.lean ====
section
/-! DEFINITION. The decoder of slot words and of MXE micro-words, written from the encoding tables R57, R63 to
R66, R72, R78 to R83 and R208 to R211, and after it the encoder. -/

namespace Sys2Proof

/-- Field `[lo + len - 1 : lo]` of a word read as a number (R16). -/
def bitsAt (n lo len : Nat) : Nat := n / 2 ^ lo % 2 ^ len

/-- An operation that takes operand A: its source must not be reserved (R57). -/
def withA (x : Nat) (k : Src → Instr) : Option Instr := (Src.ofCode? x).map k

/-- An operation that takes no operand A: its X field is zero (R72, R119). -/
def bare (x : Nat) (i : Instr) : Option Instr := if x = 0 then some i else none

/-- The scalar unit's trigger ports (R78). -/
def scalarPort (h : Slot) (x : Nat) : Nat → Option Instr
  | 1 => withA x (.add h)
  | 2 => withA x (.sub h)
  | 3 => withA x (.and h)
  | 4 => withA x (.or h)
  | 5 => withA x (.xor h)
  | 6 => withA x (.andn h)
  | 7 => withA x (.shl h)
  | 8 => withA x (.shr h)
  | 9 => withA x (.sar h)
  | 10 => withA x (.mul h)
  | 11 => withA x (.mulh h)
  | 12 => withA x (.mulhu h)
  | 13 => withA x (.div h)
  | 14 => withA x (.divu h)
  | 15 => withA x (.rem h)
  | 16 => withA x (.remu h)
  | 17 => withA x (.min h)
  | 18 => withA x (.minu h)
  | 19 => withA x (.max h)
  | 20 => withA x (.maxu h)
  | 21 => withA x (.clz h)
  | 22 => withA x (.ctz h)
  | 23 => withA x (.popc h)
  | 24 => withA x (.sext h)
  | 25 => withA x (.zext h)
  | 26 => withA x (.lea h)
  | 27 => withA x (.bfx h)
  | 28 => withA x (.bfi h)
  | 32 => withA x (.cmpeq h)
  | 33 => withA x (.cmpne h)
  | 34 => withA x (.cmplt h)
  | 35 => withA x (.cmple h)
  | 36 => withA x (.cmpltu h)
  | 37 => withA x (.cmpleu h)
  | 38 => withA x (.fcmpeq h)
  | 39 => withA x (.fcmplt h)
  | 40 => withA x (.fcmple h)
  | 41 => withA x (.fcmpun h)
  | 48 => withA x (.fadd h)
  | 49 => withA x (.fsub h)
  | 50 => withA x (.fmul h)
  | 51 => withA x (.ffma h)
  | 52 => withA x (.fdiv h)
  | 53 => withA x (.fsqrt h)
  | 54 => withA x (.fmin h)
  | 55 => withA x (.fmax h)
  | 56 => withA x (.fabs h)
  | 57 => withA x (.fneg h)
  | 58 => withA x (.fcvtI64 h)
  | 59 => withA x (.fcvtF64 h)
  | 64 => withA x (.ldb h)
  | 65 => withA x (.ldbu h)
  | 66 => withA x (.ldh h)
  | 67 => withA x (.ldhu h)
  | 68 => withA x (.ldw h)
  | 69 => withA x (.ldwu h)
  | 70 => withA x (.ldd h)
  | 72 => withA x (.stb h)
  | 73 => withA x (.sth h)
  | 74 => withA x (.stw h)
  | 75 => withA x (.std h)
  | 80 => withA x (.ldwCl h)
  | 81 => withA x (.lddCl h)
  | 82 => withA x (.stwCl h)
  | 83 => withA x (.stdCl h)
  | 96 => withA x (.aadd h)
  | 97 => withA x (.aand h)
  | 98 => withA x (.aor h)
  | 99 => withA x (.axor h)
  | 100 => withA x (.amin h)
  | 101 => withA x (.amax h)
  | 102 => withA x (.aswap h)
  | 103 => withA x (.acas h)
  | 112 => withA x (.aaddCl h)
  | 113 => withA x (.aandCl h)
  | 114 => withA x (.aorCl h)
  | 115 => withA x (.axorCl h)
  | 116 => withA x (.aminCl h)
  | 117 => withA x (.amaxCl h)
  | 118 => withA x (.aswapCl h)
  | 119 => withA x (.acasCl h)
  | 128 => withA x (.cld h)
  | _ => none

/-- The control unit's trigger ports (R79). -/
def controlPort (h : Slot) (x : Nat) : Nat → Option Instr
  | 1 => withA x (.jmp h)
  | 2 => withA x (.jmpr h)
  | 3 => withA x (.call h)
  | 4 => withA x (.callr h)
  | 5 => withA x (.ret h)
  | 8 => withA x (.loop h)
  | 9 => withA x (.loopx h)
  | 10 => withA x (.nest h)
  | 12 => withA x (.slack h)
  | 16 => withA x (.bar h)
  | 17 => withA x (.tkpost h)
  | 20 => withA x (.cbr h)
  | 21 => withA x (.agjoin h)
  | 22 => withA x (.agleave h)
  | 23 => withA x (.agexcuse h)
  | 24 => bare x (.heart h)
  | 25 => bare x (.retire h)
  | 26 => bare x (.csync h)
  | 27 => bare x (.tret h)
  | 28 => withA x (.rdsr h)
  | 29 => withA x (.wrsr h)
  | 32 => bare x (.fenceAcq h .tile)
  | 33 => bare x (.fenceAcq h .cluster)
  | 34 => bare x (.fenceAcq h .die)
  | 35 => bare x (.fenceAcq h .device)
  | 36 => bare x (.fenceAcq h .domain)
  | 40 => bare x (.fenceRel h .tile)
  | 41 => bare x (.fenceRel h .cluster)
  | 42 => bare x (.fenceRel h .die)
  | 43 => bare x (.fenceRel h .device)
  | 44 => bare x (.fenceRel h .domain)
  | 48 => bare x (.fenceAr h .tile)
  | 49 => bare x (.fenceAr h .cluster)
  | 50 => bare x (.fenceAr h .die)
  | 51 => bare x (.fenceAr h .device)
  | 52 => bare x (.fenceAr h .domain)
  | 59 => bare x (.fenceScDevice h)
  | 60 => bare x (.fenceScDomain h)
  | _ => none

/-- The transposer's trigger ports (R81). -/
def transposerPort (h : Slot) (x : Nat) : Nat → Option Instr
  | 1 => withA x (.trowE8 h)
  | 2 => withA x (.trowE16 h)
  | 3 => withA x (.trowE32 h)
  | 4 => withA x (.trowE64 h)
  | 5 => bare x (.tdrain h)
  | 6 => bare x (.tclr h)
  | _ => none

/-- The engine port's trigger ports 0x018 to 0x026 (R82). -/
def engineLowPort (h : Slot) (x : Nat) : Nat → Option Instr
  | 24 => withA x (.mxload h)
  | 25 => bare x (.mxq h)
  | 32 => withA x (.xplan h)
  | 33 => withA x (.xfft h)
  | 34 => withA x (.xffti h)
  | 35 => withA x (.xlegf h)
  | 36 => withA x (.xlegi h)
  | 37 => withA x (.xshtf h)
  | 38 => withA x (.xshti h)
  | _ => none

/-- The engine port's trigger ports (R82). -/
def enginePort (h : Slot) (x p : Nat) : Option Instr :=
  if 256 ≤ p then withA x (.mxcall h (Fin.ofNat 256 (p - 256)))
  else if 8 ≤ p ∧ p < 16 then withA x (.mpset h (Fin.ofNat 8 (p - 8)))
  else if 16 ≤ p ∧ p < 24 then bare x (.mpget h (Fin.ofNat 8 (p - 16)))
  else engineLowPort h x p

/-- The copy engines' trigger ports (R83). -/
def copyPort (h : Slot) (x : Nat) : Nat → Option Instr
  | 1 => withA x (.cpyN h)
  | 2 => withA x (.cpyNd h)
  | 3 => withA x (.ceGath h)
  | 4 => withA x (.ceScat h)
  | 5 => withA x (.accLd h)
  | 6 => withA x (.accSt h)
  | 16 => withA x (.gaAdd h)
  | 17 => withA x (.gaAnd h)
  | 18 => withA x (.gaOr h)
  | 19 => withA x (.gaXor h)
  | 20 => withA x (.gaMin h)
  | 21 => withA x (.gaMax h)
  | 22 => withA x (.gaSwap h)
  | 23 => withA x (.gaCas h)
  | 24 => withA x (.mcst h)
  | 25 => withA x (.wbr h)
  | 26 => withA x (.invr h)
  | 27 => withA x (.pref h)
  | 32 => withA x (.waitany h)
  | 33 => withA x (.waitall h)
  | 34 => withA x (.ffr h)
  | 35 => withA x (.clrtag h)
  | 40 => withA x (.bcInit h)
  | 41 => withA x (.arriveExp h)
  | 42 => withA x (.bcSub h)
  | 43 => withA x (.bcWait h)
  | 48 => withA x (.xcoll h)
  | 49 => withA x (.ttready h)
  | 50 => withA x (.catArm h)
  | 51 => withA x (.catDisarm h)
  | 52 => withA x (.waitid h)
  | _ => none

/-- The floating vector operation of an OP number, with its element formats beyond R80's legal ones refused. -/
def fpPort (h : Slot) (x : Nat) (e : FpFmt) : Nat → Option Instr
  | 0 => withA x (.addF h e)
  | 1 => withA x (.subF h e)
  | 2 => withA x (.mulF h e)
  | 3 => withA x (.fmaF h e)
  | 4 => withA x (.fmsF h e)
  | 5 => withA x (.fnmaF h e)
  | 6 => withA x (.minF h e)
  | 7 => withA x (.maxF h e)
  | 8 => if e = .f64 ∨ e = .f32 then withA x (.divF h e) else none
  | 9 => if e = .f64 ∨ e = .f32 then withA x (.sqrtF h e) else none
  | 10 => withA x (.absF h e)
  | 11 => withA x (.negF h e)
  | 12 => withA x (.cmpeqF h e)
  | 13 => withA x (.cmpltF h e)
  | 14 => withA x (.cmpleF h e)
  | 15 => withA x (.cmpunF h e)
  | _ => none

/-- The integer vector operation of an OP number (R80). -/
def intPort (h : Slot) (x : Nat) (w : IntW) : Nat → Option Instr
  | 0 => withA x (.iadd h w)
  | 1 => withA x (.isub h w)
  | 2 => withA x (.iadds h w)
  | 3 => withA x (.iaddsu h w)
  | 4 => withA x (.isubs h w)
  | 5 => withA x (.isubsu h w)
  | 6 => withA x (.imul h w)
  | 7 => withA x (.imulh h w)
  | 8 => withA x (.imulhu h w)
  | 9 => withA x (.imin h w)
  | 10 => withA x (.iminu h w)
  | 11 => withA x (.imax h w)
  | 12 => withA x (.imaxu h w)
  | 13 => withA x (.vecAnd h w)
  | 14 => withA x (.vecOr h w)
  | 15 => withA x (.vecXor h w)
  | 16 => withA x (.vecAndn h w)
  | 17 => withA x (.vecShl h w)
  | 18 => withA x (.vecShr h w)
  | 19 => withA x (.vecSar h w)
  | 20 => withA x (.icmpeq h w)
  | 21 => withA x (.icmplt h w)
  | 22 => withA x (.icmpltu h w)
  | 23 => withA x (.iabs h w)
  | 24 => withA x (.vecPopc h w)
  | 25 => withA x (.vecClz h w)
  | _ => none

/-- The targets CVTSC takes (R80, R108). -/
def CvtT.scaled : CvtT → Bool
  | .fp .e4m3 | .fp .e5m2 | .fp .e3m2 | .fp .e2m3 | .fp .e2m1 | .i8 | .i4 => true
  | _ => false

/-- The targets CVTSR takes (R80, R108). -/
def CvtT.stochastic : CvtT → Bool
  | .fp .f64 => false
  | .fp _ => true
  | _ => false

/-- The conversions: port bits [6:5] above 0x180 choose among CVT, CVTSC and CVTSR (R80). -/
def cvtPort (h : Slot) (x : Nat) (t : CvtT) : Nat → Option Instr
  | 0 => withA x (.cvt h t)
  | 1 => if t.scaled then withA x (.cvtsc h t) else none
  | 2 => if t.stochastic then withA x (.cvtsr h t) else none
  | _ => none

/-- The vector units' trigger ports from 0x1E0 (R80). -/
def vectorHighPort (h : Slot) (x : Nat) : Nat → Option Instr
  | 480 => withA x (.redadd h)
  | 481 => withA x (.redmax h)
  | 482 => withA x (.redmin h)
  | 483 => withA x (.vmaxi h)
  | 484 => withA x (.vmini h)
  | 485 => withA x (.perm h)
  | 486 => withA x (.bcast h)
  | 487 => withA x (.sel h)
  | 488 => withA x (.vld h)
  | 489 => withA x (.vst h)
  | 490 => withA x (.vldt h)
  | 491 => withA x (.vldCl h)
  | 492 => withA x (.vstCl h)
  | 493 => withA x (.gath h)
  | 494 => withA x (.scat h)
  | 495 => withA x (.fpset h)
  | 496 => withA x (.fpflush h)
  | _ => none

/-- The vector units' trigger ports (R80). -/
def vectorPort (h : Slot) (x p : Nat) : Option Instr :=
  if p < 256 then (FpFmt.ofCode? (p % 16)).bind fun e => fpPort h x e (p / 16)
  else if p < 384 then intPort h x (IntW.ofCode (p % 4)) ((p - 256) / 4)
  else if p < 480 then (CvtT.ofCode? (p % 32)).bind fun t => cvtPort h x t ((p - 384) / 32)
  else vectorHighPort h x p

/-- A trigger of a unit's own port; port 0 of every unit is NOP (R72). -/
def triggerPort (u : UnitName) (h : Slot) (x p : Nat) : Option Instr :=
  if p = 0 then bare x (.nop h)
  else match u with
    | .sc => scalarPort h x p
    | .va => vectorPort h x p
    | .vb => vectorPort h x p
    | .en => enginePort h x p
    | .ca => copyPort h x p
    | .cb => copyPort h x p
    | .tr => transposerPort h x p
    | .ct => controlPort h x p

/-- A special destination's code (R64). -/
def specialPort (h : Slot) (x c : Nat) : Option Instr :=
  if c < 6 then withA x (.moveLc h (Fin.ofNat 6 c))
  else if 8 ≤ c ∧ c < 14 then withA x (.moveLb h (Fin.ofNat 6 (c - 8)))
  else if c = 16 then withA x (.moveSlk h)
  else if c = 17 then withA x (.moveCbx h)
  else none

/-- A destination field D with D[9] = 1, its low nine bits given (R63). -/
def destination (h : Slot) (x d : Nat) : Option Instr :=
  match d / 128 with
  | 0 => if d % 4 = 0 then
      (OpPort.ofCode? (d / 4 % 4)).bind fun p => withA x (.moveOperandPort h (UnitName.ofCode (d / 16 % 8)) p)
    else none
  | 1 => if d / 32 % 4 = 0 then withA x (.moveScalar h (Fin.ofNat 32 (d % 32))) else none
  | 2 => if d / 32 % 4 ≠ 0 then none
    else if d / 16 % 2 = 0 then withA x (.moveVector h (Fin.ofNat 16 (d % 16)))
    else if d / 8 % 2 = 0 then withA x (.movePredicate h (Fin.ofNat 8 (d % 8)))
    else none
  | _ => specialPort h x (d % 128)

/-- The S, K and G fields of a move slot (R57). -/
def slotFields (n : Nat) : Slot :=
  ⟨bitsAt n 23 1 = 1, bitsAt n 22 1 = 1, Guard.ofCode (bitsAt n 19 3)⟩

/-- A slot in move form (R57, R63). -/
def decodeMove (u : UnitName) (n : Nat) : Option Instr :=
  if bitsAt n 18 1 = 0 then triggerPort u (slotFields n) (bitsAt n 0 9) (bitsAt n 9 9)
  else destination (slotFields n) (bitsAt n 0 9) (bitsAt n 9 9)

/-- A slot in immediate form (R66); SEL 111 is refused. -/
def decodeImm (n : Nat) : Option Instr :=
  let stop : Bool := bitsAt n 23 1 = 1
  let imm := BitVec.ofNat 20 n
  match bitsAt n 20 3 with
  | 0 => some (.immBindBInt stop imm)
  | 1 => some (.immBindCInt stop imm)
  | 2 => some (.immBindBF32 stop imm)
  | 3 => some (.immBindCF32 stop imm)
  | 4 => some (.immBindBF64 stop imm)
  | 5 => some (.immBindCF64 stop imm)
  | 6 => some (.immSetLb stop imm)
  | _ => none

/-- The slot word of a unit's slot, with the slot's IM bit (R52, R57, R66). -/
def decodeSlot (u : UnitName) (im : Bool) (w : SlotWord) : Option Instr :=
  if im then decodeImm w.toNat else decodeMove u w.toNat

/-! ### Micro-words -/

/-- The fields of a micro-word beside its OP (R208). -/
def microFields (w : Word) : Micro :=
  ⟨w.extractLsb' 55 3, w.extractLsb' 52 3, w.extractLsb' 49 3, bit w 48, bit w 47, bit w 46,
    w.extractLsb' 40 6, w.extractLsb' 32 8, w.extractLsb' 0 32⟩

/-- A micro-word; none for an OP above 0x10 (R208, R211). The runtime has no tags for so many constructors, so
the compiler is not asked for code here: the kernel evaluates it. -/
noncomputable def decodeMicro (w : Word) : Option Instr :=
  match fld w 58 6 with
  | 0 => some (.mnop (microFields w))
  | 1 => some (.mend (microFields w))
  | 2 => some (.mseta (microFields w))
  | 3 => some (.madd (microFields w))
  | 4 => some (.msetc (microFields w))
  | 5 => some (.mloop (microFields w))
  | 6 => some (.mjmp (microFields w))
  | 7 => some (.mlda (microFields w))
  | 8 => some (.mldb (microFields w))
  | 9 => some (.mldsa (microFields w))
  | 10 => some (.mldsw (microFields w))
  | 11 => some (.mlde (microFields w))
  | 12 => some (.mldm (microFields w))
  | 13 => some (.mstr (microFields w))
  | 14 => some (.mzero (microFields w))
  | 15 => some (.mstacc (microFields w))
  | 16 => some (.mldacc (microFields w))
  | _ => none

/-! ### Decoding a word of the opcode table -/

/-- The units in the order in which a word that no slot fixes is tried (notes/assumptions/1.md). -/
def tableUnits : List UnitName := [.sc, .ct, .va, .tr, .en, .ca]

/-- The slot and IM bit with which a 24-bit word of the table is read, which the table does not give: a word that
is a NOP in move form and whose immediate selector is not zero reads as an immediate; otherwise the first unit that
has the move reads it, and what no unit has reads as an immediate (notes/assumptions/1.md). -/
def tableSlot (n : Nat) : UnitName × Bool :=
  if bitsAt n 0 19 = 0 ∧ bitsAt n 20 3 ≠ 0 then (.sc, (decodeImm n).isSome)
  else match tableUnits.find? fun u => (decodeMove u n).isSome with
    | some u => (u, false)
    | none => (.sc, true)

/-- A 24-bit word of the table (notes/assumptions/1.md). -/
def decodeTableSlot (n : Nat) : Option Instr := decodeSlot (tableSlot n).1 (tableSlot n).2 (BitVec.ofNat 24 n)

/-- The instruction of a word of the opcode table: 24 bits are a slot, 64 bits a micro-word. -/
noncomputable def decodeTableWord (nbits w : Nat) : Option Instr :=
  if nbits = 24 then decodeTableSlot (w % 2 ^ 24)
  else if nbits = 64 then decodeMicro (BitVec.ofNat 64 w)
  else none

/-! ### The encoder -/

/-- A move slot from its fields (R57). -/
def encodeMove (h : Slot) (d : Nat) (x : Nat) : SlotWord :=
  BitVec.ofNat 24 (h.stop.toNat * 2 ^ 23 + h.kill.toNat * 2 ^ 22 + h.guard.code * 2 ^ 19 + d * 2 ^ 9 + x)

/-- An immediate slot from its fields (R66). -/
def encodeImm (stop : Bool) (sel : Nat) (imm : BitVec 20) : SlotWord :=
  BitVec.ofNat 24 (stop.toNat * 2 ^ 23 + sel * 2 ^ 20 + imm.toNat)

/-- A micro-word from its OP and fields (R208). -/
def encodeMicro (op : Nat) (m : Micro) : Word :=
  BitVec.ofNat 6 op ++ m.j ++ m.k ++ m.bk ++ BitVec.ofBool m.s ++ BitVec.ofBool m.p ++ BitVec.ofBool m.c
    ++ m.cb ++ m.opx ++ m.imm

/-- What an instruction's words are: a slot word with the unit it needs (none: any slot) and its IM bit, a
micro-word, or none for an event of the device. -/
inductive Code
  | slot (u : Option UnitName) (im : Bool) (w : SlotWord)
  | micro (w : Word)
  | none
deriving DecidableEq, Repr

/-- The words of an instruction (R57, R63 to R66, R78 to R83, R208). -/
def encode : Instr → Code
  | .nop h => .slot Option.none false (encodeMove h 0 0)
  | .moveOperandPort h u p a => .slot Option.none false (encodeMove h (512 + u.code * 16 + p.code * 4) a.code)
  | .moveScalar h n a => .slot Option.none false (encodeMove h (640 + n) a.code)
  | .moveVector h n a => .slot Option.none false (encodeMove h (768 + n) a.code)
  | .movePredicate h n a => .slot Option.none false (encodeMove h (784 + n) a.code)
  | .moveLc h n a => .slot Option.none false (encodeMove h (896 + n) a.code)
  | .moveLb h n a => .slot Option.none false (encodeMove h (904 + n) a.code)
  | .moveSlk h a => .slot Option.none false (encodeMove h 912 a.code)
  | .moveCbx h a => .slot Option.none false (encodeMove h 913 a.code)
  | .immBindBInt s i => .slot Option.none true (encodeImm s 0 i)
  | .immBindCInt s i => .slot Option.none true (encodeImm s 1 i)
  | .immBindBF32 s i => .slot Option.none true (encodeImm s 2 i)
  | .immBindCF32 s i => .slot Option.none true (encodeImm s 3 i)
  | .immBindBF64 s i => .slot Option.none true (encodeImm s 4 i)
  | .immBindCF64 s i => .slot Option.none true (encodeImm s 5 i)
  | .immSetLb s i => .slot Option.none true (encodeImm s 6 i)
  | .add h a => .slot (some .sc) false (encodeMove h 1 a.code)
  | .sub h a => .slot (some .sc) false (encodeMove h 2 a.code)
  | .and h a => .slot (some .sc) false (encodeMove h 3 a.code)
  | .or h a => .slot (some .sc) false (encodeMove h 4 a.code)
  | .xor h a => .slot (some .sc) false (encodeMove h 5 a.code)
  | .andn h a => .slot (some .sc) false (encodeMove h 6 a.code)
  | .shl h a => .slot (some .sc) false (encodeMove h 7 a.code)
  | .shr h a => .slot (some .sc) false (encodeMove h 8 a.code)
  | .sar h a => .slot (some .sc) false (encodeMove h 9 a.code)
  | .mul h a => .slot (some .sc) false (encodeMove h 10 a.code)
  | .mulh h a => .slot (some .sc) false (encodeMove h 11 a.code)
  | .mulhu h a => .slot (some .sc) false (encodeMove h 12 a.code)
  | .div h a => .slot (some .sc) false (encodeMove h 13 a.code)
  | .divu h a => .slot (some .sc) false (encodeMove h 14 a.code)
  | .rem h a => .slot (some .sc) false (encodeMove h 15 a.code)
  | .remu h a => .slot (some .sc) false (encodeMove h 16 a.code)
  | .min h a => .slot (some .sc) false (encodeMove h 17 a.code)
  | .minu h a => .slot (some .sc) false (encodeMove h 18 a.code)
  | .max h a => .slot (some .sc) false (encodeMove h 19 a.code)
  | .maxu h a => .slot (some .sc) false (encodeMove h 20 a.code)
  | .clz h a => .slot (some .sc) false (encodeMove h 21 a.code)
  | .ctz h a => .slot (some .sc) false (encodeMove h 22 a.code)
  | .popc h a => .slot (some .sc) false (encodeMove h 23 a.code)
  | .sext h a => .slot (some .sc) false (encodeMove h 24 a.code)
  | .zext h a => .slot (some .sc) false (encodeMove h 25 a.code)
  | .lea h a => .slot (some .sc) false (encodeMove h 26 a.code)
  | .bfx h a => .slot (some .sc) false (encodeMove h 27 a.code)
  | .bfi h a => .slot (some .sc) false (encodeMove h 28 a.code)
  | .cmpeq h a => .slot (some .sc) false (encodeMove h 32 a.code)
  | .cmpne h a => .slot (some .sc) false (encodeMove h 33 a.code)
  | .cmplt h a => .slot (some .sc) false (encodeMove h 34 a.code)
  | .cmple h a => .slot (some .sc) false (encodeMove h 35 a.code)
  | .cmpltu h a => .slot (some .sc) false (encodeMove h 36 a.code)
  | .cmpleu h a => .slot (some .sc) false (encodeMove h 37 a.code)
  | .fcmpeq h a => .slot (some .sc) false (encodeMove h 38 a.code)
  | .fcmplt h a => .slot (some .sc) false (encodeMove h 39 a.code)
  | .fcmple h a => .slot (some .sc) false (encodeMove h 40 a.code)
  | .fcmpun h a => .slot (some .sc) false (encodeMove h 41 a.code)
  | .fadd h a => .slot (some .sc) false (encodeMove h 48 a.code)
  | .fsub h a => .slot (some .sc) false (encodeMove h 49 a.code)
  | .fmul h a => .slot (some .sc) false (encodeMove h 50 a.code)
  | .ffma h a => .slot (some .sc) false (encodeMove h 51 a.code)
  | .fdiv h a => .slot (some .sc) false (encodeMove h 52 a.code)
  | .fsqrt h a => .slot (some .sc) false (encodeMove h 53 a.code)
  | .fmin h a => .slot (some .sc) false (encodeMove h 54 a.code)
  | .fmax h a => .slot (some .sc) false (encodeMove h 55 a.code)
  | .fabs h a => .slot (some .sc) false (encodeMove h 56 a.code)
  | .fneg h a => .slot (some .sc) false (encodeMove h 57 a.code)
  | .fcvtI64 h a => .slot (some .sc) false (encodeMove h 58 a.code)
  | .fcvtF64 h a => .slot (some .sc) false (encodeMove h 59 a.code)
  | .ldb h a => .slot (some .sc) false (encodeMove h 64 a.code)
  | .ldbu h a => .slot (some .sc) false (encodeMove h 65 a.code)
  | .ldh h a => .slot (some .sc) false (encodeMove h 66 a.code)
  | .ldhu h a => .slot (some .sc) false (encodeMove h 67 a.code)
  | .ldw h a => .slot (some .sc) false (encodeMove h 68 a.code)
  | .ldwu h a => .slot (some .sc) false (encodeMove h 69 a.code)
  | .ldd h a => .slot (some .sc) false (encodeMove h 70 a.code)
  | .stb h a => .slot (some .sc) false (encodeMove h 72 a.code)
  | .sth h a => .slot (some .sc) false (encodeMove h 73 a.code)
  | .stw h a => .slot (some .sc) false (encodeMove h 74 a.code)
  | .std h a => .slot (some .sc) false (encodeMove h 75 a.code)
  | .ldwCl h a => .slot (some .sc) false (encodeMove h 80 a.code)
  | .lddCl h a => .slot (some .sc) false (encodeMove h 81 a.code)
  | .stwCl h a => .slot (some .sc) false (encodeMove h 82 a.code)
  | .stdCl h a => .slot (some .sc) false (encodeMove h 83 a.code)
  | .aadd h a => .slot (some .sc) false (encodeMove h 96 a.code)
  | .aand h a => .slot (some .sc) false (encodeMove h 97 a.code)
  | .aor h a => .slot (some .sc) false (encodeMove h 98 a.code)
  | .axor h a => .slot (some .sc) false (encodeMove h 99 a.code)
  | .amin h a => .slot (some .sc) false (encodeMove h 100 a.code)
  | .amax h a => .slot (some .sc) false (encodeMove h 101 a.code)
  | .aswap h a => .slot (some .sc) false (encodeMove h 102 a.code)
  | .acas h a => .slot (some .sc) false (encodeMove h 103 a.code)
  | .aaddCl h a => .slot (some .sc) false (encodeMove h 112 a.code)
  | .aandCl h a => .slot (some .sc) false (encodeMove h 113 a.code)
  | .aorCl h a => .slot (some .sc) false (encodeMove h 114 a.code)
  | .axorCl h a => .slot (some .sc) false (encodeMove h 115 a.code)
  | .aminCl h a => .slot (some .sc) false (encodeMove h 116 a.code)
  | .amaxCl h a => .slot (some .sc) false (encodeMove h 117 a.code)
  | .aswapCl h a => .slot (some .sc) false (encodeMove h 118 a.code)
  | .acasCl h a => .slot (some .sc) false (encodeMove h 119 a.code)
  | .cld h a => .slot (some .sc) false (encodeMove h 128 a.code)
  | .addF h e a => .slot (some .va) false (encodeMove h (0 + e.code) a.code)
  | .subF h e a => .slot (some .va) false (encodeMove h (16 + e.code) a.code)
  | .mulF h e a => .slot (some .va) false (encodeMove h (32 + e.code) a.code)
  | .fmaF h e a => .slot (some .va) false (encodeMove h (48 + e.code) a.code)
  | .fmsF h e a => .slot (some .va) false (encodeMove h (64 + e.code) a.code)
  | .fnmaF h e a => .slot (some .va) false (encodeMove h (80 + e.code) a.code)
  | .minF h e a => .slot (some .va) false (encodeMove h (96 + e.code) a.code)
  | .maxF h e a => .slot (some .va) false (encodeMove h (112 + e.code) a.code)
  | .divF h e a => .slot (some .va) false (encodeMove h (128 + e.code) a.code)
  | .sqrtF h e a => .slot (some .va) false (encodeMove h (144 + e.code) a.code)
  | .absF h e a => .slot (some .va) false (encodeMove h (160 + e.code) a.code)
  | .negF h e a => .slot (some .va) false (encodeMove h (176 + e.code) a.code)
  | .cmpeqF h e a => .slot (some .va) false (encodeMove h (192 + e.code) a.code)
  | .cmpltF h e a => .slot (some .va) false (encodeMove h (208 + e.code) a.code)
  | .cmpleF h e a => .slot (some .va) false (encodeMove h (224 + e.code) a.code)
  | .cmpunF h e a => .slot (some .va) false (encodeMove h (240 + e.code) a.code)
  | .iadd h e a => .slot (some .va) false (encodeMove h (256 + e.code) a.code)
  | .isub h e a => .slot (some .va) false (encodeMove h (260 + e.code) a.code)
  | .iadds h e a => .slot (some .va) false (encodeMove h (264 + e.code) a.code)
  | .iaddsu h e a => .slot (some .va) false (encodeMove h (268 + e.code) a.code)
  | .isubs h e a => .slot (some .va) false (encodeMove h (272 + e.code) a.code)
  | .isubsu h e a => .slot (some .va) false (encodeMove h (276 + e.code) a.code)
  | .imul h e a => .slot (some .va) false (encodeMove h (280 + e.code) a.code)
  | .imulh h e a => .slot (some .va) false (encodeMove h (284 + e.code) a.code)
  | .imulhu h e a => .slot (some .va) false (encodeMove h (288 + e.code) a.code)
  | .imin h e a => .slot (some .va) false (encodeMove h (292 + e.code) a.code)
  | .iminu h e a => .slot (some .va) false (encodeMove h (296 + e.code) a.code)
  | .imax h e a => .slot (some .va) false (encodeMove h (300 + e.code) a.code)
  | .imaxu h e a => .slot (some .va) false (encodeMove h (304 + e.code) a.code)
  | .vecAnd h e a => .slot (some .va) false (encodeMove h (308 + e.code) a.code)
  | .vecOr h e a => .slot (some .va) false (encodeMove h (312 + e.code) a.code)
  | .vecXor h e a => .slot (some .va) false (encodeMove h (316 + e.code) a.code)
  | .vecAndn h e a => .slot (some .va) false (encodeMove h (320 + e.code) a.code)
  | .vecShl h e a => .slot (some .va) false (encodeMove h (324 + e.code) a.code)
  | .vecShr h e a => .slot (some .va) false (encodeMove h (328 + e.code) a.code)
  | .vecSar h e a => .slot (some .va) false (encodeMove h (332 + e.code) a.code)
  | .icmpeq h e a => .slot (some .va) false (encodeMove h (336 + e.code) a.code)
  | .icmplt h e a => .slot (some .va) false (encodeMove h (340 + e.code) a.code)
  | .icmpltu h e a => .slot (some .va) false (encodeMove h (344 + e.code) a.code)
  | .iabs h e a => .slot (some .va) false (encodeMove h (348 + e.code) a.code)
  | .vecPopc h e a => .slot (some .va) false (encodeMove h (352 + e.code) a.code)
  | .vecClz h e a => .slot (some .va) false (encodeMove h (356 + e.code) a.code)
  | .cvt h t a => .slot (some .va) false (encodeMove h (384 + t.code) a.code)
  | .cvtsc h t a => .slot (some .va) false (encodeMove h (416 + t.code) a.code)
  | .cvtsr h t a => .slot (some .va) false (encodeMove h (448 + t.code) a.code)
  | .redadd h a => .slot (some .va) false (encodeMove h 480 a.code)
  | .redmax h a => .slot (some .va) false (encodeMove h 481 a.code)
  | .redmin h a => .slot (some .va) false (encodeMove h 482 a.code)
  | .vmaxi h a => .slot (some .va) false (encodeMove h 483 a.code)
  | .vmini h a => .slot (some .va) false (encodeMove h 484 a.code)
  | .perm h a => .slot (some .va) false (encodeMove h 485 a.code)
  | .bcast h a => .slot (some .va) false (encodeMove h 486 a.code)
  | .sel h a => .slot (some .va) false (encodeMove h 487 a.code)
  | .vld h a => .slot (some .va) false (encodeMove h 488 a.code)
  | .vst h a => .slot (some .va) false (encodeMove h 489 a.code)
  | .vldt h a => .slot (some .va) false (encodeMove h 490 a.code)
  | .vldCl h a => .slot (some .va) false (encodeMove h 491 a.code)
  | .vstCl h a => .slot (some .va) false (encodeMove h 492 a.code)
  | .gath h a => .slot (some .va) false (encodeMove h 493 a.code)
  | .scat h a => .slot (some .va) false (encodeMove h 494 a.code)
  | .fpset h a => .slot (some .va) false (encodeMove h 495 a.code)
  | .fpflush h a => .slot (some .va) false (encodeMove h 496 a.code)
  | .trowE8 h a => .slot (some .tr) false (encodeMove h 1 a.code)
  | .trowE16 h a => .slot (some .tr) false (encodeMove h 2 a.code)
  | .trowE32 h a => .slot (some .tr) false (encodeMove h 3 a.code)
  | .trowE64 h a => .slot (some .tr) false (encodeMove h 4 a.code)
  | .tdrain h => .slot (some .tr) false (encodeMove h 5 0)
  | .tclr h => .slot (some .tr) false (encodeMove h 6 0)
  | .mpset h n a => .slot (some .en) false (encodeMove h (8 + n) a.code)
  | .mpget h n => .slot (some .en) false (encodeMove h (16 + n) 0)
  | .mxcall h n a => .slot (some .en) false (encodeMove h (256 + n) a.code)
  | .mxload h a => .slot (some .en) false (encodeMove h 24 a.code)
  | .mxq h => .slot (some .en) false (encodeMove h 25 0)
  | .xplan h a => .slot (some .en) false (encodeMove h 32 a.code)
  | .xfft h a => .slot (some .en) false (encodeMove h 33 a.code)
  | .xffti h a => .slot (some .en) false (encodeMove h 34 a.code)
  | .xlegf h a => .slot (some .en) false (encodeMove h 35 a.code)
  | .xlegi h a => .slot (some .en) false (encodeMove h 36 a.code)
  | .xshtf h a => .slot (some .en) false (encodeMove h 37 a.code)
  | .xshti h a => .slot (some .en) false (encodeMove h 38 a.code)
  | .cpyN h a => .slot (some .ca) false (encodeMove h 1 a.code)
  | .cpyNd h a => .slot (some .ca) false (encodeMove h 2 a.code)
  | .ceGath h a => .slot (some .ca) false (encodeMove h 3 a.code)
  | .ceScat h a => .slot (some .ca) false (encodeMove h 4 a.code)
  | .accLd h a => .slot (some .ca) false (encodeMove h 5 a.code)
  | .accSt h a => .slot (some .ca) false (encodeMove h 6 a.code)
  | .gaAdd h a => .slot (some .ca) false (encodeMove h 16 a.code)
  | .gaAnd h a => .slot (some .ca) false (encodeMove h 17 a.code)
  | .gaOr h a => .slot (some .ca) false (encodeMove h 18 a.code)
  | .gaXor h a => .slot (some .ca) false (encodeMove h 19 a.code)
  | .gaMin h a => .slot (some .ca) false (encodeMove h 20 a.code)
  | .gaMax h a => .slot (some .ca) false (encodeMove h 21 a.code)
  | .gaSwap h a => .slot (some .ca) false (encodeMove h 22 a.code)
  | .gaCas h a => .slot (some .ca) false (encodeMove h 23 a.code)
  | .mcst h a => .slot (some .ca) false (encodeMove h 24 a.code)
  | .wbr h a => .slot (some .ca) false (encodeMove h 25 a.code)
  | .invr h a => .slot (some .ca) false (encodeMove h 26 a.code)
  | .pref h a => .slot (some .ca) false (encodeMove h 27 a.code)
  | .waitany h a => .slot (some .ca) false (encodeMove h 32 a.code)
  | .waitall h a => .slot (some .ca) false (encodeMove h 33 a.code)
  | .ffr h a => .slot (some .ca) false (encodeMove h 34 a.code)
  | .clrtag h a => .slot (some .ca) false (encodeMove h 35 a.code)
  | .bcInit h a => .slot (some .ca) false (encodeMove h 40 a.code)
  | .arriveExp h a => .slot (some .ca) false (encodeMove h 41 a.code)
  | .bcSub h a => .slot (some .ca) false (encodeMove h 42 a.code)
  | .bcWait h a => .slot (some .ca) false (encodeMove h 43 a.code)
  | .xcoll h a => .slot (some .ca) false (encodeMove h 48 a.code)
  | .ttready h a => .slot (some .ca) false (encodeMove h 49 a.code)
  | .catArm h a => .slot (some .ca) false (encodeMove h 50 a.code)
  | .catDisarm h a => .slot (some .ca) false (encodeMove h 51 a.code)
  | .waitid h a => .slot (some .ca) false (encodeMove h 52 a.code)
  | .jmp h a => .slot (some .ct) false (encodeMove h 1 a.code)
  | .jmpr h a => .slot (some .ct) false (encodeMove h 2 a.code)
  | .call h a => .slot (some .ct) false (encodeMove h 3 a.code)
  | .callr h a => .slot (some .ct) false (encodeMove h 4 a.code)
  | .ret h a => .slot (some .ct) false (encodeMove h 5 a.code)
  | .loop h a => .slot (some .ct) false (encodeMove h 8 a.code)
  | .loopx h a => .slot (some .ct) false (encodeMove h 9 a.code)
  | .nest h a => .slot (some .ct) false (encodeMove h 10 a.code)
  | .slack h a => .slot (some .ct) false (encodeMove h 12 a.code)
  | .bar h a => .slot (some .ct) false (encodeMove h 16 a.code)
  | .tkpost h a => .slot (some .ct) false (encodeMove h 17 a.code)
  | .cbr h a => .slot (some .ct) false (encodeMove h 20 a.code)
  | .agjoin h a => .slot (some .ct) false (encodeMove h 21 a.code)
  | .agleave h a => .slot (some .ct) false (encodeMove h 22 a.code)
  | .agexcuse h a => .slot (some .ct) false (encodeMove h 23 a.code)
  | .heart h => .slot (some .ct) false (encodeMove h 24 0)
  | .retire h => .slot (some .ct) false (encodeMove h 25 0)
  | .csync h => .slot (some .ct) false (encodeMove h 26 0)
  | .tret h => .slot (some .ct) false (encodeMove h 27 0)
  | .rdsr h a => .slot (some .ct) false (encodeMove h 28 a.code)
  | .wrsr h a => .slot (some .ct) false (encodeMove h 29 a.code)
  | .fenceScDevice h => .slot (some .ct) false (encodeMove h 59 0)
  | .fenceScDomain h => .slot (some .ct) false (encodeMove h 60 0)
  | .fenceAcq h sc => .slot (some .ct) false (encodeMove h (32 + sc.code) 0)
  | .fenceRel h sc => .slot (some .ct) false (encodeMove h (40 + sc.code) 0)
  | .fenceAr h sc => .slot (some .ct) false (encodeMove h (48 + sc.code) 0)
  | .mnop m => .micro (encodeMicro 0 m)
  | .mend m => .micro (encodeMicro 1 m)
  | .mseta m => .micro (encodeMicro 2 m)
  | .madd m => .micro (encodeMicro 3 m)
  | .msetc m => .micro (encodeMicro 4 m)
  | .mloop m => .micro (encodeMicro 5 m)
  | .mjmp m => .micro (encodeMicro 6 m)
  | .mlda m => .micro (encodeMicro 7 m)
  | .mldb m => .micro (encodeMicro 8 m)
  | .mldsa m => .micro (encodeMicro 9 m)
  | .mldsw m => .micro (encodeMicro 10 m)
  | .mlde m => .micro (encodeMicro 11 m)
  | .mldm m => .micro (encodeMicro 12 m)
  | .mstr m => .micro (encodeMicro 13 m)
  | .mzero m => .micro (encodeMicro 14 m)
  | .mstacc m => .micro (encodeMicro 15 m)
  | .mldacc m => .micro (encodeMicro 16 m)
  | .bundleIssue => .none
  | .cbxReloadEnd _ => .none
  | .windowAccessPerform _ => .none
  | .resultPush _ => .none
  | .spillWriteComplete _ => .none
  | .fillArrive _ => .none
  | .feedElementArrive _ _ => .none
  | .heldOpRun _ _ => .none
  | .slackExhausted _ => .none
  | .stallEnd _ => .none
  | .tkpostDeliver _ => .none
  | .agexcuseAck _ => .none
  | .retireComplete _ => .none
  | .csyncSnapshot _ => .none
  | .l2domSwitchDone _ _ => .none
  | .replayResponse _ => .none
  | .fenceComplete _ => .none
  | .invalidationApply _ _ => .none
  | .columnPresent _ => .none
  | .heldCallEnqueue _ _ => .none
  | .mxeCallStart _ => .none
  | .mxloadRun _ => .none
  | .engineCallComplete _ _ => .none
  | .engineTokenPostDeferred _ _ => .none
  | .xfuCallStart _ => .none
  | .mxeQuiesce _ => .none
  | .xfuQuiesce _ => .none
  | .tagCommandAccept _ => .none
  | .copyChunk _ => .none
  | .tagCommandComplete _ => .none
  | .catalogueDisarmComplete _ => .none
  | .counterArrival _ _ _ => .none
  | .readinessNotice _ => .none
  | .pullRequest _ => .none
  | .chunkLand _ => .none
  | .parkedChunkWrite _ => .none
  | .localPullFault _ => .none
  | .parkingSpaceFree _ => .none
  | .parkedNoticeRelease _ _ _ => .none
  | .transferIdComplete _ _ _ _ => .none
  | .k2TokenPost _ => .none
  | .staleRefuse _ => .none
  | .chunkRedrive _ => .none
  | .noticeResend _ => .none
  | .mcstReplicaArrive _ => .none
  | .mcstAckArrive _ _ => .none
  | .circuitChange _ => .none
  | .linkRetrained _ => .none
  | .retrainTimeout _ => .none
  | .linkFail _ => .none
  | .packetTrainStart _ _ => .none
  | .errorMonitorRaise _ _ => .none
  | .holdExpire _ _ => .none
  | .contributionArrive _ => .none
  | .agreementTimeout _ => .none
  | .answerArrive _ _ _ _ => .none
  | .heldStoreDrain _ => .none
  | .leaveNotice _ _ _ => .none
  | .preemptedNotice _ _ => .none
  | .resumeNotice _ _ => .none
  | .taskFail _ _ _ _ => .none
  | .watchdogFire _ => .none
  | .unitClaimComplete _ _ => .none
  | .dieReport _ => .none
  | .taskPlace _ => .none
  | .taskResume _ => .none
  | .frameStart => .none
  | .queueIdleUnmap _ => .none
  | .signalAck _ _ => .none
  | .invalAck _ => .none
  | .graphStepBegin _ => .none
  | .graphNodeComplete _ _ => .none
  | .condNodeRead _ _ => .none
  | .notifyWrite _ _ => .none
  | .crdidxWrite _ _ => .none
  | .queueRegister _ _ _ => .none
  | .queueUnregister _ _ => .none
  | .queueHalt _ _ => .none
  | .queueResume _ _ => .none
  | .rdidxWrite _ _ => .none
  | .hostMemoryAccess _ _ => .none
  | .groupMemberWrite _ _ _ => .none
  | .groupHeaderWrite _ _ => .none
  | .routingEntryWrite _ _ _ => .none
  | .rtctlStage _ => .none
  | .topologySwap _ => .none
  | .ptrootWrite _ => .none
  | .fltbaseWrite _ => .none
  | .fltrespResolve _ => .none
  | .fltrespRefuse _ => .none
  | .iclampWrite _ => .none
  | .attestNonceWrite _ => .none
  | .registerWrite _ _ => .none
  | .currentClampReached => .none
  | .clockRecoverStep => .none
  | .functionLevelReset => .none
  | .moduleReset _ _ _ => .none
  | .pcieLinkTrain _ _ => .none
  | .fltrdWrite _ => .none
  | .scalarBankRetire _ _ => .none
  | .opticalBudgetChange _ _ => .none
  | .portDisable _ => .none

/-- The bits of an instruction as decodeTableWord takes them: their count and their value. -/
def Code.bits : Code → Option (Nat × Nat)
  | .slot _ _ w => some (24, w.toNat)
  | .micro w => some (64, w.toNat)
  | .none => Option.none

end Sys2Proof
end

