-- ==== Sys2Proof/Machine/Bundle.lean ====
section
/-! DEFINITION. Bundle headers, the condition tree, and the checks made at decode (R48 to R72). -/

namespace Sys2Proof.Machine

/-! ### The header (R52) -/

/-- LB: the literal blocks that follow. -/
def hdrLb (b : Block) : Nat := fld b 253 2
/-- TS: the tree shape. -/
def hdrTs (b : Block) : Nat := fld b 251 2
/-- Test field Tj. -/
def hdrTest (b : Block) (j : Nat) : Nat := fld b (247 - 4 * j) 4
/-- The offset of leaf j, 1 to 4, in blocks. -/
def hdrOff (b : Block) (j : Nat) : Int := sintN 8 (fld b (235 - 8 * j) 8)
/-- GL: the loop level of first and last guards. -/
def hdrGl (b : Block) : Nat := fld b 200 3
/-- Whether slot i is in immediate form. -/
def hdrIm (b : Block) (i : Nat) : Bool := bit b (192 + i)
/-- The word of slot i. -/
def slotWord (b : Block) (i : Nat) : SlotWord := b.extractLsb' (24 * i) 24

/-- The instruction in slot i (R57, R63, R66). -/
def slotInstr (b : Block) (i : Nat) : Option Instr := decodeSlot (UnitName.ofCode i) (hdrIm b i) (slotWord b i)

/-- The address of the next bundle in sequence (R48). -/
def nextInSequence (pc : Nat) (b : Block) : Nat := (pc + 32 * (1 + hdrLb b)) % 2 ^ 64

/-! ### The condition tree (R53 to R55) -/

/-- The value of a test field over the predicates. -/
def testValue (p : BitVec 8) (t : Nat) : Bool := bit p (t % 8) != (t / 8 % 2 == 1)

/-- The leaf the tree takes (R54). -/
def treeLeaf (b : Block) (p : BitVec 8) : Nat :=
  let t (j : Nat) := testValue p (hdrTest b j)
  match hdrTs b with
  | 0 => 5
  | 1 => if t 0 then 1 else if t 1 then 2 else if t 2 then 3 else if t 3 then 4 else 5
  | _ => if t 0 then (if t 1 then 1 else 2) else if t 2 then 3 else if t 3 then 4 else 5

/-- The target of leaf j, 1 to 4 (R55). -/
def leafTarget (pc : Nat) (b : Block) (j : Nat) : Nat := (((pc : Int) + 32 * hdrOff b j) % 2 ^ 64).toNat

/-! ### What a slot reads, writes and pops (R62, R68) -/

/-- A place that a slot writes or reads within a group (R68). -/
inductive Place
  | port (u : UnitName) (p : Nat) | s (n : Nat) | v (n : Nat) | p (n : Nat) | lc (n : Nat) | lb (n : Nat)
  | slk | cbx | fpst
deriving DecidableEq, Repr

/-- A slot word's fields. -/
def slotGuard (n : Nat) : Nat := bitsAt n 19 3
/-- D of a move slot. -/
def slotD (n : Nat) : Nat := bitsAt n 9 10
/-- X of a move slot. -/
def slotX (n : Nat) : Nat := bitsAt n 0 9
/-- The source id of a move slot. -/
def slotSource (n : Nat) : Nat := bitsAt n 0 7

/-- The places that a slot writes (R63, R64, R66, R68, R147, R174). -/
def slotWrites (u : UnitName) (im : Bool) (gl n : Nat) : List Place :=
  if im then
    match bitsAt n 20 3 with
    | 0 => [.port u 1] | 2 => [.port u 1] | 4 => [.port u 1]
    | 1 => [.port u 2] | 3 => [.port u 2] | 5 => [.port u 2]
    | 6 => [.lb gl]
    | _ => []
  else
    let d := slotD n
    if d < 512 then
      match u with
      | .ct => if d = 0xC then [.slk] else []
      | .va => if d = 0x1EF ∨ d = 0x1F0 then [.fpst] else []
      | .vb => if d = 0x1EF ∨ d = 0x1F0 then [.fpst] else []
      | _ => []
    else match d / 128 % 4 with
      | 0 => [.port (UnitName.ofCode (d / 16 % 8)) (d / 4 % 4)]
      | 1 => [.s (d % 32)]
      | 2 => if d / 16 % 2 = 0 then [.v (d % 16)] else [.p (d % 8)]
      | _ =>
        let c := d % 128
        if c < 6 then [.lc c] else if c < 14 then [.lb (c - 8)] else if c = 16 then [.slk] else [.cbx]

/-- The value of a source that the encoding itself gives: a literal, zero or one (R60, R61). -/
def sourceShown (lits : List (BitVec 32)) (x : Nat) : Option Nat :=
  if 96 ≤ x ∧ x < 117 then some (lits.getD (x - 96) 0).toNat
  else if x = 117 then some 0 else if x = 118 then some 1 else none

/-- The loop bound that a LOOP or LOOPX reads, where the encoding shows its level (R68, R139). A level that an operand
names at run time, like the counter that source 126 reads, is no register that decode can see: such a read is checked
nowhere and sees the group's start (notes/assumptions/63.md). -/
def loopReads (lits : List (BitVec 32)) (u : UnitName) (d x : Nat) : List Place :=
  if u = .ct ∧ (d = 8 ∨ d = 9) then (match sourceShown lits x with
    | some a => [.lb (a / 64 % 8)]
    | none => [])
  else []

/-- The places that a slot reads: registers, its unit's ports at a trigger, and a loop bound (R68). -/
def slotReads (lits : List (BitVec 32)) (u : UnitName) (im : Bool) (n : Nat) : List Place :=
  if im then []
  else
    let x := slotSource n
    let src := if 16 ≤ x ∧ x < 48 then [.s (x - 16)] else if 48 ≤ x ∧ x < 64 then [.v (x - 48)] else []
    let d := slotD n
    if d = 0 ∨ 512 ≤ d then src
    else src ++ [.port u 1, .port u 2, .port u 3] ++ loopReads lits u d x

/-- The stream that a slot's own source pops (R59, R68). -/
def slotPops (im : Bool) (n : Nat) : Option Nat :=
  let x := slotSource n
  let mode := bitsAt n 7 2
  let toPort : Bool := 512 ≤ slotD n && slotD n / 128 % 4 == 0
  if im || x < 64 || 76 < x then none
  else if mode = 0 ∨ (mode = 2 ∧ !toPort) then some x else none

/-- Whether a slot's effect does not depend on a guard (R68). -/
def slotAlways (im : Bool) (n : Nat) : Bool := im || slotGuard n == 0

/-- The slots of each group in order (R68). -/
def groups (b : Block) : List (List Nat) :=
  (List.range 8).foldr (fun i gs =>
    if i = 7 ∨ bit (slotWord b i) 23 then [i] :: gs
    else match gs with
      | [] => [[i]]
      | g :: rest => (i :: g) :: rest) []

/-! ### The decode checks (R67) -/

/-- Faults of a bundle's own literal blocks (R51). -/
def literalFault (l : Block) : Bool := fld l 252 3 == 0 || fld l 224 28 != 0 || bit l 255

/-- The literals of a bundle, seven words for each literal block (R51, R61). -/
def literalsOf (ls : List Block) : List (BitVec 32) :=
  (ls.map fun l => (List.range 7).map fun m => l.extractLsb' (32 * m) 32).flatten

/-- Whether a source id names a literal that is not there (R61). -/
def literalAbsent (ls : List Block) (x : Nat) : Bool :=
  96 ≤ x && x < 117 &&
    match ls[(x - 96) / 7]? with
    | none => true
    | some l => fld l 252 3 ≤ (x - 96) % 7

/-- Whether a control slot holds a transfer that needs guard 101 beside a tree (R70, R149). -/
def isTransferPort (d : Nat) : Bool := (1 ≤ d && d ≤ 5) || d == 8 || d == 9 || d == 0x14

/-- Whether one slot is a fault of encoding (R56, R57, R61, R63, R66, R70, R72). -/
def slotFault (b : Block) (ls : List Block) (i : Nat) : Bool :=
  let n := (slotWord b i).toNat
  let im := hdrIm b i
  (slotInstr b i).isNone
    || (!im && hdrTs b == 0 && 1 ≤ slotGuard n && slotGuard n ≤ 4)
    || (!im && literalAbsent ls (slotSource n))
    || (!im && i == 7 && hdrTs b != 0 && isTransferPort (slotD n) && slotGuard n != 5)

/-- The distinct registers that a group reads through its sources (R62). -/
def groupReads (b : Block) (lo hi : Nat) (g : List Nat) : Nat :=
  ((g.filter fun i => !hdrIm b i).map fun i => slotSource (slotWord b i).toNat).filter
    (fun x => lo ≤ x && x < hi) |>.eraseDups.length

/-- ILLENC at decode (R67). -/
def illegalEncoding (b : Block) (ls : List Block) : Bool :=
  ls.any literalFault
    || hdrTs b == 3
    || (hdrTs b == 0 && fld b 203 48 != 0)
    || 6 ≤ hdrGl b
    || (List.range 8).any (slotFault b ls)
    || (groups b).any fun g => 4 < groupReads b 16 48 g || 4 < groupReads b 48 64 g

/-- Whether a later slot of a group may not stand beside an earlier one (R68). -/
def slotsClash (b : Block) (lits : List (BitVec 32)) (i j : Nat) : Bool :=
  let u (k : Nat) := UnitName.ofCode k
  let n (k : Nat) := (slotWord b k).toNat
  let im := hdrIm b
  let wi := slotWrites (u i) (im i) (hdrGl b) (n i)
  (slotReads lits (u j) (im j) (n j)).any wi.contains
    || (slotAlways (im i) (n i) && slotAlways (im j) (n j)
        && (slotWrites (u j) (im j) (hdrGl b) (n j)).any wi.contains)
    || ((slotPops (im i) (n i)).isSome && slotPops (im i) (n i) == slotPops (im j) (n j))

/-- ILLDEP at decode (R67, R68). -/
def illegalDependence (b : Block) (ls : List Block) : Bool :=
  (groups b).any fun g => g.any fun i => g.any fun j => i < j && slotsClash b (literalsOf ls) i j

end Sys2Proof.Machine
end

