-- ==== Sys2Proof/Machine/Translate.lean ====
section
/-! DEFINITION. Physical addresses, routes, the page-table walk, and the fault ring (R264, R314, R361 to R365,
R389, R390). -/

namespace Sys2Proof.Machine

/-! ### Routes (R314, R389, R390) -/

/-- What the current routing table and the ports give for a module: a route, a wait for a retraining port, or none. -/
inductive Route | open_ | wait | none
deriving DecidableEq, Repr

/-- The optical ports that the current table names for a module, by a minimal route or through a group (R389). -/
def State.routePorts (s : State) (m : Nat) : Word := lookupD s.curMin m 0 ||| lookupD s.curVia m 0

/-- Whether a module of the domain is reached: its own id always is (R264, R390). -/
def State.reached (s : State) (m : Nat) : Bool := m == s.modId || (m < 2304 && s.routePorts m != 0)

/-- Whether a named port of a route is in a state: 0 Up, 1 Retrain, 2 Down, 3 Off (R314, R315). -/
def State.routeIn (s : State) (m state : Nat) : Bool :=
  (List.range 64).any fun k => bit (s.routePorts m) k && (vget s.optical k resetPort).state == state

/-- The route of a packet: another port of the table is taken where one is not Up, and a retraining port is
waited for (R314). -/
def State.route (s : State) (m : Nat) : Route :=
  if m == s.modId then .open_
  else if !s.reached m then .none
  else if s.routeIn m 0 then .open_
  else if s.routeIn m 1 then .wait
  else .none

/-- Whether a packet is delivered: one of another module was injected under the version of this module's switch; a message
within the module, which names no version, passes no switch chiplet (R311, R312). -/
def State.delivered (s : State) (ver : Option Nat) : Bool := ver.all (· == s.cur.toNat)

/-- A packet leaves for a module, under the version of the current table; one whose route waits for a retraining port
leaves when the port is Up, and one that has no route does not leave (R311, R314). -/
def State.send (s : State) (dest : Nat) (p : Packet) : State :=
  match s.route dest with
  | .open_ => { s with outbox := s.outbox ++ [(s.cur.toNat, p)] }
  | .wait => { s with departing := s.departing ++ [(dest, p)] }
  | .none => s

/-- A message to the host (R320, R321). -/
def State.tellHost (s : State) (m : HostMsg) : State := { s with hostbox := s.hostbox ++ [m] }

/-! ### Physical addresses (R264) -/

/-- The module that a physical address names (R264). -/
def State.paModule (s : State) (pa : Nat) : Nat := if pa / 2 ^ 40 % 4096 = 0 then s.modId else pa / 2 ^ 40 % 4096 - 1

/-- Whether a physical address is reachable: its module is, by a route whose ports are Up or in Retrain (R264, R314,
R390). -/
def State.paReached (s : State) (pa : Nat) : Bool := s.route (s.paModule pa) != .none

/-- The key of a byte at a physical address: this module's HBM, or another module's (R264). -/
def State.paKey (s : State) (pa : Nat) : Nat :=
  if s.paModule pa = s.modId then Key.hbm pa else 2 ^ 60 + pa % 2 ^ 52

/-! ### The walk (R361, R362) -/

/-- Whether an optical port retrains (R314). -/
def State.retraining (s : State) : Bool := s.optical.toList.any (·.state == 1)

/-- The outcome of a walk: a page with its permissions, or why it failed (R362, R365). -/
inductive PageWalk
  | page (pa : Nat) (w x ht : Bool)
  | fail (why : Nat)
deriving DecidableEq, Repr

/-- Levels 5 to 1: the low index bit and the number of index bits (R362). -/
def walkLevels : List (Nat × Nat × Nat) := [(5, 48, 9), (4, 39, 9), (3, 30, 9), (2, 21, 9), (1, 16, 5)]

/-- Walks the tables from one at physical address `table` (R362). -/
def State.walkFrom (s : State) (va : Nat) : List (Nat × Nat × Nat) → Nat → PageWalk
  | [], _ => .fail 0
  | (lv, lo, n) :: ls, table =>
    let at_ := table + 8 * (va / 2 ^ lo % 2 ^ n)
    if !s.paReached at_ then .fail 2
    else
      let e := BitVec.ofNat 64 (Memory.num s.mem (s.paKey at_) 8)
      let pa := fld e 8 44 * 256
      if !bit e 0 || fld e 52 12 ≠ 0 || fld e 5 3 ≠ 0 then .fail 0
      else if bit e 3 then
        if 4 ≤ lv ∨ pa % 2 ^ lo ≠ 0 then .fail 0
        else if !s.paReached pa then .fail 2
        else .page (pa + va % 2 ^ lo) (bit e 1) (bit e 4) (bit e 2)
      else if lv = 1 then .fail 0
      else s.walkFrom va ls pa

/-- Translates a virtual address; one with any of bits [63:57] set is refused (R12, R361). -/
def State.translate (s : State) (va : Nat) : PageWalk :=
  if 2 ^ 57 ≤ va ∨ !bit s.ptroot 0 then .fail 0 else s.walkFrom va walkLevels (fld s.ptroot 12 40 * 4096)

/-- Whether a walk meets a table, or ends in a page, of a module whose route waits for a retraining port (R314). -/
def State.walkWaits (s : State) (va : Nat) : List (Nat × Nat × Nat) → Nat → Bool
  | [], _ => false
  | (lv, lo, n) :: ls, table =>
    let at_ := table + 8 * (va / 2 ^ lo % 2 ^ n)
    s.route (s.paModule at_) == .wait
      || (let e := BitVec.ofNat 64 (Memory.num s.mem (s.paKey at_) 8)
          let pa := fld e 8 44 * 256
          bit e 0 && fld e 52 12 == 0 && fld e 5 3 == 0
            && (if bit e 3 then decide (lv < 4) && s.route (s.paModule pa) == .wait else s.walkWaits va ls pa))

/-- Whether an access to `n` bytes from a virtual address on must wait for a retraining port (R314). -/
def State.rangeWaits (s : State) (va n : Nat) : Bool :=
  s.retraining && bit s.ptroot 0 && (List.range ((va % 65536 + n + 65535) / 65536)).any fun i =>
    s.walkWaits (va / 65536 * 65536 + 65536 * i) walkLevels (fld s.ptroot 12 40 * 4096)

/-- The translation that one of some holders has cached (R363). -/
def State.cached (s : State) (hs : List TlbHolder) (va : Nat) : Option PageWalk :=
  if hs.isEmpty then none
  else (s.tlb.find? fun e => hs.contains e.holder && e.page == va / 65536).map fun e => .page (e.pa + va % 65536) e.w e.x e.ht

/-- A translation for a party with caches: an entry made before the tables changed may still serve it, a choice that the
manual leaves open; with V = 0 every translation fails (R361, R363, notes/assumptions/34.md). -/
def State.translateFor (s : State) (hs : List TlbHolder) (va : Nat) : PageWalk :=
  let now := s.translate va
  match s.cached hs va with
  | none => now
  | some p =>
    if p = now ∨ 2 ^ 57 ≤ va ∨ !bit s.ptroot 0 then now
    else if Config.staleServed s.cycle (va / 65536) then p else now

/-- How many entries a holder has (R363). -/
def TlbHolder.capacity : TlbHolder → Nat
  | .cluster _ => 4096
  | .engine _ _ => 64

/-- Keeps an entry, and drops the oldest of a holder that is full (R363). -/
def keepEntry (l : List TlbEntry) (e : TlbEntry) : List TlbEntry :=
  let mine := (l.filter fun x => x.holder == e.holder && x.page != e.page).take (e.holder.capacity - 1)
  e :: mine ++ l.filter fun x => x.holder != e.holder

/-- Caches the translation that an access has used (R363). -/
def State.keepPage (s : State) (hs : List TlbHolder) (va : Nat) : State :=
  match s.translateFor hs va with
  | .fail _ => s
  | .page pa w x ht => { s with tlb := hs.foldl (fun l h =>
      if l.any fun e => e == ⟨h, va / 65536, pa - va % 65536, w, x, ht⟩ then l
      else keepEntry l ⟨h, va / 65536, pa - va % 65536, w, x, ht⟩) s.tlb }

/-- Caches the translations of a range. -/
def State.keepRange (s : State) (hs : List TlbHolder) (va n : Nat) : State :=
  if hs.isEmpty then s
  else (List.range ((va % 65536 + n + 65535) / 65536)).foldl (fun s i => s.keepPage hs (va / 65536 * 65536 + 65536 * i)) s

/-- An invalidation drops every cached translation that its range meets (R326, R363, R364). -/
def State.dropRange (s : State) (va n : Nat) : State :=
  { s with tlb := s.tlb.filter fun e => 65536 * (e.page + 1) ≤ va || va + n ≤ 65536 * e.page }

/-- What an access is (R365). -/
inductive Access | read | write | fetch
deriving DecidableEq, Repr

/-- ACC of a fault record (R365). -/
def Access.code : Access → Nat | .read => 0 | .write => 1 | .fetch => 2

/-- The key of the byte at a virtual address for an access, or why it is refused: 0 no valid translation,
1 forbidden, 2 unreachable (R362, R365). -/
def State.locateFor (s : State) (hs : List TlbHolder) (acc : Access) (va : Nat) : Except Nat Nat :=
  match s.translateFor hs va with
  | .fail why => .error why
  | .page pa w x _ =>
    if (acc = .write ∧ !w) ∨ (acc = .fetch ∧ !x) then .error 1 else .ok (s.paKey pa)

/-- The same for a party of the base dies or the switch chiplet, which caches nothing. -/
def State.locate (s : State) (acc : Access) (va : Nat) : Except Nat Nat := s.locateFor [] acc va

/-- The keys of the pieces of a virtual range, one piece for each 64 KiB region it meets; or the first address
that is refused and why (R241, R265). -/
def State.pieces (s : State) (hs : List TlbHolder) (acc : Access) : Nat → Nat → Nat → Except (Nat × Nat) (List (Nat × Nat))
  | 0, _, _ => .ok []
  | fuel + 1, va, n =>
    if n = 0 then .ok []
    else
      let k := min n (65536 - va % 65536)
      match s.locateFor hs acc va with
      | .error why => .error (va, why)
      | .ok key => match s.pieces hs acc fuel (va + k) (n - k) with
        | .error e => .error e
        | .ok l => .ok ((key, k) :: l)

/-- The pieces of a virtual range. -/
def State.rangeFor (s : State) (hs : List TlbHolder) (acc : Access) (va n : Nat) : Except (Nat × Nat) (List (Nat × Nat)) :=
  s.pieces hs acc (n / 65536 + 2) va n

/-- The same for a party that caches nothing. -/
def State.range (s : State) (acc : Access) (va n : Nat) : Except (Nat × Nat) (List (Nat × Nat)) := s.rangeFor [] acc va n

/-- The pieces of a range as a tile's core path translates it (R363). -/
def State.tileRange (s : State) (ptn : Nat) (acc : Access) (va n : Nat) : Except (Nat × Nat) (List (Nat × Nat)) :=
  s.rangeFor [.cluster (clusterOf ptn)] acc va n

/-- Reads the bytes of pieces. -/
def State.readPieces (s : State) (l : List (Nat × Nat)) : List Byte := (l.map fun p => Memory.read s.mem p.1 p.2).flatten

/-- Whether a byte of the pieces is uncorrectable (R371). -/
def State.badPieces (s : State) (l : List (Nat × Nat)) : Bool := l.any fun p => s.bad p.1 p.2

/-- Writes bytes over pieces. -/
def State.writePieces (s : State) : List (Nat × Nat) → List Byte → State
  | [], _ => s
  | (k, n) :: l, bs => State.writePieces (s.write k (bs.take n)) l (bs.drop n)

/-- Writes global virtual memory from base die 0, whole or not at all (R282). -/
def State.writeVirt (s : State) (va : Nat) (bs : List Byte) : Except (Nat × Nat) State :=
  (s.range .write va bs.length).map fun l => (s.writePieces l bs).noteWrites 8 l

/-- Writes global virtual memory from a tile's core, whole or not at all (R137, R282, R359). -/
def State.tileWrite (s : State) (ptn va : Nat) (bs : List Byte) : Except (Nat × Nat) State :=
  (s.tileRange ptn .write va bs.length).map fun l =>
    ((s.keepRange [.cluster (clusterOf ptn)] va bs.length).writePieces l bs).noteWrites (dieOf ptn) l

/-- What a tile's core has read: its die merges the stamps, and its cluster keeps the translations (R282, R363). -/
def State.tileHasRead (s : State) (ptn va n : Nat) (l : List (Nat × Nat)) : State :=
  (s.keepRange [.cluster (clusterOf ptn)] va n).noteReads (dieOf ptn) l

/-- Writes an image to a save place, or gives the first address that cannot be written and why (R359). Its encoding is the
device's own (R360): the bytes are free values, and what was saved stays in the context (notes/assumptions/32.md). -/
def State.saveImage (s : State) (ptn va n : Nat) : Except (Nat × Nat) State :=
  (s.tileRange ptn .write va n).map fun l =>
    (l.foldl (fun s k => s.undefine k.1 k.2) (s.keepRange [.cluster (clusterOf ptn)] va n)).noteWrites (dieOf ptn) l

/-! ### The fault ring (R365) -/

/-- Raises an MSI-X vector at the host (R320). -/
def State.msix (s : State) (vec : Nat) : State := s.tellHost (.msix vec)

/-- FLTBASE.LOG2: the ring holds 2 ^ LOG2 records; 0 disables it (R365). -/
def State.ringLog (s : State) : Nat := fld s.fltbase 0 5

/-- Whether the ring has room for a record (R365). -/
def State.ringRoom (s : State) : Bool := s.ringLog ≠ 0 && (s.fltwr - s.fltrd).toNat < 2 ^ s.ringLog

/-- Writes a fault record of a kind, which takes number FLTWR, and raises FLTVEC (R365). -/
def State.writeRecord (s : State) (kind : Nat) (acc : Access) (why va ptn queue task : Nat) : State :=
  let w0 := kind * 2 ^ 56 + acc.code * 2 ^ 54 + why * 2 ^ 52 + s.fltwr.toNat
  let w2 := ptn * 2 ^ 52 + queue * 2 ^ 32 + task
  let at_ := s.paKey (fld s.fltbase 12 40 * 4096 + 32 * (s.fltwr.toNat % 2 ^ s.ringLog))
  let t := (s.write at_ (bytesLE 8 w0 ++ bytesLE 8 (va % 2 ^ 57) ++ bytesLE 8 w2 ++ bytesLE 8 0)).noteWrite 8 at_ 32
  let t := { t with fltwr := s.fltwr + 1 }
  if bit s.fltvec 6 then t.msix (fld s.fltvec 0 6) else t

/-- An informational record: dropped and counted when the ring is full or disabled (R365). -/
def State.inform (s : State) (kind : Nat) (acc : Access) (why va ptn queue task : Nat) : State :=
  if s.ringRoom then s.writeRecord kind acc why va ptn queue task else { s with fltlost := s.fltlost + 1 }

/-- The queue and the task id that a record names for a strand (R365). -/
def State.recordIds (s : State) (t : Strand) : Nat × Nat := (((s.task? t.task).map (·.queue)).getD 0, t.task)

/-- An informational record about a strand's access. -/
def State.informStrand (s : State) (t : Strand) (kind : Nat) (acc : Access) (why va : Nat) : State :=
  s.inform kind acc why va t.ptn (s.recordIds t).1 (s.recordIds t).2

end Sys2Proof.Machine
end

