-- ==== Sys2Proof/Machine/Issue.lean ====
section
/-! DEFINITION. How a bundle issues: taking a trap, the end of a group and of a bundle, squashing, loop bodies,
and the frame that every slot meaning runs in (R55, R58, R67 to R76, R139 to R148, R345 to R352). -/

namespace Sys2Proof.Machine

/-! ### Taking a trap (R345 to R352) -/

/-- The trapping slot: that of a held trigger, else the one that issues (R348). -/
def TrapRec.slot (r : TrapRec) (q : Seq) : Nat := match r.held with | some h => h.slot | none => q.slot

/-- The trapping slot's 24 bits (R348). -/
def TrapRec.slotBits (r : TrapRec) (q : Seq) : BitVec 24 :=
  match r.held with | some h => h.word | none => slotWord q.block q.slot

/-- TSAVE0 for a trap (R348). -/
def tsave0 (r : TrapRec) (q : Seq) (pre : Bool) : Word :=
  BitVec.ofNat 64 (r.cause * 2 ^ 56 + r.sub * 2 ^ 48 + (if r.held.isSome then 2 ^ 47 else 0)
    + (if pre then 2 ^ 46 else q.group * 2 ^ 43 + r.slot q * 2 ^ 40 + q.leaf * 2 ^ 37) + 3 * 2 ^ 35)

/-- The eight trap save registers of a trap (R348). -/
def tsaveWords (r : TrapRec) (c : Ctx) (pre : Bool) : Vector Word 8 :=
  #v[tsave0 r c.seq pre, BitVec.ofNat 64 (c.pc % 2 ^ 57), BitVec.ofNat 64 r.addr, c.seq.block.extractLsb' 192 64,
    if pre then 0 else (r.slotBits c.seq).zeroExtend 64,
    match r.held with | some h => BitVec.ofNat 64 h.pc | none => r.opa, r.opb, 0]

/-- Whether a cause enters the handler (R345). -/
def isVectored (cause : Nat) : Bool := cause != Cause.wdog.code && cause != Cause.mchk.code && cause != Cause.savef.code

/-- SPILL of a handler: the handler spill area of the context save area, with SIZE 16 (R346, R360). -/
def handlerSpill (csa : Word) : Word := BitVec.ofNat 64 (fld csa 22 35 * 2 ^ 22 + 0x70000 + 16)

/-- Marks a strand's failure in a tile cycle, which ends its task (R351, R352). The first failure stands. -/
def Strand.failWith (t : Strand) (cycle cause sub addr : Nat) (ws : List Word) : Strand :=
  { t with fail := some (t.fail.getD ⟨cycle, cause, sub, addr, ws⟩) }

/-- Marks the failure of a strand by a trap: the words of one in a handler follow those of the trap that entered it
(R352). -/
def Strand.failTrap (t : Strand) (cycle cause sub addr : Nat) (ws : List Word) : Strand :=
  t.failWith cycle cause sub addr (if t.saved.isSome then t.tsave.toList ++ ws else ws)

/-- The fault words of a failure that is no trap (R352). -/
def failWords (cause sub addr : Nat) : List Word :=
  [BitVec.ofNat 64 (cause * 2 ^ 56 + sub * 2 ^ 48), 0, BitVec.ofNat 64 addr, 0, 0, 0, 0, 0]

/-- s8 to s10 of a task's strand at its start: the argument's address, the graph step and the history index (R31). -/
def Ctx.withArgs (c : Ctx) (k : Option Task) : Ctx :=
  match k with
  | none => c
  | some k => ((c.writeS 8 k.arg).writeS 9 k.s9).writeS 10 k.s10

/-- A handler's context at its start: every unit as at a strand's start, at TVEC, with its own spill area and the
interrupted LFSR (R31, R346, R347). -/
def Frame.handlerCtx (f : Frame) (id : Nat) (lfsr : BitVec 32) : Ctx :=
  (Ctx.start id (fld f.t.tvec 5 52 * 32) (handlerSpill f.t.csa) lfsr).withArgs (f.s.task? f.t.task)

/-- Enters the handler at TVEC (R346, R347); the interrupted group keeps what it sees (R349). -/
def Frame.enterHandler (f : Frame) (ws : Vector Word 8) : State :=
  let id := f.s.nextId
  let h := f.handlerCtx id (fpstLfsr f.c.fpst)
  let s := { f.s with nextId := id + 1, ctxs := h :: f.s.ctxs, turn := f.s.turn.filter (· != f.t.sid) }
  (({ f with s := s, t := { f.t with
      tsave := ws, cur := id, saved := some f.c.id, snap0 := some f.t.snap, waits := none } } : Frame)).put

/-- The base of a context save area (R359). -/
def csaBase (csa : Word) : Nat := fld csa 22 35 * 2 ^ 22

/-- Fails a strand whose state cannot be saved or restored: cause SAVEF, with a record of KIND 6 (R352, R359). -/
def State.failSave (s : State) (t : Strand) (acc : Access) (why va : Nat) : State :=
  (s.informStrand t 6 acc why va).setStrand
    (t.failWith s.cycle Cause.savef.code 0 va (failWords Cause.savef.code 0 va))

/-- The offset and size of a claimable unit's save place; a scalar bank has none (R354, R360). -/
def unitPlace : TileUnit → Option (Nat × Nat)
  | .bank _ => none
  | .queue => some (0x2000, 0x2000)
  | .vfile => some (0x4000, 0x6000)
  | .feeds => some (0xA000, 0x2000)
  | .loops => some (0xC000, 0x4000)
  | .mxe => some (0x10000, 0x10000)
  | .acs n => some (0x20000 + 0x4000 * n, 0x4000)
  | .xfu => some (0x40000, 0x28000)
  | .block n => some (0x200000 + 0x1000 * n, 0x1000)

/-- Fails a strand whose save area holds uncorrectable data (R359, R371). -/
def State.failCheck (s : State) (t : Strand) (va : Nat) : State :=
  s.setStrand (t.failWith s.cycle Cause.mchk.code 0 va (failWords Cause.mchk.code 0 va))

/-- Whether the pieces of a save place still hold the image of a number (R100, R360). -/
def State.imageStands (s : State) : Nat → List (Nat × Nat) → Bool
  | _, [] => true
  | n, (k, len) :: l => Memory.read s.mem k len == freeBytes n k len && s.imageStands (n + 1) l

/-- The `k`-th free tag of a number: any of the thirty-two, reserved ones among them (R100). -/
def freeTag (n k : Nat) : Tag := BitVec.ofNat 5 (Config.freeByte n k).toNat
/-- The `k`-th free vector of a number. -/
def freeVec (n k : Nat) : Vec := BitVec.ofNat 2048 (numLE (freeBytes n (256 * (k + 1)) 256))
/-- The `k`-th free number below 2 ^ (8 * len) of a number. -/
def freeNum (n k len : Nat) : Nat := numLE (freeBytes n (256 * k) len)

/-- What restoring an image that software has written leaves in a unit: its encoding is the device's own, so every value
is free, and a tag may be a reserved one (R100, R360, notes/assumptions/32.md). -/
def Ctx.scramble (c : Ctx) (u : TileUnit) (n : Nat) : Ctx :=
  match u with
  | .queue => { c with
      queue := Vector.ofFn fun i => { vget c.queue i QEntry.start with tag := freeTag n i, bits := freeVec n i }
      flying := c.flying.map fun x => { x with tag := freeTag n (16 + x.rid), bits := freeVec n (16 + x.rid) } }
  | .vfile => { c with
      vregs := Vector.ofFn fun i => (freeTag n i, freeVec n i)
      blocks := c.blocks.map fun b => { b with tag := freeTag n (16 + b.serial)
                                               rows := (List.range b.rows.length).map fun j => freeVec n (16 + 32 * b.serial + j) } }
  | .feeds => { c with feeds := Vector.ofFn fun i =>
      let d := vget c.feeds i Feed.start
      { d with tag := freeTag n i, base := freeNum n (2 * i + 1) 3, pos := freeNum n (2 * i + 2) 3, arrived := freeNum n (2 * i + 2) 3 } }
  | .loops => { c with levels := Vector.ofFn fun i =>
      { vget c.levels i Level.idle with
        lc := BitVec.ofNat 20 (freeNum n (2 * i + 1) 3), lb := BitVec.ofNat 20 (freeNum n (2 * i + 2) 3) } }
  | .mxe => { c with mxe := { c.mxe with mp := Vector.ofFn fun i => BitVec.ofNat 64 (freeNum n i 8) } }
  | .xfu => { c with xfu := { c.xfu with plans := c.xfu.plans.map fun p => p.map fun q =>
      { q with wbase := freeNum n 1 3, pbase := freeNum n 2 3, work := freeNum n 3 3 } } }
  | _ => c

/-- Private core state restored from an image that software has written: every value is free, and a pending supply may
carry a reserved tag (R100, R347, R360, notes/assumptions/32.md). -/
def Ctx.scrambleCore (c : Ctx) (n : Nat) : Ctx :=
  { c with
    low := Vector.ofFn fun i => BitVec.ofNat 64 (freeNum n i 8)
    slk := BitVec.ofNat 16 (freeNum n 8 2)
    preds := BitVec.ofNat 8 (freeNum n 9 1)
    ports := Vector.ofFn fun i =>
      let p := vget c.ports i Port.start
      { p with supply := p.supply.map fun _ => .tagged (freeTag n (10 + i)) (freeVec n (10 + i)) } }

/-- Notes the image of an area that is saved with its strand's core record, by offset, size and number (R347, R353,
R385). -/
def Strand.noteImage (t : Strand) (o n num : Nat) : Strand :=
  { t with images := (o, n, num) :: t.images.filter (·.1 != o) }

/-- Whether an area read back still holds the image that was saved there (R360). -/
def Strand.imageHolds (t : Strand) (s : State) (o : Nat) (l : List (Nat × Nat)) : Bool :=
  (t.images.filter (·.1 == o)).all fun x => s.imageStands x.2.2 l

/-- Reads an area of a strand's context save area back, and whether it still holds its image; or fails the strand
(R359, R360, R371). -/
def State.readArea (s : State) (t : Strand) (o n : Nat) : Except State (State × Bool) :=
  match s.tileRange t.ptn .read (csaBase t.csa + o) n with
  | .error (va, why) => .error (s.failSave t .read why va)
  | .ok l =>
    if s.badPieces l then .error (s.failCheck t (csaBase t.csa + o))
    else .ok (s.tileHasRead t.ptn (csaBase t.csa + o) n l, t.imageHolds s o l)

/-- A unit's contents once its image is read back: as saved where the image stands, else free (R355, R360). -/
def State.readBack (s : State) (c : Ctx) (u : TileUnit) (l : List (Nat × Nat)) : State × Ctx :=
  if (c.away.filter (·.unit == u)).all fun a => s.imageStands a.image l then (s, c)
  else
    let s' := match u with
      | .acs n => s.undefine (Key.acs c.id (0x4000 * n.val)) 0x4000
      | .block n => s.undefine (Key.pad c.id (4096 * n.val)) 4096
      | _ => { s with fresh := s.fresh + 1 }
    (s', c.scramble u s.fresh)

/-- Restores a unit of a context from its strand's save area, or fails the strand (R355, R359). -/
def State.restoreUnit (s : State) (t : Strand) (c : Ctx) (u : TileUnit) : State :=
  match unitPlace u with
  | none => s
  | some (o, n) =>
    if !c.isAway u then s
    else match s.tileRange t.ptn .read (csaBase t.csa + o) n with
      | .error (va, why) => s.failSave t .read why va
      | .ok l =>
        if s.badPieces l then s.failCheck t (csaBase t.csa + o)
        else
          let (s, c) := (s.tileHasRead t.ptn (csaBase t.csa + o) n l).readBack c u l
          let r := s.tile t.ptn
          (s.setTile { r with owners := (u, c.id) :: r.owners.filter (·.1 != u) }).setCtx
            { c with away := c.away.filter (·.unit != u) }

/-- Whether the MXE holds a call that has not completed (R217). -/
def Mxe.incomplete (m : Mxe) : Bool := m.run.isSome || m.fin.isSome || !m.queue.isEmpty || !m.held.isEmpty
/-- Whether the XFU holds a call that has not completed (R228). -/
def Xfu.incomplete (x : Xfu) : Bool := x.run.isSome || x.fin.isSome || !x.queue.isEmpty || !x.held.isEmpty

/-- The ACS banks of a tile (R353). -/
def acsUnits : List TileUnit := (List.range 8).map fun n => .acs (Fin.ofNat 8 n)

/-- The units of a context that come back when it resumes: those of the engines that hold an incomplete call
(R217, R356). -/
def Ctx.engineUnits (c : Ctx) : List TileUnit :=
  (if c.mxe.incomplete then TileUnit.mxe :: acsUnits else []) ++ (if c.xfu.incomplete then [TileUnit.xfu] else [])

/-- A context that goes on after its engines were stopped: those that still have every unit of theirs run again, the others
first have those units handed back, a bank that went over unwritten among them (R217, R228, R355, R356, R372). -/
def Ctx.resumeEngines (c : Ctx) (r : TileRec) : Ctx :=
  let back := c.engineUnits.filter fun u => c.isAway u || !r.owners.contains (u, c.id)
  { c with
    wants := c.wants ++ (back.filter fun u => !c.wants.any (·.2 == u)).map fun u => (c.icyc, u)
    mxe := { c.mxe with stop := back.any (fun u => u != .xfu) }
    xfu := { c.xfu with stop := back.contains .xfu } }

/-- Whether the private core state can be read, to be saved (R347, R371). -/
def Ctx.coreSound (c : Ctx) : Bool := (List.range 8).all fun n => c.sound (.low n)

/-- Whether what a unit holds of a context can be read, to be saved (R359, R371). -/
def Ctx.unitSound (c : Ctx) : TileUnit → Bool
  | .queue => (List.range 16).all fun n => c.sound (.queue n)
  | .vfile => (List.range 16).all fun n => c.sound (.vreg n)
  | .mxe => c.mxe.store.bad.isEmpty && (c.mxe.queue.all fun x => c.sound (.call x.serial))
  | .xfu => c.xfu.queue.all fun x => c.sound (.call x.serial)
  | _ => true

/-- Enters the handler once the private core state has been saved at offset 0x1000 of the context save area; an area
that cannot be written fails the task, and so does state that cannot be read (R347, R359, R371). -/
def Frame.saveAndEnter (f : Frame) (ws : Vector Word 8) : State :=
  if !f.c.coreSound then
    ({ f with s := { f.s with turn := f.s.turn.filter (· != f.t.sid) } } : Frame).put.failCheck f.t (csaBase f.t.csa + 0x1000)
  else match f.s.saveImage f.t.ptn (csaBase f.t.csa + 0x1000) 0x1000 with
  | .ok s => ({ f with s := s, t := f.t.noteImage 0x1000 0x1000 f.s.fresh } : Frame).enterHandler ws
  | .error (va, why) =>
    ({ f with s := { f.s with turn := f.s.turn.filter (· != f.t.sid) } } : Frame).put.failSave f.t .write why va

/-! ### Byte counters at the end of a group (R248 to R251) -/

/-- BAL of the counter at a key (R248). -/
def State.counterBal (s : State) (k : Nat) : Word := BitVec.ofNat 64 (Memory.num s.mem k 8)
/-- PEND of the counter at a key (R248). -/
def State.counterPend (s : State) (k : Nat) : Nat := Memory.num s.mem (k + 8) 8 % 65536
/-- Writes a counter's record whole (R248). -/
def State.setCounter (s : State) (k : Nat) (bal : Word) (pend : Nat) : State :=
  s.write k (wordBytes bal ++ bytesLE 8 (pend % 65536))

/-- Disarms a counter; during speculation a mismatch arms it again (R251, R380). -/
def Frame.disarm (f : Frame) (k : Nat) : Frame :=
  { f with
    s := f.s.release (.counter k)
    c := { f.c with wants := f.c.wants ++ (f.s.freed (.counter k) f.c).map fun u => (f.c.icyc, u) }
    t := { f.t with
      armed := f.t.armed.erase k
      spec := f.t.spec.map fun p => { p with disarmed := p.disarmed ++ [(k, 0)] } } }

/-- A counter change as the group's cycle ends (R249 to R251). PEND is sixteen bits wide: two ARRIVE.EXP of one group may
take it below zero, which wraps (notes/assumptions/73.md). -/
def Frame.endCounter (f : Frame) : CounterEnd → Frame
  | .init k bal pend =>
    let s := f.s.setCounter k bal pend
    if f.t.armed.contains k then { f with s := s }
    else { f with
      s := { s with claims := s.claims ++ [⟨f.c.id, .counter k, [(k - Key.pad f.c.id 0) / 4096], true, f.c.nextRid⟩] }
      t := { f.t with armed := f.t.armed ++ [k] } }
  | .add k d pend =>
    { f with s := f.s.setCounter k (f.s.counterBal k + d) (if pend then f.s.counterPend k + 65535 else f.s.counterPend k) }
  | .disarm k => f.disarm k

/-- The counter changes of a group, in slot order, take effect at the end of its cycle, after the cycle's arrivals
(R250). -/
def Frame.endCounters (f : Frame) : Frame :=
  { f with
    s := { f.s with late := f.s.late ++ f.c.seq.ends.map (.counter f.c.id) }
    c := { f.c with seq := { f.c.seq with ends := [] } } }

/-- Takes a trap with its save registers (R345, R346, R351), the claims of the slots before it standing (R75, R198): during
speculation it is held, with the registers as it was raised, unless one is held already; a vectored one enters the handler;
one that is not vectored, meets TVEC 0, or is raised in a handler fails the task. -/
def takeWords (f : Frame) (r : TrapRec) (ws : Vector Word 8) : State :=
  let f := f.endCounters
  let s : State := { f.s with
    turn := f.s.turn.filter (· != f.t.sid) }.standClaims f.c.id f.c.nextRid
  let f := { f with s := s, t := { f.t with req := .none } }
  match f.t.spec with
  | some p =>
    ({ f with t := { f.t with spec := some { p with trap := p.trap.or (some (r, ws)) }, waits := some .agreement } } : Frame).put
  | none =>
    if isVectored r.cause ∧ fld f.t.tvec 5 52 ≠ 0 ∧ f.t.saved.isNone then f.saveAndEnter ws
    else ({ f with t := f.t.failTrap f.s.cycle r.cause r.sub r.addr ws.toList } : Frame).put

/-- Takes a trap: its save registers are written from what the strand stands at (R348). -/
def takeTrap (f : Frame) (r : TrapRec) (pre : Bool) : State := takeWords f r (tsaveWords r f.c pre)

/-! ### Fetch (R50, R139) -/

/-- Why a block cannot be fetched: its address is refused, or its bytes are uncorrectable (R50, R371). -/
inductive FetchFault
  | refused (va why : Nat)
  | corrupt (va : Nat)
deriving DecidableEq, Repr

/-- The block that the loop buffer of an active level holds for an address (R139). -/
def Ctx.buffered (c : Ctx) (va : Nat) : Option Block :=
  (c.levels.toList.filter (·.active)).findSome? fun l => (l.code.find? (·.1 == va)).map (·.2)

/-- The block at an address: from the loop buffer of an active level that holds it, else from memory, which a
leaf with X = 1 must map (R139, R362). -/
def Frame.fetchBlock (f : Frame) (va : Nat) : Except FetchFault Block :=
  match f.c.buffered va with
  | some b => .ok b
  | none => match f.s.locateFor [.cluster (clusterOf f.t.ptn)] .fetch va with
    | .error why => .error (.refused va why)
    | .ok k => if f.s.bad k 32 then .error (.corrupt va) else .ok (BitVec.ofNat 256 (Memory.num f.s.mem k 32))

/-- What fetching a block from memory leaves: its translation is cached, and its die has seen the stamp (R282, R363). -/
def Frame.hasFetched (f : Frame) (va : Nat) : Frame :=
  match f.c.buffered va, f.s.locateFor [.cluster (clusterOf f.t.ptn)] .fetch va with
  | none, .ok k => { f with s := f.s.tileHasRead f.t.ptn va 32 [(k, 32)] }
  | _, _ => f

/-- The literal blocks that follow a bundle (R48). -/
def Frame.fetchLiterals (f : Frame) (pc : Nat) : Nat → Except FetchFault (List Block)
  | 0 => .ok []
  | n + 1 => match f.fetchLiterals pc n, f.fetchBlock ((pc + 32 * (n + 1)) % 2 ^ 64) with
    | .ok l, .ok b => .ok (l ++ [b])
    | .error e, _ => .error e
    | _, .error e => .error e

/-- Keeps a bundle's blocks in the loop buffer of every active level whose body holds it (R139). -/
def Ctx.bufferBlocks (c : Ctx) (pc : Nat) (bs : List (Nat × Block)) : Ctx :=
  { c with levels := c.levels.map fun l =>
      if l.active && l.start ≤ pc && pc ≤ l.fin && !(l.code.any (·.1 == pc)) then { l with code := l.code ++ bs } else l }

/-! ### Guards and loop levels (R58, R139 to R143) -/

/-- Whether a level is at its first iteration; one that is not active counts as one iteration (R58). -/
def Level.atFirst (l : Level) : Bool := !l.active || l.lc == 0
/-- Whether a level is at its last iteration (R58, R143). -/
def Level.atLast (l : Level) : Bool := !l.active || l.lb.toNat ≤ l.lc.toNat + 1

/-- A guard's value, fixed at the bundle's start (R58). -/
def Seq.guardHolds (q : Seq) : Guard → Bool
  | .always => true
  | .leaf1 => q.leaf == 1 | .leaf2 => q.leaf == 2 | .leaf3 => q.leaf == 3 | .leaf4 => q.leaf == 4
  | .leaf5 => q.leaf == 5
  | .first => q.first
  | .last => q.last

/-- Ends the levels from `lv` up. -/
def Ctx.endLevelsFrom (c : Ctx) (lv : Nat) : Ctx :=
  { c with levels := c.levels.mapFinIdx fun i l _ => if lv ≤ i then { l with active := false, code := [] } else l }

/-- A transfer whose target lies outside an active level's body ends that level and every level above (R141). -/
def Ctx.leaveBodies (c : Ctx) (target : Nat) : Ctx :=
  match (c.levels.toList.zipIdx).find? fun p => p.1.active && !(p.1.start ≤ target && target ≤ p.1.fin) with
  | none => c
  | some p => c.endLevelsFrom p.2

/-- RET ends every level opened at a depth above the depth returned to (R141). -/
def Ctx.leaveDepth (c : Ctx) (d : Nat) : Ctx :=
  { c with levels := c.levels.map fun l => if l.active && d < l.depth then { l with active := false, code := [] } else l }

/-- LOOPX's exit test over the predicates after the body's last group (R142). -/
def Level.exits (l : Level) (p : BitVec 8) : Bool :=
  match l.exit with
  | none => false
  | some (n, neg) => bit p n != neg

/-- The end of a body, highest active level first: it wraps to its start, or ends and lets the level below with
the same last bundle be checked (R140). -/
def Ctx.bodyEnd (pc next : Nat) : Nat → Ctx → Ctx × Nat
  | 0, c => (c, next)
  | lv + 1, c =>
    let l := vget c.levels lv Level.idle
    if !l.active then Ctx.bodyEnd pc next lv c
    else if l.fin ≠ pc then (c, next)
    else if l.lc.toNat + 1 < l.lb.toNat ∧ !l.exits c.preds then
      ({ c with levels := vset c.levels lv { l with lc := l.lc + 1 } }, l.start)
    else Ctx.bodyEnd pc next lv { c with levels := vset c.levels lv { l with active := false, code := [] } }

/-! ### Squashing (R74, R104) -/

/-- The LFSR after CVTSRs are killed: back to its value before the earliest, but only if every CVTSR since is
killed too and nothing wrote it (R104). -/
def Ctx.lfsrAfterKill (c : Ctx) (killed : List Flying) : Word :=
  match killed.filterMap (·.lfsr) with
  | [] => c.fpst
  | (l, n, w) :: rest => if n + 1 + rest.length = c.cvtsrs ∧ w = c.writes then fpstSetLfsr c.fpst l else c.fpst

/-- A byte that another operation in flight has overwritten is that operation's to put back (R74). -/
def Flying.inherit (x : Flying) (u : Nat × Byte × Byte) : Flying :=
  { x with undo := x.undo.map fun w => if w.1 = u.1 ∧ w.2.1 = u.2.2 then (w.1, u.2.1, w.2.2) else w }

/-- Puts back a byte that a killed atomic wrote. Where a later atomic that can still be killed has written over it, that one
puts back what stood before both; where something else has stored over it since, it stays (R74). -/
def State.undoByte (s : State) (u : Nat × Byte × Byte) : State :=
  if Memory.get s.mem u.1 = u.2.2 then s.write u.1 [u.2.1]
  else { s with ctxs := s.ctxs.map fun c => if c.flying.all (·.undo.isEmpty) then c else
    { c with flying := c.flying.map (·.inherit u) } }

/-- Puts back the bytes that a killed atomic wrote (R74). -/
def State.undoAtomic (s : State) (x : Flying) : State := x.undo.foldl State.undoByte s

/-- A killed operation in a unit's elastic buffer: its element is still popped, and it has no effect and raises no
fault (R74, R148). -/
def Held.killed (x : Held) : Held := { x with rid := 0, op := none, args := [], fault := none, foot := some [], writes := false }

/-- The operations that a transfer kills: those with K = 1 in flight, among them those that push at the end of the transferring
bundle's last group, and those that its leaf guards let issue (R74, R93, notes/assumptions/62.md). -/
def Ctx.doomed (c : Ctx) : List Flying := c.flying.filter fun x => x.kill && (x.leafed || decide (c.icyc ≤ x.due + 1))

/-- Whether an access on its way to the window is a store or an atomic (R156). -/
def WinOp.stores : WinOp → Bool
  | .store _ | .atomic _ _ _ _ => true
  | _ => false

/-- The number of the operation that a window access answers; none for a store. -/
def WinOp.answers : WinOp → Option Nat
  | .load _ r _ => some r
  | .atomic _ _ _ r => some r
  | .vload r _ _ => some r
  | .store _ => none

/-- Whether a window access is that of an operation of a context that a test picks. -/
def WinAcc.isOf (a : WinAcc) (ctx : Nat) (p : Nat → Bool) : Bool := a.ctx == ctx && a.op.answers.any p

/-- Whether an operation was in flight when the strand began to speculate. -/
def Strand.atCheck (t : Strand) (rid : Nat) : Bool := t.spec.any fun p => p.check.flying.any (·.rid == rid)

/-- What killing operations does to a speculation: those that its checkpoint holds are dead if the answer confirms it, and
their window atomics that have not reached their bank wait for the answer, for no other party may see them before
(R74, R382, R383). -/
def Spec.kill (p : Spec) (win : List WinAcc) (cycle : Nat) (rids : List Nat) : Spec :=
  { p with
    dead := p.dead ++ rids
    suspended := p.suspended ++ (win.filter fun a => a.op.stores).map fun a => { a with due := a.due - cycle } }

/-- Kills every squashable operation in flight, and the window accesses of the killed ones that have not reached their bank
(R74, R93). The latest atomic is put back first. Under speculation those that issued before the CBR may come back: their
loads go on, and what their window atomics have written is put back only when the answer confirms it (R380, R382, R383). -/
def Frame.squash (f : Frame) : Frame :=
  let dead := f.c.doomed
  let gone (rid : Nat) := dead.any (·.rid == rid)
  let old := f.t.atCheck
  let s := dead.foldr (fun x s => s.undoAtomic (if old x.rid then { x with undo := x.undo.filter fun u => 2 ^ 41 ≤ u.1 } else x)) f.s
  let mine (a : WinAcc) := a.isOf f.c.id gone
  let back := s.win.filter fun a => mine a && a.isOf f.c.id old
  let s := { s with win := s.win.filter fun a => !mine a || (a.isOf f.c.id old && !a.op.stores) }
  let t := { f.t with spec := f.t.spec.map (·.kill back f.s.cycle ((dead.map (·.rid)).filter old)) }
  { s := s, t := t, c := { f.c with
      flying := f.c.flying.filter (fun x => !gone x.rid)
      held := f.c.held.map (fun x => if gone x.rid then x.killed else x)
      fpst := ({ f.c with fpst := f.c.unflushed.getD f.c.fpst } : Ctx).lfsrAfterKill dead } }

/-! ### The end of a group and of a bundle (R73, R76, R147, R188) -/

/-- The passes that a group's scratchpad chunks need, by the fullest bank (R188). -/
def passes (chunks : List Nat) : Nat :=
  let d := chunks.eraseDups
  (List.range 64).foldl (fun m b => max m (d.filter fun a => a / 16 % 64 == b).length) 0

/-- Whether an operand's value is not known yet: a column of an open block, or an element still to be stored. -/
def HeldArg.waits : HeldArg → Bool
  | .val _ => false
  | .column _ _ => true
  | .element _ _ => true

/-- Whether the elements, columns and claimable units that a held operation waits for are there (R147, R355), and no
older access stands before it (R162). -/
def Ctx.elementsHere (c : Ctx) (x : Held) : Bool :=
  (x.feeds.all fun p => p.2 < (vget c.feeds p.1 Feed.start).arrived)
    && (x.cols.all fun p => c.columnHere p.1 p.2)
    && (x.units.all fun u => !c.wants.any (·.2 == u))
    && (x.args.all fun a => !a.waits)
    && !(x.pending && (match x.foot with
      | some l => c.blocked x.rid l x.writes
      | none => c.held.any fun y => y.rid < x.rid && y.pending))

/-- Whether the strand holds an operation that waits, a call, a tag command or a posting back (R147, R196, R232, R254). -/
def Frame.holding (f : Frame) : Bool :=
  f.c.held.any (fun x => x.till.isNone && !f.c.elementsHere x) || !f.c.mxe.held.isEmpty || !f.c.xfu.held.isEmpty
    || f.s.cmds.any (fun k => k.ctx == f.c.id && !k.accepted)
    || f.s.posts.any (fun p => p.ctx == f.c.id && !p.handed)

/-- What a write of FPST leaves of the flags that an earlier operation with K = 1 under a leaf guard clears once it pushes:
those that the write does not name (R93, R174). -/
def Flying.afterWrite (x : Flying) (mask : Word) : Flying := { x with clear := x.clear &&& ~~~mask }

/-- The writes of FPST that a group has asked for take effect, in slot order, and those of counters at the end of its cycle
(R104, R174, R249 to R251). -/
def Frame.endWrites (f : Frame) : Frame :=
  let f := f.endCounters
  let q := f.c.seq
  { f with c := { f.c with
    fpst := fpstCommit f.c.fpst q.fpst
    unflushed := if q.lasting = q.fpst then none else some (fpstCommit f.c.fpst q.lasting)
    writes := f.c.writes + (q.fpst.filter fun p => fpstLfsr p.1 ≠ 0).length
    flying := q.fpst.foldl (fun l p => l.map (·.afterWrite p.1)) f.c.flying
    seq := { q with fpst := [], lasting := [] } } }

/-- The end of a group's cycle: its claims stand, the next group sees what it wrote, SLK runs while an operation
is held, and bank passes beyond the first are owed as stall cycles (R76, R147, R188, R198). -/
def Frame.endGroup (f : Frame) : Frame :=
  let f := f.endWrites
  let q := f.c.seq
  let c := { f.c with
    icyc := f.c.icyc + 1
    slk := if f.holding then f.c.slk - (if f.c.slk = 0 then 0 else 1) else f.c.slk
    seq := { q with
      group := q.group + 1, pops := [], fpsets := false, chunks := [], portw := [], fresh := true, resumed := false, skip := none } }
  let s := { f.s with
    turn := f.s.turn.filter (· != f.t.sid) }.standClaims f.c.id f.c.nextRid
  ⟨s, { f.t with idle := f.t.idle + (passes q.chunks - 1) }, c⟩

/-- Moves to a bundle boundary with the next bundle's address; `reached` is the bundle that led there (R348). -/
def Ctx.goto (c : Ctx) (next : Nat) : Ctx :=
  { c with pc := next, seq := { Seq.start with reached := c.pc } }

/-- The window at the new depth after a call: the return address goes to s15, the caller's s31, and s16 to s31
of the new window are undefined (R136). -/
def Ctx.callWindow (c : Ctx) (ret fresh : Nat) : Ctx :=
  let c := { c with depth := c.depth + 1 }
  let c := (List.range 16).foldl (fun c n => c.writeS (16 + n) (Config.freeWord (fresh + n))) c
  c.writeS 15 (BitVec.ofNat 64 ret)

/-- After a bundle's last group: its transfer, leaf or loop end, and the squash of a transfer (R55, R70, R76,
R134, R136, R139 to R141, R378). -/
def Frame.endBundle (f : Frame) : Frame :=
  let q := f.c.seq
  let pc := f.c.pc
  let next := nextInSequence pc q.block
  let fall (f : Frame) : Frame :=
    let r := Ctx.bodyEnd pc next 6 f.c
    { f with c := r.1.goto r.2 }
  let jump (f : Frame) (t : Nat) : Frame := ({ f with c := (f.c.leaveBodies t).goto t } : Frame).squash
  if q.leaf ≠ 5 ∧ q.goto.isNone then jump f (leafTarget pc q.block q.leaf)
  else match q.goto with
    | none => fall f
    | some (.jump t) => jump f t
    | some (.skip t) => jump f t
    | some (.call t) =>
      ({ f with s := { f.s with fresh := f.s.fresh + 16 }, c := (f.c.callWindow next f.s.fresh).goto t } : Frame).squash
    | some (.ret t) =>
      let c := { f.c with depth := f.c.depth - 1 }
      ({ f with c := (c.leaveDepth c.depth).goto t } : Frame).squash
    | some (.cbr pred t) =>
      let check := { f.c with seq := { q with slot := 7, group := q.group - 1, goto := none } }
      let f := { f with t := { f.t with spec := f.t.spec.map fun p => { p with check := check } } }
      if pred then jump f t else fall f

/-- Ends the turn of a held operation: the sequencer and the next operation's number are as they were. -/
def Frame.endAgain (f : Frame) (r : Again) : Frame :=
  { f with
    s := { f.s with turn := f.s.turn.drop 1 }
    c := { f.c with seq := r.seq, nextRid := r.nextRid, again := none } }

/-- Moves past a slot: S or slot 7 ends the group, slot 7 the bundle (R68, R76). A held operation whose turn has come
moves past nothing; what it asks for at a group's end takes effect at once. -/
def Frame.advance (f : Frame) (stop : Bool) : State :=
  let i := f.c.seq.slot
  match f.c.again with
  | some r => (f.endWrites.endAgain r).put
  | none =>
  if 7 ≤ i then f.endGroup.endBundle.put
  else
    let f := if stop then f.endGroup else f
    ({ f with c := { f.c with seq := { f.c.seq with slot := i + 1 } } } : Frame).put

/-! ### The frame of a slot meaning -/

/-- The state at a group's start, taken when its first slot issues (R68). -/
def Frame.snapshot (f : Frame) : Snap :=
  ⟨f.c, f.t.tags, f.t.tagbz, f.t.stats, f.t.k2, f.t.k3, f.s.ownedBlocks f.c.id, [], f.t.pendingStores, f.t.cbank, f.t.cbxTill,
   f.t.cbx, f.s.cycle, f.t.chans⟩

/-- Begins a slot: a fresh group takes its snapshot, and nothing is noted yet of what the slot waits for and reaches. -/
def Frame.begin (f : Frame) : Frame :=
  let t := { f.t with waits := none, snap := if f.c.seq.fresh then f.snapshot else f.t.snap }
  { f with t := t, c := { f.c with seq := { f.c.seq with
      fresh := false, resumed := false, late := [], foot := [], place := none } } }

/-- Whether a guard makes its slot touch the loop sequencer (R353). -/
def guardLoops : Guard → Bool
  | .first | .last => true
  | _ => false

/-- The entries of the result queue that are uncorrectable, one result later (R369). -/
def pushBad (l : List Sram) : List Sram :=
  l.filterMap fun x => match x with
    | .queue n => if n < 15 then some (.queue (n + 1)) else none
    | y => some y

/-- Flags reach FPST; a held FPSET that comes before them does not clear them once it acts (R104, R174). -/
def Ctx.raise (c : Ctx) (flags : BitVec 6) : Ctx :=
  { c with
    fpst := fpstOr c.fpst flags
    held := c.held.map fun x => if x.isFpset then { x with flags := x.flags ||| flags } else x }

/-- Fills the reserved entry of a held operation, or its place in flight, and its flags reach FPST (R148), however old
its entry is; a killed one, number 0, sets no flag (R104). -/
def Ctx.fill (c : Ctx) (rid : Nat) (p : Push) : Ctx :=
  if c.flying.any (·.rid == rid) then
    { c with flying := updateIf c.flying (·.rid == rid) fun x =>
        { x with tag := p.tag, bits := p.bits, flags := p.flags, ready := true } }
  else if rid = 0 then c
  else
    let mine (n : Nat) : Bool := let e := vget c.queue n QEntry.start; e.rid == rid && !e.filled
    ({ c.raise p.flags with queue := c.queue.map fun e => if e.rid = rid ∧ !e.filled then ⟨p.tag, p.bits, true, rid⟩ else e } : Ctx).mend
      (((List.range 16).filter mine).map .queue)

/-- The block at a context's program counter: that of the open bundle, else of the next one, or zero where it cannot be
fetched (R348, R352). -/
def Frame.blockHere (f : Frame) : Block :=
  if f.c.seq.issuing then f.c.seq.block else match f.fetchBlock f.c.pc with | .ok b => b | .error _ => 0

/-- The frame with the block at its program counter in view. -/
def Frame.atBlock (f : Frame) : Frame := { f with c := { f.c with seq := { f.c.seq with block := f.blockHere } } }

/-- The trap of a held trigger, taken when its turn comes, before the next group (R185, R187, R348). Its reserved
entry is filled with zero (R349). -/
def Frame.heldTrap (f : Frame) (x : Held) (r : TrapRec) : State :=
  let f : Frame := { f with c := Ctx.fill { f.c with held := f.c.held.erase x } x.rid ⟨14, 0, 0⟩ }
  let f := f.atBlock
  let opb := match x.args with | _ :: .val v :: _ => v.low | _ => 0
  takeTrap f { r with held := some ⟨x.pc, x.unit.code, x.word⟩, opb := opb } false

/-- The held operation of a number. -/
def Ctx.heldOf (c : Ctx) (rid : Nat) : Option Held := c.held.find? (·.rid == rid)

/-- A held operation whose turn has come acts: what stops it leaves it held, and a trap is taken as a held one's
(R147, R185). -/
def Frame.runAgain (f : Frame) (r : Again) (body : Frame → Except Stop State) : State :=
  match body f with
  | .ok t => t
  | .error (.trap e) | .error (.spill e _ _) => match f.c.heldOf r.rid with
    | some x => (f.endAgain r).heldTrap x e
    | none => (f.endAgain r).put
  | .error _ => (f.endAgain r).put

/-- What stops a slot leaves it to be tried again, traps, or asks for a claimable unit (R58, R76, R355). -/
def Frame.stopAt (f : Frame) : Stop → State
  | .stall w g => ({ g with s := { g.s with turn := g.s.turn.filter (· != g.t.sid) }, t := { g.t with waits := some w } } : Frame).put
  | .trap r => takeTrap f r false
  | .spill r why va => takeTrap { f with s := f.s.informStrand f.t 5 .write why va } r false
  | .claim u => ({ f with t := { f.t with req := .open (.claim u) } } : Frame).put
  | .behind g => ({ g with s := { g.s with turn := g.s.turn.filter (· != g.t.sid) }, t := { g.t with waits := some .element } } : Frame).put

/-- Runs a slot whose body gives the next state itself: with a false guard, or skipped by TRET, it has no effect;
otherwise its body acts, or something stops it (R58, R76, R349). -/
def runSlotTo (h : Slot) (body : Frame → Except Stop State) (s : State) : Host.Outcome State Fault Refusal :=
  match s.frame with
  | none => .fault .noStrand
  | some f0 => match f0.c.again with
    | some r => .next (f0.runAgain r body)
    | none =>
      let f := f0.begin
      if f.c.seq.skip = some f.c.seq.slot ∨ !f.c.seq.guardHolds h.guard then .next (f.advance h.stop)
      else match f.touchAll (if guardLoops h.guard then [.loops] else []) >>= body with
        | .ok t => .next t
        | .error e => .next (f.stopAt e)

/-- Runs a slot and moves past it (R68, R76). -/
def runSlot (h : Slot) (body : Frame → Except Stop Frame) (s : State) : Host.Outcome State Fault Refusal :=
  runSlotTo h (fun f => (body f).map fun g => g.advance h.stop) s

/-! ### BUNDLE_ISSUE (R50, R67, R76) -/

/-- Stops a bundle before any of it issues (R67, R75). -/
def Frame.refuseBundle (f : Frame) (c : Cause) (sub addr : Nat) (b : Block) : State :=
  takeTrap { f with c := { f.c with seq := { f.c.seq with block := b, issuing := false } } } ⟨c.code, sub, addr, 0, 0, none⟩ true

/-- Fetches the bundle at the program counter, checks it, and evaluates its tree and guards (R50 to R58, R67). -/
def Frame.openBundle (f : Frame) : State :=
  let pc := f.c.pc
  let from_ := f.c.seq.reached
  let refuse (f : Frame) (e : FetchFault) (b : Block) : State := match e with
    | .refused va why => { f with s := f.s.informStrand f.t 4 .fetch why va }.refuseBundle .badtgt 1 from_ b
    | .corrupt _ => f.refuseBundle .mchk 0 0 b
  match f.fetchBlock pc with
  | .error e => refuse f e 0
  | .ok b =>
    let f := f.hasFetched pc
    if !bit b 255 then f.refuseBundle .badtgt 0 from_ b
    else match f.fetchLiterals pc (hdrLb b) with
      | .error e => refuse f e b
      | .ok ls =>
        let f := (rangeFrom 1 ls.length).foldl (fun f i => f.hasFetched ((pc + 32 * i) % 2 ^ 64)) f
        if illegalEncoding b ls then f.refuseBundle .illenc 0 0 b
        else if illegalDependence b ls then f.refuseBundle .illdep 0 0 b
        else
          let l := vget f.c.levels (hdrGl b) Level.idle
          let c := f.c.bufferBlocks pc ((pc, b) :: ls.zipIdx.map fun p => ((pc + 32 * (p.2 + 1)) % 2 ^ 64, p.1))
          let q : Seq := { Seq.start with
            issuing := true
            block := b
            lits := literalsOf ls
            leaf := treeLeaf b f.c.preds
            first := l.atFirst
            last := l.atLast
            reached := from_ }
          let spec := f.t.spec.map fun p => { p with bundles := p.bundles + 1 }
          ({ f with t := { f.t with waits := none, spec := spec }, c := { c with seq := q } } : Frame).put

/-- BUNDLE_ISSUE (R76): opens the next bundle of the strand whose turn it is; the 257th bundle of a speculation waits
(R382). -/
def execBundleIssue (s : State) : Host.Outcome State Fault Refusal :=
  match s.frame with
  | none => .fault .noStrand
  | some f =>
    if (f.t.spec.map (·.bundles)).getD 0 ≥ 256 then
      .next ({ f with s := { f.s with turn := f.s.turn.filter (· != f.t.sid) }, t := { f.t with waits := some .agreement } } : Frame).put
    else .next f.openBundle

end Sys2Proof.Machine
end

