-- ==== Sys2Proof/Machine/Trigger.lean ====
section
/-! DEFINITION. How a trigger gathers its operands, is held for a late element, and settles its result; and how
a move fetches its value (R59, R71, R73, R102, R120, R147, R148, R185, R187). -/

namespace Sys2Proof.Machine

/-- The operands delivered to a trigger. -/
structure Args where
  a : HeldArg
  b : HeldArg
  c : HeldArg
  d : HeldArg
deriving DecidableEq, Repr

/-- What becomes of a trigger whose operand is a column of an open block, or whose access stands behind an older one
(R147, R162, R187): a computation takes its value later; an operation that acts on the machine acts later; an access of
memory has been checked when it issued if what is missing are only data (of B, C or D as marked); and an operation that the
stream cannot go on without, such as a transfer of control, waits at its slot while SLK runs. -/
inductive Late
  | value
  | act
  | access (writes b c d : Bool)
  | never
deriving DecidableEq, Repr

/-- What a trigger names: its unit, operand A's source, the ports it uses, the claimable units it touches, the check of
the kinds of A, B and C, the latency of what it pushes with the tag of a result still to come, and what becomes of
it when an operand's value is not known. -/
structure Trig where
  u     : UnitName
  a     : Option Src
  b     : Bool
  c     : Bool
  d     : Bool
  units : List TileUnit
  kinds : Frame → Kind → Kind → Kind → Bool
  lat   : Option Nat
  tag   : Args → Tag
  late  : Late

/-- What an operation leaves: a result with its latency, what it still has to do when its operands are known, the LFSR
before a CVTSR, the bytes that an atomic has written, and the flags of FPST that it clears and the counter that it disarms
only as it pushes (R74). -/
structure Effect where
  push : Option (Nat × Push)
  op   : Option HeldOp
  lfsr : Option (BitVec 32 × Nat × Nat)
  undo : List (Nat × Byte × Byte)
  clear : Word
  disarm : Option Nat
deriving DecidableEq, Repr

/-- An operation that pushes nothing. -/
def Effect.quiet : Effect := ⟨none, none, none, [], 0, none⟩
/-- An operation that pushes a result. -/
def Effect.result (lat : Nat) (p : Push) : Effect := ⟨some (lat, p), none, none, [], 0, none⟩

/-- The claimable units that a trigger touches (R353). -/
def Frame.trigUnits (f : Frame) (g : Trig) : List TileUnit :=
  let port (used : Bool) (p : OpPort) : List TileUnit :=
    if used then (match f.portStream g.u p with | some x => f.sourceUnits x | none => []) else []
  g.units ++ (match g.a with | some x => f.sourceUnits x.src | none => []) ++ port g.b .b ++ port g.c .c ++ port g.d .d

/-- The kind of operand A. -/
def Frame.argKind (f : Frame) (a : Option Src) : Except Stop Kind :=
  match a with
  | none => .ok .untyped
  | some x => f.kind x.src

/-- The kind of a port, untyped where the operation does not use it. -/
def Frame.usedKind (f : Frame) (u : UnitName) (p : OpPort) (used : Bool) : Except Stop Kind :=
  if used then f.portKind u p else .ok .untyped

/-- Whether operand A can be read: an unfilled entry and a reloading constant bank stall (R64, R148). -/
def Frame.argReady (f : Frame) (a : Option Src) : Except Stop Unit :=
  match a with
  | none => .ok ()
  | some x => if sourceStream x.src then .ok () else (f.readValue x.src).map fun _ => ()

/-- Delivers operand A. -/
def Fetch.arg (k : Fetch) (a : Option Src) : Except Stop (HeldArg × Fetch) :=
  match a with
  | none => .ok (.val (.untyped 0), k)
  | some x => k.source x.src (!modePeeks x.mode) false

/-- Gathers the operands of a trigger: kinds, units, then delivery, A first (R71, R102, R355). -/
def Frame.gather (f : Frame) (g : Trig) : Except Stop (Args × Fetch) := do
  let ka ← f.argKind g.a
  let kb ← f.usedKind g.u .b g.b
  let kc ← f.usedKind g.u .c g.c
  let _ ← f.usedKind g.u .d g.d
  let _ ← need (g.kinds f ka kb kc) (trapOf .illfmt)
  let f ← f.reachAll (f.trigUnits g)
  let _ ← f.argReady g.a
  let (a, k) ← (⟨f, [], [], none⟩ : Fetch).arg g.a
  let (b, k) ← k.portValue g.u .b g.b
  let (c, k) ← k.portValue g.u .c g.c
  let (d, k) ← k.portValue g.u .d g.d
  return (⟨a, b, c, d⟩, k)

/-- Whether any operand's value is not known yet. -/
def Args.wait (x : Args) : Bool := x.a.waits || x.b.waits || x.c.waits || x.d.waits

/-- Whether a late column's block is still open (R187). -/
def Frame.openColumn (f : Frame) (k : Fetch) : Bool :=
  k.cols.any fun p => f.c.blocks.any fun b => b.serial == p.1 && !b.closed

/-- Whether a trigger is held (R147, R187): not when its elements are present, with nothing still to be stored there, and its
unit holds nothing; with SLK at 0 a late element stalls, and one that nothing can supply traps. -/
def Frame.timing (f : Frame) (g : Trig) (k : Fetch) (x : Args) : Except Stop Bool :=
  let mine := f.c.holdsOf g.u
  let late := !k.feeds.isEmpty || !k.cols.isEmpty || x.wait
  if !late && mine == 0 then .ok false
  else if late && f.slack == 0 then
    .error (if f.openColumn k then trapOf .illenc else .stall .element f)
  else if 4 ≤ f.buffered g.u then .error (.stall .buffer f)
  else .ok true

/-- The low 64 bits of an operand as the trap save registers record it (R348). -/
def HeldArg.low : HeldArg → Word
  | .val v => v.low
  | _ => 0

/-- The delivered value of an operand; one still to come reads as zero here and is taken later. -/
def HeldArg.value : HeldArg → Val
  | .val v => v
  | _ => .untyped 0

/-- Nothing delivered. -/
def Args.none : Args := ⟨.val (.untyped 0), .val (.untyped 0), .val (.untyped 0), .val (.untyped 0)⟩

/-- What an operand port would deliver, nothing popped. -/
def Frame.peekPort (f : Frame) (u : UnitName) (p : OpPort) (used : Bool) : HeldArg :=
  match (⟨f, [], [], none⟩ : Fetch).portValue u p used with
  | .ok (x, _) => x
  | .error _ => .val (.untyped 0)

/-- What A and B would deliver to a trigger that traps before it has its operands; what cannot be read is zero
(R102, R348, notes/assumptions/64.md). -/
def Frame.peekArgs (f : Frame) (g : Trig) : Args :=
  ⟨match (⟨f, [], [], none⟩ : Fetch).arg g.a with | .ok (x, _) => x | .error _ => .val (.untyped 0),
   f.peekPort g.u .b g.b, .val (.untyped 0), .val (.untyped 0)⟩

/-- A stop with its slot's own frame: what was fetched is put back, what the slot has asked for stays, in another module
too, with the slack that has run (R147), and a trap records A and B (R38, R348, R377). -/
def Stop.within (e : Stop) (f : Frame) (x : Args) : Stop :=
  match e with
  | .stall w g => .stall w { f with
      s := { f.s with outbox := g.s.outbox, departing := g.s.departing }
      t := { f.t with req := g.t.req }
      c := { f.c with slk := g.c.slk } }
  | .trap r => .trap { r with opa := x.a.low, opb := x.b.low }
  | .spill r why va => .spill { r with opa := x.a.low, opb := x.b.low } why va
  | .claim u => .claim u
  | .behind _ => .stall .element f

/-- A new entry of a unit's elastic buffer (R147). -/
def Frame.entry (f : Frame) (g : Trig) (k : Fetch) (x : Args) (e : Effect) : Held :=
  let p := (e.push.map (·.2)).getD ⟨14, 0, 0⟩
  let was := f.t.snap.ctx.fpst
  { unit := g.u, rid := f.c.nextRid, feeds := k.feeds, cols := k.cols, units := f.c.seq.late, op := e.op,
    args := [x.a, x.b, x.c, x.d], rm := fpstRm was, lfsr := (match e.lfsr with | some l => l.1 | none => fpstLfsr was),
    tag := p.tag, bits := p.bits, flags := p.flags, fault := k.fault, pc := f.c.pc, lat := (e.push.map (·.1)).getD 1,
    till := none, foot := some ([x.a, x.b, x.c, x.d].map fun y => match y with
      | .element _ keys => keys.map fun a => (a, 16)
      | _ => []).flatten, writes := false, word := slotWord f.c.seq.block f.c.seq.slot }

/-- Whether a slot issues only when its bundle transfers, which kills its operation: K = 1 under a guard of leaves 1 to 4. Its
result is not pushed before the bundle's end (R74, R93, notes/assumptions/62.md). -/
def slotLeafed (h : Slot) : Bool :=
  h.kill && (h.guard == .leaf1 || h.guard == .leaf2 || h.guard == .leaf3 || h.guard == .leaf4)

/-- An operation in flight: it pushes at the end of its last cycle (R73), and what a killed one must not do waits for its push
(R74). -/
def Frame.flight (f : Frame) (h : Slot) (lat : Nat) (p : Push) (ready : Bool) (e : Effect) : Flying :=
  ⟨f.c.nextRid, f.c.icyc + (lat - 1), f.c.seq.slot, h.kill, p.tag, p.bits, p.flags, ready, e.lfsr, e.undo, slotLeafed h, 0,
   e.clear, e.disarm⟩

/-- Puts an operation's result in flight, and into its unit's elastic buffer when it is held (R73, R147). -/
def Frame.settle (f : Frame) (h : Slot) (g : Trig) (k : Fetch) (x : Args) (held : Bool) (e : Effect) : Frame :=
  let rid := f.c.nextRid
  let fly : List Flying := match e.push with
    | none => []
    | some (lat, p) => [f.flight h lat p (!held) e]
  let hold : List Held := if held then [f.entry g k x e] else []
  { f with c := { f.c with nextRid := rid + 1, flying := f.c.flying ++ fly, held := f.c.held ++ hold } }

/-- An operation that is held and has not run: what it will push has a place in flight (R148). -/
def Trig.unrun (g : Trig) (x : Args) (op : Option HeldOp) : Effect :=
  ⟨g.lat.map fun l => (l, ⟨g.tag x, 0, 0⟩), op, none, [], 0, none⟩

/-- An operand as a check made before its value is known sees it: zero of its tag. -/
def Frame.guess (f : Frame) : HeldArg → HeldArg
  | .val v => .val v
  | .column s _ => .val (match f.c.blocks.find? (·.serial == s) with | some b => .tagged b.tag 0 | none => .untyped 0)
  | .element t _ => .val (.tagged t 0)

/-- Operands as a check made before their values are known sees them. -/
def Frame.guessArgs (f : Frame) (x : Args) : Args := ⟨f.guess x.a, f.guess x.b, f.guess x.c, f.guess x.d⟩

/-- Operands of an access whose place is known: a delivery to a write port is a store at the element's address, whatever
the port does since (R162, R184). -/
def Args.placed (x : Args) : Option (Nat × Nat) → Args
  | .none => x
  | .some (base, swz) =>
    { x with a := .val (.untyped (BitVec.ofNat 64 base)), c := .val (.untyped (BitVec.ofNat 64 (swz * 32))) }

/-- The stores of a strand that are held for an agreement, or that wait for their data and will be (R181, R382). -/
def Frame.heldStores (f : Frame) : Nat :=
  ((f.t.spec.map (·.stores.length)).getD 0) + (f.c.held.filter fun x => x.pending && x.writes).length

/-- Holds an operation whole until its operands are known and nothing older stands before it (R147, R162). -/
def Frame.postpone (f : Frame) (h : Slot) (g : Trig) (k : Fetch) (x : Args) (foot : Option (List (Nat × Nat))) (writes : Bool) :
    Except Stop Frame := do
  let _ ← need (f.slack != 0) (.stall .element f)
  let _ ← need (!(writes && f.t.spec.isSome && 32 ≤ f.heldStores)) (.stall .agreement f)
  let i := (slotInstr f.c.seq.block f.c.seq.slot).getD (.bundleIssue)
  let g' := f.settle h g k x true (g.unrun x (some (.again i)))
  let n := f.c.nextRid
  return { g' with c := { g'.c with held := updateIf g'.c.held (·.rid == n) fun y =>
    { y with foot := foot.map (y.foot.getD [] ++ ·), writes := writes } } }

/-- What a slot's access has noted and advanced by the time it is checked, without its effect: the units reached, the
walk of a port that a delivery goes to, the chunks (R184, R188). -/
def Frame.checked (f g : Frame) : Frame :=
  { f with
    s := { f.s with tiles := g.s.tiles }
    c := { f.c with feeds := if g.c.seq.place.isSome then g.c.feeds else f.c.feeds, seq := g.c.seq, wants := g.c.wants } }

/-- An operation that the stream cannot go on without, and whose operand is not known, waits at its slot while SLK runs;
with SLK at 0 a column that nothing can supply traps (R147, R187, notes/assumptions/17.md). -/
def Frame.cannotWait (f : Frame) (x : Args) : Stop :=
  if f.c.slk ≠ 0 then f.waitHere
  else if x.a.isColumn || x.b.isColumn || x.c.isColumn || x.d.isColumn then trapOf .illenc
  else .stall .element f

/-- Whether a unit holds an operation that has still to act on the machine: those after it wait for it (R147). -/
def Ctx.actsLater (c : Ctx) (u : UnitName) : Bool :=
  c.held.any fun x => x.unit == u && (match x.op with | some (.again _) => true | _ => false)

/-- A trigger with an operand that is not known yet, or behind one that is (R147, R162, R181, R187): what can be checked
is checked now, and the rest is held. -/
def Frame.later (f : Frame) (h : Slot) (g : Trig) (k : Fetch) (x : Args)
    (run : Frame → Args → Except Stop (Frame × Effect)) : Except Stop Frame :=
  match g.late with
  | .value | .never => .error (f.cannotWait x)
  | .act => f.postpone h g k x (some []) false
  | .access writes b c d =>
    if x.a.waits || (x.b.waits && !b) || (x.c.waits && !c) || (x.d.waits && !d) then f.postpone h g k x none writes
    else match run f (f.guessArgs x) with
      | .ok (f', _) | .error (.behind f') =>
        (f.checked f').postpone h g k (x.placed f'.c.seq.place) (some f'.c.seq.foot) writes
      | .error e => .error e

/-- Whether a trigger must act later than it issues (R147, R162). -/
def Frame.mustWait (f : Frame) (g : Trig) (x : Args) : Bool :=
  match g.late with
  | .value => false
  | .never => x.wait
  | _ => x.wait || f.c.actsLater g.u

/-- A trigger with its operands runs, or is held whole (R73, R147, R162). -/
def Frame.fire (f : Frame) (h : Slot) (g : Trig) (k : Fetch) (x : Args) (held : Bool)
    (run : Frame → Args → Except Stop (Frame × Effect)) : Except Stop Frame :=
  if f.mustWait g x then f.later h g k x run
  else match run f x with
    | .error (.behind f') =>
      (f.checked f').postpone h g k (x.placed f'.c.seq.place) (some f'.c.seq.foot)
        (match g.late with | .access w _ _ _ => w | _ => false)
    | .error e => .error e
    | .ok (f', e) => .ok (f'.settle h g k x (held || !f'.c.seq.late.isEmpty) e)

/-- Elements that an older store had still to write, once none has (R183). -/
def Frame.resolveArg (f : Frame) (rid : Nat) : HeldArg → HeldArg
  | .element t keys =>
    if f.c.blocked rid (keys.map fun a => (a, 16)) false then .element t keys
    else .val (.tagged t (vecOfBytes ((keys.map fun a => f.bytes a 16).flatten)))
  | y => y

/-- Gives the held operations the elements that are written by now (R183). -/
def Frame.resolveElements (f : Frame) : Frame :=
  { f with c := { f.c with held := f.c.held.map fun x => { x with args := x.args.map (f.resolveArg x.rid) } } }

/-- A held operation has acted: it leaves the buffer, or runs for its latency with what it pushes (R148). -/
def Frame.acted (f : Frame) (x : Held) (e : Effect) : Frame :=
  let c := { f.c with flying := updateIf f.c.flying (·.rid == x.rid) fun y => { y with undo := e.undo } }
  let c := match e.push with
    | none => { c with held := c.held.filter (·.rid != x.rid) }
    | some (lat, p) => { c with held := updateIf c.held (·.rid == x.rid) fun y =>
        { y with op := none, tag := p.tag, bits := p.bits, flags := p.flags, lat := lat, till := some (f.s.cycle + lat) } }
  Frame.resolveElements { f with c := c }

/-- A held operation that acts when its turn comes, with the operands that it has by now (R147, R185). -/
def Frame.actNow (f : Frame) (r : Again) (run : Frame → Args → Except Stop (Frame × Effect)) : Except Stop Frame :=
  match f.c.heldOf r.rid with
  | none => .ok f
  | some x =>
    let v (i : Nat) := x.args.getD i (.val (.untyped 0))
    match run f ⟨v 0, v 1, v 2, v 3⟩ with
    | .error e => .error e
    | .ok (f', e) => .ok (f'.acted x e)

/-- A trigger (R71, R73, R102, R120, R147): gathers, decides whether it is held, runs the operation and settles
its result. An element in an engine-owned block traps at once unless the trigger is held: then it has no effect before
its trap (R185). -/
def trigger (h : Slot) (g : Trig) (run : Frame → Args → Except Stop (Frame × Effect)) (f : Frame) :
    Except Stop Frame :=
  match f.c.again with
  | some r => f.actNow r run
  | none =>
    match f.gather g with
    | .error e => .error (e.within f (f.peekArgs g))
    | .ok (x, k) =>
      match f.timing g k x with
      | .error e => .error (e.within f x)
      | .ok held =>
        let f' := { k.f with c := k.f.c.consume g.u }
        let held := held || !f'.c.seq.late.isEmpty
        if k.fault.isSome then
          if held then .ok (f'.settle h g k x true (g.unrun x none))
          else .error ((trapAt .ownf 0 (k.fault.getD 0)).within f x)
        else match f'.fire h g k x held run with
          | .error e => .error (e.within f x)
          | .ok f' => .ok f'

/-- An operation that acts on the machine, given its operands' values. -/
def direct (run : Frame → Val → Val → Val → Val → Except Stop (Frame × Effect)) (f : Frame) (x : Args) :
    Except Stop (Frame × Effect) :=
  run f x.a.value x.b.value x.c.value x.d.value

/-! ### Operations of fixed latency on operands alone -/

/-- The trigger of a computation. -/
def pureTrig (o : PureOp) (u : UnitName) (a : Src) : Trig :=
  ⟨u, some a, (pureUses o).1, (pureUses o).2.1, (pureUses o).2.2, [.queue], fun _ => pureKinds o, some (pureLatency o),
    fun _ => 14, .value⟩

/-- The tag of an operand (R160). -/
def Frame.argTag (f : Frame) (d : Nat) (x : HeldArg) : Nat := (f.guess x).value.tagOr d

/-- The elements for which a CVTSR takes bits, 0 for any other operation (R111, R170). -/
def pureRandoms (o : PureOp) (f : Frame) (x : Args) : Nat :=
  match o with
  | .vector (.cvt .cvtsr t) => cvtCount (f.argTag 0 x.a) t.code
  | _ => 0

/-- Runs a computation: RM is the group's, the LFSR steps in slot order (R104, R111). One whose operand is a column of an
open block takes its value later; what its other operands make illegal traps now (R147, R167, R169). While an FPSET is held
that comes before it, RM and the LFSR are not known (R174, notes/assumptions/70.md). -/
def pureRun (o : PureOp) (f : Frame) (x : Args) : Except Stop (Frame × Effect) :=
  if f.c.fpsetWaits then .error f.waitHere
  else
  let rm := fpstRm f.t.snap.ctx.fpst
  let lfsr := fpstLfsr f.c.fpst
  let n := pureRandoms o f x
  let f' := if n = 0 then f else
    { f with c := { f.c with fpst := fpstSetLfsr f.c.fpst (lfsrSteps (16 * n) lfsr), cvtsrs := f.c.cvtsrs + 1 } }
  let keep := if n = 0 then none else some (lfsr, f.c.cvtsrs, f.c.writes)
  let y := f.guessArgs x
  match pureCompute o rm lfsr y.a.value y.b.value y.c.value y.d.value with
  | .error e => .error e
  | .ok p => .ok (f', ⟨some (pureLatency o, p), if x.wait then some (.compute o) else none, keep, [], 0, none⟩)

/-- The meaning of a scalar computation (R122 to R127). -/
def scalarOp (o : ScalarOp) (h : Slot) (a : Src) (s : State) : Host.Outcome State Fault Refusal :=
  runSlot h (trigger h (pureTrig (.scalar o) .sc a) (pureRun (.scalar o))) s

/-- The meaning of a vector computation, in slot 1 or 2 (R159 to R173). -/
def vectorOp (o : VecOp) (h : Slot) (a : Src) (s : State) : Host.Outcome State Fault Refusal :=
  runSlot h (fun f => trigger h (pureTrig (.vector o) f.unit a) (pureRun (.vector o)) f) s

/-! ### Moves (R65) -/

/-- The value that a move carries (R59, R65): a late element or a unit not at hand stalls the tile, for only a trigger can be
held (R147), and a column that nothing can close traps when SLK is 0 (R187). -/
def Frame.moveValue (f : Frame) (a : Src) : Except Stop (Val × Frame) := do
  let f' ← f.touchAll (f.sourceUnits a.src)
  let _ ← f'.kind a.src
  let (x, k) ← (⟨f', [], [], none⟩ : Fetch).arg (some a)
  let _ ← need (k.fault.isNone) (trapAt .ownf 0 (k.fault.getD 0))
  let _ ← need (k.f.c.seq.late.isEmpty) (.claim (k.f.c.seq.late.headD .feeds))
  let late := !k.feeds.isEmpty || !k.cols.isEmpty || x.waits
  let _ ← need (!late) (if f.slack == 0 && f.openColumn k then trapOf .illenc else .stall .element f)
  return (x.value, k.f)

/-- A move (R65): its value goes to a destination that may touch claimable units. -/
def moveSlot (h : Slot) (units : Frame → List TileUnit) (a : Src) (put : Frame → Val → Frame) (s : State) :
    Host.Outcome State Fault Refusal :=
  runSlot h (fun f =>
    match (do
      let (v, g) ← f.moveValue a
      let g ← g.touchAll (units g)
      return put g v) with
    | .error e => .error (e.within f (f.peekArgs ⟨f.unit, some a, false, false, false, [], fun _ _ _ _ => true, none, fun _ => 14, .act⟩))
    | .ok g => .ok g) s

end Sys2Proof.Machine
end

