-- ==== Sys2Proof/Machine/Memory.lean ====
section
/-! DEFINITION. The scratchpad and the cluster-shared window as the scalar unit reaches them, atomics, and
constant loads (R128 to R133, R266, R287). -/

namespace Sys2Proof.Machine

/-! ### The window (R266) -/

/-- Window ways of a cluster: those of the lowest-numbered valid domain whose CMASK includes it (R266). -/
def State.windowWays (s : State) (cluster : Nat) : Nat :=
  let doms := (vget s.dies (cluster / 8) resetDie).dom.toList
  ((doms.find? fun d => bit d 63 && bit d (44 + cluster % 8)).map fun d => fld d 23 5).getD 0

/-- W: the bytes of a cluster's window (R266). -/
def State.windowSize (s : State) (cluster : Nat) : Nat := s.windowWays cluster * 2 ^ 20

/-- What a window byte's cell is combined with: nothing at first, and after a change of the cluster's ways the
free contents of that change, until the byte is written (R266). -/
def State.windowMask (s : State) (cluster o : Nat) : Byte :=
  match s.winFree.find? (·.1 == cluster) with
  | none => 0
  | some p => Config.freeByte p.2 o

/-- A byte of a window. -/
def State.windowByte (s : State) (cluster o : Nat) : Byte :=
  Memory.get s.mem (Key.window cluster o) ^^^ s.windowMask cluster o

/-- Bytes of a window. -/
def State.windowBytes (s : State) (cluster o n : Nat) : List Byte := (rangeFrom o n).map (s.windowByte cluster)

/-- Writes bytes of a window. -/
def State.windowWrite (s : State) (cluster o : Nat) (bs : List Byte) : State :=
  s.write (Key.window cluster o) (bs.zipIdx.map fun p => p.1 ^^^ s.windowMask cluster (o + p.2))

/-- The window accesses of a strand's tile in issue order get the cycle in which they reach their bank (R131). -/
def Frame.accessWindow (f : Frame) (addr : Nat) (op : WinOp) : Frame :=
  { f with s := { f.s with win := f.s.win ++
      [⟨clusterOf f.t.ptn, f.s.cycle + 6, positionOf f.t.ptn, f.c.id, addr, op, f.c.nextRid⟩] } }

/-! ### Scratchpad accesses (R128, R129, R188) -/

/-- The address of a scratchpad or window word: A + B, 64 bits (R128, R130). -/
def wordAddr (a b : Val) : Nat := (a.low + b.low).toNat

/-- Notes the chunks that a group touches (R188). -/
def Frame.noteChunks (f : Frame) (l : List Nat) : Frame :=
  { f with c := { f.c with seq := { f.c.seq with chunks := f.c.seq.chunks ++ l } } }

/-- The checks of scratchpad bytes of a width, in order, the touch of their block, and their place behind older accesses
(R128, R353). -/
def Frame.padPlace (f : Frame) (addr width : Nat) (writes : Bool) : Except Stop Frame := do
  let _ ← need (addr < 0x200000 && addr % width == 0) (trapAt .align 0 addr)
  let _ ← need (!f.ownerBit (addr / 4096)) (trapAt .ownf 0 addr)
  let f ← f.reach (blockUnit addr)
  f.access [(Key.pad f.c.id addr, width)] writes

/-- A scalar access of a scratchpad word. R188 counts the scalar loads and stores of a group; an atomic, which reads and
writes its word, and a store that speculation holds are counted in the group that issues them
(notes/assumptions/65.md). -/
def Frame.padWord (f : Frame) (addr width : Nat) (writes : Bool) : Except Stop Frame :=
  (f.noteChunks [addr / 16 * 16]).padPlace addr width writes

/-- Reads scratchpad bytes for the core: uncorrectable data fails the task (R371). -/
def Frame.padRead (f : Frame) (addr n : Nat) : Except Stop (List Byte) :=
  let k := Key.pad f.c.id addr
  if f.s.bad k n then .error (trapOf .mchk) else .ok (f.bytes k n)

/-- Whether a store that acts now issued before the group in which the strand stands: one held since (R147, R183). -/
def Frame.olderStore (f : Frame) : Bool :=
  match f.c.again with
  | some r => r.rid < f.t.snap.ctx.nextRid
  | none => false

/-- The bytes that a store overwrites, kept for the feed reads of its group (R183). What an older store has written, such
reads see. -/
def Frame.keepOld (f : Frame) (k n : Nat) : Frame :=
  if f.olderStore then f else
  let p := f.t.snap
  let new := (rangeFrom k n).filter fun j => !(p.undo.any (·.1 == j))
  { f with t := { f.t with snap := { p with undo := p.undo ++ new.map fun j => (j, Memory.get f.s.mem j) } } }

/-- The feed reads of a group that has begun see the store of an older one that is held only now (R183). -/
def Frame.noteHeld (f : Frame) (x : HeldStore) : Frame :=
  if f.olderStore then { f with t := { f.t with snap := { f.t.snap with held := f.t.snap.held ++ [x] } } } else f

/-- Holds one store: during speculation in the hold buffer, whose 33rd entry waits, and behind confirmed stores
that still drain (R287, R382, R387). A store whose data have come late has its entry already. -/
def Frame.holdStore (f : Frame) (x : HeldStore) : Except Stop Frame :=
  let f := f.noteHeld x
  match f.t.spec with
  | some p =>
    if f.c.again.isNone && 32 ≤ f.heldStores then .error (.stall .agreement f)
    else .ok { f with t := { f.t with spec := some { p with stores := p.stores ++ [x] } } }
  | none => .ok { f with t := { f.t with drain := f.t.drain ++ [x] } }

/-- Bytes that a store overwrites are no longer put back when an earlier atomic is killed (R74). -/
def Ctx.forgetUndo (c : Ctx) (k n : Nat) : Ctx :=
  if c.flying.all (·.undo.isEmpty) then c
  else { c with flying := c.flying.map fun x => { x with undo := x.undo.filter fun u => u.1 < k || k + n ≤ u.1 } }

/-- Writes bytes at a key, keeping what they overwrite for the group's feed reads. -/
def Frame.writeNow (f : Frame) (p : Nat × List Byte) : Frame :=
  let f := f.keepOld p.1 p.2.length
  { f with s := f.s.write p.1 p.2, c := f.c.forgetUndo p.1 p.2.length }

/-- Writes an atomic's new bytes: one that a transfer can still kill leaves the earlier ones what they put back (R74). -/
def Frame.writeAtomic (f : Frame) (h : Slot) (p : Nat × List Byte) : Frame :=
  let killable := match f.c.again with
    | some r => f.c.flying.any fun x => x.rid == r.rid && x.kill
    | none => h.kill
  let g := f.writeNow p
  if killable then { g with c := f.c } else g

/-- Stores pieces of this context's scratchpad, in order, as one store (R129, R162, R181, R287). -/
def Frame.storePieces (f : Frame) (l : List (Nat × List Byte)) : Except Stop Frame :=
  let ps := l.map fun p => (Key.pad f.c.id p.1, p.2)
  if f.holds then f.holdStore ⟨false, ps, f.c.id, f.c.nextRid⟩ else .ok (ps.foldl Frame.writeNow f)

/-- Stores scratchpad bytes at an address (R129). -/
def Frame.padStore (f : Frame) (addr : Nat) (bs : List Byte) : Except Stop Frame := f.storePieces [(addr, bs)]

/-! ### Loads and stores (R128) -/

/-- A scratchpad load or store as a trigger: one that pushes nothing touches no result queue (R353). -/
def scalarTrig (a : Src) (b c : Bool) (pushes : Bool) : Trig :=
  ⟨.sc, some a, b, c, false, if pushes then [.queue] else [], fun _ _ _ _ => true, if pushes then some 6 else none, fun _ => 9,
    .access (!pushes) false c false⟩

/-- A loaded value: `n` bytes, sign-extended or zero-extended (R128). -/
def loadedWord (signed : Bool) (bs : List Byte) : Word :=
  if signed then BitVec.ofInt 64 (sintN (8 * bs.length) (numLE bs)) else BitVec.ofNat 64 (numLE bs)

/-- A scratchpad load (R128, R129). -/
def padLoad (width : Nat) (signed : Bool) (h : Slot) (a : Src) (s : State) : Host.Outcome State Fault Refusal :=
  runSlot h (trigger h (scalarTrig a true false true) (direct fun f a b _ _ => do
    let addr := wordAddr a b
    let f ← f.padWord addr width false
    let bs ← f.padRead addr width
    return (f, .result 6 (pushWord 9 (loadedWord signed bs) 0)))) s

/-- A scratchpad store (R128, R129). -/
def padStoreOp (width : Nat) (h : Slot) (a : Src) (s : State) : Host.Outcome State Fault Refusal :=
  runSlot h (trigger h (scalarTrig a true true false) (direct fun f a b c _ => do
    let addr := wordAddr a b
    let f ← f.padWord addr width true
    let f ← f.padStore addr (bytesLE width c.low.toNat)
    return (f, .quiet))) s

/-- LDB (R128) -/
def execLdb (h : Slot) (a : Src) (s : State) : Host.Outcome State Fault Refusal := padLoad 1 true h a s
/-- LDBU (R128) -/
def execLdbu (h : Slot) (a : Src) (s : State) : Host.Outcome State Fault Refusal := padLoad 1 false h a s
/-- LDH (R128) -/
def execLdh (h : Slot) (a : Src) (s : State) : Host.Outcome State Fault Refusal := padLoad 2 true h a s
/-- LDHU (R128) -/
def execLdhu (h : Slot) (a : Src) (s : State) : Host.Outcome State Fault Refusal := padLoad 2 false h a s
/-- LDW (R128) -/
def execLdw (h : Slot) (a : Src) (s : State) : Host.Outcome State Fault Refusal := padLoad 4 true h a s
/-- LDWU (R128) -/
def execLdwu (h : Slot) (a : Src) (s : State) : Host.Outcome State Fault Refusal := padLoad 4 false h a s
/-- LDD (R128) -/
def execLdd (h : Slot) (a : Src) (s : State) : Host.Outcome State Fault Refusal := padLoad 8 false h a s
/-- STB (R128) -/
def execStb (h : Slot) (a : Src) (s : State) : Host.Outcome State Fault Refusal := padStoreOp 1 h a s
/-- STH (R128) -/
def execSth (h : Slot) (a : Src) (s : State) : Host.Outcome State Fault Refusal := padStoreOp 2 h a s
/-- STW (R128) -/
def execStw (h : Slot) (a : Src) (s : State) : Host.Outcome State Fault Refusal := padStoreOp 4 h a s
/-- STD (R128) -/
def execStd (h : Slot) (a : Src) (s : State) : Host.Outcome State Fault Refusal := padStoreOp 8 h a s

/-! ### Window words (R130, R131) -/

/-- The checks of a window address, and its place behind older accesses (R130, R162). What is read is checked for
uncorrectable data when it issues, so that the trap is precise (R345, R371, notes/assumptions/66.md). -/
def Frame.windowCheck (f : Frame) (addr n align : Nat) (reads writes : Bool) : Except Stop Frame := do
  let k := Key.window (clusterOf f.t.ptn) addr
  let _ ← need (addr + n ≤ f.s.windowSize (clusterOf f.t.ptn) && addr % align == 0) (trapAt .align 0 addr)
  let _ ← need (!(reads && f.s.bad k n)) (trapOf .mchk)
  f.access [(k, n)] writes

/-- A window access as a trigger (R130, R132). -/
def windowTrig (a : Src) (b c pushes writes : Bool) : Trig :=
  { scalarTrig a b c pushes with
    lat := if pushes then some 12 else none
    late := .access writes (pushes && writes) c false }

/-- The operations in flight at a checkpoint that a transfer of the speculation has killed (R74, R380). -/
def Spec.killed (p : Spec) : List Flying := p.check.flying.filter fun x => p.dead.contains x.rid

/-- What a window load of this strand sees in place of the bytes that a killed atomic has written and that are put back when
the agreement confirms it (R74, R382, R383). -/
def Frame.unseenWindow (f : Frame) : List HeldStore :=
  match f.t.spec with
  | none => []
  | some p =>
    (p.killed.reverse.map (·.undo)).flatten.filterMap fun u =>
      if keyInWindow u.1 ∧ Memory.get f.s.mem u.1 = u.2.2 then
        let o := u.1 - 2 ^ 40
        some ⟨true, [(u.1, [u.2.1 ^^^ f.s.windowMask (o / 2 ^ 24) (o % 2 ^ 24)])], f.c.id, 0⟩
      else none

/-- The held window stores that a window load of this strand sees (R181, R287). -/
def Frame.heldWindow (f : Frame) : List HeldStore := f.unseenWindow ++ f.t.pendingStores.filter (·.window)

/-- A window load: its value arrives from the bank before it is pushed (R131). -/
def windowLoad (wide : Bool) (h : Slot) (a : Src) (s : State) : Host.Outcome State Fault Refusal :=
  runSlot h (trigger h (windowTrig a true false true false) (direct fun f a b _ _ => do
    let addr := wordAddr a b
    let n := if wide then 8 else 4
    let f ← f.windowCheck addr n n true false
    return (f.accessWindow addr (.load wide f.c.nextRid f.heldWindow), .result 12 ⟨9, 0, 0⟩))) s

/-- Stores window bytes: performed at the bank six cycles on, or held (R131, R287). -/
def Frame.windowStore (f : Frame) (addr : Nat) (bs : List Byte) : Except Stop Frame :=
  if f.holds then f.holdStore ⟨true, [(Key.window (clusterOf f.t.ptn) addr, bs)], f.c.id, f.c.nextRid⟩
  else .ok (f.accessWindow addr (.store bs))

/-- A window store (R130, R131). -/
def windowStoreOp (width : Nat) (h : Slot) (a : Src) (s : State) : Host.Outcome State Fault Refusal :=
  runSlot h (trigger h (windowTrig a true true false true) (direct fun f a b c _ => do
    let addr := wordAddr a b
    let f ← f.windowCheck addr width width false true
    let f ← f.windowStore addr (bytesLE width c.low.toNat)
    return (f, .quiet))) s

/-- LDW.CL (R130) -/
def execLdwCl (h : Slot) (a : Src) (s : State) : Host.Outcome State Fault Refusal := windowLoad false h a s
/-- LDD.CL (R130) -/
def execLddCl (h : Slot) (a : Src) (s : State) : Host.Outcome State Fault Refusal := windowLoad true h a s
/-- STW.CL (R130) -/
def execStwCl (h : Slot) (a : Src) (s : State) : Host.Outcome State Fault Refusal := windowStoreOp 4 h a s
/-- STD.CL (R130) -/
def execStdCl (h : Slot) (a : Src) (s : State) : Host.Outcome State Fault Refusal := windowStoreOp 8 h a s

/-! ### Atomics (R132, R245) -/

/-- The new value of an atomic (R132). -/
def atomicNew (o : AtomicOp) (old b c : Word) : Word :=
  match o with
  | .add => old + b
  | .and => old &&& b
  | .or => old ||| b
  | .xor => old ^^^ b
  | .min => if b.slt old then b else old
  | .max => if old.slt b then b else old
  | .swap => b
  | .cas => if old = c then b else old

/-- Whether an atomic uses operand C (R132). -/
def atomicCompares : AtomicOp → Bool
  | .cas => true
  | _ => false

/-- An atomic as a trigger: its data are B and C (R132). -/
def atomicTrig (o : AtomicOp) (a : Src) (lat : Nat) : Trig :=
  { scalarTrig a true (atomicCompares o) true with lat := some lat, late := .access true true true false }

/-- What putting bytes back over others takes: key, old and new byte (R74). -/
def undoBytes (k : Nat) (old new : List Byte) : List (Nat × Byte × Byte) :=
  (old.zip new).zipIdx.map fun p => (k + p.2, p.1.1, p.1.2)

/-- A scratchpad atomic: it waits for an agreement, and pushes the old value (R132, R157). -/
def padAtomic (o : AtomicOp) (h : Slot) (a : Src) (s : State) : Host.Outcome State Fault Refusal :=
  runSlot h (trigger h (atomicTrig o a 6) (direct fun f a b c _ => do
    let _ ← f.settled
    let _ ← f.drained
    let addr := a.low.toNat
    let f ← f.padWord addr 8 true
    let bs ← f.padRead addr 8
    let old := loadedWord false bs
    let new := wordBytes (atomicNew o old b.low c.low)
    let k := Key.pad f.c.id addr
    return (f.writeAtomic h (k, new), { Effect.result 6 (pushWord 9 old 0) with undo := undoBytes k bs new }))) s

/-- AADD (R132) -/
def execAadd (h : Slot) (a : Src) (s : State) : Host.Outcome State Fault Refusal := padAtomic .add h a s
/-- AAND (R132) -/
def execAand (h : Slot) (a : Src) (s : State) : Host.Outcome State Fault Refusal := padAtomic .and h a s
/-- AOR (R132) -/
def execAor (h : Slot) (a : Src) (s : State) : Host.Outcome State Fault Refusal := padAtomic .or h a s
/-- AXOR (R132) -/
def execAxor (h : Slot) (a : Src) (s : State) : Host.Outcome State Fault Refusal := padAtomic .xor h a s
/-- AMIN (R132) -/
def execAmin (h : Slot) (a : Src) (s : State) : Host.Outcome State Fault Refusal := padAtomic .min h a s
/-- AMAX (R132) -/
def execAmax (h : Slot) (a : Src) (s : State) : Host.Outcome State Fault Refusal := padAtomic .max h a s
/-- ASWAP (R132) -/
def execAswap (h : Slot) (a : Src) (s : State) : Host.Outcome State Fault Refusal := padAtomic .swap h a s
/-- ACAS (R132) -/
def execAcas (h : Slot) (a : Src) (s : State) : Host.Outcome State Fault Refusal := padAtomic .cas h a s

/-- A cluster atomic: it reads and writes at its turn at the bank (R131, R132). -/
def windowAtomic (o : AtomicOp) (h : Slot) (a : Src) (s : State) : Host.Outcome State Fault Refusal :=
  runSlot h (trigger h (atomicTrig o a 12) (direct fun f a b c _ => do
    let _ ← f.settled
    let _ ← f.drained
    let addr := a.low.toNat
    let f ← f.windowCheck addr 8 8 true true
    return (f.accessWindow addr (.atomic o b.low c.low f.c.nextRid), .result 12 ⟨9, 0, 0⟩))) s

/-- AADD.CL (R132) -/
def execAaddCl (h : Slot) (a : Src) (s : State) : Host.Outcome State Fault Refusal := windowAtomic .add h a s
/-- AAND.CL (R132) -/
def execAandCl (h : Slot) (a : Src) (s : State) : Host.Outcome State Fault Refusal := windowAtomic .and h a s
/-- AOR.CL (R132) -/
def execAorCl (h : Slot) (a : Src) (s : State) : Host.Outcome State Fault Refusal := windowAtomic .or h a s
/-- AXOR.CL (R132) -/
def execAxorCl (h : Slot) (a : Src) (s : State) : Host.Outcome State Fault Refusal := windowAtomic .xor h a s
/-- AMIN.CL (R132) -/
def execAminCl (h : Slot) (a : Src) (s : State) : Host.Outcome State Fault Refusal := windowAtomic .min h a s
/-- AMAX.CL (R132) -/
def execAmaxCl (h : Slot) (a : Src) (s : State) : Host.Outcome State Fault Refusal := windowAtomic .max h a s
/-- ASWAP.CL (R132) -/
def execAswapCl (h : Slot) (a : Src) (s : State) : Host.Outcome State Fault Refusal := windowAtomic .swap h a s
/-- ACAS.CL (R132) -/
def execAcasCl (h : Slot) (a : Src) (s : State) : Host.Outcome State Fault Refusal := windowAtomic .cas h a s

/-! ### Constant loads (R133) -/

/-- CLD (R133): a word of the constant path's snapshot; at or beyond CLEN zero. -/
def execCld (h : Slot) (a : Src) (s : State) : Host.Outcome State Fault Refusal :=
  runSlot h (trigger h { scalarTrig a false false true with lat := some 12, late := .act } (direct fun f a _ _ _ =>
    .ok (f, .result 12 (pushWord 9 (f.t.const.getD a.low.toNat 0) 0)))) s

/-! ### WINDOW_ACCESS_PERFORM (R131) -/

/-- Delivers a window value to the operation in flight that asked for it. -/
def Ctx.deliver (c : Ctx) (rid : Nat) (tag : Tag) (v : Vec) : Ctx :=
  { c with
    flying := updateIf c.flying (·.rid == rid) fun x => { x with tag := tag, bits := v }
    held := updateIf c.held (·.rid == rid) fun x => { x with tag := tag, bits := v } }

/-- Window bytes as a strand's own load sees them: its held stores over the window (R181, R287). -/
def State.windowSeen (s : State) (cluster o n : Nat) (own : List HeldStore) : List Byte :=
  (rangeFrom o n).map fun j => (heldByte own (Key.window cluster j)).getD (s.windowByte cluster j)

/-- Fails the task of the strand whose engine, copy or collective reads uncorrectable data: `sub` names the consumer
(R351, R352, R371). -/
def State.machineCheckOf (s : State) (sid sub addr : Nat) : State :=
  match s.strand? sid with
  | none => s
  | some t => s.setStrand (t.failWith s.cycle Cause.mchk.code sub addr (failWords Cause.mchk.code sub addr))

/-- The same for the strand of a context. -/
def State.machineCheck (s : State) (ctx sub addr : Nat) : State :=
  match s.owner? ctx with
  | none => s
  | some t => s.machineCheckOf t.sid sub addr

/-- Delivers to the checkpoint of a strand's speculation (R382). -/
def Strand.deliver (t : Strand) (rid : Nat) (tag : Tag) (v : Vec) : Strand :=
  { t with spec := t.spec.map fun (p : Spec) => { p with check := p.check.deliver rid tag v } }

/-- Delivers to a context, if it is still there, and to the checkpoint of its strand's speculation (R382). -/
def State.deliver (s : State) (ctx rid : Nat) (tag : Tag) (v : Vec) : State :=
  let s := { s with strands := updateIf s.strands (·.cur == ctx) fun t => t.deliver rid tag v }
  match s.ctx? ctx with
  | none => s
  | some c => s.setCtx (c.deliver rid tag v)

/-- Notes what a window atomic has written, to be put back if it is killed (R74, notes/assumptions/62.md). -/
def Ctx.noteUndo (c : Ctx) (rid : Nat) (u : List (Nat × Byte × Byte)) : Ctx :=
  { c with flying := updateIf c.flying (·.rid == rid) fun x => { x with undo := u } }

/-- Notes it in the context and in the checkpoint of its strand's speculation. -/
def State.noteUndo (s : State) (ctx rid : Nat) (u : List (Nat × Byte × Byte)) : State :=
  { s with
    ctxs := updateIf s.ctxs (·.id == ctx) (·.noteUndo rid u)
    strands := updateIf s.strands (·.cur == ctx) fun t =>
      { t with spec := t.spec.map fun (p : Spec) => { p with check := p.check.noteUndo rid u } } }

/-- Whether a transfer can still kill an operation of a context (R74). -/
def State.killable (s : State) (ctx rid : Nat) : Bool := (s.ctx? ctx).any fun c => c.flying.any fun x => x.rid == rid && x.kill

/-- Performs one window access at its bank (R131). A store, or an atomic that nothing can kill any more, takes its bytes from
whatever atomic could still be put back. -/
def State.performWindow (s : State) (a : WinAcc) : State :=
  let forget (s : State) (n : Nat) : State :=
    { s with ctxs := s.ctxs.map fun c => c.forgetUndo (Key.window a.cluster a.addr) n }
  match a.op with
  | .load wide rid own =>
    let n := if wide then 8 else 4
    s.deliver a.ctx rid 9 ((loadedWord true (s.windowSeen a.cluster a.addr n own)).zeroExtend 2048)
  | .store bs => forget (s.windowWrite a.cluster a.addr bs) bs.length
  | .atomic o b c rid =>
    let old := loadedWord false (s.windowBytes a.cluster a.addr 8)
    let k := Key.window a.cluster a.addr
    let t := s.windowWrite a.cluster a.addr (wordBytes (atomicNew o old b c))
    let t := if s.killable a.ctx rid then t else forget t 8
    (t.deliver a.ctx rid 9 (old.zeroExtend 2048)).noteUndo a.ctx rid
      (undoBytes k (Memory.read s.mem k 8) (Memory.read t.mem k 8))
  | .vload rid tag own =>
    s.deliver a.ctx rid tag (vecOfBytes (s.windowSeen a.cluster a.addr 256 own))

/-- The accesses of a cluster that reach their banks by now, in ascending position, each tile's in issue order
(R131). -/
def State.dueAccesses (s : State) (cluster : Nat) : List WinAcc :=
  let due := s.win.filter fun a => a.cluster == cluster && a.due ≤ s.cycle
  ((List.range 16).map fun p => due.filter (·.pos == p)).flatten

/-- WINDOW_ACCESS_PERFORM (R131): the accesses of a cluster that are due are performed, one after another. -/
def execWindowAccessPerform (cluster : Nat) (s : State) : Host.Outcome State Fault Refusal :=
  let s' := (s.dueAccesses cluster).foldl State.performWindow s
  .next { s' with win := s'.win.filter fun a => !(a.cluster == cluster && a.due ≤ s.cycle) }

end Sys2Proof.Machine
end

