-- ==== Sys2Proof/Machine/Moves.lean ====
section
/-! DEFINITION. NOP, the moves and the immediates (R63 to R66, R71, R72). -/

namespace Sys2Proof.Machine

/-! ### Destinations -/

/-- An operand port as it stood before the group's first write of it (R69). -/
def Frame.portBefore (f : Frame) (u : UnitName) (p : OpPort) : Port := lookupD f.c.seq.portw (portIndex u p) (f.port u p)

/-- Writes an operand port: of two writes in one group the higher slot's stands (R69, R71). -/
def Frame.putPort (f : Frame) (u : UnitName) (p : OpPort) (g : Port → Port) : Frame :=
  let i := portIndex u p
  let old := f.portBefore u p
  { f with c := { f.c with
    ports := vset f.c.ports i (g old)
    seq := { f.c.seq with portw := insertKey f.c.seq.portw i old } } }

/-- Supplies a value to a port; a binding stays in place beneath it (R71). -/
def Frame.supply (f : Frame) (u : UnitName) (p : OpPort) (v : Val) : Frame :=
  f.putPort u p fun q => { q with supply := some v }

/-- Latches a value or a stream at a port (R59, R71). -/
def Frame.bind (f : Frame) (u : UnitName) (p : OpPort) (l : Latch) : Frame :=
  f.putPort u p fun q => { q with bind := some l }

/-- Writes scalar register sn: bits [63:0], any tag dropped (R65). -/
def Frame.putScalar (f : Frame) (n : Nat) (v : Val) : Frame := { f with c := f.c.writeS n v.low }

/-- The value written to a vector register (R65). -/
def Val.register : Val → Tag × Vec
  | .tagged t b => (t, b)
  | v => (14, v.wide)

/-- Writes vector register vn (R65). -/
def Frame.putVector (f : Frame) (n : Nat) (v : Val) : Frame :=
  { f with c := ({ f.c with vregs := vset f.c.vregs n v.register } : Ctx).mend [.vreg n] }

/-- Writes predicate pn: whether bits [63:0] are nonzero (R65). -/
def Frame.putPredicate (f : Frame) (n : Nat) (v : Val) : Frame :=
  let m : BitVec 8 := 1 <<< n
  { f with c := { f.c with preds := if v.low = 0 then f.c.preds &&& ~~~m else f.c.preds ||| m } }

/-- Changes a loop level. -/
def Frame.putLevel (f : Frame) (n : Nat) (g : Level → Level) : Frame :=
  { f with c := { f.c with levels := vset f.c.levels n (g (vget f.c.levels n Level.idle)) } }

/-- Sets the counter of a level (R64, R143). -/
def Frame.putLc (f : Frame) (n : Nat) (v : Val) : Frame :=
  f.putLevel n fun l => { l with lc := v.low.extractLsb' 0 20 }

/-- Sets the bound of a level (R64, R143). -/
def Frame.putLb (f : Frame) (n : Nat) (v : Val) : Frame :=
  f.putLevel n fun l => { l with lb := v.low.extractLsb' 0 20 }

/-- Sets the remaining slack (R64, R147). -/
def Frame.putSlack (f : Frame) (w : Word) : Frame := { f with c := { f.c with slk := w.extractLsb' 0 16 } }

/-- Sets the constant-bank index; the bank reloads in the six cycles that follow (R64). -/
def Frame.putCbx (f : Frame) (v : Val) : Frame :=
  { f with t := { f.t with cbx := v.low.extractLsb' 0 10, cbxTill := f.s.cycle + 6 } }

/-- The claimable unit that writing sn touches (R353). -/
def Frame.scalarUnits (n : Nat) (f : Frame) : List TileUnit := if n < 8 then [] else [f.registerBank n]

/-! ### The meanings -/

/-- NOP (R72): no effect. -/
def execNop (h : Slot) (s : State) : Host.Outcome State Fault Refusal := runSlot h (fun f => .ok f) s

/-- A bind: a stream is latched unread, a value as it stood at the group's start (R59). -/
def bindSlot (h : Slot) (u : UnitName) (p : OpPort) (a : Src) (s : State) : Host.Outcome State Fault Refusal :=
  if sourceStream a.src then
    runSlot h (fun f => (f.touchAll (f.sourceUnits a.src)).map fun g => g.bind u p (.stream a.src (modePeeks a.mode))) s
  else moveSlot h (fun _ => []) a (fun f v => f.bind u p (.value v)) s

/-- MOVE_OPERAND_PORT (R59, R63, R71). -/
def execMoveOperandPort (h : Slot) (u : UnitName) (p : OpPort) (a : Src) (s : State) :
    Host.Outcome State Fault Refusal :=
  match a.mode with
  | .read | .peek => moveSlot h (fun _ => []) a (fun f v => f.supply u p v) s
  | .bind | .bindPeek => bindSlot h u p a s

/-- MOVE_SCALAR (R65). -/
def execMoveScalar (h : Slot) (n : Fin 32) (a : Src) (s : State) : Host.Outcome State Fault Refusal :=
  moveSlot h (Frame.scalarUnits n) a (fun f v => f.putScalar n v) s

/-- MOVE_VECTOR (R65). -/
def execMoveVector (h : Slot) (n : Fin 16) (a : Src) (s : State) : Host.Outcome State Fault Refusal :=
  moveSlot h (fun _ => [.vfile]) a (fun f v => f.putVector n v) s

/-- MOVE_PREDICATE (R65). -/
def execMovePredicate (h : Slot) (n : Fin 8) (a : Src) (s : State) : Host.Outcome State Fault Refusal :=
  moveSlot h (fun _ => []) a (fun f v => f.putPredicate n v) s

/-- MOVE_LC (R64). -/
def execMoveLc (h : Slot) (n : Fin 6) (a : Src) (s : State) : Host.Outcome State Fault Refusal :=
  moveSlot h (fun _ => [.loops]) a (fun f v => f.putLc n v) s

/-- MOVE_LB (R64). -/
def execMoveLb (h : Slot) (n : Fin 6) (a : Src) (s : State) : Host.Outcome State Fault Refusal :=
  moveSlot h (fun _ => [.loops]) a (fun f v => f.putLb n v) s

/-- MOVE_SLK (R64). -/
def execMoveSlk (h : Slot) (a : Src) (s : State) : Host.Outcome State Fault Refusal :=
  moveSlot h (fun _ => []) a (fun f v => f.putSlack v.low) s

/-- MOVE_CBX (R64). -/
def execMoveCbx (h : Slot) (a : Src) (s : State) : Host.Outcome State Fault Refusal :=
  moveSlot h (fun _ => []) a (fun f v => f.putCbx v) s

/-! ### Immediates (R66) -/

/-- An immediate slot: no guard, no K; it always takes effect (R66). -/
def immSlot (stop : Bool) (body : Frame → Except Stop Frame) (s : State) : Host.Outcome State Fault Refusal :=
  runSlot ⟨stop, false, .always⟩ body s

/-- Binds a port of the slot's own unit to a value (R66). -/
def immBind (stop : Bool) (p : OpPort) (v : Val) (s : State) : Host.Outcome State Fault Refusal :=
  immSlot stop (fun f => .ok (f.bind f.unit p (.value v))) s

/-- SInt(IMM) as a 64-bit integer, untyped (R66). -/
def immInt (i : BitVec 20) : Val := .untyped (i.signExtend 64)

/-- An FP32 value with bits [31:12] = IMM, tagged f32, in every lane (R66, notes/assumptions/6.md). -/
def immF32 (i : BitVec 20) : Val := .tagged 1 (broadcast 32 (i.toNat * 2 ^ 12))

/-- An FP64 value with bits [63:44] = IMM, tagged f64, in every lane (R66, notes/assumptions/6.md). -/
def immF64 (i : BitVec 20) : Val := .tagged 0 (broadcast 64 (i.toNat * 2 ^ 44))

/-- IMM_BIND_B_INT (R66). -/
def execImmBindBInt (stop : Bool) (imm : BitVec 20) (s : State) : Host.Outcome State Fault Refusal :=
  immBind stop .b (immInt imm) s

/-- IMM_BIND_C_INT (R66). -/
def execImmBindCInt (stop : Bool) (imm : BitVec 20) (s : State) : Host.Outcome State Fault Refusal :=
  immBind stop .c (immInt imm) s

/-- IMM_BIND_B_F32 (R66). -/
def execImmBindBF32 (stop : Bool) (imm : BitVec 20) (s : State) : Host.Outcome State Fault Refusal :=
  immBind stop .b (immF32 imm) s

/-- IMM_BIND_C_F32 (R66). -/
def execImmBindCF32 (stop : Bool) (imm : BitVec 20) (s : State) : Host.Outcome State Fault Refusal :=
  immBind stop .c (immF32 imm) s

/-- IMM_BIND_B_F64 (R66). -/
def execImmBindBF64 (stop : Bool) (imm : BitVec 20) (s : State) : Host.Outcome State Fault Refusal :=
  immBind stop .b (immF64 imm) s

/-- IMM_BIND_C_F64 (R66). -/
def execImmBindCF64 (stop : Bool) (imm : BitVec 20) (s : State) : Host.Outcome State Fault Refusal :=
  immBind stop .c (immF64 imm) s

/-- IMM_SET_LB (R66): sets the bound of level GL. -/
def execImmSetLb (stop : Bool) (imm : BitVec 20) (s : State) : Host.Outcome State Fault Refusal :=
  immSlot stop (fun f =>
    (f.touchAll [.loops]).map fun g => g.putLevel (hdrGl g.c.seq.block) fun l => { l with lb := imm }) s

end Sys2Proof.Machine
end

