-- ==== Sys2Proof/Machine/VecMem.lean ====
section
/-! DEFINITION. Vector loads and stores, feed ports, and the transposer (R162, R174 to R188). -/

namespace Sys2Proof.Machine

/-! ### Access words (R175) -/

/-- SWZ of an access word. -/
def accessSwz (w : Word) : Nat := fld w 5 5
/-- TAG of an access word. -/
def accessTag (w : Word) : Nat := fld w 0 5

/-- Whether a swizzle is legal: 0, or 7 to 18 (R175). -/
def swzLegal (s : Nat) : Bool := s == 0 || (7 ≤ s && s ≤ 18)

/-- The faults of an access word: ILLFMT for a tag that the form does not take, ILLENC for its swizzle. R175 and R179 do not
order the swizzle's with those of the address: the word is checked first (notes/assumptions/67.md). -/
def accessCheck (w : Word) (ok : Nat → Bool) : Except Stop Unit := do
  let _ ← need (ok (accessTag w)) (trapOf .illfmt)
  need (swzLegal (accessSwz w)) (trapOf .illenc)

/-! ### Checks (R179) -/

/-- Stops at the first address of a list that a test picks. -/
def refuseFirst (c : Cause) (l : Option Nat) : Except Stop Unit :=
  match l with
  | some a => .error (trapAt c 0 a)
  | none => .ok ()

/-- The distinct chunks of physical addresses (R188). -/
def chunksOf (phys : List Nat) : List Nat := (phys.map fun a => a / 16 * 16).eraseDups

/-- The claimable units of the blocks of physical addresses, in ascending order (R353). -/
def blockUnits (phys : List Nat) : List TileUnit :=
  (sortBy (· ≤ ·) (phys.map (· / 4096)).eraseDups).map fun b => .block (Fin.ofNat 512 b)

/-- The checks of a vector access of `n` bytes at each address, in order: addresses, alignment, owner bits; then its
blocks are touched, its chunks counted, and it takes its place behind older accesses (R179, R188, R353). -/
def Frame.padVector (f : Frame) (phys : List Nat) (n : Nat) (aligned : Bool) (base : Nat) (writes : Bool) :
    Except Stop Frame := do
  let _ ← refuseFirst .align (phys.find? fun a => 0x200000 ≤ a)
  let _ ← need aligned (trapAt .align 0 base)
  let _ ← refuseFirst .ownf (f.firstOwned phys)
  let f ← f.reachAll (blockUnits phys)
  (f.noteChunks (chunksOf phys)).access (phys.map fun a => (Key.pad f.c.id a, n)) writes

/-- Reads `n` bytes at each physical address, in order. -/
def Frame.gatherBytes (f : Frame) (n : Nat) : List Nat → Except Stop (List Byte)
  | [] => .ok []
  | a :: as => do
    let b ← f.padRead a n
    let l ← f.gatherBytes n as
    return b ++ l

/-- The bytes of a vector (R16). -/
def vecBytes (v : Vec) : List Byte := bytesLE 256 v.toNat

/-- A vector's sixteen chunks with their physical addresses (R176). -/
def chunkPieces (swz base : Nat) (v : Vec) : List (Nat × List Byte) :=
  (chunkAddrs swz base).zipIdx.map fun p => (p.1, ((vecBytes v).drop (16 * p.2)).take 16)

/-! ### VLD and VST (R176), VLDT (R177) -/

/-- A trigger of a vector unit; one that pushes, with a latency, touches the result queue (R353). -/
def vectorTrig (u : UnitName) (a : Src) (b c d : Bool) (lat : Option Nat) (kinds : Kind → Kind → Kind → Bool) (late : Late) :
    Trig :=
  ⟨u, some a, b, c, d, if lat.isSome then [.queue] else [], fun _ => kinds, lat, fun _ => 14, late⟩

/-- The tag that an access word gives (R175). -/
def accessTagOf (x : HeldArg) : Tag := BitVec.ofNat 5 (accessTag x.value.low)

/-- Any kinds. -/
def anyKinds (_ _ _ : Kind) : Bool := true

/-- Whether the tag of the access word at a port is one that the form takes, as far as it is known before any operand is
fetched (R102, R175). -/
def Frame.tagAt (f : Frame) (u : UnitName) (p : OpPort) (ok : Nat → Bool) : Bool :=
  match f.peekPort u p true with
  | .val v => ok (accessTag v.low)
  | _ => true

/-- VLD as a trigger (R102, R176). -/
def vldTrig (u : UnitName) (a : Src) : Trig :=
  { vectorTrig u a true false false (some 8) anyKinds (.access false false false false) with
    kinds := fun f _ _ _ => f.tagAt u .b (· < 22)
    tag := fun x => accessTagOf x.b }
/-- VST as a trigger: its only datum is B (R176). -/
def vstTrig (u : UnitName) (a : Src) : Trig := vectorTrig u a true true false none anyKinds (.access true true false false)

/-- VLD (R176): the 256 bytes as they stand. Bits [7:6] of a byte of an FP6 tag are copied, though R99 calls them ignored:
R176 gives a copy (notes/assumptions/68.md). -/
def execVld (h : Slot) (a : Src) (s : State) : Host.Outcome State Fault Refusal :=
  runSlot h (fun f0 => trigger h (vldTrig f0.unit a) (direct fun f a b _ _ => do
    let base := a.low.toNat
    let _ ← accessCheck b.low (· < 22)
    let phys := chunkAddrs (accessSwz b.low) base
    let f ← f.padVector phys 16 (base % 16 == 0) base false
    let bs ← f.gatherBytes 16 phys
    return (f, .result 8 ⟨BitVec.ofNat 5 (accessTag b.low), vecOfBytes bs, 0⟩)) f0) s

/-- Where a VST stores: an address, or the next element of a write port (R176, R184). -/
structure StorePlace where
  f    : Frame
  base : Nat
  swz  : Nat

/-- The place a VST's operands name: with A[63] = 1 the walk of a write port, which then advances (R184). R184 orders neither
the fault of A[62:3] with that of a port not bound for writing, nor gives operand C a meaning there: A is checked first,
and C is not looked at (notes/assumptions/69.md). -/
def Frame.storePlace (f : Frame) (a c : Word) : Except Stop StorePlace :=
  if bit a 63 then do
    let n := fld a 0 3
    let _ ← need (fld a 3 60 == 0) (trapAt .align 0 a.toNat)
    let d := vget f.c.feeds n Feed.start
    let _ ← need (!f.c.nestWaits n) f.waitHere
    let _ ← need (d.bound && d.write) (trapOf .illenc)
    let f ← f.reach .feeds
    return StorePlace.mk { f with c := { f.c with feeds := vset f.c.feeds n { d with pos := d.pos + 1 } } } (d.addr d.pos) d.swz
  else do
    let _ ← accessCheck c (fun _ => true)
    return StorePlace.mk f a.toNat (accessSwz c)

/-- Notes where a VST stores (R184). -/
def StorePlace.noted (p : StorePlace) : Frame :=
  { p.f with c := { p.f.c with seq := { p.f.c.seq with place := some (p.base, p.swz) } } }

/-- VST (R162, R176, R184): it takes its place in the order of accesses when it issues. -/
def execVst (h : Slot) (a : Src) (s : State) : Host.Outcome State Fault Refusal :=
  runSlot h (fun f0 => trigger h (vstTrig f0.unit a) (direct fun f a b c _ => do
    let p ← f.storePlace a.low c.low
    let phys := chunkAddrs p.swz p.base
    let f ← p.noted.padVector phys 16 (p.base % 16 == 0) p.base true
    let f ← f.storePieces (chunkPieces p.swz p.base b.wide)
    return (f, .quiet)) f0) s

/-- The result of VLDT from its sixteen chunks: element 16·col + j is element col of chunk j (R177). -/
def transposeChunks (w : Nat) (chunks : List (List Byte)) : Vec :=
  ofLanes w (((List.range (128 / w)).map fun col => chunks.map fun c => numLE c / 2 ^ (w * col) % 2 ^ w).flatten)

/-- Consecutive pieces of sixteen bytes. -/
def sixteens : Nat → List Byte → List (List Byte)
  | 0, _ => []
  | n + 1, l => l.take 16 :: sixteens n (l.drop 16)

/-- Whether VLDT takes a tag: elements of 4 bits or more (R177). -/
def vldtTag (t : Nat) : Bool := t < 22 && 4 ≤ tagWidth t

/-- VLDT as a trigger (R102, R177). -/
def vldtTrig (u : UnitName) (a : Src) : Trig :=
  { vectorTrig u a true true false (some 10) anyKinds (.access false false false false) with
    kinds := fun f _ _ _ => f.tagAt u .c vldtTag
    tag := fun x => accessTagOf x.c }

/-- VLDT (R177). -/
def execVldt (h : Slot) (a : Src) (s : State) : Host.Outcome State Fault Refusal :=
  runSlot h (fun f0 => trigger h (vldtTrig f0.unit a) (direct fun f a b c _ => do
    let base := a.low.toNat
    let p := fld b.low 0 17
    let t := accessTag c.low
    let _ ← accessCheck c.low vldtTag
    let phys := (List.range 16).map fun j => swizzle (accessSwz c.low) (base + j * p)
    let f ← f.padVector phys 16 (base % 16 == 0 && p % 16 == 0 && p ≤ 0x10000) base false
    let bs ← f.gatherBytes 16 phys
    return (f, .result 10 ⟨BitVec.ofNat 5 t, transposeChunks (tagWidth t) (sixteens 16 bs), 0⟩)) f0) s

/-! ### GATH and SCAT (R178) -/

/-- The physical address of each lane, none for an inactive one (R178). -/
def laneAddrs (w swz base : Nat) (b : Val) : List (Option Nat) :=
  ((lanes 32 (b.lanes 32)).take (2048 / w)).map fun u =>
    if u = 0xFFFFFFFF then none else some (swizzle swz (base + u * (w / 8)))

/-- Whether a kind may hold indices (R178). -/
def indexKind (k : Kind) : Bool := Kind.accepts (fun t => t == 10 || t == 15) k

/-- Whether an access word's tag has elements of 32 or 64 bits (R178). -/
def gatherTag (t : Nat) : Bool := t < 22 && 32 ≤ tagWidth t

/-- Reads each active lane's element; an inactive lane is zero (R178). -/
def Frame.gatherLanesAt (f : Frame) (n : Nat) : List (Option Nat) → Except Stop (List Nat)
  | [] => .ok []
  | none :: l => do
    let r ← f.gatherLanesAt n l
    return 0 :: r
  | some a :: l => do
    let b ← f.padRead a n
    let r ← f.gatherLanesAt n l
    return numLE b :: r

/-- GATH as a trigger (R102, R178). -/
def gathTrig (u : UnitName) (a : Src) : Trig :=
  { vectorTrig u a true true false (some 8) anyKinds (.access false false false false) with
    kinds := fun f _ b _ => indexKind b && f.tagAt u .c gatherTag
    tag := fun x => accessTagOf x.c }
/-- SCAT as a trigger: its only datum is C (R102, R178). -/
def scatTrig (u : UnitName) (a : Src) : Trig :=
  { vectorTrig u a true true true none anyKinds (.access true false true false) with
    kinds := fun f _ b _ => indexKind b && f.tagAt u .d gatherTag }

/-- GATH (R178). -/
def execGath (h : Slot) (a : Src) (s : State) : Host.Outcome State Fault Refusal :=
  runSlot h (fun f0 => trigger h (gathTrig f0.unit a)
    (direct fun f a b c _ => do
      let base := a.low.toNat
      let t := accessTag c.low
      let _ ← accessCheck c.low gatherTag
      let w := tagWidth t
      let addrs := laneAddrs w (accessSwz c.low) base b
      let phys := addrs.filterMap id
      let f ← f.padVector phys (w / 8) (base % (w / 8) == 0) base false
      let l ← f.gatherLanesAt (w / 8) addrs
      return (f, .result 8 ⟨BitVec.ofNat 5 t, ofLanes w l, 0⟩)) f0) s

/-- SCAT (R178): lanes in ascending order, so the highest lane stands. -/
def execScat (h : Slot) (a : Src) (s : State) : Host.Outcome State Fault Refusal :=
  runSlot h (fun f0 => trigger h (scatTrig f0.unit a)
    (direct fun f a b c d => do
      let base := a.low.toNat
      let t := accessTag d.low
      let _ ← accessCheck d.low gatherTag
      let w := tagWidth t
      let addrs := laneAddrs w (accessSwz d.low) base b
      let phys := addrs.filterMap id
      let f ← f.padVector phys (w / 8) (base % (w / 8) == 0) base true
      let pieces := (addrs.zip (lanes w (c.lanes w))).filterMap fun p => p.1.map fun at_ => (at_, bytesLE (w / 8) p.2)
      let f ← f.storePieces pieces
      return (f, .quiet)) f0) s

/-! ### Window vectors (R180) -/

/-- VLD.CL as a trigger (R102, R180). -/
def vldClTrig (u : UnitName) (a : Src) : Trig :=
  { vectorTrig u a true false false (some 16) anyKinds (.access false false false false) with
    kinds := fun f _ _ _ => f.tagAt u .b (· < 22)
    tag := fun x => accessTagOf x.b }
/-- VST.CL as a trigger: its only datum is B (R180). -/
def vstClTrig (u : UnitName) (a : Src) : Trig := vectorTrig u a true false false none anyKinds (.access true true false false)

/-- VLD.CL (R180): SWZ is ignored, TAG applied. R180 does not order TAG's ILLFMT with the window's ALIGN: the tag is checked
first (notes/assumptions/67.md). -/
def execVldCl (h : Slot) (a : Src) (s : State) : Host.Outcome State Fault Refusal :=
  runSlot h (fun f0 => trigger h (vldClTrig f0.unit a) (direct fun f a b _ _ => do
    let o := a.low.toNat
    let t := accessTag b.low
    let _ ← need (t < 22) (trapOf .illfmt)
    let f ← f.windowCheck o 256 16 true false
    return (f.accessWindow o (.vload f.c.nextRid (BitVec.ofNat 5 t) f.heldWindow),
      .result 16 ⟨BitVec.ofNat 5 t, 0, 0⟩)) f0) s

/-- VST.CL (R180). -/
def execVstCl (h : Slot) (a : Src) (s : State) : Host.Outcome State Fault Refusal :=
  runSlot h (fun f0 => trigger h (vstClTrig f0.unit a) (direct fun f a b _ _ => do
    let o := a.low.toNat
    let f ← f.windowCheck o 256 16 false true
    let f ← f.windowStore o (vecBytes b.wide)
    return (f, .quiet)) f0) s

/-! ### FPSET and FPFLUSH (R174) -/

/-- Notes a group's write of FPST; an unconditional one stands against an unconditional WRSR (R388), and one that a transfer
cannot kill lasts (R74). -/
def Frame.writeFpst (f : Frame) (h : Slot) (lasts : Bool) (mask v : Word) : Frame :=
  let q := f.c.seq
  { f with c := { f.c with seq := { q with
      fpst := q.fpst ++ [(mask, v)]
      lasting := if lasts then q.lasting ++ [(mask, v)] else q.lasting
      fpsets := q.fpsets || h.guard == .always } } }

/-- FPSET as a trigger (R174). -/
def fpsetTrig (u : UnitName) (a : Src) : Trig := vectorTrig u a true false false none anyKinds .act
/-- FPFLUSH as a trigger: it pushes, and it is never put off (R174). -/
def fpflushTrig (u : UnitName) (a : Src) : Trig := vectorTrig u a false false false (some 1) anyKinds .never

/-- FPST as a slot finds it: that of the group's start; a held operation whose turn has come, that of now. -/
def Frame.fpstFound (f : Frame) : Word := if f.c.again.isSome then f.c.fpst else f.t.snap.ctx.fpst

/-- Whether the strand holds an operation, other than the one whose turn has come (R147, R174). -/
def Frame.holdsOther (f : Frame) : Bool := f.c.held.any fun x => f.c.again.all fun r => x.rid != r.rid

/-- The flags that have been raised since a held FPSET issued, which it does not clear (R148, R174). -/
def Frame.raisedSince (f : Frame) : Word :=
  match f.c.again.bind fun r => f.c.heldOf r.rid with
  | some x => x.flags.zeroExtend 64
  | none => 0

/-- FPSET (R174). One held for its operands writes FPST once it has them: what depends on FPST waits for it, and the flags
raised since stand (R148, notes/assumptions/70.md). -/
def execFpset (h : Slot) (a : Src) (s : State) : Host.Outcome State Fault Refusal :=
  runSlot h (fun f0 => trigger h (fpsetTrig f0.unit a) (direct fun f a b _ _ => do
    let _ ← need (f.c.again.isSome || !f.c.fpsetWaits) f.waitHere
    let g := f.writeFpst h true b.low a.low
    return (if f.raisedSince = 0 then g else g.writeFpst h true f.raisedSince f.raisedSince, .quiet)) f0) s

/-- FPFLUSH (R174): pushes FPST as the group finds it and clears the flags that A[5:0] names; it stalls while any
operation is held. One that a transfer kills clears nothing: under a leaf guard it clears only as it pushes (R74, R93). -/
def execFpflush (h : Slot) (a : Src) (s : State) : Host.Outcome State Fault Refusal :=
  runSlot h (fun f0 => trigger h (fpflushTrig f0.unit a) (direct fun f a _ _ _ => do
    let _ ← need (!f.holdsOther) (.stall .buffer f)
    let mask := BitVec.ofNat 64 (fld a.low 0 6)
    let e := Effect.result 1 (pushWord 14 f.fpstFound 0)
    if slotLeafed h then return (f, { e with clear := mask })
    else return (f.writeFpst h (!h.kill) mask 0, e)) f0) s

/-! ### NEST (R144, R182, R183) -/

/-- The levels of a nest descriptor (R182). -/
def nestLevels (ws : List Word) : List (Nat × Int) :=
  (ws.drop 1).take 6 |>.map fun w => (fld w 0 16, sintN 32 (fld w 32 32))

/-- The lowest and the highest byte of a walk (R182). -/
def nestExtent (base : Nat) (l : List (Nat × Int)) : Int × Int :=
  (l.foldl (fun t p => t + min 0 (((p.1 : Int) - 1) * p.2)) base,
   l.foldl (fun t p => t + max 0 (((p.1 : Int) - 1) * p.2)) (base + 255))

/-- The faults of a nest descriptor (R182). -/
def nestCheck (ws : List Word) (write : Bool) (addr : Nat) : Except Stop Unit := do
  let w0 := ws.headD 0
  let levels := nestLevels ws
  let base := fld w0 0 21
  let e := nestExtent base levels
  let rsv := fld w0 31 33 != 0 || ((ws.drop 1).take 6).any (fun w => fld w 16 16 != 0) || ws.getD 7 0 != 0
  let _ ← need (!rsv && levels.all (·.1 != 0) && swzLegal (fld w0 26 5)) (trapOf .illenc)
  let _ ← need (write || fld w0 21 5 < 22) (trapOf .illfmt)
  need (base % 16 == 0 && levels.all (fun l => l.2 % 16 == 0) && 0 ≤ e.1 && e.2 ≤ 0x1FFFFF) (trapAt .align 0 addr)

/-- Binds a port to a descriptor: unread elements are discarded (R144, R182). -/
def Frame.bindFeed (f : Frame) (n : Nat) (write : Bool) (ws : List Word) : Frame :=
  let w0 := ws.headD 0
  let d : Feed := ⟨true, write, fld w0 0 21, fld w0 26 5, BitVec.ofNat 5 (fld w0 21 5), nestLevels ws, 0, 0, f.s.cycle⟩
  { f with c := { f.c with
      feeds := vset f.c.feeds n d
      held := f.c.held.map fun x => { x with feeds := x.feeds.filter (·.1 != n) } } }

/-- NEST as a trigger: what it reads is its descriptor. While it is held, what names its port waits for it (R144, R147). -/
def nestTrig (a : Src) : Trig :=
  ⟨.ct, some a, true, false, false, [.feeds], fun _ => anyKinds, none, fun _ => 14, .access false false false false⟩

/-- NEST (R144): its descriptor is none of the accesses that R188 counts. -/
def execNest (h : Slot) (a : Src) (s : State) : Host.Outcome State Fault Refusal :=
  runSlot h (trigger h (nestTrig a) (direct fun f a b _ _ => do
    let addr := a.low.toNat
    let f ← f.padPlace addr 64 false
    let bs ← f.padRead addr 64
    let ws := wordsOf 8 bs
    let _ ← nestCheck ws (bit b.low 3) addr
    return (f.bindFeed (fld b.low 0 3) (bit b.low 3) ws, .quiet))) s

/-- Whether the feed ports of a context are at its tile (R353, R355). -/
def State.portsHere (s : State) (c : Ctx) : Bool := (s.owner? c.id).any fun t => Frame.atHand ⟨s, t, c⟩ .feeds

/-- Whether the blocks of a context are at its tile, so that a feed port reaches them (R353, R355). -/
def State.blocksHere (s : State) (c : Ctx) (phys : List Nat) : Bool :=
  match s.owner? c.id with
  | none => false
  | some t => (blockUnits phys).all (Frame.atHand ⟨s, t, c⟩)

/-- Whether the next element of a read port can be fetched: no earlier than eight cycles after the NEST, at most
eight ahead, not behind a faulted element, and by ports and from blocks that are at hand: others its pop first touches
(R144, R183, R185, R353; notes/assumptions/7.md). -/
def State.feedReady (s : State) (c : Ctx) (d : Feed) : Bool :=
  let phys := chunkAddrs d.swz (d.addr d.arrived)
  d.bound && s.portsHere c && !d.write && d.since + 7 + d.arrived ≤ s.cycle && d.arrived < d.pos + 8
    && !(phys.any fun a => (s.ownedBlocks c.id).contains (a / 4096)) && s.blocksHere c phys

/-- FEED_ELEMENT_ARRIVE (R183): the next element of a read port is there. -/
def execFeedElementArrive (ctx : Nat) (port : Fin 8) (s : State) : Host.Outcome State Fault Refusal :=
  match s.owner? ctx, s.ctx? ctx with
  | some t, some c =>
    let d := vget c.feeds port Feed.start
    if s.feedReady c d then
      let f := (blockUnits (chunkAddrs d.swz (d.addr d.arrived))).foldl Frame.own ⟨s, t, c⟩
      .next (f.s.setCtx { c with feeds := vset c.feeds port { d with arrived := d.arrived + 1 } })
    else .next s
  | _, _ => s.event

/-! ### The transposer (R186, R187) -/

/-- A trigger of the transposer: it touches the vector file (R353). -/
def transposerTrig (a : Option Src) (kinds : Frame → Kind → Kind → Kind → Bool) : Trig :=
  ⟨.tr, a, false, false, false, [.vfile], kinds, none, fun _ => 14, .act⟩

/-- Whether a row of width `w` and a kind joins the open block, if there is one (R186). -/
def Ctx.takesRow (c : Ctx) (w : Nat) (k : Kind) : Bool :=
  match c.blocks.find? (!·.closed) with
  | none => true
  | some b => b.width == w && (match k with | .tagged t => t == b.tag | _ => true)

/-- The kinds that TROW accepts, known before its row is fetched (R102, R160, R186). -/
def rowKinds (w : Nat) (f : Frame) (k _b _c : Kind) : Bool :=
  Kind.accepts (fun t => t < 22 && tagWidth t == w) k && f.c.takesRow w k

/-- Gives a held operation the columns of a block that has closed. -/
def Held.resolve (x : Held) (b : TBlock) : Held :=
  { x with args := x.args.map fun y => match y with
      | .column n j => if n = b.serial then .val (.tagged b.tag (b.column j)) else .column n j
      | v => v }

/-- Closes the open block in a cycle: its columns follow, and operations that wait for them get their values
(R186, R187). -/
def Ctx.closeBlock (c : Ctx) (cycle : Nat) : Ctx :=
  match c.blocks.find? (!·.closed) with
  | none => c
  | some b =>
    let b := { b with closed := true, closedAt := cycle }
    { c with
      blocks := replaceIf c.blocks (·.serial == b.serial) b
      held := c.held.map (·.resolve b) }

/-- Adds a row to the open block; the 32nd row closes it (R186). -/
def Ctx.addRow (c : Ctx) (b : TBlock) (row : Vec) (cycle : Nat) : Ctx :=
  let b := { b with rows := b.rows ++ [row] }
  let c := { c with blocks := replaceIf c.blocks (·.serial == b.serial) b }
  if b.rows.length = 32 then c.closeBlock cycle else c

/-- TROW (R186). -/
def trowOp (w : Nat) (h : Slot) (a : Src) (s : State) : Host.Outcome State Fault Refusal :=
  runSlot h (trigger h (transposerTrig (some a) (rowKinds w)) (direct fun f a _ _ _ => do
      let row : Vec := BitVec.ofNat 2048 ((a.lanes w).toNat % 2 ^ (32 * w))
      let _ ← need (f.c.takesRow w a.kind) (trapOf .illfmt)
      match f.c.blocks.find? (!·.closed) with
      | some b => return ({ f with c := f.c.addRow b row f.s.cycle }, .quiet)
      | none =>
        let _ ← need ((f.c.blocks.filter (·.nextCol < 32)).length < 2) (.stall .element f)
        let b : TBlock := ⟨f.c.nextRid, BitVec.ofNat 5 (a.tagOr (uintTag w)), w, [], false, 0, 0, 0⟩
        let c := { f.c with blocks := f.c.blocks ++ [b] }
        return ({ f with c := c.addRow b row f.s.cycle }, .quiet))) s

/-- TROW.E8 (R186) -/
def execTrowE8 (h : Slot) (a : Src) (s : State) : Host.Outcome State Fault Refusal := trowOp 8 h a s
/-- TROW.E16 (R186) -/
def execTrowE16 (h : Slot) (a : Src) (s : State) : Host.Outcome State Fault Refusal := trowOp 16 h a s
/-- TROW.E32 (R186) -/
def execTrowE32 (h : Slot) (a : Src) (s : State) : Host.Outcome State Fault Refusal := trowOp 32 h a s
/-- TROW.E64 (R186) -/
def execTrowE64 (h : Slot) (a : Src) (s : State) : Host.Outcome State Fault Refusal := trowOp 64 h a s

/-- TDRAIN (R186): closes the open block; its missing rows read as zero. -/
def execTdrain (h : Slot) (s : State) : Host.Outcome State Fault Refusal :=
  runSlot h (trigger h (transposerTrig none fun _ => anyKinds) (direct fun f _ _ _ _ =>
    .ok ({ f with c := f.c.closeBlock f.s.cycle }, .quiet))) s

/-- TCLR (R186): discards every block; an operation held for a column of the open block finds free values in the rows
that were never pushed (notes/assumptions/25.md). -/
def execTclr (h : Slot) (s : State) : Host.Outcome State Fault Refusal :=
  runSlot h (trigger h (transposerTrig none fun _ => anyKinds) (direct fun f _ _ _ _ =>
    let c : Ctx := { f.c with blocks := f.c.blocks.map fun b => if b.closed then b else b.freed f.s.fresh }
    .ok ({ f with
      s := { f.s with fresh := f.s.fresh + 1 }
      c := { c.closeBlock f.s.cycle with blocks := [] } }, .quiet))) s

/-- Whether the next column of a closed block is present by now: column j from three cycles and j after the
block closed (R187). -/
def State.columnDue (s : State) (b : TBlock) : Bool := b.closed && b.present < 32 && b.closedAt + 2 + b.present ≤ s.cycle

/-- COLUMN_PRESENT (R187): the next column of the oldest block that has one due is present. -/
def execColumnPresent (ctx : Nat) (s : State) : Host.Outcome State Fault Refusal :=
  match s.ctx? ctx with
  | none => s.event
  | some c => match c.blocks.find? s.columnDue with
    | none => s.event
    | some b =>
      let bs := replaceIf c.blocks (·.serial == b.serial) { b with present := b.present + 1 }
      .next (s.setCtx { c with blocks := bs.filter fun x => !x.spent })

end Sys2Proof.Machine
end

