-- ==== Sys2Proof/Machine/Control.lean ====
section
/-! DEFINITION. The control unit but agreements, system registers and TRET: transfers, windows, loops, slack,
barriers, tokens, retirement, CSYNC and fences, with the events that end what they wait for (R134 to R152, R156,
R281, R282). -/

namespace Sys2Proof.Machine

/-! ### Control operations -/

/-- A trigger of the control unit. -/
def controlTrig (a : Option Src) (b c : Bool) (units : List TileUnit) : Trig :=
  ⟨.ct, a, b, c, false, units, fun _ => anyKinds, none, fun _ => 14, .act⟩

/-- A transfer of control, or the opening of a loop, as a trigger: the stream cannot go on before its target is known
(R147, R187, notes/assumptions/17.md). -/
def transferTrig (a : Option Src) (b : Bool) (units : List TileUnit) : Trig :=
  { controlTrig a b false units with late := .never }

/-- A control operation that pushes nothing, on the low 64 bits of A, B and C (R119). -/
def controlOp (h : Slot) (g : Trig) (act : Frame → Word → Word → Word → Except Stop Frame) (s : State) :
    Host.Outcome State Fault Refusal :=
  runSlot h (trigger h g (direct fun f a b c _ => (act f a.low b.low c.low).map fun g => (g, .quiet))) s

/-- Asks for a transfer of control after the bundle (R55, R70). -/
def Frame.transfer (f : Frame) (t : Transfer) : Frame :=
  { f with c := { f.c with seq := { f.c.seq with goto := some t } } }

/-- An absolute target; one that is not a block address traps ALIGN (R49, R134). -/
def absoluteTarget (a : Word) : Except Stop Nat :=
  if fld a 0 5 = 0 then .ok a.toNat else .error (trapAt .align 0 a.toNat)

/-- A relative target: pc + 32 × SInt(A[31:0]) (R134). -/
def relativeTarget (pc : Nat) (a : Word) : Nat := (((pc : Int) + 32 * sintN 32 (fld a 0 32)) % 2 ^ 64).toNat

/-- JMP (R134) -/
def execJmp (h : Slot) (a : Src) (s : State) : Host.Outcome State Fault Refusal :=
  controlOp h (transferTrig (some a) false []) (fun f a _ _ =>
    (absoluteTarget a).map fun t => f.transfer (.jump t)) s

/-- JMPR (R134) -/
def execJmpr (h : Slot) (a : Src) (s : State) : Host.Outcome State Fault Refusal :=
  controlOp h (transferTrig (some a) false []) (fun f a _ _ =>
    .ok (f.transfer (.jump (relativeTarget f.c.pc a)))) s

/-! ### Calls and returns (R135 to R138) -/

/-- SPILL's base address (R138). -/
def spillBase (w : Word) : Nat := fld w 7 50 * 128

/-- SPILL's size in bytes (R138). -/
def spillSize (w : Word) : Nat := 2 ^ fld w 0 5

/-- A WINOVF trap (R136, R137). -/
def winovf (sub addr : Nat) : Stop := trapAt .winovf sub addr

/-- The WINOVF trap of a spill whose address is refused at `va`, which is recorded (R137, R365). -/
def spillRefused (addr why va : Nat) : Stop := .spill ⟨Cause.winovf.code, 1, addr, 0, 0, none⟩ why va

/-- Where pair e is spilled (R137). -/
def Ctx.pairAddr (c : Ctx) (e : Nat) : Nat := spillBase c.spill + 128 * e

/-- Spills the lowest resident pair to make room: it waits for an agreement and for a buffer entry, and stalls
two cycles; a spill that cannot be translated traps, with a record, and one of uncorrectable data traps MCHK (R136, R137, R157,
R365, R371). -/
def Frame.spillLowest (f : Frame) : Except Stop Frame := do
  let _ ← f.settled
  let _ ← need (f.t.spilling.length < 2) (.stall .buffer f)
  let e := f.c.lo
  let f ← f.touch (f.pairBank e)
  let _ ← need (f.c.pairSound e) (trapOf .mchk)
  match f.s.tileWrite f.t.ptn (f.c.pairAddr e) (((f.c.pair e).map wordBytes).flatten) with
  | .error (va, why) => .error (spillRefused (f.c.pairAddr e) why va)
  | .ok s => .ok { f with
      s := s
      t := { f.t with idle := f.t.idle + 2, spilling := f.t.spilling ++ [e] }
      c := { f.c with lo := e + 1 } }

/-- CALL and CALLR after the target check (R136). -/
def Frame.callTo (f : Frame) (target : Nat) : Except Stop Frame := do
  let _ ← need (f.c.depth != 4095) (winovf 0 0)
  let d := f.c.depth + 1
  let _ ← need (128 * (d + 2) ≤ spillSize f.c.spill) (winovf 2 0)
  let f ← f.touch (f.pairBank d)
  let f ← if 2 * f.banks < d + 1 - f.c.lo + 1 then f.spillLowest else .ok f
  return { f with c := { f.c with hi := d + 1 } }.transfer (.call target)

/-- CALL (R136) -/
def execCall (h : Slot) (a : Src) (s : State) : Host.Outcome State Fault Refusal :=
  controlOp h (transferTrig (some a) false []) (fun f a _ _ => (absoluteTarget a).bind f.callTo) s

/-- CALLR (R136) -/
def execCallr (h : Slot) (a : Src) (s : State) : Host.Outcome State Fault Refusal :=
  controlOp h (transferTrig (some a) false []) (fun f a _ _ => f.callTo (relativeTarget f.c.pc a)) s

/-- Asks the device for something and stalls until an event answers (R137, R152, R156). -/
def Frame.await (f : Frame) (w : WaitOn) : Except Stop Frame :=
  if f.t.req = .done w then .ok { f with t := { f.t with req := .none } }
  else .error (.stall w { f with t := { f.t with req := match f.t.req with
    | .none => .open w
    | r => r } })

/-- Asks the device for something that may be refused or be uncorrectable (R137, R152, R371). -/
def Frame.awaitData (f : Frame) (w : WaitOn) (refused : Nat → Stop) : Except Stop Frame :=
  match f.t.req with
  | .failed v a => if v = w then .error (refused a) else f.await w
  | .corrupt v _ => if v = w then .error (trapOf .mchk) else f.await w
  | _ => f.await w

/-- RET after the target check: it fills the pair of the depth returned to when that is not resident (R136, R137). -/
def Frame.returnTo (f : Frame) (target : Nat) : Except Stop Frame := do
  let _ ← need (f.c.depth != 0) (winovf 0 0)
  let d := f.c.depth - 1
  let f ← f.touch (f.pairBank d)
  if d < f.c.lo then
    let _ ← f.settled
    let f ← f.awaitData (.fill d) (winovf 1)
    return { f with c := { f.c with lo := d, hi := d + 1 } }.transfer (.ret target)
  else return { f with c := { f.c with hi := d + 1 } }.transfer (.ret target)

/-- RET (R136) -/
def execRet (h : Slot) (a : Src) (s : State) : Host.Outcome State Fault Refusal :=
  controlOp h (transferTrig (some a) false []) (fun f a _ _ => (absoluteTarget a).bind f.returnTo) s

/-- SPILL_WRITE_COMPLETE (R137): the oldest pair being written frees its buffer entry. -/
def execSpillWriteComplete (sid : Nat) (s : State) : Host.Outcome State Fault Refusal :=
  match s.strand? sid with
  | none => s.event
  | some t => (s.setStrand { t with spilling := t.spilling.drop 1 }).event

/-- FILL_ARRIVE (R137): the pair's bytes arrive from the spill area, or the access is refused; one behind a port that retrains
waits (R314). -/
def execFillArrive (sid : Nat) (s : State) : Host.Outcome State Fault Refusal :=
  match s.frameOf sid with
  | none => s.event
  | some f => match f.t.req with
    | .open (.fill e) =>
      let a := f.c.pairAddr e
      if s.rangeWaits a 128 then s.event
      else match s.tileRange f.t.ptn .read a 128 with
      | .error (va, why) =>
        let s := s.informStrand f.t 5 .read why va
        (({ f with s := s, t := { f.t with req := .failed (.fill e) a } } : Frame).put).event
      | .ok l =>
        if s.badPieces l then (s.setStrand { f.t with req := .corrupt (.fill e) a }).event
        else
          (({ f with s := s.tileHasRead f.t.ptn a 128 l, t := { f.t with req := .done (.fill e) }
                     c := f.c.setPair e (wordsOf 16 (s.readPieces l)) } : Frame).put).event
    | _ => s.event

/-! ### Loops (R139 to R142) -/

/-- The address `n` bundles on from one, by the blocks' headers; a block that cannot be fetched counts as one
bundle (R48, R139, notes/assumptions/9.md). -/
def Frame.bundlesOn (f : Frame) : Nat → Nat → Nat
  | 0, pc => pc
  | n + 1, pc => f.bundlesOn n (match f.fetchBlock pc with
    | .ok b => nextInSequence pc (if bit b 255 then b else 0)
    | .error _ => (pc + 32) % 2 ^ 64)

/-- The blocks of the bundles from one to another, with their addresses, by at most `n` bundles: what the loop buffer takes
when a level opens (R139). A block that cannot be fetched is not taken: its bundle traps when it issues. -/
def Frame.bodyBlocks (f : Frame) (fin : Nat) : Nat → Nat → List (Nat × Block)
  | 0, _ => []
  | n + 1, pc => match f.fetchBlock pc with
    | .error _ => if pc = fin then [] else f.bodyBlocks fin n ((pc + 32) % 2 ^ 64)
    | .ok b =>
      let lits := (List.range (hdrLb b)).filterMap fun m =>
        let a := (pc + 32 * (m + 1)) % 2 ^ 64
        match f.fetchBlock a with | .ok l => some (a, l) | .error _ => none
      (pc, b) :: (if bit b 255 then lits else [])
        ++ (if pc = fin then [] else f.bodyBlocks fin n (nextInSequence pc (if bit b 255 then b else 0)))

/-- Whether a loop level may be opened (R139). That the body of an active level ends before this one is a comparison of
addresses, for the levels that a caller opened too (notes/assumptions/71.md). -/
def Ctx.mayOpen (c : Ctx) (lv fin : Nat) : Bool :=
  lv ≤ 5 && !((c.levels.toList.drop lv).any (·.active)) && !(c.levels.toList.any fun l => l.active && l.fin < fin)

/-- LOOP and LOOPX (R139, R142): the level's bound is read at the group's start (R68). -/
def Frame.openLoop (f : Frame) (a : Word) (exit : Option (Nat × Bool)) : Except Stop Frame := do
  let lv := fld a 6 3
  let start := nextInSequence f.c.pc f.c.seq.block
  let fin := f.bundlesOn (fld a 0 6) start
  let after := f.bundlesOn 1 fin
  let _ ← need (f.c.mayOpen lv fin) (trapOf .illenc)
  if (vget f.t.snap.ctx.levels lv Level.idle).lb = 0 then return f.transfer (.skip after)
  else
    let code := f.bodyBlocks fin 64 start
    return f.putLevel lv fun l => ⟨true, start, fin, after, f.c.depth, exit, 0, l.lb, code⟩

/-- LOOP (R139) -/
def execLoop (h : Slot) (a : Src) (s : State) : Host.Outcome State Fault Refusal :=
  controlOp h (transferTrig (some a) false [.loops]) (fun f a _ _ => f.openLoop a none) s

/-- LOOPX (R142) -/
def execLoopx (h : Slot) (a : Src) (s : State) : Host.Outcome State Fault Refusal :=
  controlOp h (transferTrig (some a) true [.loops]) (fun f a b _ =>
    f.openLoop a (some (fld b 0 3, bit b 3))) s

/-- SLACK (R147) -/
def execSlack (h : Slot) (a : Src) (s : State) : Host.Outcome State Fault Refusal :=
  controlOp h (controlTrig (some a) false false []) (fun f a _ _ => .ok (f.putSlack a)) s

/-! ### Barriers and tokens (R145, R146) -/

/-- Whether a context holds an operation that has still to store to the window (R147). -/
def Ctx.holdsWindowStore (c : Ctx) : Bool := c.held.any fun x => x.onWindow && x.pending && x.writes

/-- Whether the strand has issued a window store that has not set out for its bank: one that still drains, or that either
of its contexts holds (R147, R387). -/
def Frame.windowHeld (f : Frame) : Bool :=
  f.t.drain.any (·.window) || f.c.holdsWindowStore || ((f.t.saved.bind f.s.ctx?).any (·.holdsWindowStore))

/-- Whether the strand has stored to the window and the store has not reached its bank, from either of its contexts
(R156, R387). -/
def Frame.windowStoring (f : Frame) : Bool :=
  f.s.win.any (fun a => (a.ctx == f.c.id || some a.ctx == f.t.saved) && a.op.stores) || f.windowHeld

/-- A release at cluster scope that time makes good once every window store has set out for its bank: one that has not is
waited for (R145, R146, R283). -/
def Frame.storesOut (f : Frame) : Except Stop Unit := need (!f.windowHeld) (.stall (.fence 1 1) f)

/-- Leaves a barrier: the next bundle issues four cycles after the last arrival (R145). -/
def Strand.leaveBarrier (t : Strand) (cycle : Nat) : Strand := { t with bar := none, barGo := cycle + 4 }

/-- Whether every non-retired strand of a task has arrived at a barrier (R30, R145). -/
def State.barrierFull (s : State) (task n : Nat) : Bool :=
  (s.strands.filter fun t => t.task == task && t.life != .retired).all fun t => t.bar == some n

/-- Releases each barrier of a task that is full (R145). -/
def State.releaseBarriers (s : State) (task : Nat) : State :=
  (List.range 16).foldl (fun s n =>
    if s.barrierFull task n then
      { s with strands := updateIf s.strands (fun t => t.task == task && t.bar == some n) (·.leaveBarrier s.cycle) }
    else s) s

/-- BAR (R145): arrives; the strand waits after the bundle until the barrier is full. -/
def execBar (h : Slot) (a : Src) (s : State) : Host.Outcome State Fault Refusal :=
  controlOp h (controlTrig (some a) false false []) (fun f a _ _ => do
    let _ ← f.settled
    let _ ← f.storesOut
    let n := fld a 0 4
    let f : Frame := { f with t := { f.t with bar := some n } }
    let s := (f.s.setStrand f.t).releaseBarriers f.t.task
    return { f with s := s, t := (s.strand? f.t.sid).getD f.t }) s

/-- The token that TKPOST posts (R146). -/
def postToken (rank : Nat) (a : Word) : Word := BitVec.ofNat 64 (2 ^ 63 + (0xF0 + rank) * 2 ^ 48 + fld a 0 48)

/-- TKPOST (R146): a full post buffer stalls. -/
def execTkpost (h : Slot) (a : Src) (s : State) : Host.Outcome State Fault Refusal :=
  controlOp h (controlTrig (some a) true false []) (fun f a b _ => do
    let _ ← f.settled
    let _ ← f.storesOut
    let _ ← need ((f.t.posts.filter fun p => p.1 < f.s.cycle).length < 8) (.stall .buffer f)
    return { f with t := { f.t with posts := f.t.posts ++ [(f.s.cycle + 6, fld b 0 4, postToken f.t.rank a)] } }) s

/-- The receiver of a posted token: a strand of the task that has not retired (R146). -/
def State.receiver (s : State) (task rank : Nat) : Option Strand :=
  s.strands.find? fun t => t.task == task && t.rank == rank && t.life != .retired

/-- The first of a strand's posts that is due, stands behind no other to the same rank, and has room or no
receiver (R146). -/
def State.duePost (s : State) (t : Strand) : Option (Nat × Nat × Word) :=
  t.posts.find? fun p =>
    p.1 ≤ s.cycle && (t.posts.find? (·.2.1 == p.2.1)) == some p
      && (match s.receiver t.task p.2.1 with
          | none => true
          | some r => r.k3Room)

/-- TKPOST_DELIVER (R146): a token enters its receiver's k3; one that nobody receives is discarded. -/
def execTkpostDeliver (sid : Nat) (s : State) : Host.Outcome State Fault Refusal :=
  match s.strand? sid with
  | none => s.event
  | some t => match s.duePost t with
    | none => s.event
    | some p =>
      let s := s.setStrand { t with posts := t.posts.erase p }
      match s.receiver t.task p.2.1 with
      | none => .next s
      | some r => .next ((s.setStrand { r with k3 := r.k3 ++ [p.2.2] }).progress t.task)

/-! ### HEART, RETIRE, CSYNC (R150 to R152) -/

/-- HEART (R150): during speculation it counts when the agreement is confirmed. -/
def execHeart (h : Slot) (s : State) : Host.Outcome State Fault Refusal :=
  controlOp h (controlTrig none false false []) (fun f _ _ _ =>
    match f.t.spec with
    | some p => .ok { f with t := { f.t with spec := some { p with heart := p.heart + 1 } } }
    | none => .ok { f with s := f.s.progress f.t.task, t := { f.t with heart := f.t.heart + 1 } }) s

/-- RETIRE (R44, R151): the strand issues nothing more; during speculation it waits. -/
def execRetire (h : Slot) (s : State) : Host.Outcome State Fault Refusal :=
  controlOp h (controlTrig none false false []) (fun f _ _ _ => do
    let _ ← need f.t.spec.isNone (.stall .agreement f)
    return { f with t := { f.t with life := .draining } }) s

/-- CBX_RELOAD_END (R64): the constant bank holds the words of its index. -/
def execCbxReloadEnd (sid : Nat) (s : State) : Host.Outcome State Fault Refusal :=
  match s.strand? sid with
  | none => s.event
  | some t =>
    if t.cbxTill = 0 then .next s
    else .next (s.setStrand { t with cbank := reloadBank t.const t.cbx, cbxTill := 0 })

/-- CSYNC (R152): stalls until the new snapshot is there; one that cannot be translated traps CSEGF. -/
def execCsync (h : Slot) (s : State) : Host.Outcome State Fault Refusal :=
  controlOp h (controlTrig none false false []) (fun f _ _ _ => do
    let _ ← f.settled
    f.awaitData .csync (trapAt .csegf 0)) s

/-- CSYNC_SNAPSHOT (R152): reads the segment whole, or finds the first word that cannot be translated. -/
def execCsyncSnapshot (sid : Nat) (s : State) : Host.Outcome State Fault Refusal :=
  match s.frameOf sid with
  | none => s.event
  | some f =>
    if f.t.req ≠ .open .csync ∨ s.rangeWaits f.t.cseg (8 * f.t.clen) then s.event
    else
      let n := 8 * f.t.clen
      match s.tileRange f.t.ptn .read f.t.cseg n with
      | .error (va, why) =>
        let s := s.informStrand f.t 8 .read why va
        (({ f with s := s, t := { f.t with req := .failed .csync (va / 8 * 8) } } : Frame).put).event
      | .ok l =>
        if s.badPieces l then (s.setStrand { f.t with req := .corrupt .csync f.t.cseg }).event
        else
          let const := wordsOf f.t.clen (s.readPieces l)
          let s := s.tileHasRead f.t.ptn f.t.cseg n l
          (s.setStrand { f.t with
            req := .done .csync, const := const, cbank := reloadBank const f.t.cbx, cbxTill := 0 }).event

/-! ### Fences (R156, R280 to R282) -/

/-- What a fence is (R156). -/
inductive FenceKind | acq | rel | ar | sc
deriving DecidableEq, Repr

/-- The number of a fence kind in a request. -/
def FenceKind.code : FenceKind → Nat | .acq => 0 | .rel => 1 | .ar => 2 | .sc => 3

/-- A fence: tile scope never stalls; cluster scope waits for the strand's window stores to reach their banks;
wider scopes wait for acknowledgements and clocks (R156). -/
def fenceOp (k : FenceKind) (sc : Scope) (h : Slot) (s : State) : Host.Outcome State Fault Refusal :=
  controlOp h (controlTrig none false false []) (fun f _ _ _ =>
    match sc with
    | .tile => .ok f
    | .cluster => do
      let _ ← f.settled
      let _ ← need (!f.windowStoring) (.stall (.fence k.code sc.code) f)
      return f
    | _ => do
      let _ ← f.settled
      let _ ← need (!f.windowStoring) (.stall (.fence k.code sc.code) f)
      f.await (.fence k.code sc.code)) s

/-- FENCE.ACQ (R281) -/
def execFenceAcq (h : Slot) (sc : Scope) (s : State) : Host.Outcome State Fault Refusal := fenceOp .acq sc h s
/-- FENCE.REL (R281) -/
def execFenceRel (h : Slot) (sc : Scope) (s : State) : Host.Outcome State Fault Refusal := fenceOp .rel sc h s
/-- FENCE.AR (R281) -/
def execFenceAr (h : Slot) (sc : Scope) (s : State) : Host.Outcome State Fault Refusal := fenceOp .ar sc h s
/-- FENCE.SC.DEVICE (R280) -/
def execFenceScDevice (h : Slot) (s : State) : Host.Outcome State Fault Refusal := fenceOp .sc .device h s
/-- FENCE.SC.DOMAIN (R280) -/
def execFenceScDomain (h : Slot) (s : State) : Host.Outcome State Fault Refusal := fenceOp .sc .domain h s

/-- FENCE_COMPLETE (R282): a release merges and raises its die's clock; an acquire needs every invalidation at or
below the die's pending clock applied, and until then the fence stays open. -/
def execFenceComplete (sid : Nat) (s : State) : Host.Outcome State Fault Refusal :=
  match s.strand? sid with
  | none => s.event
  | some t => match t.req with
    | .open (.fence k sc) =>
      let d := dieOf t.ptn
      if k ≠ 1 ∧ !s.acquireReady d then s.event
      else ((if k = 0 then s else s.releaseDie d).setStrand { t with req := .done (.fence k sc) }).event
    | _ => s.event

/-! ### Results, held operations and stalls (R73, R104, R147, R148) -/

/-- Pushes one entry: it becomes q0 and the oldest is lost (R73). -/
def pushEntry (q : Vector QEntry 16) (e : QEntry) : Vector QEntry 16 :=
  Vector.ofFn fun i => if i.val = 0 then e else vget q (i.val - 1) QEntry.start

/-- Whether a result is pushed before another: by its cycle, then its slot (R73). -/
def Flying.earlier (x y : Flying) : Bool := x.due < y.due || (x.due == y.due && x.slot ≤ y.slot)

/-- What a push does to an operation whose own push waits for its bundle's end: it counts a younger result, and the flags that
are raised since are not its to clear (R93). -/
def Flying.passed (y x : Flying) : Flying :=
  if y.leafed && y.earlier x && y.rid != x.rid then
    { y with since := y.since + 1, clear := y.clear &&& ~~~(x.flags.zeroExtend 64) }
  else y

/-- Pushes one operation's result, or a reserved entry while it is held (R73, R148). -/
def Ctx.pushFlying (c : Ctx) (x : Flying) : Ctx :=
  { (if x.ready then c.raise x.flags else c) with
    queue := pushEntry c.queue ⟨x.tag, if x.ready then x.bits else 0, x.ready, x.rid⟩
    flying := c.flying.map (·.passed x)
    bad := pushBad c.bad }

/-- The operations whose push cycle has ended, in the order of their cycles and slots (R73); those under a leaf guard with
K = 1 wait for their bundle's end (R93). -/
def Ctx.duePushes (c : Ctx) : List Flying := sortBy Flying.earlier (c.flying.filter fun x => !x.leafed && x.due < c.icyc)

/-- The counters that operations disarm as they push (R251). -/
def Frame.disarmLate (f : Frame) (l : List Flying) : Frame :=
  { f with s := { f.s with late := f.s.late ++ l.filterMap fun x => x.disarm.map fun k => .counter f.c.id (.disarm k) } }

/-- RESULT_PUSH (R73): the results due are pushed, and their flags reach FPST (R104). -/
def execResultPush (sid : Nat) (s : State) : Host.Outcome State Fault Refusal :=
  match s.frameOf sid with
  | none => s.event
  | some f =>
    let c := f.c.duePushes.foldl Ctx.pushFlying f.c
    .next (({ f with c := { c with flying := c.flying.filter fun x => x.leafed || c.icyc ≤ x.due } } : Frame).disarmLate f.c.duePushes).put

/-- An operation under a leaf guard with K = 1 that no transfer has killed: its result takes the age that it would have, its
flags reach FPST and it clears those that it clears (R93, R349). -/
def Ctx.release (c : Ctx) (x : Flying) : Ctx :=
  let q := (c.queue.toList.take x.since ++ [⟨x.tag, if x.ready then x.bits else 0, x.ready, x.rid⟩] ++ c.queue.toList.drop x.since)
  let c := { c with queue := Vector.ofFn fun i => q.getD i QEntry.start, fpst := c.fpst &&& ~~~x.clear }
  if x.ready then c.raise x.flags else c

/-- The bundle of a strand is left without a transfer: what waited for its end is no longer under a leaf guard, and what was
due is pushed (R93, R349). -/
def Frame.releaseLeafed (f : Frame) : Frame :=
  let due := sortBy Flying.earlier (f.c.flying.filter fun x => x.leafed && x.due < f.c.icyc)
  let c := due.foldl Ctx.release f.c
  ({ f with c := { c with flying := (c.flying.filter fun x => !(x.leafed && x.due < c.icyc)).map fun x => { x with leafed := false } } }
    : Frame).disarmLate due

/-- What a held operation gives when it completes (R104, R148). -/
def Held.result (x : Held) : Push := ⟨x.tag, x.bits, x.flags⟩

/-- The value of a held computation from the operands that it has by now (R104, R111). -/
def Held.compute (x : Held) (o : PureOp) : Except Stop Push :=
  let v (i : Nat) := (x.args.getD i (.val (.untyped 0))).value
  pureCompute o x.rm x.lfsr (v 0) (v 1) (v 2) (v 3)

/-- A held operation that acts on the machine gets its turn (R147): the next step runs its instruction. -/
def Frame.startAgain (f : Frame) (x : Held) : State :=
  let q := { Seq.start with issuing := true, block := f.c.seq.block, slot := x.unit.code, fresh := false }
  f.s.setCtx { f.c with again := some ⟨x.rid, f.c.seq, f.c.nextRid⟩, seq := q, nextRid := x.rid }

/-- A held operation begins (R147, R162, R185): a faulted element traps, an operation that has still to act on the machine
gets its turn, and a computation takes its value, which may trap now that it is known, and completes at the end of its
latency. -/
def Frame.runHeld (f : Frame) (x : Held) : State :=
  let go (y : Held) : State :=
    f.s.setCtx { f.c with held := replaceIf f.c.held (· == x) { y with op := none, till := some (f.s.cycle + x.lat) } }
  match x.fault with
  | some a => f.heldTrap x ⟨Cause.ownf.code, 0, a, 0, 0, none⟩
  | none => match x.op with
    | some (.again _) => f.startAgain x
    | some (.compute o) => match x.compute o with
      | .ok p => go { x with tag := p.tag, bits := p.bits, flags := p.flags }
      | .error (.trap r) => f.heldTrap x r
      | .error _ => go x
    | none => go x

/-- The operation that a unit runs out of its buffer and that is complete, if any (R148). -/
def Ctx.heldDone (c : Ctx) (u : UnitName) (cycle : Nat) : Option Held :=
  c.held.find? fun x => x.unit == u && x.till.any (· ≤ cycle)

/-- The oldest operation that a unit holds, if any (R147). -/
def Ctx.heldOldest (c : Ctx) (u : UnitName) : Option Held :=
  c.held.find? fun x => x.unit == u && x.till.isNone

/-- HELD_OP_RUN (R147, R148): an operation out of a unit's buffer that is complete fills its entry, for a group that
stalls on it too; else the oldest one that the unit holds begins once its elements are there. -/
def execHeldOpRun (ctx : Nat) (u : UnitName) (s : State) : Host.Outcome State Fault Refusal :=
  match s.owner? ctx, s.ctx? ctx with
  | some t, some c =>
    if t.cur ≠ ctx then .next s
    else match c.heldDone u s.cycle with
      | some x => .next ((s.setCtx (Ctx.fill { c with held := c.held.erase x } x.rid x.result)).setStrand { t with
          snap := { t.snap with ctx := t.snap.ctx.fill x.rid x.result } })
      | none => match c.heldOldest u with
        | some x => if c.elementsHere x then .next (Frame.runHeld ⟨s, t, c⟩ x) else .next s
        | none => .next s
  | _, _ => .next s

/-- Whether what a claim's context has issued in its group or earlier has been performed, so that the claiming engine may
read and write the blocks: no older operation has still to touch them, they are at the tile, and no confirmed store is still to be performed there (R198, R240, R355, R387). -/
def State.claimClear (s : State) (k : Claim) : Bool :=
  match s.ctx? k.ctx with
  | none => true
  | some c =>
    let keys := k.blocks.map fun b => (Key.pad k.ctx (4096 * b), 4096)
    k.blocks.all (fun b => !c.wants.any (·.2 == .block (Fin.ofNat 512 b)))
      && (c.held.all fun x => k.before ≤ x.rid || !x.meets keys true)
      && ((s.owner? k.ctx).all fun t => t.drain.all fun h => h.pieces.all fun p => !keys.any (rangesMeet (p.1, p.2.length)))

/-- Whether the slack of a strand is used up while something is held (R147). -/
def Frame.starved (f : Frame) : Bool := f.c.slk == 0 && f.holding

/-- SLACK_EXHAUSTED (R147, R187): the tile stalls until nothing is held; a held trigger that waits for a column of an
open block traps, for nothing could then close it. -/
def execSlackExhausted (sid : Nat) (s : State) : Host.Outcome State Fault Refusal :=
  match s.frameOf sid with
  | none => s.event
  | some f =>
    if !f.starved then s.event
    else match f.c.held.find? fun x => x.args.any (·.isColumn) with
      | some x => (f.heldTrap x ⟨Cause.illenc.code, 0, 0, 0, 0, none⟩).event
      | none => (s.setStrand { f.t with waits := some .element }).event

/-- Whether a wait is a stall of the tile rather than a wait of R38. -/
def WaitOn.isStall : WaitOn → Bool
  | .fill _ | .csync | .fence _ _ | .excuse _ _ _ | .element | .claim _ | .buffer | .cbx => true
  | _ => false

/-- STALL_END (R59): the tile's stall is over and its slot is tried again; one that still lacks what it needs
stalls anew. -/
def execStallEnd (sid : Nat) (s : State) : Host.Outcome State Fault Refusal :=
  match s.strand? sid with
  | none => s.event
  | some t => match t.waits with
    | some w => if w.isStall then (s.setStrand { t with waits := none }).event else s.event
    | none => s.event

end Sys2Proof.Machine
end

