-- ==== Sys2Proof/Machine/Copy.lean ====
section
/-! DEFINITION. Tag commands of the copy engines: copies, accumulator copies, global atomics, multicast stores,
range operations and the catalogue commands, from issue to tag; the tag operations; and byte counters (R230 to
R252, R261, R308, R318). -/

namespace Sys2Proof.Machine

/-! ### The copy slots (R230, R233) -/

/-- A trigger of a copy unit, with the latency of what it pushes. -/
def copyTrig (u : UnitName) (a : Src) (b c d : Bool) (lat : Option Nat) : Trig :=
  ⟨u, some a, b, c, d, if lat.isSome then [.queue] else [], fun _ => anyKinds, lat, fun _ => 9, .act⟩

/-- A copy-slot operation on the low 64 bits of its operands, on the engine of its slot (R230). -/
def copyOp (b c d : Bool) (lat : Option Nat) (h : Slot) (a : Src)
    (act : Frame → Word → Word → Word → Word → Except Stop (Frame × Effect)) (s : State) :
    Host.Outcome State Fault Refusal :=
  runSlot h (fun f => trigger h (copyTrig f.unit a b c d lat)
    (direct fun f a b c d => act f a.low b.low c.low d.low) f) s

/-- A copy-slot operation that waits for an agreement and pushes nothing (R233). -/
def settledOp (b c d : Bool) (h : Slot) (a : Src)
    (act : Frame → Word → Word → Word → Word → Except Stop Frame) (s : State) : Host.Outcome State Fault Refusal :=
  copyOp b c d none h a (fun f a b c d => do
    let _ ← f.settled
    let f ← act f a b c d
    return (f, .quiet)) s

/-! ### Issue of a tag command (R231, R232, R235) -/

/-- Whether a tag command is on engine B of its tile (R230). -/
def Frame.engineB (f : Frame) : Bool := f.unit == .cb

/-- The active entries of an engine of a tile that are taken (R232). -/
def State.activeEntries (s : State) (ptn : Nat) (b : Bool) : Nat :=
  (s.cmds.filter fun k => k.ptn == ptn && k.engineB == b && k.accepted).length

/-- Whether a tag command is accepted at once; without a free entry it is held, or the tile stalls (R147, R232). -/
def Frame.entryPlace (f : Frame) : Except Stop Bool :=
  let mine := f.s.cmds.filter fun k => k.ctx == f.c.id && k.engineB == f.engineB && !k.accepted
  if f.s.activeEntries f.t.ptn f.engineB < 64 ∧ mine.isEmpty then .ok true
  else if f.slack ≠ 0 ∧ f.buffered f.unit < 4 then .ok false
  else .error (.stall .buffer f)

/-- Issues a tag command: TAGBUSY is checked last, the blocks are claimed, and the tag becomes busy (R231, R235,
R240). One that first touches a block that is not at hand is late: it starts once the block is there (R147, R262). -/
def Frame.issueTag (f : Frame) (tag : Nat) (blocks : List Nat) (kind : CmdKind) : Except Stop Frame := do
  let _ ← need (!bit f.t.tagbz tag) (trapOf .tagbusy)
  let now ← f.entryPlace
  let f ← f.reachAll (blocks.map fun b => .block (Fin.ofNat 512 b))
  let id := f.s.nextId
  let k : Cmd := ⟨id, f.t.sid, f.c.id, f.t.ptn, f.engineB, tag, kind, now, f.s.cycle, 0, 0, false, none, [], []⟩
  let s := { f.s.claim f.c.id (.cmd id) f.c.nextRid blocks with nextId := id + 1 }
  let m := (1 : Word) <<< tag
  return { f with
    s := { s with cmds := s.cmds ++ [k] }
    t := { f.t with
      tags := f.t.tags &&& ~~~m
      tagbz := f.t.tagbz ||| m
      stats := vset f.t.stats tag 0
      detach := match kind with
        | .copy _ _ true => f.t.detach ||| m
        | _ => f.t.detach &&& ~~~m } }

/-- The first byte of a scratchpad range that lies in a block whose owner bit is one (R239). -/
def Frame.ownedIn (f : Frame) (a n : Nat) : Option Nat :=
  ((blocksOf a n).find? f.ownerBit).map fun b => max a (4096 * b)

/-- Stops at an owned byte of a range. -/
def Frame.needUnowned (f : Frame) (a n : Nat) : Except Stop Unit :=
  match f.ownedIn a n with
  | some x => .error (trapAt .ownf 0 x)
  | none => .ok ()

/-! ### Copy descriptors (R238, R239) -/

/-- Reads a scratchpad structure of words whole at issue: its blocks are touched, it stands behind older accesses, and
uncorrectable data fails the task (R238, R254, R355, R371). -/
def Frame.padWords (f : Frame) (a n : Nat) : Except Stop (List Word × Frame) := do
  let f ← f.reachAll ((blocksOf a (8 * n)).map fun b => .block (Fin.ofNat 512 b))
  let f ← f.access [(Key.pad f.c.id a, 8 * n)] false
  let bs ← f.padRead a (8 * n)
  return (wordsOf n bs, f)

/-- A descriptor's fields (R238). -/
def readDesc (w : List Word) : CopyDesc :=
  let g (i : Nat) : Word := w.getD i 0
  ⟨fld (g 0) 62 2, fld (g 0) 0 57, fld (g 1) 62 2, fld (g 1) 0 57, bit (g 2) 63, fld (g 2) 32 21, fld (g 2) 0 25,
   (rangeFrom 3 5).map fun i => fld (g i) 48 16, (rangeFrom 3 5).map fun i => sintN 48 (fld (g i) 0 48),
   (rangeFrom 8 5).map fun i => sintN 48 (fld (g i) 0 48), fld (g 13) 62 2, fld (g 13) 0 21⟩

/-- Whether the RSV fields of a descriptor are zero (R238). -/
def descReserved (w : List Word) : Bool :=
  let g (i : Nat) : Word := w.getD i 0
  fld (g 0) 57 5 == 0 && fld (g 1) 57 5 == 0 && fld (g 2) 53 10 == 0 && fld (g 2) 25 7 == 0
    && (rangeFrom 8 5).all (fun i => fld (g i) 48 16 == 0) && fld (g 13) 21 41 == 0 && g 14 == 0 && g 15 == 0

/-- Which operation a descriptor serves (R242 to R244). -/
inductive DescUse | copy | detached | gather | scatter | accLd | accSt
deriving DecidableEq, Repr

/-- The rules of R242 to R244 for each operation. -/
def DescUse.fits (u : DescUse) (d : CopyDesc) : Bool :=
  let plain := d.iw == 0 && d.idx == 0
  let noAcs := d.ssp != 3 && d.dsp != 3
  match u with
  | .copy => plain && noAcs
  | .detached => plain && d.ssp == 0 && d.dsp == 0 && !d.bce
  | .gather => noAcs && d.ssp == 0 && d.iw ≤ 1
  | .scatter => noAcs && d.dsp == 0 && d.iw ≤ 1
  | .accLd => plain && d.dsp == 3 && d.ssp != 3
  | .accSt => plain && d.ssp == 3 && d.dsp != 3

/-- Bytes of the index list (R243). -/
def CopyDesc.listBytes (d : CopyDesc) : Nat := d.bounds.headD 0 * 2 ^ (2 + d.iw)

/-- The lowest and highest byte that one side's walk meets (R239). -/
def CopyDesc.extent (d : CopyDesc) (addr : Nat) (st : List Int) : Int × Int :=
  let spans := (d.bounds.zip st).map fun p => ((p.1 : Int) - 1) * p.2
  (addr + (spans.map (min 0 ·)).foldl (· + ·) 0, addr + (spans.map (max 0 ·)).foldl (· + ·) 0 + d.run - 1)

/-- Whether a side's extent lies in its space (R239); a global side is not checked. -/
def Frame.sideOk (f : Frame) (d : CopyDesc) (sp addr : Nat) (st : List Int) : Bool :=
  let e := d.extent addr st
  let limit : Int := match sp with
    | 1 => 0x200000
    | 2 => f.s.windowSize (clusterOf f.t.ptn)
    | _ => 0x20000
  sp == 0 || (decide (0 ≤ e.1 ∧ e.2 < limit)
    && (sp != 3 || (addr % 4 == 0 && d.run % 4 == 0 && st.all fun x => x % 4 == 0)))

/-- The key under which a counter of this context is armed (R248). -/
def Frame.counterKey (f : Frame) (bca : Nat) : Nat := Key.pad f.c.id bca

/-- Whether a counter is armed at an address (R249). -/
def Frame.armedAt (f : Frame) (bca : Nat) : Bool := bca < 0x200000 && f.t.armed.contains (f.counterKey bca)

/-- Asks for a counter change at the end of the group's cycle (R249 to R251). -/
def Frame.atEnd (f : Frame) (x : CounterEnd) : Frame :=
  { f with c := { f.c with seq := { f.c.seq with ends := f.c.seq.ends ++ [x] } } }

/-- The checks of a descriptor operation before TAGBUSY, in the order of R239. -/
def Frame.checkDesc (f : Frame) (u : DescUse) (a b : Word) : Except Stop (CopyDesc × Frame) := do
  let at_ := b.toNat
  let _ ← need (at_ % 64 == 0 && at_ < 0x200000) (trapAt .align 0 at_)
  let _ ← f.needUnowned at_ 128
  let (w, f) ← f.padWords at_ 16
  let d := readDesc w
  let indexed := u == .gather || u == .scatter
  let _ ← need (descReserved w && d.bounds.all (· != 0) && 1 ≤ d.run && d.run ≤ 0x1000000 && u.fits d
    && (!d.bce || f.armedAt d.bca) && fld a 6 58 == 0) (trapOf .illenc)
  let _ ← need (f.sideOk d d.ssp d.saddr d.sstr) (trapAt .align 0 d.saddr)
  let _ ← need (f.sideOk d d.dsp d.daddr d.dstr) (trapAt .align 0 d.daddr)
  let _ ← need (!indexed || (d.idx % 16 == 0 && d.idx + d.listBytes ≤ 0x200000)) (trapAt .align 0 d.idx)
  let _ ← if indexed then f.needUnowned d.idx d.listBytes else .ok ()
  return (d, f)

/-- The blocks of a side in the scratchpad (R240). -/
def CopyDesc.sideBlocks (d : CopyDesc) (sp addr : Nat) (st : List Int) : List Nat :=
  if sp = 1 then
    let e := d.extent addr st
    blocksOf e.1.toNat (e.2 - e.1 + 1).toNat
  else []

/-- The ACS banks that a side meets (R203, R353). -/
def CopyDesc.sideBanks (d : CopyDesc) (sp addr : Nat) (st : List Int) : List TileUnit :=
  if sp = 3 then
    let e := d.extent addr st
    (rangeFrom (e.1.toNat / 16384) (e.2.toNat / 16384 - e.1.toNat / 16384 + 1)).map fun n => .acs (Fin.ofNat 8 n)
  else []

/-- Whether the strand that holds the tile's MXE has a call that has not completed (R218). -/
def Frame.mxeBusy (f : Frame) : Bool :=
  match (f.holderOf .mxe).bind f.s.ctx? with
  | none => false
  | some c => c.id != f.c.id && (c.mxe.run.isSome || c.mxe.fin.isSome || !c.mxe.queue.isEmpty)

/-- A descriptor operation (R242 to R244). -/
def descOp (u : DescUse) (w : Walk) (h : Slot) (a : Src) (s : State) : Host.Outcome State Fault Refusal :=
  settledOp true false false h a (fun f a b _ _ => do
    let (d, f) ← f.checkDesc u a b
    let indexed := u == .gather || u == .scatter
    let _ ← need (!bit f.t.tagbz (fld a 0 6)) (trapOf .tagbusy)
    let acs := d.sideBanks d.ssp d.saddr d.sstr ++ d.sideBanks d.dsp d.daddr d.dstr
    let f ← f.reachAll ((if !acs.isEmpty && f.mxeBusy then [.mxe] else []) ++ acs)
    f.issueTag (fld a 0 6)
      ((d.sideBlocks d.ssp d.saddr d.sstr ++ d.sideBlocks d.dsp d.daddr d.dstr
        ++ (if indexed then blocksOf d.idx d.listBytes else [])).eraseDups)
      (.copy d w (u == .detached))) s

/-- CPY_N (R242) -/
def execCpyN (h : Slot) (a : Src) (s : State) : Host.Outcome State Fault Refusal := descOp .copy .plain h a s
/-- CPY_ND (R242) -/
def execCpyNd (h : Slot) (a : Src) (s : State) : Host.Outcome State Fault Refusal := descOp .detached .plain h a s
/-- CE_GATH (R243) -/
def execCeGath (h : Slot) (a : Src) (s : State) : Host.Outcome State Fault Refusal := descOp .gather .gather h a s
/-- CE_SCAT (R243) -/
def execCeScat (h : Slot) (a : Src) (s : State) : Host.Outcome State Fault Refusal := descOp .scatter .scatter h a s
/-- ACC_LD (R244) -/
def execAccLd (h : Slot) (a : Src) (s : State) : Host.Outcome State Fault Refusal := descOp .accLd .plain h a s
/-- ACC_ST (R244) -/
def execAccSt (h : Slot) (a : Src) (s : State) : Host.Outcome State Fault Refusal := descOp .accSt .plain h a s

/-! ### Global atomics (R245) -/

/-- A global atomic: ILLENC, ALIGN, OWNF, then TAGBUSY (R231, R245). -/
def globalAtomic (o : AtomicOp) (h : Slot) (a : Src) (s : State) : Host.Outcome State Fault Refusal :=
  settledOp true true (atomicCompares o) h a (fun f a b c d => do
    let res := fld a 32 21
    let nr := bit a 7
    let narrow := bit a 6
    let _ ← need (fld a 53 11 == 0 && fld a 8 24 == 0) (trapOf .illenc)
    let _ ← need (b.toNat % (if narrow then 4 else 8) == 0) (trapAt .align 0 b.toNat)
    let _ ← need (nr || res % 8 == 0) (trapAt .align 0 res)
    let _ ← if nr then .ok () else f.needUnowned res 8
    f.issueTag (fld a 0 6) (if nr then [] else blocksOf res 8)
      (.atomic o narrow b.toNat (if nr then none else some res) c d)) s

/-- GA_ADD (R245) -/
def execGaAdd (h : Slot) (a : Src) (s : State) : Host.Outcome State Fault Refusal := globalAtomic .add h a s
/-- GA_AND (R245) -/
def execGaAnd (h : Slot) (a : Src) (s : State) : Host.Outcome State Fault Refusal := globalAtomic .and h a s
/-- GA_OR (R245) -/
def execGaOr (h : Slot) (a : Src) (s : State) : Host.Outcome State Fault Refusal := globalAtomic .or h a s
/-- GA_XOR (R245) -/
def execGaXor (h : Slot) (a : Src) (s : State) : Host.Outcome State Fault Refusal := globalAtomic .xor h a s
/-- GA_MIN (R245) -/
def execGaMin (h : Slot) (a : Src) (s : State) : Host.Outcome State Fault Refusal := globalAtomic .min h a s
/-- GA_MAX (R245) -/
def execGaMax (h : Slot) (a : Src) (s : State) : Host.Outcome State Fault Refusal := globalAtomic .max h a s
/-- GA_SWAP (R245) -/
def execGaSwap (h : Slot) (a : Src) (s : State) : Host.Outcome State Fault Refusal := globalAtomic .swap h a s
/-- GA_CAS (R245): C is the new value, D the comparand. -/
def execGaCas (h : Slot) (a : Src) (s : State) : Host.Outcome State Fault Refusal := globalAtomic .cas h a s

/-! ### Multicast stores, range operations and catalogue commands at issue (R246, R247, R261) -/

/-- MCST (R246) -/
def execMcst (h : Slot) (a : Src) (s : State) : Host.Outcome State Fault Refusal :=
  settledOp true true true h a (fun f a b c d => do
    let line := b.toNat
    let rec_ := fld c 32 21
    let _ ← need (fld a 6 58 == 0 && fld c 12 20 == 0 && fld c 53 11 == 0) (trapOf .illenc)
    let _ ← need (line % 256 == 0 && line < 0x200000) (trapAt .align 0 line)
    let _ ← need (rec_ % 16 == 0 && rec_ + 80 ≤ 0x200000) (trapAt .align 0 rec_)
    let _ ← need (d.toNat % 256 == 0 && d.toNat < 2 ^ 57) (trapAt .align 0 d.toNat)
    let _ ← f.needUnowned line 256
    let _ ← f.needUnowned rec_ 80
    f.issueTag (fld a 0 6) (blocksOf line 256 ++ blocksOf rec_ 80).eraseDups
      (.mcst line (fld c 0 12) rec_ d.toNat)) s

/-- WBR, INVR and PREF at issue (R247). -/
def rangeOp (o : RangeOp) (h : Slot) (a : Src) (s : State) : Host.Outcome State Fault Refusal :=
  settledOp true true true h a (fun f a b c d => do
    let _ ← need (fld a 6 58 == 0 && fld d 2 62 == 0 && (fld d 0 2 == 1 || fld d 0 2 == 2)
      && 1 ≤ c.toNat && c.toNat ≤ 2 ^ 40) (trapOf .illenc)
    f.issueTag (fld a 0 6) [] (.range o b.toNat c.toNat (fld d 0 2))) s

/-- WBR (R247) -/
def execWbr (h : Slot) (a : Src) (s : State) : Host.Outcome State Fault Refusal := rangeOp .wbr h a s
/-- INVR (R247) -/
def execInvr (h : Slot) (a : Src) (s : State) : Host.Outcome State Fault Refusal := rangeOp .invr h a s
/-- PREF (R247) -/
def execPref (h : Slot) (a : Src) (s : State) : Host.Outcome State Fault Refusal := rangeOp .pref h a s

/-- CAT_ARM (R261) -/
def execCatArm (h : Slot) (a : Src) (s : State) : Host.Outcome State Fault Refusal :=
  settledOp true true false h a (fun f a b c _ => do
    let _ ← need (fld a 18 46 == 0) (trapOf .illenc)
    let _ ← need (b.toNat % 64 == 0) (trapAt .align 0 b.toNat)
    f.issueTag (fld a 0 6) [] (.catArm (fld a 6 12) b.toNat (fld c 0 32))) s

/-- CAT_DISARM (R261) -/
def execCatDisarm (h : Slot) (a : Src) (s : State) : Host.Outcome State Fault Refusal :=
  settledOp false false false h a (fun f a _ _ _ => do
    let _ ← need (fld a 18 46 == 0) (trapOf .illenc)
    f.issueTag (fld a 0 6) [] (.catDisarm (fld a 6 12))) s

/-! ### Tag operations (R237) -/

/-- Waits for a condition on the tags: one that holds at the group's start does not wait (R237). -/
def tagWait (any : Bool) (cond : Word → Word → Word → Bool) (h : Slot) (a : Src) (s : State) :
    Host.Outcome State Fault Refusal :=
  copyOp false false false none h a (fun f a _ _ _ => do
    let _ ← need (cond f.t.snap.tags f.t.snap.tagbz a || cond f.t.tags f.t.tagbz a) (.stall (.tags a any) f)
    return (f, .quiet)) s

/-- WAITANY (R237) -/
def execWaitany (h : Slot) (a : Src) (s : State) : Host.Outcome State Fault Refusal :=
  tagWait true (fun tags busy m => tags &&& m != 0 || busy &&& m == 0) h a s

/-- WAITALL (R237) -/
def execWaitall (h : Slot) (a : Src) (s : State) : Host.Outcome State Fault Refusal :=
  tagWait false (fun _ busy m => busy &&& m == 0) h a s

/-- What FFR pushes: the lowest completed tag of the mask with its status, or bit 63 (R237). -/
def ffrValue (tags m : Word) (stats : Vector Byte 64) : Word :=
  match (List.range 64).find? fun t => bit tags t && bit m t with
  | some t => BitVec.ofNat 64 ((vget stats t 0).toNat * 256 + t)
  | none => 0x8000000000000000

/-- FFR (R237): never waits; sees the tags at the group's start. -/
def execFfr (h : Slot) (a : Src) (s : State) : Host.Outcome State Fault Refusal :=
  copyOp false false false (some 1) h a (fun f a _ _ _ =>
    .ok (f, .result 1 (pushWord 9 (ffrValue f.t.snap.tags a f.t.snap.stats) 0))) s

/-- CLRTAG (R237): the statuses of the cleared tags become zero. -/
def execClrtag (h : Slot) (a : Src) (s : State) : Host.Outcome State Fault Refusal :=
  settledOp false false false h a (fun f a _ _ _ =>
    .ok { f with t := { f.t with
      tags := f.t.tags &&& ~~~a
      stats := f.t.stats.mapFinIdx fun i x _ => if bit (f.t.tags &&& a) i then 0 else x } }) s

/-! ### Byte counters (R248 to R251) -/

/-- Whether a counter is complete (R248). -/
def State.counterComplete (s : State) (k : Nat) : Bool := s.counterBal k == 0 && s.counterPend k == 0

/-- Whether an engine other than an armed counter holds a block (R249). -/
def Frame.engineHolds (f : Frame) (b : Nat) : Bool :=
  f.s.claims.any fun k => k.ctx == f.c.id && k.live && k.blocks.contains b && (match k.holder with
    | .counter _ => false
    | _ => true)

/-- The counters that are armed once the group's cycle has ended. -/
def Frame.armedAfter (f : Frame) : List Nat :=
  f.c.seq.ends.foldl (fun l x => match x with
    | .init k _ _ => if l.contains k then l else l ++ [k]
    | _ => l) f.t.armed

/-- BC_INIT (R249): the record is written and the counter armed at the end of the cycle; one already armed is initialised
again. The checks are made in the order of R249. -/
def execBcInit (h : Slot) (a : Src) (s : State) : Host.Outcome State Fault Refusal :=
  settledOp true true false h a (fun f a b c _ => do
    let at_ := a.toNat
    let _ ← need (at_ % 16 == 0 && at_ < 0x200000) (trapAt .align 0 at_)
    let _ ← need (!f.engineHolds (at_ / 4096)) (trapAt .ownf 0 at_)
    let k := f.counterKey at_
    let _ ← need ((f.armedAfter.contains k || f.armedAfter.length < 64) && fld c 16 48 == 0) (trapOf .illenc)
    let f ← f.reach (blockUnit at_)
    let f ← f.access [(k, 16)] true
    return f.atEnd (.init k b (fld c 0 16))) s

/-- A counter update of the strand, at the end of its issue cycle (R250). -/
def counterOp (pend : Bool) (sign : Word → Word) (h : Slot) (a : Src) (s : State) : Host.Outcome State Fault Refusal :=
  settledOp true false false h a (fun f a b _ _ => do
    let k := f.counterKey a.toNat
    let _ ← need (f.armedAt a.toNat && (!pend || f.s.counterPend k != 0)) (trapOf .illenc)
    return f.atEnd (.add k (sign b) pend)) s

/-- ARRIVE_EXP (R250) -/
def execArriveExp (h : Slot) (a : Src) (s : State) : Host.Outcome State Fault Refusal := counterOp true id h a s
/-- BC_SUB (R250) -/
def execBcSub (h : Slot) (a : Src) (s : State) : Host.Outcome State Fault Refusal := counterOp false (- ·) h a s

/-- BC_WAIT as a trigger: B says whether it pushes, so the slot waits while B is not known (R147, R251). -/
def Frame.bcWaitTrig (f : Frame) (a : Src) : Trig :=
  let b := f.peekPort f.unit .b true
  { copyTrig f.unit a true false false (if bit b.low 1 then some 6 else none) with late := if b.waits then .never else .act }

/-- BC_WAIT (R251): the wait form waits until the counter is complete, the test form pushes PEND and BAL; both see the
record as the group's cycle began, and disarm at its end. A test form with K = 1, which a transfer may kill, disarms as it
pushes (R74, notes/assumptions/62.md). -/
def execBcWait (h : Slot) (a : Src) (s : State) : Host.Outcome State Fault Refusal :=
  runSlot h (fun f0 => trigger h (f0.bcWaitTrig a) (direct fun f a b _ _ => do
    let b := b.low
    let k := f.counterKey a.low.toNat
    let _ ← need (f.armedAt a.low.toNat) (trapOf .illenc)
    let whole := f.s.counterComplete k
    if bit b 1 then
      let f ← f.reach .queue
      let v := BitVec.ofNat 64 (f.s.counterPend k * 2 ^ 48 + fld (f.s.counterBal k) 0 48)
      let e := Effect.result 6 (pushWord 9 v 0)
      if h.kill then return (f, { e with disarm := if bit b 0 && whole then some k else none })
      else return (if bit b 0 && whole then f.atEnd (.disarm k) else f, e)
    else
      let _ ← need whole (.stall (.counter k) f)
      return (if bit b 0 then f.atEnd (.disarm k) else f, .quiet)) f0) s

/-- An arrival (R250): it subtracts from an armed counter, and changes no record of another. One for a counter
that a speculation has disarmed is kept in case of a mismatch. -/
def State.arrive (s : State) (ctx bca len : Nat) : State :=
  let k := Key.pad ctx bca
  match s.owner? ctx with
  | none => s
  | some t =>
    if t.armed.contains k then s.setCounter k (s.counterBal k - BitVec.ofNat 64 len) (s.counterPend k)
    else s.setStrand { t with spec := t.spec.map fun p =>
      { p with disarmed := updateIf p.disarmed (·.1 == k) fun x => (x.1, x.2 + len) } }

/-- COUNTER_ARRIVAL (R250): a part that lands elsewhere counts at a counter of this module. -/
def execCounterArrival (ctx bca len : Nat) (s : State) : Host.Outcome State Fault Refusal := (s.arrive ctx bca len).event

/-! ### TAG_COMMAND_ACCEPT, TAG_COMMAND_COMPLETE (R232, R235) -/

/-- A tag command by its identity. -/
def State.cmd? (s : State) (id : Nat) : Option Cmd := s.cmds.find? (·.id == id)
/-- Writes a tag command back. -/
def State.setCmd (s : State) (k : Cmd) : State := { s with cmds := replaceIf s.cmds (·.id == k.id) k }

/-- TAG_COMMAND_ACCEPT (R232): a held command is accepted once an entry of its engine is free. -/
def execTagCommandAccept (cmd : Nat) (s : State) : Host.Outcome State Fault Refusal :=
  match s.cmd? cmd with
  | none => s.event
  | some k =>
    if !k.accepted && s.activeEntries k.ptn k.engineB < 64 then (s.setCmd { k with accepted := true }).event
    else s.event

/-- Ends a command with a status: its claims are released; its tag is set afterwards (R235). -/
def State.endCmd (s : State) (k : Cmd) (code : Nat) : State :=
  (s.release (.cmd k.id)).setCmd { k with ended := true, status := code }

/-- TAG_COMMAND_COMPLETE (R235): the status and the tag are set and the entry is freed; a strand that is gone sees
nothing. -/
def execTagCommandComplete (cmd : Nat) (s : State) : Host.Outcome State Fault Refusal :=
  match s.cmd? cmd with
  | none => s.event
  | some k =>
    if !k.ended then s.event
    else
      let s := { s with cmds := s.cmds.filter (·.id != cmd) }
      match s.strand? k.sid with
      | none => s.event
      | some t =>
        let m := (1 : Word) <<< k.tag
        ((s.setStrand { t with
          stats := vset t.stats k.tag (BitVec.ofNat 8 k.status)
          tags := t.tags ||| m
          tagbz := t.tagbz &&& ~~~m
          detach := t.detach &&& ~~~m }).progress t.task).event

/-! ### The walk (R239, R241, R243) -/

/-- The bytes that a copy moves. -/
def CopyDesc.total (d : CopyDesc) : Nat := d.bounds.foldl (· * ·) d.run

/-- The index tuple of the n-th run, level 1 fastest (R239). -/
def tupleOf : List Nat → Nat → List Nat
  | [], _ => []
  | b :: bs, n => n % b :: tupleOf bs (n / b)

/-- An address with its level strides added, as 64 bits. -/
def strideAddr (addr : Nat) (ix : List Nat) (st : List Int) : Nat :=
  (((addr : Int) + ((ix.zip st).map fun (p : Nat × Int) => (p.1 : Int) * p.2).foldl (· + ·) 0) % 2 ^ 64).toNat

/-- A piece of a run: its two addresses, none for the inactive side of an index entry (R243), and its length. -/
structure Seg where
  src : Option Nat
  dst : Option Nat
  n   : Nat
deriving DecidableEq, Repr

/-- The index entry of a gather or scatter; none when it is all ones (R243). -/
def State.indexEntry (s : State) (ctx : Nat) (d : CopyDesc) (i : Nat) : Option Nat :=
  let w := 2 ^ (2 + d.iw)
  let v := Memory.num s.mem (Key.pad ctx (d.idx + w * i)) w
  if v + 1 = 2 ^ (8 * w) then none else some v

/-- The rest of the run that byte `pos` of the walk lies in (R239, R243). -/
def State.segAt (s : State) (ctx : Nat) (d : CopyDesc) (w : Walk) (pos : Nat) : Seg :=
  let ix := tupleOf d.bounds (pos / d.run)
  let o := pos % d.run
  let plain (addr : Nat) (st : List Int) : Option Nat := some ((strideAddr addr ix st + o) % 2 ^ 64)
  let indexed (addr : Nat) (st : List Int) : Option Nat :=
    (s.indexEntry ctx d (ix.headD 0)).map fun u => (strideAddr addr (u :: ix.drop 1) st + o) % 2 ^ 64
  match w with
  | .plain => ⟨plain d.saddr d.sstr, plain d.daddr d.dstr, d.run - o⟩
  | .gather => ⟨indexed d.saddr d.sstr, plain d.daddr d.dstr, d.run - o⟩
  | .scatter => ⟨plain d.saddr d.sstr, indexed d.daddr d.dstr, d.run - o⟩

/-- What is left of a 64 KiB region from a global address; other spaces and inactive sides set no limit. -/
def regionLeft (sp : Nat) (a : Option Nat) : Nat :=
  match sp, a with
  | 0, some x => 65536 - x % 65536
  | _, _ => 65536

/-- The region of a global side (R241). -/
def regionOf (sp : Nat) (a : Option Nat) : Option Nat := if sp = 0 then a.map (· / 65536) else none

/-- Whether a piece may join a chunk with a region on a side (R241). -/
def sameRegion (have_ new : Option Nat) : Bool :=
  match have_, new with
  | some x, some y => x == y
  | _, _ => true

/-- The pieces of a chunk from byte `pos` on: at most 64 KiB, one region on each global side (R241). -/
def State.chunkGo (s : State) (ctx : Nat) (d : CopyDesc) (w : Walk) :
    Nat → Nat → Nat → Option Nat → Option Nat → List Seg
  | 0, _, _, _, _ => []
  | fuel + 1, pos, room, rs, rd =>
    if room = 0 ∨ d.total ≤ pos then []
    else
      let g := s.segAt ctx d w pos
      let ns := regionOf d.ssp g.src
      let nd := regionOf d.dsp g.dst
      if !sameRegion rs ns || !sameRegion rd nd then []
      else
        let n := min (min g.n room) (min (regionLeft d.ssp g.src) (regionLeft d.dsp g.dst))
        { g with n := n } :: s.chunkGo ctx d w fuel (pos + n) (room - n) (rs.orElse fun _ => ns) (rd.orElse fun _ => nd)

/-- The next chunk of a copy (R241). -/
def State.chunkAt (s : State) (ctx : Nat) (d : CopyDesc) (w : Walk) (pos : Nat) : List Seg :=
  s.chunkGo ctx d w 65536 pos 65536 none none

/-! ### Reading and writing the four spaces (R238, R241) -/

/-- Why a command fails: a translation that is refused, with its address, or uncorrectable data at an address
(R235). -/
inductive CmdFail
  | page (acc : Access) (why va : Nat)
  | mchk (addr : Nat)
deriving DecidableEq, Repr

/-- The status code of a failure (R235). -/
def CmdFail.code : CmdFail → Nat
  | .page _ 0 _ => 1
  | .page _ 1 _ => 2
  | .page _ _ _ => 4
  | .mchk _ => 3

/-- What translates for a tag command: its engine's micro-TLB and its cluster's TLB (R363). -/
def Cmd.tlbs (k : Cmd) : List TlbHolder := [.engine k.ptn k.engineB, .cluster (clusterOf k.ptn)]

/-- The route to the module that holds a global address; an address with no translation needs none (R314). -/
def State.vaRoute (s : State) (hs : List TlbHolder) (va : Nat) : Route :=
  match s.translateFor hs va with
  | .page pa _ _ _ => s.route (s.paModule pa)
  | .fail _ => .open_

/-- Whether a virtual address leads to another module (R264). -/
def State.vaFar (s : State) (hs : List TlbHolder) (va : Nat) : Bool :=
  match s.translateFor hs va with
  | .page pa _ _ _ => s.paModule pa != s.modId
  | .fail _ => false

/-- The key of a global byte for a command (R241, R314). -/
def State.globalKey (s : State) (hs : List TlbHolder) (acc : Access) (va : Nat) : Except CmdFail Nat :=
  match s.locateFor hs acc va with
  | .error why => .error (.page acc why va)
  | .ok k => if s.vaRoute hs va = .none then .error (.page acc 2 va) else .ok k

/-- Reads bytes of a space for a command (R241, R371). -/
def State.readSide (s : State) (k : Cmd) (sp a n : Nat) : Except CmdFail (List Byte × State) :=
  match sp with
  | 0 => do
    let key ← s.globalKey k.tlbs .read a
    if s.bad key n then .error (.mchk a)
    else return (Memory.read s.mem key n, (s.keepPage k.tlbs a).noteRead (dieOf k.ptn) key n)
  | 1 => if s.bad (Key.pad k.ctx a) n then .error (.mchk a) else .ok (Memory.read s.mem (Key.pad k.ctx a) n, s)
  | 2 =>
    if s.bad (Key.window (clusterOf k.ptn) a) n then .error (.mchk a)
    else .ok (s.windowBytes (clusterOf k.ptn) a n, s)
  | _ => if s.bad (Key.acs k.ctx a) n then .error (.mchk a) else .ok (Memory.read s.mem (Key.acs k.ctx a) n, s)

/-- Where a command's write of a space goes: a global address is translated (R241). -/
def State.sidePlace (s : State) (k : Cmd) (sp a : Nat) : Except CmdFail Nat :=
  if sp = 0 then s.globalKey k.tlbs .write a else .ok a

/-- Writes bytes of a space for a command at a place that is known (R241). -/
def State.writePlace (s : State) (k : Cmd) (sp a key : Nat) (bs : List Byte) : State :=
  match sp with
  | 0 => ((s.keepPage k.tlbs a).write key bs).noteWrite (dieOf k.ptn) key bs.length
  | 1 => s.write (Key.pad k.ctx a) bs
  | 2 => s.windowWrite (clusterOf k.ptn) a bs
  | _ => { s.write (Key.acs k.ctx a) bs with ctxs := updateIf s.ctxs (·.id == k.ctx) fun c => c.markAcs a bs.length }

/-- Writes bytes of a space for a command (R241). -/
def State.writeSide (s : State) (k : Cmd) (sp a : Nat) (bs : List Byte) : Except CmdFail State :=
  (s.sidePlace k sp a).map fun key => s.writePlace k sp a key bs

/-- Reads the source pieces of a chunk; an inactive gather entry gives zeros (R243). -/
def State.readSegs (s : State) (k : Cmd) (sp : Nat) : List Seg → Except CmdFail (List (List Byte) × State)
  | [] => .ok ([], s)
  | g :: gs => do
    let (b, s) ← match g.src with
      | none => .ok (List.replicate g.n 0, s)
      | some a => s.readSide k sp a g.n
    let (l, s) ← s.readSegs k sp gs
    return (b :: l, s)

/-- The places of the destination pieces of a chunk, translated before any of them is written: a region keeps one
translation to the chunk's end (R241). An inactive scatter entry has none (R243). -/
def State.segPlaces (s : State) (k : Cmd) (sp : Nat) : List (Seg × List Byte) → Except CmdFail (List (Nat × Nat × List Byte))
  | [] => .ok []
  | (g, b) :: gs => do
    let l ← match g.dst with
      | none => .ok []
      | some a => (s.sidePlace k sp a).map fun key => [(a, key, b)]
    let r ← s.segPlaces k sp gs
    return l ++ r

/-- Writes the destination pieces of a chunk (R241, R243). -/
def State.writeSegs (s : State) (k : Cmd) (sp : Nat) (l : List (Seg × List Byte)) : Except CmdFail State :=
  (s.segPlaces k sp l).map fun r => r.foldl (fun s p => s.writePlace k sp p.1 p.2.1 p.2.2) s

/-- Makes bytes of a space undefined, where they can be reached (R235, R240). -/
def State.undefineSide (s : State) (k : Cmd) (sp a n : Nat) : State :=
  match s.writeSide k sp a (freeBytes s.fresh a n) with
  | .ok t => { t with fresh := t.fresh + 1 }
  | .error _ => s

/-! ### Copies (R240 to R243) -/

/-- The destination pieces from byte `pos` of the walk on, none crossing a region. -/
def State.restGo (s : State) (ctx : Nat) (d : CopyDesc) (w : Walk) : Nat → Nat → List Seg
  | 0, _ => []
  | fuel + 1, pos =>
    if d.total ≤ pos then []
    else
      let g := s.segAt ctx d w pos
      let n := min g.n (min (regionLeft d.ssp g.src) (regionLeft d.dsp g.dst))
      { g with n := n } :: s.restGo ctx d w fuel (pos + n)

/-- Abandons the chunks from byte `pos` on: their destination bytes are undefined (R235). -/
def State.abandonCopy (s : State) (k : Cmd) (d : CopyDesc) (w : Walk) (pos : Nat) : State :=
  (s.restGo k.ctx d w (d.total - pos) pos).foldl
    (fun s g => match g.dst with | some a => s.undefineSide k d.dsp a g.n | none => s) s

/-- The part of a piece's destination that the source pieces also meet. -/
def overlapOf (g : Seg) (l : List Seg) : List (Nat × Nat) :=
  match g.dst with
  | none => []
  | some a => l.filterMap fun x => x.src.bind fun b =>
      let lo := max a b
      let hi := min (a + g.n) (b + x.n)
      if lo < hi then some (lo, hi - lo) else none

/-- The overlapped bytes of a command whose destination meets its source, in one space, are undefined (R240). -/
def State.undefineOverlap (s : State) (k : Cmd) (d : CopyDesc) (w : Walk) : State :=
  let es := d.extent d.saddr d.sstr
  let ed := d.extent d.daddr d.dstr
  if d.ssp = d.dsp ∧ (w ≠ .plain ∨ (es.1 ≤ ed.2 ∧ ed.1 ≤ es.2)) then
    let l := s.restGo k.ctx d w d.total 0
    ((l.map fun g => overlapOf g l).flatten).foldl (fun (s : State) (p : Nat × Nat) => s.undefineSide k d.dsp p.1 p.2) s
  else s

/-- Ends a command with a failure: what is left is abandoned by the caller; a refused translation is recorded, and
uncorrectable data fails the task (R235, R352, R365). -/
def State.failCmd (s : State) (k : Cmd) (e : CmdFail) : State :=
  let s := match e with
    | .page acc why va => match s.strand? k.sid with
      | some t => s.informStrand t 1 acc why va
      | none => s.inform 1 acc why va k.ptn 0 0
    | .mchk a => s.machineCheckOf k.sid (if k.engineB then 4 else 3) a
  s.endCmd k e.code

/-- The first index entry of the runs from byte `pos` on, `n` bytes, that is uncorrectable (R235, R371). -/
def State.badEntry (s : State) (k : Cmd) (d : CopyDesc) (w : Walk) (pos n : Nat) : Option Nat :=
  if w = .plain ∨ n = 0 then none
  else
    let wd := 2 ^ (2 + d.iw)
    ((rangeFrom (pos / d.run) ((pos + n - 1) / d.run - pos / d.run + 1)).map fun r => d.idx + wd * (r % d.bounds.headD 1)).find?
      fun a => s.bad (Key.pad k.ctx a) wd

/-- Moves the bytes of a chunk, after a look at the index entries it needs (R241, R371). -/
def State.moveChunk (s : State) (k : Cmd) (d : CopyDesc) (w : Walk) (segs : List Seg) (n : Nat) : Except CmdFail State :=
  match s.badEntry k d w k.pos n with
  | some a => .error (.mchk a)
  | none => (s.readSegs k d.ssp segs).bind fun r => r.2.writeSegs k d.dsp (segs.zip r.1)

/-- One chunk of a copy (R241, R242). -/
def State.copyChunk (s : State) (k : Cmd) (d : CopyDesc) (w : Walk) : State :=
  let segs := s.chunkAt k.ctx d w k.pos
  let n := (segs.map (·.n)).foldl (· + ·) 0
  match s.moveChunk k d w segs n with
  | .error e => (s.abandonCopy k d w k.pos).failCmd k e
  | .ok t =>
    let t := if d.bce then t.arrive k.ctx d.bca n else t
    let k := { k with pos := k.pos + n }
    if d.total ≤ k.pos then (t.undefineOverlap k d w).endCmd k 0 else t.setCmd k

/-! ### Atomics at their home (R245) -/

/-- A value of 32 or 64 bits, as 64. -/
def widened (narrow : Bool) (w : Word) : Word := if narrow then (w.extractLsb' 0 32).signExtend 64 else w

/-- A global atomic at its home (R245): it is one step, and writes nothing on failure. -/
def State.atomicChunk (s : State) (k : Cmd) (o : AtomicOp) (narrow : Bool) (va : Nat) (res : Option Nat)
    (c d : Word) : State :=
  let n := if narrow then 4 else 8
  match s.globalKey k.tlbs .write va with
  | .error e => s.failCmd k e
  | .ok key =>
    if s.bad key n then s.failCmd k (.mchk va)
    else
      let s := s.keepPage k.tlbs va
      let old := BitVec.ofNat 64 (Memory.num s.mem key n)
      let new := atomicNew o (widened narrow old) (widened narrow c) (widened narrow d)
      let die := dieOf k.ptn
      let s := s.noteRead die key n
      let s := if atomicCompares o ∧ widened narrow old ≠ widened narrow d then s
        else (s.write key (bytesLE n new.toNat)).noteWrite die key n
      let s := match res with
        | none => s
        | some a => s.write (Key.pad k.ctx a) (wordBytes old)
      s.endCmd k 0

/-! ### Range operations (R247) -/

/-- One chunk of a range operation: no value changes; a chunk that PREF cannot translate is skipped (R247). -/
def State.rangeChunk (s : State) (k : Cmd) (o : RangeOp) (base len : Nat) : State :=
  let lo := base / 256 * 256
  let total := (base + len + 255) / 256 * 256 - lo
  let va := lo + k.pos
  let n := min (total - k.pos) (65536 - va % 65536)
  let k' := { k with pos := k.pos + n }
  let kept := s.keepPage k.tlbs va
  let next := if total ≤ k'.pos then kept.endCmd k' 0 else kept.setCmd k'
  match s.globalKey k.tlbs .read va, o with
  | .ok _, _ => next
  | .error _, .pref => next
  | .error e, _ => s.failCmd k e

/-! ### Groups (R288 to R290) -/

/-- A member word as a member (R288). -/
def memberOf (w : BitVec 32) : Member := ⟨fld w 10 12, fld w 0 10⟩

/-- Whether a member word is valid (R288, R289). -/
def memberValid (w : BitVec 32) : Bool := bit w 31 && fld w 10 12 ≤ 2303

/-- The valid entry of a group with its header, as its last header write left it (R289, R290). -/
def State.group (s : State) (g : Nat) : Option (Word × List Member) :=
  match s.groups.find? (·.1 == g) with
  | none => none
  | some (_, h, ws) =>
    let n := fld h 0 9 + 1
    let ms := (List.range n).map fun m => ws.getD m 0
    let l := ms.map memberOf
    if bit h 63 && fld h 9 53 == 0 && ms.all memberValid && l.eraseDups.length == n then some (h, l) else none

/-- A tile of this module as a member. -/
def State.here (s : State) (ptn : Nat) : Member := ⟨s.modId, ptn⟩

/-! ### Multicast stores (R246, R308, R318) -/

/-- Counts a member's answer at the issuing command (R308). -/
def State.countAnswer (s : State) (cmd idx : Nat) (ok : Bool) : State :=
  match s.cmd? cmd with
  | none => s
  | some k =>
    if k.acks.contains idx || k.negs.contains idx then s
    else s.setCmd (if ok then { k with acks := k.acks ++ [idx] } else { k with negs := k.negs ++ [idx] })

/-- Sends the replica of one module: within this one, or through the switch; members that no route reaches are negative
(R308, R314, R390). -/
def State.sendReplica (s : State) (r : Replica) : State :=
  if r.dest = s.modId then { s with replicas := s.replicas ++ [r] }
  else if s.route r.dest = .none then r.members.foldl (fun s m => s.countAnswer r.cmd m.1 false) s
  else s.send r.dest (.replica r)

/-- The members of a module, by index and tile. -/
def membersAt (ms : List Member) (m : Nat) : List (Nat × Nat) :=
  (ms.zipIdx.filter fun p => p.1.modu == m).map fun p => (p.2, p.1.ptn)

/-- The line is sent once to every module that has members in the group's snapshot (R308). -/
def State.mcstSend (s : State) (k : Cmd) (line grp va : Nat) : State :=
  match s.group grp with
  | none => s.endCmd k 6
  | some (h, ms) =>
    if !bit h 62 then s.endCmd k 6
    else if s.bad (Key.pad k.ctx line) 256 then s.failCmd k (.mchk line)
    else
      let bs := Memory.read s.mem (Key.pad k.ctx line) 256
      let s := s.setCmd { k with pos := 1, members := some ms }
      ((ms.map (·.modu)).eraseDups).foldl (fun s m =>
        s.sendReplica ⟨k.id, s.modId, m, membersAt ms m, [], [], va, bs, s.cur.toNat, 0⟩) s

/-- The answers of a module's members go back to the issuer, in one acknowledgement from another module (R308). -/
def State.answerReplica (s : State) (r : Replica) : State :=
  if r.frm = s.modId then
    r.negs.foldl (fun s m => s.countAnswer r.cmd m false) (r.acks.foldl (fun s m => s.countAnswer r.cmd m true) s)
  else s.send r.frm (.mcAck r.frm r.cmd r.acks r.negs)

/-- Every member that a replica has yet to reach refuses it (R308, R312). -/
def refuseRest (r : Replica) : Replica := { r with members := [], negs := r.negs ++ r.members.map (·.1) }

/-- The stamp's die for a write that a replica makes: the issuing tile's within the module, else the base die of the port
(R282, notes/assumptions/74.md). -/
def State.replicaDie (s : State) (r : Replica) : Nat :=
  if r.frm = s.modId then ((s.cmd? r.cmd).map fun k => dieOf k.ptn).getD 8 else portDie r.port

/-- A member translates now, and writes all 256 bytes or refuses (R246, R308, R318). -/
def State.memberWrites (s : State) (r : Replica) : State × Bool :=
  match s.globalKey [] .write r.va with
  | .error _ => (s, false)
  | .ok key => ((s.write key r.line).noteWrite (s.replicaDie r) key 256, true)

/-- MCST_REPLICA_ARRIVE (R308, R312, R318): the next member of the module writes the line or refuses it; the last one's
answer sends the module's acknowledgement. A replica of another topology version is refused, and one whose place lies behind a
port that retrains waits (R314). -/
def execMcstReplicaArrive (r : Replica) (s : State) : Host.Outcome State Fault Refusal :=
  let s := { s with replicas := s.replicas.erase r }
  if r.frm ≠ s.modId ∧ r.ver ≠ s.cur.toNat then (s.answerReplica (refuseRest r)).event
  else if s.rangeWaits r.va 256 then ({ s with replicas := s.replicas ++ [r] } : State).event
  else match r.members with
    | [] => (s.answerReplica r).event
    | m :: l =>
      let w := s.memberWrites r
      let r := if w.2 then { r with members := l, acks := r.acks ++ [m.1] } else { r with members := l, negs := r.negs ++ [m.1] }
      (if l.isEmpty then w.1.answerReplica r else { w.1 with replicas := w.1.replicas ++ [r] }).event

/-- NBMP of an acknowledgement record (R246). -/
def negBitmap (negs : List Nat) : Nat := ((List.range 512).map fun m => if negs.contains m then 2 ^ m else 0).foldl (· + ·) 0

/-- Whether every member of a multicast store has answered (R308). -/
def Cmd.answered (k : Cmd) : Bool :=
  match k.members with
  | none => false
  | some ms => (List.range ms.length).all fun m => k.acks.contains m || k.negs.contains m

/-- MCST_ACK_ARRIVE (R246, R308, R312): the aggregated answer of the other modules' members, unless it is stale; when every
member has answered, the record is written and the command ends. Members of this module answer by themselves. -/
def execMcstAckArrive (cmd : Nat) (ack : FarAck) (s : State) : Host.Outcome State Fault Refusal :=
  match s.cmd? cmd with
  | none => s.event
  | some k => match k.kind, k.members with
    | .mcst _ _ rec_ _, some ms =>
      let far := if s.delivered (some ack.ver) then (ms.zipIdx.filter fun p => p.1.modu != s.modId).map (·.2) else []
      let s := far.foldl (fun s m => s.countAnswer cmd m (!ack.negs.contains m)) s
      match s.cmd? cmd with
      | none => s.event
      | some k =>
        if k.answered && !k.ended then
          let s := s.write (Key.pad k.ctx rec_)
            (bytesLE 8 (k.acks.length + k.negs.length * 65536) ++ bytesLE 8 0 ++ bytesLE 64 (negBitmap k.negs))
          (s.endCmd k (if k.negs.isEmpty then 0 else 5)).event
        else s.event
    | _, _ => s.event

/-! ### Catalogue commands (R261, R309) -/

/-- CATB.V (R309). -/
def State.catPresent (s : State) : Bool := bit s.catb 63
/-- The address of a catalogue record (R309). -/
def State.catAddr (s : State) (index : Nat) : Nat := fld s.catb 18 39 * 2 ^ 18 + 64 * index
/-- The armed entry of an index. -/
def State.catEntry (s : State) (index : Nat) : Option CatEntry := s.cat.find? (·.index == index)
/-- The queue of a strand's task. -/
def State.queueOf (s : State) (sid : Nat) : Nat := (((s.strand? sid).bind fun t => s.task? t.task).map (·.queue)).getD 0

/-- CAT.ARM runs: the record is read, written to the catalogue, and the entry is armed (R261). -/
def State.armEntry (s : State) (k : Cmd) (index va budget : Nat) : State :=
  if !s.catPresent || (s.catEntry index).isSome then s.endCmd k 7
  else match (s.readSide k 0 va 64).bind fun r => r.2.writeSide k 0 (s.catAddr index) r.1 with
  | .error e => s.failCmd k e
  | .ok t =>
    ({ t with cat := ⟨index, s.queueOf k.sid, if budget = 0 then none else some budget⟩ :: t.cat } : State).endCmd k 0

/-- CAT.DISARM runs: the entry is disarmed at once; its tag waits for the launches already accepted (R261). -/
def State.disarmEntry (s : State) (k : Cmd) (index : Nat) : State :=
  match s.catEntry index with
  | none => s.endCmd k 7
  | some e =>
    if !s.catPresent || e.queue != s.queueOf k.sid then s.endCmd k 7
    else ({ s with cat := s.cat.filter (·.index != index) } : State).setCmd { k with pos := 1 }

/-- Whether a launch accepted from a catalogue entry has still to be placed: a Pending task, or a graph that waits for its
slot (R261, R335). -/
def State.launchPending (s : State) (index : Nat) : Bool :=
  (s.tasks.any fun t => t.st == .pending && (match t.src with
    | .catalogue _ e => e == index
    | _ => false))
  || s.graphs.toList.any fun g => g.waitq.any fun w => !w.own && w.idx == index

/-- CATALOGUE_DISARM_COMPLETE (R261) -/
def execCatalogueDisarmComplete (cmd : Nat) (s : State) : Host.Outcome State Fault Refusal :=
  match s.cmd? cmd with
  | none => s.event
  | some k => match k.kind with
    | .catDisarm index =>
      if k.pos = 1 && !k.ended && !s.launchPending index then (s.endCmd k 0).event else s.event
    | _ => s.event

/-! ### COPY_CHUNK (R232, R241) -/

/-- Whether an address lies on an HT page (R285). -/
def State.onHt (s : State) (hs : List TlbHolder) (va : Nat) : Bool :=
  match s.translateFor hs va with
  | .page _ _ _ ht => ht
  | .fail _ => false

/-- The global addresses that a command's next chunk meets. -/
def State.nextGlobals (s : State) (k : Cmd) : List Nat :=
  match k.kind with
  | .copy d w _ =>
    let l := s.chunkAt k.ctx d w k.pos
    (if d.ssp = 0 then (l.filterMap (·.src)).take 1 else []) ++ (if d.dsp = 0 then (l.filterMap (·.dst)).take 1 else [])
  | .atomic _ _ va _ _ _ => [va]
  | .range _ base _ _ => [base / 256 * 256 + k.pos]
  | .catArm index va _ => [va, s.catAddr index]
  | _ => []

/-- Whether the next accesses of a command meet an HT page; a multicast store meets that of its address (R240, R285). -/
def State.nextOnHt (s : State) (k : Cmd) : Bool :=
  (s.nextGlobals k).any (s.onHt k.tlbs) || (match k.kind with | .mcst _ _ _ va => s.onHt k.tlbs va | _ => false)

/-- Whether a command has still to access an HT page (R240, R285). -/
def State.htLeft (s : State) (k : Cmd) : Bool :=
  match k.kind with
  | .copy d w _ => (s.restGo k.ctx d w (d.total - k.pos) k.pos).any fun g =>
      (d.ssp == 0 && g.src.any (s.onHt k.tlbs)) || (d.dsp == 0 && g.dst.any (s.onHt k.tlbs))
  | .range _ base len _ =>
    (List.range (len / 65536 + 2)).any fun i => s.onHt k.tlbs (base / 65536 * 65536 + 65536 * i)
  | _ => s.nextOnHt k

/-- Whether two virtual addresses name one location of eight bytes (R245, R264). -/
def State.sameLocation (s : State) (hs : List TlbHolder) (v w : Nat) : Bool :=
  match s.translateFor hs v, s.translateFor hs w with
  | .page p _ _ _, .page q _ _ _ => s.paKey p / 8 == s.paKey q / 8
  | _, _ => v / 8 == w / 8

/-- Whether an earlier command of the strand must first finish: accesses to HT pages, and atomics to one location, are
performed in the order of issue (R240, R245, R285). -/
def State.mustFollow (s : State) (k : Cmd) : Bool :=
  let earlier := s.cmds.filter fun j => j.sid == k.sid && j.id < k.id && !j.ended
  (earlier.any fun j => match j.kind, k.kind with
    | .atomic _ _ v _ _ _, .atomic _ _ w _ _ _ => s.sameLocation k.tlbs v w
    | _, _ => false)
  || (!earlier.isEmpty && s.nextOnHt k && earlier.any s.htLeft)

/-- Whether every access that a context issued before a command is performed: none is held or still drains, and none is on
its way to the window (R240, R275). -/
def State.coreDone (s : State) (k : Claim) : Bool :=
  ((s.ctx? k.ctx).all fun c => c.held.all fun x => k.before ≤ x.rid || !x.pending || x.foot == some [])
    && ((s.owner? k.ctx).all fun t => t.drain.all fun x => x.ctx != k.ctx || k.before ≤ x.rid)
    && s.win.all fun a => a.ctx != k.ctx || k.before ≤ a.rid

/-- Whether a command has a chunk to perform now: none earlier than 7 cycles after its issue, which R240 asks of those
of the window, and none before what the core issued earlier (R232, R240, R314). -/
def State.chunkReady (s : State) (k : Cmd) : Bool :=
  k.accepted && !k.ended && k.started + 7 ≤ s.cycle
    && (match k.kind with
        | .mcst _ _ _ _ => k.pos == 0
        | .catDisarm _ => k.pos == 0
        | _ => true)
    && (s.claims.all fun c => c.holder != .cmd k.id || (c.live && s.claimClear c && s.coreDone c))
    && !s.mustFollow k
    && (s.nextGlobals k).all fun va => s.vaRoute k.tlbs va != .wait

/-- COPY_CHUNK (R241): a command performs its next chunk. -/
def execCopyChunk (cmd : Nat) (s : State) : Host.Outcome State Fault Refusal :=
  match s.cmd? cmd with
  | none => s.event
  | some k =>
    if !s.chunkReady k then s.event
    else match k.kind with
      | .copy d w _ => (s.copyChunk k d w).event
      | .atomic o narrow va res c d => (s.atomicChunk k o narrow va res c d).event
      | .mcst line grp _ va => (s.mcstSend k line grp va).event
      | .range o base len _ => (s.rangeChunk k o base len).event
      | .catArm index va budget => (s.armEntry k index va budget).event
      | .catDisarm index => (s.disarmEntry k index).event

end Sys2Proof.Machine
end

