-- ==== Sys2Proof/Machine/System.lean ====
section
/-! DEFINITION. System registers, interleave domains and the return from a trap handler (R138, R153 to R157, R234,
R253, R266 to R271, R291, R309, R310, R347 to R349, R359, R366, R376). -/

namespace Sys2Proof.Machine

/-! ### Reading system registers (R154) -/

/-- WIN (R138). -/
def Frame.readWin (f : Frame) : Word := BitVec.ofNat 64 (f.banks * 2 ^ 16 + f.c.depth)

/-- The sixteen bits of AGS for one agreement slot (R376). -/
def AgSlot.bits (a : AgSlot) : Nat :=
  (if a.joined then 2 ^ 15 else 0) + (if a.out then 2 ^ 14 else 0) + (if a.pm then 2 ^ 13 else 0)
    + (if a.lv then 2 ^ 12 else 0) + a.lst % 16 * 2 ^ 8 + a.rnd.toNat

/-- AGS (R376). -/
def Strand.readAgs (t : Strand) : Word :=
  BitVec.ofNat 64 ((t.ags.toList.zipIdx.map fun p => p.1.bits * 2 ^ (16 * p.2)).foldl (· + ·) 0)

/-- TOPOV (R310). -/
def State.readTopov (s : State) : Word :=
  BitVec.ofNat 64 ((if s.swp then 2 ^ 8 else 0) + s.stg.toNat * 16 + s.cur.toNat)

/-- OWNn (R155). -/
def Frame.readOwn (f : Frame) (n : Nat) : Word :=
  BitVec.ofNat 64 (((List.range 32).map fun i => if f.ownerBit (32 * n + i) then 2 ^ i else 0).foldl (· + ·) 0)

/-- DONE of a channel: the lowest incomplete ID, or the next one (R253). -/
def Chan.doneId (c : Chan) : Nat := c.open_.foldl min c.next

/-- XDONEn (R253). -/
def Strand.readXdone (t : Strand) (n : Nat) : Word := BitVec.ofNat 64 ((vget t.chans n Chan.start).doneId % 2 ^ 48)

/-- The strand's own die's domain register, with BUSY (R267). -/
def Frame.readDomain (f : Frame) (n : Nat) : Word :=
  let d := vget f.s.dies (dieOf f.t.ptn) resetDie
  vget d.dom n 0 ||| (if vget d.busy n false then (1 : Word) <<< 61 else 0)

/-- Whether a register needs privilege to be read (R154). -/
def readNeeds (n : Nat) : Bool := (0x30 ≤ n && n < 0x38) || (0x40 ≤ n && n < 0x50)

/-- Whether a register needs privilege to be written (R154). -/
def writeNeeds (n : Nat) : Bool := (0x08 ≤ n && n < 0x0E) || readNeeds n

/-- The value of a system register; an unlisted number reads as zero (R154). -/
def Frame.readSystem (f : Frame) (n : Nat) : Word :=
  if n < 0x10 then
    match n with
    | 0x00 => f.fpstFound
    | 0x01 => (if f.c.again.isSome then f.c.slk else f.t.snap.ctx.slk).zeroExtend 64
    | 0x02 => f.readWin
    | 0x03 => f.t.heart
    | 0x04 => f.t.readAgs
    | 0x05 => f.t.snap.tags
    | 0x06 => f.t.snap.tagbz
    | 0x07 => f.s.readTopov
    | 0x08 => f.c.spill
    | 0x09 => f.t.tvec
    | 0x0A => f.t.csa
    | 0x0B => f.t.wdt.zeroExtend 64
    | 0x0C => f.t.ttb
    | 0x0D => f.s.catb
    | _ => 0
  else if n < 0x20 then f.readOwn (n - 0x10)
  else if n < 0x30 then f.t.readXdone (n - 0x20)
  else if n < 0x38 then vget f.t.tsave (n - 0x30) 0
  else if 0x40 ≤ n ∧ n < 0x50 then f.readDomain (n - 0x40)
  else 0

/-- RDSR as a trigger: it pushes (R73, R154). -/
def rdsrTrig (a : Src) : Trig := { controlTrig (some a) false false [.queue] with lat := some 1, tag := fun _ => 9 }

/-- RDSR (R154): a read of FPST while an operation is held stalls until its flags are there (R147). -/
def execRdsr (h : Slot) (a : Src) (s : State) : Host.Outcome State Fault Refusal :=
  runSlot h (trigger h (rdsrTrig a) (direct fun f a _ _ _ => do
    let n := fld a.low 0 8
    let _ ← need (!readNeeds n || f.privileged) (trapOf .priv)
    let _ ← need (n != 0 || !f.holdsOther) (.stall .buffer f)
    return (f, .result 1 (pushWord 9 (f.readSystem n) 0)))) s

/-! ### Interleave domains (R266 to R271) -/

/-- The number of ones in a field. -/
def fieldOnes (w : Word) (lo len : Nat) : Nat := onesCount len (fld w lo len)

/-- The member slices of a domain (R267). -/
def domainMembers (w : Word) : Nat := fieldOnes w 44 8 * fieldOnes w 28 16

/-- Whether a domain word keeps the conditions that name it alone (R269). -/
def domainLegal (w : Word) : Bool :=
  (!bit w 63 || ((List.range 8).any (fun k => domainMembers w == 2 ^ k && fieldOnes w 0 16 == k)))
    && (if fld w 54 6 = 0 then !bit w 60 else 8 ≤ fld w 54 6 && fld w 54 6 ≤ 51)
    && fld w 23 5 ≤ 16 && fld w 52 2 == 0 && fld w 16 7 == 0

/-- Whether two domains share a member slice (R269). -/
def domainsOverlap (a b : Word) : Bool :=
  bit a 63 && bit b 63 && fld (a &&& b) 44 8 != 0 && fld (a &&& b) 28 16 != 0

/-- Whether a write changes a domain otherwise than in Q alone (R269). -/
def domainChanges (old new : Word) : Bool := (old ^^^ new) &&& ~~~((1 : Word) <<< 62) != 0

/-- Whether a write of a domain register is taken (R269). -/
def Die.accepts (d : Die) (n : Nat) (new : Word) : Bool :=
  let old := vget d.dom n 0
  domainLegal new
    && !((d.dom.toList.zipIdx).any fun p => p.2 != n && domainsOverlap p.1 new)
    && !(bit old 63 && domainChanges old new && !(bit old 62 && bit new 62))
    && !(bit old 62 && !bit new 62 && vget d.busy n false)

/-- A domain register after a write that is taken; a switch sets BUSY (R271). -/
def Die.writeDomain (d : Die) (n : Nat) (new : Word) : Die :=
  let old := vget d.dom n 0
  ⟨vset d.dom n new, if bit old 63 && domainChanges old new then vset d.busy n true else d.busy⟩

/-- Writes a domain register of a die; the window of a cluster whose ways change is undefined from then on (R266). -/
def State.writeDomain (s : State) (die n : Nat) (w : Word) : State :=
  let d := vget s.dies die resetDie
  let new := w &&& ~~~((1 : Word) <<< 61)
  if d.accepts n new then
    let t := { s with dies := vset s.dies die (d.writeDomain n new) }
    let gone := (rangeFrom (8 * die) 8).filter fun c => s.windowWays c != t.windowWays c
    if gone.isEmpty then t
    else { t with winFree := gone.foldl (fun l c => insertKey l c s.fresh) t.winFree, fresh := s.fresh + 1 }
  else s

/-- A change of a byte counter takes effect (R249 to R251). -/
def State.endCounter (s : State) (ctx : Nat) (x : CounterEnd) : State :=
  match s.owner? ctx, s.ctx? ctx with
  | some t, some c => (Frame.endCounter ⟨s, t, c⟩ x).put
  | _, _ => s

/-- A change of the cycle that ends takes effect (R154, R250, R271). -/
def State.endLate (s : State) : LateWrite → State
  | .domain die n w => s.writeDomain die n w
  | .catb w => { s with catb := w }
  | .counter ctx x => s.endCounter ctx x

/-- Every change of the cycle that ends, in issue order. -/
def State.endLates (s : State) : State := s.late.foldl State.endLate { s with late := [] }

/-- L2DOM_SWITCH_DONE (R271): the old slices have written back and invalidated their lines. -/
def execL2domSwitchDone (die : Nat) (dom : Fin 16) (s : State) : Host.Outcome State Fault Refusal :=
  let d := vget s.dies die resetDie
  ({ s with dies := vset s.dies die { d with busy := vset d.busy dom false } } : State).event

/-- REPLAY_RESPONSE (R271): a request routed under old registers is sent again; only its time changes. -/
def execReplayResponse (_cmd : Nat) (s : State) : Host.Outcome State Fault Refusal := s.event

/-! ### Writing system registers (R154) -/

/-- A word with only the bits of a field kept. -/
def keepField (w : Word) (lo len : Nat) : Word := w &&& BitVec.ofNat 64 (2 ^ lo * (2 ^ len - 1))

/-- SPILL after a write; a size outside 8 to 20 is ignored as a whole (R138). -/
def spillWritten (old w : Word) : Word :=
  if 8 ≤ fld w 0 5 ∧ fld w 0 5 ≤ 20 then keepField w 7 50 ||| keepField w 0 5 else old

/-- TTB after a write; a table too long is ignored as a whole (R291). -/
def ttbWritten (old w : Word) : Word :=
  if fld w 57 5 ≤ 16 then keepField w 63 1 ||| keepField w 57 5 ||| keepField w 6 51 else old

/-- TSAVE0 after a write: only RESUME (R348). -/
def tsave0Written (old w : Word) : Word := (old &&& ~~~(keepField (BitVec.allOnes 64) 35 2)) ||| keepField w 35 2

/-- Writes WDT; rank 0's restarts the task's watchdog with the new interval (R366). -/
def Frame.writeWdt (f : Frame) (w : Word) : Frame :=
  let i := fld w 0 32
  let s := if f.t.rank ≠ 0 then f.s else
    { f.s with tasks := updateIf f.s.tasks (·.tid == f.t.task) fun k => { k with wdInt := i, wdCnt := 0 } }
  { f with s := s, t := { f.t with wdt := BitVec.ofNat 32 i } }

/-- Writes a register that other strands read: they see it from the next tile cycle on (R154, R271). -/
def Frame.writeLate (f : Frame) (w : LateWrite) : Frame := { f with s := { f.s with late := f.s.late ++ [w] } }

/-- Writes a system register that the strand may write; what is read only or unlisted is left (R154). Slot 7 ends its
group, so the strand itself sees every write from its next group on. -/
def Frame.writeSystem (f : Frame) (n : Nat) (w : Word) : Frame :=
  match n with
  | 0x00 => { f with c := { f.c with seq := { f.c.seq with
      fpst := f.c.seq.fpst ++ [(BitVec.allOnes 64, w)], lasting := f.c.seq.lasting ++ [(BitVec.allOnes 64, w)] } } }
  | 0x01 => f.putSlack w
  | 0x08 => { f with c := { f.c with spill := spillWritten f.c.spill w } }
  | 0x09 => { f with t := { f.t with tvec := keepField w 5 52 } }
  | 0x0A => { f with t := { f.t with csa := keepField w 22 35 } }
  | 0x0B => f.writeWdt w
  | 0x0C => { f with t := { f.t with ttb := ttbWritten f.t.ttb w } }
  | 0x0D => f.writeLate (.catb (keepField w 63 1 ||| keepField w 18 39))
  | 0x30 => { f with t := { f.t with tsave := vset f.t.tsave 0 (tsave0Written (vget f.t.tsave 0 0) w) } }
  | 0x37 => { f with t := { f.t with tsave := vset f.t.tsave 7 w } }
  | n => if 0x40 ≤ n ∧ n < 0x50 then f.writeLate (.domain (dieOf f.t.ptn) (n - 0x40) w) else f

/-- WRSR (R154): any register but FPST and SLK waits for an agreement (R157); an unconditional write of FPST
beside an unconditional FPSET or FPFLUSH traps (R388). -/
def execWrsr (h : Slot) (a : Src) (s : State) : Host.Outcome State Fault Refusal :=
  runSlot h (trigger h (controlTrig (some a) true false []) (direct fun f a b _ _ => do
    let n := fld b.low 0 8
    let _ ← if n < 2 then .ok () else f.settled
    let _ ← need (!writeNeeds n || f.privileged) (trapOf .priv)
    let _ ← need (!(n == 0 && h.guard == .always && f.c.seq.fpsets)) (trapOf .illdep)
    let _ ← need (n != 0 || !f.c.fpsetWaits) f.waitHere
    return (f.writeSystem n a.low, .quiet))) s

/-! ### TRET (R347, R349) -/

/-- A trap save word with another cause (R352). -/
def withCause (w : Word) (c : Cause) : Word := (w.extractLsb' 0 48).zeroExtend 64 ||| BitVec.ofNat 64 (c.code * 2 ^ 56)

/-- The failure of a strand at TRET with RESUME 11 or a refused REDIRECT: the fault words are the trap save
registers (R349, R352). -/
def Strand.failAtReturn (t : Strand) (cycle cause sub addr : Nat) (w0 : Word) : Strand :=
  t.failWith cycle cause sub addr (w0 :: t.tsave.toList.drop 1)

/-- Discards the handler's context and hands its units back with nothing spilled (R357). -/
def State.dropCtx (s : State) (ptn id : Nat) : State :=
  let r := s.tile ptn
  let s := if r.owners.any (·.2 == id) then s.setTile { r with owners := r.owners.filter (·.2 != id) } else s
  { s with ctxs := s.ctxs.filter (·.id != id) }

/-- The interrupted context as RETRY and SKIP resume it: within the bundle, or before it with PRE; a skipped slot
takes no effect (R348, R349). The group keeps what it saw at its start. -/
def Ctx.retried (c : Ctx) (w : Word) : Ctx :=
  if bit w 46 then { c with seq := { c.seq with issuing := false, reached := 0 } }
  else
    let skip := if fld w 35 2 = 1 ∧ !bit w 47 then some (fld w 40 3) else none
    { c with seq := { c.seq with resumed := true, skip := skip } }

/-- The interrupted context as REDIRECT resumes it: its group ends and the next bundle is at the target. No transfer takes
effect, so none kills what waited for the bundle's end (R74, R349). -/
def Frame.redirected (f : Frame) (target : Nat) : Frame :=
  let g := (if f.c.seq.issuing then f.endGroup else f).releaseLeafed
  let c := g.c.goto target
  { g with c := { c with seq := { c.seq with reached := 0 } } }

/-- Leaves the handler for the interrupted context, whose stopped engines go on (R217, R347, R349). -/
def Frame.leaveHandler (f : Frame) (c : Ctx) : State :=
  let s := { f.s.dropCtx f.t.ptn f.c.id with turn := f.s.turn.filter (· != f.t.sid) }
  let t := { f.t with
    cur := c.id, saved := none, snap := f.t.snap0.getD f.t.snap, snap0 := none, req := .none, waits := none }
  let c := c.resumeEngines (s.tile t.ptn)
  let w := vget t.tsave 0 0
  let target := (vget t.tsave 7 0).toNat
  match fld w 35 2 with
  | 3 => (⟨s, t.failAtReturn f.s.cycle (fld w 56 8) (fld w 48 8) (vget t.tsave 2 0).toNat w, c⟩ : Frame).put
  | 2 =>
    if target % 32 ≠ 0 then (⟨s, t.failAtReturn f.s.cycle Cause.align.code 0 target (withCause w .align), c⟩ : Frame).put
    else (Frame.redirected ⟨s, t, c⟩ target).put
  | _ => (⟨s, t, c.retried w⟩ : Frame).put

/-- Restores the interrupted context from the context save area, except for FAIL, and leaves the handler; an area that
cannot be read fails the task (R347, R359). -/
def Frame.restoreAndLeave (f : Frame) (c : Ctx) : State :=
  if fld (vget f.t.tsave 0 0) 35 2 = 3 then f.leaveHandler c
  else
    let s := ({ f with s := { f.s with turn := f.s.turn.filter (· != f.t.sid) } } : Frame).put
    match s.readArea f.t 0x1000 0x1000 with
    | .error u => u
    | .ok (u, true) => ({ f with s := u } : Frame).leaveHandler c
    | .ok (u, false) => ({ f with s := { u with fresh := u.fresh + 1 } } : Frame).leaveHandler (c.scrambleCore u.fresh)

/-- TRET (R153, R349): privileged; waits for an agreement; with no interrupted context it has no effect
(notes/assumptions/10.md). -/
def execTret (h : Slot) (s : State) : Host.Outcome State Fault Refusal :=
  runSlotTo h (fun f => do
    let _ ← f.settled
    let _ ← need f.privileged (trapOf .priv)
    match f.t.saved.bind f.s.ctx? with
    | none => return f.advance h.stop
    | some c => return f.restoreAndLeave c) s

end Sys2Proof.Machine
end

