-- ==== Sys2Proof/Machine/Agreement.lean ====
section
/-! DEFINITION. Agreed branches: the agreement operations, the roots that resolve rounds, answers, speculation's end
and absent members (R149, R373 to R387, R390). -/

namespace Sys2Proof.Machine

/-! ### The roots (R375, R379, R381, R384, R386) -/

/-- A group's root before anything is known of it. -/
def AgRoot.start (gid : Nat) : AgRoot := ⟨gid, none, 0, false, [], [], [], [], [], false, none, [], [], 0, none, none, []⟩

/-- The root of a group in this module. -/
def State.root? (s : State) (gid : Nat) : Option AgRoot := s.roots.find? (·.gid == gid)

/-- Writes a root back. -/
def State.setRoot (s : State) (r : AgRoot) : State :=
  { s with roots := if s.roots.any (·.gid == r.gid) then replaceIf s.roots (·.gid == r.gid) r else r :: s.roots }

/-- Where a group's round resolves (R379, R386). -/
inductive RootNode
  | cluster (n : Nat)
  | die (n : Nat)
  | switch
deriving DecidableEq, Repr

/-- The members of a group, once its root knows their number (R375, R384). -/
def AgRoot.members (r : AgRoot) : Option Nat := (r.first.map (·.count)).or r.count

/-- The members that strands here hold by a joined slot: index and tile (R374). -/
def State.joinedHere (s : State) (gid : Nat) : List (Nat × Nat) :=
  (s.strands.map fun t => (t.ags.toList.filter fun a => a.joined && fld a.agb 0 24 == gid).map fun a =>
    (fld a.agc 0 24, t.ptn)).flatten

/-- Whether every member of a group is known to be of this module: it has joined or contributed here, or is excused. -/
def State.allHere (s : State) (r : AgRoot) : Bool :=
  let known := (s.joinedHere r.gid).map (·.1) ++ (r.got ++ r.early).map (·.midx) ++ r.mis ++ r.exc ++ r.later
    ++ ((r.last.map fun x => x.2.2.2).getD [])
  r.mods.all (· == s.modId) && (match r.members with
    | none => false
    | some n => (List.range n).all known.contains)

/-- The root node of a group in this module: the lowest node that every member's contribution passes through (R386); a member
not yet known may be anywhere (notes/assumptions/58.md). All nodes of the module keep their groups in `State.roots`, and 16,384
rounds in progress are the module's limit (R379). -/
def State.rootNode (s : State) (r : AgRoot) : RootNode :=
  if !s.allHere r then .switch
  else match (s.joinedHere r.gid).map (·.2) ++ r.tiles with
    | [] => .switch
    | p :: l =>
      if l.all fun q => clusterOf q == clusterOf p then .cluster (clusterOf p)
      else if l.all fun q => dieOf q == dieOf p then .die (dieOf p)
      else .switch

/-- Whether two contributions hold the fields that all members must share (R375). -/
def sameGroup (a b : Contribution) : Bool :=
  a.op == b.op && a.rmod == b.rmod && a.count == b.count && a.tmo == b.tmo && a.scope == b.scope

/-- Sends an answer to the member that made a contribution (R379). -/
def State.sendAnswer (s : State) (c : Contribution) (v : Bool) (status : Nat) : State :=
  if c.frm = s.modId then { s with answers := s.answers ++ [(c.strand, Fin.ofNat 4 c.slot, v, status)] }
  else s.send c.frm (.answer c.frm c.strand c.slot v status)

/-- The `n`-th v that the manual does not give: a free value (R379, R380, notes/assumptions/12.md). -/
def freeAgreed (n : Nat) : Bool := bit (Config.freeWord n) 0

/-- An answer to one contribution alone, whose v the manual does not give (R375, R380, R384). -/
def State.sendStatus (s : State) (c : Contribution) (status : Nat) : State :=
  { s.sendAnswer c (freeAgreed s.fresh) status with fresh := s.fresh + 1 }

/-- The agreed value and status of a round whose members have all contributed or been excused (R379). -/
def AgRoot.outcome (r : AgRoot) : Bool × Nat :=
  let vs := r.got.map (·.value)
  match (r.first.map (·.op)).getD 0 with
  | 0 => (vs.all id, 1)
  | 1 => (vs.any id, 1)
  | _ => if vs.any id && vs.any (!·) then (false, 3) else (vs.headD false, 1)

/-- Whether every member index has contributed or been excused (R379). -/
def AgRoot.full (r : AgRoot) : Bool :=
  match r.first with
  | none => false
  | some f => f.count ≤ ((r.got.map (·.midx) ++ r.mis ++ r.exc).eraseDups.filter (· < f.count)).length

/-- Whether every member index has left or been excused, so that the root discards the group (R384). -/
def AgRoot.gone (r : AgRoot) : Bool :=
  match r.members with
  | none => false
  | some n => !r.busy && n ≤ (r.exc.eraseDups.filter (· < n)).length

/-- Discards a root whose members are all gone (R384). -/
def State.discardRoot (s : State) (gid : Nat) : State :=
  { s with roots := s.roots.filter fun r => !(r.gid == gid && r.gone) }

/-- Answers each counted contribution of a round with one v and one status (R379). -/
def State.answerAll (s : State) (l : List Contribution) (v : Bool) (status : Nat) : State :=
  l.foldl (fun s c => s.sendAnswer c v status) s

/-- The root after a round: it advances, the indices that left are excused, and kept contributions are still to be
taken (R379, R380, R384). -/
def AgRoot.advanced (r : AgRoot) (status : Nat) : AgRoot :=
  let stay := r.later.filter fun i => r.early.any (·.midx == i)
  { r with
    round := (r.round + 1) % 256
    busy := false
    got := []
    mis := []
    exc := (r.exc ++ r.later.filter fun i => !stay.contains i).eraseDups
    later := stay
    early := []
    bad := false
    last := some (r.round, status, r.exc, r.got.map (·.midx) ++ r.mis)
    left := 0
    agreed := none }

/-- Tells every other module that may have members of a group whether one is Pre-empted and whether a round is in progress:
every member sees it, and one that has not contributed may be anywhere (R384, notes/assumptions/58.md). -/
def State.tellRound (s : State) (r : AgRoot) : State :=
  let l := if s.allHere r then [] else List.range 2304
  (l.filter (· != s.modId)).foldl (fun s m => s.send m (.pm m r.gid (!r.pre.isEmpty) r.busy)) s

/-- Ends the round in progress, with TIMEOUT when that is forced: every answer carries the same v and status, and the
contributions kept for the next round are given back (R375, R379, R381). -/
def State.resolveRoot (s : State) (r : AgRoot) (forced : Option Nat) : State × List Contribution :=
  let o := r.outcome
  let status := match forced with
    | some st => st
    | none => if r.bad then 4 else o.2
  let n := r.agreed.getD s.fresh
  let v := if status = 1 then o.1 else freeAgreed n
  let t := (s.answerAll r.got v status).setRoot (r.advanced status)
  let t := if r.pre.isEmpty then t else t.tellRound (r.advanced status)
  ({ t with fresh := if status = 1 || r.agreed.isSome then s.fresh else s.fresh + 1 }, r.early)

/-- The answer to a contribution of a round that is neither in progress nor the next (R375). -/
def AgRoot.pastStatus (r : AgRoot) (c : Contribution) : Nat :=
  match r.last with
  | none => 4
  | some (rnd, st, exc, got) =>
    if c.round ≠ rnd ∨ got.contains c.midx then 4
    else if exc.contains c.midx then 5
    else if st = 2 then 2
    else 4

/-- Counts a contribution of the round in progress, or refuses it with MISMATCH, with the one v of the refused round
(R375, R379). -/
def State.countContribution (s : State) (r : AgRoot) (c : Contribution) : State × AgRoot :=
  let bad := r.bad || !((r.first.map (sameGroup c)).getD true) || r.got.any (·.midx == c.midx) || r.mis.contains c.midx
  let r := { r with
    busy := true
    left := if r.busy then r.left else 2000 * (r.first.getD c).tmo
    mods := if r.mods.contains c.frm then r.mods else r.mods ++ [c.frm]
    tiles := if c.frm = s.modId ∧ !r.tiles.contains c.tile then r.tiles ++ [c.tile] else r.tiles }
  if bad then
    let n := r.agreed.getD s.fresh
    ({ s.sendAnswer c (freeAgreed n) 4 with fresh := if r.agreed.isSome then s.fresh else s.fresh + 1 },
      { r with bad := true, agreed := some n, mis := r.mis ++ [c.midx] })
  else (s, { r with got := r.got ++ [c] })

/-- A contribution reaches its root (R375, R379, R384): what it returns are contributions to take next. -/
def State.takeOne (s : State) (c : Contribution) : State × List Contribution :=
  let r0 := (s.root? c.gid).getD (AgRoot.start c.gid)
  let r := if r0.first.isSome then r0 else { r0 with first := some c, round := c.round }
  if r.exc.contains c.midx then ((s.setRoot r).sendStatus c 5, [])
  else if c.round = (r.round + 1) % 256 then (s.setRoot { r with early := r.early ++ [c] }, [])
  else if c.round ≠ r.round then ((s.setRoot r).sendStatus c (r.pastStatus c), [])
  else if !r.busy && 16384 ≤ (s.roots.filter (·.busy)).length then ({ s with contribs := s.contribs ++ [c] }, [])
  else
    let (s, r) := s.countContribution r c
    let s := s.setRoot r
    if r.full then s.resolveRoot r none
    else (if !r0.busy && !r.pre.isEmpty then s.tellRound r else s, [])

/-- Takes contributions, and those that were kept for a round that has begun (R379). -/
def State.takeContributions : Nat → List Contribution → State → State
  | 0, l, s => { s with contribs := s.contribs ++ l }
  | _ + 1, [], s => s
  | n + 1, c :: l, s =>
    let (s, more) := s.takeOne c
    State.takeContributions n (l ++ more) (s.discardRoot c.gid)

/-- CONTRIBUTION_ARRIVE (R379): a contribution of another topology version is refused, and sent again (R312). -/
def execContributionArrive (c : Contribution) (s : State) : Host.Outcome State Fault Refusal :=
  let s := { s with contribs := s.contribs.erase c }
  if c.rmod ≠ s.modId ∨ (c.frm ≠ s.modId ∧ c.ver ≠ s.cur.toNat) then s.event
  else (State.takeContributions (2 + ((s.root? c.gid).map (·.early.length)).getD 0) [c] s).event

/-- Ends a round that has become full, or discards its group (R379, R384). -/
def State.settleRoot (s : State) (gid : Nat) : State :=
  match s.root? gid with
  | none => s
  | some r =>
    if r.busy && r.full then
      let (t, more) := s.resolveRoot r none
      State.takeContributions (1 + 2 * more.length) more (t.discardRoot gid)
    else s.discardRoot gid

/-- AGREEMENT_TIMEOUT (R381): the round resolves with TIMEOUT; the count is paused while a member is Pre-empted. -/
def execAgreementTimeout (gid : Nat) (s : State) : Host.Outcome State Fault Refusal :=
  match s.root? gid with
  | none => s.event
  | some r =>
    if r.busy && r.pre.isEmpty && r.left == 0 && (r.first.map (·.tmo)).getD 0 != 0 then
      let (t, more) := s.resolveRoot r (some 2)
      (State.takeContributions (1 + 2 * more.length) more (t.discardRoot gid)).event
    else s.event

/-- Sets PM of every slot of this module's strands that is joined to a group (R376, R384). -/
def State.setPm (s : State) (gid : Nat) (on : Bool) : State :=
  { s with strands := s.strands.map fun t =>
      { t with ags := t.ags.map fun a => if a.joined && fld a.agb 0 24 == gid then { a with pm := on } else a } }

/-- A root's members here and elsewhere learn whether one of them is Pre-empted (R384). -/
def State.tellPm (s : State) (r : AgRoot) : State := (s.setPm r.gid (!r.pre.isEmpty)).tellRound r

/-- A member leaves: with a contribution outstanding it is excused from the next round on, else from the round in
progress; it is no longer reported Pre-empted, so a timeout that it paused runs on (R377, R381, R384). -/
def State.rootLeave (s : State) (gid count midx : Nat) (out : Bool) : State :=
  let r := (s.root? gid).getD (AgRoot.start gid)
  let was := r.pre.isEmpty
  let counted := out || r.got.any (·.midx == midx) || r.mis.contains midx
  let r := { r with pre := r.pre.filter (· != midx), count := r.count.or (if count = 0 then none else some count) }
  let r := if counted then { r with later := r.later ++ [midx] } else { r with exc := (r.exc ++ [midx]).eraseDups }
  let s := s.setRoot r
  (if was || !r.pre.isEmpty then s else s.tellPm r).settleRoot gid

/-- LEAVE_NOTICE (R377, R384): a stale notice is not delivered (R312). -/
def execLeaveNotice (group : LeftGroup) (midx : Nat) (out : Bool) (s : State) : Host.Outcome State Fault Refusal :=
  (if s.delivered (some group.ver) then s.rootLeave group.gid group.count midx out else s).event

/-- A member's task is Pre-empted or resumed: the root notes it, and pauses or resumes the timeout (R381, R384). -/
def State.rootPre (s : State) (gid midx : Nat) (on : Bool) : State :=
  let r := (s.root? gid).getD (AgRoot.start gid)
  let r := { r with pre := if on then (r.pre ++ [midx]).eraseDups else r.pre.filter (· != midx) }
  (s.setRoot r).tellPm r

/-! ### Slots (R373, R374) -/

/-- GID of a slot. -/
def slotGid (a : AgSlot) : Nat := fld a.agb 0 24
/-- RMOD of a slot. -/
def slotRmod (a : AgSlot) : Nat := fld a.agb 50 12

/-- Whether a group that a strand here has joined has its root in another module. -/
def State.rootElsewhere (s : State) (gid : Nat) : Bool :=
  (s.root? gid).isNone && s.strands.any fun t => t.ags.toList.any fun a => a.joined && slotGid a == gid && slotRmod a != s.modId

/-- A notice about a Pre-empted member: the root's own, or a root's report to its members here, with whether a round is in
progress (R384). -/
def State.preNotice (s : State) (gid midx : Nat) (on busy : Bool) : State :=
  if s.rootElsewhere gid then
    let l := s.roundsElsewhere.filter (· != gid)
    ({ s with roundsElsewhere := if on && busy then gid :: l else l } : State).setPm gid on
  else s.rootPre gid midx on

/-- PREEMPTED_NOTICE (R384): a stale notice is not delivered (R312). -/
def execPreemptedNotice (gid : Nat) (member : PreemptedMember) (s : State) : Host.Outcome State Fault Refusal :=
  (if s.delivered (some member.ver) then s.preNotice gid member.midx true member.busy else s).event

/-- RESUME_NOTICE (R384): a stale notice is not delivered (R312). -/
def execResumeNotice (gid : Nat) (member : PreemptedMember) (s : State) : Host.Outcome State Fault Refusal :=
  (if s.delivered (some member.ver) then s.preNotice gid member.midx false false else s).event

/-- MIDX of a slot. -/
def slotMidx (a : AgSlot) : Nat := fld a.agc 0 24
/-- SCOPE of a slot. -/
def slotScope (a : AgSlot) : Nat := fld a.agc 24 3

/-- A member's notices go to the root of its group, here or in another module. -/
def State.leaveSlot (s : State) (a : AgSlot) : State :=
  if slotRmod a = s.modId then s.rootLeave (slotGid a) (fld a.agb 24 24) (slotMidx a) a.out
  else s.send (slotRmod a) (.leave (slotRmod a) (slotGid a) (fld a.agb 24 24) (slotMidx a) a.out)

/-- A strand that ends leaves every group that it has joined (R30, R384). -/
def State.leaveGroups (s : State) (t : Strand) : State := (t.ags.toList.filter (·.joined)).foldl State.leaveSlot s

/-- The notices of a strand whose task is Pre-empted or resumed (R384). -/
def State.noticeGroups (s : State) (t : Strand) (on : Bool) : State :=
  (t.ags.toList.filter (·.joined)).foldl (fun s a =>
    if slotRmod a = s.modId then s.rootPre (slotGid a) (slotMidx a) on
    else s.send (slotRmod a) (if on then .preempted (slotRmod a) (slotGid a) (slotMidx a)
        else .resumed (slotRmod a) (slotGid a) (slotMidx a))) s

/-- Whether a set-up is one that AGJOIN takes (R374, R377). -/
def setupOk (b c : Word) : Bool :=
  fld b 62 2 != 3 && fld b 50 12 ≤ 2303 && fld b 48 2 == 0 && 1 ≤ fld b 24 24 && fld b 24 24 ≤ 2359296
    && fld c 27 5 == 0 && fld c 24 3 ≤ 5 && fld c 0 24 < fld b 24 24

/-- The agreement slot of a strand. -/
def Strand.agSlot (t : Strand) (n : Nat) : AgSlot := vget t.ags n AgSlot.start

/-- AGJOIN (R377): the slot reads PM at once when the root here already reports a member Pre-empted. -/
def execAgjoin (h : Slot) (a : Src) (s : State) : Host.Outcome State Fault Refusal :=
  controlOp h (controlTrig (some a) true true []) (fun f a b c => do
    let _ ← f.settled
    let n := fld a 0 2
    let _ ← need (fld a 2 62 == 0 && !(f.t.agSlot n).joined && setupOk b c
      && !(f.t.ags.toList.any fun x => x.joined && slotGid x == fld b 0 24)) (trapOf .illenc)
    let pm := fld b 50 12 == f.s.modId && ((f.s.root? (fld b 0 24)).map fun r => !r.pre.isEmpty).getD false
    return { f with t := { f.t with
      ags := vset f.t.ags n ⟨true, false, pm, false, 0, BitVec.ofNat 8 (fld c 56 8), b, c⟩ } }) s

/-- AGLEAVE (R377) -/
def execAgleave (h : Slot) (a : Src) (s : State) : Host.Outcome State Fault Refusal :=
  controlOp h (controlTrig (some a) false false []) (fun f a _ _ => do
    let _ ← f.settled
    let n := fld a 0 2
    let x := f.t.agSlot n
    let _ ← need (fld a 2 62 == 0 && x.joined) (trapOf .illenc)
    return { f with s := f.s.leaveSlot x, t := { f.t with ags := vset f.t.ags n { x with joined := false, out := false } } }) s

/-- Asks a root to excuse a member, and stalls until it acknowledges: the request goes to a root in another module once
(R377). -/
def Frame.askExcuse (f : Frame) (rmod gid midx : Nat) : Except Stop Frame :=
  if f.t.req = .none ∧ rmod ≠ f.s.modId then
    .error (.stall (.excuse rmod gid midx) { f with
      s := f.s.send rmod (.excuse rmod gid midx f.t.sid), t := { f.t with req := .open (.excuse rmod gid midx) } })
  else f.await (.excuse rmod gid midx)

/-- AGEXCUSE (R377): privileged; stalls until the root acknowledges. -/
def execAgexcuse (h : Slot) (a : Src) (s : State) : Host.Outcome State Fault Refusal :=
  controlOp h (controlTrig (some a) true false []) (fun f a b _ => do
    let _ ← f.settled
    let _ ← need f.privileged (trapOf .priv)
    let _ ← need (fld a 36 28 == 0 && fld b 24 40 == 0 && fld a 24 12 ≤ 2303) (trapOf .illenc)
    f.askExcuse (fld a 24 12) (fld a 0 24) (fld b 0 24)) s

/-- Excuses a member at a root here: a group it does not know, or an index beyond its COUNT, has no effect (R377). -/
def State.rootExcuse (s : State) (gid midx : Nat) : State :=
  match (s.root? gid).bind AgRoot.members with
  | none => s
  | some n => if midx < n then s.rootLeave gid n midx false else s

/-- AGEXCUSE_ACK (R377): the root acknowledges; one in this module excuses the member now. An acknowledgement of another module
that is stale is not delivered (R312). -/
def execAgexcuseAck (x : ExcuseAck) (s : State) : Host.Outcome State Fault Refusal :=
  match s.strand? x.sid with
  | none => s.event
  | some t => if !s.delivered x.ver then s.event else match t.req with
    | .open (.excuse rmod gid midx) =>
      let s := s.setStrand { t with req := .done (.excuse rmod gid midx) }
      if rmod = s.modId then (s.rootExcuse gid midx).event else s.event
    | _ => s.event

/-! ### CBR (R378) -/

/-- The release of a CBR at its slot's scope, which stalls as a fence (R156, R378). -/
def Frame.releaseAt (f : Frame) (scope : Nat) : Except Stop Frame :=
  match scope with
  | 0 => .ok f
  | 1 => .ok f
  | 2 => do
    let _ ← f.settled
    let _ ← need (!f.windowStoring) (.stall (.fence 1 1) f)
    return f
  | n => do
    let _ ← f.settled
    let _ ← need (!f.windowStoring) (.stall (.fence 1 (n - 1)) f)
    f.await (.fence 1 (n - 1))

/-- Sends a contribution to the root of its group; a root module that is not reached is answered by the switch with
UNREACH and v = 0 (R378, R380, R390). -/
def State.contribute (s : State) (c : Contribution) : State :=
  if c.rmod = s.modId then { s with contribs := s.contribs ++ [c] }
  else if s.route c.rmod = .none then s.sendAnswer c false 6
  else s.send c.rmod (.contribution c)

/-- The contribution of a slot (R378). -/
def Frame.contribution (f : Frame) (n : Nat) (x : AgSlot) (v : Bool) : Contribution :=
  ⟨slotGid x, fld x.agb 24 24, fld x.agb 62 2, slotRmod x, fld x.agc 32 24, slotScope x, slotMidx x, x.rnd.toNat, v,
   f.s.modId, f.t.sid, n, f.s.cur.toNat, f.t.ptn⟩

/-- The tokens that a slot has popped, by port. -/
def Frame.tokensPopped (f0 f : Frame) : List (Nat × Word) :=
  ((List.range 4).map fun n => ((f0.tokens n).take ((f0.tokens n).length - (f.tokens n).length)).map fun w => (n, w)).flatten

/-- What a CBR issues with again after AGTO, from its slot's frame before and after its operands were taken (R349, R380). -/
def Frame.retry (f0 f : Frame) : Retry := ⟨f.t.snap, f0.c.ports, f0.c.feeds, f0.c.blocks, f0.tokensPopped f, f0.c.slk⟩

/-- CBR (R378): contributes the predicate, and goes on speculating on the prediction. -/
def execCbr (h : Slot) (a : Src) (s : State) : Host.Outcome State Fault Refusal :=
  runSlot h (fun f0 => trigger h (transferTrig (some a) true []) (direct fun f a b _ _ => do
    let a := a.low
    let b := b.low
    let n := fld a 0 2
    let x := f.t.agSlot n
    let _ ← need (fld a 7 57 == 0 && fld b 32 32 == 0 && x.joined) (trapOf .illenc)
    let _ ← need f.t.spec.isNone (.stall .agreement f)
    let f ← f.releaseAt (slotScope x)
    let v := bit f.t.snap.ctx.preds (fld a 2 3)
    let pred := if bit a 5 then bit a 6 else v
    let taken := relativeTarget f.c.pc b
    let other := nextInSequence f.c.pc f.c.seq.block
    let spec : Spec := ⟨n, pred, f.c, taken, other, f.c.seq.group, [], 0, none, [], [], 0, f.t.cbx, f.t.cbank, f.t.cbxTill, a, b,
      [], [], f0.retry f⟩
    let t := { f.t with ags := vset f.t.ags n { x with out := true }, spec := some spec }
    return ({ f with s := f.s.contribute (f.contribution n x v), t := t }.transfer (.cbr pred taken), .quiet)) f0) s

/-! ### ANSWER_ARRIVE (R380, R385, R387) -/

/-- The slot after an answer: one that is EXCUSED is freed (R380). -/
def AgSlot.answered (x : AgSlot) (v : Bool) (status : Nat) : AgSlot :=
  { x with joined := x.joined && status != 5, out := false, lv := v, lst := status, rnd := x.rnd + 1 }

/-- A window atomic that a confirmed transfer has killed is put back (R74, R131, R383). -/
def State.undoKilled (s : State) (p : Spec) : State :=
  p.killed.foldr (fun x s => s.undoAtomic { x with undo := x.undo.filter fun u => u.1 < 2 ^ 41 }) s

/-- A scratchpad atomic that a mispredicted transfer killed takes effect again, for no transfer has killed it (R74, R380). -/
def State.redoKilled (s : State) (p : Spec) : State :=
  p.killed.foldl (fun s x => x.undo.foldl (fun s u =>
    if 2 ^ 41 ≤ u.1 ∧ Memory.get s.mem u.1 = u.2.1 then s.write u.1 [u.2.2] else s) s) s

/-- A held trap that is confirmed is taken once the strand's confirmed stores are performed, with the registers as it was
raised (R345, R380). -/
def Frame.takeConfirmed (f : Frame) : State :=
  match f.t.trap, f.t.drain with
  | some (r, ws), [] => takeWords { f with t := { f.t with trap := none } } r ws
  | _, _ => f.put

/-- Confirmed (R380, R387): held stores drain from the next tile cycle on, HEART effects stand, and a held trap is taken
after them. A strand that waits for the agreement issues again in the next cycle. -/
def Frame.confirm (f : Frame) (p : Spec) : State :=
  let s := if p.heart = 0 then f.s else f.s.progress f.t.task
  let s := if f.t.waits = some .agreement then { s with turn := s.turn.filter (· != f.t.sid) } else s
  Frame.takeConfirmed { f with s := s.undoKilled p, t := { f.t with
    spec := none
    drain := f.t.drain ++ p.stores
    drainGo := f.s.cycle + 1
    trap := p.trap
    heart := f.t.heart + BitVec.ofNat 64 p.heart
    waits := none } }

/-- Arms again a counter that the speculation disarmed, with what has arrived since (R251, R380). -/
def State.rearm (s : State) (ctx : Nat) (x : Nat × Nat) : State :=
  let s := s.setCounter x.1 (s.counterBal x.1 - BitVec.ofNat 64 x.2) (s.counterPend x.1)
  { s with claims := s.claims ++ [⟨ctx, .counter x.1, [x.1 % 2 ^ 21 / 4096], true, 0⟩] }

/-- Whether a change still to take effect is a disarming by a context, which a mismatch discards (R251, R382). -/
def LateWrite.disarms (w : LateWrite) (ctx : Nat) : Bool := match w with | .counter c (.disarm _) => c == ctx | _ => false

/-- The window accesses of a strand at its checkpoint: those made since are gone, and the atomics that waited for the answer
go on (R74, R380, R383). -/
def State.winBack (s : State) (ctx : Nat) (p : Spec) : List WinAcc :=
  (s.win.filter fun a => !a.isOf ctx (p.check.nextRid ≤ ·)) ++ p.suspended.map fun a => { a with due := s.cycle + a.due }

/-- The strand at its checkpoint (R380, R382): engines, calls and the claimable units go on as they are, popped tokens return
to the heads of their ports, and disarmed counters are armed again. -/
def Frame.restore (f : Frame) (p : Spec) : Frame :=
  let c := { p.check with
    mxe := { f.c.mxe with k0 := p.poppedOf 0 ++ f.c.mxe.k0 }
    xfu := { f.c.xfu with k1 := p.poppedOf 1 ++ f.c.xfu.k1 }
    away := f.c.away
    wants := f.c.wants
    acsw := f.c.acsw
    bad := f.c.bad }
  let s := p.disarmed.foldl (fun s x => s.rearm f.c.id x) (f.s.redoKilled p)
  let s := { s with win := s.winBack f.c.id p, late := s.late.filter fun w => !w.disarms f.c.id }
  let t := { f.t with
    spec := none
    waits := none
    req := .none
    k2 := p.poppedOf 2 ++ f.t.k2
    k3 := p.poppedOf 3 ++ f.t.k3
    armed := f.t.armed ++ p.disarmed.map (·.1)
    cbx := p.cbx
    cbank := p.cbank
    cbxTill := p.cbxTill }
  ⟨{ s with turn := s.turn.filter (· != f.t.sid) }, t, c⟩

/-- A mismatch (R380): issue goes on at the target that v selects. Operations with K = 1 that were in flight at the checkpoint
go on when that is the taken target after a fall-through prediction: R74 kills them when a transfer takes effect, and whether
this is one at that point the rules do not say (notes/assumptions/72.md). -/
def Frame.mispredicted (f : Frame) (p : Spec) (v : Bool) : State :=
  let g := f.restore p
  let c := g.c
  if v then ({ g with c := (c.leaveBodies p.taken).goto p.taken } : Frame).put
  else
    let r := Ctx.bodyEnd c.pc p.other 6 c
    ({ g with c := r.1.goto r.2 } : Frame).put

/-- SUB of AGTO for a status (R380). -/
def agtoSub (status : Nat) : Nat := match status with | 2 => 0 | 3 => 1 | 4 => 2 | 5 => 3 | _ => 4

/-- The strand at the slot of its CBR, before that took its operands (R349, R380). -/
def Frame.atCbr (f : Frame) (p : Spec) : Frame :=
  let g := f.restore { p with popped := p.retry.popped ++ p.popped }
  { g with
    t := { g.t with snap := p.retry.snap }
    c := { g.c with
      icyc := g.c.icyc - 1
      slk := p.retry.slk
      ports := p.retry.ports
      feeds := p.retry.feeds
      blocks := p.retry.blocks
      seq := { g.c.seq with fresh := false } } }

/-- An answer other than OK: AGTO is taken at the CBR of the restored strand (R380). -/
def Frame.agreementTrap (f : Frame) (p : Spec) (status : Nat) : State :=
  takeTrap (f.atCbr p) ⟨Cause.agto.code, agtoSub status, 0, p.opa, p.opb, none⟩ false

/-- ANSWER_ARRIVE (R380, R385, R387): the slot's fields change, and a speculation on it ends, with an acquire at the slot's
scope, which at die scope or wider waits for invalidations before the strand goes on (R282, R283). An answer of another module
that is stale is not delivered (R312). -/
def execAnswerArrive (sid : Nat) (slot : Fin 4) (v : Bool) (st : AnswerStatus) (s : State) : Host.Outcome State Fault Refusal :=
  if !s.delivered st.ver then s.event else
  let status := st.status
  let s := { s with answers := s.answers.erase (sid, slot, v, status) }
  match s.frameOf sid with
  | none => s.event
  | some f =>
    let x := f.t.agSlot slot
    if !(x.joined && x.out) then s.event
    else
      let f : Frame := { f with s := f.s.progress f.t.task, t := { f.t with ags := vset f.t.ags slot (x.answered v status) } }
      match f.t.spec with
      | none => f.put.event
      | some p =>
        if p.slot ≠ slot.val then f.put.event
        else if status ≠ 1 then (f.agreementTrap p status).event
        else
          let f : Frame := { f with t := { f.t with acq := 3 ≤ slotScope x } }
          if v = p.pred then (f.confirm p).event else (f.mispredicted p v).event

/-! ### HELD_STORE_DRAIN (R287, R387) -/

/-- Performs one confirmed store: a window store goes to its bank (R131, R380). -/
def Frame.drainOne (f : Frame) (x : HeldStore) : Frame :=
  x.pieces.foldl (fun f p =>
    if x.window then
      let o := p.1 - 2 ^ 40
      { f with s := { f.s with win := f.s.win ++
        [⟨o / 2 ^ 24, f.s.cycle + 6, positionOf f.t.ptn, x.ctx, o % 2 ^ 24, .store p.2, x.rid⟩] } }
    else f.writeNow p) f

/-- The scratchpad blocks of a context that a store touches (R355). -/
def HeldStore.units (x : HeldStore) (ctx : Nat) : List TileUnit :=
  if x.window then []
  else blockUnits ((x.pieces.filter fun p => Key.pad ctx 0 ≤ p.1 && p.1 < Key.pad ctx 0 + 2 ^ 21).map fun p => p.1 % 2 ^ 21)

/-- HELD_STORE_DRAIN (R387): the oldest confirmed store of a strand is performed, one in a tile cycle; one whose block is not
at hand first has it handed over (R355). The last is followed by a confirmed trap. -/
def execHeldStoreDrain (sid : Nat) (s : State) : Host.Outcome State Fault Refusal :=
  match s.frameOf sid with
  | none => s.event
  | some f => match f.t.drain with
    | [] => s.event
    | x :: l =>
      let g : Frame := { f with t := { f.t with drainGo := f.s.cycle + 1 } }
      match (x.units f.c.id).filter fun u => !f.atHand u with
      | [] =>
        let g := ((x.units f.c.id).foldl Frame.own { g with t := { g.t with
          drain := l, drainFirst := g.t.drainFirst && !l.isEmpty } }).drainOne x
        .next g.takeConfirmed
      | us => .next (us.foldl Frame.want g).put

end Sys2Proof.Machine
end

