-- ==== Sys2Proof/Machine/Queues.lean ====
section
/-! DEFINITION. The queue table, completion records, halting, and the packets' own checks (R323 to R331). -/

namespace Sys2Proof.Machine

/-! ### Entries (R323, R324) -/

/-- An entry at reset (R323). -/
def Queue.start (q : Nat) : Queue := ⟨q, 0, 0, 0, 0, 0, 0, 0, 0, [], [], none, 0, false, false⟩
/-- A queue's entry. -/
def State.queue (s : State) (q : Nat) : Queue := (s.queues.find? (·.q == q)).getD (Queue.start q)
/-- Writes an entry back; the table is kept in ascending id. -/
def State.setQueue (s : State) (x : Queue) : State :=
  { s with queues := (insertKey (s.queues.map fun y => (y.q, y)) x.q x).map (·.2) }

/-- V (R323). -/
def Queue.valid (x : Queue) : Bool := bit x.w0 63
/-- PRIV (R323). -/
def Queue.priv (x : Queue) : Bool := bit x.w0 62
/-- HALT (R323). -/
def Queue.halted (x : Queue) : Bool := bit x.w0 61
/-- 2 ^ LOG2N (R323). -/
def Queue.ringSize (x : Queue) : Nat := 2 ^ fld x.w0 40 5
/-- 2 ^ CLOG2 (R323). -/
def Queue.cringSize (x : Queue) : Nat := 2 ^ fld x.w0 32 5
/-- The address of packet i (R324). -/
def Queue.packetAddr (x : Queue) (i : Nat) : Nat := fld x.w1 6 51 * 64 + 64 * (i % x.ringSize)
/-- Sets HALT. -/
def Queue.setHalt (x : Queue) (on : Bool) : Queue :=
  { x with w0 := if on then x.w0 ||| (1 : Word) <<< 61 else x.w0 &&& ~~~((1 : Word) <<< 61) }

/-- The packet types (R325). -/
def packetType (w : Word) : Nat := fld w 60 4
/-- Whether a started packet is a WAIT or BARRIER (R326). -/
def Started.waits (p : Started) : Bool := packetType (vget p.words 0 0) == 4 || packetType (vget p.words 0 0) == 5
/-- Whether a started packet holds back the later ones of its queue (R326). -/
def Started.blocks (p : Started) : Bool := p.waits || packetType (vget p.words 0 0) == 6

/-- Pending work (R324). -/
def Queue.pending (x : Queue) : Bool :=
  x.valid && !x.halted && (fld x.wridx 0 32 != x.rdidx.toNat || x.started.any (·.waits))

/-! ### Records (R329, R330) -/

/-- A record's three words (R329). -/
def recordOf (status type task : Nat) (utag : Nat) (index detail : Nat) (done irq : Bool) : Record :=
  ⟨BitVec.ofNat 64 (status * 2 ^ 56 + type * 2 ^ 52 + task % 2 ^ 20 * 2 ^ 32 + utag), BitVec.ofNat 64 index,
    BitVec.ofNat 64 detail, done, irq, [], false⟩

/-- The bytes of a record (R329). -/
def Record.bytes (r : Record) : List Byte := wordBytes r.w0 ++ wordBytes r.w1 ++ wordBytes r.w2 ++ wordBytes 0

/-- A completion, whose record if any is written in the frame's service phase (R329, R332). -/
def State.due (s : State) (q : Nat) (r : Option Record) : State := { s with dues := s.dues ++ [(q, r)] }

/-- Where a queue's next record goes (R329). -/
def Queue.recordAddr (x : Queue) : Nat := fld x.w2 5 52 * 32 + 32 * (x.cwridx.toNat % x.cringSize)

/-- Writes a record; one that cannot be written waits and halts its queue (R329). -/
def State.putRecord (s : State) (q : Nat) (r : Record) : State :=
  let x := s.queue q
  if !x.held.isEmpty then s.setQueue { x with held := x.held ++ [r] }
  else
    match s.writeVirt x.recordAddr r.bytes with
    | .error (a, why) => (s.inform 7 .write why a 0 q 0).setQueue { x.setHalt true with held := [r] }
    | .ok t =>
      let t := t.setQueue { x with cwridx := x.cwridx + 1, donecnt := if r.done then x.donecnt + 1 else x.donecnt }
      if bit x.w0 60 && r.irq then t.msix (fld x.w0 54 6) else t

/-- A started packet's own record (R329). -/
def Started.record (p : Started) (status task detail : Nat) : Record :=
  let w := vget p.words 0 0
  { recordOf status (packetType w) task (fld w 0 32) p.idx detail true (bit w 48) with begun := true }

/-- Takes a packet out of the started ones. -/
def State.unstart (s : State) (q idx : Nat) : State :=
  let x := s.queue q
  s.setQueue { x with started := x.started.filter (·.idx != idx) }

/-- Halts a queue: a WAIT or BARRIER that has not matched completes with ENDED (R326). -/
def State.haltQueue (s : State) (q : Nat) : State :=
  let x := s.queue q
  let ws := x.started.filter (·.waits)
  ws.foldl (fun s p => (s.unstart q p.idx).due q (some (p.record 7 0 0))) (s.setQueue (x.setHalt true))

/-- A record that is due; its queue halts when the status is not OK (R326, R329). -/
def State.settleRecord (s : State) (q status : Nat) (r : Record) : State :=
  let t := s.due q (some r)
  if status ≠ 0 then t.haltQueue q else t

/-- Completes a packet (R326, R329): without a record DONECNT alone advances. The tiles of a failed task return once the
record is written (R30). -/
def State.completePacket (s : State) (q idx status task detail : Nat) (tiles : List Nat) : State :=
  match (s.queue q).started.find? (·.idx == idx) with
  | none => s
  | some p =>
    let s := s.unstart q idx
    if status ≠ 0 ∨ bit (vget p.words 0 0) 49 then
      s.settleRecord q status { p.record status task detail with tiles := tiles }
    else s.due q none

/-- Writes one completion: a record that cannot be written halts the queue, whose WAIT or BARRIER then ends (R326, R329). -/
def State.writeDue (s : State) (d : Nat × Option Record) : State :=
  match d.2 with
  | none =>
    let x := s.queue d.1
    s.setQueue { x with donecnt := x.donecnt + 1 }
  | some r =>
    let t := s.putRecord d.1 r
    if (t.queue d.1).halted && !(s.queue d.1).halted then t.haltQueue d.1 else t

/-- Whether a queue's completions wait, because its ring lies behind a port that retrains (R314). -/
def State.ringStands (s : State) (q : Nat) : Bool := s.rangeWaits (s.queue q).recordAddr 32

/-- Whether a completion may be written now. -/
def State.dueReady (s : State) (d : Nat × Option Record) : Bool := !s.ringStands d.1

/-- Writes the completions that are due, in completion order; those whose ring waits for a port stay (R314, R329, R332). -/
def State.writeDues (s : State) : State :=
  s.dues.foldl (fun s d => if s.dueReady d then s.writeDue d else { s with dues := s.dues ++ [d] }) { s with dues := [] }

/-- Whether a tile of a failed task waits for its failure record to be written (R30, R46). -/
def State.unrecorded (s : State) (ptn : Nat) : Bool :=
  s.dues.any (fun d => d.2.any (·.tiles.contains ptn)) || s.queues.any (fun x => x.held.any (·.tiles.contains ptn))
    || s.graphs.toList.any fun x => x.run.any (·.tiles.contains ptn)

/-! ### The packet's checks (R325, R328) -/

/-- Whether a word is an address that translation can name. -/
def addressOk (w : Word) : Bool := fld w 57 7 == 0

/-- Whether a launch context is one (R328). All 64 bits of word 7 are TTB's, so none makes the packet bad: TTB drops its reserved
bits as it is written (R19, R291, notes/assumptions/97.md). -/
def contextOk (w : Vector Word 8) : Bool :=
  8 ≤ fld (vget w 4 0) 59 5 && fld (vget w 4 0) 59 5 ≤ 20 && fld (vget w 4 0) 57 2 == 0 && fld (vget w 4 0) 0 7 == 0
    && fld (vget w 5 0) 57 7 == 0 && fld (vget w 5 0) 0 12 == 0
    && fld (vget w 6 0) 57 7 == 0 && fld (vget w 6 0) 0 5 == 0

/-- Whether words 4 to 7 are zero. -/
def tailZero (w : Vector Word 8) : Bool := vget w 4 0 == 0 && vget w 5 0 == 0 && vget w 6 0 == 0 && vget w 7 0 == 0

/-- Whether a packet's words 1 to 7 fit its type (R325). -/
def State.bodyOk (s : State) (w : Vector Word 8) : Bool :=
  let w0 := vget w 0 0
  let w1 := vget w 1 0
  let w2 := vget w 2 0
  let w3 := vget w 3 0
  match packetType w0 with
  | 0 => w1 == 0 && w2 == 0 && w3 == 0 && tailZero w
  | 1 => addressOk w1 && addressOk w2 && fld w3 32 32 == 0 && (bit w0 52 || w3 == 0) && contextOk w
  | 2 => addressOk w1 && fld w2 37 27 == 0 && fld w3 32 32 == 0 && contextOk w
  | 3 => addressOk w1 && fld w1 0 3 == 0 && fld w2 1 63 == 0 && tailZero w
  | 4 => addressOk w1 && fld w1 0 3 == 0 && fld w2 2 62 == 0 && tailZero w
  | 5 => fld w1 12 52 == 0 && (s.queue (fld w1 0 12)).valid && fld w2 32 32 == 0 && w3 == 0 && tailZero w
  | 6 => addressOk w1 && 1 ≤ w2.toNat && w2.toNat ≤ 2 ^ 40 && w3 == 0 && tailZero w
  | _ => false

/-- Whether a packet is not bad (R325). -/
def State.packetOk (s : State) (w : Vector Word 8) : Bool :=
  let w0 := vget w 0 0
  packetType w0 ≤ 6 && fld w0 57 3 ≤ 5 && fld w0 54 3 ≤ 5 && fld w0 32 16 == 0
    && (!bit w0 52 || packetType w0 == 1) && s.bodyOk w

/-! ### The command core's own accesses (R326, R371) -/

/-- Why the command core or the GSQ cannot read: 3 uncorrectable data, 5 a translation, as status codes (R330, R371). -/
def State.coreRead (s : State) (va n : Nat) : Except Nat (List Byte) :=
  match s.range .read va n with
  | .error _ => .error 5
  | .ok l => if s.badPieces l then .error 3 else .ok (s.readPieces l)

/-- What the command core, the GSQ or the distributor has read: base die 0 merges the stamps (R282). -/
def State.coreHasRead (s : State) (va n : Nat) : State :=
  match s.range .read va n with
  | .error _ => s
  | .ok l => s.noteReads 8 l

/-- A translation that the command core or the GSQ is refused is recorded (R365). -/
def State.coreFault (s : State) (acc : Access) (va n q : Nat) : State :=
  match s.range acc va n with
  | .error (a, why) => s.inform 7 acc why a 0 q 0
  | .ok _ => s

/-- A write of the command core or the GSQ, performed at its home (R326). -/
def State.coreWrite (s : State) (va : Nat) (bs : List Byte) : Except Nat State :=
  match s.range .write va bs.length with
  | .error _ => .error 5
  | .ok l => .ok ((s.writePieces l bs).noteWrites 8 l)

/-- The command core's acquire at a packet's scope may complete (R282, R326). -/
def State.coreAcquires (s : State) (w0 : Word) : Bool := fld w0 57 3 < 3 || s.acquireReady 8

/-- The command core's release at a packet's scope (R282, R326). -/
def State.coreRelease (s : State) (scope : Nat) : State := if 3 ≤ scope then s.releaseDie 8 else s

/-- The store or add of a SIGNAL, as one write (R326). -/
def State.signal (s : State) (add : Bool) (va : Nat) (v : Word) : Except Nat State := do
  let old ← if add then s.coreRead va 8 else .ok []
  let s := if add then s.coreHasRead va 8 else s
  s.coreWrite va (wordBytes (if add then BitVec.ofNat 64 (numLE old) + v else v))

/-! ### Queue-table writes (R323) -/

/-- The fields of word 0 that hold what is written. -/
def queueWord0 (v : Word) : Word :=
  v &&& BitVec.ofNat 64 (0xFFC0_0000_0000_0000 + 31 * 2 ^ 40 + 31 * 2 ^ 32)

/-- Whether word 0 may register a queue (R323). -/
def registerOk (v : Word) : Bool :=
  4 ≤ fld v 40 5 && fld v 40 5 ≤ 16 && 4 ≤ fld v 32 5 && fld v 32 5 ≤ 16 && queueWord0 v == v

/-- Writes the records that wait, in order (R329). -/
def State.putHeld (s : State) (q : Nat) : State :=
  let x := s.queue q
  x.held.foldl (fun s r => s.putRecord q r) (s.setQueue { x with held := [] })

/-- Whether a packet of a queue is in progress: it is started, or its record is still to be written (R323, R329). -/
def State.inProgress (s : State) (q : Nat) : Bool :=
  let x := s.queue q
  !x.started.isEmpty || x.held.any (·.done) || s.dues.any fun d => d.1 == q && (d.2.map (·.done)).getD true

/-- Resumes a queue: the records that wait are written first; one that still cannot be halts it again (R323, R329). -/
def State.resumeQueue (s : State) (q : Nat) : State :=
  let x := s.queue q
  ((s.setQueue (x.setHalt false)).putHeld q)

/-- HALT and IRQ of word 0. -/
def haltIrq : Word := BitVec.ofNat 64 (2 ^ 61 + 2 ^ 60)

/-- Writes word 0 of an entry (R323): one that is not registered, or of a registered one only HALT, IRQ, or V
cleared alone while no packet is in progress. A write of a registered entry that also has nonzero RSV bits changes another
field, and is left as a whole; one of an entry that is not registered drops its RSV bits, unless it would register it (R19,
notes/assumptions/89.md). A queue registered without HALT writes the records that still wait (R329,
notes/assumptions/89.md). -/
def State.writeQueueHead (s : State) (q : Nat) (v : Word) : State :=
  let x := s.queue q
  if !x.valid then
    if bit v 63 && (!registerOk v || s.locked) then s
    else
      let s := s.setQueue { x with w0 := queueWord0 v }
      if bit v 63 && !bit v 61 then s.putHeld q else s
  else if v ^^^ x.w0 = (1 : Word) <<< 63 then
    if s.inProgress q then s else s.setQueue { x with w0 := v, gone := x.mapped.isSome }
  else if (v ^^^ x.w0) &&& ~~~haltIrq ≠ 0 then s
  else
    let s := s.setQueue { x with w0 := (x.w0 &&& ~~~((1 : Word) <<< 60)) ||| (v &&& (1 : Word) <<< 60) }
    if bit v 61 && !x.halted then s.haltQueue q
    else if !bit v 61 && x.halted then s.resumeQueue q
    else s

/-- Writes a word of a queue-table entry (R323). -/
def State.writeQueueWord (s : State) (q w : Nat) (v : Word) : State :=
  let x := s.queue q
  match w with
  | 0 => s.writeQueueHead q v
  | 1 => if x.valid then s else s.setQueue { x with w1 := v &&& BitVec.ofNat 64 (2 ^ 57 - 64) }
  | 2 => if x.valid then s else s.setQueue { x with w2 := v &&& BitVec.ofNat 64 (2 ^ 57 - 32) }
  | 3 => if x.halted then s.setQueue { x with rdidx := v.extractLsb' 0 32 } else s
  | _ => s

/-- QUEUE_REGISTER (R323) -/
def execQueueRegister (q : Nat) (w : Fin 8) (v : Word) (s : State) : Host.Outcome State Fault Refusal :=
  (if q < 4096 then s.writeQueueWord q w v else s).event
/-- QUEUE_UNREGISTER (R323) -/
def execQueueUnregister (q : Nat) (v : Word) (s : State) : Host.Outcome State Fault Refusal :=
  (if q < 4096 then s.writeQueueWord q 0 v else s).event
/-- QUEUE_HALT (R323, R326) -/
def execQueueHalt (q : Nat) (v : Word) (s : State) : Host.Outcome State Fault Refusal :=
  (if q < 4096 then s.writeQueueWord q 0 v else s).event
/-- QUEUE_RESUME (R323, R329) -/
def execQueueResume (q : Nat) (v : Word) (s : State) : Host.Outcome State Fault Refusal :=
  (if q < 4096 then s.writeQueueWord q 0 v else s).event
/-- RDIDX_WRITE (R323) -/
def execRdidxWrite (q : Nat) (v : Word) (s : State) : Host.Outcome State Fault Refusal :=
  (if q < 4096 then s.writeQueueWord q 3 v else s).event
/-- Writes a register of the doorbell aperture: WRIDX or CRDIDX of a queue (R321, R324, R341). -/
def State.writeDoorbell (s : State) (q : Nat) (credit : Bool) (v : Word) : State :=
  let v := (v.extractLsb' 0 32).zeroExtend 64
  if q < 4096 && !s.locked then s.setQueue (if credit then { s.queue q with crdidx := v } else { s.queue q with wridx := v })
  else s

/-- NOTIFY_WRITE (R321, R324, R341) -/
def execNotifyWrite (q : Nat) (v : Word) (s : State) : Host.Outcome State Fault Refusal := (s.writeDoorbell q false v).event
/-- CRDIDX_WRITE (R331, R341) -/
def execCrdidxWrite (q : Nat) (v : Word) (s : State) : Host.Outcome State Fault Refusal := (s.writeDoorbell q true v).event

end Sys2Proof.Machine
end

