-- ==== Sys2Proof/Machine/Graphs.lean ====
section
/-! DEFINITION. How tasks are handed to the distributor, and the graph sequencer: descriptors, replays, steps and
nodes (R28, R32, R35, R309, R334 to R338). -/

namespace Sys2Proof.Machine

/-! ### Handing over a task (R28, R32, R338) -/

/-- The first task id from one on that no task of the module has (R32). -/
def State.freeTid (s : State) : Nat → Nat → Nat
  | 0, t => t
  | n + 1, t => if s.tasks.any (·.tid == t) then s.freeTid n ((t + 1) % 2 ^ 20) else t

/-- Hands a task to the distributor: it is Pending (R28, R338). -/
def State.newTask (s : State) (q : Nat) (src : TaskSrc) (at_ : Nat) (cmpl : Option Word) (arg s9 s10 : Word)
    (lctx : Vector Word 4) (prio acq rel : Nat) (pers : Bool) (wdti : BitVec 32) : State × Nat :=
  let tid := s.freeTid s.tasks.length s.nextTid
  let k : Task := ⟨tid, q, src, at_, none, cmpl, arg, s9, s10, lctx, prio, acq, rel, pers, wdti, .pending, 0, 0, [], [],
    0, 0, s.nextId⟩
  ({ s with tasks := s.tasks ++ [k], nextTid := (tid + 1) % 2 ^ 20, nextId := s.nextId + 1 }, tid)

/-- The launch context of a packet (R328). -/
def contextOf (w : Vector Word 8) : Vector Word 4 := #v[vget w 4 0, vget w 5 0, vget w 6 0, vget w 7 0]

/-- Hands over the task of a TASK packet or record (R325, R326). -/
def State.packetTask (s : State) (q : Nat) (src : TaskSrc) (w : Vector Word 8) (arg : Word) (cmpl : Option Word) : State :=
  let w0 := vget w 0 0
  (s.newTask q src (vget w 1 0).toNat cmpl arg 0 0 (contextOf w) (fld w0 50 2) (fld w0 57 3) (fld w0 54 3) (bit w0 52)
    ((vget w 3 0).extractLsb' 0 32)).1

/-! ### Graph descriptors (R334, R335) -/

/-- A node record, read; its successors are filled in from the list (R334). -/
def readNode (w : List Word) : Node × Nat × Nat :=
  let g (i : Nat) : Word := w.getD i 0
  (⟨fld (g 0) 62 2, fld (g 0) 60 2, fld (g 0) 57 3, fld (g 0) 54 3, [], fld (g 0) 0 12, fld (g 1) 0 57, g 2, g 3,
    fld (g 4) 0 57, fld (g 5) 0 57, (g 6).extractLsb' 0 32⟩, fld (g 0) 16 13, fld (g 0) 32 12)

/-- Whether a node's fields keep R334. SYNC, DONE and WDTI of a node that is not PERS are not looked at, but for bits above an
address (notes/assumptions/94.md). -/
def nodeOk (w : List Word) : Bool :=
  let g (i : Nat) : Word := w.getD i 0
  fld (g 0) 44 10 == 0 && fld (g 0) 29 3 == 0 && fld (g 0) 12 4 == 0 && fld (g 0) 57 3 ≤ 5 && fld (g 0) 54 3 ≤ 5
    && fld (g 1) 57 7 == 0 && fld (g 4) 57 7 == 0 && fld (g 5) 57 7 == 0 && fld (g 6) 32 32 == 0 && g 7 == 0

/-- Reads the sixteen-bit entries of a successor list (R334). -/
def State.readList (s : State) (va n : Nat) : Except Nat (List Nat) :=
  (s.coreRead va (2 * n)).map fun bs => (List.range n).map fun i => numLE ((bs.drop (2 * i)).take 2)

/-- Reads the nodes of a graph with their successors (R334). -/
def State.readNodes (s : State) (va succ : Nat) : Nat → Except Nat (List Node)
  | 0 => .ok []
  | n + 1 => do
    let l ← s.readNodes va succ n
    let bs ← s.coreRead (va + 64 + 64 * n) 64
    let w := wordsOf 8 bs
    let _ ← if nodeOk w then .ok () else .error 2
    let (x, first, cnt) := readNode w
    let su ← s.readList (succ + 2 * first) cnt
    return l ++ [{ x with succ := su }]

/-- How often a node stands in the successor lists of others. -/
def predecessors (l : List Node) (n : Nat) : Nat := (l.map fun x => x.succ.count n).foldl (· + ·) 0

/-- Whether the nodes can all be taken, each after its predecessors: no cycle (R335). -/
def acyclic (l : List Node) : Nat → List Nat → Bool
  | 0, done => done.length == l.length
  | n + 1, done =>
    let more := (List.range l.length).filter fun i => !done.contains i
      && (List.range l.length).all fun j => done.contains j || !((l.map (·.succ)).getD j []).contains i
    acyclic l n (done ++ more)

/-- Whether a graph may be loaded (R335). -/
def graphOk (l : List Node) : Bool :=
  (l.all fun x => x.succ.all (· < l.length)) && (l.zipIdx.all fun p => p.1.init == predecessors l p.2)
    && acyclic l l.length []

/-- Reads a graph descriptor, or says with which status its packet ends (R330, R334, R335). -/
def State.readGraph (s : State) (va : Nat) : Except Nat (List Node × Nat) := do
  let bs ← s.coreRead va 64
  let w := wordsOf 8 bs
  let w0 := w.getD 0 0
  let w1 := w.getD 1 0
  let _ ← if fld w0 12 44 == 0 && fld w1 57 7 == 0 && !bit w1 0 && (w.drop 2).all (· == 0) then .ok () else .error 2
  let l ← s.readNodes va (fld w1 1 56 * 2) (fld w0 0 12 + 1)
  let _ ← if graphOk l then .ok () else .error 2
  return (l, fld w0 56 8)

/-- What reading a graph descriptor has read (R282, R334). -/
def State.graphHasRead (s : State) (va : Nat) (l : List Node) : State :=
  let s := s.coreHasRead va (64 + 64 * l.length)
  match s.coreRead va 16 with
  | .error _ => s
  | .ok bs => s.coreHasRead (fld ((wordsOf 2 bs).getD 1 0) 1 56 * 2) (2 * (l.map (·.succ.length)).foldl (· + ·) 0)

/-! ### Replays (R335, R336) -/

/-- The graph in a slot. -/
def State.graph (s : State) (g : Nat) : Graph := vget s.graphs g ⟨[], 0, none, []⟩
/-- Writes a slot. -/
def State.setGraph (s : State) (g : Nat) (x : Graph) : State := { s with graphs := vset s.graphs g x }

/-- The replay that a packet asks for, at its first step (R325, R336). -/
def Replay.start (x : Graph) (q idx : Nat) (own : Bool) (w : Vector Word 8) : Replay :=
  let steps := fld (vget w 2 0) 0 32
  ⟨q, idx, own, fld (vget w 3 0) 0 32, if steps = 0 then 2 ^ 32 else steps, false, x.nodes.map (·.init), [], [], [], [], [],
    false, false, false, none, [], fld (vget w 0 0) 54 3, contextOf w⟩

/-- Ends a GRAPH packet, or a catalogue launch of one, which completes no packet (R309, R329). -/
def State.endReplayPacket (s : State) (q idx : Nat) (own : Bool) (status step : Nat) (tiles : List Nat) : State :=
  if own then s.completePacket q idx status 0 step tiles
  else if status = 0 then s
  else s.settleRecord q status { recordOf status 2 0 0 idx step false false with tiles := tiles }

/-- Whether a GRAPH packet asks for a replay of a slot that is replaying: with LOAD = 0 it is not started yet (R335). -/
def State.graphWaits (s : State) (w : Vector Word 8) : Bool :=
  packetType (vget w 0 0) == 2 && !bit (vget w 2 0) 36 && (s.graph (fld (vget w 2 0) 32 4)).run.isSome

/-- Starts a graph (R335): a slot that replays refuses LOAD = 1, and keeps a catalogue launch with LOAD = 0 waiting. -/
def State.startGraph (s : State) (q idx : Nat) (own : Bool) (w : Vector Word 8) : State :=
  let g := fld (vget w 2 0) 32 4
  let x := s.graph g
  if bit (vget w 2 0) 36 then
    if x.run.isSome then s.endReplayPacket q idx own 2 0 []
    else match s.readGraph (vget w 1 0).toNat with
      | .error e =>
        (if e = 5 then s.coreFault .read (vget w 1 0).toNat 64 q else s).endReplayPacket q idx own e 0 []
      | .ok (l, h) =>
        let x : Graph := { x with nodes := l, hm1 := h }
        (s.graphHasRead (vget w 1 0).toNat l).setGraph g { x with run := some (.start x q idx own w) }
  else if x.nodes.isEmpty then s.endReplayPacket q idx own 2 0 []
  else if x.run.isSome then s.setGraph g { x with waitq := x.waitq ++ [⟨q, idx, own, w⟩] }
  else s.setGraph g { x with run := some (.start x q idx own w) }

/-- A node of a graph. -/
def Graph.node (x : Graph) (n : Nat) : Node := x.nodes.getD n ⟨0, 0, 0, 0, [], 0, 0, 0, 0, 0, 0, 0⟩

/-- What the GSQ writes when a graph ends or fails (R336). -/
def allOnes : Word := BitVec.allOnes 64

/-- Writes the end mark to the SYNC word of every launched PERS node (R336); one that cannot be written is passed over
(notes/assumptions/94.md). -/
def State.endSync (s : State) (x : Graph) (r : Replay) : State :=
  r.launched.foldl (fun s n => match s.coreWrite (x.node n).sync (wordBytes allOnes) with
    | .ok t => t
    | .error _ => s) s

/-- A node fails: no further node fires, and the PERS nodes are told (R336). -/
def State.failNode (s : State) (g status : Nat) : State :=
  let x := s.graph g
  match x.run with
  | none => s
  | some r =>
    if r.failed.isSome then s
    else (s.setGraph g { x with run := some { r with
      failed := some status, fired := r.fired.filter fun n => (x.node n).kind != 3 } }).endSync x r

/-- Changes the replay of a slot. -/
def State.updateReplay (s : State) (g : Nat) (h : Replay → Replay) : State :=
  let x := s.graph g
  s.setGraph g { x with run := x.run.map h }

/-- The node's work is over: it still has to complete (R336). -/
def State.nodeWorked (s : State) (g n : Nat) : State := s.updateReplay g fun r => { r with worked := r.worked ++ [n] }

/-- The node will never complete. -/
def State.nodeStopped (s : State) (g n : Nat) : State := s.updateReplay g fun r => { r with fired := r.fired.erase n }

/-- The acquire scope of a node: every step after the first acquires what came before at device scope (R337). -/
def nodeAcquire (nd : Node) (r : Replay) : Nat := if r.later then max nd.acq 4 else nd.acq

/-- Whether the GSQ's acquire for a node may complete (R282, R337). -/
def State.gsqAcquires (s : State) (nd : Node) (r : Replay) : Bool := nodeAcquire nd r < 3 || s.acquireReady 8

/-- Launches the task of a TASK or PERS node (R31, R336, R337). -/
def State.launchNode (s : State) (g n : Nat) (x : Graph) (r : Replay) : State × Nat :=
  let nd := x.node n
  let h := r.step % (x.hm1 + 1)
  let arg := nd.val + BitVec.ofNat 64 h * nd.hstr
  s.newTask r.queue (.node g n) nd.addr none arg (BitVec.ofNat 64 (r.step % 2 ^ 32)) (BitVec.ofNat 64 h) r.lctx nd.prio
    (nodeAcquire nd r) nd.rel (nd.kind == 3) (if nd.kind = 3 then nd.wdti else 0)

/-- A node becomes ready (R336): a TASK is launched, a SIGNAL will store, a COND will be read, and a PERS is launched in
its first step and told the step in each. -/
def State.fireNode (s : State) (g n : Nat) : State :=
  let x := s.graph g
  match x.run with
  | none => s
  | some r0 =>
    if r0.failed.isSome then s
    else
      let s := s.updateReplay g fun r => { r with fired := r.fired ++ [n] }
      let r := ((s.graph g).run).getD r0
      let nd := x.node n
      match nd.kind with
      | 0 => (s.launchNode g n x r).1
      | 1 | 2 => s
      | _ =>
        let s := if r.launched.contains n then s
          else
            let (t, tid) := s.launchNode g n x r
            t.updateReplay g fun r => { r with pers := r.pers ++ [(n, tid)], launched := r.launched ++ [n] }
        match s.coreWrite nd.sync (wordBytes (BitVec.ofNat 64 r.step)) with
        | .ok t => t
        | .error e => ((s.coreFault .write nd.sync 8 r.queue).nodeStopped g n).failNode g e

/-- Fires the nodes of a list in ascending index (R35). -/
def State.fireNodes (s : State) (g : Nat) (l : List Nat) : State := l.foldl (fun s n => s.fireNode g n) s

/-- Ends a replay whose last step or whose failure is over: its packet completes, and a waiting replay starts from
its own first step (R335 to R337). -/
def State.endReplay (s : State) (g : Nat) (r : Replay) : State :=
  let x := s.graph g
  let s := (s.coreRelease r.rel).endReplayPacket r.queue r.idx r.own (r.failed.getD 0) r.step r.tiles
  match x.waitq with
  | [] => s.setGraph g { x with run := none }
  | w :: l => s.setGraph g { x with run := some (.start x w.queue w.idx w.own w.words), waitq := l }

/-- Whether a replay is over: after its last step or a failure, with nothing launched still running (R336). -/
def Replay.finished (r : Replay) : Bool := (r.over_ || r.failed.isSome) && r.fired.isEmpty && r.pers.isEmpty

/-- Ends a replay that is over. -/
def State.settleReplay (s : State) (g : Nat) : State :=
  match (s.graph g).run with
  | none => s
  | some r => if r.finished then s.endReplay g r else s

/-- Whether a word that a graph's nodes read or write lies behind a port that retrains (R314, notes/assumptions/96.md). -/
def State.graphStands (s : State) (g : Nat) : Bool :=
  s.retraining && (s.graph g).nodes.any fun nd => match nd.kind with
    | 0 => false
    | 3 => s.rangeWaits nd.sync 8 || s.rangeWaits nd.done 8
    | _ => s.rangeWaits nd.addr 8

/-- GRAPH_STEP_BEGIN (R336): counts are set, and every node whose count is zero is ready. -/
def execGraphStepBegin (g : Fin 16) (s : State) : Host.Outcome State Fault Refusal :=
  let x := s.graph g
  match x.run with
  | none => s.event
  | some r =>
    if r.begun || r.over_ || r.failed.isSome || s.graphStands g then s.event
    else
      let s := s.setGraph g { x with run := some { r with
        begun := true, counts := x.nodes.map (·.init), fired := [], worked := [], doneN := [] } }
      ((s.fireNodes g ((List.range x.nodes.length).filter fun n => (x.node n).init == 0)).settleReplay g).event

/-- Every die releases: the events of a step happen-before those of the next at device scope (R337). -/
def State.releaseAll (s : State) : State := (List.range 12).foldl (fun s d => s.releaseDie d) s

/-- The end of a step (R336, R337): the next begins, or the graph ends and its PERS nodes are told. -/
def State.stepEnd (s : State) (g : Nat) (x : Graph) (r : Replay) : State :=
  if r.ending ∨ r.left ≤ 1 then
    ((s.updateReplay g fun r => { r with over_ := true }).endSync x r).settleReplay g
  else s.releaseAll.updateReplay g fun r =>
    { r with begun := false, later := true, step := r.step + 1, left := r.left - 1 }

/-- Whether a fired node may complete (R336, R337): its work is over, its store may be made, or its DONE word reads the
step. A PERS node whose DONE word cannot be read waits (notes/assumptions/94.md). -/
def State.nodeReady (s : State) (x : Graph) (r : Replay) (n : Nat) : Bool :=
  r.fired.contains n && (match (x.node n).kind with
    | 1 => s.gsqAcquires (x.node n) r
    | 3 => (match s.coreRead (x.node n).done 8 with
        | .ok bs => numLE bs == r.step
        | .error _ => false)
    | _ => r.worked.contains n)

/-- What a node still does when it completes: a SIGNAL releases and stores, a PERS releases what it has done in the step,
or the status with which it fails (R336, R337). A TASK has released at its end, and a COND at its read. -/
def State.nodeActs (s : State) (nd : Node) : Except Nat State :=
  match nd.kind with
  | 1 => (s.coreRelease nd.rel).coreWrite nd.addr (wordBytes nd.val)
  | 3 => .ok ((s.coreHasRead nd.done 8).coreRelease nd.rel)
  | _ => .ok s

/-- GRAPH_NODE_COMPLETE (R336): a SIGNAL's store is made and acknowledged; each successor's count falls, and those at zero
become ready. -/
def execGraphNodeComplete (g : Fin 16) (node : Nat) (s : State) : Host.Outcome State Fault Refusal :=
  let x := s.graph g
  match x.run with
  | none => s.event
  | some r =>
    if !s.nodeReady x r node || s.graphStands g then s.event
    else match s.nodeActs (x.node node) with
    | .error e =>
      ((((s.coreFault .write (x.node node).addr 8 r.queue).nodeStopped g node).failNode g e).settleReplay g).event
    | .ok s =>
      let counts := (x.node node).succ.foldl (fun c m => c.set m (c.getD m 0 - 1)) r.counts
      let r := { r with counts := counts, fired := r.fired.erase node, worked := r.worked.erase node, doneN := r.doneN ++ [node] }
      let s := s.setGraph g { x with run := some r }
      let ready := (List.range x.nodes.length).filter fun n => (x.node node).succ.contains n && counts.getD n 0 == 0
      let s := s.fireNodes g ready
      if r.failed.isNone && r.doneN.length == x.nodes.length then (s.stepEnd g x r).event else (s.settleReplay g).event

/-- COND_NODE_READ (R336, R337): after the node's acquire its word is read; a nonzero one ends the graph after this step. -/
def execCondNodeRead (g : Fin 16) (node : Nat) (s : State) : Host.Outcome State Fault Refusal :=
  let x := s.graph g
  match x.run with
  | none => s.event
  | some r =>
    if !(r.fired.contains node && (x.node node).kind == 2 && !r.worked.contains node && s.gsqAcquires (x.node node) r) || s.graphStands g
    then s.event
    else match s.coreRead (x.node node).addr 8 with
      | .error e => ((((s.coreFault .read (x.node node).addr 8 r.queue).nodeStopped g node).failNode g e).settleReplay g).event
      | .ok bs =>
        let s := (s.coreHasRead (x.node node).addr 8).coreRelease (x.node node).rel
        ((s.updateReplay g fun r => { r with ending := r.ending || numLE bs != 0 }).nodeWorked g node).event

/-- A node's task has ended: with success its work is over; with a failure it fails the graph, and its tiles return with the
graph's record (R30). A PERS node's task that ends is awaited no more (R336). -/
def State.nodeTaskEnded (s : State) (g n tid status : Nat) (tiles : List Nat) : State :=
  let x := s.graph g
  let s := s.updateReplay g fun r => { r with
    pers := r.pers.filter (·.2 != tid), tiles := if status = 0 then r.tiles else r.tiles ++ tiles }
  let s := if status ≠ 0 then (s.nodeStopped g n).failNode g status
    else if (x.node n).kind = 3 then s
    else s.nodeWorked g n
  s.settleReplay g

/-! ### Completion of a task (R45, R326, R329) -/

/-- The end of a task reaches its source: a packet completes, a node completes or fails, and a catalogue launch leaves
a record when its record asks for one or it fails (R309, R326, R329, R336). The tiles are those of a task that has failed
(R30). -/
def State.taskReport (s : State) (k : Task) (status detail : Nat) (tiles : List Nat) : State :=
  let tid := if status = 1 then 0 else k.tid
  match k.src with
  | .packet q idx => s.completePacket q idx status tid detail tiles
  | .node g n => s.nodeTaskEnded g n k.tid status tiles
  | .catalogue q e =>
    let w := k.cmpl.getD 0
    if status ≠ 0 ∨ bit w 49 then
      s.settleRecord q status { recordOf status 1 tid (fld w 0 32) e detail false (bit w 48) with tiles := tiles }
    else s

end Sys2Proof.Machine
end

