-- ==== Sys2Proof/Machine/Fabric.lean ====
section
/-! DEFINITION. The fabric sequencer: posts, readiness notices, transfers at their receivers, folding, catalogue launches,
and the completion of transfer IDs (R253 to R260, R288 to R307, R309, R319). -/

namespace Sys2Proof.Machine

/-! ### Posts (R254, R300, R301) -/

/-- The post of a strand under a transfer ID. -/
def State.post? (s : State) (sid chan id : Nat) : Option PostRec :=
  s.posts.find? fun p => p.sid == sid && p.chan == chan && p.id == id

/-- Writes a post back. -/
def State.setPost (s : State) (p : PostRec) : State :=
  { s with posts := replaceIf s.posts (fun x => x.sid == p.sid && x.chan == p.chan && x.id == p.id) p }

/-- Whether a collective folds (R256). -/
def collFolds (c : Coll) : Bool := c.op == 2 || c.op == 4 || c.op == 5

/-- The member indices that receive data from a member (R301). -/
def PostRec.receivers (p : PostRec) : List Nat :=
  let all := List.range p.members.length
  match p.work with
  | .fire _ => all
  | .coll c => match c.op with
    | 1 => if p.self = c.root then all else []
    | 2 => all.filter (· == c.root)
    | _ => all

/-- The member indices that a member receives data from (R301). -/
def PostRec.senders (p : PostRec) : List Nat :=
  let all := List.range p.members.length
  match p.work with
  | .fire _ => []
  | .coll c => match c.op with
    | 1 => all.filter (· == c.root)
    | 2 => if p.self = c.root then all else []
    | _ => all

/-- The first failure stands (R306). -/
def PostRec.failWith (p : PostRec) (code : Nat) : PostRec := { p with fail := some (p.fail.getD code) }

/-- Whether everything that a post waits for is over (R258, R259). -/
def State.postDone (s : State) (p : PostRec) : Bool :=
  p.handed && p.receivers.all p.served.contains && p.senders.all p.got.contains
    && !s.xfers.any fun x => x.post == some (p.sid, p.chan, p.id)

/-! ### Reports between the ends (R258, R259, R306) -/

/-- A receiver's report reaches the sender's post: the flags of what was folded there show in the sender's token too (R306,
notes/assumptions/92.md). -/
def State.takeServed (s : State) (r : Served) : State :=
  match s.post? r.strand r.chan r.id with
  | none => s
  | some p =>
    let p := if r.code = 0 then p else p.failWith r.code
    s.setPost { p with
      served := p.served ++ [r.idx]
      flags := ⟨p.flags.nan || r.nan, p.flags.inf || r.inf, p.flags.ovf || r.ovf⟩
      miss := p.miss || r.miss }

/-- Sends a report to the sender's module. -/
def State.report_ (s : State) (r : Served) : State :=
  if r.dest.modu = s.modId then s.takeServed r else s.send r.dest.modu (.served { r with ver := s.cur.toNat })

/-- The report that answers a notice. -/
def answerTo (n : Notice) (code : Nat) (fl : CallFlags) (miss : Bool) : Served :=
  ⟨n.frm, n.strand, n.chan, n.id, n.ridx, code, fl.nan, fl.inf, fl.ovf, miss, n.ver⟩

/-! ### Sending notices (R295, R390) -/

/-- Sends a readiness notice; a receiver that no route reaches has failed with UNREACH (R314, R390). -/
def State.sendNotice (s : State) (n : Notice) : State :=
  if n.dest.modu = s.modId then { s with notices := s.notices ++ [n] }
  else if s.route n.dest.modu = .none then s.takeServed (answerTo n 4 ⟨false, false, false⟩ false)
  else s.send n.dest.modu (.notice n)

/-! ### The receiver's side: destinations (R293, R301, R303) -/

/-- The pieces of the destination of `n` bytes at `pos` of a transfer (R301). -/
def Xfer.places (x : Xfer) (pos n : Nat) : List (Nat × Nat) :=
  match x.how with
  | .transposed rows cols esz =>
    (List.range (n / 2 ^ esz)).map fun k =>
      let i := pos / 2 ^ esz + k
      (x.dst + (i % cols * rows + i / cols) * 2 ^ esz, 2 ^ esz)
  | _ => [(x.dst + pos, n)]

/-- The keys of a chunk's destination, or the first address that is refused and why (R298, R319). -/
def State.placeKeys (s : State) (acc : Access) : List (Nat × Nat) → Except (Nat × Nat) (List (Nat × Nat))
  | [] => .ok []
  | (va, n) :: l => do
    let k ← s.range acc va n
    let r ← s.placeKeys acc l
    return k ++ r

/-- The status code of a refused translation (R306). -/
def refusedCode (why : Nat) : Nat := match why with | 1 => 3 | 2 => 4 | _ => 2

/-- A strand that holds a tile, a resident one first (R252, R295). -/
def State.tileStrands (s : State) (ptn : Nat) : List Strand :=
  let here := s.strands.filter (·.ptn == ptn)
  let resident (t : Strand) : Bool := ((s.task? t.task).map (·.st == .running)).getD false
  here.filter resident ++ here.filter fun t => !resident t

/-- The context whose scratchpad a strand's counters lie in. -/
def Strand.home (t : Strand) : Nat := t.saved.getD t.cur

/-- An arrival at a tile, for the strand there that has a counter armed at the address (R295). -/
def State.arriveAt (s : State) (ptn : Nat) (ctx : Option Nat) (bca n : Nat) : State :=
  match ctx with
  | some c => s.arrive c bca n
  | none =>
    let l := s.tileStrands ptn
    match (l.find? fun t => t.armed.contains (Key.pad t.home bca)).or l.head? with
    | none => s
    | some t => s.arrive t.home bca n

/-- The queue and task that a record about a tile names (R365). -/
def State.tileIds (s : State) (ptn : Nat) : Nat × Nat :=
  match (s.tileStrands ptn).head? with
  | none => (0, 0)
  | some t => s.recordIds t

/-- Writes a transfer back. -/
def State.setXfer (s : State) (x : Xfer) : State := { s with xfers := replaceIf s.xfers (·.id == x.id) x }

/-- Uncorrectable data fails the task at this end: the poster's, or the one that holds the tile (R371). -/
def State.fabricCheck (s : State) (ptn : Nat) (post : Option (Nat × Nat × Nat)) (addr : Nat) : State :=
  match (post.map (·.1)).or ((s.tileStrands ptn).head?.map (·.sid)) with
  | none => s
  | some sid => s.machineCheckOf sid 5 addr

/-! ### Folding (R256, R293, R294) -/

/-- One element of a reduction: sum, maximum or minimum in a format (R256). -/
def foldElem (rop etag x y : Nat) : Nat × Flags :=
  match FpFmt.ofCode? etag with
  | some f => if rop = 1 then fpElem f .add 0 x y 0 else minMaxCode f (rop == 2) x y
  | none =>
    let w := tagWidth etag
    if rop = 1 then ((x + y) % 2 ^ w, 0)
    else if (laneInt etag x ≤ laneInt etag y) = (rop = 2) then (y, 0) else (x, 0)

/-- Whether an encoding is an infinity. -/
def elemInf (etag x : Nat) : Bool :=
  match (FpFmt.ofCode? etag).map fun f => decodeFl f x with
  | some (.inf _) => true
  | _ => false

/-- The flags that one element raises (R306). -/
def foldFlags (etag : Nat) (r : Nat × Flags) : CallFlags :=
  ⟨elemNaN etag r.1, elemInf etag r.1, elemInf etag r.1 && bit r.2 2⟩

/-- Folds bytes into bytes, element by element (R256). -/
def foldBytes (rop etag : Nat) (old new : List Byte) : Nat → List Byte × CallFlags
  | 0 => ([], ⟨false, false, false⟩)
  | n + 1 =>
    let k := tagWidth etag / 8
    let r := foldElem rop etag (numLE (old.take k)) (numLE (new.take k))
    let (l, fl) := foldBytes rop etag (old.drop k) (new.drop k) n
    let g := foldFlags etag r
    (bytesLE k r.1 ++ l, ⟨g.nan || fl.nan, g.inf || fl.inf, g.ovf || fl.ovf⟩)

/-- How often a sender's contribution has been folded (R294). -/
def State.foldCount (s : State) (ptn index daddr sender : Nat) : Nat :=
  ((s.folded.find? fun c => c.ptn == ptn && c.index == index && c.daddr == daddr && c.sender == sender).map (·.count)).getD 0

/-- Counts one contribution. -/
def State.countFold (s : State) (ptn index daddr sender : Nat) : State :=
  let n := s.foldCount ptn index daddr sender
  { s with folded := ⟨ptn, index, daddr, sender, n + 1⟩ ::
      s.folded.filter fun c => !(c.ptn == ptn && c.index == index && c.daddr == daddr && c.sender == sender) }

/-- Whether a contribution may be pulled: every lower sender's has been folded (R294, R301). -/
def State.foldTurn (s : State) (x : Xfer) : Bool :=
  match x.notice.body with
  | .coll c =>
    !collFolds c || (match x.post.bind fun p => s.post? p.1 p.2.1 p.2.2 with
      | none => true
      | some p => (List.range x.sender).all p.got.contains
          && !s.xfers.any fun y => y.post == x.post && y.sender < x.sender)
  | .fire e index _ _ =>
    !(1 ≤ e.opr && e.opr ≤ 3) || (let n := s.foldCount x.rx.ptn index e.daddr
      (List.range x.sender).all (fun j => n x.sender < n j)
        && !s.xfers.any fun y => y.id < x.id && y.sender == x.sender && y.rx == x.rx && (match y.notice.body with
          | .fire e' i _ _ => i == index && e'.daddr == e.daddr
          | _ => false))

/-! ### Catalogue launches (R309) -/

/-- Counts a launch against its entry's budget; a spent entry disarms itself (R261). -/
def State.spendEntry (s : State) (e : CatEntry) : State :=
  match e.left with
  | none => s
  | some n =>
    if n ≤ 1 then { s with cat := s.cat.filter (·.index != e.index) }
    else { s with cat := replaceIf s.cat (·.index == e.index) { e with left := some (n - 1) } }

/-- A launch that cannot go on leaves a record under its queue, with the catalogue index as INDEX (R309, R329,
notes/assumptions/13.md). -/
def State.catRecord (s : State) (e : CatEntry) (status : Nat) (w : Vector Word 8) : State :=
  let w0 := vget w 0 0
  s.settleRecord e.queue status (recordOf status (packetType w0) 0 (fld w0 0 32) e.index 0 false (bit w0 48))

/-- Performs an accepted launch: a TASK's argument is where the block landed (R309). -/
def State.catPerform (s : State) (e : CatEntry) (va : Nat) (w : Vector Word 8) : State :=
  if !s.packetOk w then s.catRecord e 2 w
  else match packetType (vget w 0 0) with
    | 1 => s.packetTask e.queue (.catalogue e.queue e.index) w (BitVec.ofNat 64 va) (some (vget w 0 0))
    | 2 => s.startGraph e.queue e.index false w
    | _ => match (s.coreRelease (fld (vget w 0 0) 54 3)).signal (bit (vget w 2 0) 0) (vget w 1 0).toNat (vget w 3 0) with
      | .error st => (s.coreFault .write (vget w 1 0).toNat 8 e.queue).catRecord e st w
      | .ok t => if bit (vget w 0 0) 49 then t.catRecord e 0 w else t

/-- A landed block launches a catalogue entry; false says that the launch is refused (R309). -/
def State.catLaunch (s : State) (index va : Nat) : State × Bool :=
  match s.catPresent, s.catEntry index with
  | true, some e =>
    if (s.queue e.queue).halted then (s, false)
    else match s.coreRead (s.catAddr index) 64 with
      | .error st =>
        let w := vset (Vector.replicate 8 0) 0 (((Config.freeWord s.fresh).extractLsb' 0 32).zeroExtend 64)
        ((({ s with fresh := s.fresh + 1 } : State).coreFault .read (s.catAddr index) 64 e.queue).catRecord e st w, true)
      | .ok bs =>
        let w : Vector Word 8 := Vector.ofFn fun i => (wordsOf 8 bs).getD i 0
        let ty := packetType (vget w 0 0)
        let s := s.coreHasRead (s.catAddr index) 64
        if ty = 0 ∨ 3 < ty then (s, false) else ((s.spendEntry e).catPerform e va w, true)
  | _, _ => (s, false)

/-- The catalogue entry that a notice's blocks launch (R295). -/
def launchOf (n : Notice) : Option Nat :=
  match n.body with
  | .coll c => if c.cate then some c.cati else none
  | .fire e _ _ _ => if e.cate then some e.cati else none

/-! ### The end of a transfer (R258, R294, R306, R309) -/

/-- Ends a transfer whose bytes have all landed or failed: a landed block may launch, and the sender learns (R306,
R309). -/
def State.finishXfer (s : State) (x : Xfer) : State :=
  let s := { s with xfers := s.xfers.filter (·.id != x.id) }
  let s := match x.notice.body with
    | .fire e index _ _ => if 1 ≤ e.opr && e.opr ≤ 3 then s.countFold x.rx.ptn index e.daddr x.sender else s
    | _ => s
  let (s, ok) := match x.fail, launchOf x.notice with
    | none, some i => s.catLaunch i x.dst
    | _, _ => (s, true)
  s.report_ (answerTo x.notice (x.fail.getD 0) x.flags (!ok))

/-- Ends a transfer that has nothing left. -/
def State.settleXfer (s : State) (x : Xfer) : State := if x.left = 0 then s.finishXfer x else s.setXfer x

/-- Notes a failure at the receiver's own post (R306). -/
def State.failPost (s : State) (key : Option (Nat × Nat × Nat)) (code : Nat) : State :=
  match key.bind fun p => s.post? p.1 p.2.1 p.2.2 with
  | none => s
  | some p => s.setPost (p.failWith code)

/-- Notes a reduction's flags at the receiver's own post (R306). -/
def State.flagPost (s : State) (key : Option (Nat × Nat × Nat)) (fl : CallFlags) : State :=
  match key.bind fun p => s.post? p.1 p.2.1 p.2.2 with
  | none => s
  | some p => s.setPost { p with flags := ⟨p.flags.nan || fl.nan, p.flags.inf || fl.inf, p.flags.ovf || fl.ovf⟩ }

/-- Makes bytes of global memory undefined, where they can be reached (R306). -/
def State.undefineGlobal (s : State) (l : List (Nat × Nat)) : State :=
  l.foldl (fun s p => match s.range .write p.1 p.2 with
    | .ok l => l.foldl (fun s k => s.undefine k.1 k.2) s
    | .error _ => s) s

/-- Makes the bytes of a chunk's destination undefined (R306). -/
def State.undefinePlaces (s : State) (x : Xfer) (pos n : Nat) : State := s.undefineGlobal (x.places pos n)

/-- A chunk fails at both ends: its bytes are undefined (R306). -/
def State.failChunk (s : State) (x : Xfer) (pos n code : Nat) : State :=
  ((s.undefinePlaces x pos n).failPost x.post code).settleXfer { x with
    out := x.out.erase (pos, n), redo := x.redo.erase (pos, n), left := x.left - n, fail := some (x.fail.getD code) }

/-- Lands a chunk's bytes: they are written or folded, and then the counter falls (R250, R293, R295, R301). The write's
stamp is the receiving tile's die's, or the arrival port's for a chunk of another module (R282). -/
def State.landChunk (s : State) (x : Xfer) (pos n port : Nat) (bs : List Byte) (keys : List (Nat × Nat)) : State :=
  let x := { x with out := x.out.erase (pos, n), left := x.left - n }
  let die := if x.notice.frm.modu = s.modId then dieOf x.rx.ptn else portDie port
  let (s, bytes, fl) := match x.how with
    | .fold rop etag =>
      let r := foldBytes rop etag (s.readPieces keys) bs (n / (tagWidth etag / 8))
      (s.noteReads die keys, r.1, r.2)
    | _ => (s, bs, ⟨false, false, false⟩)
  let s := (s.writePieces keys bytes).noteWrites die keys
  let s := if x.bce then s.arriveAt x.rx.ptn x.ctx x.bca n else s
  let x := { x with flags := ⟨x.flags.nan || fl.nan, x.flags.inf || fl.inf, x.flags.ovf || fl.ovf⟩ }
  (s.flagPost x.post fl).settleXfer x

/-! ### Pulling (R295, R299, R303, R319) -/

/-- The bytes from a place on whose destinations lie in one 64 KiB region (R303). -/
def Xfer.placedIn (x : Xfer) (pos : Nat) : Nat :=
  match x.how with
  | .transposed rows cols esz =>
    let at_ (k : Nat) : Nat := x.dst + ((pos / 2 ^ esz + k) % cols * rows + (pos / 2 ^ esz + k) / cols) * 2 ^ esz
    ((List.range (65536 / 2 ^ esz)).takeWhile fun k => at_ k / 65536 == at_ 0 / 65536).length * 2 ^ esz
  | _ => 65536 - (x.dst + pos) % 65536

/-- The bytes of the next chunk from a place on (R303). -/
def Xfer.chunkLen (x : Xfer) (pos : Nat) : Nat :=
  min (x.len - pos) (min (if x.ssp then 65536 else 65536 - (x.src + pos) % 65536) (x.placedIn pos))

/-- The next chunk to ask for, if any; chunks to be asked for again come first. -/
def Xfer.next (x : Xfer) : Option (Nat × Nat) :=
  if x.asked < x.len && x.redo.isEmpty then some (x.asked, x.chunkLen x.asked) else none

/-- The chunks in flight to a tile (R295). -/
def State.inFlight (s : State) (m : Member) : Nat :=
  ((s.xfers.filter (·.rx == m)).map (·.out.length)).foldl (· + ·) 0

/-- The port on which another module's packets arrive: the lowest of its route that is up (R298, R389). -/
def State.portTo (s : State) (m : Nat) : Nat :=
  ((List.range 64).find? fun k => bit (s.routePorts m) k && (vget s.optical k resetPort).state == 0).getD 0

/-- The bytes parked for a port (R298). -/
def State.parkedOn (s : State) (port : Nat) : Nat :=
  ((s.parked.filter (·.flight.port == port)).map (·.flight.len)).foldl (· + ·) 0

/-- The bytes in flight through a port to destinations that are not translated now, for which it keeps room; what is parked
has its room already (R299). -/
def State.mayPark (s : State) (port : Nat) : Nat :=
  ((s.xfers.filter fun x => x.notice.frm.modu != s.modId && s.portTo x.notice.frm.modu == port).map fun x =>
    ((x.out.filter fun c => !(s.parked.any fun k => k.flight.xfer == x.id && k.flight.pos == c.1)
      && (match s.placeKeys .write (x.places c.1 c.2) with
        | .error (_, 0) => true
        | _ => false)).map (·.2)).foldl (· + ·) 0).foldl (· + ·) 0

/-- Whether a chunk would find parking space if it needs some (R299). -/
def State.parkRoom (s : State) (x : Xfer) (pos n : Nat) : Bool :=
  let m := x.notice.frm.modu
  m == s.modId || (match s.placeKeys .write (x.places pos n) with
    | .error (_, 0) => decide (s.parkedOn (s.portTo m) + s.mayPark (s.portTo m) + n ≤ 65536)
    | _ => true)

/-- Whether a transfer may ask for a chunk now (R294, R295, R299, R319). -/
def State.mayAsk (s : State) (x : Xfer) (c : Nat × Nat) : Bool :=
  x.stuck.isNone && s.inFlight x.rx < 32 && s.foldTurn x && s.parkRoom x c.1 c.2

/-- The pull for a chunk (R295). -/
def State.pullOf (s : State) (x : Xfer) (c : Nat × Nat) : Pull :=
  ⟨x.id, x.notice.frm, x.rx, x.notice.strand, x.notice.ctx, x.notice.chan, x.notice.id, x.ssp, x.src, c.1, c.2, s.cur.toNat, x.rr⟩

/-- Sends a pull; a sender that no route reaches fails the chunk (R390). -/
def State.sendPull (s : State) (x : Xfer) (c : Nat × Nat) : State :=
  let s' := s.setXfer { x with out := x.out ++ [c] }
  if x.notice.frm.modu = s.modId then { s' with pulls := s'.pulls ++ [s.pullOf x c] }
  else if s.route x.notice.frm.modu = .none then s.failChunk x c.1 c.2 4
  else s'.send x.notice.frm.modu (.pull (s.pullOf x c))

/-- Asks for a chunk of a transfer `x`, which `y` has asked for. Within the module its destination is translated first: one
without a translation waits for a response, and one that may not be written fails (R319). -/
def State.ask (s : State) (x y : Xfer) (c : Nat × Nat) : State :=
  if x.notice.frm.modu ≠ s.modId then s.sendPull y c
  else match s.placeKeys .write (x.places c.1 c.2) with
    | .ok _ => s.sendPull y c
    | .error (va, 0) => s.setXfer { x with stuck := some ⟨c.1, c.2, va, none⟩ }
    | .error (_, why) => s.failChunk y c.1 c.2 (refusedCode why)

/-- Asks for every chunk that may be asked for, transfer by transfer (R295). -/
def State.pump : Nat → State → State
  | 0, s => s
  | fuel + 1, s =>
    match s.xfers.find? fun x => match x.next with | some c => s.mayAsk x c | none => false with
    | none => s
    | some x => match x.next with
      | none => s
      | some c => State.pump fuel (s.ask x { x with asked := c.1 + c.2 } c)

/-- Asks for what may be asked for. -/
def State.pumped (s : State) : State := State.pump (100000 * (1 + s.xfers.length)) s

/-! ### Acting on notices (R295, R300 to R302, R304) -/

/-- The transfer of a collective's block from member j to the receiver's post (R301). -/
def collXfer (id : Nat) (rx : Member) (p : PostRec) (mine c : Coll) (n : Notice) : Xfer :=
  let j := n.idx
  let spread := c.op == 4 || c.op == 6
  let gathers := c.op == 3 || c.op == 6
  { id := id, rx := rx, ctx := some p.ctx, post := some (p.sid, p.chan, p.id), notice := n, ssp := false
    src := c.sbuf + (if spread then p.self * c.spitch else 0)
    dst := mine.dbuf + (if gathers then j * mine.dpitch else 0)
    len := c.blk
    how := if collFolds c && j != 0 then .fold c.rop c.etag
      else if c.op == 6 && c.rows != 0 then .transposed c.rows c.cols c.esz else .place
    bce := mine.bce, bca := mine.bca, rr := mine.rr, sender := j, asked := 0, out := [], redo := [], left := c.blk
    stuck := none, flags := ⟨false, false, false⟩, fail := none }

/-- The transfer of a firing's block to one peer (R293). -/
def fireXfer (id : Nat) (rx : Member) (e : Entry64) (peer sender : Nat) (n : Notice) : Xfer :=
  { id := id, rx := rx, ctx := none, post := none, notice := n, ssp := e.ssp
    src := e.src + (if e.opr = 4 then peer * e.spitch else 0)
    dst := e.daddr + (if e.opr = 4 then e.self * e.dpitch else 0)
    len := e.len
    how := if 1 ≤ e.opr && e.opr ≤ 3 then .fold e.opr e.etag else .place
    bce := e.bce, bca := e.bca, rr := e.rr, sender := sender, asked := 0, out := [], redo := [], left := e.len
    stuck := none, flags := ⟨false, false, false⟩, fail := none }

/-- Adds a transfer. -/
def State.addXfer (s : State) (mk : Nat → Xfer) : State :=
  { s with xfers := s.xfers ++ [mk s.nextId], nextId := s.nextId + 1 }

/-- The fields that the members of one instance must share (R302). -/
def collAgrees (a b : Coll) : Bool :=
  a.op == b.op && a.rop == b.rop && a.etag == b.etag && a.rr == b.rr && a.blk == b.blk && a.rows == b.rows
    && a.cols == b.cols && a.esz == b.esz && (!(a.op == 1 || a.op == 2) || a.root == b.root)

/-- Whether a notice belongs to a post (R300): by group and instance, persistent ones also by channel. -/
def noticeFor (n : Notice) (p : PostRec) : Bool :=
  match n.body, p.work with
  | .coll c, .coll mine =>
    c.grp == mine.grp && c.pers == mine.pers && (!c.pers || n.chan == p.chan) && n.inst == p.inst && n.dest.ptn == p.ptn
      && !p.got.contains n.idx
  | _, _ => false

/-- Acts on a collective's notice at the post that it belongs to; the bytes of a block that does not come are undefined
(R301, R302, R306). -/
def State.actOn (s : State) (p : PostRec) (n : Notice) : State :=
  match n.body, p.work with
  | .coll c, .coll mine =>
    let s := { s with arrived := s.arrived.erase n }
    let q := { p with got := p.got ++ [n.idx] }
    if p.members.isEmpty then (s.setPost q).report_ (answerTo n (p.fail.getD 10) ⟨false, false, false⟩ false)
    else if !collAgrees c mine then
      let x := collXfer 0 n.dest p mine mine n
      let s := if p.senders.contains n.idx then s.undefinePlaces x 0 x.len else s
      (s.setPost (q.failWith 10)).report_ (answerTo n 10 ⟨false, false, false⟩ false)
    else (s.setPost q).addXfer fun id => collXfer id n.dest p mine c n
  | _, _ => s

/-- Whether a persistent post must wait for an earlier round of its own (R304). -/
def State.roundWaits (s : State) (p : PostRec) : Bool :=
  match p.work with
  | .coll c => c.pers && s.posts.any fun q => q.sid == p.sid && q.chan == p.chan && q.id < p.id && (match q.work with
      | .coll d => d.pers && d.grp == c.grp
      | _ => false)
  | _ => false

/-- Acts on every notice that has arrived for a post, in arrival order (R300, R304). -/
def State.actOnArrived (s : State) (sid chan id : Nat) : State :=
  s.arrived.foldl (fun s n => match s.post? sid chan id with
    | none => s
    | some p => if p.handed && !s.roundWaits p && noticeFor n p then s.actOn p n else s) s

/-- A notice for a collective that failed at once and has completed is answered with its failure (R295, R300). -/
def State.answerEnded (s : State) (n : Notice) : State :=
  match s.ended.find? (noticeFor n) with
  | none => s
  | some p =>
    let s := { s with
      arrived := s.arrived.erase n
      ended := replaceIf s.ended (· == p) { p with got := p.got ++ [n.idx] } }
    s.report_ (answerTo n (p.fail.getD 10) ⟨false, false, false⟩ false)

/-- A notice reaches the FSQ: a firing's transfer begins, and a collective's waits for its post (R295, R300). -/
def State.takeNotice (s : State) (n : Notice) : State :=
  match n.body with
  | .fire e _ peer sender => s.addXfer fun id => fireXfer id n.dest e peer sender n
  | .coll _ =>
    let s := { s with arrived := s.arrived ++ [n] }
    match s.posts.find? (noticeFor n) with
    | none => s.answerEnded n
    | some p => if !p.handed || s.roundWaits p then s else s.actOn p n

/-! ### Handing a post to the FSQ (R254, R290, R292, R300, R302) -/

/-- The element sizes of the ETAG list in bytes; zero for an illegal tag (R255). -/
def etagBytes (t : Nat) : Nat := match t with | 0 | 9 | 14 => 8 | 1 | 10 | 15 => 4 | 2 | 3 => 2 | _ => 0

/-- Why a collective fails at once at its poster (R300, R301, R306). -/
def collFails (c : Coll) (n : Nat) (self : Option Nat) : Option Nat :=
  match self with
  | none => some 9
  | some _ =>
    if (c.op == 1 || c.op == 2) && decide (n ≤ c.root) then some 5
    else if collFolds c && c.blk % etagBytes c.etag != 0 then some 11
    else none

/-- The bytes that a collective writes at a member of a group of `n` members, where `rooted` says that it is the root
(R301). -/
def collDests (c : Coll) (n : Nat) (rooted : Bool) : List (Nat × Nat) :=
  if c.op == 3 || c.op == 6 then (List.range n).map fun j => (c.dbuf + j * c.dpitch, c.blk)
  else if c.op == 2 && !rooted then []
  else [(c.dbuf, c.blk)]

/-- The member count in the header of a group entry, valid or not (R289). -/
def State.headerCount (s : State) (g : Nat) : Nat := ((s.groups.find? (·.1 == g)).map fun e => fld e.2.1 0 9 + 1).getD 1

/-- A collective that fails at once: the bytes that it would have written are undefined (R300, R306). -/
def State.failColl (s : State) (p : PostRec) (c : Coll) (n : Nat) (rooted : Bool) (code : Nat) : State :=
  (s.undefineGlobal (collDests c n rooted)).setPost { p.failWith code with handed := true }

/-- Hands a collective over: the group is snapshot, and each receiver gets a notice (R290, R295). -/
def State.handColl (s : State) (p : PostRec) (c : Coll) : State :=
  let here := s.here p.ptn
  match s.group c.grp with
  | none => s.failColl p c (s.headerCount c.grp) true 6
  | some (_, ms) =>
    let self := ms.findIdx? (· == here)
    match collFails c ms.length self with
    | some code => s.failColl p c ms.length (self == some c.root) code
    | none =>
      let p := { p with handed := true, members := ms, self := self.getD 0 }
      let s := s.setPost p
      p.receivers.foldl (fun s m => s.sendNotice
        ⟨here, p.sid, p.ctx, p.chan, p.id, ms.getD m here, p.self, m, p.inst, s.cur.toNat, .coll c⟩) s

/-- A tile-table entry, read (R292). -/
def readEntry (w : List Word) : Entry64 :=
  let g (i : Nat) : Word := w.getD i 0
  ⟨fld (g 0) 60 4, fld (g 0) 55 5, bit (g 0) 54, bit (g 0) 53, bit (g 0) 52, bit (g 0) 51, bit (g 0) 50, fld (g 0) 41 9,
   fld (g 0) 29 12, fld (g 0) 0 12, (g 1).toNat, fld (g 2) 0 33, (g 3).toNat, fld (g 4) 32 32, fld (g 4) 0 32,
   bit (g 5) 63, fld (g 5) 32 21, fld (g 5) 0 9, (g 6).toNat, fld (g 7) 0 32⟩

/-- Whether an entry keeps R292 but for its listed members. LEN has 33 bits and goes up to 2^32: a larger one breaks it
(notes/assumptions/91.md). -/
def entryOk (w : List Word) : Bool :=
  let g (i : Nat) : Word := w.getD i 0
  let e := readEntry w
  let folds := decide (1 ≤ e.opr ∧ e.opr ≤ 3)
  fld (g 0) 12 17 == 0 && fld (g 2) 33 31 == 0 && fld (g 5) 53 10 == 0 && fld (g 5) 9 23 == 0 && fld (g 7) 32 32 == 0
    && e.opr ≤ 4 && (if folds then etagBytes e.etag != 0 else e.etag == 0)
    && 1 ≤ e.len && e.len ≤ 2 ^ 32 && (!folds || e.len % etagBytes e.etag == 0)
    && e.src % 16 == 0 && e.daddr % 16 == 0 && e.dpitch % 16 == 0 && e.spitch % 16 == 0

/-- The scratchpad range that a peer's block is read from. -/
def peerSource (e : Entry64) (peer : Nat) : Nat := e.src + (if e.opr = 4 then peer * e.spitch else 0)

/-- The peers of an entry and the firing tile's sender index, or the code with which the firing fails (R292 to R294,
R371). -/
def State.entryPeers (s : State) (here : Member) (e : Entry64) : Except Nat (List Member × Nat) :=
  if e.gf then match s.group e.grp with
    | none => .error 6
    | some (_, ms) => match ms.findIdx? (· == here) with
      | none => .error 9
      | some i => .ok (ms, i)
  else match s.range .read e.plist (4 * (e.npm1 + 1)) with
    | .error (_, why) => .error (refusedCode why)
    | .ok l =>
      let bs := s.readPieces l
      let ws := (List.range (e.npm1 + 1)).map fun i => BitVec.ofNat 32 (numLE ((bs.drop (4 * i)).take 4))
      if s.badPieces l then .error 7
      else if ws.all memberValid then .ok (ws.map memberOf, e.self)
      else .error 8

/-- The base die merges the stamps of what the fabric sequencer has read for an entry (R282). -/
def State.hasReadEntry (s : State) (l : List (Nat × Nat)) (e : Entry64) : State :=
  let s := s.noteReads 8 l
  if e.gf then s
  else match s.range .read e.plist (4 * (e.npm1 + 1)) with
    | .ok l => s.noteReads 8 l
    | .error _ => s

/-- The address of a tile-table entry (R291, R292). -/
def Strand.entryAddr (t : Strand) (index : Nat) : Nat := fld t.ttb 6 51 * 64 + 64 * index

/-- The blocks of a scratchpad source (R259). -/
def sourceBlocks (e : Entry64) (n : Nat) : List Nat :=
  (((List.range (if e.opr = 4 then n else 1)).map fun p => blocksOf (peerSource e p) e.len).flatten).eraseDups

/-- The scratchpad blocks that an entry's firing would read now, none where it cannot be read (R259, R262). -/
def State.firingBlocks (s : State) (t : Strand) (index : Nat) : List Nat :=
  match s.range .read (t.entryAddr index) 64 with
  | .error _ => []
  | .ok l =>
    let w := wordsOf 8 (s.readPieces l)
    let e := readEntry w
    if s.badPieces l || !e.ssp || !entryOk w then []
    else match s.entryPeers (s.here t.ptn) e with
      | .error _ => []
      | .ok (ms, _) => (sourceBlocks e ms.length).filter (· < 512)

/-- Claims the scratchpad source of a firing: blocks that are not at the tile are handed over or restored first
(R198, R259, R262, R355). -/
def State.claimSource (s : State) (p : PostRec) (t : Strand) (bs : List Nat) : State :=
  match s.ctx? p.ctx with
  | none => s
  | some c =>
    let us := bs.map fun b => TileUnit.block (Fin.ofNat 512 b)
    let f := us.foldl (fun (f : Frame) u => if f.atHand u then f.own u else f) ⟨s, t, c⟩
    let more := us.filter fun u => !f.atHand u && !c.wants.any (·.2 == u)
    { (f.s.setCtx { f.c with wants := f.c.wants ++ more.map fun u => (c.icyc, u) }) with
      claims := s.claims ++ [⟨p.ctx, .firing p.sid p.chan p.id, bs, true, c.nextRid⟩] }

/-- Hands a firing over: the entry is read anew, a scratchpad source is claimed, and each peer gets a notice (R259,
R292, R295). -/
def State.handFire (s : State) (p : PostRec) (t : Strand) (index : Nat) : State :=
  let here := s.here p.ptn
  let bad (s : State) (p : PostRec) (code : Nat) : State := s.setPost { p.failWith code with handed := true }
  match s.range .read (t.entryAddr index) 64 with
  | .error (_, why) => bad s p (refusedCode why)
  | .ok l =>
    if s.badPieces l then bad (s.machineCheckOf p.sid 5 (t.entryAddr index)) p 7
    else
      let w := wordsOf 8 (s.readPieces l)
      let e := readEntry w
      let p := { p with entry := some e, tok := e.tok, utag := e.utag }
      if !entryOk w then bad (s.noteReads 8 l) p 8
      else match s.entryPeers here e with
        | .error code => bad (if code = 7 then s.machineCheckOf p.sid 5 e.plist else s.hasReadEntry l e) p code
        | .ok (ms, sender) =>
          let s := s.hasReadEntry l e
          if e.ssp && (List.range ms.length).any (fun i => decide (0x200000 < peerSource e i + e.len)) then bad s p 8
          else
            let p := { p with handed := true, members := ms, self := sender }
            let s := s.setPost p
            let s := if e.ssp then s.claimSource p t (sourceBlocks e ms.length) else s
            (ms.zipIdx).foldl (fun s m => s.sendNotice
              ⟨here, p.sid, p.ctx, p.chan, p.id, m.1, sender, m.2, 0, s.cur.toNat, .fire e index m.2 sender⟩) s

/-- Whether the entry of a firing, or its list of peers, lies behind a port that retrains (R314). -/
def State.fireWaits (s : State) (t : Strand) (index : Nat) : Bool :=
  s.rangeWaits (t.entryAddr index) 64 || (match s.range .read (t.entryAddr index) 64 with
    | .error _ => false
    | .ok l =>
      let e := readEntry (wordsOf 8 (s.readPieces l))
      !e.gf && s.rangeWaits e.plist (4 * (e.npm1 + 1)))

/-- Hands a post over, and acts on the notices that are already there (R254, R300); a firing whose entry lies behind a port that
retrains waits (R314). -/
def State.handPost (s : State) (sid chan id : Nat) : State :=
  match s.post? sid chan id, s.strand? sid with
  | some p, some t =>
    let s := match p.work with
      | .coll c => s.handColl p c
      | .fire i => if s.fireWaits t i then s else s.handFire p t i
    (s.actOnArrived sid chan id).pumped
  | _, _ => s

/-- The posts of a strand's channel that the FSQ is running (R254). -/
def State.running (s : State) (sid chan : Nat) : Nat := (s.posts.filter fun p => p.sid == sid && p.chan == chan && p.handed).length

/-! ### The end of a transfer ID (R253, R258, R259, R305 to R307) -/

/-- STATUS of a k2 token (R306). -/
def PostRec.status (p : PostRec) : Nat :=
  match p.fail with
  | some c => 64 + c
  | none => (if p.flags.nan then 32 else 0) + (if p.flags.inf then 16 else 0) + (if p.flags.ovf then 8 else 0)
      + (if p.miss then 4 else 0)

/-- A k2 token (R305). -/
def PostRec.token (p : PostRec) : Word :=
  let engine := (match p.work with | .coll _ => 0x10 | .fire _ => 0x20) + p.chan
  BitVec.ofNat 64 (2 ^ 63 + p.status * 2 ^ 56 + engine * 2 ^ 48 + p.id % 65536 * 2 ^ 32 + p.utag)

/-- Posts a k2 token: one that finds k2 full waits, and a draining strand's is discarded then (R307). -/
def State.postK2 (s : State) (t : Strand) (w : Word) : State :=
  if t.k2wait.isEmpty ∧ t.k2Room then (s.setStrand { t with k2 := t.k2 ++ [w] }).progress t.task
  else if t.life ≠ .running then s
  else s.setStrand { t with k2wait := t.k2wait ++ [w] }

/-- The strand after an ID of it has completed (R253, R257). -/
def Strand.closeId (t : Strand) (p : PostRec) : Strand :=
  let c := vget t.chans p.chan Chan.start
  { t with
    chans := vset t.chans p.chan { c with open_ := c.open_.erase p.id }
    pers := t.pers.map fun r => if r.chan == p.chan && r.inc.contains p.id then { r with inc := r.inc.erase p.id } else r }

/-- Whether two posts count their instances together: of one group at one tile, persistent ones also of one channel (R300). -/
def PostRec.sameStream (p q : PostRec) : Bool :=
  match p.work, q.work with
  | .coll c, .coll d => p.ptn == q.ptn && c.grp == d.grp && c.pers == d.pers && (!c.pers || p.chan == q.chan)
  | _, _ => false

/-- Whether two posts are of one instance at one tile (R300). -/
def PostRec.sameInstance (p q : PostRec) : Bool := p.sameStream q && p.inst == q.inst

/-- Whether a failed instance is still remembered when a post takes a number: numbers count modulo 256, so one that is not among
the last 127 would answer the notices of a later instance (R300, notes/assumptions/80.md). -/
def PostRec.recalls (p q : PostRec) : Bool := !p.sameStream q || decide (0 < (p.inst + 256 - q.inst) % 256 ∧ (p.inst + 256 - q.inst) % 256 < 128)

/-- Whether a post is a collective that failed at once (R300). -/
def PostRec.neverRan (p : PostRec) : Bool :=
  (match p.work with | .coll _ => true | .fire _ => false) && p.fail.isSome && p.members.isEmpty

/-- Completes a transfer ID: XDONE may advance, a token is posted when one is due, and the channel's next held post is
handed over (R253, R254, R258, R305). A collective that failed at once is remembered for the notices still to come. -/
def State.completeId (s : State) (p : PostRec) (t : Strand) : State :=
  let s := { (s.release (.firing p.sid p.chan p.id)) with
    posts := s.posts.filter fun q => !(q.sid == p.sid && q.chan == p.chan && q.id == p.id)
    ended := if p.neverRan then p :: s.ended.filter (fun q => !q.sameInstance p) else s.ended }
  let t := t.closeId p
  let s := s.setStrand t
  let s := if p.tok || p.fail.isSome || p.miss then s.postK2 t p.token else s
  match s.posts.find? fun q => q.sid == p.sid && q.chan == p.chan && !q.handed with
  | none => s
  | some q => s.handPost q.sid q.chan q.id

/-- Hands over the firings that have waited for a port, where their channels have room (R254, R314). -/
def State.handWaiting (s : State) : State :=
  s.posts.foldl (fun s p => if !p.handed && s.running p.sid p.chan < 16 then s.handPost p.sid p.chan p.id else s) s

end Sys2Proof.Machine
end

