-- ==== Sys2Proof/Machine/Collectives.lean ====
section
/-! DEFINITION. XCOLL, TTREADY and WAITID, and the fabric's events: notices, pulls, chunks, parking, topology refusals and
the completion of transfer IDs (R253 to R260, R295 to R307, R312, R319). -/

namespace Sys2Proof.Machine

/-! ### Posting (R254, R255, R257, R259) -/

/-- A posting operation: it waits for an agreement, and its push is never killed (R230, R233). -/
def postOp (b : Bool) (h : Slot) (a : Src) (act : Frame → Word → Word → Except Stop (Frame × Effect)) (s : State) :
    Host.Outcome State Fault Refusal :=
  copyOp b false false (some 2) { h with kill := false } a (fun f a b _ _ => do
    let _ ← f.settled
    act f a b) s

/-- Whether a post is handed over at once; a 17th of its channel is held in its unit's buffer, or stalls the tile (R147,
R254). -/
def Frame.postPlace (f : Frame) (chan : Nat) : Except Stop Bool :=
  if f.s.running f.t.sid chan < 16 ∧ !(f.s.posts.any fun p => p.ctx == f.c.id && p.chan == chan && !p.handed) then .ok true
  else if f.slack ≠ 0 ∧ f.buffered f.unit < 4 then .ok false
  else .error (.stall .buffer f)

/-- The frame of the same strand in a later state. -/
def Frame.at_ (f : Frame) (s : State) : Frame := ⟨s, (s.strand? f.t.sid).getD f.t, (s.ctx? f.c.id).getD f.c⟩

/-- Posts work on a channel: it takes the channel's next transfer ID and pushes it (R254). -/
def Frame.post (f : Frame) (chan inst : Nat) (work : Work) (tok : Bool) (utag : Nat) (mark : Strand → Nat → Strand) :
    Except Stop (Frame × Effect) := do
  let now ← f.postPlace chan
  let c := vget f.t.chans chan Chan.start
  let id := c.next
  let p : PostRec := ⟨f.unit, f.t.sid, f.c.id, f.t.ptn, chan, id, inst, work, false, none, [], 0, [], [], none,
    ⟨false, false, false⟩, false, tok, utag⟩
  let t := { f.t with chans := vset f.t.chans chan ⟨(id + 1) % 2 ^ 48, c.open_ ++ [id]⟩ }
  let f : Frame := { f with s := { f.s with posts := f.s.posts ++ [p], ended := f.s.ended.filter p.recalls }, t := mark t id }
  let f := if now then f.at_ (f.put.handPost f.t.sid chan id) else f
  return (f, .result 2 (pushWord 9 (BitVec.ofNat 64 (chan * 2 ^ 48 + id)) 0))

/-- A parameter block's fields (R255). -/
def readColl (w : List Word) (tok : Bool) : Coll :=
  let g (i : Nat) : Word := w.getD i 0
  ⟨fld (g 0) 60 4, fld (g 0) 58 2, fld (g 0) 53 5, bit (g 0) 52, bit (g 0) 51, fld (g 0) 43 8, fld (g 0) 34 9, fld (g 0) 0 12,
   (g 1).toNat, (g 2).toNat, fld (g 3) 0 33, fld (g 4) 32 32, fld (g 4) 0 32, bit (g 5) 63, fld (g 5) 32 21, bit (g 5) 31,
   fld (g 5) 0 12, fld (g 6) 48 16, fld (g 6) 32 16, fld (g 6) 30 2, fld (g 7) 0 32, tok⟩

/-- Whether the RSV fields of a parameter block are zero (R255). -/
def collReserved (w : List Word) : Bool :=
  let g (i : Nat) : Word := w.getD i 0
  fld (g 0) 12 22 == 0 && fld (g 3) 33 31 == 0 && fld (g 5) 53 10 == 0 && fld (g 5) 12 19 == 0 && fld (g 6) 0 30 == 0
    && fld (g 7) 32 32 == 0 && (rangeFrom 8 8).all fun i => g i == 0

/-- Whether a block's fields are legal but for what depends on the strand (R255). BLK has 33 bits and goes up to 2^32: a larger one
traps ILLENC (notes/assumptions/91.md). -/
def collLegal (c : Coll) : Bool :=
  1 ≤ c.op && c.op ≤ 6 && (collFolds c == (c.rop != 0)) && c.blk != 0 && c.blk ≤ 2 ^ 32
    && (!(c.op == 6 && c.rows != 0) || (c.cols != 0 && c.rows * c.cols * 2 ^ c.esz == c.blk))

/-- The strand's record of a persistent collective (R257). -/
def Strand.persOf (t : Strand) (grp chan : Nat) : Option PersRound := t.pers.find? fun r => r.grp == grp && r.chan == chan

/-- Whether a persistent round follows the last one; the first may be any (R257). -/
def roundFollows (t : Strand) (c : Coll) (chan : Nat) : Bool :=
  match t.persOf c.grp chan with
  | none => true
  | some r => c.round == (r.last + 1) % 256

/-- Notes a persistent round that is posted (R257). -/
def Strand.noteRound (t : Strand) (c : Coll) (chan id : Nat) : Strand :=
  { t with pers := ⟨c.grp, chan, c.round, ((t.persOf c.grp chan).map (·.inc)).getD [] ++ [id]⟩ ::
      t.pers.filter fun r => !(r.grp == c.grp && r.chan == chan) }

/-- XCOLL (R254, R255, R257) -/
def execXcoll (h : Slot) (a : Src) (s : State) : Host.Outcome State Fault Refusal :=
  postOp true h a (fun f a b => do
    let chan := fld a 0 4
    let _ ← need (fld a 5 59 == 0) (trapOf .illenc)
    let _ ← need (b.toNat % 128 == 0 && b.toNat < 0x200000) (trapAt .align 0 b.toNat)
    let _ ← f.needUnowned b.toNat 128
    let (w, f) ← f.padWords b.toNat 16
    let c := readColl w (bit a 4)
    let _ ← need (collReserved w && collLegal c && (!c.bce || f.armedAt c.bca)
      && (!c.pers || roundFollows f.t c chan)) (trapOf .illenc)
    let _ ← need (c.rop == 0 || etagBytes c.etag != 0) (trapOf .illfmt)
    let _ ← need (c.sbuf % 16 == 0) (trapAt .align 0 c.sbuf)
    let _ ← need (c.dbuf % 16 == 0) (trapAt .align 0 c.dbuf)
    let _ ← need (c.dpitch % 16 == 0 && c.spitch % 16 == 0) (trapAt .align 0 (if c.dpitch % 16 = 0 then c.spitch else c.dpitch))
    let _ ← need (!c.pers || decide (((f.t.persOf c.grp chan).map (·.inc.length)).getD 0 < 2)) (trapOf .tagbusy)
    let n := lookupD f.t.insts c.grp 0
    if c.pers then f.post chan c.round (.coll c) c.tok c.utag fun t id => t.noteRound c chan id
    else f.post chan (n % 256) (.coll c) c.tok c.utag fun t _ => { t with insts := insertKey t.insts c.grp (n + 1) }) s

/-- TTREADY (R259, R262, R291): the blocks of a scratchpad source are touched, so that a first touch is late. -/
def execTtready (h : Slot) (a : Src) (s : State) : Host.Outcome State Fault Refusal :=
  postOp false h a (fun f a _ => do
    let _ ← need (fld a 20 44 == 0 && bit f.t.ttb 63 && decide (fld a 0 16 < 2 ^ fld f.t.ttb 57 5)) (trapOf .illenc)
    let f ← f.reachAll ((f.s.firingBlocks f.t (fld a 0 16)).map fun b => .block (Fin.ofNat 512 b))
    f.post (fld a 16 4) 0 (.fire (fld a 0 16)) false 0 fun t _ => t) s

/-- WAITID (R260): waits until XDONE exceeds the ID; one not issued by the group's start traps (R68). -/
def execWaitid (h : Slot) (a : Src) (s : State) : Host.Outcome State Fault Refusal :=
  copyOp true false false none h a (fun f a b _ _ => do
    let chan := fld a 0 4
    let id := fld b 0 48
    let _ ← need (decide (id < (vget f.t.snap.chans chan Chan.start).next)) (trapOf .illenc)
    let _ ← need (decide (id < (vget f.t.chans chan Chan.start).doneId)) (.stall (.transfer chan id) f)
    return (f, .quiet)) s

/-! ### Notices (R295, R300, R304, R312) -/

/-- Whether a packet of another module was injected under another topology version (R312). -/
def State.stale (s : State) (frm : Member) (ver : Nat) : Bool := frm.modu != s.modId && ver != s.cur.toNat

/-- READINESS_NOTICE (R295): a notice reaches the receiver's FSQ; a stale one is refused and sent again (R312). -/
def execReadinessNotice (n : Notice) (s : State) : Host.Outcome State Fault Refusal :=
  let s := { s with notices := s.notices.erase n }
  if n.dest.modu ≠ s.modId ∨ s.stale n.frm n.ver then s.event else (s.takeNotice n).pumped.event

/-- PARKED_NOTICE_RELEASE (R304): the notices of a persistent collective's next round are acted on. -/
def execParkedNoticeRelease (sid : Nat) (chan : Fin 16) (grp : Nat) (s : State) : Host.Outcome State Fault Refusal :=
  match s.posts.find? fun p => p.sid == sid && p.chan == chan.val && p.handed && (match p.work with
      | .coll c => c.pers && c.grp == grp
      | .fire _ => false) with
  | none => s.event
  | some p => (s.actOnArrived sid chan p.id).pumped.event

/-- NOTICE_RESEND (R312): a refused notice is sent again under the module's present version. -/
def execNoticeResend (n : Notice) (s : State) : Host.Outcome State Fault Refusal :=
  let s := { s with refused := s.refused.erase n }
  match s.post? n.strand n.chan n.id with
  | none => s.event
  | some p =>
    if n.frm.modu = s.modId ∧ !p.served.contains n.ridx then (s.sendNotice { n with ver := s.cur.toNat }).event else s.event

/-! ### Pulls (R295, R297) -/

/-- What a pull reads at the sender, or the code with which its chunk fails (R297, R306). A sender that has ended by a
failure leaves undefined bytes (R46, notes/assumptions/14.md). -/
def State.pullData (s : State) (p : Pull) : State × ChunkData :=
  let ids := s.tileIds p.frm.ptn
  match s.post? p.strand p.chan p.id with
  | none => ({ s with fresh := s.fresh + 1 }, .data (freeBytes s.fresh (p.src + p.pos) p.len))
  | some q =>
    if p.ssp then
      let k := Key.pad p.ctx (p.src + p.pos)
      if s.bad k p.len then ((s.setPost (q.failWith 7)).machineCheckOf p.strand 5 (p.src + p.pos), .fail 7)
      else (s, .data (Memory.read s.mem k p.len))
    else match s.range .read (p.src + p.pos) p.len with
      | .error (va, why) =>
        ((s.inform 9 .read why va p.frm.ptn ids.1 ids.2).setPost (q.failWith (refusedCode why)), .fail (refusedCode why))
      | .ok l =>
        if s.badPieces l then ((s.setPost (q.failWith 7)).machineCheckOf p.strand 5 (p.src + p.pos), .fail 7)
        else (s.noteReads (dieOf p.frm.ptn) l, .data (s.readPieces l))

/-- Whether a pull waits at the sender: for a route whose port retrains, or for what the core did to a scratchpad source
before its claim (R198, R314). -/
def State.pullWaits (s : State) (p : Pull) : Bool :=
  s.route p.dest.modu == .wait || (!p.ssp && s.vaRoute [] (p.src + p.pos) == .wait)
    || s.claims.any fun k => k.holder == .firing p.strand p.chan p.id && !s.claimClear k

/-- A receiver that no route reaches has failed with UNREACH (R306, R390). -/
def State.lostReceiver (s : State) (p : Pull) : State :=
  match s.post? p.strand p.chan p.id with
  | none => s
  | some q =>
    let i := (q.members.zipIdx.find? fun m => m.1 == p.dest && !q.served.contains m.2).map (·.2)
    match i with
    | none => s.setPost (q.failWith 4)
    | some i => s.takeServed ⟨p.frm, p.strand, p.chan, p.id, i, 4, false, false, false, false, p.ver⟩

/-- PULL_REQUEST (R297): the sender's module reads the chunk and sends it; a stale pull is refused (R312), and one that must
wait stays (R314). -/
def execPullRequest (p : Pull) (s : State) : Host.Outcome State Fault Refusal :=
  let s := { s with pulls := s.pulls.erase p }
  if p.frm.modu ≠ s.modId ∨ s.stale p.dest p.ver then s.event
  else if s.route p.dest.modu = .none then (s.lostReceiver p).event
  else if s.pullWaits p then ({ s with pulls := s.pulls ++ [p] } : State).event
  else
    let (s, d) := s.pullData p
    let f : Flight := ⟨p.xfer, p.dest, p.pos, p.len, s.cur.toNat, 0, d⟩
    if p.dest.modu = s.modId then ({ s with flights := s.flights ++ [f] } : State).event
    else (s.send p.dest.modu (.flight f)).event

/-! ### Chunks (R295, R298, R312, R319) -/

/-- A chunk refused as stale is asked for again, or fails (R312). -/
def State.staleChunk (s : State) (x : Xfer) (c : Nat × Nat) : State :=
  if x.rr then s.setXfer { x with out := x.out.erase c, redo := x.redo ++ [c] } else (s.failChunk x c.1 c.2 1).pumped

/-- Writes the record of a parked chunk when the ring has room, whatever its page translates to by then (R298, R365). -/
def State.recordParked (s : State) (k : Parked) : State :=
  if k.recorded || !s.ringRoom then s
  else match s.xfers.find? (·.id == k.flight.xfer) with
    | none => s
    | some x =>
      let ids := s.tileIds x.rx.ptn
      let t := s.writeRecord 2 .write 0 k.va x.rx.ptn ids.1 ids.2
      { t with parked := replaceIf t.parked (·.id == k.id) { k with recorded := true, num := s.fltwr.toNat } }

/-- Parks a chunk for a page fault at an address, in the buffer of the port that it arrived on (R298). -/
def State.park (s : State) (f : Flight) (va : Nat) : State :=
  let k : Parked := ⟨s.nextId, 0, va, f, false, false⟩
  ({ s with nextId := s.nextId + 1, parked := s.parked ++ [k] } : State).recordParked k

/-- A chunk with its data is written, parked, or fails by its destination's translation (R298, R319). -/
def State.arriveChunk (s : State) (x : Xfer) (f : Flight) (bs : List Byte) : State :=
  match s.placeKeys .write (x.places f.pos f.len) with
  | .ok keys =>
    (match x.how with
      | .fold _ _ =>
        if s.badPieces keys then (s.fabricCheck x.rx.ptn x.post x.dst).failChunk x f.pos f.len 7
        else s.landChunk x f.pos f.len f.port bs keys
      | _ => s.landChunk x f.pos f.len f.port bs keys).pumped
  | .error (va, 0) =>
    if x.notice.frm.modu ≠ s.modId then s.park f va
    else s.setXfer { x with
      out := x.out.erase (f.pos, f.len)
      redo := x.redo ++ [(f.pos, f.len)]
      stuck := x.stuck.or (some ⟨f.pos, f.len, va, none⟩) }
  | .error (_, why) => (s.failChunk x f.pos f.len (refusedCode why)).pumped

/-- Whether a chunk must wait for a port that retrains: one that its destination lies behind, or the record of a catalogue entry
that it launches (R314). -/
def State.landWaits (s : State) (x : Xfer) (pos n : Nat) : Bool :=
  s.retraining && ((x.places pos n).any (fun p => s.rangeWaits p.1 p.2)
    || (match launchOf x.notice with
      | some i => s.catPresent && s.rangeWaits (s.catAddr i) 64
      | none => false))

/-- CHUNK_LAND (R295): a chunk arrives at its receiver, by the port that it names when it comes from another module; one that
was not asked for changes nothing, and one whose destination lies behind a port that retrains waits (R314). -/
def execChunkLand (f : Flight) (s : State) : Host.Outcome State Fault Refusal :=
  let s := { s with flights := s.flights.erase f }
  match s.xfers.find? fun x => x.id == f.xfer && x.out.contains (f.pos, f.len) with
  | none => s.event
  | some x =>
    if s.parked.any (fun k => k.flight.xfer == f.xfer && k.flight.pos == f.pos) then s.event
    else if s.landWaits x f.pos f.len then ({ s with flights := s.flights ++ [f] } : State).event
    else if s.stale x.notice.frm f.ver then (s.staleChunk x (f.pos, f.len)).event
    else match f.data with
      | .fail code =>
        let s := if code = 7 then s.fabricCheck x.rx.ptn x.post 0 else s
        (s.failChunk x f.pos f.len code).pumped.event
      | .data bs => (s.arriveChunk x f bs).event

/-- PARKED_CHUNK_WRITE (R298): the chunk whose record is resolved is written under the new translation; one that still
has none faults again. -/
def execParkedChunkWrite (num : Nat) (s : State) : Host.Outcome State Fault Refusal :=
  match s.parked.find? fun k => k.recorded && k.resolved && k.num == num with
  | none => s.event
  | some k =>
    let t := { s with parked := s.parked.filter (·.id != k.id) }
    match t.xfers.find? (·.id == k.flight.xfer), k.flight.data with
    | some x, .data bs => (if s.landWaits x k.flight.pos k.flight.len then s else t.arriveChunk x k.flight bs).event
    | _, _ => t.event

/-- Writes the record of a module-local page fault when the ring has room, whatever its page translates to by then (R319,
R365). -/
def State.recordStuck (s : State) (x : Xfer) : State :=
  match x.stuck with
  | some k =>
    if k.num.isSome || !s.ringRoom then s
    else
      let ids := s.tileIds x.rx.ptn
      (s.writeRecord 3 .write 0 k.va x.rx.ptn ids.1 ids.2).setXfer { x with stuck := some { k with num := some s.fltwr.toNat } }
  | none => s

/-- Writes the records that have waited for room in the ring (R299, R365). -/
def State.recordWaiting (s : State) : State :=
  let s := s.parked.foldl State.recordParked s
  (s.xfers.map (·.id)).foldl (fun s i => match s.xfers.find? (·.id == i) with
    | some x => s.recordStuck x
    | none => s) s

/-- LOCAL_PULL_FAULT (R319): a module-local page fault is recorded once the ring has room (R365). -/
def execLocalPullFault (xfer : Nat) (s : State) : Host.Outcome State Fault Refusal :=
  match s.xfers.find? (·.id == xfer) with
  | none => s.event
  | some x => (s.recordStuck x).event

/-- PARKING_SPACE_FREE (R299): pulls that waited for a port's parking space are issued. -/
def execParkingSpaceFree (_port : Fin 64) (s : State) : Host.Outcome State Fault Refusal := s.pumped.event

/-- CHUNK_REDRIVE (R312): the oldest refused chunk of a transfer is asked for again under the module's present version,
or fails when no route is left. -/
def execChunkRedrive (xfer : Nat) (s : State) : Host.Outcome State Fault Refusal :=
  match s.xfers.find? (·.id == xfer) with
  | none => s.event
  | some x => match x.redo with
    | [] => s.event
    | c :: l => if s.mayAsk x c then (s.ask x { x with redo := l } c).pumped.event else s.event

/-! ### Refusals by version (R312) -/

/-- A pull or chunk of a transfer of this module that a switch has refused (R312). -/
def State.refusedChunk (s : State) (dest : Member) (xfer pos n : Nat) : State :=
  match s.xfers.find? fun x => dest.modu == s.modId && x.id == xfer && x.out.contains (pos, n) with
  | none => s
  | some x => s.staleChunk x (pos, n)

/-- A packet that answers or informs, for whose refusal R312 states no reaction, as it is sent again under a version
(notes/assumptions/81.md). -/
def reportAgain (ver : Nat) : Packet → Option Packet
  | .served r => some (.served { r with ver := ver })
  | .notice _ | .pull _ | .flight _ | .replica _ | .contribution _ => none
  | q => some q

/-- STALE_REFUSE (R312): a packet of this module was refused at a switch because of its version. A readiness notice is to be
sent again, and a global access of a copy engine that is refused is sent again, so its chunk is performed later
(notes/assumptions/59.md); so is a report that this module has sent, under the version of that moment
(notes/assumptions/81.md). -/
def execStaleRefuse (p : Versioned) (s : State) : Host.Outcome State Fault Refusal :=
  match p with
  | .notice n => (if n.frm.modu = s.modId then { s with refused := s.refused ++ [n] } else s).event
  | .pull p => (s.refusedChunk p.dest p.xfer p.pos p.len).event
  | .flight f => (s.refusedChunk f.dest f.xfer f.pos f.len).event
  | .replica r => (s.answerReplica (refuseRest r)).event
  | .contribution c => (if c.frm = s.modId then s.contribute { c with ver := s.cur.toNat } else s).event
  | .report dest q => match reportAgain s.cur.toNat q with
    | some q' => (if s.outbox.any (·.2 == q) then s.send dest q' else s).event
    | none => s.event
  | .global cmd => match s.cmd? cmd with
    | none => s.event
    | some k =>
      if !k.ended && (s.nextGlobals k).any (s.vaFar k.tlbs) then (s.setCmd { k with started := s.cycle }).event else s.event

/-! ### Packets that waited for a port (R314, R390) -/

/-- A packet whose wait for a port has ended without a route fails with UNREACH, where its failure has an effect (R314,
R390). -/
def State.undelivered (s : State) (p : Packet) : State :=
  match p with
  | .notice n => s.takeServed (answerTo n 4 ⟨false, false, false⟩ false)
  | .pull p => match s.xfers.find? (·.id == p.xfer) with
    | none => s
    | some x => s.failChunk x p.pos p.len 4
  | .replica r => r.members.foldl (fun s m => s.countAnswer r.cmd m.1 false) s
  | .contribution c => s.sendAnswer c false 6
  | _ => s

/-- The packets that wait for a port leave once it is Up, and fail once no route is left (R314). -/
def State.depart (s : State) : State :=
  s.departing.foldl (fun s d => if s.route d.1 = .none then s.undelivered d.2 else s.send d.1 d.2) { s with departing := [] }

/-! ### Completion (R253, R258, R305 to R307) -/

/-- TRANSFER_ID_COMPLETE (R258, R312): the reports of receivers in other modules are taken, but for stale ones, and an ID whose
every part is over completes. -/
def execTransferIdComplete (sid : Nat) (chan : Fin 16) (id : Nat) (far : List Served) (s : State) :
    Host.Outcome State Fault Refusal :=
  let s := (far.filter fun r => s.delivered (some r.ver)).foldl State.takeServed s
  match s.post? sid chan id, s.strand? sid with
  | some p, some t => if s.postDone p then (s.completeId p t).pumped.event else s.event
  | _, _ => s.event

/-- K2_TOKEN_POST (R307): the oldest waiting token enters k2 once there is room; a draining strand's are discarded. -/
def execK2TokenPost (sid : Nat) (s : State) : Host.Outcome State Fault Refusal :=
  match s.strand? sid with
  | none => s.event
  | some t => match t.k2wait with
    | [] => s.event
    | w :: l =>
      if t.life ≠ .running then (s.setStrand { t with k2wait := [] }).event
      else if t.k2Room then ((s.setStrand { t with k2 := t.k2 ++ [w], k2wait := l }).progress t.task).event
      else s.event

end Sys2Proof.Machine
end

