-- ==== Sys2Proof/Machine/Engine.lean ====
section
/-! DEFINITION. The engine port, and the calls of the MXE from issue to token (R190 to R202, R205, R206, R217,
R218). -/

namespace Sys2Proof.Machine

/-! ### The microprogram store (R205) -/

/-- A store word: the firmware region is the tile's, the rest the strand's (R205). -/
def storeWord (r : TileRec) (m : Mxe) (n : Nat) : Word := lookupD (if n < 1024 then r.fw.words else m.store.words) n 0

/-- Whether a word of the store can be read (R369, R371). -/
def storeSound (r : TileRec) (m : Mxe) (n : Nat) : Bool := !(if n < 1024 then r.fw.bad else m.store.bad).contains n

/-- A routine's entry on the store side; one never loaded is invalid (R205). -/
def storeEntry (r : TileRec) (m : Mxe) (i : Nat) : Routine :=
  lookupD (if i < 64 then r.fw.table else m.store.table) i ⟨false, 0, 0, 8, 8⟩

/-- A routine's entry on the issue side (R205). -/
def issueEntry (r : TileRec) (m : Mxe) (i : Nat) : IssueEntry :=
  lookupD (if i < 64 then r.fw.issue else m.store.issue) i ⟨false, 8, 8⟩

/-! ### Tile descriptors (R193, R194) -/

/-- The bits that one element takes in a line; 0 for a tag that no tile has (R193). -/
def lineBits (tag : Nat) (packed : Bool) : Nat :=
  match tag with
  | 2 | 3 => 16
  | 4 | 5 | 12 => 8
  | 6 | 7 => if packed then 6 else 8
  | 8 => 4
  | 19 => 1
  | 20 => 2
  | _ => 0

/-- TAG of a descriptor. -/
def descTag (d : Word) : Nat := fld d 59 5
/-- SP of a descriptor. -/
def descSp (d : Word) : Nat := fld d 56 2
/-- PITCH of a descriptor. -/
def descPitch (d : Word) : Nat := fld d 37 17

/-- The present values of each run of twelve: 3, 4 or 6 (R193). -/
def sparseCount (sp : Nat) : Nat := match sp with | 1 => 3 | 2 => 4 | _ => 6

/-- The line length of a descriptor in bytes (R193). -/
def lineLength (d : Word) : Nat :=
  if descSp d = 0 then 96 * lineBits (descTag d) (bit d 58) / 8 else 8 * sparseCount (descSp d)

/-- The modes of the array (R113). -/
inductive MxMode | fp8 | int8 | fp6 | wide | lookup
deriving DecidableEq, Repr

/-- The mode of an A tag and a B tag (R113). -/
def mxMode (a b : Nat) : Option MxMode :=
  if (a = 4 ∨ a = 5) ∧ (b = 4 ∨ b = 5) then some .fp8
  else if a = 12 ∧ b = 12 then some .int8
  else if 6 ≤ a ∧ a ≤ 8 ∧ 6 ≤ b ∧ b ≤ 8 then some .fp6
  else if (a = 2 ∨ a = 3) ∧ a = b then some .wide
  else if (a = 4 ∨ a = 12) ∧ (b = 19 ∨ b = 20) then some .lookup
  else none

/-- The tags that some row of R113 accepts for A. -/
def aTags : List Nat := [2, 3, 4, 5, 6, 7, 8, 12]
/-- The tags that some row of R113 accepts for B. -/
def bTags : List Nat := [2, 3, 4, 5, 6, 7, 8, 12, 19, 20]

/-- The conditions on one descriptor whatever stands beside it (R194). -/
def descShape (tags : List Nat) (d : Word) : Bool :=
  tags.contains (descTag d) && fld d 21 16 == 0 && (!bit d 58 || descTag d == 6 || descTag d == 7)
    && descPitch d % 16 == 0 && lineLength d ≤ descPitch d

/-- The conditions on a descriptor checked alone (R194). -/
def descAlone (d : Word) : Bool :=
  (!bit d 55 || (6 ≤ descTag d && descTag d ≤ 8))
    && (descSp d == 0 || descTag d == 4 || descTag d == 5 || descTag d == 12)

/-- The conditions on the two descriptors of a routine that declares both (R194). -/
def descPair (a b : Word) : Bool :=
  match mxMode (descTag a) (descTag b) with
  | none => false
  | some m => (descSp b == 0 || m == .fp8 || m == .int8) && bit a 55 == bit b 55 && (!bit a 55 || m == .fp6)

/-- The check of the declared descriptors at issue (R194). -/
def descriptorsOk (mp : Vector Word 8) (e : IssueEntry) : Bool :=
  let a := vget mp e.adesc 0
  let b := vget mp e.bdesc 0
  let hasA := decide (e.adesc < 8)
  let hasB := decide (e.bdesc < 8)
  (!hasA || (descShape aTags a && descSp a == 0)) && (!hasB || descShape bTags b)
    && (match hasA, hasB with
        | true, true => descPair a b
        | true, false => descAlone a
        | false, true => descAlone b
        | false, false => true)

/-! ### Operations that are not calls (R191) -/

/-- A trigger of the engine port. -/
def engineTrig (a : Option Src) (b c d : Bool) (units : List TileUnit) : Trig :=
  ⟨.en, a, b, c, d, units, fun _ => anyKinds, none, fun _ => 9, .act⟩

/-- What an engine-port operation sees: the group's start, or its own turn where it was held (R68, R147). -/
def Frame.seen (f : Frame) : Ctx := if f.c.again.isSome then f.c else f.t.snap.ctx

/-- MPSET (R191): waits for an agreement (R202). -/
def execMpset (h : Slot) (n : Fin 8) (a : Src) (s : State) : Host.Outcome State Fault Refusal :=
  runSlot h (trigger h (engineTrig (some a) false false false [.mxe]) (direct fun f a _ _ _ => do
    let _ ← f.settled
    return ({ f with c := { f.c with mxe := { f.c.mxe with mp := vset f.c.mxe.mp n a.low } } }, .quiet))) s

/-- MPGET (R191) -/
def execMpget (h : Slot) (n : Fin 8) (s : State) : Host.Outcome State Fault Refusal :=
  runSlot h (trigger h { engineTrig none false false false [.queue, .mxe] with lat := some 1 } (direct fun f _ _ _ _ =>
    .ok (f, .result 1 (pushWord 9 (vget f.seen.mxe.mp n 0) 0)))) s

/-- One if something is there. -/
def oneIf {α : Type} (o : Option α) : Nat := if o.isSome then 1 else 0

/-- The entries of the MXE's queue that are taken: its running and its finished call count until it completes
(R191, R196). -/
def Mxe.taken (m : Mxe) : Nat := m.queue.length + oneIf m.run + oneIf m.fin

/-- The entries of the XFU's queue that are taken. -/
def Xfu.taken (x : Xfu) : Nat := x.queue.length + oneIf x.run + oneIf x.fin

/-- The counts of MXQ (R191). -/
def Ctx.engineCounts (c : Ctx) : Word :=
  BitVec.ofNat 64 ((c.mxe.taken + c.mxe.held.length) + (c.xfu.taken + c.xfu.held.length) * 2 ^ 4
    + c.mxe.k0.length * 2 ^ 8 + c.xfu.k1.length * 2 ^ 16)

/-- MXQ (R191) -/
def execMxq (h : Slot) (s : State) : Host.Outcome State Fault Refusal :=
  runSlot h (trigger h { engineTrig none false false false [.queue, .mxe] with lat := some 1 } (direct fun f _ _ _ _ =>
    .ok (f, .result 1 (pushWord 9 f.seen.engineCounts 0)))) s

/-! ### Calls (R195, R196, R198, R206) -/

/-- Where an accepted call goes: true for its queue, false for the elastic buffer, which a full queue needs and
which holds four calls of both engines; else the tile stalls (R196). -/
def Frame.callPlace (f : Frame) (room : Bool) : Except Stop Bool :=
  if room then .ok true
  else if f.slack ≠ 0 ∧ f.buffered .en < 4 then .ok false
  else .error (.stall .buffer f)

/-- Claims the blocks of a call; one that first touches a block which is not at hand is late (R147, R198, R353). -/
def Frame.claimCall (f : Frame) (serial : Nat) (blocks : List Nat) : Except Stop Frame := do
  let f ← f.reachAll (blocks.map fun b => .block (Fin.ofNat 512 b))
  return { f with s := { f.s.claim f.c.id (.call serial) f.c.nextRid blocks with nextId := f.s.nextId + 1 } }

/-- Accepts a call of the MXE: it is claimed for, and enters the queue or is held (R196). -/
def Frame.acceptMxe (f : Frame) (call : Nat → MxCall) (blocks : List Nat) : Except Stop Frame := do
  let m := f.c.mxe
  let now ← f.callPlace (m.taken < 8 && m.held.isEmpty)
  let serial := f.s.nextId
  let f ← f.claimCall serial blocks
  let x := call serial
  let m := if now then { m with queue := m.queue ++ [x] } else { m with held := m.held ++ [x] }
  return { f with c := { f.c with mxe := m } }

/-- The claimable units of an MXE call: the engine and the ACS (R218, R353). -/
def mxeUnits : List TileUnit := .mxe :: acsUnits

/-- Whether an operation sets what a routine's call is checked by: one of its declared parameters, or its entry (R191,
R194, R206). -/
def setsCall (e : IssueEntry) : Instr → Bool
  | .mpset _ n _ => n.val == e.adesc || n.val == e.bdesc
  | .mxload _ _ => true
  | _ => false

/-- Whether the engine port holds an operation that has still to set what a routine's call is checked by: then the call,
which acts after it, is checked when it acts (R147, R194, notes/assumptions/17.md). -/
def Ctx.callUnset (c : Ctx) (e : IssueEntry) : Bool :=
  c.held.any fun x => x.unit == .en && (match x.op with | some (.again i) => setsCall e i | _ => false)

/-- The check of a call's descriptors, made before its operand is fetched (R102, R194, R195): not while the entry is
invalid, which traps first. -/
def callKinds (n : Fin 256) (f : Frame) (_a _b _c : Kind) : Bool :=
  let e := issueEntry (f.s.tile f.t.ptn) f.c.mxe n
  !e.valid || f.c.callUnset e || descriptorsOk f.c.mxe.mp e

/-- MXCALL (R195): takes its snapshot at issue. -/
def execMxcall (h : Slot) (n : Fin 256) (a : Src) (s : State) : Host.Outcome State Fault Refusal :=
  runSlot h (trigger h { engineTrig (some a) false false false mxeUnits with kinds := callKinds n } (direct fun f a _ _ _ => do
    let _ ← f.settled
    let m := f.c.mxe
    let e := issueEntry (f.s.tile f.t.ptn) m n
    let _ ← need e.valid (trapOf .illenc)
    let _ ← need (descriptorsOk m.mp e) (trapOf .illfmt)
    let mp6 := vget m.mp 6 0
    let first := fld mp6 0 9
    let cnt := fld mp6 9 10
    let _ ← need (first + cnt ≤ 512) (trapAt .align 0 (first * 4096))
    let utag := a.low.extractLsb' 0 32
    let mp := vset m.mp 7 ((vget m.mp 7 0).extractLsb' 32 32 ++ utag)
    let f ← f.acceptMxe (fun k => ⟨k, n, mp, none, utag⟩) (rangeFrom first cnt)
    return ({ f with c := { f.c with mxe := { f.c.mxe with mp := mp } } }, .quiet))) s

/-- Sets the issue-side entry of an index, the firmware's on the tile (R205, R206). -/
def Frame.setIssue (f : Frame) (i : Nat) (e : IssueEntry) : Frame :=
  if i < 64 then
    let r := f.s.tile f.t.ptn
    { f with s := f.s.setTile { r with fw := { r.fw with issue := insertKey r.fw.issue i e } } }
  else
    let m := f.c.mxe
    { f with c := { f.c with mxe := { m with store := { m.store with issue := insertKey m.store.issue i e } } } }

/-- MXLOAD (R206) -/
def execMxload (h : Slot) (a : Src) (s : State) : Host.Outcome State Fault Refusal :=
  runSlot h (trigger h (engineTrig (some a) true true false mxeUnits) (direct fun f a b c _ => do
    let _ ← f.settled
    let addr := a.low.toNat
    let w := b.low
    let index := fld w 0 8
    let start := fld w 8 11
    let ad := fld w 24 4
    let bd := fld w 28 4
    let count := fld c.low 0 12
    let _ ← need (ad ≤ 8 && bd ≤ 8 && start + count ≤ 2048) (trapOf .illenc)
    let _ ← need (addr % 8 == 0 && addr + 8 * count ≤ 0x200000) (trapAt .align 0 addr)
    let _ ← need (f.privileged || (64 ≤ index && (count == 0 || 1024 ≤ start))) (trapOf .priv)
    let utag := c.low.extractLsb' 32 32
    let f ← f.acceptMxe (fun k => ⟨k, index, Vector.replicate 8 0, some ⟨addr, index, start, ad, bd, count⟩, utag⟩)
      (blocksOf addr (8 * count))
    return (f.setIssue index ⟨count != 0, ad, bd⟩, .quiet))) s

/-! ### Tokens (R199 to R201) -/

/-- The status of a call that ran to its end (R201). -/
def CallFlags.status (x : CallFlags) : Nat :=
  (if x.nan then 32 else 0) + (if x.inf then 16 else 0) + (if x.ovf then 8 else 0)

/-- The status of a call that ended with an error (R201). -/
def errStatus (code : Nat) : Nat := 64 + code

/-- No flag. -/
def CallFlags.none : CallFlags := ⟨false, false, false⟩

/-- Flags of both. -/
def CallFlags.or (x y : CallFlags) : CallFlags := ⟨x.nan || y.nan, x.inf || y.inf, x.ovf || y.ovf⟩

/-- A token of an engine (R200). -/
def engineToken (status engine id : Nat) (utag : BitVec 32) : Word :=
  BitVec.ofNat 64 (2 ^ 63 + status * 2 ^ 56 + engine * 2 ^ 48 + id * 2 ^ 32 + utag.toNat)

/-- Ends the MXE's running call, or one that does not run, with its token still to post (R197). -/
def Mxe.finish (m : Mxe) (x : MxCall) (status : Nat) : Mxe :=
  let engine := if x.load.isSome then 2 else 0
  { m with run := none, fin := some ⟨x.serial, engineToken status engine x.routine x.utag, false⟩ }

/-- A finished call of an engine whose token is not posted. -/
def Ctx.finished (c : Ctx) : Engine → Option Finished
  | .mxe => c.mxe.fin
  | .xfu => c.xfu.fin

/-- Replaces an engine's finished call. -/
def Ctx.setFinished (c : Ctx) (e : Engine) (o : Option Finished) : Ctx :=
  match e with
  | .mxe => { c with mxe := { c.mxe with fin := o } }
  | .xfu => { c with xfu := { c.xfu with fin := o } }

/-- The tokens of an engine's port. -/
def Ctx.engineTokens (c : Ctx) : Engine → List Word
  | .mxe => c.mxe.k0
  | .xfu => c.xfu.k1

/-- Puts a token at the tail of an engine's port. -/
def Ctx.pushToken (c : Ctx) (e : Engine) (w : Word) : Ctx :=
  match e with
  | .mxe => { c with mxe := { c.mxe with k0 := c.mxe.k0 ++ [w] } }
  | .xfu => { c with xfu := { c.xfu with k1 := c.xfu.k1 ++ [w] } }

/-- Whether the strand of a context is draining (R44). -/
def State.draining (s : State) (ctx : Nat) : Bool :=
  match s.owner? ctx with
  | none => true
  | some t => t.life == .draining

/-- The token port of an engine: k0 or k1 (R199). -/
def tokenPort : Engine → Nat
  | .mxe => 0
  | .xfu => 1

/-- Whether an engine's port has room for a token beside those that a mismatch would put back (R199, R202). -/
def State.tokenRoom (s : State) (c : Ctx) (e : Engine) : Bool :=
  let back := match s.owner? c.id with
    | some t => if t.cur = c.id then t.poppedHere (tokenPort e) else 0
    | none => 0
  decide ((c.engineTokens e).length + back < 16)

/-- Posts an engine's token if its port has room; a draining strand's is discarded; else it waits (R197, R199,
R367). -/
def State.postEngine (s : State) (c : Ctx) (e : Engine) (x : Finished) : State :=
  if s.tokenRoom c e then
    let s := s.setCtx ((c.setFinished e none).pushToken e x.token)
    match s.owner? c.id with
    | none => s
    | some t => s.progress t.task
  else if s.draining c.id then s.setCtx (c.setFinished e none)
  else s.setCtx (c.setFinished e (some { x with posted := true }))

/-- ENGINE_CALL_COMPLETE (R197): the call's claims are released and its token is posted. -/
def execEngineCallComplete (ctx : Nat) (e : Engine) (s : State) : Host.Outcome State Fault Refusal :=
  match s.ctx? ctx with
  | none => s.event
  | some c => match c.finished e with
    | none => s.event
    | some x =>
      if x.posted then s.event
      else
        let s := s.release (.call x.serial)
        (s.postEngine ((s.ctx? ctx).getD c) e x).event

/-- ENGINE_TOKEN_POST_DEFERRED (R199): a token that found its port full is posted once there is room. -/
def execEngineTokenPostDeferred (ctx : Nat) (e : Engine) (s : State) : Host.Outcome State Fault Refusal :=
  match s.ctx? ctx with
  | none => s.event
  | some c => match c.finished e with
    | none => s.event
    | some x => if x.posted then (s.postEngine c e x).event else s.event

/-- HELD_CALL_ENQUEUE (R196): the oldest held call of an engine enters its queue. -/
def execHeldCallEnqueue (ctx : Nat) (e : Engine) (s : State) : Host.Outcome State Fault Refusal :=
  match s.ctx? ctx with
  | none => s.event
  | some c => match e with
    | .mxe => match c.mxe.held with
      | [] => s.event
      | x :: l =>
        if c.mxe.taken < 8 then
          (s.setCtx { c with mxe := { c.mxe with held := l, queue := c.mxe.queue ++ [x] } }).event
        else s.event
    | .xfu => match c.xfu.held with
      | [] => s.event
      | x :: l =>
        if c.xfu.taken < 8 then
          (s.setCtx { c with xfu := { c.xfu with held := l, queue := c.xfu.queue ++ [x] } }).event
        else s.event

/-! ### Starting calls (R206, R207) -/

/-- Whether a call's claim stands and what its context issued before is performed, so that it may start (R198). -/
def State.claimLive (s : State) (serial : Nat) : Bool :=
  s.claims.all fun k => k.holder != .call serial || (k.live && s.claimClear k)

/-- Whether no unit of an engine's calls is still to be handed over or restored (R218, R229, R372). -/
def Ctx.engineHere (c : Ctx) (e : Engine) : Bool :=
  !c.wants.any fun p => match e with | .mxe => mxeUnits.contains p.2 | .xfu => p.2 == .xfu

/-- The tile's record for a context (R205). -/
def State.tileOf (s : State) (ctx : Nat) : TileRec := s.tile (((s.owner? ctx).map (·.ptn)).getD 0)

/-- The call at the head of the MXE's queue when the MXE may start it (R196, R199, R217). -/
def State.mxeHead (s : State) (c : Ctx) : Option MxCall :=
  match c.mxe.queue with
  | [] => none
  | x :: _ => if c.mxe.run.isNone && c.mxe.fin.isNone && !c.mxe.stop && c.engineHere .mxe && s.claimLive x.serial then some x else none

/-- Nothing staged (R207). -/
def Staging.empty : Staging := ⟨none, none, none, none, none, none⟩

/-- A call at its start (R207). -/
def MxRun.start (x : MxCall) (e : Routine) : MxRun :=
  ⟨x, e, Vector.replicate 8 0, Vector.replicate 4 0, e.start, Staging.empty, Staging.empty, .none, [], [], 0⟩

/-- A call at the head of the MXE's queue that cannot be read ends with MCHK, and its task fails (R201, R371). -/
def State.lostCall (s : State) (c : Ctx) (x : MxCall) : State :=
  (s.setCtx { c with mxe := ({ c.mxe with queue := c.mxe.queue.drop 1 } : Mxe).finish x (errStatus 5) }).machineCheck c.id 1 0

/-- MXE_CALL_START (R207): a call whose routine failed to load ends with LOADBAD (R206). -/
def execMxeCallStart (ctx : Nat) (s : State) : Host.Outcome State Fault Refusal :=
  match s.ctx? ctx with
  | none => s.event
  | some c => match s.mxeHead c with
    | none => s.event
    | some x =>
      if x.load.isSome then s.event
      else if !c.sound (.call x.serial) then (s.lostCall c x).event
      else
        let m := { c.mxe with queue := c.mxe.queue.drop 1 }
        let e := storeEntry (s.tileOf ctx) m x.routine
        (s.setCtx { c with mxe := if e.valid then { m with run := some (.start x e) } else m.finish x (errStatus 6) }).event

/-- The calls of an engine that have not completed, by serial. -/
def Ctx.serials (c : Ctx) : Engine → List Nat
  | .mxe => (c.mxe.queue ++ c.mxe.held).map (·.serial) ++ (c.mxe.run.map (·.call.serial)).toList
  | .xfu => (c.xfu.queue ++ c.xfu.held).map (·.serial) ++ (c.xfu.run.map (·.call.serial)).toList

/-- Whether a call of an engine holds a scratchpad block (R198, R218). -/
def State.callHolds (s : State) (c : Ctx) (e : Engine) (b : Nat) : Bool :=
  s.claims.any fun k => k.ctx == c.id && k.blocks.contains b && (match k.holder with
    | .call serial => (c.serials e).contains serial
    | _ => false)

/-- Whether a unit is an engine's: its own, or an ACS bank. -/
def engineUnit (u : TileUnit) : Bool := u == .xfu || mxeUnits.contains u

/-- The units that a context of a strand waits for: the one that the strand stalls on and those of its held operations; for
the context that a trap has interrupted, those of its engines alone (R147, R355, R356). -/
def State.wanted (s : State) (t : Strand) (id : Nat) : List TileUnit :=
  let l := ((s.ctx? id).map fun c => c.wants.map (·.2)).getD []
  if id = t.cur then (match t.req with | .open (.claim u) => [u] | _ => []) ++ l else l.filter engineUnit

/-- The units that a strand of a Running task waits for (R147, R355, R356). -/
def State.unitsAsked (s : State) (t : Strand) : List TileUnit :=
  if (s.task? t.task).any (·.st == .running) then ((t.cur :: t.saved.toList).map (s.wanted t)).flatten else []

/-- Whether another strand of the tile claims an engine, or a unit that an engine's call needs (R218). -/
def State.wantsEngine (s : State) (c : Ctx) (e : Engine) : Bool :=
  match s.owner? c.id with
  | none => false
  | some t => s.strands.any fun u => u.ptn == t.ptn && u.cur != c.id && (s.unitsAsked u).any fun x => match x, e with
      | .mxe, .mxe => true
      | .acs _, .mxe => true
      | .block b, _ => s.callHolds c e b
      | .xfu, .xfu => true
      | _, _ => false

/-- A running call at a quiescent point: a staging load in progress is abandoned, its item absent, to be performed again
from its beginning (R217). -/
def MxRun.quiet (r : MxRun) (w : Word) : MxRun := if 7 ≤ fld w 58 6 ∧ fld w 58 6 ≤ 12 then { r with part := 0 } else r

/-- MXE_QUIESCE (R217): the MXE stops at a quiescent point when another strand of the tile claims it: between
micro-operations, passes or rows, or at the start of a staging load. With nobody claiming it nothing happens. -/
def execMxeQuiesce (ctx : Nat) (s : State) : Host.Outcome State Fault Refusal :=
  match s.ctx? ctx with
  | none => s.event
  | some c =>
    if s.wantsEngine c .mxe then (s.setCtx { c with mxe := { c.mxe with
      stop := true, run := c.mxe.run.map fun r => r.quiet (storeWord (s.tileOf ctx) c.mxe r.upc) } }).event
    else s.event

/-- XFU_QUIESCE (R228): the XFU stops at a boundary between butterfly stages, between output elements of a Legendre pass,
or between calls, when another strand of the tile claims it. -/
def execXfuQuiesce (ctx : Nat) (s : State) : Host.Outcome State Fault Refusal :=
  match s.ctx? ctx with
  | none => s.event
  | some c =>
    if s.wantsEngine c .xfu then (s.setCtx { c with xfu := { c.xfu with stop := true } }).event else s.event

/-! ### MXLOAD_RUN (R206, R211) -/

/-- The fields of a micro-word (R208). -/
structure MicroBits where
  op  : Nat
  j   : Nat
  k   : Nat
  bk  : Nat
  s   : Bool
  p   : Bool
  c   : Bool
  cb  : Nat
  opx : Nat
  imm : Nat

/-- Reads a micro-word's fields (R208). -/
def microBits (w : Word) : MicroBits :=
  ⟨fld w 58 6, fld w 55 3, fld w 52 3, fld w 49 3, bit w 48, bit w 47, bit w 46, fld w 40 6, fld w 32 8, fld w 0 32⟩

/-- Micro-operations that use ma J or mc J (R210). -/
def usesJ : List Nat := [2, 3, 4, 5, 7, 8, 9, 10, 11, 12, 15, 16]
/-- Micro-operations that name mp K (R210). -/
def usesK : List Nat := [2, 7, 8]
/-- Micro-operations that use a staging set (R210). -/
def usesS : List Nat := [7, 8, 9, 10, 11, 12, 13]
/-- Micro-operations with a variable operand (R209, R210). -/
def usesV : List Nat := [3, 4, 10]
/-- Micro-operations whose bank may come from a parameter (R209). -/
def usesBank : List Nat := [13, 14]

/-- The bytes of an MSTACC element by tag; 0 for a tag that is not a legal target (R211). -/
def accBytes (tag : Nat) : Nat := match tag with | 1 => 4 | 2 | 3 => 2 | 4 | 5 => 1 | _ => 0

/-- Whether a word has a nonzero bit in a field that its OP does not use (R211). -/
def MicroBits.stray (x : MicroBits) : Bool :=
  (!x.c && x.cb != 0)
    || (x.j != 0 && !usesJ.contains x.op)
    || (x.k != 0 && !(usesK.contains x.op || x.p || x.c || (x.op == 15 && x.opx == 31)))
    || (x.bk != 0 && !(x.op == 15 || x.op == 16 || (usesBank.contains x.op && !x.p)))
    || (x.s && !usesS.contains x.op)
    || (x.p && !(usesV.contains x.op || usesBank.contains x.op))
    || (if x.op = 2 then 2 ≤ x.opx else x.op != 15 && x.opx != 0)
    || (if usesV.contains x.op then (if x.p then 4 ≤ x.imm else 65536 ≤ x.imm)
        else if usesBank.contains x.op then (if x.p then 4 ≤ x.imm else x.imm != 0)
        else if x.op = 5 ∨ x.op = 6 then 4096 ≤ x.imm
        else if x.op = 15 ∨ x.op = 16 then x.imm % 65536 != 0
        else x.imm != 0)

/-- Whether an MSTACC or MLDACC has a bad tag or pitch (R211). -/
def MicroBits.badPitch (x : MicroBits) : Bool :=
  let p := x.imm / 65536
  if x.op = 16 then p % 16 != 0 || p < 256
  else if x.op = 15 then
    if x.opx = 31 then p != 0 else accBytes x.opx == 0 || p % 16 != 0 || p < 64 * accBytes x.opx
  else false

/-- Whether MXLOAD refuses a word at a store address (R211). -/
def LoadImage.refuses (l : LoadImage) (at_ : Nat) (w : Word) : Bool :=
  let x := microBits w
  let target := (at_ : Int) + sintN 12 x.imm
  16 < x.op || x.stray || x.badPitch
    || ((x.op == 4 || x.op == 5) && 3 < x.j)
    || (x.op == 7 && (l.adesc == 8 || x.k != l.adesc))
    || (x.op == 8 && (l.bdesc == 8 || x.k != l.bdesc))
    || (x.op == 10 && !x.p && 95 < x.imm)
    || ((x.op == 5 || x.op == 6) && (target < l.start || ((l.start + l.count : Nat) : Int) ≤ target))

/-- The words of an image (R206). -/
def State.imageWords (s : State) (ctx : Nat) (l : LoadImage) : List Word :=
  wordsOf l.count (Memory.read s.mem (Key.pad ctx l.addr) (8 * l.count))

/-- Sets a store-side entry. -/
def MicroStore.putEntry (m : MicroStore) (i : Nat) (e : Routine) : MicroStore := { m with table := insertKey m.table i e }

/-- What a load leaves in a part of the store: the words and the entry that lie in it (R205, R206). -/
def MicroStore.loaded (m : MicroStore) (l : LoadImage) (ws : List Word) (ok here : Bool) (lo hi : Nat) : MicroStore :=
  let mine := (ws.zipIdx.map fun p => (l.start + p.2, p.1)).filter fun p => lo ≤ p.1 && p.1 < hi
  let m := if ok then { m with
    words := mine.foldl (fun k p => insertKey k p.1 p.2) m.words
    bad := m.bad.filter fun n => !mine.any (·.1 == n) } else m
  if here then m.putEntry l.index ⟨ok && l.count != 0, l.start, l.count, l.adesc, l.bdesc⟩ else m

/-- MXLOAD_RUN (R206): the image is checked, then written whole or not at all. -/
def execMxloadRun (ctx : Nat) (s : State) : Host.Outcome State Fault Refusal :=
  match s.ctx? ctx with
  | none => s.event
  | some c => match s.mxeHead c with
    | none => s.event
    | some x => match x.load with
      | none => s.event
      | some l =>
        let m := { c.mxe with queue := c.mxe.queue.drop 1 }
        if !c.sound (.call x.serial) then (s.lostCall c x).event
        else if s.bad (Key.pad ctx l.addr) (8 * l.count) then
          ((s.setCtx { c with mxe := m.finish x (errStatus 5) }).machineCheck ctx 1 l.addr).event
        else
          let ws := s.imageWords ctx l
          let ok := !(ws.zipIdx.any fun p => l.refuses (l.start + p.2) p.1)
          let r := s.tileOf ctx
          let t := s.setTile { r with fw := r.fw.loaded l ws ok (l.index < 64) 0 1024 }
          let m := { m with store := m.store.loaded l ws ok (64 ≤ l.index) 1024 2048 }
          (t.setCtx { c with mxe := m.finish x (if ok then 0 else errStatus 6) }).event

end Sys2Proof.Machine
end

