-- ==== Sys2Proof/Machine/Frame.lean ====
section
/-! DEFINITION. The command core's frame: mapped and rotation slots, the packets they start, and the acknowledgements
(R324 to R333, R364). -/

namespace Sys2Proof.Machine

/-! ### Waiting packets (R326) -/

/-- The condition of a WAIT (R325). -/
def waitMatches (cond : Nat) (x v : Word) : Bool :=
  match cond with
  | 0 => x == v
  | 1 => x != v
  | 2 => decide (v.toNat ≤ x.toNat)
  | _ => decide (x.toNat < v.toNat)

/-- Whether a BARRIER's queue has completed enough packets (R326). -/
def State.barrierMet (s : State) (q : Nat) (count : BitVec 32) : Bool :=
  decide (0 ≤ ((s.queue q).donecnt - count).toInt)

/-- Evaluates a started WAIT or BARRIER once (R326). -/
def State.evaluate (s : State) (q : Nat) (p : Started) : State :=
  let w (i : Nat) : Word := vget p.words i 0
  if packetType (w 0) = 5 then
    if s.barrierMet (fld (w 1) 0 12) ((w 2).extractLsb' 0 32) && s.coreAcquires (w 0) then s.completePacket q p.idx 0 0 0 []
    else s
  else if s.rangeWaits (w 1).toNat 8 then s
  else match s.coreRead (w 1).toNat 8 with
    | .error e => (if e = 5 then s.coreFault .read (w 1).toNat 8 q else s).completePacket q p.idx e 0 0 []
    | .ok bs =>
      let s := s.coreHasRead (w 1).toNat 8
      if waitMatches (fld (w 2) 0 3) (BitVec.ofNat 64 (numLE bs)) (w 3) && s.coreAcquires (w 0)
        then s.completePacket q p.idx 0 0 0 [] else s

/-! ### Starting packets (R324 to R327, R331) -/

/-- Whether the completion ring of a queue has room for one more packet, with `n` records due (R331). -/
def Queue.ringHasRoom (x : Queue) (n : Nat) : Bool :=
  decide (x.started.length + x.held.length + n + 1 + (x.cwridx - x.crdidx.extractLsb' 0 32).toNat ≤ x.cringSize)

/-- The records of a queue that are due (R331). -/
def State.duesOf (s : State) (q : Nat) : Nat := (s.dues.filter fun d => d.1 == q && d.2.isSome).length

/-- A SIGNAL performs its write at home; it completes at the acknowledgement, or at once when it is refused (R326). -/
def State.startSignal (s : State) (q idx : Nat) (w : Vector Word 8) : State :=
  let va := (vget w 1 0).toNat
  match (s.coreRelease (fld (vget w 0 0) 54 3)).signal (bit (vget w 2 0) 0) va (vget w 3 0) with
  | .ok t => t
  | .error e => (if e = 5 then s.coreFault .write va 8 q else s).completePacket q idx e 0 0 []

/-- Starts a packet that is not bad (R326). -/
def State.startPacket (s : State) (q idx : Nat) (w : Vector Word 8) : State :=
  let x := s.queue q
  let s := s.setQueue { x with started := x.started ++ [⟨idx, w⟩] }
  match packetType (vget w 0 0) with
  | 0 => s.completePacket q idx 0 0 0 []
  | 1 => s.packetTask q (.packet q idx) w (vget w 2 0) none
  | 2 => s.startGraph q idx true w
  | 3 => s.startSignal q idx w
  | _ => s

/-- A packet's words, or the status of one that cannot be read (R330, R371). -/
def State.readPacket (s : State) (x : Queue) : Except Nat (Vector Word 8) :=
  (s.coreRead (x.packetAddr x.rdidx.toNat) 64).map fun bs =>
    Vector.ofFn fun i => (wordsOf 8 bs).getD i.val 0

/-- A word that no packet gives: the user tag of a record whose packet was not read. -/
def State.unreadTag (s : State) : Nat := fld (Config.freeWord s.fresh) 0 32

/-- The record of a packet that was not started. -/
def State.refusePacket (s : State) (q status type utag idx : Nat) (irq : Bool) : State :=
  s.settleRecord q status (recordOf status type 0 utag idx 0 true irq)

/-- Whether a queue may start a packet now: there is one, nothing holds it back, and its record would have room
(R324, R326, R331). -/
def State.mayStart (s : State) (x : Queue) : Bool :=
  x.valid && !x.halted && fld x.wridx 0 32 != x.rdidx.toNat && !x.started.any (·.blocks) && x.ringHasRoom (s.duesOf x.q)

/-- Whether what a packet writes or reads to start lies behind a port that retrains (R314): a SIGNAL's word, or a descriptor's
header, node records and successor lists. -/
def State.packetWaits (s : State) (w : Vector Word 8) : Bool :=
  s.retraining && (match packetType (vget w 0 0) with
    | 3 => s.rangeWaits (vget w 1 0).toNat 8
    | 2 => bit (vget w 2 0) 36 && (s.rangeWaits (vget w 1 0).toNat 64 || (match s.coreRead (vget w 1 0).toNat 16 with
        | .error _ => false
        | .ok bs =>
          let v := wordsOf 2 bs
          let n := fld (v.getD 0 0) 0 12 + 1
          s.rangeWaits (vget w 1 0).toNat (64 + 64 * n) || s.rangeWaits (fld (v.getD 1 0) 1 56 * 2) (2 * 8192 * 2)))
    | _ => false)

/-- Reads and starts one packet; what it gives says whether the queue may go on (R324 to R327, R335). A packet behind a port that
retrains is not read, and one whose words are is not started (R314). -/
def State.readOne (s : State) (q : Nat) : State × Bool :=
  let x := s.queue q
  let idx := x.rdidx.toNat
  if !s.mayStart x || s.rangeWaits (x.packetAddr idx) 64 then (s, false)
  else match s.readPacket x with
    | .error e =>
      let s := if e = 5 then s.coreFault .read (x.packetAddr idx) 64 q else s
      let s := s.setQueue { x with rdidx := x.rdidx + 1 }
      ({ s with fresh := s.fresh + 1 }.refusePacket q e 0 s.unreadTag idx false, false)
    | .ok w =>
      let s := s.coreHasRead (x.packetAddr idx) 64
      let w0 := vget w 0 0
      if !s.packetOk w then
        ((s.setQueue { x with rdidx := x.rdidx + 1 }).refusePacket q 2 (packetType w0) (fld w0 0 32) idx (bit w0 48), false)
      else if (bit w0 53 && !x.started.isEmpty) || s.graphWaits w || s.packetWaits w then (s, false)
      else ((s.setQueue { x with rdidx := x.rdidx + 1 }).startPacket q idx w, true)

/-- Reads up to `n` packets. -/
def State.readPackets (s : State) (q : Nat) : Nat → State
  | 0 => s
  | n + 1 => let (t, more) := s.readOne q
    if more then t.readPackets q n else t

/-- A doorbell that runs past the ring halts the queue (R324). -/
def State.overrun (s : State) (q : Nat) : State :=
  let x := s.queue q
  let s' := { s with fresh := s.fresh + 1 }
  s'.settleRecord q 6 (recordOf 6 0 0 s.unreadTag x.rdidx.toNat 0 false true)

/-- Whether a doorbell has run past the ring (R324). -/
def Queue.overran (x : Queue) : Bool :=
  x.valid && !x.halted && decide (x.ringSize < (x.wridx.extractLsb' 0 32 - x.rdidx).toNat)

/-- A slot serves a queue: it reads up to four packets, and evaluates its WAIT or BARRIER (R332). -/
def State.serve (s : State) (q : Nat) : State :=
  let x := s.queue q
  if !x.valid || x.halted then s
  else if x.overran then s.overrun q
  else
    let s := s.readPackets q 4
    match (s.queue q).started.find? (·.waits) with
    | none => s
    | some p => s.evaluate q p

/-! ### Slots (R332, R333, R343) -/

/-- The queue that a mapped slot serves. -/
def State.mappedQueue (s : State) (n : Nat) : Option Nat := (s.queues.find? (·.mapped == some n)).map (·.q)

/-- The lowest free mapped slot. -/
def State.freeSlot (s : State) : Option Nat := (List.range 64).find? fun n => !s.queues.any (·.mapped == some n)

/-- The queues that a rotation slot may take: pending work and not mapped (R333). -/
def State.rotating (s : State) (done : List Nat) : List Nat :=
  (s.queues.filter fun x => x.pending && x.mapped.isNone && !done.contains x.q).map (·.q)

/-- The next queue in ascending id, wrapping, after the last one taken (R333); before it has taken any, the rotation begins at
queue 0 (R344, notes/assumptions/93.md). -/
def State.nextRotating (s : State) (done : List Nat) : Option Nat :=
  let l := s.rotating done
  ((l.filter (s.rotor ≤ ·)).head?).or l.head?

/-- A rotation slot maps its queue, or serves it when no mapped slot is free (R333). -/
def State.rotate (s : State) : State :=
  match s.nextRotating s.rotated with
  | none => s
  | some q =>
    let s := { s with rotor := q + 1, rotated := q :: s.rotated }
    match s.freeSlot with
    | some k => s.setQueue { s.queue q with mapped := some k, idle := 0, busy := true }
    | none => s.serve q

/-- Whether a mapped queue has nothing to do (R333): a packet whose record still waits is in progress no more
(notes/assumptions/97.md). -/
def Queue.quiet (x : Queue) : Bool := !x.pending && x.started.isEmpty

/-- A mapped slot samples its queue in its first cycle, and serves it (R333, R343). -/
def State.mappedSlot (s : State) (n : Nat) : State :=
  match s.mappedQueue n with
  | none => s
  | some q =>
    let x := s.queue q
    (s.setQueue { x with busy := x.busy || !x.quiet }).serve q

/-- The end of a frame: idle frames are counted, and an unregistered queue is unmapped (R323, R333). -/
def Queue.frameEnd (x : Queue) : Queue :=
  if x.mapped.isNone then { x with busy := false, gone := false }
  else if x.gone || !x.valid then { x with mapped := none, idle := 0, busy := false, gone := false }
  else { x with idle := if x.busy || !x.quiet then 0 else x.idle + 1, busy := false }

/-- The tile cycle of a frame in which a part begins, at the nominal clock: mapped slots of ten command-core cycles,
rotation slots of twenty, and the frame's last cycle (R332). -/
def partCycle (n : Nat) : Nat := if n < 64 then 20 * n else if n < 72 then 1280 + 40 * (n - 64) else 1999

/-- Whether the frame's next part begins now (R332). -/
def State.partDue (s : State) : Bool := s.part < 73 && s.frameAt + partCycle s.part ≤ s.cycle

/-- Runs the frame's next part (R332, R333, R343). -/
def State.framePart (s : State) : State :=
  let t := { s with part := s.part + 1 }
  if s.part < 64 then t.mappedSlot s.part
  else if s.part < 72 then t.rotate
  else { t with queues := t.queues.map Queue.frameEnd }

/-- Whether the frame is in its service phase, cycles 800 to 949 (R332). -/
def State.inService (s : State) : Bool := s.frameAt + 1600 ≤ s.cycle && s.cycle < s.frameAt + 1900

/-- Whether the frame is in the phase of management requests, cycles 950 to 999 (R332). -/
def State.inManagement (s : State) : Bool := s.frames != 0 && s.frameAt + 1900 ≤ s.cycle && s.cycle < s.frameAt + 2000

/-- Whether the next frame begins now (R332). -/
def State.frameDue (s : State) : Bool := s.part == 73 && (s.frames == 0 || s.frameAt + 2000 ≤ s.cycle)

/-- FRAME_START (R332): a frame begins with its first mapped slot; its other parts follow in their own cycles. -/
def execFrameStart (s : State) : Host.Outcome State Fault Refusal :=
  ({ s with frames := s.frames + 1, frameAt := s.cycle, part := 0, rotated := [] } : State).framePart.event

/-- QUEUE_IDLE_UNMAP (R333): a queue with nothing to do for sixteen frames is unmapped. -/
def execQueueIdleUnmap (q : Nat) (s : State) : Host.Outcome State Fault Refusal :=
  let x := s.queue q
  (if x.mapped.isSome && x.quiet && decide (16 ≤ x.idle) then s.setQueue { x with mapped := none, idle := 0 } else s).event

/-! ### Acknowledgements (R326, R364) -/

/-- Whether a started packet has a type. -/
def Started.isType (p : Started) (n : Nat) : Bool := packetType (vget p.words 0 0) == n

/-- SIGNAL_ACK (R326): the write is acknowledged and its packet completes. -/
def execSignalAck (q idx : Nat) (s : State) : Host.Outcome State Fault Refusal :=
  (if (s.queue q).started.any fun p => p.idx == idx && p.isType 3 then s.completePacket q idx 0 0 0 [] else s).event

/-- Whether a chunk of this module's own pulls is on its way to a range, under the translation that it was asked for with
(R319, R364). -/
def State.pullsInto (s : State) (va n : Nat) : Bool :=
  s.xfers.any fun x => x.notice.frm.modu == s.modId && !x.out.isEmpty && decide (x.dst < va + n ∧ va < x.dst + x.len)

/-- Whether a queue's INVAL may be acknowledged: no chunk that translated under an old entry is under way (R241, R364). -/
def State.invalReady (s : State) (q : Nat) : Bool :=
  match (s.queue q).started.find? fun p => p.isType 6 with
  | none => false
  | some p => !s.pullsInto (vget p.words 1 0).toNat (vget p.words 2 0).toNat

/-- INVAL_ACK (R326, R364): every cached translation of the range is dropped, none is left in use, and the packet
completes. -/
def execInvalAck (q : Nat) (s : State) : Host.Outcome State Fault Refusal :=
  match (s.queue q).started.find? fun p => p.isType 6 with
  | none => s.event
  | some p =>
    if !s.invalReady q then s.event
    else ((s.dropRange (vget p.words 1 0).toNat (vget p.words 2 0).toNat).completePacket q p.idx 0 0 0 []).event

end Sys2Proof.Machine
end

