-- ==== Sys2Proof/Machine/Tasks.lean ====
section
/-! DEFINITION. Tasks on tiles: headers, placement, pre-emption, claims of units, retirement, failure, the watchdog and
the distributor's reports (R25 to R37, R41 to R46, R352 to R368, R385). -/

namespace Sys2Proof.Machine

/-! ### The kernel header (R25 to R27) -/

/-- The position of rank i (R26). -/
def rankPosition (rmap : Word) (i : Nat) : Nat := fld rmap (4 * i) 4

/-- The fields of a header. -/
def headerFields (at_ : Nat) (w : List Word) : Header :=
  let g (i : Nat) : Word := w.getD i 0
  ⟨at_, fld (g 0) 0 57, g 1, fld (g 2) 24 14, bit (g 2) 20, bit (g 2) 19, bit (g 2) 18, fld (g 2) 8 10, fld (g 2) 4 4,
   fld (g 2) 0 4, fld (g 3) 0 57, bit (g 4) 32, (g 4).extractLsb' 0 32⟩

/-- The positions that a header names, by rank. -/
def Header.positions (h : Header) : List Nat := (List.range (h.tcnt + 1)).map (rankPosition h.rmap)

/-- Whether a header's words are not bad (R27). -/
def headerOk (w : List Word) : Bool :=
  let g (i : Nat) : Word := w.getD i 0
  let h := headerFields 0 w
  fld (g 0) 57 7 == 0 && fld (g 0) 0 5 == 0 && fld (g 2) 38 26 == 0 && fld (g 2) 21 3 == 0 && h.clen ≤ 8192
    && h.spb ≤ 512 && h.acsb ≤ 8 && fld (g 3) 57 7 == 0 && fld (g 3) 0 3 == 0 && fld (g 4) 33 31 == 0
    && g 5 == 0 && g 6 == 0 && g 7 == 0 && decide h.positions.Nodup
    && (rangeFrom (h.tcnt + 1) (15 - h.tcnt)).all fun i => rankPosition h.rmap i == 0

/-- Reads the header of a task, or gives the status with which it is refused (R27, R371). -/
def State.readHeader (s : State) (at_ : Nat) : Except Nat Header :=
  if at_ % 64 ≠ 0 then .error 1
  else match s.coreRead at_ 64 with
    | .error e => .error (if e = 3 then 3 else 1)
    | .ok bs => if headerOk (wordsOf 8 bs) then .ok (headerFields at_ (wordsOf 8 bs)) else .error 1

/-- The launch snapshot of a constant segment; one that cannot be translated is recorded (R27, R286, R365). -/
def State.launchSnapshot (s : State) (h : Header) : Except (Nat × Option (Nat × Nat)) (List Word × List (Nat × Nat)) :=
  match s.range .read h.cseg (8 * h.clen) with
  | .error e => .error (1, some e)
  | .ok l => if s.badPieces l then .error (3, none) else .ok (wordsOf h.clen (s.readPieces l), l)

/-! ### Who holds a position (R33 to R37) -/

/-- The tiles of a task's strands. -/
def State.taskStrands (s : State) (tid : Nat) : List Strand := s.strands.filter (·.task == tid)

/-- Whether a joined slot's group has a round in progress: its contribution is out, its root here counts one, or its root in
another module has reported one (R384). -/
def State.roundOpen (s : State) (a : AgSlot) : Bool :=
  a.joined && (a.out || (if slotRmod a == s.modId then ((s.root? (slotGid a)).map (·.busy)).getD false
    else s.roundsElsewhere.contains (slotGid a)))

/-- The priority with which a Pre-empted task is resumed (R384). -/
def State.resumePrio (s : State) (k : Task) : Nat :=
  if (s.taskStrands k.tid).any fun t => t.ags.toList.any s.roundOpen then 3 else k.prio

/-- The tasks in a state that have a strand on a tile. -/
def State.holders (s : State) (ptn : Nat) (st : TaskState) : List Task :=
  s.tasks.filter fun k => k.st == st && (s.taskStrands k.tid).any (·.ptn == ptn)

/-- The tiles of a header's positions on a cluster. -/
def Header.tilesOn (h : Header) (cluster : Nat) : List Nat := h.positions.map (16 * cluster + ·)

/-- The tiles of the cluster that a Placed task is bound to. -/
def Task.tiles (k : Task) : List Nat := (k.hdr.map (·.tilesOn (8 * k.die + k.clus))).getD []

/-- Whether a Placed task has a tile, which no other task takes before it has started (R28, notes/assumptions/85.md). -/
def State.bound (s : State) (ptn : Nat) : Bool := s.tasks.any fun k => k.st == .placed && k.tiles.contains ptn

/-- Whether no failure of a task of a tile is still to end it, or to be recorded (R30, R46). -/
def State.tileClear (s : State) (ptn : Nat) : Bool :=
  !s.unrecorded ptn && !s.strands.any fun t => t.ptn == ptn && t.fail.isSome

/-- Whether a tile may be placed on at a priority: it is offered and has its good banks, no other placement has it, no
Pre-empted task comes before, and it is returned or its holders have lower priority (R30, R33, R34, R37). -/
def State.tileUsable (s : State) (prio ptn : Nat) : Bool :=
  let r := s.tile ptn
  !s.bound ptn && s.tileClear ptn && r.offered && decide (2 ≤ r.banks.length) && (s.holders ptn .preempted).all (fun k => s.resumePrio k < prio)
    && (r.vacant || (!(s.holders ptn .running).isEmpty && (s.holders ptn .running).all fun k => k.prio < prio))

/-- The victim tasks on a cluster: those that hold a needed position, the Pre-empted ones too, for their tiles are not
returned (R28, R30, R34). -/
def State.victims (s : State) (h : Header) (cluster : Nat) : List Task :=
  s.tasks.filter fun k => (k.st == .running || k.st == .preempted) && (s.taskStrands k.tid).any fun t =>
    (h.tilesOn cluster).contains t.ptn

/-- Whether every strand of a task is Draining or Retired (R34, R36). -/
def State.allDraining (s : State) (k : Task) : Bool := (s.taskStrands k.tid).all (·.life != .running)

/-- How a cluster ranks: returned tiles first, then clusters with a victim that is not draining, then the lowest
highest victim priority, then the lowest number (R34). -/
def State.clusterRank (s : State) (h : Header) (cluster : Nat) : Nat :=
  let vs := s.victims h cluster
  if vs.isEmpty then cluster
  else 1024 + (if vs.all s.allDraining then 4096 else 0) + 512 * (vs.map (·.prio)).foldl max 0 + cluster

/-- The cluster on which a task is placed, of the 64 of the module (R34). -/
def State.chooseCluster (s : State) (prio : Nat) (h : Header) : Option Nat :=
  let ok := (List.range 64).filter fun c => (h.tilesOn c).all (s.tileUsable prio)
  ok.foldl (fun (best : Option Nat) c => match best with
    | none => some c
    | some b => if s.clusterRank h c < s.clusterRank h b then some c else some b) none

/-! ### Strands that are stopped (R29, R46) -/

/-- Whether a strand issues nothing more until it is let go on: at a bundle boundary, at a wait of R38, or after
RETIRE. -/
def State.stopped (s : State) (t : Strand) : Bool :=
  t.life != .running || t.fail.isSome || t.bar.isSome || (match t.waits with | some w => !w.isStall | none => false)
    || (match s.ctx? t.cur with | some c => !c.seq.issuing | none => true)

/-- Whether a Placed task claims a tile of a task (R28, R29). -/
def State.claimed (s : State) (k : Task) : Bool := (s.taskStrands k.tid).any fun t => s.bound t.ptn

/-- Whether a task's strands are to stop at their next bundle boundary: pre-emption, a failure, or the watchdog
(R29, R46, R368). -/
def State.stopping (s : State) (k : Task) : Bool :=
  s.claimed k || (s.taskStrands k.tid).any (·.fail.isSome) || (k.wdInt != 0 && k.wdInt * 2000 ≤ k.wdCnt)

/-- Whether every strand of a task has stopped; those of a Pre-empted one have. -/
def State.allStopped (s : State) (tid : Nat) : Bool :=
  (s.task? tid).any (·.st == .preempted) || (s.taskStrands tid).all s.stopped

/-! ### Ending a task (R30, R44 to R46) -/

/-- Removes a task and all that its strands hold; detached copies run on (R30, R44). Its tiles return with the next
report (R33). -/
def State.removeTask (s : State) (tid : Nat) : State :=
  let ts := s.taskStrands tid
  let ids := (ts.map fun t => t.cur :: t.saved.toList).flatten
  { s with
    tasks := s.tasks.filter (·.tid != tid)
    strands := s.strands.filter (·.task != tid)
    turn := s.turn.filter fun i => !ts.any (·.sid == i)
    ctxs := s.ctxs.filter fun c => !ids.contains c.id
    claims := s.claims.filter fun k => !ids.contains k.ctx || (match k.holder with | .cmd _ => true | _ => false)
    tiles := s.tiles.map fun r => { r with
      owners := r.owners.filter fun o => !ids.contains o.2
      vacant := r.vacant && !ts.any (·.ptn == r.ptn) }
    posts := s.posts.filter fun p => !ts.any (·.sid == p.sid)
    xfers := s.xfers.filter fun x => match x.post with | some k => !ts.any (·.sid == k.1) | none => true }

/-- Abandons a tag command: what it writes outside its own tile is undefined (R46). -/
def State.abandonCmd (s : State) (k : Cmd) : State :=
  if k.ended then s
  else match k.kind with
    | .copy d w _ => if d.dsp = 1 then s else s.abandonCopy k d w 0
    | .atomic _ narrow va _ _ _ => s.undefineGlobal [(va, if narrow then 4 else 8)]
    | .mcst _ _ _ va => if k.members.isSome then s.undefineGlobal [(va, 256)] else s
    | _ => s

/-- Abandons the copies, calls and collectives of a task (R46). -/
def State.abandonTask (s : State) (tid : Nat) : State :=
  let sids := (s.taskStrands tid).map (·.sid)
  let s := (s.cmds.filter fun k => sids.contains k.sid).foldl State.abandonCmd s
  let s := (s.xfers.filter fun x => match x.post with | some k => sids.contains k.1 | none => false).foldl
    (fun s x => s.undefinePlaces x 0 x.len) s
  { s with
    replicas := s.replicas.filter fun r => !s.cmds.any fun k => k.id == r.cmd && r.frm == s.modId && sids.contains k.sid
    claims := s.claims.filter fun c => match c.holder with
      | .cmd i => !s.cmds.any fun k => k.id == i && sids.contains k.sid
      | _ => true
    cmds := s.cmds.filter fun k => !sids.contains k.sid }

/-- Every joined slot of a task leaves its group (R384). -/
def State.leaveAll (s : State) (tid : Nat) : State := (s.taskStrands tid).foldl State.leaveGroups s

/-- The address of a strand's fault words (R352, R360). -/
def faultWordsAt (csa : Word) : Nat := csaBase csa + 0x68000

/-- Writes the fault words of a failing strand; an area that cannot be written gets none, and a record of KIND 6 says
where, unless the failure was that one (R352, R359). -/
def State.putFaultWords (s : State) (t : Strand) (r : FailRec) : State × Nat :=
  match s.tileWrite t.ptn (faultWordsAt t.csa) ((r.words.map wordBytes).flatten) with
  | .ok u => (u, csaBase t.csa)
  | .error (va, why) => (if r.cause = Cause.savef.code then s else s.informStrand t 6 .write why va, 0)

/-- Performs every confirmed store of a strand that ends: it stands, whatever becomes of the strand (R380). -/
def State.performDrain (s : State) (sid : Nat) : State :=
  match s.frameOf sid with
  | none => s
  | some f => (f.t.drain.foldl Frame.drainOne { f with t := { f.t with drain := [] } }).put

/-- The strand that the record of a failed task names: of those that failed in the first cycle of a failure, the one of lowest
rank (R352). -/
def failingRank (l : List Strand) : Nat :=
  let at_ (t : Strand) : Nat := (t.fail.map (·.cycle)).getD 0
  let bad := l.filter (·.fail.isSome)
  ((bad.filter fun t => bad.all fun u => at_ t ≤ at_ u).map (·.rank)).foldl min 16

/-- Ends a task as Failed: its confirmed stores performed, fault words for each failing strand, its work abandoned, its
groups left, and the record with the area of the failing strand; the queue halts, and the tiles return once the record is
written (R30, R46, R329, R352, R380). -/
def State.endFailed (s : State) (k : Task) (status : Nat) : State :=
  let ts := s.taskStrands k.tid
  let s := (ts.map (·.sid)).foldl State.performDrain s
  let bad := (s.taskStrands k.tid).filter (·.fail.isSome)
  let low := failingRank bad
  let (s, detail) := bad.foldl (fun (p : State × Nat) t => match t.fail with
    | none => p
    | some r =>
      let (u, a) := p.1.putFaultWords t r
      (u, if t.rank = low then a else p.2)) (s, 0)
  let s := (s.abandonTask k.tid).leaveAll k.tid
  (s.removeTask k.tid).taskReport k status detail (ts.map (·.ptn))

/-- Whether the save or spill area of a strand lies behind a port that retrains (R314, notes/assumptions/96.md). -/
def State.areaWaits (s : State) (t : Strand) : Bool :=
  s.retraining && (s.rangeWaits (csaBase t.csa) 0x400000
    || (t.cur :: t.saved.toList).any fun i => (s.ctx? i).any fun c => s.rangeWaits (spillBase c.spill) (spillSize c.spill))

/-- Whether an area of a task's strands lies behind a port that retrains (R314). -/
def State.taskWaits (s : State) (k : Task) : Bool := s.retraining && (s.taskStrands k.tid).any s.areaWaits

/-- Whether what the end of a task writes must wait for a port that retrains (R314). -/
def State.endWaits (s : State) (k : Task) : Bool :=
  s.taskWaits k || (match k.src with | .node g _ => s.graphStands g | _ => false)

/-- TASK_FAIL (R46): a strand's failure, recorded before or given now, stops its siblings; once they have stopped the task
is Failed. -/
def execTaskFail (sid cause sub addr : Nat) (s : State) : Host.Outcome State Fault Refusal :=
  match s.strand? sid with
  | none => s.event
  | some t =>
    let s := if t.fail.isSome then s else s.setStrand (t.failWith s.cycle cause sub addr (failWords cause sub addr))
    match s.task? t.task with
    | none => s.event
    | some k => if s.allStopped k.tid && !s.endWaits k then (s.endFailed k 3).event else s.event

/-! ### Claimable units (R353 to R358, R372) -/

/-- The strand and context that hold a unit of a tile, other than a context, and have not ended (R355). -/
def State.victimOf (s : State) (ptn : Nat) (u : TileUnit) (id : Nat) : Option (Strand × Ctx) :=
  match ((s.tile ptn).owners.find? (·.1 == u)).map (·.2) with
  | none => none
  | some v => if v = id then none else match s.owner? v, s.ctx? v with
    | some t, some c => some (t, c)
    | _, _ => none

/-- Makes a context the holder of a unit of its tile. -/
def State.giveUnit (s : State) (ptn : Nat) (u : TileUnit) (id : Nat) : State :=
  let r := s.tile ptn
  s.setTile { r with owners := (u, id) :: r.owners.filter (·.1 != u) }

/-- Writes the pairs of a list to the spill area of a context, in order; one that cannot be written or read fails the strand
(R137, R354, R359, R371). -/
def State.spillPairs (s : State) (t : Strand) (c : Ctx) : List Nat → State
  | [] => s
  | e :: es => if !c.pairSound e then s.failCheck t (c.pairAddr e) else match s.tileWrite t.ptn (c.pairAddr e) (((c.pair e).map wordBytes).flatten) with
    | .error (va, why) => s.failSave t .write why va
    | .ok u => u.spillPairs t c es

/-- The resident pairs of a context. -/
def Ctx.residentPairs (c : Ctx) : List Nat := rangeFrom c.lo (c.hi + 1 - c.lo)

/-- Spills the pairs of a context that the bank of index `i` holds, of `b` good ones, and every resident pair below
(R354). -/
def State.spillBank (s : State) (t : Strand) (c : Ctx) (i b : Nat) : State :=
  match (c.residentPairs.filter fun e => bankOfPair e b == i).reverse.head? with
  | none => s
  | some top => (s.spillPairs t c (rangeFrom c.lo (top + 1 - c.lo))).setCtx { c with lo := top + 1 }

/-- The place of a unit in the order in which the units of one group are taken (R353, R355). -/
def unitRank : TileUnit → Nat
  | .bank n => n.val
  | .queue => 8
  | .vfile => 9
  | .feeds => 10
  | .loops => 11
  | .mxe => 12
  | .acs n => 13 + n.val
  | .xfu => 21
  | .block n => 22 + n.val

/-- Feed elements that were fetched ahead are discarded at the spill, and fetched again (R353). -/
def Ctx.discardAhead (c : Ctx) (u : TileUnit) : Ctx :=
  if u = .feeds then { c with feeds := c.feeds.map fun d => { d with arrived := min d.arrived d.pos } } else c

/-- Saves a victim's state of a unit, at its place in the victim's context save area, and notes its image; an ACS bank that
the victim has not written since its start goes over with nothing spilled, undefined for the victim from then on
(R353, R355, R359, R372). -/
def State.saveUnit (s : State) (t : Strand) (c : Ctx) (u : TileUnit) : State :=
  match u with
  | .bank n =>
    let banks := (s.tile t.ptn).banks
    s.spillBank t c (banks.idxOf n.val) banks.length
  | _ => match unitPlace u with
    | none => s
    | some (o, len) =>
      if (match u with | .acs n => !c.acsw.contains n.val | _ => false) then s.undefine (Key.acs c.id (o - 0x20000)) len
      else if !c.unitSound u then s.failCheck t (csaBase t.csa + o)
      else match s.saveImage t.ptn (csaBase t.csa + o) len with
        | .ok w => w.setCtx { c.discardAhead u with away := ⟨u, s.fresh⟩ :: c.away.filter (·.unit != u) }
        | .error (va, why) => s.failSave t .write why va

/-- Hands a unit of a strand's tile over to one of the strand's contexts: another's state in it is saved, and the context's
own is restored if it was saved (R355, R357). -/
def State.takeUnit (s : State) (id : Nat) (u : TileUnit) : State :=
  match s.owner? id with
  | none => s
  | some t =>
    let s := match s.victimOf t.ptn u id with
      | none => s
      | some (v, c) => s.saveUnit v c u
    match s.owner? id, s.ctx? id with
    | some t, some c => if c.isAway u then s.restoreUnit t c u else s.giveUnit t.ptn u id
    | _, _ => s

/-- Restores the window of a strand's registers: every bank that holds one of the pairs is claimed, and the pairs that
are not resident are filled from the spill area (R354, R358). -/
def State.fillWindow (s : State) (sid : Nat) : State :=
  match s.frameOf sid with
  | none => s
  | some f0 =>
    let d := f0.c.depth
    let b := f0.banks
    let pairs := rangeFrom (d + 2 - 2 * b) (d + 2 - (d + 2 - 2 * b))
    let units := ((s.tile f0.t.ptn).banks.zipIdx.filter fun p => pairs.any fun e => bankOfPair e b == p.2).map fun p =>
      TileUnit.bank (Fin.ofNat 8 p.1)
    let s := units.foldl (fun s u => s.takeUnit f0.t.cur u) s
    match s.frameOf sid with
    | none => s
    | some f =>
      let lost := pairs.filter fun e => e < f.c.lo || f.c.hi < e
      match lost.foldl (fun (r : Except (Nat × Option Nat) (State × Ctx)) e => match r with
        | .error x => .error x
        | .ok (s, c) => match s.tileRange f.t.ptn .read (c.pairAddr e) 128 with
          | .error (va, why) => .error (va, some why)
          | .ok l =>
            if s.badPieces l then .error (c.pairAddr e, none)
            else .ok (s.tileHasRead f.t.ptn (c.pairAddr e) 128 l, c.setPair e (wordsOf 16 (s.readPieces l))))
        (.ok (s, f.c)) with
      | .ok (s, c) => s.setCtx { c with lo := min (d + 2 - 2 * b) c.lo, hi := d + 1 }
      | .error (va, some why) => s.failSave f.t .read why va
      | .error (va, none) => s.failCheck f.t va

/-- Whether an engine of a context may be taken: it is idle or has stopped at a quiescent point (R217, R228). -/
def Ctx.quiet (c : Ctx) : Engine → Bool
  | .mxe => !c.mxe.incomplete || c.mxe.stop
  | .xfu => !c.xfu.incomplete || c.xfu.stop

/-- The unit of an engine. -/
def ownUnit : Engine → TileUnit | .mxe => .mxe | .xfu => .xfu

/-- The engines of a victim that must be taken before a unit: the MXE before an ACS bank while it holds an incomplete
call, and the engine of a call that holds the block (R218). -/
def State.enginesBefore (s : State) (c : Ctx) (u : TileUnit) : List Engine :=
  match u with
  | .acs _ => if c.mxe.incomplete && !c.isAway .mxe then [.mxe] else []
  | .block b => [Engine.mxe, Engine.xfu].filter fun e => s.callHolds c e b && !c.isAway (ownUnit e)
  | _ => []

/-- The engine that a unit is. -/
def unitEngine : TileUnit → Option Engine | .mxe => some .mxe | .xfu => some .xfu | _ => none

/-- Whether a victim's block is held by a command, a firing or a finished call, so that a newcomer is late until it is
released (R262). -/
def State.blockBusy (s : State) (c : Ctx) (u : TileUnit) : Bool :=
  match u with
  | .block b => s.claims.any fun k => k.ctx == c.id && k.blocks.contains b && (match k.holder with
      | .cmd _ | .firing _ _ _ => true
      | .counter _ => false
      | .call serial => !((c.serials .mxe ++ c.serials .xfu).contains serial))
  | _ => false

/-- Whether a unit may be taken from its victim now (R217, R218, R262). -/
def State.mayTake (s : State) (c : Ctx) (u : TileUnit) : Bool :=
  !s.blockBusy c u && (match unitEngine u with | some e => c.quiet e | none => true) && (s.enginesBefore c u).all c.quiet

/-- Whether a save or spill area of a strand of a tile lies behind a port that retrains (R314). -/
def State.tileWaits (s : State) (ptn : Nat) : Bool := s.retraining && s.strands.any fun t => t.ptn == ptn && s.areaWaits t

/-- The engines of a victim that go with a unit to a context, or none while the victim's engine runs, its command holds the
block, or an area waits for a port (R217, R218, R262, R314). -/
def State.enginesWith (s : State) (ptn id : Nat) (u : TileUnit) : Option (List Engine) :=
  if s.tileWaits ptn then none
  else match s.victimOf ptn u id with
  | none => some []
  | some (_, c) => if s.mayTake c u then some (s.enginesBefore c u) else none

/-- A context has a unit that it waited for; an engine whose units are all at hand, none in the save area, goes on (R217, R228,
R229, R356). -/
def Ctx.got (c : Ctx) (u : TileUnit) : Ctx :=
  let c := { c with wants := c.wants.filter (·.2 != u) }
  { c with
    mxe := { c.mxe with stop := c.mxe.stop && !(mxeUnits.contains u && c.engineHere .mxe && !mxeUnits.any c.isAway) }
    xfu := { c.xfu with stop := c.xfu.stop && !(u == .xfu && c.engineHere .xfu && !c.isAway .xfu) } }

/-- Hands a unit over to a context of a strand, with the engines that go before it (R218, R355, R358). -/
def State.claimFor (s : State) (t : Strand) (id : Nat) (u : TileUnit) (es : List Engine) : State :=
  let s := es.foldl (fun s e => s.takeUnit id (ownUnit e)) s
  let s := s.takeUnit id u
  let s := { s with ctxs := updateIf s.ctxs (·.id == id) (·.got u) }
  match u, s.frameOf t.sid with
  | .bank _, some g => if g.windowResident then s else s.fillWindow t.sid
  | _, _ => s

/-- The contexts of a strand. -/
def Strand.contexts (t : Strand) : List Nat := t.cur :: t.saved.toList

/-- UNIT_CLAIM_COMPLETE (R355): a strand's claim of a unit is done; while the victim's engine runs or its command holds
the block, nothing happens. -/
def execUnitClaimComplete (sid : Nat) (u : TileUnit) (s : State) : Host.Outcome State Fault Refusal :=
  match s.strand? sid with
  | none => s.event
  | some t => match t.contexts.find? fun i => (s.wanted t i).contains u with
    | none => s.event
    | some id => match s.enginesWith t.ptn id u with
      | none => s.event
      | some es =>
        let s := s.setStrand { t with req := if t.req = .open (.claim u) then .none else t.req }
        (s.claimFor t id u es).event

/-- The next unit that a strand's contexts wait for: the touch of the earliest group, and within a group in the table's order
(R353, R355). -/
def State.nextWant (s : State) (t : Strand) : Option TileUnit :=
  let l := ((t.contexts.map fun i => match s.ctx? i with
    | none => []
    | some c => c.wants.filter fun w => (s.wanted t i).contains w.2).flatten).map fun w => (w.1 * 1024 + unitRank w.2, w.2)
  (l.foldl (fun (b : Option (Nat × TileUnit)) w => match b with
    | none => some w
    | some v => if w.1 < v.1 then some w else some v) none).map (·.2)

/-! ### Pre-emption (R29, R36, R37, R41, R350, R384, R385) -/

/-- Abandons the handler of a strand: it starts again at TVEC when its task resumes; its memory effects stand (R350). -/
def State.restartHandler (s : State) (sid : Nat) : State :=
  match s.frameOf sid with
  | none => s
  | some f =>
    if f.t.saved.isNone then s
    else
      let f := match f.t.spec with | some p => f.restore p | none => f
      let s := f.put.performDrain sid
      match s.frameOf sid with
      | none => s
      | some f =>
        let id := s.nextId
        let lfsr := fpstLfsr (((f.t.saved.bind s.ctx?).map (·.fpst)).getD f.c.fpst)
        let h := f.handlerCtx id lfsr
        let w0 := tsave0Written (vget f.t.tsave 0 0) (BitVec.ofNat 64 (3 * 2 ^ 35))
        let t := { f.t with cur := id, tsave := vset (vset f.t.tsave 0 w0) 7 0, trap := none }
        let s := s.dropCtx f.t.ptn f.c.id
        { s with nextId := id + 1, ctxs := h :: s.ctxs }.setStrand t

/-- Saves an area of a strand's context save area and notes its image, or fails the strand (R353, R359). -/
def State.saveArea (s : State) (sid o n : Nat) : State :=
  match s.strand? sid with
  | none => s
  | some t =>
    if t.fail.isSome then s
    else match s.saveImage t.ptn (csaBase t.csa + o) n with
      | .error (va, why) => s.failSave t .write why va
      | .ok u => u.setStrand (t.noteImage o n s.fresh)

/-- The size of the core record as a strand that stops saves it: its upper half holds, while a handler runs, what the entry
saved there (R347, R353). -/
def Strand.recordSize (t : Strand) : Nat := if t.saved.isSome then 0x1000 else 0x2000

/-- The hold buffer in the context save area: offset and size (R385). -/
def holdBuffer : Nat × Nat := (0x69000, 0x3000)

/-- Whether a strand has stores to keep in its hold buffer (R385). -/
def Strand.holdsStores (t : Strand) : Bool := t.spec.isSome || !t.drain.isEmpty

/-- Stops a strand of a victim: its core record is saved, with its hold buffer while it speculates or drains, its wait ends,
and a handler is abandoned (R41, R350, R353, R359, R385). -/
def State.preemptStrand (s : State) (sid : Nat) : State :=
  let s := { s with strands := updateIf s.strands (·.sid == sid) fun t => { t with waits := none, req := .none } }
  let s := s.restartHandler sid
  match s.strand? sid with
  | none => s
  | some t =>
    let s := s.noticeGroups t true
    let s := if t.contexts.all (fun i => ((s.ctx? i).map (·.coreSound)).getD true) then s.saveArea sid 0 t.recordSize
      else s.failCheck t (csaBase t.csa)
    if t.holdsStores then s.saveArea sid holdBuffer.1 holdBuffer.2 else s

/-- Makes tiles vacant, or not, in the distributor's view. -/
def State.setVacant (s : State) (l : List Nat) (vacant : Bool) : State :=
  l.foldl (fun s p => s.setTile { s.tile p with vacant := vacant }) s

/-- Pre-empts a task whose strands have stopped: it stays bound to its tiles, which others may use but which are not returned
(R28 to R30). -/
def State.preempt (s : State) (k : Task) : State :=
  let ts := s.taskStrands k.tid
  let s := (ts.map (·.sid)).foldl State.preemptStrand (s.setTask { k with st := .preempted })
  s.setVacant (ts.map (·.ptn)) true

/-- Whether a tile is free for a Pre-empted task that holds it (R37). -/
def State.freeAgain (s : State) (ptn : Nat) : Bool :=
  (s.tile ptn).vacant && (s.holders ptn .running).isEmpty && !s.bound ptn && !s.unrecorded ptn

/-- Whether every tile of a Pre-empted task is free again, with no other Pre-empted task that comes before on one of
them (R37, R384). Of two that share a position the one of higher priority comes first, and equal ones take turns as the device's
events do: the manual gives no order (notes/assumptions/90.md). -/
def State.mayResume (s : State) (k : Task) : Bool :=
  let tiles := (s.taskStrands k.tid).map (·.ptn)
  k.st == .preempted && !(s.taskStrands k.tid).any (·.fail.isSome) && tiles.all s.freeAgain
    && (s.tasks.filter fun j => j.tid != k.tid && j.st == .preempted && s.resumePrio k < s.resumePrio j).all fun j =>
      !((s.taskStrands j.tid).any fun t => tiles.contains t.ptn)
        || !((s.taskStrands j.tid).all fun t => s.freeAgain t.ptn)

/-- A held store whose image software has written over: its bytes are free values (R360, notes/assumptions/32.md). -/
def HeldStore.scramble (n : Nat) (x : HeldStore) : HeldStore :=
  { x with pieces := x.pieces.map fun p => (p.1, freeBytes n p.1 p.2.length) }

/-- A hold buffer whose image software has written over (R360, R385). -/
def Strand.scrambleHeld (t : Strand) (n : Nat) : Strand :=
  { t with
    drain := t.drain.map (HeldStore.scramble n)
    spec := t.spec.map fun p => { p with stores := p.stores.map (HeldStore.scramble n) } }

/-- Reads the hold buffer of a resumed strand back; it is as saved where its image stands (R359, R360, R385). -/
def State.restoreHeld (s : State) (sid : Nat) : State :=
  match s.strand? sid with
  | none => s
  | some t =>
    if t.fail.isSome || !t.images.any (·.1 == holdBuffer.1) then s
    else match s.readArea t holdBuffer.1 holdBuffer.2 with
      | .error u => u
      | .ok (u, true) => u
      | .ok (u, false) => { u with fresh := u.fresh + 1 }.setStrand (t.scrambleHeld u.fresh)

/-- A context of a strand whose core record has been restored: it has reached its next bundle from nowhere (R348), and its
engines go on once their state is back (R217, R229, R356). -/
def Ctx.resumed (c : Ctx) (r : TileRec) : Ctx :=
  ({ c with seq := { c.seq with reached := if c.seq.issuing then c.seq.reached else 0 } } : Ctx).resumeEngines r

/-- Lets a strand of a resumed task go on: its core record is restored; its confirmed stores drain, one in a tile cycle, before it
issues, and its engines with incomplete calls are restored next (R347, R356, R359, R360, R385, R387). -/
def State.resumeStrand (s : State) (sid : Nat) : State :=
  match s.strand? sid with
  | none => s
  | some t => match s.readArea t 0 t.recordSize with
    | .error u => u
    | .ok (u, whole) =>
      let u := { u with
        fresh := if whole then u.fresh else u.fresh + 1
        ctxs := updateIf u.ctxs (t.contexts.contains ·.id) fun c =>
          (if whole || c.id != t.cur then c else c.scrambleCore u.fresh).resumed (u.tile t.ptn) }
      let s := u.restoreHeld sid
      match s.strand? sid with
      | none => s
      | some t => (s.setStrand { t with
          images := t.images.filter fun i => i.1 == 0x1000
          drainGo := s.cycle + 1
          drainFirst := !t.drain.isEmpty }).noticeGroups t false

/-- TASK_RESUME (R37): a Pre-empted task goes on, on its own positions, as soon as they are all free again and its areas can be
reached (R314). -/
def execTaskResume (task : Nat) (s : State) : Host.Outcome State Fault Refusal :=
  match s.task? task with
  | none => s.event
  | some k =>
    if !s.mayResume k || s.taskWaits k then s.event
    else
      let ts := s.taskStrands task
      let s := (s.setTask { k with st := .running }).setVacant (ts.map (·.ptn)) false
      ((ts.map (·.sid)).foldl State.resumeStrand s).event

/-! ### Placement (R28, R31, R33 to R36, R328, R338) -/

/-- A strand at its start, with its context (R31, R328). -/
def Strand.start (k : Task) (h : Header) (const : List Word) (priv : Bool) (sid id rank ptn cycle : Nat) : Strand × Ctx :=
  let w4 := vget k.lctx 0 0
  let log := fld w4 59 5
  let spill := BitVec.ofNat 64 ((fld w4 7 50 * 128 + rank * 2 ^ log) / 128 % 2 ^ 50 * 128 + log)
  let seed := h.seed ^^^ BitVec.ofNat 32 rank
  let c0 := Ctx.start id h.entry spill seed
  let c := c0.withArgs (some k)
  let t : Strand :=
    { sid := sid, task := k.tid, rank := rank, ptn := ptn, cur := id, saved := none, life := .running
      snap := ⟨c, 0, 0, Vector.replicate 64 0, [], [], [], [], [], reloadBank const 0, 0, 0, cycle, Vector.replicate 16 Chan.start⟩
      snap0 := none, idle := 0, waits := none, req := .none, bar := none, barGo := 0
      spec := none, drain := [], drainGo := 0, trap := none, drainFirst := false, acq := false, privTask := priv
      tags := 0, tagbz := 0, stats := Vector.replicate 64 0, detach := 0
      chans := Vector.replicate 16 Chan.start, pers := [], insts := [], k2 := [], k2wait := [], k3 := [], posts := []
      ags := Vector.replicate 4 AgSlot.start, heart := 0, wdt := k.wdti
      tsave := Vector.replicate 8 0 |>.set 0 (BitVec.ofNat 64 (3 * 2 ^ 35))
      tvec := keepField (vget k.lctx 2 0) 5 52
      csa := keepField (vget k.lctx 1 0 + BitVec.ofNat 64 (rank * 2 ^ 22)) 22 35
      ttb := ttbWritten 0 (vget k.lctx 3 0)
      armed := [], cseg := h.cseg, clen := h.clen, const := const, cbx := 0, cbank := reloadBank const 0, cbxTill := 0
      cyc := cycle, spilling := [], images := [], fail := none }
  (t, c)

/-- Whether a completed collective is still remembered: its strand is there, or no other has started on its tile (R295). -/
def State.remembered (s : State) (ptn : Nat) (p : PostRec) : Bool := p.ptn != ptn || s.strands.any (·.sid == p.sid)

/-- Adds the strand of one rank on its tile. -/
def State.addStrand (s : State) (k : Task) (h : Header) (const : List Word) (rank ptn : Nat) : State :=
  let id := s.nextId
  let s := { s with ended := s.ended.filter (s.remembered ptn) }
  let priv := (s.queue k.queue).priv
  let (t, c) := Strand.start k h const priv id id rank ptn (s.cycle + 1)
  { s with nextId := id + 1, strands := s.strands ++ [t], ctxs := s.ctxs ++ [c] }

/-- Binds a task to a cluster, with its constant segment as its die has read it: it is Placed (R28, R286). -/
def State.bindTask (s : State) (k : Task) (h : Header) (const : List Word) (reads : List (Nat × Nat)) (cluster : Nat) : State :=
  let s := reads.foldl (fun s p => s.noteRead (cluster / 8) p.1 p.2) s
  s.setTask { k with hdr := some h, st := .placed, die := cluster / 8, clus := cluster % 8, const := const }

/-- Writes the start state of every strand of a Placed task: it is Running (R28, R31). -/
def State.launch (s : State) (k : Task) (h : Header) : State :=
  let s := (k.tiles.zipIdx).foldl (fun s p => s.addStrand k h k.const p.2 p.1) s
  let sids := (s.taskStrands k.tid).map (·.sid)
  (s.setTask { k with st := .running, sids := sids, wdInt := k.wdti.toNat, wdCnt := 0 }).setVacant k.tiles false

/-- Ends a task that never started (R27, R359). -/
def State.refuseTask (s : State) (k : Task) (status : Nat) : State :=
  ({ s with tasks := s.tasks.filter (·.tid != k.tid) } : State).taskReport k status 0 []

/-- Whether a task must leave Pending first: an earlier packet of the same queue, an earlier launch for the same queue, or an
earlier node of the same graph and priority (R35, R309, R327, notes/assumptions/26.md). -/
def State.heldBack (s : State) (k : Task) : Bool :=
  s.tasks.any fun j => j.st == .pending && j.order < k.order && (match j.src, k.src with
    | .packet q _, .packet p _ => q == p
    | .catalogue q _, .catalogue p _ => q == p
    | .node g _, .node m _ => g == m && j.prio == k.prio
    | _, _ => false)

/-- Whether a Pending task can be dealt with: its header is refused, or some cluster takes it (R34). -/
def State.placeable (s : State) (k : Task) : Bool :=
  match s.readHeader k.at_ with
  | .error _ => true
  | .ok h => (s.chooseCluster k.prio h).isSome

/-- Whether a Pending task is the one that the distributor considers (R35, R338). -/
def State.considered (s : State) (k : Task) : Bool :=
  k.st == .pending && !s.heldBack k && s.placeable k
    && !s.tasks.any fun j => j.st == .pending && (k.prio < j.prio || (k.prio == j.prio && j.order < k.order))
      && !s.heldBack j && s.placeable j

/-- The base of a task's context save areas; one that is not 4 MiB-aligned fails the task (R359). -/
def Task.csaMisaligned (k : Task) : Bool := fld (vget k.lctx 1 0) 0 22 != 0

/-- The Running tasks on the tiles of a Placed task: its victims, which stop at their next bundle boundary (R29). -/
def State.victimsOf (s : State) (k : Task) : List Task :=
  s.tasks.filter fun v => v.st == .running && (s.taskStrands v.tid).any fun t => k.tiles.contains t.ptn

/-- Whether the victims of a Placed task have all stopped, none by a failure that is still to end it, and can be saved (R314). -/
def State.victimsStopped (s : State) (k : Task) : Bool :=
  (s.victimsOf k).all fun v => s.allStopped v.tid && !(s.taskStrands v.tid).any (·.fail.isSome) && !s.taskWaits v

/-- Whether the tiles of a Placed task are clear of running tasks and of failures not yet recorded (R30). -/
def State.tilesClear (s : State) (k : Task) : Bool := k.tiles.all fun p => (s.holders p .running).isEmpty && s.tileClear p

/-- Pre-empts the victims of a Placed task once they have stopped, and starts it once its tiles are clear; a victim whose core
record cannot be saved fails, and its failure is recorded first (R28 to R30, R359). -/
def State.startPlaced (s : State) (tid : Nat) : State :=
  match s.task? tid with
  | none => s
  | some k =>
    if k.st ≠ .placed ∨ !s.victimsStopped k then s
    else
      let s := (s.victimsOf k).foldl (fun s v => s.preempt v) s
      match k.hdr with
      | some h => if s.tilesClear k then s.launch k h else s
      | none => s

/-- Places a task on a cluster, or refuses it (R28, R359): it starts at once where no victim has still to stop (R29). -/
def State.placeOn (s : State) (k : Task) (h : Header) (cluster : Nat) : State :=
  if k.csaMisaligned then
    (s.inform 6 .write 0 (fld (vget k.lctx 1 0) 0 57) (16 * cluster + rankPosition h.rmap 0) k.queue k.tid).refuseTask k 3
  else match s.launchSnapshot h with
    | .error (status, some (va, why)) =>
      (s.inform 8 .read why va (16 * cluster + rankPosition h.rmap 0) k.queue k.tid).refuseTask k status
    | .error (status, none) => s.refuseTask k status
    | .ok (const, reads) =>
      if 3 ≤ k.acq ∧ !s.acquireReady (cluster / 8) then s
      else (s.bindTask k h const reads cluster).startPlaced k.tid

/-- Whether the header of a Pending task, its constant segment, or what its refusal would write lies behind a port that retrains
(R314). -/
def State.placeWaits (s : State) (k : Task) : Bool :=
  s.retraining && (s.rangeWaits k.at_ 64 || (match s.readHeader k.at_ with
      | .ok h => s.rangeWaits h.cseg (8 * h.clen)
      | .error _ => false)
    || (match k.src with | .node g _ => s.graphStands g | _ => false))

/-- TASK_PLACE (R28, R34): the distributor deals with a Pending task when it is the one considered, once its header can be reached
(R314); a Placed one starts once its victims have stopped. -/
def execTaskPlace (task : Nat) (s : State) : Host.Outcome State Fault Refusal :=
  match s.task? task with
  | none => s.event
  | some k =>
    if k.st = .placed then (s.startPlaced task).event
    else if !s.considered k || s.placeWaits k then s.event
    else match s.readHeader k.at_ with
      | .error e => (s.refuseTask k e).event
      | .ok h => match s.chooseCluster k.prio h with
        | none => s.event
        | some c => ((s.coreHasRead k.at_ 64).placeOn k h c).event

/-! ### Retirement (R30, R44, R45) -/

/-- Whether a held operation waits for a column that no row can complete any more, or behind one that does (R44, R187). -/
def Ctx.forsaken (c : Ctx) (x : Held) : Bool :=
  c.held.any fun y => (y.rid == x.rid || (y.rid < x.rid && y.pending)) && y.cols.any fun p =>
    c.blocks.any fun b => b.serial == p.1 && !b.closed

/-- Whether a draining strand's work has completed, its results in flight pushed and its held operations run (R44). -/
def State.drained (s : State) (t : Strand) : Bool :=
  t.life == .draining && t.fail.isNone && t.drain.isEmpty && (t.tagbz &&& ~~~t.detach) == 0
    && t.chans.toList.all (·.open_.isEmpty)
    && (t.cur :: t.saved.toList).all fun i => match s.ctx? i with
      | some c => !c.mxe.incomplete && !c.xfu.incomplete
          && (i != t.cur || (c.flying.isEmpty && c.held.all c.forsaken))
      | none => true

/-- A strand at its retirement: its unread tokens are discarded, its counters disarmed, and its groups left
(R30, R44, R252, R384). -/
def State.retireStrand (s : State) (t : Strand) : State :=
  let s := t.armed.foldl (fun s k => s.release (.counter k)) (s.leaveGroups t)
  let s := s.setStrand { t with
    life := .retired
    k2 := []
    k2wait := []
    k3 := []
    armed := []
    waits := none
    bar := none
    ags := t.ags.map fun a => { a with joined := false, out := false } }
  let ids := t.cur :: t.saved.toList
  { s with ctxs := updateIf s.ctxs (ids.contains ·.id) fun c =>
      { c with mxe := { c.mxe with k0 := [] }, xfu := { c.xfu with k1 := [] } } }

/-- Ends a task whose strands are all Retired: its release at REL, then its completion (R44, R45). -/
def State.endDone (s : State) (k : Task) : State :=
  let s := if 3 ≤ k.rel then s.releaseDie k.die else s
  (s.removeTask k.tid).taskReport k 0 0 []

/-- RETIRE_COMPLETE (R44): a strand whose outstanding work has completed is Retired; the last one ends its task. -/
def execRetireComplete (sid : Nat) (s : State) : Host.Outcome State Fault Refusal :=
  match s.strand? sid with
  | none => s.event
  | some t =>
    if !s.drained t then s.event
    else
      let s := (s.retireStrand t).releaseBarriers t.task
      match s.task? t.task with
      | none => s.event
      | some k => if (s.taskStrands k.tid).all (·.life == .retired) then (s.endDone k).event else s.event

/-! ### The watchdog (R366 to R368) -/

/-- Saves every unit of a tile that a context of a strand holds, as if each were touched (R354, R368). -/
def State.saveUnits (s : State) (sid id : Nat) : State :=
  match s.strand? sid, s.ctx? id with
  | some t, some c =>
    let s := (s.spillPairs t c c.residentPairs).setCtx { c with lo := c.hi + 1 }
    let us := ((s.tile t.ptn).owners.filter (·.2 == id)).map (·.1)
    (sortBy (fun u v => unitRank u ≤ unitRank v) us).foldl (fun s u => match s.strand? sid, s.ctx? id with
      | some t, some c => s.saveUnit t c u
      | _, _ => s) s
  | _, _ => s

/-- The watchdog's trap of a strand, its save registers those of the next bundle (R345, R348, R352, R368). -/
def State.watchdogTrap (s : State) (t : Strand) : Strand :=
  let ws := match s.frameOf t.sid with
    | some f => (tsaveWords ⟨Cause.wdog.code, 0, 0, 0, 0, none⟩ f.atBlock.c (!f.c.seq.issuing)).toList
    | none => failWords Cause.wdog.code 0 0
  t.failTrap s.cycle Cause.wdog.code 0 0 ws

/-- WATCHDOG_FIRE (R368): the interval has elapsed and every strand has stopped; every unit is saved, and the task is Failed
with status WDOG. -/
def execWatchdogFire (task : Nat) (s : State) : Host.Outcome State Fault Refusal :=
  match s.task? task with
  | none => s.event
  | some k =>
    let ts := s.taskStrands task
    if k.st ≠ .running ∨ k.wdInt = 0 ∨ k.wdCnt < k.wdInt * 2000 ∨ !s.allStopped task ∨ ts.any (·.fail.isSome) ∨ s.endWaits k then s.event
    else match ts.find? (·.rank == 0) with
      | none => s.event
      | some t =>
        let s := s.setStrand (s.watchdogTrap t)
        let s := ts.foldl (fun s t => t.contexts.foldl (fun s id => s.saveUnits t.sid id) s) s
        (s.endFailed k 4).event

/-! ### Reports and degraded tiles (R33, R358) -/

/-- The resident tasks of a cluster (R33). -/
def State.residents (s : State) (cluster : Nat) : Nat :=
  (s.tasks.filter fun k => k.st == .running && 8 * k.die + k.clus == cluster).length

/-- The report of a die: the distributor learns of the tiles that have been returned, of the clusters' resident tasks, and of
tiles that are no longer offered; a failed task's tiles return with its record (R30, R33). -/
def State.reportDie (s : State) (die : Nat) : State :=
  if die < 8 then
    { s with
      tiles := s.tiles.map fun r =>
        if dieOf r.ptn ≠ die then r
        else { r with
          vacant := (s.holders r.ptn .running).isEmpty && !s.unrecorded r.ptn
          offered := decide (2 ≤ r.banks.length) }
      resident := Vector.ofFn fun c => if c.val / 8 = die then s.residents c.val else vget s.resident c.val 0 }
  else s

/-- DIE_REPORT (R33) -/
def execDieReport (die : Nat) (s : State) : Host.Outcome State Fault Refusal := (s.reportDie die).event

/-- Spills what of a context a retiring pair of banks holds, and the lowest pairs beyond what the others hold
(R354, R358). -/
def State.vacateBanks (s : State) (t : Strand) (id i j b : Nat) : State :=
  let go (s : State) (i : Nat) : State := match s.ctx? id with
    | some c => s.spillBank t c i b
    | none => s
  let s := go (go s i) j
  match s.ctx? id with
  | none => s
  | some c =>
    let extra := c.residentPairs.length - 2 * (b - 2)
    (s.spillPairs t c (rangeFrom c.lo extra)).setCtx { c with lo := c.lo + extra }

/-- SCALAR_BANK_RETIRE (R358): a good bank and its neighbour are retired once their pairs are spilled; the last two only on
a tile with no strand. -/
def execScalarBankRetire (ptn : Nat) (bank : Fin 8) (s : State) : Host.Outcome State Fault Refusal :=
  let r := s.tile ptn
  let two := [bank.val, bank.val ^^^ 1]
  let ts := s.strands.filter (·.ptn == ptn)
  if 1024 ≤ ptn ∨ !(two.all r.banks.contains) ∨ (r.banks.length ≤ 2 ∧ (!ts.isEmpty ∨ s.bound ptn)) then s.event
  else
    let b := r.banks.length
    let s := ts.foldl (fun s t => (t.cur :: t.saved.toList).foldl (fun s id =>
      s.vacateBanks ((s.strand? t.sid).getD t) id (r.banks.idxOf bank.val) (r.banks.idxOf (bank.val ^^^ 1)) b) s) s
    let r := s.tile ptn
    (s.setTile { r with
      banks := r.banks.filter fun n => !two.contains n
      owners := r.owners.filter fun o => !(two.any fun n => o.1 == .bank (Fin.ofNat 8 n)) }).event

end Sys2Proof.Machine
end

