-- ==== Sys2Proof/Machine/Manage.lean ====
section
/-! DEFINITION. What the host, system software, the links and the power circuits do to the module: host memory accesses,
the management registers, optical ports, clocks and resets (R18, R289, R290, R311, R314 to R317, R320 to R323, R339 to
R342, R361, R365, R389). -/

namespace Sys2Proof.Machine

/-! ### The group table (R289, R290) -/

/-- A member word of the staged copy (R289). -/
def State.stagedMember (s : State) (g m : Nat) : BitVec 32 := lookupD s.grpMem (512 * g + m) 0

/-- Writes a member word of the staged copy (R289). -/
def State.writeMember (s : State) (g m : Nat) (v : BitVec 32) : State :=
  if g < 4096 ∧ m < 512 then { s with grpMem := insertKey s.grpMem (512 * g + m) v } else s

/-- Writes a header word, and with it the whole entry (R290). -/
def State.writeGroup (s : State) (g : Nat) (v : Word) : State :=
  if g < 4096 then
    { s with groups := (g, v, (List.range 512).map (s.stagedMember g)) :: s.groups.filter (·.1 != g) }
  else s

/-- GROUP_MEMBER_WRITE (R289) -/
def execGroupMemberWrite (g m : Nat) (v : BitVec 32) (s : State) : Host.Outcome State Fault Refusal :=
  (s.writeMember g m v).event
/-- GROUP_HEADER_WRITE (R290) -/
def execGroupHeaderWrite (g : Nat) (v : Word) (s : State) : Host.Outcome State Fault Refusal := (s.writeGroup g v).event

/-! ### Routing tables (R311, R389) -/

/-- Writes a word of a staged entry (R389). -/
def State.writeRoute (s : State) (m : Nat) (via : Bool) (v : Word) : State :=
  if 2304 ≤ m then s
  else if via then { s with stageVia := insertKey s.stageVia m v }
  else { s with stageMin := insertKey s.stageMin m v }

/-- Stages a version (R389). -/
def State.stageVersion (s : State) (v : Word) : State := { s with stg := v.extractLsb' 4 4, swp := true }

/-- Swaps the staged tables in, or is refused as a whole (R311, R389). -/
def State.swapTables (s : State) : State :=
  if s.swp && s.stg == s.cur + 1 then
    { s with curMin := s.stageMin, curVia := s.stageVia, cur := s.stg, swp := false }.pumped
  else s

/-- Writes RTCTL (R389). -/
def State.writeRtctl (s : State) (v : Word) : State := if bit v 63 then s.swapTables else s.stageVersion v

/-- ROUTING_ENTRY_WRITE (R389) -/
def execRoutingEntryWrite (m : Nat) (via : Bool) (v : Word) (s : State) : Host.Outcome State Fault Refusal :=
  (s.writeRoute m via v).event
/-- RTCTL_STAGE (R389) -/
def execRtctlStage (v : Word) (s : State) : Host.Outcome State Fault Refusal := (s.writeRtctl v).event
/-- TOPOLOGY_SWAP (R311) -/
def execTopologySwap (v : Word) (s : State) : Host.Outcome State Fault Refusal := (s.writeRtctl v).event

/-! ### Translation and the fault ring (R298, R319, R361, R365) -/

/-- Writes PTROOT (R361). -/
def State.writePtroot (s : State) (v : Word) : State := { s with ptroot := keepField v 12 40 ||| keepField v 0 1 }

/-- Whether FLTBASE takes a word: its size is in range and its ring lies in this module's own memory (R365). -/
def State.fltbaseOk (s : State) (v : Word) : Bool :=
  (fld v 0 5 == 0 || (4 ≤ fld v 0 5 && fld v 0 5 ≤ 16)) && (fld v 40 12 == 0 || fld v 40 12 == s.modId + 1)

/-- Writes FLTBASE; one out of range is ignored as a whole (R365). -/
def State.writeFltbase (s : State) (v : Word) : State :=
  if s.fltbaseOk v then { s with fltbase := keepField v 12 40 ||| keepField v 0 5 }.recordWaiting else s

/-- Writes FLTRD, which frees room in the ring (R365). -/
def State.writeFltrd (s : State) (v : Word) : State := { s with fltrd := v.extractLsb' 0 32 }.recordWaiting

/-- Whether a transfer waits for a response under a record's number (R319, R365). -/
def Xfer.faulted (x : Xfer) (num : BitVec 32) : Bool := x.stuck.any (·.num == some num.toNat)

/-- A record is resolved: its parked chunk is to be written, or its transfer goes on (R298, R319, R365). -/
def State.resolveFault (s : State) (num : BitVec 32) : State :=
  let s : State := { s with parked := updateIf s.parked (fun k => k.recorded && k.num == num.toNat) fun k =>
    { k with resolved := true } }
  ({ s with xfers := updateIf s.xfers (fun (x : Xfer) => x.faulted num) fun x => { x with stuck := none } } : State).pumped

/-- A record is refused: its chunk fails with PAGE (R298, R319, R365). -/
def State.refuseFault (s : State) (num : BitVec 32) : State :=
  let s : State := match s.parked.find? fun (k : Parked) => k.recorded && k.num == num.toNat with
    | none => s
    | some k =>
      let t : State := { s with parked := s.parked.filter (·.id != k.id) }
      match t.xfers.find? (fun (x : Xfer) => x.id == k.flight.xfer) with
      | some x => t.failChunk x k.flight.pos k.flight.len 2
      | none => t
  (match s.xfers.find? (fun (x : Xfer) => x.faulted num) with
    | none => s
    | some x => match x.stuck with
      | none => s
      | some k => s.failChunk { x with asked := max x.asked (k.pos + k.len), stuck := none } k.pos k.len 2).pumped

/-- Writes FLTRESP (R365). -/
def State.writeFltresp (s : State) (ok : Bool) (num : BitVec 32) : State := if ok then s.resolveFault num else s.refuseFault num

/-- PTROOT_WRITE (R361) -/
def execPtrootWrite (v : Word) (s : State) : Host.Outcome State Fault Refusal := (s.writePtroot v).event
/-- FLTBASE_WRITE (R365) -/
def execFltbaseWrite (v : Word) (s : State) : Host.Outcome State Fault Refusal := (s.writeFltbase v).event
/-- FLTRD_WRITE (R365) -/
def execFltrdWrite (v : Word) (s : State) : Host.Outcome State Fault Refusal := (s.writeFltrd v).event
/-- FLTRESP_RESOLVE (R365) -/
def execFltrespResolve (num : BitVec 32) (s : State) : Host.Outcome State Fault Refusal := (s.writeFltresp true num).event
/-- FLTRESP_REFUSE (R365) -/
def execFltrespRefuse (num : BitVec 32) (s : State) : Host.Outcome State Fault Refusal := (s.writeFltresp false num).event

/-! ### Power (R339) -/

/-- Writes ICLAMP; a limit out of range is ignored (R339). -/
def State.writeIclamp (s : State) (v : Word) : State :=
  if 500 ≤ fld v 0 16 ∧ fld v 0 16 ≤ 4000 then { s with iclamp := keepField v 0 16 } else s

/-- ICLAMP_WRITE (R339) -/
def execIclampWrite (v : Word) (s : State) : Host.Outcome State Fault Refusal := (s.writeIclamp v).event

/-- CURRENT_CLAMP_REACHED (R339): every tile clock falls by 1/16 of 2.0 GHz, down to 0.5 GHz. -/
def execCurrentClampReached (s : State) : Host.Outcome State Fault Refusal :=
  ({ s with clamped := true, clockStep := s.clockStep.map fun n => min 12 (n + 1) } : State).event

/-- CLOCK_RECOVER_STEP (R339): below the clamp, every tile clock recovers one step. -/
def execClockRecoverStep (s : State) : Host.Outcome State Fault Refusal :=
  ({ s with clamped := false, clockStep := s.clockStep.map fun n => n - 1 } : State).event

/-! ### Attestation (R341) -/

/-- ATTEST_NONCE_WRITE (R341): the mailbox holds a signed report of the measurements, the nonce and the identity key. -/
def execAttestNonceWrite (nonce : BitVec 256) (s : State) : Host.Outcome State Fault Refusal :=
  ({ s with nonce := nonce, report := some ⟨s.measure, nonce, Config.identityKey,
    Config.signature s.measure nonce Config.identityKey⟩ } : State).event

/-! ### The management aperture (R18, R19, R340) -/

/-- Writes two member words (R289). -/
def State.writeMembers (s : State) (o : Nat) (v : Word) : State :=
  (s.writeMember (o / 2048) (o % 2048 / 4) (v.extractLsb' 0 32)).writeMember (o / 2048) (o % 2048 / 4 + 1) (v.extractLsb' 32 32)

/-- Writes a register of the page-table and fault-ring region by its offset (R361, R365). -/
def State.writeFaultRegister (s : State) (o : Nat) (v : Word) : State :=
  match o with
  | 0x00 => s.writePtroot v
  | 0x08 => s.writeFltbase v
  | 0x18 => s.writeFltrd v
  | 0x20 => { s with fltvec := keepField v 0 7 }
  | 0x28 => s.writeFltresp (bit v 63) (v.extractLsb' 0 32)
  | _ => s

/-- Writes a 64-bit register of the management aperture; a read-only or unlisted one is left (R18, R340). -/
def State.writeRegister (s : State) (off : Nat) (v : Word) : State :=
  if off % 8 ≠ 0 then s
  else if off < 0x40000 then s.writeQueueWord (off / 64) (off % 64 / 8) v
  else if off < 0x80000 then s.writeFaultRegister (off - 0x40000) v
  else if off < 0x88000 then s.writeGroup ((off - 0x80000) / 8) v
  else if 0x100000 ≤ off ∧ off < 0x900000 then s.writeMembers (off - 0x100000) v
  else if off = 0x900000 then s.writeRtctl v
  else if 0x901000 ≤ off ∧ off < 0x90A000 then s.writeRoute ((off - 0x901000) / 16) (off % 16 == 8) v
  else if off = 0xD00000 then s.writeIclamp v
  else s

/-- REGISTER_WRITE (R18) -/
def execRegisterWrite (off : Nat) (v : Word) (s : State) : Host.Outcome State Fault Refusal := (s.writeRegister off v).event

/-- The bytes of an attestation report (R341). -/
def Report.bytes (r : Report) : List Byte :=
  (r.measure.map fun d => bytesLE 32 d.toNat).flatten ++ bytesLE 32 r.nonce.toNat ++ r.key.toList ++ r.sig.toList

/-- The nominal tile cycles of 1 ms and of 1 µs. -/
def msCycles : Nat := 2000000
/-- The nominal tile cycles of 1 µs. -/
def usCycles : Nat := 2000

/-- HOLD: the remaining hold time in ms, a part of one counting as one (R315). -/
def OptPort.holdMs (p : OptPort) (cycle : Nat) : Nat := (p.holdTill - cycle + msCycles - 1) / msCycles

/-- The packet trains of the last 1 µs (R315). -/
def OptPort.recent (p : OptPort) (cycle : Nat) : List (Nat × Nat) := p.trains.filter fun x => cycle < x.1 + usCycles

/-- DUTY: the laser's duty over the last 1 µs, the shares of its trains (R315, notes/assumptions/47.md). -/
def OptPort.dutyAt (p : OptPort) (cycle : Nat) : Nat := ((p.recent cycle).map (·.2)).foldl (· + ·) 0

/-- PORTST of a port in a tile cycle (R315). -/
def OptPort.word (p : OptPort) (cycle : Nat) : Word :=
  BitVec.ofNat 64 (p.state % 4 * 2 ^ 62 + p.ver % 16 * 2 ^ 58 + p.rtc.toNat * 2 ^ 32 + p.budget.toNat * 2 ^ 24
    + p.actual.toNat * 2 ^ 16 + p.holdMs cycle % 256 * 2 ^ 8 + p.dutyAt cycle % 256)

/-- A word of a queue-table entry as it reads (R323). -/
def Queue.word (x : Queue) (w : Nat) : Word :=
  match w with
  | 0 => x.w0
  | 1 => x.w1
  | 2 => x.w2
  | 3 => x.cwridx ++ x.rdidx
  | 4 => x.donecnt.zeroExtend 64
  | _ => 0

/-- RTCTL as it reads (R389). -/
def State.rtctl (s : State) : Word := s.readTopov

/-- A register of the management aperture as it reads; a write-only or unlisted one reads as zero (R18, R340, R370). -/
def State.readRegister (s : State) (off : Nat) : Word :=
  if off % 8 ≠ 0 then 0
  else if off < 0x40000 then (s.queue (off / 64)).word (off % 64 / 8)
  else if off = 0x40000 then s.ptroot
  else if off = 0x40008 then s.fltbase
  else if off = 0x40010 then s.fltwr.zeroExtend 64
  else if off = 0x40018 then s.fltrd.zeroExtend 64
  else if off = 0x40020 then s.fltvec
  else if off = 0x40030 then s.fltlost.zeroExtend 64
  else if 0x80000 ≤ off ∧ off < 0x88000 then ((s.groups.find? (·.1 == (off - 0x80000) / 8)).map (·.2.1)).getD 0
  else if 0x100000 ≤ off ∧ off < 0x900000 then
    let o := off - 0x100000
    s.stagedMember (o / 2048) (o % 2048 / 4 + 1) ++ s.stagedMember (o / 2048) (o % 2048 / 4)
  else if off = 0x900000 then s.rtctl
  else if 0x901000 ≤ off ∧ off < 0x90A000 then
    lookupD (if off % 16 = 8 then s.stageVia else s.stageMin) ((off - 0x901000) / 16) 0
  else if 0x980000 ≤ off ∧ off < 0x989000 then
    lookupD (if off % 16 = 8 then s.curVia else s.curMin) ((off - 0x980000) / 16) 0
  else if 0xA00000 ≤ off ∧ off < 0xA00200 then (vget s.optical ((off - 0xA00000) / 8) resetPort).word s.cycle
  else if 0xB08000 ≤ off ∧ off < 0xC00000 then lookupD s.softErr ((off - 0xB08000) / 8) 0
  else if 0xB00000 ≤ off ∧ off < 0xB08000 then Config.telemetry s.clockStep.toList s.cycle off
  else if off = 0xC00000 then s.bootst
  else if 0xC00000 < off ∧ off < 0xD00000 then
    Config.mailbox s.measure ((s.report.map Report.bytes).getD []) (off - 0xC00000)
  else if off = 0xD00000 then s.iclamp
  else 0

/-! ### The base address registers (R320 to R322, R324, R341) -/

/-- The bytes of a BAR's aperture (R321). -/
def barSize : Bar → Nat
  | .bar0 => 2 ^ 16
  | .bar2 => 2 ^ 24
  | .bar4 => 2 ^ 40

/-- Whether the endpoint takes an access of a size at an offset of a BAR: one of the sizes, in one 64-byte block, of an
aperture that is exposed (R321, R341). -/
def State.hostAccessOk (s : State) (bar : Bar) (off n : Nat) : Bool :=
  (!s.locked || bar == .bar2) && [1, 2, 4, 8, 16, 32, 64].contains n && decide (off % 64 + n ≤ 64) && decide (off + n ≤ barSize bar)

/-- A 64-bit register of a register BAR as it reads (R321, R324, R340). -/
def State.barWord (s : State) (bar : Bar) (o : Nat) : Word :=
  match bar with
  | .bar0 => if o % 16 < 8 then (s.queue (o / 16)).wridx else (s.queue (o / 16)).crdidx
  | _ => s.readRegister o

/-- Writes a 64-bit register of a register BAR (R321, R324, R340). -/
def State.writeBarWord (s : State) (bar : Bar) (o : Nat) (v : Word) : State :=
  match bar with
  | .bar0 => s.writeDoorbell (o / 16) (o % 16 == 8) v
  | _ => s.writeRegister o v

/-- A register with the bytes of a write at an offset put in: a narrower write leaves its other bytes as they read
(notes/assumptions/78.md). -/
def State.mergedWord (s : State) (bar : Bar) (o off : Nat) (bs : List Byte) : Word :=
  let old := wordBytes (s.barWord bar o)
  BitVec.ofNat 64 (numLE ((List.range 8).map fun j =>
    if off ≤ o + j ∧ o + j < off + bs.length then bs.getD (o + j - off) 0 else old.getD j 0))

/-- The registers that an access meets, in ascending order. -/
def wordsMet (off n : Nat) : List Nat := (List.range ((off % 8 + n + 7) / 8)).map fun i => off / 8 * 8 + 8 * i

/-- A host read (R321): undefined where what it reads is uncorrectable. -/
def State.hostRead (s : State) (bar : Bar) (off n : Nat) : State :=
  match bar with
  | .bar4 =>
    if s.bad (Key.hbm off) n then { s with fresh := s.fresh + 1 }.tellHost (.hostData (freeBytes s.fresh off n))
    else (s.noteRead 8 (Key.hbm off) n).tellHost (.hostData (Memory.read s.mem (Key.hbm off) n))
  | b => s.tellHost (.hostData ((((wordsMet off n).map fun o => wordBytes (s.barWord b o)).flatten.drop (off % 8)).take n))

/-- A host write, performed at its home as it arrives (R321, R322). -/
def State.hostWrite (s : State) (bar : Bar) (off : Nat) (bs : List Byte) : State :=
  match bar with
  | .bar4 => (s.write (Key.hbm off) bs).noteWrite 8 (Key.hbm off) bs.length
  | b => (wordsMet off bs.length).foldl (fun s o => s.writeBarWord b o (s.mergedWord b o off bs)) s

/-- HOST_MEMORY_ACCESS (R321): an access that the endpoint does not take completes with Unsupported Request and has no
effect. -/
def execHostMemoryAccess (place : BarPlace) (op : HostOp) (s : State) : Host.Outcome State Fault Refusal :=
  match op with
  | .read n => (if s.hostAccessOk place.bar place.off n then s.hostRead place.bar place.off n else s.tellHost .unsupported).event
  | .write bs => (if s.hostAccessOk place.bar place.off bs.length then s.hostWrite place.bar place.off bs else s.tellHost .unsupported).event

/-! ### Optical ports (R314 to R317) -/

/-- Changes an optical port. -/
def State.updatePort (s : State) (k : Nat) (h : OptPort → OptPort) : State :=
  { s with optical := vset s.optical k (h (vget s.optical k resetPort)) }

/-- CIRCUIT_CHANGE (R314): the port is in Retrain. -/
def execCircuitChange (port : Fin 64) (s : State) : Host.Outcome State Fault Refusal :=
  (s.updatePort port fun p => { p with state := 1, rtc := p.rtc + 1 }).event

/-- LINK_RETRAINED (R314, R315): a port in Retrain is Up. -/
def execLinkRetrained (port : Fin 64) (s : State) : Host.Outcome State Fault Refusal :=
  (s.updatePort port fun p => if p.state = 1 then { p with state := 0, ver := s.cur.toNat } else p).handWaiting.pumped.event

/-- RETRAIN_TIMEOUT (R314): a port in Retrain is Down. -/
def execRetrainTimeout (port : Fin 64) (s : State) : Host.Outcome State Fault Refusal :=
  (s.updatePort port fun p => if p.state = 1 then { p with state := 2 } else p).handWaiting.pumped.event

/-- LINK_FAIL (R314): a port that is Up or in Retrain is Down. -/
def execLinkFail (port : Fin 64) (s : State) : Host.Outcome State Fault Refusal :=
  (s.updatePort port fun p => if p.state ≤ 1 then { p with state := 2 } else p).handWaiting.pumped.event

/-- PORT_DISABLE (R314): the port is Off. -/
def execPortDisable (port : Fin 64) (s : State) : Host.Outcome State Fault Refusal :=
  (s.updatePort port fun p => { p with state := 3 }).handWaiting.pumped.event

/-- PACKET_TRAIN_START (R316): a train lights the laser of an Up port for a share of 1 µs; one that would take the last 1 µs
past 90 % waits. -/
def execPacketTrainStart (port : Fin 64) (duty : BitVec 8) (s : State) : Host.Outcome State Fault Refusal :=
  (s.updatePort port fun p =>
    if p.state = 0 ∧ (p.dutyAt s.cycle + duty.toNat) * 10 ≤ 9 * 255 then
      { p with trains := p.recent s.cycle ++ [(s.cycle, duty.toNat)] }
    else p).event

/-- ERROR_MONITOR_RAISE (R317): ACTUAL rises and the hold time starts again at 10 ms. -/
def execErrorMonitorRaise (port : Fin 64) (level : BitVec 8) (s : State) : Host.Outcome State Fault Refusal :=
  (s.updatePort port fun p =>
    if p.actual.toNat < level.toNat then { p with actual := level, holdTill := s.cycle + 10 * msCycles } else p).event

/-- Whether a port's hold time has run out and ACTUAL has still to fall (R317). -/
def OptPort.holdOver (p : OptPort) (cycle : Nat) : Bool := p.holdTill != 0 && p.holdMs cycle == 0

/-- HOLD_EXPIRE (R317): once HOLD is 0, ACTUAL falls to BUDGET, or to what the monitor still needs if that is lower. -/
def execHoldExpire (port : Fin 64) (need : BitVec 8) (s : State) : Host.Outcome State Fault Refusal :=
  (s.updatePort port fun p =>
    if !p.holdOver s.cycle then p
    else { p with holdTill := 0, actual := BitVec.ofNat 8 (min p.actual.toNat (min p.budget.toNat need.toNat)) }).event

/-- OPTICAL_BUDGET_CHANGE (R317): BUDGET is recorded, and lowers ACTUAL only while HOLD is zero. -/
def execOpticalBudgetChange (port : Fin 64) (budget : BitVec 8) (s : State) : Host.Outcome State Fault Refusal :=
  (s.updatePort port fun p => { p with
    budget := budget
    actual := if p.holdMs s.cycle = 0 ∧ budget.toNat < p.actual.toNat then budget else p.actual }).event

/-! ### PCIe and resets (R320, R341, R342) -/

/-- The rates of PCIe 7.0 in tenths of a GT/s, and its link widths (R320, notes/assumptions/77.md). -/
def pcieRates : List Nat := [25, 50, 80, 160, 320, 640, 1280]
/-- The link widths of PCIe 7.0 up to sixteen lanes (R320, notes/assumptions/77.md). -/
def pcieWidths : List Nat := [1, 2, 4, 8, 16]

/-- PCIE_LINK_TRAIN (R320): the link runs at a rate and width of PCIe 7.0, at most 128 GT/s and sixteen lanes; it trains to no
other. -/
def execPcieLinkTrain (rate width : Nat) (s : State) : Host.Outcome State Fault Refusal :=
  (if pcieRates.contains rate && pcieWidths.contains width then { s with pcie := (rate, width) } else s).event

/-- The task id that a started packet's record names (R329). -/
def State.packetTid (s : State) (q idx : Nat) : Nat := ((s.tasks.find? (·.src == .packet q idx)).map (·.tid)).getD 0

/-- A record that is not written yet as function-level reset writes it: that of a started packet with status ENDED, and with
the step of a graph (R329, R342). -/
def Record.ended (r : Record) : Record :=
  if r.begun then { r with
    w0 := (r.w0.extractLsb' 0 56).zeroExtend 64 ||| BitVec.ofNat 64 (7 * 2 ^ 56)
    w2 := if fld r.w0 52 4 = 2 then r.w2 else 0 }
  else r

/-- The step at which a started packet's graph ends, or zero for a packet that runs none (R329). -/
def State.endedStep (s : State) (q idx : Nat) : Nat :=
  ((s.graphs.toList.filterMap (·.run)).find? fun r => r.own && r.queue == q && r.idx == idx).elim 0 (·.step)

/-- The records of a queue that are not written: those that wait, those that are due, and those of its started packets
(R342). -/
def State.endedRecords (s : State) (q : Nat) (tids : List (Nat × Nat)) : List Record :=
  let x := s.queue q
  (x.held ++ (s.dues.filter (·.1 == q)).filterMap (·.2)).map Record.ended
    ++ x.started.map fun p => p.record 7 (lookupD tids p.idx 0) (s.endedStep q p.idx)

/-- Writes the records of a queue that ends (R342). -/
def State.endQueue (s : State) (q : Nat) (tids : List (Nat × Nat)) : State :=
  (s.endedRecords q tids).foldl (fun s r => s.putRecord q r) (s.setQueue { s.queue q with held := [], started := [] })

/-- FUNCTION_LEVEL_RESET (R342): every task and graph fails, every started packet whose record is not written leaves one with
status ENDED, and the queue table is cleared; WRIDX and CRDIDX go with their queues, and the rotation begins at queue 0 again
(R324, R344, notes/assumptions/93.md). -/
def execFunctionLevelReset (s : State) : Host.Outcome State Fault Refusal :=
  let tids := s.queues.map fun x => (x.q, x.started.map fun p => (p.idx, s.packetTid x.q p.idx))
  let s := (List.range 16).foldl (fun s g => match (s.graph g).run with
    | some r => s.endSync (s.graph g) r
    | none => s) s
  let s := (s.strands.map (·.sid)).foldl State.performDrain s
  let s := (s.tasks.map (·.tid)).foldl (fun (s : State) i => ((s.abandonTask i).leaveAll i).removeTask i) s
  let s := tids.foldl (fun s p => s.endQueue p.1 p.2) s
  ({ s with
    queues := [], dues := [], rotor := 0, rotated := []
    graphs := s.graphs.map fun x => { x with run := none, waitq := [] } } : State).event

/-- Whether a key is a byte of HBM, this module's or another's, which a reset of this module does not clear (R10). -/
def outlastsReset (k : Nat) : Bool := k < 2 ^ 40 || 2 ^ 60 ≤ k

/-- MODULE_RESET (R10, R18, R341): every register has its reset value, HBM is not cleared, and the boot ROM's code and
measurements are there; an image that failed to verify leaves only the management aperture, and loads no library. -/
def execModuleReset (verified : Bool) (code : Word) (measure : List (BitVec 256)) (s : State) :
    Host.Outcome State Fault Refusal :=
  ({ State.reset with
    agenda := s.agenda
    fresh := s.fresh
    modId := s.modId
    mem := s.mem.filter fun c => outlastsReset c.1
    ecc := s.ecc.filter outlastsReset
    struck := s.struck
    outbox := s.outbox
    hostbox := s.hostbox
    bootst := code
    measure := measure
    locked := !verified } : State).event

end Sys2Proof.Machine
end

