-- ==== Sys2Proof/Machine/Mxe.lean ====
section
/-! DEFINITION. The MXE's micro-operations: what a running call does, step by step, and the arithmetic of a stride
(R99, R113 to R118, R201, R207 to R214). -/

namespace Sys2Proof.Machine

/-! ### The frame of a micro-operation -/

/-- What a micro-operation acts on: the machine, the context whose MXE runs, and its running call. -/
structure MxFrame where
  s : State
  c : Ctx
  r : MxRun
deriving DecidableEq, Repr

/-- Why a micro-operation fails (R201, R212): the error code, the bank it was to write, the scratchpad rows it was
to store, and an address. -/
structure MxFail where
  code : Nat
  bank : Option Nat
  rows : List (Nat × Nat)
  addr : Nat
deriving DecidableEq, Repr

/-- A failure that names nothing more. -/
def mxFail (code addr : Nat) : MxFail := ⟨code, none, [], addr⟩

/-- The frame of the MXE that runs the next micro-operation. -/
def State.mxFrame (s : State) : Option MxFrame :=
  (s.ctx? s.mxTurn).bind fun c => if c.mxe.stop then none else c.mxe.run.map fun r => ⟨s, c, r⟩

/-- Writes the frame's call back. -/
def MxFrame.put (f : MxFrame) : State := f.s.setCtx { f.c with mxe := { f.c.mxe with run := some f.r } }

/-- Parameter register mp K of the call's snapshot (R207). -/
def MxFrame.mp (f : MxFrame) (k : Nat) : Word := vget f.r.call.snap k 0

/-- The variable operand (R209). -/
def MxFrame.variable (f : MxFrame) (m : Micro) : Nat :=
  if m.p then fld (f.mp m.k.toNat) (16 * fld m.imm 0 2) 16 else fld m.imm 0 16

/-- The bank of MSTR and MZERO (R209). -/
def MxFrame.bank (f : MxFrame) (m : Micro) : Nat :=
  if m.p then fld (f.mp m.k.toNat) (16 * fld m.imm 0 2) 3 else m.bk.toNat

/-- Address register ma J. -/
def MxFrame.ma (f : MxFrame) (m : Micro) : Nat := (vget f.r.ma m.j.toNat 0).toNat

/-- Sets address register ma J. -/
def MxFrame.setMa (f : MxFrame) (m : Micro) (x : BitVec 32) : MxFrame :=
  { f with r := { f.r with ma := vset f.r.ma m.j.toNat x } }

/-- Sets counter mc J. -/
def MxFrame.setMc (f : MxFrame) (m : Micro) (x : BitVec 16) : MxFrame :=
  { f with r := { f.r with mc := vset f.r.mc m.j.toNat x } }

/-- The declared A descriptor of the routine (R210). -/
def MxFrame.aDesc (f : MxFrame) : Option Word := if f.r.entry.adesc < 8 then some (f.mp f.r.entry.adesc) else none
/-- The declared B descriptor of the routine (R210). -/
def MxFrame.bDesc (f : MxFrame) : Option Word := if f.r.entry.bdesc < 8 then some (f.mp f.r.entry.bdesc) else none

/-- Whether a declared descriptor has a bit. -/
def descBit (d : Option Word) (i : Nat) : Bool := match d with | some w => bit w i | none => false

/-- ES as MLDE and MSTR take it (R210). -/
def MxFrame.es (f : MxFrame) : Bool := descBit (f.aDesc.or f.bDesc) 55

/-- Key of an ACS bank (R203). -/
def MxFrame.bankKey (f : MxFrame) (b : Nat) : Nat := Key.acs f.c.id (16384 * b)

/-- Checks an access to the scratchpad (R212): range and alignment, then the owner bits. -/
def MxFrame.check (f : MxFrame) (a n align : Nat) : Except MxFail Unit :=
  if a % align ≠ 0 ∨ 0x200000 < a + n then .error (mxFail 3 a)
  else if (blocksOf a n).all (f.s.ownedBlocks f.c.id).contains then .ok ()
  else .error (mxFail 2 a)

/-- Reads the scratchpad for a call; uncorrectable data ends it (R201, R371). -/
def MxFrame.load (f : MxFrame) (a n align : Nat) : Except MxFail (List Byte) :=
  match f.check a n align with
  | .error e => .error e
  | .ok _ =>
    let k := Key.pad f.c.id a
    if f.s.bad k n then .error (mxFail 5 a) else .ok (Memory.read f.s.mem k n)

/-- Reads lines at a pitch (R210). -/
def MxFrame.loadLines (f : MxFrame) (len pitch : Nat) : Nat → Nat → Except MxFail (List (List Byte))
  | 0, _ => .ok []
  | n + 1, a => do
    let l ← f.load a len 16
    let ls ← f.loadLines len pitch n (a + pitch)
    return l :: ls

/-- The part of a row that lies in the scratchpad (R201). -/
def mxInPad (p : Nat × Nat) : Nat × Nat := (p.1, min p.2 (0x200000 - p.1))

/-- Ends a call with an error: what it leaves undefined becomes free, and its token carries the code (R201). -/
def MxFrame.fail (f : MxFrame) (e : MxFail) : State :=
  let banks := (f.r.banks ++ e.bank.toList).eraseDups
  let rows := (f.r.wrote ++ e.rows).map mxInPad
  let s := banks.foldl (fun s b => s.undefine (f.bankKey b) 16384) f.s
  let s := rows.foldl (fun s p => s.undefine (Key.pad f.c.id p.1) p.2) s
  let s := s.setCtx { f.c with mxe := f.c.mxe.finish f.r.call (errStatus e.code) }
  if e.code = 5 then s.machineCheck f.c.id 1 e.addr else s

/-- Moves the counter; leaving the routine ends the call with UPC (R207). -/
def MxFrame.move (f : MxFrame) (off : Int) : State :=
  let n := (f.r.upc : Int) + off
  if (f.r.entry.start : Int) ≤ n ∧ n < ((f.r.entry.start + f.r.entry.len : Nat) : Int) then
    ({ f with r := { f.r with upc := n.toNat, part := 0 } } : MxFrame).put
  else f.fail (mxFail 7 0)

/-- Stays at the micro-operation, at its next quiescent point (R217). -/
def MxFrame.stay (f : MxFrame) : MxFrame × Option Int := ({ f with r := { f.r with part := f.r.part + 1 } }, none)

/-- Whether the word of the running call's counter can be read (R369, R371). -/
def MxFrame.wordSound (f : MxFrame) : Bool := storeSound (f.s.tileOf f.c.id) f.c.mxe f.r.upc

/-- Runs a micro-operation up to its next quiescent point (R209, R217): with C = 1 only if its bit of mp K is one; at its
end the counter moves. A word that cannot be read ends the call with MCHK (R201, R371). -/
def microStep (m : Micro) (body : MxFrame → Except MxFail (MxFrame × Option Int)) (s : State) :
    Host.Outcome State Fault Refusal :=
  match s.mxFrame with
  | none => s.event
  | some f =>
    if !f.wordSound then (f.fail (mxFail 5 0)).event
    else if m.c && !bit (f.mp m.k.toNat) m.cb.toNat then (f.move 1).event
    else match body f with
      | .error e => (f.fail e).event
      | .ok (g, some off) => (g.move off).event
      | .ok (g, none) => g.put.event

/-! ### Register micro-operations (R210) -/

/-- MNOP (R210) -/
def execMnop (m : Micro) (s : State) : Host.Outcome State Fault Refusal := microStep m (fun f => .ok (f, some 1)) s

/-- MEND (R210): completes the call with its status flags (R197, R201). -/
def execMend (m : Micro) (s : State) : Host.Outcome State Fault Refusal :=
  match s.mxFrame with
  | none => s.event
  | some f =>
    if !f.wordSound then (f.fail (mxFail 5 0)).event
    else if m.c && !bit (f.mp m.k.toNat) m.cb.toNat then (f.move 1).event
    else (f.s.setCtx { f.c with mxe := f.c.mxe.finish f.r.call f.r.flags.status }).event

/-- MSETA (R210) -/
def execMseta (m : Micro) (s : State) : Host.Outcome State Fault Refusal :=
  microStep m (fun f =>
    let w := f.mp m.k.toNat
    .ok (f.setMa m (BitVec.ofNat 32 (if bit m.opx 0 then fld w 32 21 else fld w 0 21)), some 1)) s

/-- MADD (R210) -/
def execMadd (m : Micro) (s : State) : Host.Outcome State Fault Refusal :=
  microStep m (fun f =>
    .ok (f.setMa m (BitVec.ofInt 32 ((f.ma m : Int) + sintN 16 (f.variable m))), some 1)) s

/-- MSETC (R210) -/
def execMsetc (m : Micro) (s : State) : Host.Outcome State Fault Refusal :=
  microStep m (fun f => .ok (f.setMc m (BitVec.ofNat 16 (f.variable m)), some 1)) s

/-- The offset of MLOOP and MJMP (R210). -/
def microOffset (m : Micro) : Int := sintN 12 (fld m.imm 0 12)

/-- MLOOP (R210) -/
def execMloop (m : Micro) (s : State) : Host.Outcome State Fault Refusal :=
  microStep m (fun f =>
    let n := vget f.r.mc m.j.toNat 0
    if 2 ≤ n.toNat then .ok (f.setMc m (n - 1), some (microOffset m)) else .ok (f.setMc m 0, some 1)) s

/-- MJMP (R210) -/
def execMjmp (m : Micro) (s : State) : Host.Outcome State Fault Refusal :=
  microStep m (fun f => .ok (f, some (microOffset m))) s

/-! ### Staging loads (R210) -/

/-- A staging set (R207). -/
def MxFrame.staging (f : MxFrame) (m : Micro) : Staging := if m.s then f.r.set1 else f.r.set0

/-- Replaces a staging set. -/
def MxFrame.setStaging (f : MxFrame) (m : Micro) (g : Staging) : MxFrame :=
  if m.s then { f with r := { f.r with set1 := g } } else { f with r := { f.r with set0 := g } }

/-- A staging load: it begins by making its item absent, and then reads and stages it; abandoned between the two, it is
performed again (R210, R217). -/
def MxFrame.stage (f : MxFrame) (m : Micro) (clear : Staging → Staging) (load : Except MxFail (Staging → Staging)) :
    Except MxFail (MxFrame × Option Int) :=
  if f.r.part = 0 then .ok (f.setStaging m (clear (f.staging m))).stay
  else match load with
    | .error e => .error e
    | .ok put => .ok (f.setStaging m (put (f.staging m)), some 1)

/-- MLDA (R210): 64 lines of the A tile. -/
def execMlda (m : Micro) (s : State) : Host.Outcome State Fault Refusal :=
  microStep m (fun f =>
    let d := f.mp m.k.toNat
    f.stage m (fun g => { g with a := none })
      ((f.loadLines (lineLength d) (descPitch d) 64 (f.ma m)).map fun ls g => { g with a := some ls })) s

/-- MLDB (R210): 64 lines of the B tile. -/
def execMldb (m : Micro) (s : State) : Host.Outcome State Fault Refusal :=
  microStep m (fun f =>
    let d := f.mp m.k.toNat
    f.stage m (fun g => { g with b := none })
      ((f.loadLines (lineLength d) (descPitch d) 64 (f.ma m)).map fun ls g => { g with b := some ls })) s

/-- MLDSA (R210): activation scales, skipped when the A descriptor has none. -/
def execMldsa (m : Micro) (s : State) : Host.Outcome State Fault Refusal :=
  microStep m (fun f =>
    if !descBit f.aDesc 54 then .ok (f, some 1)
    else f.stage m (fun g => { g with sa := none }) ((f.load (f.ma m) 1024 16).map fun l g => { g with sa := some l })) s

/-- MLDSW (R210): two weight scales and the split, skipped when the B descriptor has none. -/
def execMldsw (m : Micro) (s : State) : Host.Outcome State Fault Refusal :=
  microStep m (fun f =>
    if !descBit f.bDesc 54 then .ok (f, some 1)
    else
      let v := f.variable m
      f.stage m (fun g => { g with sw := none })
        (if 95 < v then .error (mxFail 3 (f.ma m))
         else (f.load (f.ma m) 8 4).map fun l g => { g with sw := some (BitVec.ofNat 64 (numLE l), v) })) s

/-- MLDE (R210): E8M0 scales, skipped when ES is 0. -/
def execMlde (m : Micro) (s : State) : Host.Outcome State Fault Refusal :=
  microStep m (fun f =>
    if !f.es then .ok (f, some 1)
    else f.stage m (fun g => { g with se := none }) ((f.load (f.ma m) 512 16).map fun l g => { g with se := some l })) s

/-- Whether the B descriptor declares sparsity. -/
def MxFrame.sparse (f : MxFrame) : Bool := match f.bDesc with | some d => descSp d != 0 | none => false

/-- MLDM (R210): sparsity metadata, skipped when the B descriptor is dense. -/
def execMldm (m : Micro) (s : State) : Host.Outcome State Fault Refusal :=
  microStep m (fun f =>
    if !f.sparse then .ok (f, some 1)
    else f.stage m (fun g => { g with sm := none }) ((f.load (f.ma m) 1024 16).map fun l g => { g with sm := some l })) s

/-! ### A stride (R115 to R118, R213) -/

/-- The value of a tile element by tag (R98, R100). -/
def tileValue (tag x : Nat) : Fl :=
  match tag with
  | 12 => intToFl (sintN 8 x)
  | 19 => .fin (x % 2 == 0) 1 0
  | 20 => intToFl (sintN 2 x)
  | _ => match FpFmt.ofCode? tag with
    | some f => decodeFl f (x % 2 ^ codeBits f)
    | none => .fin false 0 0

/-- The first `n` elements of a line (R193, R99). -/
def lineValues (tag : Nat) (packed : Bool) (n : Nat) (l : List Byte) : List Fl :=
  let w := lineBits tag packed
  let x := numLE l
  (List.range n).map fun i => tileValue tag (x / 2 ^ (w * i) % 2 ^ w)

/-- The metadata word of a column's run (R210). -/
def metaWord (sm : List Byte) (j h : Nat) : Nat := numLE ((sm.drop (16 * j + 2 * h)).take 2)

/-- Whether a metadata word is legal (R117). -/
def metaLegal (n w : Nat) : Bool := w < 4096 && onesCount 12 w == n

/-- Places the present values of one run; absent ones are exact zeros (R117). -/
def placeRun : Nat → Nat → List Fl → List Fl
  | 0, _, _ => []
  | k + 1, w, vs =>
    if w % 2 = 1 then vs.headD (.fin false 0 0) :: placeRun k (w / 2) (vs.drop 1)
    else .fin false 0 0 :: placeRun k (w / 2) vs

/-- A sparse column expanded to its 96 elements (R117). -/
def expandColumn (n : Nat) (sm : List Byte) (j : Nat) (vs : List Fl) : List Fl :=
  ((List.range 8).map fun h => placeRun 12 (metaWord sm j h) ((vs.drop (n * h)).take n)).flatten

/-- A column of B (R193, R117). -/
def columnValues (d : Word) (sm : List Byte) (j : Nat) (l : List Byte) : List Fl :=
  if descSp d = 0 then lineValues (descTag d) (bit d 58) 96 l
  else
    let n := sparseCount (descSp d)
    expandColumn n sm j (lineValues (descTag d) false (8 * n) l)

/-- The four groups of 24 of a line (R115). -/
def groupsOf24 (l : List Fl) : List (List Fl) := (List.range 4).map fun g => (l.drop (24 * g)).take 24

/-- The exact sum of finite products as units of the least power of two among them. -/
def sumProducts (ps : List Fl) : Exact :=
  let fins := ps.filterMap fun p => match p with | .fin n m e => some (n, m, e) | _ => none
  let b := fins.foldl (fun b p => min b p.2.2) ((fins.head?.map (·.2.2)).getD 0)
  let t := fins.foldl (fun t p => t + units p.1 p.2.1 p.2.2 b) (0 : Int)
  if t = 0 then .num false 0 0 false else .num (t < 0) t.natAbs b false

/-- A group sum (R115, R116). -/
def groupSum (a b : List Fl) : Exact :=
  let ps := (a.zip b).map fun p => prodFl p.1 p.2
  if ps.any fun p => match p with | none => true | some (.nan _) => true | _ => false then .nan
  else
    let ps := ps.filterMap id
    match ps.any (fun p => p == .inf false), ps.any (fun p => p == .inf true) with
    | true, true => .nan
    | true, false => .inf false
    | false, true => .inf true
    | false, false => sumProducts ps

/-- A group sum scaled by its E8M0 scales (R115, R116). -/
def scaleE8 (x : Exact) (ea eb : Nat) : Exact :=
  if ea = 255 ∨ eb = 255 then .nan
  else match x with
    | .num n m e st => .num n m (e + ea + eb - 254) st
    | y => y

/-- The flags that an FP32 value raises in a call's status, with those of the operation that gave it (R201). -/
def valueFlags (x : Nat) (fl : Flags) : CallFlags :=
  match decodeFl .f32 x with
  | .nan _ => ⟨true, false, fl &&& flagOF != 0⟩
  | .inf _ => ⟨false, true, fl &&& flagOF != 0⟩
  | .fin _ _ _ => ⟨false, false, fl &&& flagOF != 0⟩

/-- One group of one element: h, s, p and the new accumulator (R115). -/
def accumulate (acc : Nat) (g : Exact) (ascale wscale : Nat) : Nat × CallFlags :=
  let h := packExact .f32 0 0 g
  let s := fpElem .f32 .mul 0 ascale wscale 0
  let p := fpElem .f32 .mul 0 h.1 s.1 0
  let r := fpElem .f32 .add 0 acc p.1 0
  (r.1, (((valueFlags h.1 h.2).or (valueFlags s.1 s.2)).or (valueFlags p.1 p.2)).or (valueFlags r.1 r.2))

/-- 1.0 in FP32. -/
def oneF32 : Nat := 0x3F800000

/-- A little-endian FP32 word of a list. -/
def f32At (l : List Byte) (o : Nat) : Nat := numLE ((l.drop o).take 4)

/-- The byte of a list. -/
def byteAt (l : List Byte) (o : Nat) : Nat := (l.getD o 0).toNat

/-- What a stride reads beside its tiles: the scales that the descriptors declare (R114, R213). -/
structure StrideScales where
  sa : Option (List Byte)
  sw : Option (Word × Nat)
  se : Option (List Byte)

/-- The activation scale of a row's group (R114). -/
def StrideScales.activation (x : StrideScales) (i g : Nat) : Nat :=
  match x.sa with | some l => f32At l (16 * i + 4 * g) | none => oneF32

/-- The weight scale of a column (R114, R210). -/
def StrideScales.weight (x : StrideScales) (j : Nat) : Nat :=
  match x.sw with | some (w, split) => if split + j < 96 then fld w 0 32 else fld w 32 32 | none => oneF32

/-- The group sum of an element with its E8M0 scales (R114). -/
def StrideScales.scaled (x : StrideScales) (i j g : Nat) (v : Exact) : Exact :=
  match x.se with | some l => scaleE8 v (byteAt l (4 * i + g)) (byteAt l (256 + 4 * j + g)) | none => v

/-- One element of a pass over its groups, in ascending order (R115, R204). -/
def strideElem (x : StrideScales) (gs : List Nat) (i j acc : Nat) (a b : List (List Fl)) : Nat × CallFlags :=
  ((a.zip b).zipIdx.filter fun p => gs.contains p.2).foldl (fun r p =>
    let q := accumulate r.1 (x.scaled i j p.2 (groupSum p.1.1 p.1.2)) (x.activation i p.2) (x.weight j)
    (q.1, r.2.or q.2)) (acc, .none)

/-- A pass over some groups: the bank's new elements, row by row, and the flags raised (R115, R204). -/
def stride (x : StrideScales) (gs : List Nat) (acc : List Byte) (as bs : List (List (List Fl))) : List (Nat × CallFlags) :=
  (as.zipIdx.map fun a => bs.zipIdx.map fun b =>
    strideElem x gs a.2 b.2 (f32At acc (256 * a.2 + 4 * b.2)) a.1 b.1).flatten

/-- The staged items that a stride needs, or none: STAGE (R213). -/
def MxFrame.staged (f : MxFrame) (g : Staging) :
    Option (Word × Word × List (List Byte) × List (List Byte) × StrideScales × List Byte) := do
  let da ← f.aDesc
  let db ← f.bDesc
  let a ← g.a
  let b ← g.b
  let sa ← if bit da 54 then g.sa.map some else some none
  let sw ← if bit db 54 then g.sw.map some else some none
  let se ← if f.es then g.se.map some else some none
  let sm ← if f.sparse then g.sm else some []
  return (da, db, a, b, ⟨sa, sw, se⟩, sm)

/-- Whether the metadata of a sparse B breaks R117. -/
def metaBroken (db : Word) (sm : List Byte) : Bool :=
  descSp db != 0 && (List.range 64).any fun j => (List.range 8).any fun h =>
    !metaLegal (sparseCount (descSp db)) (metaWord sm j h)

/-- Writes bytes of a bank from a row on, remembering that the call and its strand have written it (R201, R372). -/
def MxFrame.writeRows (f : MxFrame) (b row : Nat) (bs : List Byte) : MxFrame :=
  { f with
    s := f.s.write (f.bankKey b + 256 * row) bs
    c := f.c.markAcs (16384 * b) 1
    r := { f.r with banks := if f.r.banks.contains b then f.r.banks else b :: f.r.banks } }

/-- The groups of the pass that a stride performs next, and whether another follows: BF16 and FP16 take two (R204). -/
def passOf (da db : Word) (part : Nat) : List Nat × Bool :=
  if mxMode (descTag da) (descTag db) = some .wide then (if part = 0 then ([0, 1], true) else ([2, 3], false))
  else ([0, 1, 2, 3], false)

/-- MSTR (R213, R217): one pass of a stride into a bank. -/
def execMstr (m : Micro) (s : State) : Host.Outcome State Fault Refusal :=
  microStep m (fun f =>
    let b := f.bank m
    match f.staged (f.staging m) with
    | none => .error ⟨4, some b, [], 0⟩
    | some (da, db, at_, bt, x, sm) =>
      if metaBroken db sm then .error ⟨1, some b, [], 0⟩
      else
        let as := at_.map fun l => groupsOf24 (lineValues (descTag da) (bit da 58) 96 l)
        let bs := bt.zipIdx.map fun p => groupsOf24 (columnValues db sm p.2 p.1)
        let k := f.bankKey b
        if f.s.bad k 16384 then .error ⟨5, some b, [], 0⟩
        else
          let pass := passOf da db f.r.part
          let r := stride x pass.1 (Memory.read f.s.mem k 16384) as bs
          let g := f.writeRows b 0 ((r.map fun p => bytesLE 4 p.1).flatten)
          let g := { g with r := { g.r with flags := r.foldl (fun a p => a.or p.2) g.r.flags } }
          .ok (if pass.2 then g.stay else (g, some 1))) s

/-- After a row of a bank operation comes the next, or, after the 64th, the next micro-operation (R217). -/
def MxFrame.nextRow (f : MxFrame) : MxFrame × Option Int := if f.r.part < 63 then f.stay else (f, some 1)

/-- MZERO (R210, R217): every element of the bank becomes +0, row by row. -/
def execMzero (m : Micro) (s : State) : Host.Outcome State Fault Refusal :=
  microStep m (fun f => .ok (f.writeRows (f.bank m) f.r.part (List.replicate 256 0)).nextRow) s

/-! ### Moving banks (R214) -/

/-- The format of an MSTACC tag (R211). -/
def accFormat (tag : Nat) : Option FpFmt := if accBytes tag = 0 then none else FpFmt.ofCode? tag

/-- One element stored by MSTACC: an FP32 target copies the bits; else one RNE rounding under R107 (R214). -/
def storeElem (fmt : FpFmt) (x : Nat) : Nat × CallFlags :=
  let v := decodeFl .f32 x
  let r := if fmt = .f32 then (x, 0) else flToFp fmt 0 v
  let isInf := match v with | .inf _ => true | _ => false
  (r.1, ⟨v.isNaN, isInf, !isInf && r.2 &&& flagOF != 0⟩)

/-- The rows of a bank at a pitch. -/
def rowsAt (a pitch len : Nat) : List (Nat × Nat) := (List.range 64).map fun i => (a + i * pitch, len)

/-- MSTACC (R214, R217): stores a bank in a target format, row by row. Where it fails, all its rows are undefined; with a
format that is none, rows of the widest one's length are (R201, notes/assumptions/75.md). -/
def execMstacc (m : Micro) (s : State) : Host.Outcome State Fault Refusal :=
  microStep m (fun f =>
    let d := f.mp m.k.toNat
    let own := fld m.opx 0 5 = 31
    let tag := if own then descTag d else fld m.opx 0 5
    let pitch := if own then descPitch d else fld m.imm 16 16
    match accFormat tag with
    | none => .error ⟨8, none, rowsAt (f.ma m) pitch 256, 0⟩
    | some fmt =>
      let len := 64 * accBytes tag
      let rows := rowsAt (f.ma m) pitch len
      let at_ := f.ma m + f.r.part * pitch
      let k := f.bankKey m.bk.toNat + 256 * f.r.part
      match f.check at_ len 16 with
      | .error e => .error { e with rows := rows }
      | .ok _ =>
        if f.s.bad k 256 then .error ⟨5, none, rows, 0⟩
        else
          let es := (List.range 64).map fun j => storeElem fmt (Memory.num f.s.mem (k + 4 * j) 4)
          let t := f.s.write (Key.pad f.c.id at_) (es.map fun e => bytesLE (accBytes tag) e.1).flatten
          .ok ({ f with s := t, r := { f.r with
            flags := es.foldl (fun a e => a.or e.2) f.r.flags, wrote := f.r.wrote ++ [(at_, len)] } } : MxFrame).nextRow) s

/-- MLDACC (R214, R217): loads a bank bit for bit, row by row. -/
def execMldacc (m : Micro) (s : State) : Host.Outcome State Fault Refusal :=
  microStep m (fun f =>
    match f.load (f.ma m + f.r.part * fld m.imm 16 16) 256 16 with
    | .error e => .error { e with bank := some m.bk.toNat }
    | .ok bs => .ok (f.writeRows m.bk.toNat f.r.part bs).nextRow) s

end Sys2Proof.Machine
end

