-- ==== Sys2Proof/Machine/Scalar.lean ====
section
/-! DEFINITION. The scalar unit's computations: integers, compares and FP64 (R122 to R127). Each pushes what
`scalarCompute` gives after its latency. -/

namespace Sys2Proof.Machine

/-- ADD (R123) -/
def execAdd (h : Slot) (a : Src) (s : State) : Host.Outcome State Fault Refusal :=
  scalarOp .add h a s

/-- SUB (R123) -/
def execSub (h : Slot) (a : Src) (s : State) : Host.Outcome State Fault Refusal :=
  scalarOp .sub h a s

/-- AND (R123) -/
def execAnd (h : Slot) (a : Src) (s : State) : Host.Outcome State Fault Refusal :=
  scalarOp .and h a s

/-- OR (R123) -/
def execOr (h : Slot) (a : Src) (s : State) : Host.Outcome State Fault Refusal :=
  scalarOp .or h a s

/-- XOR (R123) -/
def execXor (h : Slot) (a : Src) (s : State) : Host.Outcome State Fault Refusal :=
  scalarOp .xor h a s

/-- ANDN (R123) -/
def execAndn (h : Slot) (a : Src) (s : State) : Host.Outcome State Fault Refusal :=
  scalarOp .andn h a s

/-- SHL (R123) -/
def execShl (h : Slot) (a : Src) (s : State) : Host.Outcome State Fault Refusal :=
  scalarOp .shl h a s

/-- SHR (R123) -/
def execShr (h : Slot) (a : Src) (s : State) : Host.Outcome State Fault Refusal :=
  scalarOp .shr h a s

/-- SAR (R123) -/
def execSar (h : Slot) (a : Src) (s : State) : Host.Outcome State Fault Refusal :=
  scalarOp .sar h a s

/-- MUL (R123) -/
def execMul (h : Slot) (a : Src) (s : State) : Host.Outcome State Fault Refusal :=
  scalarOp .mul h a s

/-- MULH (R123) -/
def execMulh (h : Slot) (a : Src) (s : State) : Host.Outcome State Fault Refusal :=
  scalarOp .mulh h a s

/-- MULHU (R123) -/
def execMulhu (h : Slot) (a : Src) (s : State) : Host.Outcome State Fault Refusal :=
  scalarOp .mulhu h a s

/-- DIV (R124) -/
def execDiv (h : Slot) (a : Src) (s : State) : Host.Outcome State Fault Refusal :=
  scalarOp .div h a s

/-- DIVU (R124) -/
def execDivu (h : Slot) (a : Src) (s : State) : Host.Outcome State Fault Refusal :=
  scalarOp .divu h a s

/-- REM (R124) -/
def execRem (h : Slot) (a : Src) (s : State) : Host.Outcome State Fault Refusal :=
  scalarOp .rem h a s

/-- REMU (R124) -/
def execRemu (h : Slot) (a : Src) (s : State) : Host.Outcome State Fault Refusal :=
  scalarOp .remu h a s

/-- MIN (R123) -/
def execMin (h : Slot) (a : Src) (s : State) : Host.Outcome State Fault Refusal :=
  scalarOp .min h a s

/-- MINU (R123) -/
def execMinu (h : Slot) (a : Src) (s : State) : Host.Outcome State Fault Refusal :=
  scalarOp .minu h a s

/-- MAX (R123) -/
def execMax (h : Slot) (a : Src) (s : State) : Host.Outcome State Fault Refusal :=
  scalarOp .max h a s

/-- MAXU (R123) -/
def execMaxu (h : Slot) (a : Src) (s : State) : Host.Outcome State Fault Refusal :=
  scalarOp .maxu h a s

/-- CLZ (R123) -/
def execClz (h : Slot) (a : Src) (s : State) : Host.Outcome State Fault Refusal :=
  scalarOp .clz h a s

/-- CTZ (R123) -/
def execCtz (h : Slot) (a : Src) (s : State) : Host.Outcome State Fault Refusal :=
  scalarOp .ctz h a s

/-- POPC (R123) -/
def execPopc (h : Slot) (a : Src) (s : State) : Host.Outcome State Fault Refusal :=
  scalarOp .popc h a s

/-- SEXT (R123) -/
def execSext (h : Slot) (a : Src) (s : State) : Host.Outcome State Fault Refusal :=
  scalarOp .sext h a s

/-- ZEXT (R123) -/
def execZext (h : Slot) (a : Src) (s : State) : Host.Outcome State Fault Refusal :=
  scalarOp .zext h a s

/-- LEA (R123) -/
def execLea (h : Slot) (a : Src) (s : State) : Host.Outcome State Fault Refusal :=
  scalarOp .lea h a s

/-- BFX (R125) -/
def execBfx (h : Slot) (a : Src) (s : State) : Host.Outcome State Fault Refusal :=
  scalarOp .bfx h a s

/-- BFI (R125) -/
def execBfi (h : Slot) (a : Src) (s : State) : Host.Outcome State Fault Refusal :=
  scalarOp .bfi h a s

/-- CMPEQ (R126) -/
def execCmpeq (h : Slot) (a : Src) (s : State) : Host.Outcome State Fault Refusal :=
  scalarOp .cmpeq h a s

/-- CMPNE (R126) -/
def execCmpne (h : Slot) (a : Src) (s : State) : Host.Outcome State Fault Refusal :=
  scalarOp .cmpne h a s

/-- CMPLT (R126) -/
def execCmplt (h : Slot) (a : Src) (s : State) : Host.Outcome State Fault Refusal :=
  scalarOp .cmplt h a s

/-- CMPLE (R126) -/
def execCmple (h : Slot) (a : Src) (s : State) : Host.Outcome State Fault Refusal :=
  scalarOp .cmple h a s

/-- CMPLTU (R126) -/
def execCmpltu (h : Slot) (a : Src) (s : State) : Host.Outcome State Fault Refusal :=
  scalarOp .cmpltu h a s

/-- CMPLEU (R126) -/
def execCmpleu (h : Slot) (a : Src) (s : State) : Host.Outcome State Fault Refusal :=
  scalarOp .cmpleu h a s

/-- FCMPEQ (R126) -/
def execFcmpeq (h : Slot) (a : Src) (s : State) : Host.Outcome State Fault Refusal :=
  scalarOp .fcmpeq h a s

/-- FCMPLT (R126) -/
def execFcmplt (h : Slot) (a : Src) (s : State) : Host.Outcome State Fault Refusal :=
  scalarOp .fcmplt h a s

/-- FCMPLE (R126) -/
def execFcmple (h : Slot) (a : Src) (s : State) : Host.Outcome State Fault Refusal :=
  scalarOp .fcmple h a s

/-- FCMPUN (R126) -/
def execFcmpun (h : Slot) (a : Src) (s : State) : Host.Outcome State Fault Refusal :=
  scalarOp .fcmpun h a s

/-- FADD (R127) -/
def execFadd (h : Slot) (a : Src) (s : State) : Host.Outcome State Fault Refusal :=
  scalarOp .fadd h a s

/-- FSUB (R127) -/
def execFsub (h : Slot) (a : Src) (s : State) : Host.Outcome State Fault Refusal :=
  scalarOp .fsub h a s

/-- FMUL (R127) -/
def execFmul (h : Slot) (a : Src) (s : State) : Host.Outcome State Fault Refusal :=
  scalarOp .fmul h a s

/-- FFMA (R127) -/
def execFfma (h : Slot) (a : Src) (s : State) : Host.Outcome State Fault Refusal :=
  scalarOp .ffma h a s

/-- FDIV (R127) -/
def execFdiv (h : Slot) (a : Src) (s : State) : Host.Outcome State Fault Refusal :=
  scalarOp .fdiv h a s

/-- FSQRT (R127) -/
def execFsqrt (h : Slot) (a : Src) (s : State) : Host.Outcome State Fault Refusal :=
  scalarOp .fsqrt h a s

/-- FMIN (R127) -/
def execFmin (h : Slot) (a : Src) (s : State) : Host.Outcome State Fault Refusal :=
  scalarOp .fmin h a s

/-- FMAX (R127) -/
def execFmax (h : Slot) (a : Src) (s : State) : Host.Outcome State Fault Refusal :=
  scalarOp .fmax h a s

/-- FABS (R127) -/
def execFabs (h : Slot) (a : Src) (s : State) : Host.Outcome State Fault Refusal :=
  scalarOp .fabs h a s

/-- FNEG (R127) -/
def execFneg (h : Slot) (a : Src) (s : State) : Host.Outcome State Fault Refusal :=
  scalarOp .fneg h a s

/-- FCVT_I64 (R127) -/
def execFcvtI64 (h : Slot) (a : Src) (s : State) : Host.Outcome State Fault Refusal :=
  scalarOp .fcvtI64 h a s

/-- FCVT_F64 (R127) -/
def execFcvtF64 (h : Slot) (a : Src) (s : State) : Host.Outcome State Fault Refusal :=
  scalarOp .fcvtF64 h a s

end Sys2Proof.Machine
end

