-- ==== Sys2Proof/Machine/Vector.lean ====
section
/-! DEFINITION. The vector units' computations, in slots 1 and 2 (R159 to R173). Each pushes what `vectorCompute`
gives after its latency. -/

namespace Sys2Proof.Machine

/-- ADD_F (R163) -/
def execAddF (h : Slot) (e : FpFmt) (a : Src) (s : State) : Host.Outcome State Fault Refusal :=
  vectorOp (.fp .add e) h a s

/-- SUB_F (R163) -/
def execSubF (h : Slot) (e : FpFmt) (a : Src) (s : State) : Host.Outcome State Fault Refusal :=
  vectorOp (.fp .sub e) h a s

/-- MUL_F (R163) -/
def execMulF (h : Slot) (e : FpFmt) (a : Src) (s : State) : Host.Outcome State Fault Refusal :=
  vectorOp (.fp .mul e) h a s

/-- FMA_F (R163) -/
def execFmaF (h : Slot) (e : FpFmt) (a : Src) (s : State) : Host.Outcome State Fault Refusal :=
  vectorOp (.fp .fma e) h a s

/-- FMS_F (R163) -/
def execFmsF (h : Slot) (e : FpFmt) (a : Src) (s : State) : Host.Outcome State Fault Refusal :=
  vectorOp (.fp .fms e) h a s

/-- FNMA_F (R163) -/
def execFnmaF (h : Slot) (e : FpFmt) (a : Src) (s : State) : Host.Outcome State Fault Refusal :=
  vectorOp (.fp .fnma e) h a s

/-- MIN_F (R163) -/
def execMinF (h : Slot) (e : FpFmt) (a : Src) (s : State) : Host.Outcome State Fault Refusal :=
  vectorOp (.fp .min e) h a s

/-- MAX_F (R163) -/
def execMaxF (h : Slot) (e : FpFmt) (a : Src) (s : State) : Host.Outcome State Fault Refusal :=
  vectorOp (.fp .max e) h a s

/-- DIV_F (R163) -/
def execDivF (h : Slot) (e : FpFmt) (a : Src) (s : State) : Host.Outcome State Fault Refusal :=
  vectorOp (.fp .div e) h a s

/-- SQRT_F (R163) -/
def execSqrtF (h : Slot) (e : FpFmt) (a : Src) (s : State) : Host.Outcome State Fault Refusal :=
  vectorOp (.fp .sqrt e) h a s

/-- ABS_F (R163) -/
def execAbsF (h : Slot) (e : FpFmt) (a : Src) (s : State) : Host.Outcome State Fault Refusal :=
  vectorOp (.fp .abs e) h a s

/-- NEG_F (R163) -/
def execNegF (h : Slot) (e : FpFmt) (a : Src) (s : State) : Host.Outcome State Fault Refusal :=
  vectorOp (.fp .neg e) h a s

/-- CMPEQ_F (R164) -/
def execCmpeqF (h : Slot) (e : FpFmt) (a : Src) (s : State) : Host.Outcome State Fault Refusal :=
  vectorOp (.fp .cmpeq e) h a s

/-- CMPLT_F (R164) -/
def execCmpltF (h : Slot) (e : FpFmt) (a : Src) (s : State) : Host.Outcome State Fault Refusal :=
  vectorOp (.fp .cmplt e) h a s

/-- CMPLE_F (R164) -/
def execCmpleF (h : Slot) (e : FpFmt) (a : Src) (s : State) : Host.Outcome State Fault Refusal :=
  vectorOp (.fp .cmple e) h a s

/-- CMPUN_F (R164) -/
def execCmpunF (h : Slot) (e : FpFmt) (a : Src) (s : State) : Host.Outcome State Fault Refusal :=
  vectorOp (.fp .cmpun e) h a s

/-- IADD (R165) -/
def execIadd (h : Slot) (e : IntW) (a : Src) (s : State) : Host.Outcome State Fault Refusal :=
  vectorOp (.int .add e) h a s

/-- ISUB (R165) -/
def execIsub (h : Slot) (e : IntW) (a : Src) (s : State) : Host.Outcome State Fault Refusal :=
  vectorOp (.int .sub e) h a s

/-- IADDS (R166) -/
def execIadds (h : Slot) (e : IntW) (a : Src) (s : State) : Host.Outcome State Fault Refusal :=
  vectorOp (.int .adds e) h a s

/-- IADDSU (R166) -/
def execIaddsu (h : Slot) (e : IntW) (a : Src) (s : State) : Host.Outcome State Fault Refusal :=
  vectorOp (.int .addsu e) h a s

/-- ISUBS (R166) -/
def execIsubs (h : Slot) (e : IntW) (a : Src) (s : State) : Host.Outcome State Fault Refusal :=
  vectorOp (.int .subs e) h a s

/-- ISUBSU (R166) -/
def execIsubsu (h : Slot) (e : IntW) (a : Src) (s : State) : Host.Outcome State Fault Refusal :=
  vectorOp (.int .subsu e) h a s

/-- IMUL (R165) -/
def execImul (h : Slot) (e : IntW) (a : Src) (s : State) : Host.Outcome State Fault Refusal :=
  vectorOp (.int .mul e) h a s

/-- IMULH (R165) -/
def execImulh (h : Slot) (e : IntW) (a : Src) (s : State) : Host.Outcome State Fault Refusal :=
  vectorOp (.int .mulh e) h a s

/-- IMULHU (R165) -/
def execImulhu (h : Slot) (e : IntW) (a : Src) (s : State) : Host.Outcome State Fault Refusal :=
  vectorOp (.int .mulhu e) h a s

/-- IMIN (R165) -/
def execImin (h : Slot) (e : IntW) (a : Src) (s : State) : Host.Outcome State Fault Refusal :=
  vectorOp (.int .min e) h a s

/-- IMINU (R165) -/
def execIminu (h : Slot) (e : IntW) (a : Src) (s : State) : Host.Outcome State Fault Refusal :=
  vectorOp (.int .minu e) h a s

/-- IMAX (R165) -/
def execImax (h : Slot) (e : IntW) (a : Src) (s : State) : Host.Outcome State Fault Refusal :=
  vectorOp (.int .max e) h a s

/-- IMAXU (R165) -/
def execImaxu (h : Slot) (e : IntW) (a : Src) (s : State) : Host.Outcome State Fault Refusal :=
  vectorOp (.int .maxu e) h a s

/-- VEC_AND (R165) -/
def execVecAnd (h : Slot) (e : IntW) (a : Src) (s : State) : Host.Outcome State Fault Refusal :=
  vectorOp (.int .and e) h a s

/-- VEC_OR (R165) -/
def execVecOr (h : Slot) (e : IntW) (a : Src) (s : State) : Host.Outcome State Fault Refusal :=
  vectorOp (.int .or e) h a s

/-- VEC_XOR (R165) -/
def execVecXor (h : Slot) (e : IntW) (a : Src) (s : State) : Host.Outcome State Fault Refusal :=
  vectorOp (.int .xor e) h a s

/-- VEC_ANDN (R165) -/
def execVecAndn (h : Slot) (e : IntW) (a : Src) (s : State) : Host.Outcome State Fault Refusal :=
  vectorOp (.int .andn e) h a s

/-- VEC_SHL (R165) -/
def execVecShl (h : Slot) (e : IntW) (a : Src) (s : State) : Host.Outcome State Fault Refusal :=
  vectorOp (.int .shl e) h a s

/-- VEC_SHR (R165) -/
def execVecShr (h : Slot) (e : IntW) (a : Src) (s : State) : Host.Outcome State Fault Refusal :=
  vectorOp (.int .shr e) h a s

/-- VEC_SAR (R165) -/
def execVecSar (h : Slot) (e : IntW) (a : Src) (s : State) : Host.Outcome State Fault Refusal :=
  vectorOp (.int .sar e) h a s

/-- ICMPEQ (R165) -/
def execIcmpeq (h : Slot) (e : IntW) (a : Src) (s : State) : Host.Outcome State Fault Refusal :=
  vectorOp (.int .cmpeq e) h a s

/-- ICMPLT (R165) -/
def execIcmplt (h : Slot) (e : IntW) (a : Src) (s : State) : Host.Outcome State Fault Refusal :=
  vectorOp (.int .cmplt e) h a s

/-- ICMPLTU (R165) -/
def execIcmpltu (h : Slot) (e : IntW) (a : Src) (s : State) : Host.Outcome State Fault Refusal :=
  vectorOp (.int .cmpltu e) h a s

/-- IABS (R165) -/
def execIabs (h : Slot) (e : IntW) (a : Src) (s : State) : Host.Outcome State Fault Refusal :=
  vectorOp (.int .abs e) h a s

/-- VEC_POPC (R165) -/
def execVecPopc (h : Slot) (e : IntW) (a : Src) (s : State) : Host.Outcome State Fault Refusal :=
  vectorOp (.int .popc e) h a s

/-- VEC_CLZ (R165) -/
def execVecClz (h : Slot) (e : IntW) (a : Src) (s : State) : Host.Outcome State Fault Refusal :=
  vectorOp (.int .clz e) h a s

/-- CVT (R168) -/
def execCvt (h : Slot) (t : CvtT) (a : Src) (s : State) : Host.Outcome State Fault Refusal :=
  vectorOp (.cvt .cvt t) h a s

/-- CVTSC (R169) -/
def execCvtsc (h : Slot) (t : CvtT) (a : Src) (s : State) : Host.Outcome State Fault Refusal :=
  vectorOp (.cvt .cvtsc t) h a s

/-- CVTSR (R170) -/
def execCvtsr (h : Slot) (t : CvtT) (a : Src) (s : State) : Host.Outcome State Fault Refusal :=
  vectorOp (.cvt .cvtsr t) h a s

/-- REDADD (R171) -/
def execRedadd (h : Slot) (a : Src) (s : State) : Host.Outcome State Fault Refusal :=
  vectorOp .redadd h a s

/-- REDMAX (R171) -/
def execRedmax (h : Slot) (a : Src) (s : State) : Host.Outcome State Fault Refusal :=
  vectorOp .redmax h a s

/-- REDMIN (R171) -/
def execRedmin (h : Slot) (a : Src) (s : State) : Host.Outcome State Fault Refusal :=
  vectorOp .redmin h a s

/-- VMAXI (R172) -/
def execVmaxi (h : Slot) (a : Src) (s : State) : Host.Outcome State Fault Refusal :=
  vectorOp .vmaxi h a s

/-- VMINI (R172) -/
def execVmini (h : Slot) (a : Src) (s : State) : Host.Outcome State Fault Refusal :=
  vectorOp .vmini h a s

/-- PERM (R173) -/
def execPerm (h : Slot) (a : Src) (s : State) : Host.Outcome State Fault Refusal :=
  vectorOp .perm h a s

/-- BCAST (R173) -/
def execBcast (h : Slot) (a : Src) (s : State) : Host.Outcome State Fault Refusal :=
  vectorOp .bcast h a s

/-- SEL (R173) -/
def execSel (h : Slot) (a : Src) (s : State) : Host.Outcome State Fault Refusal :=
  vectorOp .sel h a s

end Sys2Proof.Machine
end

