-- ==== Sys2Proof/Machine/Xfu.lean ====
section
/-! DEFINITION. The transform unit: plans, calls, and the transforms themselves (R219 to R228). -/

namespace Sys2Proof.Machine

/-! ### Correctly rounded constants (R224, R225) -/

/-- Fractional bits of the fixed-point evaluation. -/
def trigBits : Nat := 320

/-- The arctangent series of 1/x in fixed point: `p` is the next power, `k` its odd divisor. -/
def atanSeries (x : Int) : Nat → Int → Int → Int
  | 0, _, _ => 0
  | n + 1, p, k => p / k - atanSeries x n (p / (x * x)) (k + 2)

/-- arctan (1/x) in fixed point. -/
def atanInv (x : Int) : Int := atanSeries x 150 (2 ^ trigBits / x) 1

/-- π in fixed point, by Machin's formula. -/
def piFixed : Int := 16 * atanInv 5 - 4 * atanInv 239

/-- The alternating Taylor series in fixed point from a term `t` with `k` the factorial's place. -/
def taylorFrom (x : Int) : Nat → Int → Int → Int
  | 0, _, _ => 0
  | n + 1, t, k => t + taylorFrom x n (-(t * x / 2 ^ trigBits * x / 2 ^ trigBits) / ((k + 1) * (k + 2))) (k + 2)

/-- 2πe/n in fixed point. -/
def angleFixed (e n : Nat) : Int := 2 * piFixed * ((e % n : Nat) : Int) / (n : Int)

/-- cos 2πe/n in fixed point. -/
def cosFixed (e n : Nat) : Int := taylorFrom (angleFixed e n) 130 (2 ^ trigBits) 0

/-- sin 2πe/n in fixed point. -/
def sinFixed (e n : Nat) : Int := let x := angleFixed e n; taylorFrom x 130 x 1

/-- A fixed-point sine or cosine of a rational turn, rounded to a format: within the evaluation's error of a
multiple of 1/2 it is that multiple, else it is irrational (R224, R225). -/
def trigRound (f : FpFmt) (v : Int) : Nat :=
  let half : Int := 2 ^ (trigBits - 1)
  let r := (v + half / 2) / half
  if (v - r * half).natAbs < 2 ^ (trigBits - 200) then (packFin f 0 (r < 0) r.natAbs (-1) false).1
  else (packFin f 0 (v < 0) v.natAbs (-(trigBits : Int)) true).1

/-- RN(cos 2πe/n). -/
def cosRound (f : FpFmt) (e n : Nat) : Nat := trigRound f (cosFixed e n)
/-- RN(sin 2πe/n). -/
def sinRound (f : FpFmt) (e n : Nat) : Nat := trigRound f (sinFixed e n)

/-! ### Arithmetic in the working format (R219, R224) -/

/-- A computation that gathers a call's status flags (R201). -/
abbrev XCalc (α : Type) := StateM CallFlags α

/-- A complex number as two encodings, real part first (R221). -/
abbrev Cx := Nat × Nat

/-- The working format. -/
def xfmt (f32 : Bool) : FpFmt := if f32 then .f32 else .f64

/-- The flags that a result raises: a NaN or an infinity (R201). -/
def xFlags (f : FpFmt) (x : Nat) : CallFlags :=
  match decodeFl f x with
  | .nan _ => ⟨true, false, false⟩
  | .inf _ => ⟨false, true, false⟩
  | .fin _ _ _ => .none

/-- One rounded operation, RNE (R219); a finite value that it rounds to an infinity raises OVF, and only results raise the
other flags (R201). -/
def xop (f : FpFmt) (o : FpOp) (a b c : Nat) : XCalc Nat := fun w =>
  let r := fpElem f o 0 a b c
  (r.1, w.or ⟨false, false, r.2 &&& flagOF != 0⟩)

/-- The value with its sign turned, exactly. -/
def xneg (f : FpFmt) (x : Nat) : Nat := (fpElem f .neg 0 x 0 0).1

/-- Adds complex numbers (R224). -/
def cadd (f : FpFmt) (z w : Cx) : XCalc Cx := do return (← xop f .add z.1 w.1 0, ← xop f .add z.2 w.2 0)
/-- Subtracts complex numbers (R224). -/
def csub (f : FpFmt) (z w : Cx) : XCalc Cx := do return (← xop f .sub z.1 w.1 0, ← xop f .sub z.2 w.2 0)
/-- Multiplies each component by a real constant (R224). -/
def cscale (f : FpFmt) (k : Nat) (z : Cx) : XCalc Cx := do return (← xop f .mul k z.1 0, ← xop f .mul k z.2 0)
/-- fma on each component with a real constant (R224). -/
def cfma (f : FpFmt) (k : Nat) (z w : Cx) : XCalc Cx := do return (← xop f .fma k z.1 w.1, ← xop f .fma k z.2 w.2)

/-- Rot: multiplication by σi, exact (R224). -/
def rot (f : FpFmt) (fwd : Bool) (z : Cx) : Cx := if fwd then (z.2, xneg f z.1) else (xneg f z.2, z.1)

/-- W8 (R224). -/
def w8 (f : FpFmt) (fwd : Bool) (z : Cx) : XCalc Cx := do
  let h := cosRound f 1 8
  if fwd then
    return (← xop f .mul h (← xop f .add z.1 z.2 0) 0, ← xop f .mul h (← xop f .sub z.2 z.1 0) 0)
  else
    return (← xop f .mul h (← xop f .sub z.1 z.2 0) 0, ← xop f .mul h (← xop f .add z.2 z.1 0) 0)

/-- The element of a pencil; zero beyond it. -/
def cat (l : List Cx) (i : Nat) : Cx := l.getD i (0, 0)

/-- The radix-2 butterfly (R224). -/
def radix2 (f : FpFmt) (a : List Cx) : XCalc (List Cx) := do
  return [← cadd f (cat a 0) (cat a 1), ← csub f (cat a 0) (cat a 1)]

/-- The radix-4 butterfly (R224). -/
def radix4 (f : FpFmt) (fwd : Bool) (a : List Cx) : XCalc (List Cx) := do
  let v0 ← cadd f (cat a 0) (cat a 2)
  let v1 ← csub f (cat a 0) (cat a 2)
  let v2 ← cadd f (cat a 1) (cat a 3)
  let d ← csub f (cat a 1) (cat a 3)
  let v3 := rot f fwd d
  return [← cadd f v0 v2, ← cadd f v1 v3, ← csub f v0 v2, ← csub f v1 v3]

/-- −0.5. -/
def minusHalf (f : FpFmt) : Nat := (packFin f 0 true 1 (-1) false).1

/-- The radix-3 butterfly (R224). -/
def radix3 (f : FpFmt) (fwd : Bool) (a : List Cx) : XCalc (List Cx) := do
  let t1 ← cadd f (cat a 1) (cat a 2)
  let d ← csub f (cat a 1) (cat a 2)
  let b0 ← cadd f (cat a 0) t1
  let t2 ← cfma f (minusHalf f) t1 (cat a 0)
  let t3 ← cscale f (sinRound f 1 6) d
  return [b0, ← cadd f t2 (rot f fwd t3), ← csub f t2 (rot f fwd t3)]

/-- The radix-5 butterfly (R224). -/
def radix5 (f : FpFmt) (fwd : Bool) (a : List Cx) : XCalc (List Cx) := do
  let c1 := cosRound f 1 5
  let c2 := cosRound f 2 5
  let s1 := sinRound f 1 5
  let s2 := sinRound f 2 5
  let t1 ← cadd f (cat a 1) (cat a 4)
  let t2 ← cadd f (cat a 2) (cat a 3)
  let d1 ← csub f (cat a 1) (cat a 4)
  let d2 ← csub f (cat a 2) (cat a 3)
  let b0 ← cadd f (← cadd f (cat a 0) t1) t2
  let m1 ← cfma f c1 t1 (← cfma f c2 t2 (cat a 0))
  let m2 ← cfma f c2 t1 (← cfma f c1 t2 (cat a 0))
  let n1 ← cfma f s2 d2 (← cscale f s1 d1)
  let n2 ← cfma f (xneg f s1) d2 (← cscale f s2 d1)
  return [b0, ← cadd f m1 (rot f fwd n1), ← cadd f m2 (rot f fwd n2), ← csub f m2 (rot f fwd n2),
    ← csub f m1 (rot f fwd n1)]

/-- The radix-8 butterfly (R224). -/
def radix8 (f : FpFmt) (fwd : Bool) (a : List Cx) : XCalc (List Cx) := do
  let e ← (List.range 4).mapM fun t => cadd f (cat a t) (cat a (t + 4))
  let o ← (List.range 4).mapM fun t => csub f (cat a t) (cat a (t + 4))
  let o1 ← w8 f fwd (cat o 1)
  let o3 ← w8 f fwd (cat o 3)
  let ev ← radix4 f fwd e
  let ov ← radix4 f fwd [cat o 0, o1, rot f fwd (cat o 2), rot f fwd o3]
  return ((ev.zip ov).map fun p => [p.1, p.2]).flatten

/-- The butterfly of a radix (R224). -/
def butterfly (f : FpFmt) (fwd : Bool) (r : Nat) (a : List Cx) : XCalc (List Cx) :=
  match r with
  | 2 => radix2 f a
  | 3 => radix3 f fwd a
  | 4 => radix4 f fwd a
  | 5 => radix5 f fwd a
  | _ => radix8 f fwd a

/-- Twiddle (R225). -/
def twiddle (f : FpFmt) (fwd : Bool) (z : Cx) (e n : Nat) : XCalc Cx :=
  if e = 0 then pure z
  else do
    let wr := cosRound f e n
    let si := sinRound f e n
    let wi := if fwd then xneg f si else si
    let t ← xop f .mul z.2 wi 0
    let re ← xop f .fma z.1 wr (xneg f t)
    let u ← xop f .mul z.2 wr 0
    let im ← xop f .fma z.1 wi u
    return (re, im)

/-- One butterfly of a stage with its twiddles: the places and values it gives (R225). -/
def fftCell (f : FpFmt) (fwd : Bool) (x : Array Cx) (r m n s p q : Nat) : XCalc (List (Nat × Cx)) := do
  let b ← butterfly f fwd r ((List.range r).map fun t => x.getD (q + s * (p + t * m)) (0, 0))
  (b.zipIdx).mapM fun v => do return (q + s * (r * p + v.2), ← twiddle f fwd v.1 (p * v.2) n)

/-- One stage of radix r (R225). -/
def fftStage (f : FpFmt) (fwd : Bool) (x : Array Cx) (r n s : Nat) : XCalc (Array Cx) := do
  let m := n / r
  let cells ← ((List.range m).map fun p => (List.range s).map fun q => (p, q)).flatten.mapM fun c =>
    fftCell f fwd x r m n s c.1 c.2
  return cells.flatten.foldl (fun y v => y.setIfInBounds v.1 v.2) (Array.replicate x.size (0, 0))

/-- A whole number in the working format. -/
def natCode (f : FpFmt) (n : Nat) : Nat := (packFin f 0 false n 0 false).1

/-- One butterfly stage of a pencil, after `k` of them: its length is the factors' that are left, and its stride the product
of those done (R225). -/
def fftStep (p : Plan) (fwd : Bool) (k : Nat) (x : List Cx) : XCalc (List Cx) := do
  let s := (p.radix.take k).foldl (· * ·) 1
  let y ← fftStage (xfmt p.f32) fwd x.toArray (p.radix.getD k 2) (p.n / s) s
  return y.toList

/-- The division by N where SCL asks for it (R225). -/
def fftScale (p : Plan) (fwd : Bool) (x : List Cx) : XCalc (List Cx) :=
  if (p.scl = 1 ∧ !fwd) ∨ (p.scl = 2 ∧ fwd) then
    let n := natCode (xfmt p.f32) p.n
    x.mapM fun z => do return (← xop (xfmt p.f32) .div z.1 n 0, ← xop (xfmt p.f32) .div z.2 n 0)
  else pure x

/-- fma over a list of factor pairs, from +0 (R226). -/
def dotFma (f : FpFmt) (l : List (Nat × Nat)) : XCalc Nat :=
  l.foldlM (fun acc p => xop f .fma p.1 p.2 acc) 0

/-- Both components of a Legendre sum (R226). -/
def dotComplex (f : FpFmt) (ps : List Nat) (zs : List Cx) : XCalc Cx := do
  return (← dotFma f (ps.zip (zs.map (·.1))), ← dotFma f (ps.zip (zs.map (·.2))))

/-- The weighted values of XLEGF's latitudes (R226). -/
def weighted (f : FpFmt) (ws : List Nat) (fs : List Cx) : XCalc (List Cx) := (ws.zip fs).mapM fun p => cscale f p.1 p.2

/-! ### Places (R221, R223, R227) -/

/-- The bytes of a complex element. -/
def Plan.esize (p : Plan) : Nat := if p.f32 then 8 else 16
/-- The bytes of a real. -/
def Plan.rsize (p : Plan) : Nat := if p.f32 then 4 else 8

/-- Row ρ(m, l) of the Legendre table (R221). -/
def Plan.row (p : Plan) (m l : Nat) : Nat := m * (2 * p.t + 3 - m) / 2 + (l - m)

/-- The address of P_l^m(μ_j) (R221). -/
def Plan.tableAddr (p : Plan) (m l j : Nat) : Int := ((p.pbase + p.row m l * p.ppitch + j * p.rsize : Nat) : Int)

/-- The degrees from m to T. -/
def Plan.degrees (p : Plan) (m : Nat) : List Nat := rangeFrom m (p.t + 1 - m)

/-- Addresses of `n` elements from a base at a stride. -/
def strided (base : Int) (st : Int) (n : Nat) : List Int := (List.range n).map fun (k : Nat) => base + (k : Int) * st

/-- The addresses of a grid ring (R227). -/
def Plan.ring (p : Plan) (base : Nat) (j : Nat) : List Int := strided ((base : Int) + j * p.sbst) p.sstr p.n

/-- The addresses of the spectral rows of a wavenumber (R227). -/
def Plan.spectral (p : Plan) (base m : Nat) : List Int :=
  (p.degrees m).map fun l => (base : Int) + (p.row m l : Int) * p.dstr

/-- The address of work entry (j, m) (R227). -/
def Plan.workAddr (p : Plan) (j m : Nat) : Int := ((p.work + (j * (p.t + 1) + m) * p.esize : Nat) : Int)

/-- The addresses of a work column. -/
def Plan.workColumn (p : Plan) (m : Nat) : List Int := (List.range p.j).map fun j => p.workAddr j m

/-- The complex elements of one batch item of an FFT or a Legendre pass on the source side, and on the
destination side (R225, R226). -/
def Plan.source (p : Plan) (port src b : Nat) : List Int :=
  strided ((src : Int) + b * p.sbst) p.sstr (match port with | 0x23 => p.j | 0x24 => p.t + 1 - p.m0 | _ => p.n)
/-- The destination side of a batch item. -/
def Plan.dest (p : Plan) (port dst b : Nat) : List Int :=
  strided ((dst : Int) + b * p.dbst) p.dstr (match port with | 0x23 => p.t + 1 - p.m0 | 0x24 => p.j | _ => p.n)

/-- The wavenumbers whose tables a call reads. -/
def Plan.waves (p : Plan) (port : Nat) : List Nat :=
  match port with | 0x23 | 0x24 => [p.m0] | 0x25 | 0x26 => List.range (p.t + 1) | _ => []

/-- The reals that a call reads: the table, and the weights where it is a forward pass (R226, R227). -/
def Plan.reals (p : Plan) (port : Nat) : List Int :=
  ((p.waves port).map fun m => ((p.degrees m).map fun l => (List.range p.j).map fun j => p.tableAddr m l j).flatten).flatten
    ++ (if port = 0x23 ∨ port = 0x25 then (List.range p.j).map fun j => ((p.wbase + j * p.rsize : Nat) : Int) else [])

/-- The complex elements that a call touches: source, destination and work area (R223). -/
def Plan.elements (p : Plan) (port src dst batch : Nat) : List Int :=
  match port with
  | 0x25 => ((List.range p.j).map (p.ring src)).flatten ++ ((p.waves port).map (p.spectral dst)).flatten
      ++ ((p.waves port).map p.workColumn).flatten
  | 0x26 => ((List.range p.j).map (p.ring dst)).flatten ++ ((p.waves port).map (p.spectral src)).flatten
      ++ ((p.waves port).map p.workColumn).flatten
  | _ => ((List.range batch).map fun b => p.source port src b ++ p.dest port dst b).flatten

/-- Whether an element of a size lies in the scratchpad. -/
def inPad (size : Nat) (a : Int) : Bool := 0 ≤ a && a + size ≤ 0x200000

/-- The first element that a call would touch outside the scratchpad (R223). -/
def Plan.outside (p : Plan) (port src dst batch : Nat) : Option Int :=
  ((p.elements port src dst batch).find? fun a => !inPad p.esize a).or ((p.reals port).find? fun a => !inPad p.rsize a)

/-- The blocks that a call reads or writes (R223). -/
def Plan.blocks (p : Plan) (port src dst batch : Nat) : List Nat :=
  let of_ (size : Nat) (a : Int) := blocksOf a.toNat size
  (((p.elements port src dst batch).map (of_ p.esize)).flatten ++ ((p.reals port).map (of_ p.rsize)).flatten).eraseDups

/-! ### XPLAN (R220 to R222) -/

/-- The radix of a factor code; 0 where it is not legal (R221). -/
def radixOf (c : Nat) : Nat := match c with | 1 => 2 | 2 => 3 | 3 => 4 | 4 => 5 | 5 => 8 | _ => 0

/-- Reads a plan from its words (R221). -/
def readPlan (w : List Word) : Plan :=
  let x (i : Nat) := w.getD i 0
  let s (v : Word) (lo : Nat) := sintN 32 (fld v lo 32)
  ⟨fld (x 0) 62 2, fld (x 0) 57 5 == 1, fld (x 0) 55 2,
   (List.range (fld (x 0) 50 5)).map fun f => if f < 16 then radixOf (fld (x 0) (3 * f) 3) else 0,
   s (x 1) 32, s (x 1) 0, s (x 2) 32, s (x 2) 0, fld (x 3) 0 14, fld (x 4) 32 12, fld (x 4) 16 12 + 1, fld (x 4) 0 12,
   fld (x 5) 32 21, fld (x 5) 0 21, fld (x 6) 32 21, fld (x 6) 0 16⟩

/-- Whether the reserved bits of a plan descriptor are zero (R221). -/
def planReserved (w : List Word) : Bool :=
  let x (i : Nat) := w.getD i 0
  fld (x 0) 48 2 == 0 && fld (x 3) 14 50 == 0 && fld (x 4) 44 20 == 0 && fld (x 4) 28 4 == 0 && fld (x 4) 12 4 == 0
    && fld (x 5) 53 11 == 0 && fld (x 5) 21 11 == 0 && fld (x 6) 53 11 == 0 && fld (x 6) 16 16 == 0 && x 7 == 0

/-- Whether the factors of a plan are legal (R222). -/
def planFactors (w : List Word) (p : Plan) : Bool :=
  let nf := fld (w.getD 0 0) 50 5
  1 ≤ nf && nf ≤ 16 && p.radix.all (· != 0)
    && (rangeFrom nf (16 - nf)).all (fun f => fld (w.getD 0 0) (3 * f) 3 == 0)
    && p.radix.foldl (· * ·) 1 == p.n && 1 ≤ p.n && p.n ≤ 8192

/-- Whether a plan descriptor is legal, its TAG apart (R222). -/
def planLegal (w : List Word) (p : Plan) : Bool :=
  let e : Int := p.esize
  p.kind != 3 && p.scl != 3 && planReserved w
    && p.sstr % e == 0 && p.dstr % e == 0 && p.sbst % e == 0 && p.dbst % e == 0
    && (if p.kind = 0 ∨ p.kind = 2 then planFactors w p else true)
    && (if p.kind = 0 then w.getD 4 0 == 0 && w.getD 5 0 == 0 && w.getD 6 0 == 0 else true)
    && (if p.kind = 1 then fld (w.getD 0 0) 0 57 == 0 && p.n == 0 && p.m0 ≤ p.t && p.work == 0 else true)
    && (if p.kind = 2 then p.m0 == 0 && 2 * p.t + 1 ≤ p.n && p.dbst == 0 else true)
    && (if p.kind = 0 then true
        else p.pbase % 16 == 0 && p.wbase % 16 == 0 && p.work % 16 == 0 && p.ppitch % 16 == 0
          && p.j * p.rsize ≤ p.ppitch)

/-- Reads a plan descriptor's words: its block is touched, and it stands behind older accesses (R220, R355). -/
def Frame.planWords (f : Frame) (addr : Nat) : Except Stop (List Word × Frame) := do
  let f ← f.reach (blockUnit addr)
  let f ← f.access [(Key.pad f.c.id addr, 64)] false
  let bs ← f.padRead addr 64
  return (wordsOf 8 bs, f)

/-- XPLAN (R220) -/
def execXplan (h : Slot) (a : Src) (s : State) : Host.Outcome State Fault Refusal :=
  runSlot h (trigger h (engineTrig (some a) true false false [.xfu]) (direct fun f a b _ _ => do
    let _ ← f.settled
    let addr := a.low.toNat
    let _ ← need (addr % 64 == 0 && addr < 0x200000) (trapAt .align 0 addr)
    let _ ← need (!f.ownerBit (addr / 4096)) (trapAt .ownf 0 addr)
    let (w, f) ← f.planWords addr
    let _ ← need (fld (w.getD 0 0) 57 5 < 2) (trapOf .illfmt)
    let p := readPlan w
    let _ ← need (planLegal w p) (trapOf .illenc)
    let x := f.c.xfu
    return ({ f with c := { f.c with xfu := { x with plans := vset x.plans (fld b.low 0 3) (some p) } } }, .quiet))) s

/-! ### Calls (R196, R223) -/

/-- The plan kind that a port needs (R223). -/
def portKindOf (port : Nat) : Nat := (port - 0x21) / 2

/-- An XFU call (R223). -/
def xfuCall (port : Nat) (h : Slot) (a : Src) (s : State) : Host.Outcome State Fault Refusal :=
  runSlot h (trigger h (engineTrig (some a) true true true [.xfu]) (direct fun f a b c d => do
    let _ ← f.settled
    let x := f.c.xfu
    match vget x.plans (fld a.low 0 3) none with
    | none => .error (trapOf .illenc)
    | some p =>
      let batch := fld d.low 0 16
      let src := b.low.toNat
      let dst := c.low.toNat
      let _ ← need (p.kind == portKindOf port && batch != 0 && (p.kind != 2 || batch == 1)) (trapOf .illenc)
      let _ ← need (src % p.esize == 0) (trapAt .align 0 src)
      let _ ← need (dst % p.esize == 0) (trapAt .align 0 dst)
      let _ ← match p.outside port src dst batch with
        | some x => .error (trapAt .align 0 (BitVec.ofInt 64 x).toNat)
        | none => .ok ()
      let now ← f.callPlace (x.taken < 8 && x.held.isEmpty)
      let serial := f.s.nextId
      let call : XfuCall := ⟨serial, port, p, a.low.extractLsb' 32 32, src, dst, batch⟩
      let f ← f.claimCall serial (p.blocks port src dst batch)
      let x := if now then { x with queue := x.queue ++ [call] } else { x with held := x.held ++ [call] }
      return ({ f with c := { f.c with xfu := x } }, .quiet))) s

/-- XFFT (R225) -/
def execXfft (h : Slot) (a : Src) (s : State) : Host.Outcome State Fault Refusal := xfuCall 0x21 h a s
/-- XFFTI (R225) -/
def execXffti (h : Slot) (a : Src) (s : State) : Host.Outcome State Fault Refusal := xfuCall 0x22 h a s
/-- XLEGF (R226) -/
def execXlegf (h : Slot) (a : Src) (s : State) : Host.Outcome State Fault Refusal := xfuCall 0x23 h a s
/-- XLEGI (R226) -/
def execXlegi (h : Slot) (a : Src) (s : State) : Host.Outcome State Fault Refusal := xfuCall 0x24 h a s
/-- XSHTF (R227) -/
def execXshtf (h : Slot) (a : Src) (s : State) : Host.Outcome State Fault Refusal := xfuCall 0x25 h a s
/-- XSHTI (R227) -/
def execXshti (h : Slot) (a : Src) (s : State) : Host.Outcome State Fault Refusal := xfuCall 0x26 h a s

/-! ### Running a call (R223, R225 to R228) -/

/-- One pencil of a call: an FFT from its input to its output places, or a Legendre pass of a wavenumber (R225 to R227). -/
inductive Pencil
  | fft (fwd ring : Bool) (src dst : List Int)
  | forward (m : Nat) (src dst : List Int)
  | inverse (m : Nat) (src dst : List Int)
deriving DecidableEq, Repr

/-- How many pencils a call has. -/
def XfuCall.pencils (x : XfuCall) : Nat :=
  match x.port with
  | 0x25 | 0x26 => x.plan.j + x.plan.t + 1
  | _ => x.batch

/-- The work entries of a ring (R227). -/
def Plan.workRing (p : Plan) (j : Nat) : List Int := (List.range (p.t + 1)).map (p.workAddr j)

/-- The pencils of a call in the order in which they are taken (R223, R227). -/
def XfuCall.pencil (x : XfuCall) (k : Nat) : Pencil :=
  let p := x.plan
  match x.port with
  | 0x21 => .fft true false (p.source 0x21 x.src k) (p.dest 0x21 x.dst k)
  | 0x22 => .fft false false (p.source 0x22 x.src k) (p.dest 0x22 x.dst k)
  | 0x23 => .forward p.m0 (p.source 0x23 x.src k) (p.dest 0x23 x.dst k)
  | 0x24 => .inverse p.m0 (p.source 0x24 x.src k) (p.dest 0x24 x.dst k)
  | 0x25 =>
    if k < p.j then .fft true false (p.ring x.src k) (p.workRing k)
    else .forward (k - p.j) (p.workColumn (k - p.j)) (p.spectral x.dst (k - p.j))
  | _ =>
    if k ≤ p.t then .inverse k (p.spectral x.src k) (p.workColumn k)
    else .fft false true (p.workRing (k - p.t - 1)) (p.ring x.dst (k - p.t - 1))

/-- A number of a size at a scratchpad address. -/
def State.padNum (s : State) (ctx : Nat) (a : Int) (n : Nat) : Nat := Memory.num s.mem (Key.pad ctx a.toNat) n

/-- A complex element (R221). -/
def State.padComplex (s : State) (ctx : Nat) (p : Plan) (a : Int) : Cx :=
  (s.padNum ctx a p.rsize, s.padNum ctx (a + p.rsize) p.rsize)

/-- What a step of a running call acts on: the machine and the call's state. -/
structure XStep where
  s : State
  r : XfuRun

/-- Writes complex elements at their addresses; what is stored counts for the status (R201). -/
def XStep.store (x : XStep) (ctx : Nat) (p : Plan) (l : List (Int × Cx)) : XStep :=
  l.foldl (fun x z =>
    ⟨x.s.write (Key.pad ctx z.1.toNat) (bytesLE p.rsize z.2.1 ++ bytesLE p.rsize z.2.2),
     { x.r with flags := (x.r.flags.or (xFlags (xfmt p.f32) z.2.1)).or (xFlags (xfmt p.f32) z.2.2) }⟩) x

/-- The first uncorrectable place among some (R371). -/
def State.badAmong (s : State) (ctx size : Nat) (l : List Int) : Option Int :=
  if s.ecc.isEmpty then none else l.find? fun a => s.bad (Key.pad ctx a.toNat) size

/-- Reads the elements of a pencil whole into the buffer, or gives the address of one that is uncorrectable (R223,
R371). -/
def XStep.read (x : XStep) (ctx : Nat) (p : Plan) (src : List Int) (work : List Cx → XCalc (List Cx)) : Except Int XStep :=
  match x.s.badAmong ctx p.esize src with
  | some a => .error a
  | none =>
    let v := work (src.map (x.s.padComplex ctx p)) x.r.flags
    .ok { x with r := { x.r with buf := v.1, flags := v.2 } }

/-- The weights' addresses. -/
def Plan.weightAddrs (p : Plan) : List Int := (List.range p.j).map fun j => ((p.wbase + j * p.rsize : Nat) : Int)

/-- XSHTI's input of one ring from its bins 0 to T (R227). -/
def ringInput (p : Plan) (bins : List Cx) : List Cx :=
  (List.range p.n).map fun k =>
    if k ≤ p.t then cat bins k
    else if p.n - k ≤ p.t then let z := cat bins (p.n - k); (z.1, xneg (xfmt p.f32) z.2)
    else (0, 0)

/-- A pencil is done: the next begins, its results written (R223). -/
def XStep.nextPencil (x : XStep) : XStep := { x with r := { x.r with pencil := x.r.pencil + 1, place := 0, buf := [] } }

/-- One butterfly stage of an FFT pencil: before the first the pencil is read, after the last its results are written
(R223, R225, R228). -/
def XStep.fftStage (x : XStep) (ctx : Nat) (p : Plan) (fwd ring : Bool) (src dst : List Int) : Except Int XStep := do
  let x ← if x.r.place = 0 then x.read ctx p src (fun l => pure (if ring then ringInput p l else l)) else .ok x
  let v := fftStep p fwd x.r.place x.r.buf x.r.flags
  if x.r.place + 1 < p.radix.length then
    return { x with r := { x.r with place := x.r.place + 1, buf := v.1, flags := v.2 } }
  else
    let w := fftScale p fwd v.1 v.2
    return ((({ x with r := { x.r with flags := w.2 } } : XStep).store ctx p (dst.zip w.1)).nextPencil)

/-- One output element of a Legendre pass: before the first the pencil is read whole (R223, R226, R228). `row k` names the
table entries that output `k` needs. -/
def XStep.element (x : XStep) (ctx : Nat) (p : Plan) (src dst reals : List Int) (work : List Cx → XCalc (List Cx))
    (row : Nat → List Int) : Except Int XStep := do
  let x ← if x.r.place = 0 then
      (match x.s.badAmong ctx p.rsize reals with
      | some a => .error a
      | none => x.read ctx p src work)
    else .ok x
  let k := x.r.place
  match x.s.badAmong ctx p.rsize (row k) with
  | some a => .error a
  | none =>
    let v := dotComplex (xfmt p.f32) ((row k).map fun a => x.s.padNum ctx a p.rsize) x.r.buf x.r.flags
    let y := XStep.store { x with r := { x.r with flags := v.2, place := k + 1 } } ctx p ((dst.drop k).take 1 |>.map fun a => (a, v.1))
    return (if k + 1 < dst.length then y else y.nextPencil)

/-- The next stage or element of a running call (R225 to R228). -/
def XStep.next (x : XStep) (ctx : Nat) : Except Int XStep :=
  let p := x.r.call.plan
  match x.r.call.pencil x.r.pencil with
  | .fft fwd ring src dst => x.fftStage ctx p fwd ring src dst
  | .forward m src dst => x.element ctx p src dst p.weightAddrs
      (weighted (xfmt p.f32) (p.weightAddrs.map fun a => x.s.padNum ctx a p.rsize))
      (fun k => (List.range p.j).map fun j => p.tableAddr m (m + k) j)
  | .inverse m src dst => x.element ctx p src dst [] pure (fun k => (p.degrees m).map fun l => p.tableAddr m l k)

/-- The XFU's running call, or the one it may start now, at its beginning (R196, R198, R199, R228). -/
def State.xfuHead (s : State) (c : Ctx) : Option XfuRun :=
  if c.xfu.stop || c.xfu.fin.isSome || !c.engineHere .xfu then none
  else match c.xfu.run, c.xfu.queue with
    | some r, _ => some r
    | none, x :: _ => if s.claimLive x.serial then some ⟨x, 0, 0, [], .none⟩ else none
    | none, [] => none

/-- Ends the XFU's running call with a status (R197, R201). -/
def Xfu.finish (x : Xfu) (call : XfuCall) (status : Nat) : Xfu :=
  { x with run := none, fin := some ⟨call.serial, engineToken status 1 call.port call.utag, false⟩ }

/-- XFU_CALL_START (R225 to R228): the call at the head of the queue starts, and goes on from one quiescent point to the
next until its last pencil is written. -/
def execXfuCallStart (ctx : Nat) (s : State) : Host.Outcome State Fault Refusal :=
  match s.ctx? ctx with
  | none => s.event
  | some c => match s.xfuHead c with
    | none => s.event
    | some r =>
      let x := if c.xfu.run.isNone then { c.xfu with queue := c.xfu.queue.drop 1 } else c.xfu
      if c.xfu.run.isNone && !c.sound (.call r.call.serial) then
        ((s.setCtx { c with xfu := x.finish r.call (errStatus 5) }).machineCheck ctx 2 0).event
      else match XStep.next ⟨s, r⟩ ctx with
      | .error a => ((s.setCtx { c with xfu := x.finish r.call (errStatus 5) }).machineCheck ctx 2 a.toNat).event
      | .ok y =>
        let x := if y.r.pencil < r.call.pencils then { x with run := some y.r } else x.finish r.call y.r.flags.status
        (y.s.setCtx { c with xfu := x }).event

end Sys2Proof.Machine
end

