-- ==== Sys2Proof/Machine/Dispatch.lean ====
section
/-! DEFINITION. The dispatch: one meaning for each instruction and event. -/

namespace Sys2Proof.Machine

/-- The meaning of an instruction or event. -/
def exec (i : Instr) (s : State) : Host.Outcome State Fault Refusal :=
  match i with
  | .nop h => Sys2Proof.Machine.execNop h s
  | .moveOperandPort h u p a => Sys2Proof.Machine.execMoveOperandPort h u p a s
  | .moveScalar h n a => Sys2Proof.Machine.execMoveScalar h n a s
  | .moveVector h n a => Sys2Proof.Machine.execMoveVector h n a s
  | .movePredicate h n a => Sys2Proof.Machine.execMovePredicate h n a s
  | .moveLc h n a => Sys2Proof.Machine.execMoveLc h n a s
  | .moveLb h n a => Sys2Proof.Machine.execMoveLb h n a s
  | .moveSlk h a => Sys2Proof.Machine.execMoveSlk h a s
  | .moveCbx h a => Sys2Proof.Machine.execMoveCbx h a s
  | .immBindBInt stop imm => Sys2Proof.Machine.execImmBindBInt stop imm s
  | .immBindCInt stop imm => Sys2Proof.Machine.execImmBindCInt stop imm s
  | .immBindBF32 stop imm => Sys2Proof.Machine.execImmBindBF32 stop imm s
  | .immBindCF32 stop imm => Sys2Proof.Machine.execImmBindCF32 stop imm s
  | .immBindBF64 stop imm => Sys2Proof.Machine.execImmBindBF64 stop imm s
  | .immBindCF64 stop imm => Sys2Proof.Machine.execImmBindCF64 stop imm s
  | .immSetLb stop imm => Sys2Proof.Machine.execImmSetLb stop imm s
  | .add h a => Sys2Proof.Machine.execAdd h a s
  | .sub h a => Sys2Proof.Machine.execSub h a s
  | .and h a => Sys2Proof.Machine.execAnd h a s
  | .or h a => Sys2Proof.Machine.execOr h a s
  | .xor h a => Sys2Proof.Machine.execXor h a s
  | .andn h a => Sys2Proof.Machine.execAndn h a s
  | .shl h a => Sys2Proof.Machine.execShl h a s
  | .shr h a => Sys2Proof.Machine.execShr h a s
  | .sar h a => Sys2Proof.Machine.execSar h a s
  | .mul h a => Sys2Proof.Machine.execMul h a s
  | .mulh h a => Sys2Proof.Machine.execMulh h a s
  | .mulhu h a => Sys2Proof.Machine.execMulhu h a s
  | .div h a => Sys2Proof.Machine.execDiv h a s
  | .divu h a => Sys2Proof.Machine.execDivu h a s
  | .rem h a => Sys2Proof.Machine.execRem h a s
  | .remu h a => Sys2Proof.Machine.execRemu h a s
  | .min h a => Sys2Proof.Machine.execMin h a s
  | .minu h a => Sys2Proof.Machine.execMinu h a s
  | .max h a => Sys2Proof.Machine.execMax h a s
  | .maxu h a => Sys2Proof.Machine.execMaxu h a s
  | .clz h a => Sys2Proof.Machine.execClz h a s
  | .ctz h a => Sys2Proof.Machine.execCtz h a s
  | .popc h a => Sys2Proof.Machine.execPopc h a s
  | .sext h a => Sys2Proof.Machine.execSext h a s
  | .zext h a => Sys2Proof.Machine.execZext h a s
  | .lea h a => Sys2Proof.Machine.execLea h a s
  | .bfx h a => Sys2Proof.Machine.execBfx h a s
  | .bfi h a => Sys2Proof.Machine.execBfi h a s
  | .cmpeq h a => Sys2Proof.Machine.execCmpeq h a s
  | .cmpne h a => Sys2Proof.Machine.execCmpne h a s
  | .cmplt h a => Sys2Proof.Machine.execCmplt h a s
  | .cmple h a => Sys2Proof.Machine.execCmple h a s
  | .cmpltu h a => Sys2Proof.Machine.execCmpltu h a s
  | .cmpleu h a => Sys2Proof.Machine.execCmpleu h a s
  | .fcmpeq h a => Sys2Proof.Machine.execFcmpeq h a s
  | .fcmplt h a => Sys2Proof.Machine.execFcmplt h a s
  | .fcmple h a => Sys2Proof.Machine.execFcmple h a s
  | .fcmpun h a => Sys2Proof.Machine.execFcmpun h a s
  | .fadd h a => Sys2Proof.Machine.execFadd h a s
  | .fsub h a => Sys2Proof.Machine.execFsub h a s
  | .fmul h a => Sys2Proof.Machine.execFmul h a s
  | .ffma h a => Sys2Proof.Machine.execFfma h a s
  | .fdiv h a => Sys2Proof.Machine.execFdiv h a s
  | .fsqrt h a => Sys2Proof.Machine.execFsqrt h a s
  | .fmin h a => Sys2Proof.Machine.execFmin h a s
  | .fmax h a => Sys2Proof.Machine.execFmax h a s
  | .fabs h a => Sys2Proof.Machine.execFabs h a s
  | .fneg h a => Sys2Proof.Machine.execFneg h a s
  | .fcvtI64 h a => Sys2Proof.Machine.execFcvtI64 h a s
  | .fcvtF64 h a => Sys2Proof.Machine.execFcvtF64 h a s
  | .ldb h a => Sys2Proof.Machine.execLdb h a s
  | .ldbu h a => Sys2Proof.Machine.execLdbu h a s
  | .ldh h a => Sys2Proof.Machine.execLdh h a s
  | .ldhu h a => Sys2Proof.Machine.execLdhu h a s
  | .ldw h a => Sys2Proof.Machine.execLdw h a s
  | .ldwu h a => Sys2Proof.Machine.execLdwu h a s
  | .ldd h a => Sys2Proof.Machine.execLdd h a s
  | .stb h a => Sys2Proof.Machine.execStb h a s
  | .sth h a => Sys2Proof.Machine.execSth h a s
  | .stw h a => Sys2Proof.Machine.execStw h a s
  | .std h a => Sys2Proof.Machine.execStd h a s
  | .ldwCl h a => Sys2Proof.Machine.execLdwCl h a s
  | .lddCl h a => Sys2Proof.Machine.execLddCl h a s
  | .stwCl h a => Sys2Proof.Machine.execStwCl h a s
  | .stdCl h a => Sys2Proof.Machine.execStdCl h a s
  | .aadd h a => Sys2Proof.Machine.execAadd h a s
  | .aand h a => Sys2Proof.Machine.execAand h a s
  | .aor h a => Sys2Proof.Machine.execAor h a s
  | .axor h a => Sys2Proof.Machine.execAxor h a s
  | .amin h a => Sys2Proof.Machine.execAmin h a s
  | .amax h a => Sys2Proof.Machine.execAmax h a s
  | .aswap h a => Sys2Proof.Machine.execAswap h a s
  | .acas h a => Sys2Proof.Machine.execAcas h a s
  | .aaddCl h a => Sys2Proof.Machine.execAaddCl h a s
  | .aandCl h a => Sys2Proof.Machine.execAandCl h a s
  | .aorCl h a => Sys2Proof.Machine.execAorCl h a s
  | .axorCl h a => Sys2Proof.Machine.execAxorCl h a s
  | .aminCl h a => Sys2Proof.Machine.execAminCl h a s
  | .amaxCl h a => Sys2Proof.Machine.execAmaxCl h a s
  | .aswapCl h a => Sys2Proof.Machine.execAswapCl h a s
  | .acasCl h a => Sys2Proof.Machine.execAcasCl h a s
  | .cld h a => Sys2Proof.Machine.execCld h a s
  | .jmp h a => Sys2Proof.Machine.execJmp h a s
  | .jmpr h a => Sys2Proof.Machine.execJmpr h a s
  | .call h a => Sys2Proof.Machine.execCall h a s
  | .callr h a => Sys2Proof.Machine.execCallr h a s
  | .ret h a => Sys2Proof.Machine.execRet h a s
  | .loop h a => Sys2Proof.Machine.execLoop h a s
  | .loopx h a => Sys2Proof.Machine.execLoopx h a s
  | .nest h a => Sys2Proof.Machine.execNest h a s
  | .slack h a => Sys2Proof.Machine.execSlack h a s
  | .bar h a => Sys2Proof.Machine.execBar h a s
  | .tkpost h a => Sys2Proof.Machine.execTkpost h a s
  | .cbr h a => Sys2Proof.Machine.execCbr h a s
  | .agjoin h a => Sys2Proof.Machine.execAgjoin h a s
  | .agleave h a => Sys2Proof.Machine.execAgleave h a s
  | .agexcuse h a => Sys2Proof.Machine.execAgexcuse h a s
  | .heart h => Sys2Proof.Machine.execHeart h s
  | .retire h => Sys2Proof.Machine.execRetire h s
  | .csync h => Sys2Proof.Machine.execCsync h s
  | .tret h => Sys2Proof.Machine.execTret h s
  | .rdsr h a => Sys2Proof.Machine.execRdsr h a s
  | .wrsr h a => Sys2Proof.Machine.execWrsr h a s
  | .fenceAcq h sc => Sys2Proof.Machine.execFenceAcq h sc s
  | .fenceRel h sc => Sys2Proof.Machine.execFenceRel h sc s
  | .fenceAr h sc => Sys2Proof.Machine.execFenceAr h sc s
  | .fenceScDevice h => Sys2Proof.Machine.execFenceScDevice h s
  | .fenceScDomain h => Sys2Proof.Machine.execFenceScDomain h s
  | .addF h e a => Sys2Proof.Machine.execAddF h e a s
  | .subF h e a => Sys2Proof.Machine.execSubF h e a s
  | .mulF h e a => Sys2Proof.Machine.execMulF h e a s
  | .fmaF h e a => Sys2Proof.Machine.execFmaF h e a s
  | .fmsF h e a => Sys2Proof.Machine.execFmsF h e a s
  | .fnmaF h e a => Sys2Proof.Machine.execFnmaF h e a s
  | .minF h e a => Sys2Proof.Machine.execMinF h e a s
  | .maxF h e a => Sys2Proof.Machine.execMaxF h e a s
  | .divF h e a => Sys2Proof.Machine.execDivF h e a s
  | .sqrtF h e a => Sys2Proof.Machine.execSqrtF h e a s
  | .absF h e a => Sys2Proof.Machine.execAbsF h e a s
  | .negF h e a => Sys2Proof.Machine.execNegF h e a s
  | .cmpeqF h e a => Sys2Proof.Machine.execCmpeqF h e a s
  | .cmpltF h e a => Sys2Proof.Machine.execCmpltF h e a s
  | .cmpleF h e a => Sys2Proof.Machine.execCmpleF h e a s
  | .cmpunF h e a => Sys2Proof.Machine.execCmpunF h e a s
  | .iadd h e a => Sys2Proof.Machine.execIadd h e a s
  | .isub h e a => Sys2Proof.Machine.execIsub h e a s
  | .iadds h e a => Sys2Proof.Machine.execIadds h e a s
  | .iaddsu h e a => Sys2Proof.Machine.execIaddsu h e a s
  | .isubs h e a => Sys2Proof.Machine.execIsubs h e a s
  | .isubsu h e a => Sys2Proof.Machine.execIsubsu h e a s
  | .imul h e a => Sys2Proof.Machine.execImul h e a s
  | .imulh h e a => Sys2Proof.Machine.execImulh h e a s
  | .imulhu h e a => Sys2Proof.Machine.execImulhu h e a s
  | .imin h e a => Sys2Proof.Machine.execImin h e a s
  | .iminu h e a => Sys2Proof.Machine.execIminu h e a s
  | .imax h e a => Sys2Proof.Machine.execImax h e a s
  | .imaxu h e a => Sys2Proof.Machine.execImaxu h e a s
  | .vecAnd h e a => Sys2Proof.Machine.execVecAnd h e a s
  | .vecOr h e a => Sys2Proof.Machine.execVecOr h e a s
  | .vecXor h e a => Sys2Proof.Machine.execVecXor h e a s
  | .vecAndn h e a => Sys2Proof.Machine.execVecAndn h e a s
  | .vecShl h e a => Sys2Proof.Machine.execVecShl h e a s
  | .vecShr h e a => Sys2Proof.Machine.execVecShr h e a s
  | .vecSar h e a => Sys2Proof.Machine.execVecSar h e a s
  | .icmpeq h e a => Sys2Proof.Machine.execIcmpeq h e a s
  | .icmplt h e a => Sys2Proof.Machine.execIcmplt h e a s
  | .icmpltu h e a => Sys2Proof.Machine.execIcmpltu h e a s
  | .iabs h e a => Sys2Proof.Machine.execIabs h e a s
  | .vecPopc h e a => Sys2Proof.Machine.execVecPopc h e a s
  | .vecClz h e a => Sys2Proof.Machine.execVecClz h e a s
  | .cvt h t a => Sys2Proof.Machine.execCvt h t a s
  | .cvtsc h t a => Sys2Proof.Machine.execCvtsc h t a s
  | .cvtsr h t a => Sys2Proof.Machine.execCvtsr h t a s
  | .redadd h a => Sys2Proof.Machine.execRedadd h a s
  | .redmax h a => Sys2Proof.Machine.execRedmax h a s
  | .redmin h a => Sys2Proof.Machine.execRedmin h a s
  | .vmaxi h a => Sys2Proof.Machine.execVmaxi h a s
  | .vmini h a => Sys2Proof.Machine.execVmini h a s
  | .perm h a => Sys2Proof.Machine.execPerm h a s
  | .bcast h a => Sys2Proof.Machine.execBcast h a s
  | .sel h a => Sys2Proof.Machine.execSel h a s
  | .vld h a => Sys2Proof.Machine.execVld h a s
  | .vst h a => Sys2Proof.Machine.execVst h a s
  | .vldt h a => Sys2Proof.Machine.execVldt h a s
  | .vldCl h a => Sys2Proof.Machine.execVldCl h a s
  | .vstCl h a => Sys2Proof.Machine.execVstCl h a s
  | .gath h a => Sys2Proof.Machine.execGath h a s
  | .scat h a => Sys2Proof.Machine.execScat h a s
  | .fpset h a => Sys2Proof.Machine.execFpset h a s
  | .fpflush h a => Sys2Proof.Machine.execFpflush h a s
  | .trowE8 h a => Sys2Proof.Machine.execTrowE8 h a s
  | .trowE16 h a => Sys2Proof.Machine.execTrowE16 h a s
  | .trowE32 h a => Sys2Proof.Machine.execTrowE32 h a s
  | .trowE64 h a => Sys2Proof.Machine.execTrowE64 h a s
  | .tdrain h => Sys2Proof.Machine.execTdrain h s
  | .tclr h => Sys2Proof.Machine.execTclr h s
  | .mpset h n a => Sys2Proof.Machine.execMpset h n a s
  | .mpget h n => Sys2Proof.Machine.execMpget h n s
  | .mxload h a => Sys2Proof.Machine.execMxload h a s
  | .mxq h => Sys2Proof.Machine.execMxq h s
  | .xplan h a => Sys2Proof.Machine.execXplan h a s
  | .xfft h a => Sys2Proof.Machine.execXfft h a s
  | .xffti h a => Sys2Proof.Machine.execXffti h a s
  | .xlegf h a => Sys2Proof.Machine.execXlegf h a s
  | .xlegi h a => Sys2Proof.Machine.execXlegi h a s
  | .xshtf h a => Sys2Proof.Machine.execXshtf h a s
  | .xshti h a => Sys2Proof.Machine.execXshti h a s
  | .mxcall h n a => Sys2Proof.Machine.execMxcall h n a s
  | .cpyN h a => Sys2Proof.Machine.execCpyN h a s
  | .cpyNd h a => Sys2Proof.Machine.execCpyNd h a s
  | .ceGath h a => Sys2Proof.Machine.execCeGath h a s
  | .ceScat h a => Sys2Proof.Machine.execCeScat h a s
  | .accLd h a => Sys2Proof.Machine.execAccLd h a s
  | .accSt h a => Sys2Proof.Machine.execAccSt h a s
  | .gaAdd h a => Sys2Proof.Machine.execGaAdd h a s
  | .gaAnd h a => Sys2Proof.Machine.execGaAnd h a s
  | .gaOr h a => Sys2Proof.Machine.execGaOr h a s
  | .gaXor h a => Sys2Proof.Machine.execGaXor h a s
  | .gaMin h a => Sys2Proof.Machine.execGaMin h a s
  | .gaMax h a => Sys2Proof.Machine.execGaMax h a s
  | .gaSwap h a => Sys2Proof.Machine.execGaSwap h a s
  | .gaCas h a => Sys2Proof.Machine.execGaCas h a s
  | .mcst h a => Sys2Proof.Machine.execMcst h a s
  | .wbr h a => Sys2Proof.Machine.execWbr h a s
  | .invr h a => Sys2Proof.Machine.execInvr h a s
  | .pref h a => Sys2Proof.Machine.execPref h a s
  | .waitany h a => Sys2Proof.Machine.execWaitany h a s
  | .waitall h a => Sys2Proof.Machine.execWaitall h a s
  | .ffr h a => Sys2Proof.Machine.execFfr h a s
  | .clrtag h a => Sys2Proof.Machine.execClrtag h a s
  | .bcInit h a => Sys2Proof.Machine.execBcInit h a s
  | .arriveExp h a => Sys2Proof.Machine.execArriveExp h a s
  | .bcSub h a => Sys2Proof.Machine.execBcSub h a s
  | .bcWait h a => Sys2Proof.Machine.execBcWait h a s
  | .xcoll h a => Sys2Proof.Machine.execXcoll h a s
  | .ttready h a => Sys2Proof.Machine.execTtready h a s
  | .catArm h a => Sys2Proof.Machine.execCatArm h a s
  | .catDisarm h a => Sys2Proof.Machine.execCatDisarm h a s
  | .waitid h a => Sys2Proof.Machine.execWaitid h a s
  | .mnop m => Sys2Proof.Machine.execMnop m s
  | .mend m => Sys2Proof.Machine.execMend m s
  | .mseta m => Sys2Proof.Machine.execMseta m s
  | .madd m => Sys2Proof.Machine.execMadd m s
  | .msetc m => Sys2Proof.Machine.execMsetc m s
  | .mloop m => Sys2Proof.Machine.execMloop m s
  | .mjmp m => Sys2Proof.Machine.execMjmp m s
  | .mlda m => Sys2Proof.Machine.execMlda m s
  | .mldb m => Sys2Proof.Machine.execMldb m s
  | .mldsa m => Sys2Proof.Machine.execMldsa m s
  | .mldsw m => Sys2Proof.Machine.execMldsw m s
  | .mlde m => Sys2Proof.Machine.execMlde m s
  | .mldm m => Sys2Proof.Machine.execMldm m s
  | .mstr m => Sys2Proof.Machine.execMstr m s
  | .mzero m => Sys2Proof.Machine.execMzero m s
  | .mstacc m => Sys2Proof.Machine.execMstacc m s
  | .mldacc m => Sys2Proof.Machine.execMldacc m s
  | .bundleIssue => Sys2Proof.Machine.execBundleIssue s
  | .cbxReloadEnd sid => Sys2Proof.Machine.execCbxReloadEnd sid s
  | .windowAccessPerform cluster => Sys2Proof.Machine.execWindowAccessPerform cluster s
  | .resultPush sid => Sys2Proof.Machine.execResultPush sid s
  | .spillWriteComplete sid => Sys2Proof.Machine.execSpillWriteComplete sid s
  | .fillArrive sid => Sys2Proof.Machine.execFillArrive sid s
  | .feedElementArrive ctx port => Sys2Proof.Machine.execFeedElementArrive ctx port s
  | .heldOpRun ctx u => Sys2Proof.Machine.execHeldOpRun ctx u s
  | .slackExhausted sid => Sys2Proof.Machine.execSlackExhausted sid s
  | .stallEnd sid => Sys2Proof.Machine.execStallEnd sid s
  | .tkpostDeliver sid => Sys2Proof.Machine.execTkpostDeliver sid s
  | .agexcuseAck x => Sys2Proof.Machine.execAgexcuseAck x s
  | .retireComplete sid => Sys2Proof.Machine.execRetireComplete sid s
  | .csyncSnapshot sid => Sys2Proof.Machine.execCsyncSnapshot sid s
  | .l2domSwitchDone die dom => Sys2Proof.Machine.execL2domSwitchDone die dom s
  | .replayResponse cmd => Sys2Proof.Machine.execReplayResponse cmd s
  | .fenceComplete sid => Sys2Proof.Machine.execFenceComplete sid s
  | .invalidationApply die stamp => Sys2Proof.Machine.execInvalidationApply die stamp s
  | .columnPresent ctx => Sys2Proof.Machine.execColumnPresent ctx s
  | .heldCallEnqueue ctx e => Sys2Proof.Machine.execHeldCallEnqueue ctx e s
  | .mxeCallStart ctx => Sys2Proof.Machine.execMxeCallStart ctx s
  | .mxloadRun ctx => Sys2Proof.Machine.execMxloadRun ctx s
  | .engineCallComplete ctx e => Sys2Proof.Machine.execEngineCallComplete ctx e s
  | .engineTokenPostDeferred ctx e => Sys2Proof.Machine.execEngineTokenPostDeferred ctx e s
  | .xfuCallStart ctx => Sys2Proof.Machine.execXfuCallStart ctx s
  | .mxeQuiesce ctx => Sys2Proof.Machine.execMxeQuiesce ctx s
  | .xfuQuiesce ctx => Sys2Proof.Machine.execXfuQuiesce ctx s
  | .tagCommandAccept cmd => Sys2Proof.Machine.execTagCommandAccept cmd s
  | .copyChunk cmd => Sys2Proof.Machine.execCopyChunk cmd s
  | .tagCommandComplete cmd => Sys2Proof.Machine.execTagCommandComplete cmd s
  | .catalogueDisarmComplete cmd => Sys2Proof.Machine.execCatalogueDisarmComplete cmd s
  | .counterArrival ctx bca len => Sys2Proof.Machine.execCounterArrival ctx bca len s
  | .readinessNotice n => Sys2Proof.Machine.execReadinessNotice n s
  | .pullRequest p => Sys2Proof.Machine.execPullRequest p s
  | .chunkLand f => Sys2Proof.Machine.execChunkLand f s
  | .parkedChunkWrite num => Sys2Proof.Machine.execParkedChunkWrite num s
  | .localPullFault xfer => Sys2Proof.Machine.execLocalPullFault xfer s
  | .parkingSpaceFree port => Sys2Proof.Machine.execParkingSpaceFree port s
  | .parkedNoticeRelease sid chan grp => Sys2Proof.Machine.execParkedNoticeRelease sid chan grp s
  | .transferIdComplete sid chan id far => Sys2Proof.Machine.execTransferIdComplete sid chan id far s
  | .k2TokenPost sid => Sys2Proof.Machine.execK2TokenPost sid s
  | .staleRefuse p => Sys2Proof.Machine.execStaleRefuse p s
  | .chunkRedrive xfer => Sys2Proof.Machine.execChunkRedrive xfer s
  | .noticeResend n => Sys2Proof.Machine.execNoticeResend n s
  | .mcstReplicaArrive r => Sys2Proof.Machine.execMcstReplicaArrive r s
  | .mcstAckArrive cmd ack => Sys2Proof.Machine.execMcstAckArrive cmd ack s
  | .circuitChange port => Sys2Proof.Machine.execCircuitChange port s
  | .linkRetrained port => Sys2Proof.Machine.execLinkRetrained port s
  | .retrainTimeout port => Sys2Proof.Machine.execRetrainTimeout port s
  | .linkFail port => Sys2Proof.Machine.execLinkFail port s
  | .packetTrainStart port duty => Sys2Proof.Machine.execPacketTrainStart port duty s
  | .errorMonitorRaise port level => Sys2Proof.Machine.execErrorMonitorRaise port level s
  | .holdExpire port need => Sys2Proof.Machine.execHoldExpire port need s
  | .contributionArrive c => Sys2Proof.Machine.execContributionArrive c s
  | .agreementTimeout gid => Sys2Proof.Machine.execAgreementTimeout gid s
  | .answerArrive sid slot v st => Sys2Proof.Machine.execAnswerArrive sid slot v st s
  | .heldStoreDrain sid => Sys2Proof.Machine.execHeldStoreDrain sid s
  | .leaveNotice group midx out => Sys2Proof.Machine.execLeaveNotice group midx out s
  | .preemptedNotice gid member => Sys2Proof.Machine.execPreemptedNotice gid member s
  | .resumeNotice gid member => Sys2Proof.Machine.execResumeNotice gid member s
  | .taskFail sid cause sub addr => Sys2Proof.Machine.execTaskFail sid cause sub addr s
  | .watchdogFire task => Sys2Proof.Machine.execWatchdogFire task s
  | .unitClaimComplete sid u => Sys2Proof.Machine.execUnitClaimComplete sid u s
  | .dieReport die => Sys2Proof.Machine.execDieReport die s
  | .taskPlace task => Sys2Proof.Machine.execTaskPlace task s
  | .taskResume task => Sys2Proof.Machine.execTaskResume task s
  | .frameStart => Sys2Proof.Machine.execFrameStart s
  | .queueIdleUnmap q => Sys2Proof.Machine.execQueueIdleUnmap q s
  | .signalAck q idx => Sys2Proof.Machine.execSignalAck q idx s
  | .invalAck q => Sys2Proof.Machine.execInvalAck q s
  | .graphStepBegin g => Sys2Proof.Machine.execGraphStepBegin g s
  | .graphNodeComplete g node => Sys2Proof.Machine.execGraphNodeComplete g node s
  | .condNodeRead g node => Sys2Proof.Machine.execCondNodeRead g node s
  | .notifyWrite q v => Sys2Proof.Machine.execNotifyWrite q v s
  | .crdidxWrite q v => Sys2Proof.Machine.execCrdidxWrite q v s
  | .queueRegister q w v => Sys2Proof.Machine.execQueueRegister q w v s
  | .queueUnregister q v => Sys2Proof.Machine.execQueueUnregister q v s
  | .queueHalt q v => Sys2Proof.Machine.execQueueHalt q v s
  | .queueResume q v => Sys2Proof.Machine.execQueueResume q v s
  | .rdidxWrite q v => Sys2Proof.Machine.execRdidxWrite q v s
  | .hostMemoryAccess place op => Sys2Proof.Machine.execHostMemoryAccess place op s
  | .groupMemberWrite g m v => Sys2Proof.Machine.execGroupMemberWrite g m v s
  | .groupHeaderWrite g v => Sys2Proof.Machine.execGroupHeaderWrite g v s
  | .routingEntryWrite m via v => Sys2Proof.Machine.execRoutingEntryWrite m via v s
  | .rtctlStage v => Sys2Proof.Machine.execRtctlStage v s
  | .topologySwap v => Sys2Proof.Machine.execTopologySwap v s
  | .ptrootWrite v => Sys2Proof.Machine.execPtrootWrite v s
  | .fltbaseWrite v => Sys2Proof.Machine.execFltbaseWrite v s
  | .fltrespResolve num => Sys2Proof.Machine.execFltrespResolve num s
  | .fltrespRefuse num => Sys2Proof.Machine.execFltrespRefuse num s
  | .iclampWrite v => Sys2Proof.Machine.execIclampWrite v s
  | .attestNonceWrite nonce => Sys2Proof.Machine.execAttestNonceWrite nonce s
  | .registerWrite off v => Sys2Proof.Machine.execRegisterWrite off v s
  | .currentClampReached => Sys2Proof.Machine.execCurrentClampReached s
  | .clockRecoverStep => Sys2Proof.Machine.execClockRecoverStep s
  | .functionLevelReset => Sys2Proof.Machine.execFunctionLevelReset s
  | .moduleReset verified code measure => Sys2Proof.Machine.execModuleReset verified code measure s
  | .pcieLinkTrain rate width => Sys2Proof.Machine.execPcieLinkTrain rate width s
  | .fltrdWrite v => Sys2Proof.Machine.execFltrdWrite v s
  | .scalarBankRetire ptn bank => Sys2Proof.Machine.execScalarBankRetire ptn bank s
  | .opticalBudgetChange port budget => Sys2Proof.Machine.execOpticalBudgetChange port budget s
  | .portDisable port => Sys2Proof.Machine.execPortDisable port s

end Sys2Proof.Machine
end

