-- ==== Sys2Proof/Machine/Sched.lean ====
section
/-! DEFINITION. What the module does next: which strands issue in a tile cycle, which events of the device are due, and
the end of a tile cycle (R22, R33, R38 to R41, R76, R131, R147, R332, R367, R381, notes/assumptions/3.md). -/

namespace Sys2Proof.Machine

/-! ### Events that the state itself brings about -/

/-- An event of the device that the state enables. -/
inductive Act
  | holdExpire (port : Fin 64) (need : BitVec 8)
  | cbxReloadEnd (sid : Nat) | windowAccessPerform (cluster : Nat) | resultPush (sid : Nat) | tkpostDeliver (sid : Nat)
  | columnPresent (ctx : Nat)
  | micro (op : Nat) (m : Micro)
  | spillWriteComplete (sid : Nat) | fillArrive (sid : Nat) | feedElementArrive (ctx : Nat) (port : Fin 8)
  | heldOpRun (ctx : Nat) (u : UnitName) | slackExhausted (sid : Nat) | stallEnd (sid : Nat) | agexcuseAck (sid : Nat)
  | retireComplete (sid : Nat) | csyncSnapshot (sid : Nat) | l2domSwitchDone (die : Nat) (dom : Fin 16)
  | fenceComplete (sid : Nat) | invalidationApply (die : Nat) (stamp : List Nat)
  | heldCallEnqueue (ctx : Nat) (e : Engine) | mxeCallStart (ctx : Nat) | mxloadRun (ctx : Nat)
  | engineCallComplete (ctx : Nat) (e : Engine) | engineTokenPostDeferred (ctx : Nat) (e : Engine) | xfuCallStart (ctx : Nat)
  | mxeQuiesce (ctx : Nat) | xfuQuiesce (ctx : Nat)
  | tagCommandAccept (cmd : Nat) | copyChunk (cmd : Nat) | tagCommandComplete (cmd : Nat)
  | catalogueDisarmComplete (cmd : Nat)
  | readinessNotice (n : Notice) | pullRequest (p : Pull) | chunkLand (f : Flight) | parkedChunkWrite (num : Nat)
  | localPullFault (xfer : Nat) | parkedNoticeRelease (sid : Nat) (chan : Fin 16) (grp : Nat)
  | transferIdComplete (sid : Nat) (chan : Fin 16) (id : Nat) | k2TokenPost (sid : Nat) | chunkRedrive (xfer : Nat)
  | mcstReplicaArrive (r : Replica) | mcstAckArrive (cmd ver : Nat)
  | contributionArrive (c : Contribution) | agreementTimeout (gid : Nat)
  | answerArrive (sid : Nat) (slot : Fin 4) (v : Bool) (status : Nat) | heldStoreDrain (sid : Nat)
  | taskFail (sid : Nat) | watchdogFire (task : Nat) | unitClaimComplete (sid : Nat) (u : TileUnit)
  | taskPlace (task : Nat) | taskResume (task : Nat)
  | frameStart | noticeResend (n : Notice)
  | queueIdleUnmap (q : Nat) | signalAck (q idx : Nat) | invalAck (q : Nat)
  | graphStepBegin (g : Fin 16) | graphNodeComplete (g : Fin 16) (node : Nat) | condNodeRead (g : Fin 16) (node : Nat)
deriving DecidableEq, Repr

/-- A micro-operation by OP (R208, R210). -/
def microExec (op : Nat) (m : Micro) (s : State) : Host.Outcome State Fault Refusal :=
  match op with
  | 1 => execMend m s
  | 2 => execMseta m s
  | 3 => execMadd m s
  | 4 => execMsetc m s
  | 5 => execMloop m s
  | 6 => execMjmp m s
  | 7 => execMlda m s
  | 8 => execMldb m s
  | 9 => execMldsa m s
  | 10 => execMldsw m s
  | 11 => execMlde m s
  | 12 => execMldm m s
  | 13 => execMstr m s
  | 14 => execMzero m s
  | 15 => execMstacc m s
  | 16 => execMldacc m s
  | _ => execMnop m s

/-- Performs an event. -/
def Act.run (a : Act) (s : State) : Host.Outcome State Fault Refusal :=
  match a with
  | .holdExpire port need => execHoldExpire port need s
  | .cbxReloadEnd sid => execCbxReloadEnd sid s
  | .windowAccessPerform c => execWindowAccessPerform c s
  | .resultPush sid => execResultPush sid s
  | .tkpostDeliver sid => execTkpostDeliver sid s
  | .columnPresent ctx => execColumnPresent ctx s
  | .micro op m => microExec op m s
  | .spillWriteComplete sid => execSpillWriteComplete sid s
  | .fillArrive sid => execFillArrive sid s
  | .feedElementArrive ctx port => execFeedElementArrive ctx port s
  | .heldOpRun ctx u => execHeldOpRun ctx u s
  | .slackExhausted sid => execSlackExhausted sid s
  | .stallEnd sid => execStallEnd sid s
  | .agexcuseAck sid => execAgexcuseAck ⟨sid, none⟩ s
  | .retireComplete sid => execRetireComplete sid s
  | .csyncSnapshot sid => execCsyncSnapshot sid s
  | .l2domSwitchDone die dom => execL2domSwitchDone die dom s
  | .fenceComplete sid => execFenceComplete sid s
  | .invalidationApply die stamp => execInvalidationApply die stamp s
  | .heldCallEnqueue ctx e => execHeldCallEnqueue ctx e s
  | .mxeCallStart ctx => execMxeCallStart ctx s
  | .mxloadRun ctx => execMxloadRun ctx s
  | .engineCallComplete ctx e => execEngineCallComplete ctx e s
  | .engineTokenPostDeferred ctx e => execEngineTokenPostDeferred ctx e s
  | .xfuCallStart ctx => execXfuCallStart ctx s
  | .mxeQuiesce ctx => execMxeQuiesce ctx s
  | .xfuQuiesce ctx => execXfuQuiesce ctx s
  | .tagCommandAccept cmd => execTagCommandAccept cmd s
  | .copyChunk cmd => execCopyChunk cmd s
  | .tagCommandComplete cmd => execTagCommandComplete cmd s
  | .catalogueDisarmComplete cmd => execCatalogueDisarmComplete cmd s
  | .readinessNotice n => execReadinessNotice n s
  | .pullRequest p => execPullRequest p s
  | .chunkLand f => execChunkLand f s
  | .parkedChunkWrite num => execParkedChunkWrite num s
  | .localPullFault xfer => execLocalPullFault xfer s
  | .parkedNoticeRelease sid chan grp => execParkedNoticeRelease sid chan grp s
  | .transferIdComplete sid chan id => execTransferIdComplete sid chan id [] s
  | .k2TokenPost sid => execK2TokenPost sid s
  | .chunkRedrive xfer => execChunkRedrive xfer s
  | .mcstReplicaArrive r => execMcstReplicaArrive r s
  | .mcstAckArrive cmd ver => execMcstAckArrive cmd ⟨[], ver⟩ s
  | .contributionArrive c => execContributionArrive c s
  | .agreementTimeout gid => execAgreementTimeout gid s
  | .answerArrive sid slot v status => execAnswerArrive sid slot v ⟨status, none⟩ s
  | .heldStoreDrain sid => execHeldStoreDrain sid s
  | .taskFail sid => execTaskFail sid 0 0 0 s
  | .watchdogFire task => execWatchdogFire task s
  | .unitClaimComplete sid u => execUnitClaimComplete sid u s
  | .taskPlace task => execTaskPlace task s
  | .taskResume task => execTaskResume task s
  | .frameStart => execFrameStart s
  | .noticeResend n => execNoticeResend n s
  | .queueIdleUnmap q => execQueueIdleUnmap q s
  | .signalAck q idx => execSignalAck q idx s
  | .invalAck q => execInvalAck q s
  | .graphStepBegin g => execGraphStepBegin g s
  | .graphNodeComplete g n => execGraphNodeComplete g n s
  | .condNodeRead g n => execCondNodeRead g n s

/-! ### Which strands issue (R29, R38, R39, R46, R147) -/

/-- Whether a trap is held under speculation, so that issue has stopped (R345, R382). -/
def Strand.trapHeld (t : Strand) : Bool := (t.spec.bind (·.trap)).isSome

/-- Whether a request of the strand is still unanswered. -/
def Strand.asking (t : Strand) : Bool := match t.req with | .open _ => true | _ => false

/-- Whether the strand's next bundle lies behind a port that retrains (R314). -/
def Frame.fetchWaits (f : Frame) : Bool :=
  !f.c.seq.issuing && (f.c.buffered f.c.pc).isNone && f.s.vaRoute [.cluster (clusterOf f.t.ptn)] f.c.pc == .wait

/-- Whether a strand may issue in this tile cycle. -/
def State.able (s : State) (t : Strand) : Bool :=
  t.idle == 0 && t.bar.isNone && t.barGo ≤ s.cycle && t.life == .running && t.fail.isNone && !t.trapHeld && !t.asking
    && t.trap.isNone && !t.drainFirst && !t.acq && !s.areaWaits t
    && (match s.task? t.task with
        | none => false
        | some k => k.st == .running && !(s.stopping k && s.stopped t))
    && (match s.frameOf t.sid with | none => false | some f => !f.starved && !f.fetchWaits)

/-- The strands that issue in the next tile cycle. -/
def State.issuers (s : State) : List Nat := (s.strands.filter s.able).map (·.sid)

/-! ### Which events are enabled -/

/-- Whether a unit that a strand waits for may be handed over to it now (R217, R218, R262, R355). -/
def State.claimable (s : State) (t : Strand) (u : TileUnit) : Bool :=
  match t.contexts.find? fun i => (s.wanted t i).contains u with
  | none => false
  | some id => (s.enginesWith t.ptn id u).isSome

/-- The units of a strand that may be handed over now. -/
def State.claimActs (s : State) (t : Strand) : List Act :=
  (((match t.req with | .open (.claim u) => [u] | _ => []) ++ (s.nextWant t).toList).filter (s.claimable t)).map
    (.unitClaimComplete t.sid)

/-- The events of the strands. -/
def State.strandActs (s : State) (t : Strand) : List Act :=
  let running := ((s.task? t.task).map (·.st == .running)).getD false
  List.flatten [
    (match t.req with
    | .open (.fill _) => [.fillArrive t.sid]
    | .open .csync => [.csyncSnapshot t.sid]
    | .open (.fence k _) => if k = 1 ∨ s.acquireReady (dieOf t.ptn) then [.fenceComplete t.sid] else []
    | .open (.excuse rmod _ _) => if rmod = s.modId then [.agexcuseAck t.sid] else []
    | _ => []),
    (if running then s.claimActs t else []),
    (if t.spilling.isEmpty then [] else [.spillWriteComplete t.sid]),
    (if (match s.frameOf t.sid with | some f => f.starved | none => false)
      then (if t.waits.isNone && running then [.slackExhausted t.sid] else [])
      else if t.waits == some .element then [.stallEnd t.sid] else []),
    (if s.drained t then [.retireComplete t.sid] else []),
    (if !t.k2wait.isEmpty && (t.k2Room || t.life != .running) then [.k2TokenPost t.sid] else []),
    (if t.fail.isSome && s.allStopped t.task then [.taskFail t.sid] else [])]

/-- Runs the instruction of a held operation whose turn has come; one that is there no more leaves the context as it
was (R147). -/
def State.runTurn (s : State) (t : Strand) (c : Ctx) (r : Again) : Host.Outcome State Fault Refusal :=
  match (c.heldOf r.rid).bind (·.op) with
  | some (.again i) => exec i { s with turn := t.sid :: s.turn }
  | _ => .next (s.setCtx { c with again := none, seq := r.seq, nextRid := r.nextRid })

/-- Whether a held operation that has what it waits for can act now: one that waits for an agreement or for confirmed stores
stays held (R147, R157, R387). -/
def State.canAct (s : State) (t : Strand) (c : Ctx) (x : Held) : Bool :=
  match x.op with
  | some (.again _) =>
    let s1 := Frame.startAgain ⟨s, t, c⟩ x
    (match s1.ctx? c.id with
      | none => false
      | some c1 => match s1.runTurn t c1 ⟨x.rid, c.seq, c.nextRid⟩ with
        | .next s2 => (match s2.frameOf t.sid with
            | none => true
            | some g => !(g.c.id == c.id && g.c.heldOf x.rid == some x && g.t.spec == t.spec && g.t.fail == t.fail))
        | _ => false)
  | _ => true

/-- Whether an operation out of a unit's buffer is complete, or the oldest held one has what it waits for (R147). -/
def State.heldReady (s : State) (t : Strand) (c : Ctx) (u : UnitName) : Bool :=
  (c.heldDone u s.cycle).isSome || (c.heldOldest u).any fun x => c.elementsHere x && s.canAct t c x

/-- The units in slot order. -/
def allUnits : List UnitName := [.sc, .va, .vb, .en, .ca, .cb, .tr, .ct]

/-- The events of a context's engines and elements. -/
def State.ctxActs (s : State) (c : Ctx) : List Act :=
  List.flatten [
    (if !c.mxe.held.isEmpty && c.mxe.taken < 8 then [.heldCallEnqueue c.id .mxe] else []),
    (if !c.xfu.held.isEmpty && c.xfu.taken < 8 then [.heldCallEnqueue c.id .xfu] else []),
    (match s.mxeHead c with
      | none => []
      | some x => [if x.load.isSome then .mxloadRun c.id else .mxeCallStart c.id]),
    (if (s.xfuHead c).isSome then [.xfuCallStart c.id] else []),
    ([Engine.mxe, Engine.xfu].filterMap fun e => (c.finished e).bind fun x =>
      if !x.posted then some (.engineCallComplete c.id e)
      else if s.tokenRoom c e || s.draining c.id then some (.engineTokenPostDeferred c.id e) else none),
    (if !c.mxe.stop && s.wantsEngine c .mxe && c.mxe.incomplete then [.mxeQuiesce c.id] else []),
    (if !c.xfu.stop && s.wantsEngine c .xfu && c.xfu.incomplete then [.xfuQuiesce c.id] else [])]

/-- The events of a tag command. -/
def State.cmdActs (s : State) (k : Cmd) : List Act :=
  if k.ended then [.tagCommandComplete k.id]
  else if !k.accepted then (if s.activeEntries k.ptn k.engineB < 64 then [.tagCommandAccept k.id] else [])
  else if s.chunkReady k then [.copyChunk k.id]
  else (match k.kind with
    | .catDisarm index => if k.pos = 1 && !s.launchPending index then [.catalogueDisarmComplete k.id] else []
    | .mcst _ _ _ _ =>
      if k.answered then [.mcstAckArrive k.id s.cur.toNat] else []
    | _ => [])

/-- The events of the fabric. -/
def State.fabricActs (s : State) : List Act :=
  List.flatten [
    s.notices.map .readinessNotice, s.refused.map .noticeResend, (s.pulls.filter fun p => !s.pullWaits p).map .pullRequest,
    s.flights.map .chunkLand, s.replicas.map .mcstReplicaArrive,
    (s.parked.filter fun k => k.recorded && k.resolved).map (fun k => .parkedChunkWrite k.num),
    s.xfers.filterMap (fun x => match x.stuck with
      | some k => if k.num.isNone && s.ringRoom then some (.localPullFault x.id) else none
      | none => (match x.redo with
          | c :: _ => if s.mayAsk x c then some (.chunkRedrive x.id) else none
          | [] => none)),
    s.posts.filterMap (fun p =>
      if s.postDone p then some (.transferIdComplete p.sid (Fin.ofNat 16 p.chan) p.id)
      else if p.handed && !s.roundWaits p && s.arrived.any (noticeFor · p) then (match p.work with
        | .coll c => if c.pers then some (.parkedNoticeRelease p.sid (Fin.ofNat 16 p.chan) c.grp) else none
        | .fire _ => none)
      else none)]

/-- The events of the agreements. -/
def State.agreementActs (s : State) : List Act :=
  List.flatten [
    s.contribs.map .contributionArrive,
    (s.roots.filter fun r => r.busy && r.pre.isEmpty && r.left == 0 && (r.first.map (·.tmo)).getD 0 != 0).map
      (fun r => .agreementTimeout r.gid),
    s.answers.map fun a => .answerArrive a.1 a.2.1 a.2.2.1 a.2.2.2]

/-- Whether TASK_PLACE would change anything for the task considered: an acquire may still wait (R282). -/
def State.placeUseful (s : State) (k : Task) : Bool :=
  match s.readHeader k.at_ with
  | .error _ => true
  | .ok h => match s.chooseCluster k.prio h with
    | none => false
    | some c => k.csaMisaligned || (match s.launchSnapshot h with | .error _ => true | .ok _ => false)
        || k.acq < 3 || s.acquireReady (c / 8)

/-- Whether TASK_PLACE would change anything for a Placed task: its victims have stopped, or its tiles are clear. -/
def State.startUseful (s : State) (k : Task) : Bool :=
  k.st == .placed && s.victimsStopped k && (!(s.victimsOf k).isEmpty || s.tilesClear k)

/-- The events of the tasks. -/
def State.taskActs (s : State) : List Act :=
  List.flatten [
    (s.tasks.filter fun k => s.startUseful k || (s.considered k && s.placeUseful k)).map (fun k => .taskPlace k.tid),
    (s.tasks.filter s.mayResume).map (fun k => .taskResume k.tid),
    (s.tasks.filter fun k => k.st == .running && k.wdInt != 0 && k.wdInt * 2000 ≤ k.wdCnt && s.allStopped k.tid).map
      fun k => .watchdogFire k.tid]

/-- The events of a graph slot. -/
def State.graphActs (s : State) (g : Fin 16) : List Act :=
  let x := s.graph g
  match x.run with
  | none => []
  | some r =>
    if !r.begun && !r.over_ && r.failed.isNone then [.graphStepBegin g]
    else ((List.range x.nodes.length).filter (s.nodeReady x r)).map (.graphNodeComplete g)
      ++ ((List.range x.nodes.length).filter fun n =>
          r.fired.contains n && (x.node n).kind == 2 && !r.worked.contains n && s.gsqAcquires (x.node n) r).map (.condNodeRead g)

/-- The events of the queues. -/
def State.queueActs (s : State) : List Act :=
  (s.queues.map fun x =>
    (x.started.filter (·.isType 3)).map (fun p => Act.signalAck x.q p.idx)
    ++ (if s.invalReady x.q then [Act.invalAck x.q] else [])).flatten

/-- The events of the dies' memory. -/
def State.dieActs (s : State) : List Act :=
  ((List.range 8).map fun d =>
    (match (s.dieClock d).inv.find? (s.dieClock d).appliable with
      | some x => [Act.invalidationApply d x]
      | none => [])
    ++ ((List.finRange 16).filter fun n => vget (vget s.dies d resetDie).busy n.val false).map (Act.l2domSwitchDone d)).flatten

/-- The micro-operation of the context whose turn it is (R207). -/
def State.microActs (s : State) : List Act :=
  match s.mxFrame with
  | none => []
  | some f =>
    let w := storeWord (s.tileOf f.c.id) f.c.mxe f.r.upc
    if fld w 58 6 ≤ 16 then [.micro (fld w 58 6) (microFields w)] else []

/-- The events that take a tile cycle of the device each. -/
def State.freeActs (s : State) : List Act :=
  List.flatten [(s.strands.map s.strandActs).flatten, (s.ctxs.map s.ctxActs).flatten, (s.cmds.map s.cmdActs).flatten,
    s.fabricActs, s.agreementActs, s.taskActs, s.queueActs, s.dieActs]

/-- The strand that issues in a context, while its task is Running. -/
def State.runner? (s : State) (c : Ctx) : Option Strand :=
  (s.owner? c.id).bind fun t => if t.cur == c.id && (s.task? t.task).any (·.st == .running) then some t else none

/-- The elements and held operations of a context that are due (R144, R147, R148, R183). -/
def State.dueElements (s : State) (c : Ctx) : List Act :=
  match s.runner? c with
  | none => []
  | some t =>
    ((List.finRange 8).filter fun p => s.feedReady c (vget c.feeds p.val Feed.start)).map (Act.feedElementArrive c.id)
      ++ (if c.held.isEmpty then [] else (allUnits.filter (s.heldReady t c)).map (Act.heldOpRun c.id))

/-- Whether a confirmed store of a strand is to be performed now (R387). -/
def State.drainDue (s : State) (t : Strand) : Bool :=
  !t.drain.isEmpty && !t.acq && t.drainGo ≤ s.cycle && (s.task? t.task).any (·.st == .running)

/-- The events that are due at the end of a tile cycle, before the next (R64, R73, R131, R146 to R148, R183, R187, R317, R333,
R387). -/
def State.dueActs (s : State) : List Act :=
  List.flatten [
    (s.strands.filter fun t => match s.frameOf t.sid with | some f => !f.c.duePushes.isEmpty | none => false).map
      (fun t => .resultPush t.sid),
    (s.win.filter fun a => a.due ≤ s.cycle).map (fun a => .windowAccessPerform a.cluster),
    (s.strands.filter fun t => (s.duePost t).isSome).map (fun t => .tkpostDeliver t.sid),
    (s.ctxs.filter fun c => c.blocks.any s.columnDue).map (fun c => .columnPresent c.id),
    (s.strands.filter fun t => t.cbxTill != 0 && t.cbxTill ≤ s.cycle).map (fun t => .cbxReloadEnd t.sid),
    (s.ctxs.map s.dueElements).flatten,
    (s.strands.filter s.drainDue).map (fun t => .heldStoreDrain t.sid),
    (s.queues.filter fun x => x.mapped.isSome && x.quiet && decide (16 ≤ x.idle)).map (fun x => .queueIdleUnmap x.q),
    ((List.finRange 64).filter fun k => (vget s.optical k.val resetPort).holdOver s.cycle).map fun k =>
      .holdExpire k (Config.monitorNeed k.val s.cycle)]

/-- Begins a search of a list at a place, wrapping. -/
def startAt {α : Type} (l : List α) (n : Nat) : List α := l.drop n ++ l.take n

/-- What the graph sequencer does next, in the frame's service phase, one event in each cycle of the command core (R332). -/
def State.gsqAct (s : State) : Option Act :=
  if s.inService && s.gsqAt ≤ s.cycle then
    let l := ((List.finRange 16).map s.graphActs).flatten
    (startAt l (s.cycle / 2 % (l.length + 1))).head?.or l.head?
  else none

/-- The one event of a tile cycle: the MXE's in even cycles where there is one, else the enabled one that the cycle's
number picks, so that none waits for ever. -/
def State.pickAct (s : State) : Option Act :=
  let l := s.freeActs
  let rest := (startAt l (s.cycle / 2 % (l.length + 1))).head?.or l.head?
  if s.cycle % 2 = 0 then s.microActs.head?.or rest else rest.or s.microActs.head?

/-! ### The end of a tile cycle -/

/-- Whether a task's watchdog is paused: a strand is stopped at an agreement on a slot that reads PM (R367). -/
def State.watchdogPaused (s : State) (k : Task) : Bool :=
  (s.taskStrands k.tid).any fun t => t.waits == some .agreement && (match t.spec with
    | some p => (t.agSlot p.slot).pm
    | none => false)

/-- Counts a task's Running time (R367). -/
def State.countWatchdog (s : State) (k : Task) : Task :=
  if k.st == .running && k.wdInt != 0 && !s.watchdogPaused k then { k with wdCnt := k.wdCnt + 1 } else k

/-- Counts a round's timeout (R381). -/
def AgRoot.countDown (r : AgRoot) : AgRoot := if r.busy && r.pre.isEmpty then { r with left := r.left - 1 } else r

/-- The context whose MXE runs next, in turn. -/
def State.nextMx (s : State) : Nat :=
  let l := (s.ctxs.filter fun c => c.mxe.run.isSome && !c.mxe.stop).map (·.id)
  ((l.filter (s.mxTurn < ·)).head?.or l.head?).getD 0

/-- A context whose strand has ended its issue: its results in flight go on to their pushes (R44, R73). -/
def State.drainPipe (s : State) (c : Ctx) : Ctx :=
  if !c.flying.isEmpty && (s.owner? c.id).any (fun t => t.cur == c.id && t.life == .draining) then { c with icyc := c.icyc + 1 }
  else c

/-- An answer's acquire is over once the strand's die has applied what it must (R282, R283). -/
def State.endAcquire (s : State) (t : Strand) : Strand :=
  if t.acq && s.acquireReady (dieOf t.ptn) then { t with acq := false } else t

/-- A stall cycle owed has passed. -/
def Strand.countIdle (t : Strand) : Strand := { t with idle := t.idle - 1 }

/-- A soft-error counter after one more error: corrected ones in the low half, uncorrectable ones in the high half, each
saturating (R370). -/
def countSoft (w : Word) (bad : Bool) : Word :=
  let inc (n : Nat) : Nat := min (n + 1) (2 ^ 32 - 1)
  if bad then BitVec.ofNat 64 (inc (fld w 32 32) * 2 ^ 32 + fld w 0 32) else BitVec.ofNat 64 (fld w 32 32 * 2 ^ 32 + inc (fld w 0 32))

/-- The soft-error counter that counts an error: that of the byte's block, or of the context's tile (R370). -/
def State.struckBlock (s : State) : Struck → Nat
  | .byte k => Config.softBlock k
  | .sram id _ => Config.tileBlock (((s.owner? id).map (·.ptn)).getD 0)

/-- What an uncorrectable error leaves: data that no later read can correct (R369, R371). -/
def State.spoil (s : State) : Struck → State
  | .byte k => if s.ecc.contains k then s else { s with ecc := k :: s.ecc }
  | .sram id (.micro i) =>
    let r := s.tileOf id
    if i < 1024 then s.setTile { r with fw := { r.fw with bad := i :: r.fw.bad.erase i } }
    else { s with ctxs := updateIf s.ctxs (·.id == id) fun c =>
      { c with mxe := { c.mxe with store := { c.mxe.store with bad := i :: c.mxe.store.bad.erase i } } } }
  | .sram id x => { s with ctxs := updateIf s.ctxs (·.id == id) fun c => { c with bad := x :: c.bad.erase x } }

/-- A soft error that has struck: one that is corrected changes no value, and either is counted and reported
(R320, R369, R370, notes/assumptions/49.md). -/
def State.softError (s : State) (x : Struck × Bool) : State :=
  let i := s.struckBlock x.1
  let s := if x.2 then s.spoil x.1 else s
  ({ s with softErr := insertKey s.softErr i (countSoft (lookupD s.softErr i 0) x.2) } : State).tellHost (.error (!x.2))

/-- Every soft error that has struck in the cycle. -/
def State.softErrors (s : State) : State := s.struck.foldl State.softError { s with struck := [] }

/-- The dies' reports, one die in each of the first eight cycles of every 250 ns (R33). -/
def State.dieReports (s : State) : State := if s.cycle % 500 < 8 then s.reportDie (s.cycle % 500) else s

/-- The end of a tile cycle: register writes of the cycle take effect, soft errors are counted, the dies report, packets leave
by ports that are Up again, time advances, stalls run down, and the next cycle's strands get their turn. -/
def State.tick (s : State) : State :=
  let s := s.endLates.softErrors.dieReports
  let s := if s.departing.isEmpty then s else s.depart
  let s : State := { s with
    cycle := s.cycle + 1
    strands := s.strands.map s.endAcquire
    moved := false
    mxTurn := s.nextMx
    tasks := s.tasks.map s.countWatchdog
    roots := s.roots.map AgRoot.countDown
    ctxs := s.ctxs.map s.drainPipe }
  let l := s.issuers
  { s with turn := l, strands := s.strands.map Strand.countIdle }

/-- Whether the oldest management request is served now: in its phase of the frame, and not while a record that a queue would
write first waits for a port (R314, R329, R332). -/
def State.requestDue (s : State) : Bool :=
  !s.requests.isEmpty && s.inManagement && !s.queues.any fun x => !x.held.isEmpty && s.ringStands x.q

/-- Serves the oldest management request (R332). -/
def State.serveRequest (s : State) : Host.Outcome State Fault Refusal :=
  match s.requests with
  | i :: l => exec i { s with requests := l }
  | [] => s.event

/-- What happens when no strand has the turn: what is due, the command core's frame, each microsecond at the nominal tile
clock, its records and graphs in the service phase, management requests after it, another event of the device, then the cycle's end (R332). -/
def State.idleStep (s : State) : Host.Outcome State Fault Refusal :=
  match s.dueActs with
  | a :: _ => a.run s
  | [] =>
    if s.frameDue then Act.frameStart.run s
    else if s.partDue then .next s.framePart
    else if s.inService && s.dues.any s.dueReady then .next s.writeDues
    else if s.requestDue then s.serveRequest
    else match s.gsqAct with
      | some a => a.run { s with gsqAt := s.cycle + 2 }
      | none =>
        if s.moved then .next s.tick
        else match s.pickAct with
          | some a => a.run s
          | none => .next s.tick

/-! ### The strand whose turn it is -/

/-- Takes a strand's turn away. -/
def State.pass (s : State) (sid : Nat) : State := { s with turn := s.turn.filter (· != sid) }

/-- The slot instruction at which a strand stands, when it stands in a bundle. -/
def Frame.slotInstr (f : Frame) : Option Instr := Sys2Proof.Machine.slotInstr f.c.seq.block f.c.seq.slot

/-- A strand issues: a bundle at a bundle boundary, else its slot; a slot that no unit has traps (R50, R67, R76). -/
def State.issue (s : State) (f : Frame) : Host.Outcome State Fault Refusal :=
  if !f.c.seq.issuing then exec .bundleIssue s
  else match f.slotInstr with
    | some i => exec i s
    | none => .next (takeTrap f ⟨Cause.illenc.code, 0, 0, 0, 0, none⟩ false)

/-! ### A group that waits (R38, R39, R353, R355) -/

/-- Whether a strand stands at the first slot that its group has still to issue. -/
def Frame.atGroup (f : Frame) : Bool := f.c.seq.issuing && (f.c.seq.fresh || f.c.seq.resumed)

/-- Whether the group has a slot after this one that is no NOP (R52, R68). -/
def Frame.groupGoesOn (f : Frame) : Bool :=
  let i := f.c.seq.slot
  (rangeFrom (i + 1) (7 - i)).any fun j =>
    (slotWord f.c.seq.block j).toNat % 2 ^ 23 != 0 && (rangeFrom i (j - i)).all fun k => !bit (slotWord f.c.seq.block k) 23

/-- Whether a unit that a slot touches might be another's or away (R355). -/
def Frame.contended (f : Frame) : Bool :=
  !f.c.away.isEmpty || !f.windowResident || (f.s.tile f.t.ptn).owners.any fun o => o.2 != f.c.id && f.s.liveCtx o.2

/-- A state in which a strand has a unit at hand, with no regard to who held it: used to find what else its group touches. -/
def State.granted (s : State) (f : Frame) (u : TileUnit) : State :=
  let r := s.tile f.t.ptn
  let d := f.c.depth
  let c := { f.c with
    away := f.c.away.filter (·.unit != u)
    lo := (match u with | .bank _ => min f.c.lo d | _ => f.c.lo)
    hi := (match u with | .bank _ => d + 1 | _ => f.c.hi) }
  ((s.setTile { r with owners := (u, c.id) :: r.owners.filter (·.1 != u) }).setCtx c).setStrand { f.t with req := .none }

/-- What a group would stop at: the units that it must first be handed, and the state in which a slot of it waits. -/
structure GroupStops where
  units : List TileUnit
  waits : Option State

/-- Tries the slots of a group one after another, from the one at which its strand stands: a slot that waits for a unit is
tried as if the unit were at hand, one that stalls is passed over, and a wait of R38 ends the search. -/
def State.tryGroup (sid : Nat) : Nat → List TileUnit → State → GroupStops
  | 0, us, _ => ⟨us, none⟩
  | n + 1, us, s => match s.frameOf sid with
    | none => ⟨us, none⟩
    | some f => match f.slotInstr with
      | none => ⟨us, none⟩
      | some i => match exec i s with
        | .next t => (match t.frameOf sid with
          | none => ⟨us, none⟩
          | some g =>
            if g.c.id != f.c.id || !g.c.seq.issuing || g.c.icyc != f.c.icyc || g.t.trapHeld || g.t.fail.isSome then ⟨us, none⟩
            else if g.c.seq.slot != f.c.seq.slot then State.tryGroup sid n us t
            else match g.t.req, g.t.waits with
              | .open (.claim u), _ => State.tryGroup sid n (u :: us) (s.granted f u)
              | _, some w =>
                if w.isStall then
                  State.tryGroup sid n us (s.setCtx { f.c with seq := { f.c.seq with skip := some f.c.seq.slot } })
                else ⟨us, some t⟩
              | _, none => ⟨us, none⟩)
        | _ => ⟨us, none⟩

/-- The group of a strand that waits leaves everything as it was but the wait and what it has asked for: a unit, the first in
the table's order, or what one of its slots waits for (R39, R353, R355). -/
def Frame.groupHolds (f : Frame) : Option State :=
  if !(f.atGroup && (f.groupGoesOn || f.contended)) then none
  else
    let x := State.tryGroup f.t.sid 256 [] f.s
    let away := f.s.pass f.t.sid
    match sortBy (fun u v => unitRank u ≤ unitRank v) x.units with
    | u :: _ => some (away.setStrand { f.t with req := .open (.claim u) })
    | [] => x.waits.map fun t =>
      let g := (t.strand? f.t.sid).getD f.t
      { away with outbox := t.outbox, departing := t.departing }.setStrand { f.t with waits := g.waits, req := g.req }

/-- What the strand at the head of the turn does: one that cannot issue passes, and a group that would wait does not issue
(R39). -/
def State.turnStep (s : State) (sid : Nat) : Host.Outcome State Fault Refusal :=
  match s.frameOf sid with
  | none => .next (s.pass sid)
  | some f =>
    if !s.able f.t then .next (s.pass sid)
    else match f.groupHolds with
      | some t => .next t
      | none => s.issue f

/-- The context in which a held operation has its turn (R147). -/
def State.turnCtx (s : State) : Option (Strand × Ctx × Again) :=
  s.ctxs.findSome? fun c => c.again.bind fun r => (s.owner? c.id).map fun t => (t, c, r)

/-- Whether an event is a request to the management aperture, which the command core serves (R332). -/
def isRequest : Instr → Bool
  | .queueRegister _ _ _ | .queueUnregister _ _ | .queueHalt _ _ | .queueResume _ _ | .rdidxWrite _ _ | .registerWrite _ _
  | .groupMemberWrite _ _ _ | .groupHeaderWrite _ _ | .routingEntryWrite _ _ _ | .rtctlStage _ | .topologySwap _
  | .ptrootWrite _ | .fltbaseWrite _ | .fltrdWrite _ | .fltrespResolve _ | .fltrespRefuse _ | .iclampWrite _
  | .attestNonceWrite _ => true
  | .hostMemoryAccess place _ => place.bar == .bar2
  | _ => false

/-- What the module does next: an event from outside, but for a management request before its time (R332), a held operation whose turn has come, the strand whose turn it is, or
what the device does by itself. -/
def State.nextStep (s : State) : Host.Outcome State Fault Refusal :=
  match s.turnCtx with
  | some (t, c, r) => s.runTurn t c r
  | none => match s.agenda with
    | i :: l =>
      if isRequest i && !(s.inManagement && s.requests.isEmpty) then .next { s with agenda := l, requests := s.requests ++ [i] }
      else exec i { s with agenda := l }
    | [] => match s.turn with
      | sid :: _ => s.turnStep sid
      | [] => s.idleStep

end Sys2Proof.Machine
end

