-- ==== Sys2Proof/Machine/Load.lean ====
section
/-! DEFINITION. Placing one instruction where the next step runs it. A word of the opcode table is no whole bundle
and comes with no task around it, so the placement stands for the load that packets, headers and code in memory make
(notes/assumptions/15.md). -/

namespace Sys2Proof.Machine

/-- A header that asks for nothing and gives nothing: its words are all zero. -/
def Header.zero : Header := ⟨0, 0, 0, 0, false, false, false, 0, 0, 0, 0, false, 0⟩

/-- A Running task with nothing in its launch context. -/
def Task.zero (tid : Nat) : Task :=
  ⟨tid, 0, .packet 0 0, 0, some Header.zero, none, 0, 0, 0, Vector.replicate 4 0, 0, 0, 0, false, 0, .running, 0, 0, [], [],
    0, 0, 0⟩

/-- The strand, at its start, that runs a placed instruction, with its context (R31). -/
def State.placedStrand (s : State) : Strand × Ctx :=
  Strand.start (Task.zero (s.freeTid s.tasks.length s.nextTid)) Header.zero [] false s.nextId s.nextId 0 0 s.cycle

/-- The task of the placed strand. -/
def State.placedTask (s : State) : Task :=
  { Task.zero (s.freeTid s.tasks.length s.nextTid) with sids := [s.nextId] }

/-- A bundle whose slot `u` holds a word, with its IM bit; every other slot is NOP (R52). -/
def bundleWith (u : UnitName) (im : Bool) (w : SlotWord) : Block :=
  BitVec.ofNat 256 (2 ^ 255 + im.toNat * 2 ^ (192 + u.code) + w.toNat * 2 ^ (24 * u.code))

/-- The sequencer standing at slot `u` of an opened bundle. -/
def Seq.atSlot (u : UnitName) (im : Bool) (w : SlotWord) : Seq :=
  { Seq.start with
    issuing := true
    block := bundleWith u im w
    slot := u.code }

/-- Places a slot word: a strand at its start stands at the slot and has the turn. -/
def State.placeSlot (s : State) (u : UnitName) (im : Bool) (w : SlotWord) : State :=
  let p := s.placedStrand
  { s with
    agenda := []
    turn := [p.1.sid]
    nextId := s.nextId + 1
    tasks := s.placedTask :: s.tasks
    strands := p.1 :: s.strands
    ctxs := { p.2 with seq := Seq.atSlot u im w } :: s.ctxs }

/-- A running call of a routine whose whole code is one loaded word, store word 1024 (R205, R207). -/
def placedCall : MxRun := MxRun.start ⟨0, 64, Vector.replicate 8 0, none, 0⟩ ⟨true, 1024, 2, 8, 8⟩

/-- Places a micro-word: the module holds one strand, whose MXE runs the call that stands at the word, in a cycle in
which nothing else is due. -/
def State.placeMicro (s : State) (w : Word) : State :=
  let p := s.placedStrand
  let mxe := { Mxe.start with store := ⟨[(1024, w)], [], [], []⟩, run := some placedCall }
  { s with
    agenda := []
    turn := []
    moved := false
    mxTurn := s.nextId
    nextId := s.nextId + 1
    cycle := 2 * (s.cycle / 2 + 1)
    frames := s.frames + 1
    frameAt := 2 * (s.cycle / 2 + 1)
    part := 73
    dues := []
    queues := []
    win := []
    tasks := [s.placedTask]
    strands := [p.1]
    ctxs := [{ p.2 with mxe := mxe }] }

/-- Places a word of the opcode table. -/
def State.placeWord (s : State) (nbits w : Nat) : State :=
  if nbits = 24 then
    let n := w % 2 ^ 24
    s.placeSlot (tableSlot n).1 (tableSlot n).2 (BitVec.ofNat 24 n)
  else if nbits = 64 then s.placeMicro (BitVec.ofNat 64 w)
  else s

end Sys2Proof.Machine
end

