-- ==== Sys2Proof/Machine/Step.lean ====
section
/-! DEFINITION. One step of the module, and the placement of one instruction for it. -/

namespace Sys2Proof.Machine

/-- One step of the module: an event from outside, what the strand whose turn it is does next, or what the device
does by itself (notes/assumptions/3.md). -/
def step (s : State) : Host.Outcome State Fault Refusal := s.nextStep

/-- The state with one word of the opcode table placed where the next step runs it (notes/assumptions/15.md). -/
def State.withFetchWord (s : State) (nbits w : Nat) : State := s.placeWord nbits w

end Sys2Proof.Machine
end

