-- ==== Sys2Proof/WellFormed.lean ====
section
/-! DEFINITION. Which instructions are well formed: the element formats that R80 allows, the micro-words that R211
lets a routine hold, and the ranges of what an event names. -/

namespace Sys2Proof

/-- A member's module and tile exist (R5). -/
def Member.wf (m : Member) : Bool := decide (m.modu < 2304) && decide (m.ptn < 1024)

/-- A queue number (R323). -/
def queueWf (q : Nat) : Bool := decide (q < 4096)

/-- A micro-word that a routine may hold, as far as the word itself says (R211). -/
def microWf (op : Nat) (m : Micro) : Bool :=
  let x := Machine.microBits (encodeMicro op m)
  !x.stray && !x.badPitch && !((op == 4 || op == 5) && decide (3 < x.j)) && !(op == 10 && !x.p && decide (95 < x.imm))

/-- Whether an instruction is well formed (R5, R80, R211, R289, R323). -/
def Instr.wf : Instr → Bool
  | .nop _ => true
  | .moveOperandPort _ _ _ _ => true
  | .moveScalar _ _ _ => true
  | .moveVector _ _ _ => true
  | .movePredicate _ _ _ => true
  | .moveLc _ _ _ => true
  | .moveLb _ _ _ => true
  | .moveSlk _ _ => true
  | .moveCbx _ _ => true
  | .immBindBInt _ _ => true
  | .immBindCInt _ _ => true
  | .immBindBF32 _ _ => true
  | .immBindCF32 _ _ => true
  | .immBindBF64 _ _ => true
  | .immBindCF64 _ _ => true
  | .immSetLb _ _ => true
  | .add _ _ => true
  | .sub _ _ => true
  | .and _ _ => true
  | .or _ _ => true
  | .xor _ _ => true
  | .andn _ _ => true
  | .shl _ _ => true
  | .shr _ _ => true
  | .sar _ _ => true
  | .mul _ _ => true
  | .mulh _ _ => true
  | .mulhu _ _ => true
  | .div _ _ => true
  | .divu _ _ => true
  | .rem _ _ => true
  | .remu _ _ => true
  | .min _ _ => true
  | .minu _ _ => true
  | .max _ _ => true
  | .maxu _ _ => true
  | .clz _ _ => true
  | .ctz _ _ => true
  | .popc _ _ => true
  | .sext _ _ => true
  | .zext _ _ => true
  | .lea _ _ => true
  | .bfx _ _ => true
  | .bfi _ _ => true
  | .cmpeq _ _ => true
  | .cmpne _ _ => true
  | .cmplt _ _ => true
  | .cmple _ _ => true
  | .cmpltu _ _ => true
  | .cmpleu _ _ => true
  | .fcmpeq _ _ => true
  | .fcmplt _ _ => true
  | .fcmple _ _ => true
  | .fcmpun _ _ => true
  | .fadd _ _ => true
  | .fsub _ _ => true
  | .fmul _ _ => true
  | .ffma _ _ => true
  | .fdiv _ _ => true
  | .fsqrt _ _ => true
  | .fmin _ _ => true
  | .fmax _ _ => true
  | .fabs _ _ => true
  | .fneg _ _ => true
  | .fcvtI64 _ _ => true
  | .fcvtF64 _ _ => true
  | .ldb _ _ => true
  | .ldbu _ _ => true
  | .ldh _ _ => true
  | .ldhu _ _ => true
  | .ldw _ _ => true
  | .ldwu _ _ => true
  | .ldd _ _ => true
  | .stb _ _ => true
  | .sth _ _ => true
  | .stw _ _ => true
  | .std _ _ => true
  | .ldwCl _ _ => true
  | .lddCl _ _ => true
  | .stwCl _ _ => true
  | .stdCl _ _ => true
  | .aadd _ _ => true
  | .aand _ _ => true
  | .aor _ _ => true
  | .axor _ _ => true
  | .amin _ _ => true
  | .amax _ _ => true
  | .aswap _ _ => true
  | .acas _ _ => true
  | .aaddCl _ _ => true
  | .aandCl _ _ => true
  | .aorCl _ _ => true
  | .axorCl _ _ => true
  | .aminCl _ _ => true
  | .amaxCl _ _ => true
  | .aswapCl _ _ => true
  | .acasCl _ _ => true
  | .cld _ _ => true
  | .jmp _ _ => true
  | .jmpr _ _ => true
  | .call _ _ => true
  | .callr _ _ => true
  | .ret _ _ => true
  | .loop _ _ => true
  | .loopx _ _ => true
  | .nest _ _ => true
  | .slack _ _ => true
  | .bar _ _ => true
  | .tkpost _ _ => true
  | .cbr _ _ => true
  | .agjoin _ _ => true
  | .agleave _ _ => true
  | .agexcuse _ _ => true
  | .heart _ => true
  | .retire _ => true
  | .csync _ => true
  | .tret _ => true
  | .rdsr _ _ => true
  | .wrsr _ _ => true
  | .fenceAcq _ _ => true
  | .fenceRel _ _ => true
  | .fenceAr _ _ => true
  | .fenceScDevice _ => true
  | .fenceScDomain _ => true
  | .addF _ e _ => decide (e ≠ .f64)
  | .subF _ _ _ => true
  | .mulF _ _ _ => true
  | .fmaF _ _ _ => true
  | .fmsF _ _ _ => true
  | .fnmaF _ _ _ => true
  | .minF _ _ _ => true
  | .maxF _ _ _ => true
  | .divF _ e _ => e == .f64 || e == .f32
  | .sqrtF _ e _ => e == .f64 || e == .f32
  | .absF _ _ _ => true
  | .negF _ _ _ => true
  | .cmpeqF _ _ _ => true
  | .cmpltF _ _ _ => true
  | .cmpleF _ _ _ => true
  | .cmpunF _ _ _ => true
  | .iadd _ _ _ => true
  | .isub _ _ _ => true
  | .iadds _ _ _ => true
  | .iaddsu _ _ _ => true
  | .isubs _ _ _ => true
  | .isubsu _ _ _ => true
  | .imul _ _ _ => true
  | .imulh _ _ _ => true
  | .imulhu _ _ _ => true
  | .imin _ _ _ => true
  | .iminu _ _ _ => true
  | .imax _ _ _ => true
  | .imaxu _ _ _ => true
  | .vecAnd _ _ _ => true
  | .vecOr _ _ _ => true
  | .vecXor _ _ _ => true
  | .vecAndn _ _ _ => true
  | .vecShl _ _ _ => true
  | .vecShr _ _ _ => true
  | .vecSar _ _ _ => true
  | .icmpeq _ _ _ => true
  | .icmplt _ _ _ => true
  | .icmpltu _ _ _ => true
  | .iabs _ _ _ => true
  | .vecPopc _ _ _ => true
  | .vecClz _ _ _ => true
  | .cvt _ _ _ => true
  | .cvtsc _ t _ => t.scaled
  | .cvtsr _ t _ => t.stochastic
  | .redadd _ _ => true
  | .redmax _ _ => true
  | .redmin _ _ => true
  | .vmaxi _ _ => true
  | .vmini _ _ => true
  | .perm _ _ => true
  | .bcast _ _ => true
  | .sel _ _ => true
  | .vld _ _ => true
  | .vst _ _ => true
  | .vldt _ _ => true
  | .vldCl _ _ => true
  | .vstCl _ _ => true
  | .gath _ _ => true
  | .scat _ _ => true
  | .fpset _ _ => true
  | .fpflush _ _ => true
  | .trowE8 _ _ => true
  | .trowE16 _ _ => true
  | .trowE32 _ _ => true
  | .trowE64 _ _ => true
  | .tdrain _ => true
  | .tclr _ => true
  | .mpset _ _ _ => true
  | .mpget _ _ => true
  | .mxload _ _ => true
  | .mxq _ => true
  | .xplan _ _ => true
  | .xfft _ _ => true
  | .xffti _ _ => true
  | .xlegf _ _ => true
  | .xlegi _ _ => true
  | .xshtf _ _ => true
  | .xshti _ _ => true
  | .mxcall _ _ _ => true
  | .cpyN _ _ => true
  | .cpyNd _ _ => true
  | .ceGath _ _ => true
  | .ceScat _ _ => true
  | .accLd _ _ => true
  | .accSt _ _ => true
  | .gaAdd _ _ => true
  | .gaAnd _ _ => true
  | .gaOr _ _ => true
  | .gaXor _ _ => true
  | .gaMin _ _ => true
  | .gaMax _ _ => true
  | .gaSwap _ _ => true
  | .gaCas _ _ => true
  | .mcst _ _ => true
  | .wbr _ _ => true
  | .invr _ _ => true
  | .pref _ _ => true
  | .waitany _ _ => true
  | .waitall _ _ => true
  | .ffr _ _ => true
  | .clrtag _ _ => true
  | .bcInit _ _ => true
  | .arriveExp _ _ => true
  | .bcSub _ _ => true
  | .bcWait _ _ => true
  | .xcoll _ _ => true
  | .ttready _ _ => true
  | .catArm _ _ => true
  | .catDisarm _ _ => true
  | .waitid _ _ => true
  | .mnop m => microWf 0 m
  | .mend m => microWf 1 m
  | .mseta m => microWf 2 m
  | .madd m => microWf 3 m
  | .msetc m => microWf 4 m
  | .mloop m => microWf 5 m
  | .mjmp m => microWf 6 m
  | .mlda m => microWf 7 m
  | .mldb m => microWf 8 m
  | .mldsa m => microWf 9 m
  | .mldsw m => microWf 10 m
  | .mlde m => microWf 11 m
  | .mldm m => microWf 12 m
  | .mstr m => microWf 13 m
  | .mzero m => microWf 14 m
  | .mstacc m => microWf 15 m
  | .mldacc m => microWf 16 m
  | .bundleIssue => true
  | .cbxReloadEnd _ => true
  | .windowAccessPerform c => decide (c < 64)
  | .resultPush _ => true
  | .spillWriteComplete _ => true
  | .fillArrive _ => true
  | .feedElementArrive _ _ => true
  | .heldOpRun _ _ => true
  | .slackExhausted _ => true
  | .stallEnd _ => true
  | .tkpostDeliver _ => true
  | .agexcuseAck _ => true
  | .retireComplete _ => true
  | .csyncSnapshot _ => true
  | .l2domSwitchDone d _ => decide (d < 8)
  | .replayResponse _ => true
  | .fenceComplete _ => true
  | .invalidationApply d x => decide (d < 12) && x.length == 12
  | .columnPresent _ => true
  | .heldCallEnqueue _ _ => true
  | .mxeCallStart _ => true
  | .mxloadRun _ => true
  | .engineCallComplete _ _ => true
  | .engineTokenPostDeferred _ _ => true
  | .xfuCallStart _ => true
  | .mxeQuiesce _ => true
  | .xfuQuiesce _ => true
  | .tagCommandAccept _ => true
  | .copyChunk _ => true
  | .tagCommandComplete _ => true
  | .catalogueDisarmComplete _ => true
  | .counterArrival _ b _ => decide (b < 0x200000) && b % 8 == 0
  | .readinessNotice n => n.dest.wf && n.frm.wf
  | .pullRequest p => p.dest.wf && p.frm.wf
  | .chunkLand f => f.dest.wf
  | .parkedChunkWrite _ => true
  | .localPullFault _ => true
  | .parkingSpaceFree _ => true
  | .parkedNoticeRelease _ _ _ => true
  | .transferIdComplete _ _ _ _ => true
  | .k2TokenPost _ => true
  | .staleRefuse _ => true
  | .chunkRedrive _ => true
  | .noticeResend n => n.dest.wf && n.frm.wf
  | .mcstReplicaArrive r => r.dest ≤ 2303 && (r.members.all fun m => m.1 < 512 && m.2 < 1024) && r.port < 64 && r.line.length == 256
  | .mcstAckArrive _ _ => true
  | .circuitChange _ => true
  | .linkRetrained _ => true
  | .retrainTimeout _ => true
  | .linkFail _ => true
  | .packetTrainStart _ _ => true
  | .errorMonitorRaise _ _ => true
  | .holdExpire _ _ => true
  | .contributionArrive c => decide (c.gid < 2 ^ 24) && decide (c.midx < c.count)
  | .agreementTimeout g => decide (g < 2 ^ 24)
  | .answerArrive _ _ _ st => decide (st.status < 8)
  | .heldStoreDrain _ => true
  | .leaveNotice g _ _ => decide (g.gid < 2 ^ 24)
  | .preemptedNotice g _ => decide (g < 2 ^ 24)
  | .resumeNotice g _ => decide (g < 2 ^ 24)
  | .taskFail _ c u _ => decide (c < 256) && decide (u < 256)
  | .watchdogFire k => decide (k < 2 ^ 20)
  | .unitClaimComplete _ _ => true
  | .dieReport d => decide (d < 8)
  | .taskPlace k => decide (k < 2 ^ 20)
  | .taskResume k => decide (k < 2 ^ 20)
  | .frameStart => true
  | .queueIdleUnmap q => queueWf q
  | .signalAck q _ => queueWf q
  | .invalAck q => queueWf q
  | .graphStepBegin _ => true
  | .graphNodeComplete _ n => decide (n < 4096)
  | .condNodeRead _ n => decide (n < 4096)
  | .notifyWrite q _ => queueWf q
  | .crdidxWrite q _ => queueWf q
  | .queueRegister q _ _ => queueWf q
  | .queueUnregister q _ => queueWf q
  | .queueHalt q _ => queueWf q
  | .queueResume q _ => queueWf q
  | .rdidxWrite q _ => queueWf q
  | .hostMemoryAccess x _ => decide (x.off < (match x.bar with | .bar0 => 2 ^ 16 | .bar2 => 2 ^ 24 | .bar4 => 2 ^ 40))
  | .groupMemberWrite g m _ => decide (g < 4096) && decide (m < 512)
  | .groupHeaderWrite g _ => decide (g < 4096)
  | .routingEntryWrite m _ _ => decide (m < 2304)
  | .rtctlStage _ => true
  | .topologySwap _ => true
  | .ptrootWrite _ => true
  | .fltbaseWrite _ => true
  | .fltrespResolve _ => true
  | .fltrespRefuse _ => true
  | .iclampWrite _ => true
  | .attestNonceWrite _ => true
  | .registerWrite o _ => decide (o < 2 ^ 24) && o % 8 == 0
  | .currentClampReached => true
  | .clockRecoverStep => true
  | .functionLevelReset => true
  | .moduleReset _ _ _ => true
  | .pcieLinkTrain _ w => decide (w ≤ 16)
  | .fltrdWrite _ => true
  | .scalarBankRetire t _ => decide (t < 1024)
  | .opticalBudgetChange _ _ => true
  | .portDisable _ => true

end Sys2Proof
end

