-- ==== Sys2Proof/Safety.lean ====
section
/-! DEFINITION. What counts as a safe run, and the terms that statements are made in: when a slot runs, when its
operands are delivered, and what an instruction leaves alone. -/

namespace Sys2Proof.Machine

/-- Memory is in its canonical form. -/
def State.Canonical (s : State) : Prop := Memory.wf s.mem = true

/-- A step goes on: it answers a next state. -/
def Goes (s t : State) : Prop := step s = .next t

/-- A step neither faults nor is refused. -/
def Safe (s : State) : Prop := ∃ t, Goes s t

/-! ### When a slot runs -/

/-- The strand whose turn it is stands, as `f`, before a slot that it is to run: the slot begins a group or goes on with
one, TRET has not asked to skip it, its guard holds, and the loop sequencer a first or last guard reads is at hand
(R58, R349, R353). -/
def State.Runs (s : State) (h : Slot) (f : Frame) : Prop :=
  ∃ f0, s.frame = some f0 ∧ f0.c.again = none ∧ f0.begin.c.seq.skip ≠ some f0.begin.c.seq.slot
    ∧ f0.begin.c.seq.guardHolds h.guard = true ∧ f0.begin.touchAll (if guardLoops h.guard then [.loops] else []) = .ok f

/-- The strand whose turn it is stands, as `f`, before a slot that has no effect: its guard is false, or TRET has asked
to skip it (R58, R349). -/
def State.Skips (s : State) (h : Slot) (f : Frame) : Prop :=
  ∃ f0, s.frame = some f0 ∧ f0.c.again = none ∧ f = f0.begin ∧ (f.c.seq.skip = some f.c.seq.slot ∨ f.c.seq.guardHolds h.guard = false)

/-- A trigger's operands are delivered as `x`, with what was popped for them taken in `k`: every unit is at hand, every
tag is one the operation accepts, no element lies in an engine-owned block, and the operation need not act later than it
issues; `held` says whether its unit's elastic buffer takes the operation's result (R71, R101, R147, R185, R355). -/
def Frame.Takes (f : Frame) (g : Trig) (x : Args) (k : Fetch) (held : Bool) : Prop :=
  f.gather g = .ok (x, k) ∧ f.timing g k x = .ok held ∧ k.fault = none ∧ k.f.c.seq.late = []
    ∧ f.mustWait g x = false

/-- The frame after delivery, the unit's supplies consumed (R71). -/
def Fetch.ready (k : Fetch) (u : UnitName) : Frame := { k.f with c := k.f.c.consume u }

/-- A move's value is delivered as `v` in frame `g`, and the units its destination touches are at hand in `g'` (R65). -/
def Frame.Carries (f : Frame) (units : Frame → List TileUnit) (a : Src) (v : Val) (g' : Frame) : Prop :=
  ∃ g, f.moveValue a = .ok (v, g) ∧ g.touchAll (units g) = .ok g'

/-- `g` differs from `f` at most in the tiles' owners, the tokens popped and their record for speculation, the streams
popped, what the slot waits for, the feed ports and the transposer's blocks. -/
def Frame.Delivered (f g : Frame) : Prop :=
  g.s = { f.s with tiles := g.s.tiles }
    ∧ g.t = { f.t with k2 := g.t.k2, k3 := g.t.k3, spec := g.t.spec }
    ∧ g.c = { f.c with
        seq := { f.c.seq with pops := g.c.seq.pops, late := g.c.seq.late }
        wants := g.c.wants
        feeds := g.c.feeds
        blocks := g.c.blocks
        mxe := { f.c.mxe with k0 := g.c.mxe.k0 }
        xfu := { f.c.xfu with k1 := g.c.xfu.k1 } }

/-- What a trigger leaves: its operands delivered in `k`, its effect settled, and the slot passed. -/
def Fetch.after (k : Fetch) (h : Slot) (g : Trig) (x : Args) (held : Bool) (e : Effect) : State :=
  ((k.ready g.u).settle h g k x held e).advance h.stop

/-! ### Sources and ports that hold plain values -/

/-- A port through which no stream is read (R71). -/
def Frame.plainPort (f : Frame) (u : UnitName) (p : OpPort) : Bool := (f.portStream u p).isNone

/-- The value at a port that reads no stream: what is supplied, else what is bound, else zero (R71). -/
def Frame.portNow (f : Frame) (u : UnitName) (p : OpPort) : Val :=
  match (f.port u p).supply with
  | some v => v
  | none => match (f.port u p).bind with
    | some (.value v) => v
    | _ => .untyped 0

/-- The operands of a trigger of unit `u` whose source and ports read no stream. -/
def Frame.argsNow (f : Frame) (u : UnitName) (a : Val) : Args :=
  ⟨.val a, .val (f.portNow u .b), .val (f.portNow u .c), .val (f.portNow u .d)⟩

/-! ### What an instruction leaves alone -/

/-- Every register that software names, but for the program counter, the flags and what the operand ports and the result
queue hold, is the same in both frames: the scalar registers and their window, the vector registers, the predicates, the
loop levels, SLK, the constant bank and its index (R31). -/
def Frame.SameRegisters (f g : Frame) : Prop :=
  g.c.low = f.c.low ∧ g.c.ring = f.c.ring ∧ g.c.depth = f.c.depth ∧ g.c.vregs = f.c.vregs ∧ g.c.preds = f.c.preds
    ∧ g.c.levels = f.c.levels ∧ g.c.slk = f.c.slk ∧ g.t.cbank = f.t.cbank ∧ g.t.cbx = f.t.cbx

/-- The special registers, the registers that a trap saves into, the engine's parameter registers, the tags and their
status bytes and the task-level tables are the same in both frames (R154, R191, R230, R348). -/
def Frame.SameSpecials (f g : Frame) : Prop :=
  g.c.spill = f.c.spill ∧ g.c.mxe.mp = f.c.mxe.mp ∧ g.c.xfu.plans = f.c.xfu.plans ∧ g.t.tags = f.t.tags
    ∧ g.t.tagbz = f.t.tagbz ∧ g.t.stats = f.t.stats ∧ g.t.tsave = f.t.tsave ∧ g.t.tvec = f.t.tvec ∧ g.t.csa = f.t.csa
    ∧ g.t.ttb = f.t.ttb ∧ g.t.heart = f.t.heart ∧ g.t.wdt = f.t.wdt ∧ g.t.saved = f.t.saved ∧ g.t.ags = f.t.ags

/-- Every byte of memory reads the same in both states. -/
def State.SameMemory (s t : State) : Prop := ∀ k, Memory.get t.mem k = Memory.get s.mem k

/-- Every byte of memory outside `n` bytes from a key reads the same in both states. -/
def State.SameOutside (s t : State) (k n : Nat) : Prop :=
  ∀ j, j < k ∨ k + n ≤ j → Memory.get t.mem j = Memory.get s.mem j

/-! ### The scalar results of the rules -/

/-- What R123's table says of a result: A, B and C are the operands, `r` the result. -/
def IntegerRule (o : ScalarOp) (a b c r : Word) : Prop :=
  match o with
  | .add => r.toNat = (a.toNat + b.toNat) % 2 ^ 64
  | .sub => (r.toNat + b.toNat) % 2 ^ 64 = a.toNat
  | .and => ∀ i, r.getLsbD i = (a.getLsbD i && b.getLsbD i)
  | .or => ∀ i, r.getLsbD i = (a.getLsbD i || b.getLsbD i)
  | .xor => ∀ i, r.getLsbD i = (a.getLsbD i != b.getLsbD i)
  | .andn => ∀ i, r.getLsbD i = (a.getLsbD i && !b.getLsbD i)
  | .shl => r.toNat = a.toNat * 2 ^ (b.toNat % 64) % 2 ^ 64
  | .shr => r.toNat = a.toNat / 2 ^ (b.toNat % 64)
  | .sar => r.toInt = a.toInt / 2 ^ (b.toNat % 64)
  | .mul => r.toNat = a.toNat * b.toNat % 2 ^ 64
  | .mulh => r.toInt = a.toInt * b.toInt / 2 ^ 64
  | .mulhu => r.toNat = a.toNat * b.toNat / 2 ^ 64
  | .min => r.toInt = min a.toInt b.toInt
  | .minu => r.toNat = min a.toNat b.toNat
  | .max => r.toInt = max a.toInt b.toInt
  | .maxu => r.toNat = max a.toNat b.toNat
  | .clz => r.toNat ≤ 64 ∧ a.toNat < 2 ^ (64 - r.toNat) ∧ (r.toNat < 64 → 2 ^ (63 - r.toNat) ≤ a.toNat)
  | .ctz => if a = 0 then r.toNat = 64 else a.getLsbD r.toNat = true ∧ ∀ i, i < r.toNat → a.getLsbD i = false
  | .popc => r.toNat = ((List.range 64).filter fun i => a.getLsbD i).length
  | .sext => ∀ i, i < 64 → r.getLsbD i = a.getLsbD (min i (b.toNat % 64))
  | .zext => ∀ i, i < 64 → r.getLsbD i = (decide (i ≤ b.toNat % 64) && a.getLsbD i)
  | .lea => r.toNat = (a.toNat + b.toNat * 2 ^ (c.toNat % 8)) % 2 ^ 64
  | _ => True

/-- What R124 says of a quotient or a remainder. -/
def DivisionRule (o : ScalarOp) (a b r : Word) : Prop :=
  match o with
  | .div => if b = 0 then r = 0xFFFFFFFFFFFFFFFF
      else if a = 0x8000000000000000 ∧ b.toInt = -1 then r = a else r.toInt = a.toInt.tdiv b.toInt
  | .rem => if b = 0 then r = a
      else if a = 0x8000000000000000 ∧ b.toInt = -1 then r = 0
      else r.toInt = a.toInt - b.toInt * a.toInt.tdiv b.toInt
  | .divu => if b = 0 then r = 0xFFFFFFFFFFFFFFFF else r.toNat = a.toNat / b.toNat
  | .remu => if b = 0 then r = a else r.toNat = a.toNat - b.toNat * (a.toNat / b.toNat)
  | _ => True

/-- What R125 says of a field: position UInt(B[5:0]) and width Min(UInt(C[6:0]), 64). -/
def FieldRule (o : ScalarOp) (a b c d r : Word) : Prop :=
  let p := b.toNat % 64
  let w := min (c.toNat % 128) 64
  match o with
  | .bfx => ∀ i, i < 64 → r.getLsbD i = (decide (i < w) && a.getLsbD (p + i))
  | .bfi => ∀ i, i < 64 → r.getLsbD i = if p ≤ i ∧ i < p + w then a.getLsbD (i - p) else d.getLsbD i
  | _ => True

/-- The integer relation of a compare (R126). -/
def CompareRule (o : ScalarOp) (a b : Word) : Prop :=
  match o with
  | .cmpeq => a.toNat = b.toNat
  | .cmpne => a.toNat ≠ b.toNat
  | .cmplt => a.toInt < b.toInt
  | .cmple => a.toInt ≤ b.toInt
  | .cmpltu => a.toNat < b.toNat
  | .cmpleu => a.toNat ≤ b.toNat
  | _ => False

/-- An FP64 encoding that is a NaN (R96). -/
abbrev IsNaN64 (w : Word) : Prop := 0x7FF0000000000000 < w.toNat % 2 ^ 63
/-- An FP64 encoding of an infinity (R96). -/
abbrev IsInf64 (w : Word) : Prop := w.toNat % 2 ^ 63 = 0x7FF0000000000000
/-- An FP64 encoding of a zero (R95). -/
abbrev IsZero64 (w : Word) : Prop := w.toNat % 2 ^ 63 = 0
/-- An FP64 encoding of a signalling NaN (R96). -/
abbrev IsSig64 (w : Word) : Prop := IsNaN64 w ∧ w.getLsbD 51 = false
/-- The place of an FP64 number among the numbers: both zeros stand at 0 (R95). -/
def order64 (w : Word) : Int := if w.getLsbD 63 then -(w.toNat % 2 ^ 63 : Nat) else (w.toNat % 2 ^ 63 : Nat)
/-- The positive canonical NaN of FP64 (R96). -/
def canonical64 : Word := 0x7FF8000000000000

/-- The number that an FP64 encoding which is no NaN and no infinity stands for (R95). -/
def value64 (w : Word) : ℚ :=
  let m : ℕ := w.toNat % 2 ^ 52
  let e : ℕ := w.toNat / 2 ^ 52 % 2 ^ 11
  let k : ℕ := if e = 0 then m else 2 ^ 52 + m
  let j : ℤ := if e = 0 then -1074 else (e : ℤ) - 1075
  let x : ℚ := (k : ℚ) * (2 : ℚ) ^ j
  if w.getLsbD 63 then -x else x

/-- `k` is a magnitude rounded to a whole number for a value of sign `neg`: to nearest with ties to even, toward zero, toward
+∞ or toward −∞ (R103, R105). -/
def RoundsTo (rm : BitVec 2) (neg : Bool) (x : ℝ) (k : ℕ) : Prop :=
  if rm = 0 then 2 * (k : ℝ) ≤ 2 * x + 1 ∧ 2 * x ≤ 2 * k + 1 ∧ (2 * (k : ℝ) = 2 * x + 1 ∨ 2 * x = 2 * k + 1 → k % 2 = 0)
  else if rm = 1 ∨ rm = 2 ∧ neg = true ∨ rm = 3 ∧ neg = false then (k : ℝ) ≤ x ∧ x < k + 1
  else x ≤ k ∧ (k : ℝ) < x + 1

/-- `r` is the encoding, in a format, of a number of magnitude `x` and sign `neg` rounded once, and `fl` its flags: the place of
the last bit kept is that of the number, or of the format's subnormals; a magnitude above the largest finite one overflows
to an infinity, or to that magnitude where the rounding mode or the format has it so; tininess is found after rounding
(R95, R103, R105 to R107). -/
def Rounded (f : FpFmt) (rm : BitVec 2) (neg : Bool) (x : ℝ) (r : ℕ) (fl : Flags) : Prop :=
  let p := fmtSpec f
  let low : ℤ := 1 - (p.bias : ℤ)
  if x = 0 then r = signBit f neg ∧ fl = 0
  else ∃ (e q : ℤ) (k k0 : ℕ), (2 : ℝ) ^ e ≤ x ∧ x < (2 : ℝ) ^ (e + 1) ∧ q = max e low - p.mbits
    ∧ RoundsTo rm neg (x / (2 : ℝ) ^ q) k ∧ RoundsTo rm neg (x / (2 : ℝ) ^ (e - p.mbits)) k0
    ∧ if ((maxFinite f).1 : ℝ) * (2 : ℝ) ^ (maxFinite f).2 < k * (2 : ℝ) ^ q then
        fl = 0x14 ∧ r = signBit f neg
          + (if hasInf f = true ∧ (rm = 0 ∨ rm = 2 ∧ neg = false ∨ rm = 3 ∧ neg = true)
              then (2 ^ p.ebits - 1) * 2 ^ p.mbits else maxFiniteCode f)
      else (∃ (m : ℕ) (j : ℤ), decodeFl f r = .fin neg m j ∧ (m : ℝ) * (2 : ℝ) ^ j = k * (2 : ℝ) ^ q) ∧ r < 2 ^ codeBits f
        ∧ (fl.getLsbD 4 = true ↔ (k : ℝ) * (2 : ℝ) ^ q ≠ x)
        ∧ (fl.getLsbD 3 = true ↔ (k : ℝ) * (2 : ℝ) ^ q ≠ x ∧ (k0 : ℝ) * (2 : ℝ) ^ (e - p.mbits) < (2 : ℝ) ^ low)
        ∧ fl &&& 0x27 = 0

/-- The exact number `x`, of sign `zneg` if it is zero, rounded once to FP64 (R105). -/
def Rounds64 (rm : BitVec 2) (x : ℝ) (zneg : Bool) (r : Word) (fl : Flags) : Prop :=
  (0 < x → Rounded .f64 rm false x r.toNat fl) ∧ (x < 0 → Rounded .f64 rm true (-x) r.toNat fl)
    ∧ (x = 0 → IsZero64 r ∧ r.getLsbD 63 = zneg ∧ fl = 0)

/-- The sum of two FP64 operands that are no NaNs, of which the second has its sign turned if `minus` says so (R105, R127). -/
def Sum64 (rm : BitVec 2) (minus : Bool) (a b r : Word) (fl : Flags) : Prop :=
  let n := b.getLsbD 63 != minus
  (IsInf64 a → IsInf64 b → if a.getLsbD 63 = n then r = a ∧ fl = 0 else r = canonical64 ∧ fl = 1)
    ∧ (IsInf64 a → ¬IsInf64 b → r = a ∧ fl = 0)
    ∧ (¬IsInf64 a → IsInf64 b → IsInf64 r ∧ r.getLsbD 63 = n ∧ fl = 0)
    ∧ (¬IsInf64 a → ¬IsInf64 b → Rounds64 rm ((value64 a + (if minus then -value64 b else value64 b) : ℚ) : ℝ)
        (if a.getLsbD 63 = n then n else decide (rm = 3)) r fl)

/-- What R105, R109 and R127 say of an FP64 result under a rounding mode: A, B and C are the operands, `r` the result and `fl` its
flags, NV being bit 0, DZ bit 1, OF bit 2, UF bit 3 and NX bit 4. Exact numbers are rounded once. -/
def Fp64Rule (o : ScalarOp) (rm : BitVec 2) (a b c r : Word) (fl : Flags) : Prop :=
  let opposite := a.getLsbD 63 != b.getLsbD 63
  match o with
  | .fadd => (IsNaN64 a ∨ IsNaN64 b → r = canonical64 ∧ fl = if IsSig64 a ∨ IsSig64 b then 1 else 0)
      ∧ (¬IsNaN64 a → ¬IsNaN64 b → Sum64 rm false a b r fl)
  | .fsub => (IsNaN64 a ∨ IsNaN64 b → r = canonical64 ∧ fl = if IsSig64 a ∨ IsSig64 b then 1 else 0)
      ∧ (¬IsNaN64 a → ¬IsNaN64 b → Sum64 rm true a b r fl)
  | .fmul => (IsNaN64 a ∨ IsNaN64 b → r = canonical64 ∧ fl = if IsSig64 a ∨ IsSig64 b then 1 else 0)
      ∧ (IsInf64 a ∧ IsZero64 b ∨ IsZero64 a ∧ IsInf64 b → r = canonical64 ∧ fl = 1)
      ∧ (¬IsNaN64 a → ¬IsNaN64 b → IsInf64 a ∨ IsInf64 b → ¬IsZero64 a → ¬IsZero64 b →
        IsInf64 r ∧ r.getLsbD 63 = opposite ∧ fl = 0)
      ∧ (¬IsNaN64 a → ¬IsNaN64 b → ¬IsInf64 a → ¬IsInf64 b →
        Rounds64 rm ((value64 a * value64 b : ℚ) : ℝ) opposite r fl)
  | .fdiv => (IsNaN64 a ∨ IsNaN64 b → r = canonical64 ∧ fl = if IsSig64 a ∨ IsSig64 b then 1 else 0)
      ∧ (¬IsNaN64 a → ¬IsInf64 a → ¬IsZero64 a → IsZero64 b → IsInf64 r ∧ r.getLsbD 63 = opposite ∧ fl = 2)
      ∧ (IsZero64 a ∧ IsZero64 b ∨ IsInf64 a ∧ IsInf64 b → r = canonical64 ∧ fl = 1)
      ∧ (IsInf64 a → ¬IsNaN64 b → ¬IsInf64 b → IsInf64 r ∧ r.getLsbD 63 = opposite ∧ fl = 0)
      ∧ (¬IsNaN64 a → ¬IsInf64 a → IsInf64 b → IsZero64 r ∧ r.getLsbD 63 = opposite ∧ fl = 0)
      ∧ (¬IsNaN64 a → ¬IsNaN64 b → ¬IsInf64 a → ¬IsInf64 b → ¬IsZero64 b →
        Rounds64 rm ((value64 a / value64 b : ℚ) : ℝ) opposite r fl)
  | .ffma => (IsNaN64 a ∨ IsNaN64 b ∨ IsNaN64 c → r = canonical64
        ∧ fl = if IsSig64 a ∨ IsSig64 b ∨ IsSig64 c ∨ IsInf64 a ∧ IsZero64 b ∨ IsZero64 a ∧ IsInf64 b then 1 else 0)
      ∧ (IsInf64 a ∧ IsZero64 b ∨ IsZero64 a ∧ IsInf64 b → r = canonical64 ∧ fl = 1)
      ∧ (¬IsNaN64 a → ¬IsNaN64 b → ¬IsNaN64 c → IsInf64 a ∨ IsInf64 b → ¬IsZero64 a → ¬IsZero64 b →
        if IsInf64 c ∧ c.getLsbD 63 ≠ opposite then r = canonical64 ∧ fl = 1
        else IsInf64 r ∧ r.getLsbD 63 = opposite ∧ fl = 0)
      ∧ (¬IsNaN64 a → ¬IsNaN64 b → ¬IsInf64 a → ¬IsInf64 b → IsInf64 c → r = c ∧ fl = 0)
      ∧ (¬IsNaN64 a → ¬IsNaN64 b → ¬IsNaN64 c → ¬IsInf64 a → ¬IsInf64 b → ¬IsInf64 c →
        Rounds64 rm ((value64 a * value64 b + value64 c : ℚ) : ℝ)
          (if opposite = c.getLsbD 63 then opposite else decide (rm = 3)) r fl)
  | .fsqrt => (IsNaN64 a → r = canonical64 ∧ fl = if IsSig64 a then 1 else 0)
      ∧ (¬IsNaN64 a → ¬IsZero64 a → a.getLsbD 63 = true → r = canonical64 ∧ fl = 1)
      ∧ (IsZero64 a → r = a ∧ fl = 0)
      ∧ (IsInf64 a → a.getLsbD 63 = false → r = a ∧ fl = 0)
      ∧ (¬IsNaN64 a → ¬IsInf64 a → ¬IsZero64 a → a.getLsbD 63 = false →
        Rounds64 rm (Real.sqrt ((value64 a : ℚ) : ℝ)) false r fl)
  | .fmin => (IsNaN64 a → IsNaN64 b → r = canonical64) ∧ (IsNaN64 a → ¬IsNaN64 b → r = b)
      ∧ (¬IsNaN64 a → IsNaN64 b → r = a) ∧ (fl = if IsSig64 a ∨ IsSig64 b then 1 else 0)
      ∧ (¬IsNaN64 a → ¬IsNaN64 b → (r = a ∨ r = b) ∧ order64 r = min (order64 a) (order64 b)
        ∧ (IsZero64 a → IsZero64 b → r.getLsbD 63 = (a.getLsbD 63 || b.getLsbD 63)))
  | .fmax => (IsNaN64 a → IsNaN64 b → r = canonical64) ∧ (IsNaN64 a → ¬IsNaN64 b → r = b)
      ∧ (¬IsNaN64 a → IsNaN64 b → r = a) ∧ (fl = if IsSig64 a ∨ IsSig64 b then 1 else 0)
      ∧ (¬IsNaN64 a → ¬IsNaN64 b → (r = a ∨ r = b) ∧ order64 r = max (order64 a) (order64 b)
        ∧ (IsZero64 a → IsZero64 b → r.getLsbD 63 = (a.getLsbD 63 && b.getLsbD 63)))
  | .fabs => r = a &&& 0x7FFFFFFFFFFFFFFF ∧ fl = 0
  | .fneg => r = a ^^^ 0x8000000000000000 ∧ fl = 0
  | .fcvtI64 => (IsNaN64 a → r = 0 ∧ fl = 1)
      ∧ (IsInf64 a → r = (if a.getLsbD 63 then 0x8000000000000000 else 0x7FFFFFFFFFFFFFFF) ∧ fl = 1)
      ∧ (¬IsNaN64 a → ¬IsInf64 a → ∃ k : ℕ, RoundsTo rm (a.getLsbD 63) ((|value64 a| : ℚ) : ℝ) k
        ∧ let i : Int := if a.getLsbD 63 then -k else k
          (2 ^ 63 ≤ i → r = 0x7FFFFFFFFFFFFFFF ∧ fl = 1) ∧ (i < -2 ^ 63 → r = 0x8000000000000000 ∧ fl = 1)
          ∧ (-2 ^ 63 ≤ i → i < 2 ^ 63 → r.toInt = i ∧ fl = if (k : ℚ) = |value64 a| then 0 else 16))
  | .fcvtF64 => Rounds64 rm ((a.toInt : ℚ) : ℝ) false r fl
  | .fcmpeq => r = (if ¬IsNaN64 a ∧ ¬IsNaN64 b ∧ order64 a = order64 b then 1 else 0)
      ∧ fl = (if IsSig64 a ∨ IsSig64 b then 1 else 0)
  | .fcmplt => r = (if ¬IsNaN64 a ∧ ¬IsNaN64 b ∧ order64 a < order64 b then 1 else 0)
      ∧ fl = (if IsNaN64 a ∨ IsNaN64 b then 1 else 0)
  | .fcmple => r = (if ¬IsNaN64 a ∧ ¬IsNaN64 b ∧ order64 a ≤ order64 b then 1 else 0)
      ∧ fl = (if IsNaN64 a ∨ IsNaN64 b then 1 else 0)
  | .fcmpun => r = (if IsNaN64 a ∨ IsNaN64 b then 1 else 0) ∧ fl = (if IsSig64 a ∨ IsSig64 b then 1 else 0)
  | _ => True

/-! ### The floating-point results of every format -/

/-- The sign bit of an encoding of a format (R95). -/
def fpNeg (f : FpFmt) (n : ℕ) : Bool := n.testBit (codeBits f - 1)
/-- An encoding without its sign (R95). -/
def fpMag (f : FpFmt) (n : ℕ) : ℕ := n % 2 ^ (codeBits f - 1)
/-- The encoding of an infinity, without its sign, in a format that has one (R96). -/
def fpInfMag (f : FpFmt) : ℕ := (2 ^ (fmtSpec f).ebits - 1) * 2 ^ (fmtSpec f).mbits

/-- An encoding that is a NaN: E3M2, E2M3 and E2M1 have none and E4M3 one (R96). -/
def IsNaN (f : FpFmt) (n : ℕ) : Prop :=
  match f with
  | .e3m2 | .e2m3 | .e2m1 => False
  | .e4m3 => fpMag f n = 0x7F
  | _ => fpInfMag f < fpMag f n
/-- An encoding of an infinity (R96). -/
def IsInf (f : FpFmt) (n : ℕ) : Prop := hasInf f = true ∧ fpMag f n = fpInfMag f
/-- An encoding of a zero (R95). -/
def IsZero (f : FpFmt) (n : ℕ) : Prop := fpMag f n = 0
/-- An encoding of a signalling NaN: FP64, FP32, FP16 and BF16 have them (R96). -/
def IsSig (f : FpFmt) (n : ℕ) : Prop :=
  f ∈ [FpFmt.f64, .f32, .f16, .bf16] ∧ IsNaN f n ∧ n.testBit ((fmtSpec f).mbits - 1) = false
/-- The number that an encoding which is no NaN and no infinity stands for (R95). -/
def fpValue (f : FpFmt) (n : ℕ) : ℚ :=
  let p := fmtSpec f
  let m : ℕ := n % 2 ^ p.mbits
  let e : ℕ := n / 2 ^ p.mbits % 2 ^ p.ebits
  let k : ℕ := if e = 0 then m else 2 ^ p.mbits + m
  let j : ℤ := (if e = 0 then 1 else (e : ℤ)) - p.bias - p.mbits
  let x : ℚ := (k : ℚ) * (2 : ℚ) ^ j
  if fpNeg f n then -x else x
/-- The place of an encoding among the numbers of its format, −0 right below +0 (R105). -/
def fpRank (f : FpFmt) (n : ℕ) : ℤ := if fpNeg f n then -(fpMag f n : ℤ) - 1 else fpMag f n

/-- A NaN as a result: the canonical one, or +0 with NV in a format that has none (R96, R105 to R107). -/
def NaNResult (f : FpFmt) (nv : Prop) (r : ℕ) (fl : Flags) : Prop :=
  r = canonicalNaN f ∧ ((nv ∨ ¬∃ n, IsNaN f n) → fl = 1) ∧ (¬nv → (∃ n, IsNaN f n) → fl = 0)
/-- An infinity as a result: the largest finite magnitude with NV in a format that has none (R105 to R107). -/
def InfResult (f : FpFmt) (neg : Bool) (r : ℕ) (fl : Flags) : Prop :=
  if hasInf f = true then r = signBit f neg + fpInfMag f ∧ fl = 0 else r = signBit f neg + maxFiniteCode f ∧ fl = 1
/-- The exact number `x`, of sign `zneg` if it is zero, rounded once to a format (R105 to R107). -/
def RoundsIn (f : FpFmt) (rm : BitVec 2) (x : ℝ) (zneg : Bool) (r : ℕ) (fl : Flags) : Prop :=
  (0 < x → Rounded f rm false x r fl) ∧ (x < 0 → Rounded f rm true (-x) r fl) ∧ (x = 0 → r = signBit f zneg ∧ fl = 0)

/-- The sum of two numbers, each of which is infinite or has a value: `an` and `bn` are their signs (R105). -/
def SumIn (f : FpFmt) (rm : BitVec 2) (an : Bool) (ai : Prop) (av : ℝ) (bn : Bool) (bi : Prop) (bv : ℝ) (r : ℕ) (fl : Flags) : Prop :=
  (ai → bi → if an = bn then InfResult f an r fl else NaNResult f True r fl)
    ∧ (ai → ¬bi → InfResult f an r fl) ∧ (¬ai → bi → InfResult f bn r fl)
    ∧ (¬ai → ¬bi → RoundsIn f rm (av + bv) (if an = bn then an else decide (rm = 3)) r fl)

/-- The fused product and sum of three encodings, the product's sign turned by `pn` and C's by `cn` (R105, R163). -/
def FusedIn (f : FpFmt) (rm : BitVec 2) (pn cn : Bool) (a b c r : ℕ) (fl : Flags) : Prop :=
  let sign (n : Bool) (x : ℚ) : ℝ := ((if n then -x else x : ℚ) : ℝ)
  let invalid := IsInf f a ∧ IsZero f b ∨ IsZero f a ∧ IsInf f b
  (IsNaN f a ∨ IsNaN f b ∨ IsNaN f c ∨ invalid → NaNResult f (IsSig f a ∨ IsSig f b ∨ IsSig f c ∨ invalid) r fl)
    ∧ (¬IsNaN f a → ¬IsNaN f b → ¬IsNaN f c → ¬invalid →
      SumIn f rm ((fpNeg f a != fpNeg f b) != pn) (IsInf f a ∨ IsInf f b) (sign pn (fpValue f a * fpValue f b))
        (fpNeg f c != cn) (IsInf f c) (sign cn (fpValue f c)) r fl)

/-- minimumNumber or maximumNumber, −0 below +0 (R105). -/
def ExtremeIn (f : FpFmt) (top : Bool) (a b r : ℕ) (fl : Flags) : Prop :=
  (IsNaN f a → IsNaN f b → r = canonicalNaN f) ∧ (IsNaN f a → ¬IsNaN f b → r = b) ∧ (¬IsNaN f a → IsNaN f b → r = a)
    ∧ (¬IsNaN f a → ¬IsNaN f b → (r = a ∨ r = b)
      ∧ fpRank f r = if top then max (fpRank f a) (fpRank f b) else min (fpRank f a) (fpRank f b))
    ∧ ((IsSig f a ∨ IsSig f b → fl = 1) ∧ (¬IsSig f a → ¬IsSig f b → fl = 0))

/-- What R105, R106, R107, R163 and R164 say of an element: A, B and C are encodings of the format, `r` the result (1 or 0 for a
compare) and `fl` its flags. Exact numbers are rounded once. -/
def ElementRule (f : FpFmt) (o : FpOp) (rm : BitVec 2) (a b c r : ℕ) (fl : Flags) : Prop :=
  let opposite := fpNeg f a != fpNeg f b
  let nan := IsNaN f a ∨ IsNaN f b
  let sig := IsSig f a ∨ IsSig f b
  let Truth (t nv : Prop) : Prop := (t → r = 1) ∧ (¬t → r = 0) ∧ (nv → fl = 1) ∧ (¬nv → fl = 0)
  match o with
  | .add => (nan → NaNResult f sig r fl) ∧ (¬nan →
      SumIn f rm (fpNeg f a) (IsInf f a) (fpValue f a : ℝ) (fpNeg f b) (IsInf f b) (fpValue f b : ℝ) r fl)
  | .sub => (nan → NaNResult f sig r fl) ∧ (¬nan →
      SumIn f rm (fpNeg f a) (IsInf f a) (fpValue f a : ℝ) (!fpNeg f b) (IsInf f b) ((-fpValue f b : ℚ) : ℝ) r fl)
  | .mul =>
      let invalid := IsInf f a ∧ IsZero f b ∨ IsZero f a ∧ IsInf f b
      (nan ∨ invalid → NaNResult f (sig ∨ invalid) r fl)
      ∧ (¬nan → ¬invalid → IsInf f a ∨ IsInf f b → InfResult f opposite r fl)
      ∧ (¬nan → ¬IsInf f a → ¬IsInf f b → RoundsIn f rm ((fpValue f a * fpValue f b : ℚ) : ℝ) opposite r fl)
  | .fma => FusedIn f rm false false a b c r fl
  | .fms => FusedIn f rm false true a b c r fl
  | .fnma => FusedIn f rm true false a b c r fl
  | .min => ExtremeIn f false a b r fl
  | .max => ExtremeIn f true a b r fl
  | .div => hasInf f = true →
      (nan ∨ IsZero f a ∧ IsZero f b ∨ IsInf f a ∧ IsInf f b → NaNResult f (sig ∨ ¬nan) r fl)
      ∧ (¬nan → IsInf f a → ¬IsInf f b → InfResult f opposite r fl)
      ∧ (¬nan → ¬IsInf f a → ¬IsZero f a → IsZero f b → r = signBit f opposite + fpInfMag f ∧ fl = 2)
      ∧ (¬nan → ¬IsInf f a → IsInf f b → r = signBit f opposite ∧ fl = 0)
      ∧ (¬nan → ¬IsInf f a → ¬IsInf f b → ¬IsZero f b →
        RoundsIn f rm ((fpValue f a / fpValue f b : ℚ) : ℝ) opposite r fl)
  | .sqrt => hasInf f = true →
      (IsNaN f a → NaNResult f (IsSig f a) r fl)
      ∧ (¬IsNaN f a → ¬IsZero f a → fpNeg f a = true → NaNResult f True r fl)
      ∧ (IsZero f a → r = a ∧ fl = 0) ∧ (IsInf f a → fpNeg f a = false → r = a ∧ fl = 0)
      ∧ (¬IsNaN f a → ¬IsInf f a → ¬IsZero f a → fpNeg f a = false →
        RoundsIn f rm (Real.sqrt ((fpValue f a : ℚ) : ℝ)) false r fl)
  | .abs => r = fpMag f a ∧ fl = 0
  | .neg => fpMag f r = fpMag f a ∧ fpNeg f r = !fpNeg f a ∧ r < 2 ^ codeBits f ∧ fl = 0
  | .cmpeq => Truth (¬nan ∧ ((IsInf f a ∨ IsInf f b) ∧ a = b ∨ ¬IsInf f a ∧ ¬IsInf f b ∧ fpValue f a = fpValue f b)) sig
  | .cmplt => Truth (¬nan ∧ fpRank f a < fpRank f b ∧ ¬(IsZero f a ∧ IsZero f b)) nan
  | .cmple => Truth (¬nan ∧ (fpRank f a ≤ fpRank f b ∨ IsZero f a ∧ IsZero f b)) nan
  | .cmpun => Truth nan sig

/-! ### The elements of the conversions -/

/-- A number before a conversion: a NaN, signalling or not, an infinity, or a value with its sign (R107, R109). -/
inductive Number
  | nan (signalling : Prop)
  | inf (neg : Bool)
  | real (neg : Bool) (x : ℚ)

/-- What an element of a source format stands for (R94 to R97). -/
def IsNumber (t x : ℕ) (v : Number) : Prop :=
  match FpFmt.ofCode? t with
  | some f =>
    let n := x % 2 ^ codeBits f
    (IsNaN f n → v = .nan (IsSig f n)) ∧ (IsInf f n → v = .inf (fpNeg f n))
      ∧ (¬IsNaN f n → ¬IsInf f n → v = .real (fpNeg f n) (fpValue f n))
  | none =>
    if t = 21 then (if x % 256 = 255 then v = .nan False else v = .real false ((2 : ℚ) ^ ((x % 256 : ℕ) - 127 : ℤ)))
    else
      let i : ℤ := if t < 14 then (BitVec.ofNat (tagWidth t) x).toInt else x
      v = .real (decide (i < 0)) i

/-- The range of an integer format (R94). -/
def InRange (t : ℕ) (i : ℤ) : Prop :=
  if t < 14 then -2 ^ (tagWidth t - 1) ≤ i ∧ i < 2 ^ (tagWidth t - 1) else 0 ≤ i ∧ i < 2 ^ tagWidth t
/-- `j` is the nearest end of the range of an integer format to a number outside it (R109). -/
def NearestEnd (t : ℕ) (neg : Bool) (j : ℤ) : Prop :=
  j = if neg then (if t < 14 then -2 ^ (tagWidth t - 1) else 0) else (if t < 14 then 2 ^ (tagWidth t - 1) else 2 ^ tagWidth t) - 1
/-- An integer as its two's complement in an integer format (R94). -/
def Encodes (t : ℕ) (j : ℤ) (r : ℕ) : Prop := r < 2 ^ tagWidth t ∧ (r : ℤ) = j % 2 ^ tagWidth t

/-- What R107 and R109 say of a number converted once to a target format: `r` is the element and `fl` its flags. -/
def ConvertRule (t : ℕ) (rm : BitVec 2) (v : Number) (r : ℕ) (fl : Flags) : Prop :=
  match FpFmt.ofCode? t, v with
  | some f, .nan s => NaNResult f s r fl
  | some f, .inf n => InfResult f n r fl
  | some f, .real n x => RoundsIn f rm ((x : ℚ) : ℝ) n r fl
  | none, .nan _ => r = 0 ∧ fl = 1
  | none, .inf n => ∃ j, NearestEnd t n j ∧ Encodes t j r ∧ fl = 1
  | none, .real n x => ∃ k : ℕ, RoundsTo rm n ((|x| : ℚ) : ℝ) k ∧ let i : ℤ := if n then -k else k
      (¬InRange t i → ∃ j, NearestEnd t n j ∧ Encodes t j r ∧ fl = 1)
      ∧ (InRange t i → Encodes t i r ∧ fl = if (k : ℚ) = |x| then 0 else 16)

/-- What R107, R109 and R168 say of an element of CVT. -/
def CvtRule (s t : ℕ) (rm : BitVec 2) (x r : ℕ) (fl : Flags) : Prop :=
  ∀ v, IsNumber s x v →
    if (9 ≤ s ∧ s < 19) ∧ 9 ≤ t then
      (∀ n q, v = .real n q → (∀ i : ℤ, q = i → InRange t i → Encodes t i r ∧ fl = 0)
        ∧ (∀ i : ℤ, q = i → ¬InRange t i → ∃ j, NearestEnd t n j ∧ Encodes t j r ∧ fl = 32))
    else if s = 21 ∧ x % 256 = 255 then ∀ f, FpFmt.ofCode? t = some f → r = canonicalNaN f ∧ fl = 1
    else ConvertRule t rm v r fl

/-- What R110 says of an element of CVTSC: the exact product with an FP32 multiplier `m`, converted once. -/
def ScaledRule (s t : ℕ) (rm : BitVec 2) (x m r : ℕ) (fl : Flags) : Prop :=
  ∀ v w, IsNumber s x v → IsNumber 1 m w →
    match v, w with
    | .nan a, .nan b => ConvertRule t rm (.nan (a ∨ b)) r fl
    | .nan a, _ => ConvertRule t rm (.nan a) r fl
    | _, .nan b => ConvertRule t rm (.nan b) r fl
    | .inf a, .inf b => ConvertRule t rm (.inf (a != b)) r fl
    | .inf a, .real b y => if y = 0 then ConvertRule t rm (.nan True) r fl else ConvertRule t rm (.inf (a != b)) r fl
    | .real a y, .inf b => if y = 0 then ConvertRule t rm (.nan True) r fl else ConvertRule t rm (.inf (a != b)) r fl
    | .real a y, .real b z => ConvertRule t rm (.real (a != b) (y * z)) r fl

/-- What R112 says of a nonzero magnitude `a` of sign `neg` with sixteen random bits: the bits dropped below the last place of the
format decide, with `rnd`, whether the truncated magnitude goes up by one place. -/
def StochasticRule (f : FpFmt) (rnd : ℕ) (neg : Bool) (a : ℝ) (r : ℕ) (fl : Flags) : Prop :=
  let p := fmtSpec f
  ∃ (e q : ℤ) (t d k : ℕ), (2 : ℝ) ^ e ≤ a ∧ a < (2 : ℝ) ^ (e + 1) ∧ q = max e (1 - p.bias) - p.mbits
    ∧ (t : ℝ) ≤ a / (2 : ℝ) ^ q ∧ a / (2 : ℝ) ^ q < t + 1
    ∧ (d : ℝ) ≤ (a / (2 : ℝ) ^ q - t) * 2 ^ 16 ∧ (a / (2 : ℝ) ^ q - t) * 2 ^ 16 < d + 1
    ∧ k = (if 2 ^ 16 ≤ d + rnd then t + 1 else t)
    ∧ if ((maxFinite f).1 : ℝ) * (2 : ℝ) ^ (maxFinite f).2 < k * (2 : ℝ) ^ q then
        fl = 0x14 ∧ r = signBit f neg + if hasInf f = true then fpInfMag f else maxFiniteCode f
      else r < 2 ^ codeBits f ∧ fpNeg f r = neg ∧ ¬IsNaN f r ∧ ¬IsInf f r ∧ ((|fpValue f r| : ℚ) : ℝ) = k * (2 : ℝ) ^ q
        ∧ (fl.getLsbD 4 = true ↔ (k : ℝ) * (2 : ℝ) ^ q ≠ a)
        ∧ (fl.getLsbD 3 = true ↔ (k : ℝ) * (2 : ℝ) ^ q ≠ a ∧ (k : ℝ) * (2 : ℝ) ^ q < (2 : ℝ) ^ (1 - p.bias : ℤ))
        ∧ fl &&& 0x27 = 0

/-- What R107 and R112 say of an element of CVTSR. -/
def RandomRule (s : ℕ) (f : FpFmt) (rnd x r : ℕ) (fl : Flags) : Prop :=
  ∀ v, IsNumber s x v →
    match v with
    | .nan sig => NaNResult f sig r fl
    | .inf n => InfResult f n r fl
    | .real n q => (q = 0 → r = signBit f n ∧ fl = 0) ∧ (q ≠ 0 → StochasticRule f rnd n ((|q| : ℚ) : ℝ) r fl)

/-! ### The lane results of the rules -/

/-- What R165's table and R166 say of a lane: `x` and `y` are A's and B's lanes, `r` the result's. -/
def LaneRule (o : IntOp) {w : Nat} (x y r : BitVec w) : Prop :=
  match o with
  | .add => r = x + y
  | .sub => r = x - y
  | .adds => r.toInt = max (-2 ^ (w - 1)) (min (2 ^ (w - 1) - 1) (x.toInt + y.toInt))
  | .addsu => (r.toNat : Int) = min (2 ^ w - 1) (x.toNat + y.toNat)
  | .subs => r.toInt = max (-2 ^ (w - 1)) (min (2 ^ (w - 1) - 1) (x.toInt - y.toInt))
  | .subsu => (r.toNat : Int) = max 0 ((x.toNat : Int) - y.toNat)
  | .mul => r = x * y
  | .mulh => r.toInt = x.toInt * y.toInt / 2 ^ w
  | .mulhu => r.toNat = x.toNat * y.toNat / 2 ^ w
  | .min => r.toInt = min x.toInt y.toInt
  | .minu => r.toNat = min x.toNat y.toNat
  | .max => r.toInt = max x.toInt y.toInt
  | .maxu => r.toNat = max x.toNat y.toNat
  | .and => r = x &&& y
  | .or => r = x ||| y
  | .xor => r = x ^^^ y
  | .andn => r = x &&& ~~~y
  | .shl => r = x <<< (y.toNat % w)
  | .shr => r = x >>> (y.toNat % w)
  | .sar => r = x.sshiftRight (y.toNat % w)
  | .cmpeq => r = if x = y then BitVec.allOnes w else 0
  | .cmplt => r = if x.toInt < y.toInt then BitVec.allOnes w else 0
  | .cmpltu => r = if x.toNat < y.toNat then BitVec.allOnes w else 0
  | .abs => r = if x.toInt < 0 then -x else x
  | .popc => r.toNat = ((List.range w).filter fun i => x.getLsbD i).length
  | .clz => r.toNat ≤ w ∧ x.toNat < 2 ^ (w - r.toNat) ∧ (r.toNat < w → 2 ^ (w - 1 - r.toNat) ≤ x.toNat)

/-- Whether a lane of a saturating operation is clipped (R166). -/
def LaneClips (o : IntOp) {w : Nat} (x y : BitVec w) : Prop :=
  match o with
  | .adds => x.toInt + y.toInt < -2 ^ (w - 1) ∨ 2 ^ (w - 1) - 1 < x.toInt + y.toInt
  | .addsu => 2 ^ w - 1 < x.toNat + y.toNat
  | .subs => x.toInt - y.toInt < -2 ^ (w - 1) ∨ 2 ^ (w - 1) - 1 < x.toInt - y.toInt
  | .subsu => x.toNat < y.toNat
  | _ => False

/-- Lane `i` of a vector at width `w` (R16, R159). -/
def lane (w : Nat) (v : Vec) (i : Nat) : BitVec w := v.extractLsb' (w * i) w

/-! ### Instructions of one shape -/

/-- The scalar computation's instruction (R123 to R127). -/
def scalarInstr (h : Slot) (a : Src) : ScalarOp → Instr
  | .add => .add h a
  | .sub => .sub h a
  | .and => .and h a
  | .or => .or h a
  | .xor => .xor h a
  | .andn => .andn h a
  | .shl => .shl h a
  | .shr => .shr h a
  | .sar => .sar h a
  | .mul => .mul h a
  | .mulh => .mulh h a
  | .mulhu => .mulhu h a
  | .div => .div h a
  | .divu => .divu h a
  | .rem => .rem h a
  | .remu => .remu h a
  | .min => .min h a
  | .minu => .minu h a
  | .max => .max h a
  | .maxu => .maxu h a
  | .clz => .clz h a
  | .ctz => .ctz h a
  | .popc => .popc h a
  | .sext => .sext h a
  | .zext => .zext h a
  | .lea => .lea h a
  | .bfx => .bfx h a
  | .bfi => .bfi h a
  | .cmpeq => .cmpeq h a
  | .cmpne => .cmpne h a
  | .cmplt => .cmplt h a
  | .cmple => .cmple h a
  | .cmpltu => .cmpltu h a
  | .cmpleu => .cmpleu h a
  | .fcmpeq => .fcmpeq h a
  | .fcmplt => .fcmplt h a
  | .fcmple => .fcmple h a
  | .fcmpun => .fcmpun h a
  | .fadd => .fadd h a
  | .fsub => .fsub h a
  | .fmul => .fmul h a
  | .ffma => .ffma h a
  | .fdiv => .fdiv h a
  | .fsqrt => .fsqrt h a
  | .fmin => .fmin h a
  | .fmax => .fmax h a
  | .fabs => .fabs h a
  | .fneg => .fneg h a
  | .fcvtI64 => .fcvtI64 h a
  | .fcvtF64 => .fcvtF64 h a

/-- The floating vector operation's instruction (R163, R164). -/
def fpInstr (h : Slot) (e : FpFmt) (a : Src) : FpOp → Instr
  | .add => .addF h e a
  | .sub => .subF h e a
  | .mul => .mulF h e a
  | .fma => .fmaF h e a
  | .fms => .fmsF h e a
  | .fnma => .fnmaF h e a
  | .min => .minF h e a
  | .max => .maxF h e a
  | .div => .divF h e a
  | .sqrt => .sqrtF h e a
  | .abs => .absF h e a
  | .neg => .negF h e a
  | .cmpeq => .cmpeqF h e a
  | .cmplt => .cmpltF h e a
  | .cmple => .cmpleF h e a
  | .cmpun => .cmpunF h e a

/-- The integer vector operation's instruction (R165, R166). -/
def intInstr (h : Slot) (e : IntW) (a : Src) : IntOp → Instr
  | .add => .iadd h e a
  | .sub => .isub h e a
  | .adds => .iadds h e a
  | .addsu => .iaddsu h e a
  | .subs => .isubs h e a
  | .subsu => .isubsu h e a
  | .mul => .imul h e a
  | .mulh => .imulh h e a
  | .mulhu => .imulhu h e a
  | .min => .imin h e a
  | .minu => .iminu h e a
  | .max => .imax h e a
  | .maxu => .imaxu h e a
  | .and => .vecAnd h e a
  | .or => .vecOr h e a
  | .xor => .vecXor h e a
  | .andn => .vecAndn h e a
  | .shl => .vecShl h e a
  | .shr => .vecShr h e a
  | .sar => .vecSar h e a
  | .cmpeq => .icmpeq h e a
  | .cmplt => .icmplt h e a
  | .cmpltu => .icmpltu h e a
  | .abs => .iabs h e a
  | .popc => .vecPopc h e a
  | .clz => .vecClz h e a

/-- The vector computation's instruction (R163 to R173). -/
def vectorInstr (h : Slot) (a : Src) : VecOp → Instr
  | .fp o e => fpInstr h e a o
  | .int o w => intInstr h w a o
  | .cvt .cvt t => .cvt h t a
  | .cvt .cvtsc t => .cvtsc h t a
  | .cvt .cvtsr t => .cvtsr h t a
  | .redadd => .redadd h a
  | .redmax => .redmax h a
  | .redmin => .redmin h a
  | .vmaxi => .vmaxi h a
  | .vmini => .vmini h a
  | .perm => .perm h a
  | .bcast => .bcast h a
  | .sel => .sel h a

/-- The scratchpad loads: width in bytes, whether the value is sign-extended, and the instruction (R128). -/
def padLoadForms : List (Nat × Bool × (Slot → Src → Instr)) :=
  [(1, true, .ldb), (1, false, .ldbu), (2, true, .ldh), (2, false, .ldhu), (4, true, .ldw), (4, false, .ldwu), (8, false, .ldd)]

/-- The scratchpad stores: width in bytes and the instruction (R128). -/
def padStoreForms : List (Nat × (Slot → Src → Instr)) := [(1, .stb), (2, .sth), (4, .stw), (8, .std)]

/-- The window loads and stores: width in bytes and the instruction (R130). -/
def windowLoadForms : List (Nat × (Slot → Src → Instr)) := [(4, .ldwCl), (8, .lddCl)]
/-- The window stores (R130). -/
def windowStoreForms : List (Nat × (Slot → Src → Instr)) := [(4, .stwCl), (8, .stdCl)]

/-- The scratchpad atomics (R132). -/
def atomicInstr (h : Slot) (a : Src) : AtomicOp → Instr
  | .add => .aadd h a
  | .and => .aand h a
  | .or => .aor h a
  | .xor => .axor h a
  | .min => .amin h a
  | .max => .amax h a
  | .swap => .aswap h a
  | .cas => .acas h a

/-- The cluster atomics (R132). -/
def windowAtomicInstr (h : Slot) (a : Src) : AtomicOp → Instr
  | .add => .aaddCl h a
  | .and => .aandCl h a
  | .or => .aorCl h a
  | .xor => .axorCl h a
  | .min => .aminCl h a
  | .max => .amaxCl h a
  | .swap => .aswapCl h a
  | .cas => .acasCl h a

/-- The new value of an atomic (R132). -/
def AtomicRule (o : AtomicOp) (old b c new : Word) : Prop :=
  match o with
  | .add => new.toNat = (old.toNat + b.toNat) % 2 ^ 64
  | .and => ∀ i, new.getLsbD i = (old.getLsbD i && b.getLsbD i)
  | .or => ∀ i, new.getLsbD i = (old.getLsbD i || b.getLsbD i)
  | .xor => ∀ i, new.getLsbD i = (old.getLsbD i != b.getLsbD i)
  | .min => new.toInt = min old.toInt b.toInt
  | .max => new.toInt = max old.toInt b.toInt
  | .swap => new = b
  | .cas => new = if old = c then b else old

/-- Byte `i` of a word, the lowest first (R16). -/
def byteOf {n : Nat} (w : BitVec n) (i : Nat) : Byte := w.extractLsb' (8 * i) 8

/-- `g` is `f` with an access of these ranges of keys noted: no older access that still waits for its data stands before it,
and a store's no older store that speculation holds and that has not been made (R162, R179, R181). -/
def Frame.Accesses (f : Frame) (keys : List (Nat × Nat)) (writes : Bool) (g : Frame) : Prop :=
  f.c.blocked f.c.nextRid keys writes = false ∧ (writes = true → f.storeBehind = false)
    ∧ g = { f with c := { f.c with seq := { f.c.seq with foot := f.c.seq.foot ++ keys } } }

/-- `width` scratchpad bytes at `addr` may be touched: they lie in the scratchpad, are aligned, no engine owns their block, the
block is at hand, and no older access stands before this one (R128, R162, R353). -/
def Frame.PlaceReady (f : Frame) (addr width : Nat) (writes : Bool) (g : Frame) : Prop :=
  addr < 0x200000 ∧ addr % width = 0 ∧ f.ownerBit (addr / 4096) = false
    ∧ ∃ u, f.touch (blockUnit addr) = .ok u ∧ u.Accesses [(Key.pad f.c.id addr, width)] writes g

/-- A scratchpad word at `addr` may be touched; `g` counts its chunk (R188). -/
def Frame.PadReady (f : Frame) (addr width : Nat) (writes : Bool) (g : Frame) : Prop :=
  (f.noteChunks [addr / 16 * 16]).PlaceReady addr width writes g

/-- A window access of `n` bytes at `addr` is legal: it lies in the window, is aligned, and no older access stands before it
(R130, R162, R180). -/
def Frame.WindowReady (f : Frame) (addr n align : Nat) (writes : Bool) (g : Frame) : Prop :=
  addr + n ≤ f.s.windowSize (clusterOf f.t.ptn) ∧ addr % align = 0
    ∧ f.Accesses [(Key.window (clusterOf f.t.ptn) addr, n)] writes g

/-- No byte of `n` from a window address of the strand's cluster is uncorrectable (R371). -/
def Frame.WindowGood (f : Frame) (addr n : Nat) : Prop := f.s.bad (Key.window (clusterOf f.t.ptn) addr) n = false

/-- A vector access of `n` bytes at each of these physical addresses may be made: all lie in the scratchpad, `aligned` holds,
no engine owns a block of theirs, the blocks are at hand, and no older access stands before it; `g` counts its chunks (R162,
R179, R188, R353). -/
def Frame.VectorReady (f : Frame) (phys : List Nat) (n : Nat) (aligned : Prop) (writes : Bool) (g : Frame) : Prop :=
  (∀ a ∈ phys, a < 0x200000) ∧ aligned ∧ (∀ a ∈ phys, f.ownerBit (a / 4096) = false)
    ∧ ∃ u, f.touchAll (blockUnits phys) = .ok u
      ∧ (u.noteChunks (chunksOf phys)).Accesses (phys.map fun a => (Key.pad f.c.id a, n)) writes g

/-- No byte of `n` from any of these scratchpad addresses is uncorrectable (R371). -/
def Frame.PadGood (f : Frame) (phys : List Nat) (n : Nat) : Prop :=
  ∀ a ∈ phys, f.s.bad (Key.pad f.c.id a) n = false

/-- What a trigger whose operation acts in frame `g` leaves. -/
def Frame.leaves (g : Frame) (h : Slot) (t : Trig) (k : Fetch) (x : Args) (held : Bool) (e : Effect) : State :=
  (g.settle h t k x held e).advance h.stop

/-- Every window store that the strand has issued has set out for its bank: none of its confirmed ones waits to drain, and neither
of its contexts holds one back (R147, R387). -/
def Frame.NoWindowStoreHeld (f : Frame) : Prop :=
  (∀ y ∈ f.t.drain, y.window = false)
    ∧ ∀ c : Ctx, c = f.c ∨ (∃ id, f.t.saved = some id ∧ f.s.ctx? id = some c) →
      ∀ x ∈ c.held, x.onWindow = true → x.pending = true → x.writes = false

/-! ### Interleave domains -/

/-- The ones among `len` bits of a word from bit `lo`. -/
def onesIn (w : Word) (lo len : Nat) : Nat := ((List.range len).filter fun i => w.getLsbD (lo + i)).length

/-- A domain word keeps the conditions of R269 that name it alone. -/
def DomainLegal (w : Word) : Prop :=
  (w.getLsbD 63 = true → ∃ k ≤ 7, onesIn w 44 8 * onesIn w 28 16 = 2 ^ k ∧ onesIn w 0 16 = k)
    ∧ (w.toNat / 2 ^ 54 % 64 = 0 → w.getLsbD 60 = false)
    ∧ (w.toNat / 2 ^ 54 % 64 ≠ 0 → 8 ≤ w.toNat / 2 ^ 54 % 64 ∧ w.toNat / 2 ^ 54 % 64 ≤ 51)
    ∧ w.toNat / 2 ^ 23 % 32 ≤ 16 ∧ w.toNat / 2 ^ 52 % 4 = 0 ∧ w.toNat / 2 ^ 16 % 128 = 0

/-- A domain word changes otherwise than in Q alone (R269). -/
def DomainChanges (old new : Word) : Prop := ∃ i, i ≠ 62 ∧ old.getLsbD i ≠ new.getLsbD i

/-- A write of a die's domain register is taken (R269). -/
def Die.Takes (d : Die) (n : Fin 16) (new : Word) : Prop :=
  DomainLegal new
    ∧ (∀ m : Fin 16, m ≠ n → d.dom[m].getLsbD 63 = true → new.getLsbD 63 = true → ∀ c < 8, ∀ x < 16,
      ¬(d.dom[m].getLsbD (44 + c) = true ∧ d.dom[m].getLsbD (28 + x) = true
        ∧ new.getLsbD (44 + c) = true ∧ new.getLsbD (28 + x) = true))
    ∧ (d.dom[n].getLsbD 63 = true → DomainChanges d.dom[n] new → d.dom[n].getLsbD 62 = true ∧ new.getLsbD 62 = true)
    ∧ (d.dom[n].getLsbD 62 = true → new.getLsbD 62 = false → d.busy[n] = false)

/-! ### The walk of a copy (R239, R243) -/

/-- The index tuple of the run of a number, level 1 varying fastest (R239). -/
def walkIndex (bounds : List Nat) (r : Nat) : List Nat :=
  (List.range bounds.length).map fun l => r / (bounds.take l).foldl (· * ·) 1 % bounds.getD l 1

/-- ADDR + Σ in × STRn + o, as a 64-bit address (R239). -/
def walkAddr (addr : Nat) (ix : List Nat) (st : List Int) (o : Nat) : Nat :=
  (((addr : Int) + ((ix.zip st).map fun (p : Nat × Int) => (p.1 : Int) * p.2).sum + o) % 2 ^ 64).toNat

/-- Entry `i` of a command's index list; none if it is all ones (R243). -/
def State.walkEntry (s : State) (ctx : Nat) (d : CopyDesc) (i : Nat) : Option Nat :=
  let w := 2 ^ (2 + d.iw)
  if (List.range w).all fun j => Memory.get s.mem (Key.pad ctx (d.idx + w * i) + j) == 255 then none
  else some (Memory.num s.mem (Key.pad ctx (d.idx + w * i)) w)

/-- The address of byte `j` of the walk on one side, whose level 1 may be an index list's; none in an inactive run (R239, R243). -/
def State.walkSide (s : State) (ctx : Nat) (d : CopyDesc) (indexed : Bool) (addr : Nat) (st : List Int) (j : Nat) : Option Nat :=
  let ix := walkIndex d.bounds (j / d.run)
  if indexed then (s.walkEntry ctx d (ix.headD 0)).map fun u => walkAddr addr (u :: ix.tail) st (j % d.run)
  else some (walkAddr addr ix st (j % d.run))

/-- The source address of byte `j` of a copy's walk (R242, R243). -/
def State.walkSrc (s : State) (ctx : Nat) (d : CopyDesc) (w : Walk) (j : Nat) : Option Nat :=
  s.walkSide ctx d (decide (w = .gather)) d.saddr d.sstr j

/-- The destination address of byte `j` of a copy's walk (R242, R243). -/
def State.walkDst (s : State) (ctx : Nat) (d : CopyDesc) (w : Walk) (j : Nat) : Option Nat :=
  s.walkSide ctx d (decide (w = .scatter)) d.daddr d.dstr j

/-- The bytes of the pieces of a list. -/
def segBytes (l : List Seg) : Nat := (l.map (·.n)).sum

/-- The place of a command's byte at an address of a space that is not global: the scratchpad, the window or the ACS (R238). -/
def Cmd.place (k : Cmd) (sp a : Nat) : Nat :=
  match sp with
  | 1 => Key.pad k.ctx a
  | 2 => Key.window (clusterOf k.ptn) a
  | _ => Key.acs k.ctx a

/-- What the byte of a place of a space reads as: those of the window that nothing has written are free (R266). -/
def State.placeByte (s : State) (k : Cmd) (sp a key : Nat) : Byte :=
  if sp = 2 then s.windowByte (clusterOf k.ptn) a else Memory.get s.mem key

/-! ### Calls and commands -/

/-- `r` is `f` after a tag command has been issued: the command stands at the tail of the commands with its blocks claimed from
the end of the cycle, its tag is clear and busy, its status is zero, its detach mark is as the operation says, and no other
tag has changed (R231, R232, R235, R240). -/
def Frame.TagIssued (f r : Frame) (tag : Nat) (blocks : List Nat) (now : Bool) (kind : CmdKind) : Prop :=
  r = { f with
      s := { f.s with
        claims := f.s.claims ++ [⟨f.c.id, .cmd f.s.nextId, blocks, false, f.c.nextRid⟩]
        nextId := f.s.nextId + 1
        cmds := f.s.cmds ++ [⟨f.s.nextId, f.t.sid, f.c.id, f.t.ptn, decide (f.unit = .cb), tag, kind, now, f.s.cycle, 0, 0, false,
          none, [], []⟩] }
      t := { f.t with tags := r.t.tags, tagbz := r.t.tagbz, stats := r.t.stats, detach := r.t.detach } }
    ∧ (∀ i : Fin 64, r.t.tags.getLsbD i = (decide (i.val ≠ tag) && f.t.tags.getLsbD i)
      ∧ r.t.tagbz.getLsbD i = (decide (i.val = tag) || f.t.tagbz.getLsbD i)
      ∧ r.t.stats[i] = if i.val = tag then 0 else f.t.stats[i])
    ∧ ∀ i : Fin 64, r.t.detach.getLsbD i
      = if i.val = tag then (match kind with | .copy _ _ true => true | _ => false) else f.t.detach.getLsbD i

/-- The scratchpad blocks of a list are at hand in `g`. -/
def Frame.BlocksReady (f : Frame) (blocks : List Nat) (g : Frame) : Prop :=
  f.touchAll (blocks.map fun b => .block (Fin.ofNat 512 b)) = .ok g

/-- No speculation is open (R157, R202, R233). -/
def Frame.Agreed (f : Frame) : Prop := f.t.spec = none

/-- `r` is `f` after a call with this serial has claimed its blocks, from the end of the cycle (R198). -/
def Frame.claimed (f : Frame) (serial : Nat) (blocks : List Nat) : Frame :=
  { f with s := { f.s with claims := f.s.claims ++ [⟨f.c.id, .call serial, blocks, false, f.c.nextRid⟩], nextId := f.s.nextId + 1 } }

/-- The global atomic's instruction (R245). -/
def globalAtomicInstr (h : Slot) (a : Src) : AtomicOp → Instr
  | .add => .gaAdd h a
  | .and => .gaAnd h a
  | .or => .gaOr h a
  | .xor => .gaXor h a
  | .min => .gaMin h a
  | .max => .gaMax h a
  | .swap => .gaSwap h a
  | .cas => .gaCas h a

/-- The descriptor operations with what they check and how they walk (R242 to R244). -/
def descForms : List (DescUse × Walk × (Slot → Src → Instr)) :=
  [(.copy, .plain, .cpyN), (.detached, .plain, .cpyNd), (.gather, .gather, .ceGath), (.scatter, .scatter, .ceScat),
   (.accLd, .plain, .accLd), (.accSt, .plain, .accSt)]

/-- The transform calls with the kind of plan that each needs (R223). -/
def xfuForms : List (Nat × Nat × (Slot → Src → Instr)) :=
  [(0x21, 0, .xfft), (0x22, 0, .xffti), (0x23, 1, .xlegf), (0x24, 1, .xlegi), (0x25, 2, .xshtf), (0x26, 2, .xshti)]

/-! ### Micro-operations and events -/

/-- An event of the device has run. -/
def State.marked (s : State) : State := { s with moved := true }

/-- The MXE stands, as `f`, before a micro-operation that it is to perform: its word can be read, and its condition holds (R207,
R209, R371). -/
def State.MicroRuns (s : State) (m : Micro) (f : MxFrame) : Prop :=
  s.mxFrame = some f ∧ f.wordSound = true ∧ (m.c = true → (f.mp m.k.toNat).getLsbD m.cb.toNat = true)

/-- A call may read or write `n` scratchpad bytes from `a`: they are in range and aligned, their blocks are claimed, and none is
uncorrectable (R212, R371). -/
def MxFrame.Reads (f : MxFrame) (a n align : Nat) : Prop :=
  a % align = 0 ∧ a + n ≤ 0x200000 ∧ (∀ b ∈ blocksOf a n, b ∈ f.s.ownedBlocks f.c.id) ∧ f.s.bad (Key.pad f.c.id a) n = false

/-- The variable operand of a micro-operation (R209). -/
def MxFrame.operand (f : MxFrame) (m : Micro) : Nat :=
  if m.p then (f.mp m.k.toNat).toNat / 2 ^ (16 * (m.imm.toNat % 4)) % 2 ^ 16 else m.imm.toNat % 2 ^ 16

/-- The bank of MSTR and MZERO (R209). -/
def MxFrame.bankOf (f : MxFrame) (m : Micro) : Nat :=
  if m.p then (f.mp m.k.toNat).toNat / 2 ^ (16 * (m.imm.toNat % 4)) % 8 else m.bk.toNat

/-- A micro-operation (R210). -/
def IsMicro (i : Micro → Instr) : Prop :=
  i = .mnop ∨ i = .mend ∨ i = .mseta ∨ i = .madd ∨ i = .msetc ∨ i = .mloop ∨ i = .mjmp ∨ i = .mlda ∨ i = .mldb
    ∨ i = .mldsa ∨ i = .mldsw ∨ i = .mlde ∨ i = .mldm ∨ i = .mstr ∨ i = .mzero ∨ i = .mstacc ∨ i = .mldacc

end Sys2Proof.Machine
end

