-- ==== Sys2Proof/Certificates/Slice0/Obligations.lean ====
section
/-! DEFINITION. The statements about the machine that are to be proved. -/

open Sys2Proof Sys2Proof.Machine

/-! ### Steps, decoding, reset and memory -/

/-- R39, R67, R76, R332: a step runs the instruction that is next: a held operation whose turn has come, its own instruction; else
the event from outside at the head of the agenda, but that a management request outside its phase of the frame, or behind another,
waits in order; else, for the strand whose turn it is, the opening of its next bundle or the
instruction that the slot word at which it stands decodes to. A strand that cannot issue passes its turn, a word that no unit has
traps ILLENC, and a group that must wait as a whole issues nothing: memory, every context and the cycle are as they were. Else the
device acts by itself: what is due, the command core's frame, its records, requests and graphs, another event, or the cycle's end;
every such act is the meaning of an instruction. The agenda and the turns are the model's own (notes/assumptions/3.md), and so is
that a record, or a request behind one, waits for a port that retrains (96). -/
def Obligations.StepRuns : Prop :=
  (∀ s : State,
    (∀ t c r x i, s.turnCtx = some (t, c, r) → c.heldOf r.rid = some x → x.op = some (.again i) →
      step s = exec i { s with turn := t.sid :: s.turn })
    ∧ (s.turnCtx = none →
      (∀ i l, s.agenda = i :: l →
        ((isRequest i = false ∨ s.inManagement = true ∧ s.requests = []) → step s = exec i { s with agenda := l })
        ∧ (isRequest i = true → (s.inManagement = false ∨ s.requests ≠ []) →
          step s = .next { s with agenda := l, requests := s.requests ++ [i] }))
      ∧ (s.agenda = [] → ∀ (sid : Nat) (l : List Nat) (f : Frame), s.turn = sid :: l → s.frameOf sid = some f →
        (s.able f.t = false → step s = .next { s with turn := s.turn.filter (· != sid) })
        ∧ (s.able f.t = true →
          (∀ t, f.groupHolds = some t → step s = .next t ∧ t.mem = s.mem ∧ t.ctxs = s.ctxs ∧ t.cycle = s.cycle)
          ∧ (f.groupHolds = none →
            (f.c.seq.issuing = false → step s = exec .bundleIssue s)
            ∧ (f.c.seq.issuing = true → ∀ d, decodeSlot (UnitName.ofCode f.c.seq.slot) (f.c.seq.block.getLsbD (192 + f.c.seq.slot))
                (f.c.seq.block.extractLsb' (24 * f.c.seq.slot) 24) = d →
              (∀ i, d = some i → step s = exec i s)
              ∧ (d = none → step s = .next (takeTrap f ⟨1, 0, 0, 0, 0, none⟩ false))))))
      ∧ (s.agenda = [] → s.turn = [] →
        (∀ a l, s.dueActs = a :: l → step s = a.run s)
        ∧ (s.dueActs = [] →
          (s.frameDue = true → step s = exec .frameStart s)
          ∧ (s.frameDue = false →
            (s.partDue = true → step s = .next s.framePart)
            ∧ (s.partDue = false →
              (s.inService = true → (∃ d ∈ s.dues, s.dueReady d = true) → step s = .next s.writeDues)
              ∧ ((s.inService = false ∨ ∀ d ∈ s.dues, s.dueReady d = false) →
                (s.requestDue = true → ∃ i l, s.requests = i :: l ∧ step s = exec i { s with requests := l })
                ∧ (s.requestDue = false →
                  (∀ a, s.gsqAct = some a → step s = a.run { s with gsqAt := s.cycle + 2 })
                  ∧ (s.gsqAct = none →
                    (s.moved = true → step s = .next s.tick)
                    ∧ (s.moved = false → (∀ a, s.pickAct = some a → step s = a.run s)
                      ∧ (s.pickAct = none → step s = .next s.tick)))))))))))
  ∧ ∀ a : Act, ∃ i : Instr, ∀ s : State, a.run s = exec i s

/-- R39, R48, R50, R51, R54, R58, R67, R76, R139, R371, R382: the opening of a bundle. One whose block at the program counter is a
bundle, with its literal blocks, and passes the checks of decode, is opened: its words and literals are what the slots read, its
leaf is what the tree picks, its first and last guards are fixed by the level GL, and the strand stands at slot 0; nothing else
changes but the loop buffers, in which an active level whose body holds the bundle keeps its blocks, and the cached translations and
clocks that the fetch touches. An address that cannot be fetched traps BADTGT, with SUB 1 and a record for system software,
uncorrectable bytes MCHK, a block that is no bundle BADTGT with SUB 0, with the address of the bundle that led there; a bundle with a
fault of encoding or of dependence traps ILLENC or ILLDEP; all before anything of it issues. A 257th bundle of a speculation waits.
That an active level keeps a bundle's blocks when it is opened, if they are not in its buffer yet, is the model's choice
(notes/assumptions/9.md). -/
def Obligations.BundleOpens : Prop :=
  ∀ (s : State) (f : Frame), s.frame = some f →
    (∀ p, f.t.spec = some p → 256 ≤ p.bundles → exec .bundleIssue s = .next (Frame.put { f with
      s := { f.s with turn := f.s.turn.filter (· != f.t.sid) }
      t := { f.t with waits := some .agreement } }))
    ∧ ((∀ p, f.t.spec = some p → p.bundles < 256) →
      let pc := f.c.pc
      let refused (g : State) (b : Block) (r : TrapRec) : State := takeTrap { f with
        s := g
        c := { f.c with seq := { f.c.seq with
          block := b
          issuing := false } } } r true
      let Seen (g : State) : Prop := g = { f.s with
        tlb := g.tlb
        clocks := g.clocks }
      (∀ va why, f.fetchBlock pc = .error (.refused va why) →
        exec .bundleIssue s = .next (refused (f.s.informStrand f.t 4 .fetch why va) 0 ⟨4, 1, f.c.seq.reached, 0, 0, none⟩))
      ∧ (∀ va, f.fetchBlock pc = .error (.corrupt va) → exec .bundleIssue s = .next (refused f.s 0 ⟨12, 0, 0, 0, 0, none⟩))
      ∧ ∀ b : Block, f.fetchBlock pc = .ok b → ∃ g, Seen g
        ∧ (b.getLsbD 255 = false → exec .bundleIssue s = .next (refused g b ⟨4, 0, f.c.seq.reached, 0, 0, none⟩))
        ∧ (b.getLsbD 255 = true →
          (∀ va why, Frame.fetchLiterals { f with s := g } pc (b.toNat / 2 ^ 253 % 4) = .error (.refused va why) →
            exec .bundleIssue s = .next (refused (g.informStrand f.t 4 .fetch why va) b ⟨4, 1, f.c.seq.reached, 0, 0, none⟩))
          ∧ ∀ ls, Frame.fetchLiterals { f with s := g } pc (b.toNat / 2 ^ 253 % 4) = .ok ls → ∃ g', Seen g'
            ∧ (illegalEncoding b ls = true → exec .bundleIssue s = .next (refused g' b ⟨1, 0, 0, 0, 0, none⟩))
            ∧ (illegalEncoding b ls = false → illegalDependence b ls = true →
              exec .bundleIssue s = .next (refused g' b ⟨2, 0, 0, 0, 0, none⟩))
            ∧ (illegalEncoding b ls = false → illegalDependence b ls = false →
              let test (j : Nat) : Bool := f.c.preds.getLsbD (b.toNat / 2 ^ (247 - 4 * j) % 8) != b.getLsbD (250 - 4 * j)
              let leaf := match b.toNat / 2 ^ 251 % 4 with
                | 0 => 5
                | 1 => if test 0 then 1 else if test 1 then 2 else if test 2 then 3 else if test 3 then 4 else 5
                | _ => if test 0 then (if test 1 then 1 else 2) else (if test 2 then 3 else if test 3 then 4 else 5)
              ∃ r : Frame, exec .bundleIssue s = .next r.put
                ∧ r.s = g' ∧ r.t = { f.t with
                  waits := none
                  spec := f.t.spec.map fun p => { p with bundles := p.bundles + 1 } }
                ∧ r.c = { f.c with
                  levels := r.c.levels
                  seq := r.c.seq }
                ∧ (∀ n : Fin 6, let l := f.c.levels[n]
                  r.c.levels[n] = { l with code :=
                    if l.active = true ∧ l.start ≤ pc ∧ pc ≤ l.fin ∧ ∀ x ∈ l.code, x.1 ≠ pc then
                      l.code ++ (pc, b) :: ls.zipIdx.map fun p => ((pc + 32 * (p.2 + 1)) % 2 ^ 64, p.1)
                    else l.code })
                ∧ r.c.seq.issuing = true ∧ r.c.seq.block = b ∧ r.c.seq.slot = 0 ∧ r.c.seq.group = 0 ∧ r.c.seq.leaf = leaf
                ∧ r.c.seq.goto = none ∧ r.c.seq.skip = none ∧ r.c.seq.reached = f.c.seq.reached
                ∧ (∀ (j : Fin ls.length) (m : Fin 7),
                  r.c.seq.lits[7 * j.val + m.val]? = some (ls[j].extractLsb' (32 * m.val) 32))
                ∧ ∀ lv : Fin 6, b.toNat / 2 ^ 200 % 8 = lv →
                  (r.c.seq.first = true ↔ f.c.levels[lv].active = false ∨ f.c.levels[lv].lc = 0)
                  ∧ (r.c.seq.last = true ↔ f.c.levels[lv].active = false
                    ∨ (f.c.levels[lv].lb).toNat ≤ (f.c.levels[lv].lc).toNat + 1))))

/-- R57, R63, R66, R208: the words of the tables decode to what they stand for: `sc: add s17` with S and K clear, a fused
multiply-add of f32, a conversion to e4m3 by CVTSC, VLDT, a squashable VMAXI, a saturating add of i16, TROW.e16, a move to a
port that binds nothing, TRET, CALLR, an immediate; a port that no unit has and SEL 111 are refused. -/
def Obligations.DecodeWords : Prop :=
  let go : Slot := ⟨false, false, .always⟩
  decodeSlot .sc false 0x000221 = some (.add go ⟨.read, .s 17⟩)
  ∧ decodeSlot .va false 0x006240 = some (.fmaF go .f32 ⟨.read, .f 0⟩)
  ∧ decodeSlot .vb false 0x034801 = some (.cvtsc go (.fp .e4m3) ⟨.read, .q 1⟩)
  ∧ decodeSlot .va false 0x03D424 = some (.vldt go ⟨.read, .s 20⟩)
  ∧ decodeSlot .vb false 0x43C600 = some (.vmaxi ⟨false, true, .always⟩ ⟨.read, .q 0⟩)
  ∧ decodeSlot .va false 0x021233 = some (.iadds go .i16 ⟨.read, .v 3⟩)
  ∧ decodeSlot .tr false 0x000434 = some (.trowE16 go ⟨.read, .v 4⟩)
  ∧ decodeSlot .sc false 0x042932 = some (.moveOperandPort go .va .b ⟨.bind, .v 2⟩)
  ∧ decodeSlot .ct false 0x003600 = some (.tret go)
  ∧ decodeSlot .vb true 0xA3FC00 = some (.immBindBF32 true 0x3FC00)
  ∧ decodeSlot .sc false 0x005800 = none
  ∧ decodeSlot .sc true 0x700000 = none
  ∧ decodeMicro 0x0400000000000000 = some (.mend ⟨0, 0, 0, false, false, false, 0, 0, 0⟩)

/-- R57, R63, R64, R65, R66, R78 to R83, R208: decode and encode agree. For every well-formed instruction with a slot word, every slot that has it
reads that word, with the IM bit, as the instruction, with every operand at every value; what a slot reads is well formed and is
coded by the word it was read from; a micro-word reads as the micro-operation that it codes. -/
def Obligations.EncodingRoundTrips : Prop :=
  (∀ (i : Instr) (u : Option UnitName) (im : Bool) (w : SlotWord), i.wf = true → encode i = .slot u im w →
    ∀ v, (u = none ∨ u = some v ∨ u = some .va ∧ v = .vb ∨ u = some .ca ∧ v = .cb) → decodeSlot v im w = some i)
  ∧ (∀ (v : UnitName) (im : Bool) (w : SlotWord) (i : Instr), decodeSlot v im w = some i →
    i.wf = true ∧ ∃ u, encode i = .slot u im w ∧ (u = none ∨ u = some v ∨ u = some .va ∧ v = .vb ∨ u = some .ca ∧ v = .cb))
  ∧ (∀ (i : Instr) (w : Word), encode i = .micro w → decodeMicro w = some i)
  ∧ ∀ (w : Word) (i : Instr), decodeMicro w = some i → encode i = .micro w

/-- R267, R323, R339, R361, R365: the registers that the rules give a reset value have it after reset, and memory lists nothing,
which is its canonical form; that unwritten memory reads zero is the model's choice (notes/assumptions/4.md). -/
def Obligations.ResetState : Prop :=
  State.reset.Canonical ∧ (∀ k, Memory.get State.reset.mem k = 0)
  ∧ (∀ d : Fin 8, ∀ n : Fin 16, State.reset.dies[d].dom[n] = if n = 0 then 0x800FFFFFF100007F else 0)
  ∧ (∀ q, let x := State.reset.queue q
    x.w0 = 0 ∧ x.w1 = 0 ∧ x.w2 = 0 ∧ x.rdidx = 0 ∧ x.cwridx = 0 ∧ x.donecnt = 0 ∧ x.mapped = none)
  ∧ State.reset.iclamp = 3000 ∧ State.reset.ptroot = 0
  ∧ State.reset.fltbase = 0 ∧ State.reset.fltwr = 0 ∧ State.reset.fltrd = 0 ∧ State.reset.fltvec = 0 ∧ State.reset.fltlost = 0
  ∧ State.reset.tasks = [] ∧ State.reset.strands = []

/-- R57, R59, R60, R68, R71, R148, R160: a trigger that has just begun, whose units are at hand, with a plain source,
ports that read no stream and kinds it accepts, and whose unit holds no operation, takes what the source and the ports hold; a token source gives its oldest token and pops it; an
operand that is untyped is read as its low bits in every lane, and the lane index as each lane's own number. -/
def Obligations.OperandsDeliver : Prop :=
  (∀ (f g : Frame) (trig : Trig) (a : Src), trig.a = some a → (∀ p, f.plainPort trig.u p = true) →
    f.touchAll (f.trigUnits trig) = .ok g → f.c.held.filter (·.unit == trig.u) = [] → f.c.seq.late = [] →
    let kindOf (p : OpPort) (used : Bool) : Kind := if used then (f.portNow trig.u p).kind else .untyped
    (∀ v : Val, sourceStream a.src = false → g.readValue a.src = .ok v →
      trig.kinds f v.kind (kindOf .b trig.b) (kindOf .c trig.c) = true →
      ∃ k : Fetch, f.Takes trig (f.argsNow trig.u v) k false ∧ k.f = g ∧ k.fault = none)
    ∧ (∀ (n : Fin 4) (w : Word) (l : List Word), a.src = .k n → a.mode = .read → g.tokens n = w :: l →
      (∀ p ∈ g.c.seq.pops, p.2.1 = .k n → p.1 = g.c.seq.slot ∨ p.2.2 = false) →
      trig.kinds f .untyped (kindOf .b trig.b) (kindOf .c trig.c) = true →
      ∃ k : Fetch, f.Takes trig (f.argsNow trig.u (.untyped w)) k false ∧ k.f.tokens n = l ∧ k.fault = none
        ∧ ∀ m : Fin 4, m ≠ n → k.f.tokens m = g.tokens m))
  ∧ ∀ (w i : Nat) (x : Word), w ∈ [4, 8, 16, 32, 64] → i < 2048 / w →
    (lane w ((Val.untyped x).lanes w) i).toNat = x.toNat % 2 ^ w ∧ (lane w (Val.lane.lanes w) i).toNat = i % 2 ^ w

/-- R16: a write of bytes leaves each of them at its address, the first at the lowest, and every other byte as it was; a value that has
been stored little-endian is what the same bytes read as. -/
def Obligations.MemoryReadAfterWrite : Prop :=
  ∀ (m : List Host.Cell) (k : Nat) (bs : List Byte), Memory.wf m = true →
    (∀ i : Fin bs.length, Memory.get (Memory.write m k bs) (k + i) = bs[i])
    ∧ (∀ j, j < k ∨ k + bs.length ≤ j → Memory.get (Memory.write m k bs) j = Memory.get m j)
    ∧ Memory.read (Memory.write m k bs) k bs.length = bs
    ∧ ∀ n x : Nat, Memory.num (Memory.write m k (bytesLE n x)) k n = x % 2 ^ (8 * n)

/-- Every step keeps the canonical form of memory: addresses strictly rising, and no entry equal to what an unlisted address reads as,
in every state, whatever instruction or event the step runs (the form is the model's, notes/assumptions/4.md). -/
def Obligations.MemoryStaysCanonical : Prop :=
  ∀ s t : State, s.Canonical → step s = .next t → t.Canonical

/-! ### Slots: NOP, guards, moves and immediates -/

/-- R58, R72, R349: a NOP whose guard holds has no effect; the slot is passed. So is any slot whose guard is false, or that TRET has
asked to skip: nothing of it is read, popped, written or triggered, and it raises no trap. -/
def Obligations.NopAndFalseGuards : Prop :=
  (∀ (h : Slot) (s : State) (f : Frame), s.Runs h f → exec (.nop h) s = .next (f.advance h.stop))
  ∧ ∀ (u : UnitName) (im : Bool) (w : SlotWord) (i : Instr) (s : State) (f : Frame), decodeSlot u im w = some i →
    let h : Slot := if im then ⟨w.getLsbD 23, false, .always⟩ else slotFields w.toNat
    s.Skips h f → exec i s = .next (f.advance h.stop)

/-- R65: a move to sn leaves bits [63:0] of the value there and every other scalar register alone. A move to vn leaves the
value and tag of a tagged source there; an untyped value in each of the 32 64-bit elements, tagged ui64; the indices 0 to 31 of
source 119, tagged ui64. A move to pn leaves 1 there if bits [63:0] of the value are nonzero, else 0, and every other
predicate alone. Nothing else changes but what the delivery took, and that R369's check bits of the register written are made
anew. -/
def Obligations.RegisterMoves : Prop :=
  ∀ (h : Slot) (a : Src) (s : State) (f g : Frame) (v : Val), s.Runs h f →
    (∀ n : Fin 32, f.Carries (Frame.scalarUnits n) a v g →
      ∃ r : Frame, exec (.moveScalar h n a) s = .next (r.advance h.stop) ∧ f.Delivered g
        ∧ r = { g with c := { g.c with low := r.c.low, ring := r.c.ring, bad := r.c.bad } }
        ∧ (∀ x, x ∈ r.c.bad ↔ x ∈ g.c.bad ∧ x ≠ g.c.scalarPlace n)
        ∧ r.c.readS n = v.low ∧ (∀ m : Fin 32, m ≠ n → r.c.readS m = g.c.readS m) ∧ s.SameMemory r.s)
    ∧ (∀ n : Fin 16, f.Carries (fun _ => [.vfile]) a v g →
      ∃ (r : Frame) (tag : Tag) (bits : Vec), exec (.moveVector h n a) s = .next (r.advance h.stop) ∧ f.Delivered g
        ∧ r = { g with c := { g.c with vregs := g.c.vregs.set n (tag, bits), bad := r.c.bad } }
        ∧ (∀ x, x ∈ r.c.bad ↔ x ∈ g.c.bad ∧ x ≠ .vreg n)
        ∧ (match v with
          | .tagged t b => tag = t ∧ bits = b
          | .untyped w => tag = 14 ∧ ∀ i, i < 32 → lane 64 bits i = w
          | .lane => tag = 14 ∧ ∀ i, i < 32 → (lane 64 bits i).toNat = i)
        ∧ s.SameMemory r.s)
    ∧ (∀ n : Fin 8, f.Carries (fun _ => []) a v g →
      ∃ r : Frame, exec (.movePredicate h n a) s = .next (r.advance h.stop) ∧ f.Delivered g
        ∧ r = { g with c := { g.c with preds := r.c.preds } }
        ∧ r.c.preds.getLsbD n = decide (v.low ≠ 0) ∧ (∀ m : Fin 8, m ≠ n → r.c.preds.getLsbD m = g.c.preds.getLsbD m)
        ∧ s.SameMemory r.s)

/-- R64: a move to lcn or lbn sets the counter or the bound of the level to the value's low 20 bits, unsigned; a move to
SLK sets the remaining slack to its low 16 bits; a move to CBX sets the index to its bits [9:0], and the bank reloads. -/
def Obligations.MoveSpecialWrites : Prop :=
  ∀ (h : Slot) (n : Fin 6) (a : Src) (s : State) (f g : Frame) (v : Val), s.Runs h f →
    (f.Carries (fun _ => [.loops]) a v g →
      (∃ r : Frame, exec (.moveLc h n a) s = .next (r.advance h.stop)
        ∧ r = { g with c := { g.c with levels := g.c.levels.set n { g.c.levels[n] with lc := v.low.setWidth 20 } } })
      ∧ (∃ r : Frame, exec (.moveLb h n a) s = .next (r.advance h.stop)
        ∧ r = { g with c := { g.c with levels := g.c.levels.set n { g.c.levels[n] with lb := v.low.setWidth 20 } } }))
    ∧ (f.Carries (fun _ => []) a v g →
      (∃ r : Frame, exec (.moveSlk h a) s = .next (r.advance h.stop)
        ∧ r = { g with c := { g.c with slk := v.low.setWidth 16 } })
      ∧ (∃ r : Frame, exec (.moveCbx h a) s = .next (r.advance h.stop)
        ∧ r = { g with t := { g.t with cbx := v.low.setWidth 10, cbxTill := g.s.cycle + 6 } }))

/-- R59, R69, R71: a read or peek to an operand port supplies the value to it, a binding staying beneath; a bind of a value
latches that value; a bind of a stream latches the stream and pops nothing. What else the port holds is as it stood before the
first write to it in the group, so that of two writes the later slot's stands; and that is remembered for the next such write. -/
def Obligations.MovePortWrites : Prop :=
  ∀ (h : Slot) (u : UnitName) (p : OpPort) (a : Src) (s : State) (f g : Frame) (v : Val), s.Runs h f →
    ((a.mode = .read ∨ a.mode = .peek) → f.Carries (fun _ => []) a v g →
      ∃ r : Frame, exec (.moveOperandPort h u p a) s = .next (r.advance h.stop)
        ∧ (r.port u p).supply = some v ∧ (r.port u p).bind = (g.portBefore u p).bind
        ∧ r = { g with c := { g.c with
          ports := r.c.ports
          seq := { g.c.seq with portw := r.c.seq.portw } } }
        ∧ r.portBefore u p = g.portBefore u p
        ∧ ∀ u' p', (u', p') ≠ (u, p) → r.port u' p' = g.port u' p' ∧ r.portBefore u' p' = g.portBefore u' p')
    ∧ ((a.mode = .bind ∨ a.mode = .bindPeek) → sourceStream a.src = false → f.Carries (fun _ => []) a v g →
      ∃ r : Frame, exec (.moveOperandPort h u p a) s = .next (r.advance h.stop)
        ∧ (r.port u p).bind = some (.value v) ∧ (r.port u p).supply = (g.portBefore u p).supply
        ∧ r = { g with c := { g.c with
          ports := r.c.ports
          seq := { g.c.seq with portw := r.c.seq.portw } } }
        ∧ r.portBefore u p = g.portBefore u p
        ∧ ∀ u' p', (u', p') ≠ (u, p) → r.port u' p' = g.port u' p' ∧ r.portBefore u' p' = g.portBefore u' p')
    ∧ ((a.mode = .bind ∨ a.mode = .bindPeek) → sourceStream a.src = true → f.touchAll (f.sourceUnits a.src) = .ok g →
      ∃ r : Frame, exec (.moveOperandPort h u p a) s = .next (r.advance h.stop)
        ∧ (r.port u p).bind = some (.stream a.src (decide (a.mode = .bindPeek)))
        ∧ (r.port u p).supply = (g.portBefore u p).supply
        ∧ r = { g with c := { g.c with
          ports := r.c.ports
          seq := { g.c.seq with portw := r.c.seq.portw } } }
        ∧ r.portBefore u p = g.portBefore u p
        ∧ ∀ u' p', (u', p') ≠ (u, p) → r.port u' p' = g.port u' p' ∧ r.portBefore u' p' = g.portBefore u' p')

/-- R66: an immediate slot always takes effect: it binds B or C of its own unit to SInt(IMM), untyped, or to the FP32 or FP64
value that IMM is the top of, in every lane (the model's choice, notes/assumptions/6.md), or sets lb of level GL to IMM. -/
def Obligations.ImmediatesComplete : Prop :=
  ∀ (stop : Bool) (imm : BitVec 20) (s : State) (f g : Frame), s.Runs ⟨stop, false, .always⟩ f →
    (∀ p ∈ [(OpPort.b, Instr.immBindBInt stop imm), (.c, .immBindCInt stop imm)],
      exec p.2 s = .next ((f.bind f.unit p.1 (.value (.untyped (imm.signExtend 64)))).advance stop))
    ∧ (∀ p ∈ [(OpPort.b, Instr.immBindBF32 stop imm), (.c, .immBindCF32 stop imm)], ∃ bits : Vec,
      exec p.2 s = .next ((f.bind f.unit p.1 (.value (.tagged 1 bits))).advance stop)
        ∧ ∀ i, i < 64 → bits.extractLsb' (32 * i) 32 = imm ++ (0 : BitVec 12))
    ∧ (∀ p ∈ [(OpPort.b, Instr.immBindBF64 stop imm), (.c, .immBindCF64 stop imm)], ∃ bits : Vec,
      exec p.2 s = .next ((f.bind f.unit p.1 (.value (.tagged 0 bits))).advance stop)
        ∧ ∀ i, i < 32 → bits.extractLsb' (64 * i) 64 = imm ++ (0 : BitVec 44))
    ∧ (f.touchAll [.loops] = .ok g → ∃ r : Frame, exec (.immSetLb stop imm) s = .next (r.advance stop)
      ∧ r = { g with c := { g.c with levels := r.c.levels } }
      ∧ ∀ n : Fin 6, r.c.levels[n] = if n.val = hdrGl f.c.seq.block then { g.c.levels[n] with lb := imm } else g.c.levels[n])

/-! ### The scalar unit -/

/-- R122, R123, R124, R125, R126: each integer operation and compare pushes its result of the tables, tagged i64, after its
latency, and raises no flag: arithmetic wraps modulo 2⁶⁴, division and remainder never trap, a field is at position
UInt(B[5:0]) with width Min(UInt(C[6:0]), 64), and a compare gives 1 when its relation holds and 0 when it does not. -/
def Obligations.IntegerResults : Prop :=
  ∀ (o : ScalarOp) (h : Slot) (a : Src) (s : State) (f : Frame) (x : Args) (k : Fetch) (held : Bool),
    o ∈ [ScalarOp.add, .sub, .and, .or, .xor, .andn, .shl, .shr, .sar, .mul, .mulh, .mulhu, .div, .divu, .rem, .remu, .min,
      .minu, .max, .maxu, .clz, .ctz, .popc, .sext, .zext, .lea, .bfx, .bfi, .cmpeq, .cmpne, .cmplt, .cmple, .cmpltu, .cmpleu] →
    s.Runs h f → f.Takes (pureTrig (.scalar o) .sc a) x k held → x.wait = false → f.c.fpsetWaits = false →
    ∃ r : Word, exec (scalarInstr h a o) s = .next (k.after h (pureTrig (.scalar o) .sc a) x held
        (.result (if o ∈ [ScalarOp.mul, .mulh, .mulhu] then 3 else if o ∈ [ScalarOp.div, .divu, .rem, .remu] then 18 else 1)
          ⟨9, r.setWidth 2048, 0⟩))
      ∧ IntegerRule o x.a.value.low x.b.value.low x.c.value.low r
      ∧ DivisionRule o x.a.value.low x.b.value.low r
      ∧ FieldRule o x.a.value.low x.b.value.low x.c.value.low x.d.value.low r
      ∧ (o ∈ [ScalarOp.cmpeq, .cmpne, .cmplt, .cmple, .cmpltu, .cmpleu] →
        (CompareRule o x.a.value.low x.b.value.low → r = 1) ∧ (¬CompareRule o x.a.value.low x.b.value.low → r = 0))

/-- R105, R109, R122, R126, R127: each FP64 operation pushes its result after its latency, tagged f64, or i64 for a compare and a
conversion to integer: the exact value rounded once under the group's RM, with NX, UF and OF as that rounding raises them; its NaNs,
zeros, infinities, order and other flags are as the rules give them. -/
def Obligations.Fp64Results : Prop :=
  ∀ (o : ScalarOp) (h : Slot) (a : Src) (s : State) (f : Frame) (x : Args) (k : Fetch) (held : Bool),
    o ∈ [ScalarOp.fcmpeq, .fcmplt, .fcmple, .fcmpun, .fadd, .fsub, .fmul, .ffma, .fdiv, .fsqrt, .fmin, .fmax, .fabs, .fneg,
      .fcvtI64, .fcvtF64] →
    s.Runs h f → f.Takes (pureTrig (.scalar o) .sc a) x k held → x.wait = false → f.c.fpsetWaits = false →
    ∃ (r : Word) (fl : Flags), exec (scalarInstr h a o) s = .next (k.after h (pureTrig (.scalar o) .sc a) x held
        (.result (if o = .fdiv ∨ o = .fsqrt then 24 else 4)
          ⟨if o ∈ [ScalarOp.fcmpeq, .fcmplt, .fcmple, .fcmpun, .fcvtI64] then 9 else 0, r.setWidth 2048, fl⟩))
      ∧ Fp64Rule o (fpstRm f.t.snap.ctx.fpst) x.a.value.low x.b.value.low x.c.value.low r fl

/-- R103, R105: a magnitude rounded to whole units goes to a neighbouring number of units, as the rounding mode says: to the
nearest with ties to even, toward zero, toward +∞ or toward −∞; it is inexact when it is no whole number of them.
R105, R107: the encoding of a magnitude whose first digits are known, with something below them when they are not all, is that of the
magnitude rounded once, with its flags. R107: a conversion to the source's own format returns every encoding but a NaN unchanged, with no flag. -/
def Obligations.ConversionRounding : Prop :=
  (∀ (rm : BitVec 2) (neg : Bool) (m : Nat) (e q : Int), e ≤ q →
      let u := 2 ^ (q - e).toNat
      let r := roundUnits rm neg m e false q
      (r.1 = m / u ∨ r.1 = m / u + 1) ∧ (r.2 = true ↔ ¬u ∣ m) ∧ (u ∣ m → r.1 * u = m)
        ∧ (rm = 0 → 2 * (r.1 * u) ≤ 2 * m + u ∧ 2 * m ≤ 2 * (r.1 * u) + u
          ∧ (2 * (r.1 * u) = 2 * m + u ∨ 2 * m = 2 * (r.1 * u) + u → r.1 % 2 = 0))
        ∧ (rm = 1 → r.1 * u ≤ m)
        ∧ (rm = 2 → if neg then r.1 * u ≤ m else m ≤ r.1 * u)
        ∧ (rm = 3 → if neg then m ≤ r.1 * u else r.1 * u ≤ m))
  ∧ (∀ (f : FpFmt) (rm : BitVec 2) (n : Nat), n < 2 ^ codeBits f → (decodeFl f n).isNaN = false →
      flToFp f rm (decodeFl f n) = (n, 0))
  ∧ (∀ (f : FpFmt) (rm : BitVec 2) (neg : Bool) (m : ℕ) (e : ℤ) (sticky : Bool) (x : ℝ),
      (m : ℝ) * (2 : ℝ) ^ e ≤ x → x < ((m : ℝ) + 1) * (2 : ℝ) ^ e → (sticky = true ↔ x ≠ (m : ℝ) * (2 : ℝ) ^ e) →
      (sticky = true → 2 ^ ((fmtSpec f).mbits + 2) ≤ m) →
      Rounded f rm neg x (packFin f rm neg m e sticky).1 (packFin f rm neg m e sticky).2)

/-! ### The vector unit -/

/-- R161, R165, R166: each integer operation of the vector unit pushes, after four cycles, the lane results of its table, with
A's tag, the in format for an untyped A, or the unsigned format for a compare; SAT alone can be raised, and only where a
saturating lane is clipped. -/
def Obligations.VectorIntegerResults : Prop :=
  ∀ (o : IntOp) (h : Slot) (e : IntW) (a : Src) (s : State) (f : Frame) (x : Args) (k : Fetch) (held : Bool),
    s.Runs h f → f.Takes (pureTrig (.vector (.int o e)) f.unit a) x k held → x.wait = false → f.c.fpsetWaits = false →
    ∃ (tag : Tag) (bits : Vec) (fl : Flags),
      exec (intInstr h e a o) s = .next (k.after h (pureTrig (.vector (.int o e)) f.unit a) x held (.result 4 ⟨tag, bits, fl⟩))
      ∧ (∀ i, i < 2048 / e.bits → LaneRule o (lane e.bits (x.a.value.lanes e.bits) i) (lane e.bits (x.b.value.lanes e.bits) i)
          (lane e.bits bits i))
      ∧ (fl = 0 ∨ fl = 32) ∧ (fl = 32 ↔ ∃ i, i < 2048 / e.bits
          ∧ LaneClips o (lane e.bits (x.a.value.lanes e.bits) i) (lane e.bits (x.b.value.lanes e.bits) i))
      ∧ tag.toNat = (if o = .cmpeq ∨ o = .cmplt ∨ o = .cmpltu then e.uinTag
          else match x.a.value with | .tagged t _ => t.toNat | _ => e.inTag)

/-- R161, R163, R164: each floating operation of the vector unit pushes, after its latency, its element's result in every
lane, tagged with its format, or for a compare all ones or all zeros, tagged with the unsigned format of the width; the flags
of all lanes are ORed; ABS and NEG act on the sign bit alone and raise none. R105, R106, R107: an element is the exact result of the
operation on the numbers that the lanes stand for, rounded once to the format under the group's RM; its NaNs, infinities, zeros,
overflow, order and flags are as the format's policy has them. -/
def Obligations.VectorFloatingResults : Prop :=
  ∀ (o : FpOp) (h : Slot) (e : FpFmt) (a : Src) (s : State) (f : Frame) (x : Args) (k : Fetch) (held : Bool),
    s.Runs h f → f.Takes (pureTrig (.vector (.fp o e)) f.unit a) x k held → x.wait = false → f.c.fpsetWaits = false →
    let w := elemBits e
    let elem (i : Nat) : Nat × Flags := fpElem e o (fpstRm f.t.snap.ctx.fpst) (lane w (x.a.value.lanes w) i).toNat
      (lane w (x.b.value.lanes w) i).toNat (lane w (x.c.value.lanes w) i).toNat
    let compares : Bool := decide (o = .cmpeq ∨ o = .cmplt ∨ o = .cmple ∨ o = .cmpun)
    ∃ (tag : Tag) (bits : Vec) (fl : Flags),
      exec (fpInstr h e a o) s = .next (k.after h (pureTrig (.vector (.fp o e)) f.unit a) x held
        (.result (if o = .div ∨ o = .sqrt then (if e = .f64 then 20 else 12) else 4) ⟨tag, bits, fl⟩))
      ∧ tag.toNat = (if compares then uintTag w else e.code)
      ∧ (∀ i, i < 2048 / w → if compares then lane w bits i = (if (elem i).1 = 1 then BitVec.allOnes w else 0)
          else (lane w bits i).toNat = (elem i).1)
      ∧ (∀ j, fl.getLsbD j = true ↔ ∃ i, i < 2048 / w ∧ (elem i).2.getLsbD j = true)
      ∧ (∀ i, i < 2048 / w → ElementRule e o (fpstRm f.t.snap.ctx.fpst) ((lane w (x.a.value.lanes w) i).toNat % 2 ^ codeBits e)
          ((lane w (x.b.value.lanes w) i).toNat % 2 ^ codeBits e) ((lane w (x.c.value.lanes w) i).toNat % 2 ^ codeBits e)
          (elem i).1 (elem i).2)
      ∧ (o = .abs → fl = 0 ∧ ∀ i, i < 2048 / w →
          (lane w bits i).toNat = (lane w (x.a.value.lanes w) i).toNat % 2 ^ (codeBits e - 1))
      ∧ (o = .neg → fl = 0 ∧ ∀ i, i < 2048 / w →
          (lane w bits i).toNat % 2 ^ (codeBits e - 1) = (lane w (x.a.value.lanes w) i).toNat % 2 ^ (codeBits e - 1)
          ∧ (lane w bits i).getLsbD (codeBits e - 1) = !(lane w (x.a.value.lanes w) i).getLsbD (codeBits e - 1))

/-- R107, R109, R110, R112, R161, R167, R168, R169, R170: a conversion whose part number is in range, and for CVTSC its run origin at most 23, pushes
after four cycles, tagged with the target format: element j of part P is at lane P·n + j of a narrowing conversion and comes
from lane P·n + j of a widening one; every other lane of a narrowing one is the merge operand's. An element of CVT is its source's
number rounded once into the target, one of CVTSC the exact product with its block's multiplier rounded once, and one of CVTSR the
magnitude that its sixteen random bits carry up or leave; NaNs, infinities and overflow follow the target's policy, and the flags
of all elements are ORed. CVTSR takes sixteen steps of the LFSR for each element. That no conversion runs while an FPSET of its
context is held is the model's choice (notes/assumptions/70.md). -/
def Obligations.ConversionResults : Prop :=
  ∀ (o : CvtOp) (h : Slot) (t : CvtT) (a : Src) (s : State) (f : Frame) (x : Args) (k : Fetch) (held : Bool),
    s.Runs h f → f.Takes (pureTrig (.vector (.cvt o t)) f.unit a) x k held → x.wait = false → f.c.fpsetWaits = false →
    let st := cvtSourceTag o x.a.value
    let ws := tagWidth st
    let wt := tagWidth t.code
    let n := min (2048 / ws) (2048 / wt)
    let p := if o = .cvtsc then x.c.value.low.toNat / 32 % 8 else x.b.value.low.toNat % 8
    let origin := x.c.value.low.toNat % 32
    let merge := (if o = .cvtsc then x.d else x.c).value.wide
    p < max (2048 / ws) (2048 / wt) / n → (o = .cvtsc → origin ≤ 23) →
    let src (j : Nat) : Nat := (lane ws (x.a.value.lanes ws) (if wt > ws then p * n + j else j)).toNat
    let lfsr := fpstLfsr (k.ready f.unit).c.fpst
    let mult (j : Nat) : Nat := (lane 32 (x.b.value.lanes 32) ((j + origin) / 24)).toNat
    let rnd (j : Nat) : Nat := (lfsrSteps (16 * j) lfsr).toNat % 2 ^ 16
    let fmt := (FpFmt.ofCode? t.code).getD .f64
    let elem (j : Nat) : Nat × Flags := match o with
      | .cvt => cvtElem st t.code (fpstRm f.t.snap.ctx.fpst) (src j)
      | .cvtsc => cvtscElem st t.code (fpstRm f.t.snap.ctx.fpst) (src j) (mult j)
      | .cvtsr => stochasticFp fmt (rnd j) (elemValue st (src j))
    ∃ (bits : Vec) (fl : Flags) (g : Frame),
      exec (vectorInstr h a (.cvt o t)) s = .next ((g.settle h (pureTrig (.vector (.cvt o t)) f.unit a) k x held
        ⟨some (4, ⟨BitVec.ofNat 5 t.code, bits, fl⟩), none,
          if o = .cvtsr then some (lfsr, (k.ready f.unit).c.cvtsrs, (k.ready f.unit).c.writes) else none, [], 0, none⟩).advance h.stop)
      ∧ (o ≠ .cvtsr → g = k.ready f.unit)
      ∧ (o = .cvtsr → g = { k.ready f.unit with c := { (k.ready f.unit).c with
          fpst := fpstSetLfsr (k.ready f.unit).c.fpst (lfsrSteps (16 * n) lfsr)
          cvtsrs := (k.ready f.unit).c.cvtsrs + 1 } })
      ∧ (∀ j, j < n → (lane wt bits (if wt < ws then p * n + j else j)).toNat = (elem j).1)
      ∧ (∀ b, fl.getLsbD b = true ↔ ∃ j, j < n ∧ (elem j).2.getLsbD b = true)
      ∧ (∀ j, j < n →
        (o = .cvt → CvtRule st t.code (fpstRm f.t.snap.ctx.fpst) (src j) (elem j).1 (elem j).2)
        ∧ (o = .cvtsc → ScaledRule st t.code (fpstRm f.t.snap.ctx.fpst) (src j) (mult j) (elem j).1 (elem j).2)
        ∧ (o = .cvtsr → RandomRule st fmt (rnd j) (src j) (elem j).1 (elem j).2))
      ∧ (wt < ws → ∀ i, i < 2048 / wt → (i < p * n ∨ p * n + n ≤ i) → lane wt bits i = lane wt merge i)

/-- R161, R171, R172: the reductions and the searches push after six cycles. REDADD of integer lanes is their sum modulo 2⁶⁴;
REDMAX and REDMIN of integer lanes are a lane of the first m′ that none exceeds; VMAXI and VMINI of integer lanes give in bits
[63:0] the lowest index of such a lane and in bits [127:64] its value. REDADD of floating lanes is their exact sum rounded once to
FP32, or FP64, with the canonical NaN for a NaN lane or infinities of both signs, an infinity for one, and −0 for a zero sum of
lanes that are all −0 or under RDN; REDMAX and REDMIN are the greatest and the least number, −0 below +0, or the canonical NaN where
every lane is a NaN; VMAXI and VMINI give the lowest index of it and its value, passing NaNs over or, with C[0] set, giving the
lowest NaN's index and the canonical NaN, and index −1 where every lane is one. A signalling NaN sets NV.
R99, R161, R173: PERM gives lane i of A at the index in B's lane modulo the lane count, BCAST one lane of A in every lane, and
SEL A's lane where C's is not zero and B's where it is; each after four cycles, with A's tag or, for SEL of an untyped A, B's;
bits [7:6] of byte-form FP6 lanes are ignored and come out zero. -/
def Obligations.ReductionAndPermuteResults : Prop :=
  (∀ (o : VecOp) (h : Slot) (a : Src) (s : State) (f : Frame) (x : Args) (k : Fetch) (held : Bool),
      o ∈ [VecOp.redadd, .redmax, .redmin, .vmaxi, .vmini] →
      s.Runs h f → f.Takes (pureTrig (.vector o) f.unit a) x k held → x.wait = false → f.c.fpsetWaits = false →
      let t := x.a.value.tagOr 14
      let w := tagWidth t
      let m := x.b.value.low.toNat % 1024
      let count := if m = 0 ∨ 2048 / w < m then 2048 / w else m
      let value (i : Nat) : Int := laneInt t (lane w (x.a.value.lanes w) i).toNat
      let best (r : Nat) : Prop := r < count ∧ ∀ i, i < count →
        if o = .redmax ∨ o = .vmaxi then value i ≤ value r else value r ≤ value i
      ∃ (tag : Tag) (bits : Vec) (fl : Flags),
        exec (vectorInstr h a o) s = .next (k.after h (pureTrig (.vector o) f.unit a) x held (.result 6 ⟨tag, bits, fl⟩))
        ∧ (o = .vmaxi ∨ o = .vmini → tag = 9)
        ∧ (9 ≤ t → fl = 0
          ∧ (o = .redadd → tag = 9 ∧ (bits.toNat : Int) = (((List.range count).map value).sum) % 2 ^ 64)
          ∧ (o = .redmax ∨ o = .redmin → tag.toNat = t
            ∧ ∃ r, best r ∧ bits.toNat = (lane w (x.a.value.lanes w) r).toNat)
          ∧ (o = .vmaxi ∨ o = .vmini → ∃ r, best r ∧ (∀ i, i < r → value i ≠ value r)
            ∧ bits.toNat = r + (lane w (x.a.value.lanes w) r).toNat * 2 ^ 64))
        ∧ (∀ e : FpFmt, FpFmt.ofCode? t = some e →
          let code (i : Nat) : Nat := (lane w (x.a.value.lanes w) i).toNat % 2 ^ codeBits e
          let some (p : Nat → Prop) : Prop := ∃ i, i < count ∧ p (code i)
          let g : FpFmt := if e = .f64 then .f64 else .f32
          let nan := some (IsNaN e)
          let inf (n : Bool) : Prop := some fun c => IsInf e c ∧ fpNeg e c = n
          let allNaN := ∀ i, i < count → IsNaN e (code i)
          let top (r : Nat) : Prop := r < count ∧ ¬IsNaN e (code r) ∧ ∀ i, i < count → ¬IsNaN e (code i) →
            if o = .redmax ∨ o = .vmaxi then fpRank e (code i) ≤ fpRank e (code r) else fpRank e (code r) ≤ fpRank e (code i)
          (o = .redadd → tag = (if t = 0 then 0 else 1)
            ∧ (nan ∨ inf true ∧ inf false → NaNResult g (some (IsSig e) ∨ inf true ∧ inf false) bits.toNat fl)
            ∧ (∀ n, ¬nan → inf n → ¬inf (!n) → InfResult g n bits.toNat fl)
            ∧ (¬nan → (∀ n, ¬inf n) → RoundsIn g (fpstRm f.t.snap.ctx.fpst)
                ((((List.range count).map fun i => fpValue e (code i)).sum : ℚ) : ℝ)
                (decide ((∀ i, i < count → code i = signBit e true) ∨ fpstRm f.t.snap.ctx.fpst = 3)) bits.toNat fl))
          ∧ (o ≠ .redadd → (some (IsSig e) → fl = 1) ∧ (¬some (IsSig e) → fl = 0))
          ∧ (o = .redmax ∨ o = .redmin → tag.toNat = t ∧ (allNaN → bits.toNat = canonicalNaN e)
            ∧ (¬allNaN → ∃ r, top r ∧ bits.toNat = code r))
          ∧ (o = .vmaxi ∨ o = .vmini →
            let first (r : Nat) : Prop := r < count ∧ IsNaN e (code r) ∧ ∀ i, i < r → ¬IsNaN e (code i)
            (x.c.value.low.getLsbD 0 = true → ∀ r, first r → bits.toNat = r + canonicalNaN e * 2 ^ 64)
            ∧ (x.c.value.low.getLsbD 0 = false → allNaN → bits.toNat = 2 ^ 64 - 1 + canonicalNaN e * 2 ^ 64)
            ∧ ((x.c.value.low.getLsbD 0 = false ∨ ¬nan) → ¬allNaN → ∃ r, top r
              ∧ (∀ i, i < r → ¬IsNaN e (code i) → fpRank e (code i) ≠ fpRank e (code r)) ∧ bits.toNat = r + code r * 2 ^ 64))))
  ∧ (∀ (o : VecOp) (h : Slot) (a : Src) (s : State) (f : Frame) (x : Args) (k : Fetch) (held : Bool),
      o ∈ [VecOp.perm, .bcast, .sel] →
      s.Runs h f → f.Takes (pureTrig (.vector o) f.unit a) x k held → x.wait = false → f.c.fpsetWaits = false →
      let t := x.a.value.tagOr (if o = .sel then x.b.value.tagOr 14 else 14)
      let w := tagWidth t
      let cut (v : Vec) (i : Nat) : BitVec w :=
        if t = 6 ∨ t = 7 then BitVec.ofNat w ((lane w v i).toNat % 64) else lane w v i
      ∃ (tag : Tag) (bits : Vec),
        exec (vectorInstr h a o) s = .next (k.after h (pureTrig (.vector o) f.unit a) x held (.result 4 ⟨tag, bits, 0⟩))
        ∧ tag.toNat = t
        ∧ ∀ i, i < 2048 / w → lane w bits i =
            (if o = .perm then cut (x.a.value.lanes w) ((lane w (x.b.value.lanes w) i).toNat % (2048 / w))
              else if o = .bcast then cut (x.a.value.lanes w) (x.b.value.low.toNat % 512 % (2048 / w))
              else if lane w (x.c.value.lanes w) i ≠ 0 then cut (x.a.value.lanes w) i
              else cut (x.b.value.lanes w) i))

/-- R147, R187: a computation that reads a column of a block still open is held: the place of its result is taken now, and what
it computes waits for the column; what its other operands make illegal traps now. While an FPSET of its context is held, which
comes before it, a computation waits at its slot and SLK runs (the model's choice, notes/assumptions/70.md).
R123 to R127, R163 to R173, R104: a computation writes no register, no special register and no byte of memory; it leaves
FPST as it was, but that CVTSR steps its LFSR; what it computes reaches the result queue later. -/
def Obligations.ComputationFrame : Prop :=
  (∀ (o : PureOp) (h : Slot) (a : Src) (s : State) (f0 f : Frame) (x : Args) (k : Fetch) (held : Bool),
      s.frame = some f0 → s.Runs h f →
      let u := match o with | .scalar _ => UnitName.sc | .vector _ => f.unit
      let i := match o with | .scalar p => scalarInstr h a p | .vector p => vectorInstr h a p
      f.Takes (pureTrig o u a) x k held →
      (f.c.fpsetWaits = true → exec i s = .next (Frame.put { f with
        s := { f.s with turn := f.s.turn.filter (· != f.t.sid) }
        t := { f.t with waits := some .element }
        c := { f.c with slk := f.c.slk - (if f.c.slk = 0 then 0 else 1) } }))
      ∧ (f.c.fpsetWaits = false → x.wait = true → (∃ p, o = .scalar p) → ∃ g e, pureRun o (k.ready u) x = .ok (g, e))
      ∧ (x.wait = true → ∀ (g : Frame) (e : Effect), pureRun o (k.ready u) x = .ok (g, e) →
        exec i s = .next ((g.settle h (pureTrig o u a) k x held e).advance h.stop)
        ∧ (∃ p, e.push = some (pureLatency o, p)) ∧ e.op = some (.compute o))
      ∧ (x.wait = true → ∀ r : TrapRec, pureRun o (k.ready u) x = .error (.trap r) →
        exec i s = .next (takeTrap f0.begin { r with
          opa := x.a.low
          opb := x.b.low } false)))
  ∧ (∀ (o : PureOp) (h : Slot) (a : Src) (s : State) (f g : Frame) (x : Args) (k : Fetch) (held : Bool) (e : Effect),
      s.Runs h f → f.Takes (pureTrig o (match o with | .scalar _ => .sc | .vector _ => f.unit) a) x k held →
      pureRun o (k.ready (match o with | .scalar _ => .sc | .vector _ => f.unit)) x = .ok (g, e) →
      ∃ r : Frame, exec (match o with | .scalar p => scalarInstr h a p | .vector p => vectorInstr h a p) s
          = .next (r.advance h.stop)
        ∧ f.SameRegisters r ∧ f.SameSpecials r ∧ s.SameMemory r.s
        ∧ ((∀ t, o ≠ .vector (.cvt .cvtsr t)) → r.c.fpst = f.c.fpst)
        ∧ fpstRm r.c.fpst = fpstRm f.c.fpst ∧ fpstFlags r.c.fpst = fpstFlags f.c.fpst)

/-! ### Scratchpad and window words -/

/-- R122, R128, R129, R162: a scratchpad load whose address is legal and behind no access that waits pushes the bytes at addr :=
UInt(A) + SInt(B), as the strand's stores have left them, sign-extended or zero-extended, tagged i64, after six cycles.
R133: CLD pushes word UInt(A) of the constant path's current snapshot, tagged i64, after twelve cycles; a word at or beyond
its end reads as zero, and no index traps. -/
def Obligations.LoadedWords : Prop :=
  (∀ p ∈ padLoadForms, ∀ (h : Slot) (a : Src) (s : State) (f g : Frame) (x : Args) (k : Fetch) (held : Bool),
      s.Runs h f → f.Takes (scalarTrig a true false true) x k held → x.wait = false →
      let addr := (x.a.value.low + x.b.value.low).toNat
      (k.ready .sc).PadReady addr p.1 false g → g.PadGood [addr] p.1 →
      ∃ r : Word, exec (p.2.2 h a) s = .next (g.leaves h (scalarTrig a true false true) k x held (.result 6 ⟨9, r.setWidth 2048, 0⟩))
        ∧ (∀ i, i < p.1 → byteOf r i = g.byte (Key.pad g.c.id (addr + i)))
        ∧ ∀ i, 8 * p.1 ≤ i → i < 64 → r.getLsbD i = (p.2.1 && r.getLsbD (8 * p.1 - 1)))
  ∧ (∀ (h : Slot) (a : Src) (s : State) (f : Frame) (x : Args) (k : Fetch) (held : Bool),
      let trig : Trig := { scalarTrig a false false true with
        lat := some 12
        late := .act }
      s.Runs h f → f.Takes trig x k held → x.wait = false →
      ∃ r : Word, exec (.cld h a) s = .next (k.after h trig x held (.result 12 ⟨9, r.setWidth 2048, 0⟩))
        ∧ (∀ i : Fin f.t.const.length, x.a.value.low.toNat = i → r = f.t.const[i])
        ∧ (f.t.const.length ≤ x.a.value.low.toNat → r = 0))

/-- R16, R128, R129, R287, R382: a scratchpad store outside speculation writes the low bytes of C at addr, little-endian, pushes
nothing and changes no other byte, no register and no special register; during speculation, with fewer than 32 stores held, or behind
stores that still drain, it is held: no byte of memory changes, and the strand itself reads what it has stored.
R122, R132: a scratchpad atomic, outside speculation, reads the aligned word at A, pushes it, tagged i64, after six cycles,
and writes the new value of its table there; no other byte, register or special register changes; the bytes it replaced are kept
while it can be killed. -/
def Obligations.StoredWordsAndAtomics : Prop :=
  (∀ p ∈ padStoreForms, ∀ (h : Slot) (a : Src) (s : State) (f g : Frame) (x : Args) (k : Fetch) (held : Bool),
      s.Runs h f → s.Canonical → f.Takes (scalarTrig a true true false) x k held → x.wait = false →
      let addr := (x.a.value.low + x.b.value.low).toNat
      let key := Key.pad f.c.id addr
      (k.ready .sc).PadReady addr p.1 true g → (g.t.spec ≠ none → g.heldStores < 32) →
      ∃ r : Frame, exec (p.2 h a) s = .next (r.advance h.stop)
        ∧ f.SameRegisters r ∧ f.SameSpecials r ∧ r.c.fpst = f.c.fpst ∧ s.SameOutside r.s key p.1
        ∧ (g.holds = false → (∀ i, i < p.1 → Memory.get r.s.mem (key + i) = byteOf x.c.value.low i))
        ∧ (∀ i, i < p.1 → r.byte (key + i) = byteOf x.c.value.low i)
        ∧ (g.holds = true → s.SameMemory r.s))
  ∧ (∀ (o : AtomicOp) (h : Slot) (a : Src) (s : State) (f g : Frame) (x : Args) (k : Fetch) (held : Bool),
      s.Runs h f → s.Canonical → f.Takes (atomicTrig o a 6) x k held → x.wait = false →
      (k.ready .sc).t.spec = none → (k.ready .sc).t.drain = [] →
      let addr := x.a.value.low.toNat
      let key := Key.pad f.c.id addr
      (k.ready .sc).PadReady addr 8 true g → g.PadGood [addr] 8 →
      ∃ (old new : Word) (r : Frame),
        exec (atomicInstr h a o) s = .next (r.leaves h (atomicTrig o a 6) k x held ⟨some (6, ⟨9, old.setWidth 2048, 0⟩), none, none,
          (List.range 8).map fun i => (key + i, byteOf old i, byteOf new i), 0, none⟩)
        ∧ AtomicRule o old x.b.value.low x.c.value.low new
        ∧ (∀ i, i < 8 → byteOf old i = Memory.get s.mem (key + i) ∧ Memory.get r.s.mem (key + i) = byteOf new i)
        ∧ s.SameOutside r.s key 8 ∧ f.SameRegisters r ∧ f.SameSpecials r ∧ r.c.fpst = f.c.fpst)

/-- R128, R130, R132, R167, R169: a scratchpad address at or above 0x0020_0000, then one that is no multiple of the width,
traps ALIGN, and an owner bit of 1 traps OWNF; an atomic's address is A. A window address whose access would pass the window's W
bytes, and one that is no multiple of the width, traps ALIGN. The address is recorded. A conversion's part number out of
range and a run origin above 23 trap ILLENC, at issue, whatever operand is still to come. -/
def Obligations.OperandTraps : Prop :=
  (∀ (p : Nat × Bool × (Slot → Src → Instr)) (h : Slot) (a : Src) (s : State) (f0 f : Frame) (x : Args) (k : Fetch)
      (held c pushes : Bool),
    (p ∈ padLoadForms ∧ c = false ∧ pushes = true ∨ (p.1, p.2.2) ∈ padStoreForms ∧ c = true ∧ pushes = false) →
    s.frame = some f0 → s.Runs h f → f.Takes (scalarTrig a true c pushes) x k held → x.wait = false →
    let addr := (x.a.value.low + x.b.value.low).toNat
    ((0x200000 ≤ addr ∨ addr % p.1 ≠ 0) →
      exec (p.2.2 h a) s = .next (takeTrap f0.begin ⟨7, 0, addr, x.a.low, x.b.low, none⟩ false))
    ∧ (addr < 0x200000 → addr % p.1 = 0 → (k.ready .sc).ownerBit (addr / 4096) = true →
      exec (p.2.2 h a) s = .next (takeTrap f0.begin ⟨5, 0, addr, x.a.low, x.b.low, none⟩ false)))
  ∧ (∀ (o : AtomicOp) (h : Slot) (a : Src) (s : State) (f0 f : Frame) (x : Args) (k : Fetch) (held : Bool),
    s.frame = some f0 → s.Runs h f → f.Takes (atomicTrig o a 6) x k held → x.wait = false →
    (k.ready .sc).t.spec = none → (k.ready .sc).t.drain = [] →
    let addr := x.a.value.low.toNat
    ((0x200000 ≤ addr ∨ addr % 8 ≠ 0) →
      exec (atomicInstr h a o) s = .next (takeTrap f0.begin ⟨7, 0, addr, x.a.low, x.b.low, none⟩ false))
    ∧ (addr < 0x200000 → addr % 8 = 0 → (k.ready .sc).ownerBit (addr / 4096) = true →
      exec (atomicInstr h a o) s = .next (takeTrap f0.begin ⟨5, 0, addr, x.a.low, x.b.low, none⟩ false)))
  ∧ (∀ (p : Nat × (Slot → Src → Instr)) (h : Slot) (a : Src) (s : State) (f0 f : Frame) (x : Args) (k : Fetch)
        (held c pushes : Bool),
      (p ∈ windowLoadForms ∧ c = false ∧ pushes = true ∨ p ∈ windowStoreForms ∧ c = true ∧ pushes = false) →
      s.frame = some f0 → s.Runs h f → f.Takes (windowTrig a true c pushes (!pushes)) x k held → x.wait = false →
      let addr := (x.a.value.low + x.b.value.low).toNat
      ((k.ready .sc).s.windowSize (clusterOf (k.ready .sc).t.ptn) < addr + p.1 ∨ addr % p.1 ≠ 0) →
      exec (p.2 h a) s = .next (takeTrap f0.begin ⟨7, 0, addr, x.a.low, x.b.low, none⟩ false))
  ∧ (∀ (o : AtomicOp) (h : Slot) (a : Src) (s : State) (f0 f : Frame) (x : Args) (k : Fetch) (held : Bool),
      s.frame = some f0 → s.Runs h f → f.Takes (atomicTrig o a 12) x k held → x.wait = false →
      (k.ready .sc).t.spec = none → (k.ready .sc).t.drain = [] →
      let addr := x.a.value.low.toNat
      ((k.ready .sc).s.windowSize (clusterOf (k.ready .sc).t.ptn) < addr + 8 ∨ addr % 8 ≠ 0) →
      exec (windowAtomicInstr h a o) s = .next (takeTrap f0.begin ⟨7, 0, addr, x.a.low, x.b.low, none⟩ false))
  ∧ ∀ (o : CvtOp) (h : Slot) (t : CvtT) (a : Src) (s : State) (f0 f : Frame) (x : Args) (k : Fetch) (held : Bool),
      s.frame = some f0 → s.Runs h f → f.Takes (pureTrig (.vector (.cvt o t)) f.unit a) x k held → f.c.fpsetWaits = false →
      let y := (k.ready f.unit).guessArgs x
      let n := min (2048 / tagWidth (cvtSourceTag o y.a.value)) (2048 / tagWidth t.code)
      let p := if o = .cvtsc then y.c.value.low.toNat / 32 % 8 else y.b.value.low.toNat % 8
      (max (2048 / tagWidth (cvtSourceTag o y.a.value)) (2048 / tagWidth t.code) / n ≤ p
        ∨ o = .cvtsc ∧ 23 < y.c.value.low.toNat % 32) →
      exec (vectorInstr h a (.cvt o t)) s = .next (takeTrap f0.begin ⟨1, 0, 0, x.a.low, x.b.low, none⟩ false)

/-- R122, R130, R131: a window load, store or atomic whose address is legal, that reads no uncorrectable byte and stands behind no access
that waits, is to reach its bank six cycles on, in order of its tile's position; a load and an atomic have a place in flight for what
they push after twelve cycles, a load with the held stores of its own strand that it sees: those of a speculation and those that
still drain; nothing else changes. A store during speculation, or behind stores that still drain, is held.
R161, R180, R131: a legal VLD.CL or VST.CL is to reach the window's banks six cycles on; VLD.CL has a place in flight for
the 256 bytes it pushes, with its TAG, after sixteen cycles. -/
def Obligations.WindowAccessesIssue : Prop :=
  let reaching (g : Frame) (addr : Nat) (op : WinOp) : Frame := { g with s := { g.s with win := g.s.win ++
    [⟨clusterOf g.t.ptn, g.s.cycle + 6, positionOf g.t.ptn, g.c.id, addr, op, g.c.nextRid⟩] } }
  let Stores (i : Instr) (s : State) (g : Frame) (addr : Nat) (bs : List Byte) (left : Frame → State) : Prop :=
    (g.t.spec = none → g.t.drain = [] → exec i s = .next (left (reaching g addr (.store bs))))
    ∧ (g.t.spec = none → g.t.drain ≠ [] → exec i s = .next (left { g with t := { g.t with drain := g.t.drain ++
        [⟨true, [(Key.window (clusterOf g.t.ptn) addr, bs)], g.c.id, g.c.nextRid⟩] } }))
    ∧ ∀ q, g.t.spec = some q → g.heldStores < 32 → exec i s = .next (left { g with t := { g.t with spec := some { q with
        stores := q.stores ++ [⟨true, [(Key.window (clusterOf g.t.ptn) addr, bs)], g.c.id, g.c.nextRid⟩] } } })
  (∀ p ∈ windowLoadForms, ∀ (h : Slot) (a : Src) (s : State) (f g : Frame) (x : Args) (k : Fetch) (held : Bool),
      s.Runs h f → f.Takes (windowTrig a true false true false) x k held → x.wait = false →
      let addr := (x.a.value.low + x.b.value.low).toNat
      (k.ready .sc).WindowReady addr p.1 p.1 false g → g.WindowGood addr p.1 →
      exec (p.2 h a) s = .next ((reaching g addr (.load (decide (p.1 = 8)) g.c.nextRid g.heldWindow)).leaves
        h (windowTrig a true false true false) k x held (.result 12 ⟨9, 0, 0⟩)))
  ∧ (∀ g : Frame, (∀ q, g.t.spec = some q → q.dead = []) → g.heldWindow = g.t.pendingStores.filter (·.window))
  ∧ (∀ p ∈ windowStoreForms, ∀ (h : Slot) (a : Src) (s : State) (f g : Frame) (x : Args) (k : Fetch) (held : Bool),
      s.Runs h f → f.Takes (windowTrig a true true false true) x k held → x.wait = false →
      let addr := (x.a.value.low + x.b.value.low).toNat
      (k.ready .sc).WindowReady addr p.1 p.1 true g →
      Stores (p.2 h a) s g addr (bytesLE p.1 x.c.value.low.toNat) fun r => r.leaves h (windowTrig a true true false true) k x held .quiet)
  ∧ (∀ (o : AtomicOp) (h : Slot) (a : Src) (s : State) (f g : Frame) (x : Args) (k : Fetch) (held : Bool),
      s.Runs h f → f.Takes (atomicTrig o a 12) x k held → x.wait = false →
      (k.ready .sc).t.spec = none → (k.ready .sc).t.drain = [] →
      let addr := x.a.value.low.toNat
      (k.ready .sc).WindowReady addr 8 8 true g → g.WindowGood addr 8 →
      exec (windowAtomicInstr h a o) s = .next ((reaching g addr (.atomic o x.b.value.low x.c.value.low g.c.nextRid)).leaves
        h (atomicTrig o a 12) k x held (.result 12 ⟨9, 0, 0⟩)))
  ∧ (∀ (h : Slot) (a : Src) (s : State) (f g : Frame) (x : Args) (k : Fetch) (held : Bool),
      s.Runs h f → f.Takes (vldClTrig f.unit a) x k held → x.wait = false →
      let addr := x.a.value.low.toNat
      let tag := accessTag x.b.value.low
      tag < 22 → (k.ready f.unit).WindowReady addr 256 16 false g → g.WindowGood addr 256 →
      exec (.vldCl h a) s = .next ((reaching g addr (.vload g.c.nextRid (BitVec.ofNat 5 tag)
          g.heldWindow)).leaves h (vldClTrig f.unit a) k x held (.result 16 ⟨BitVec.ofNat 5 tag, 0, 0⟩)))
  ∧ (∀ (h : Slot) (a : Src) (s : State) (f g : Frame) (x : Args) (k : Fetch) (held : Bool),
      s.Runs h f → f.Takes (vstClTrig f.unit a) x k held → x.wait = false →
      let addr := x.a.value.low.toNat
      (k.ready f.unit).WindowReady addr 256 16 true g →
      Stores (.vstCl h a) s g addr (bytesLE 256 x.b.value.wide.toNat) fun r => r.leaves h (vstClTrig f.unit a) k x held .quiet)

/-! ### Vector memory -/

/-- R161, R162, R175, R176: VLD, its access legal and behind no access that waits, pushes the 256 bytes whose chunk c stands at the
swizzled address of A + 16·c, with the access word's TAG, after eight cycles.
R161, R177: VLDT pushes, after ten cycles, the transpose of sixteen chunks: element 16·col + j of the result is element col
of the chunk at the swizzled address of A + j·P.
R161, R178: GATH pushes, after eight cycles, in each lane whose index is not 0xFFFF_FFFF the element at the swizzled address
of A + index · w/8, and zero in the others. -/
def Obligations.VectorLoads : Prop :=
  (∀ (h : Slot) (a : Src) (s : State) (f g : Frame) (x : Args) (k : Fetch) (held : Bool),
      s.Runs h f → f.Takes (vldTrig f.unit a) x k held → x.wait = false →
      let swz := accessSwz x.b.value.low
      let tag := accessTag x.b.value.low
      let base := x.a.value.low.toNat
      let phys := (List.range 16).map fun c => swizzle swz (base + 16 * c)
      (swz = 0 ∨ 7 ≤ swz ∧ swz ≤ 18) → tag < 22 →
      (k.ready f.unit).VectorReady phys 16 (base % 16 = 0) false g → g.PadGood phys 16 →
      ∃ bits : Vec, exec (.vld h a) s = .next (g.leaves h (vldTrig f.unit a) k x held (.result 8 ⟨BitVec.ofNat 5 tag, bits, 0⟩))
        ∧ ∀ c i, c < 16 → i < 16 → byteOf bits (16 * c + i) = g.byte (Key.pad g.c.id (swizzle swz (base + 16 * c) + i)))
  ∧ (∀ (h : Slot) (a : Src) (s : State) (f g : Frame) (x : Args) (k : Fetch) (held : Bool),
      s.Runs h f → f.Takes (vldtTrig f.unit a) x k held → x.wait = false →
      let swz := accessSwz x.c.value.low
      let tag := accessTag x.c.value.low
      let base := x.a.value.low.toNat
      let p := x.b.value.low.toNat % 2 ^ 17
      let w := tagWidth tag
      let phys := (List.range 16).map fun j => swizzle swz (base + j * p)
      (swz = 0 ∨ 7 ≤ swz ∧ swz ≤ 18) → tag < 22 → 4 ≤ w →
      (k.ready f.unit).VectorReady phys 16 (base % 16 = 0 ∧ p % 16 = 0 ∧ p ≤ 0x10000) false g → g.PadGood phys 16 →
      ∃ bits : Vec, exec (.vldt h a) s = .next (g.leaves h (vldtTrig f.unit a) k x held (.result 10 ⟨BitVec.ofNat 5 tag, bits, 0⟩))
        ∧ ∀ col j, col < 128 / w → j < 16 → (lane w bits (16 * col + j)).toNat
            = numLE ((List.range 16).map fun i => g.byte (Key.pad g.c.id (swizzle swz (base + j * p) + i))) / 2 ^ (w * col) % 2 ^ w)
  ∧ (∀ (h : Slot) (a : Src) (s : State) (f g : Frame) (x : Args) (k : Fetch) (held : Bool),
      s.Runs h f → f.Takes (gathTrig f.unit a) x k held → x.wait = false →
      let swz := accessSwz x.c.value.low
      let tag := accessTag x.c.value.low
      let base := x.a.value.low.toNat
      let w := tagWidth tag
      let index (i : Nat) : Nat := (lane 32 (x.b.value.lanes 32) i).toNat
      let phys := ((List.range (2048 / w)).filter fun i => index i ≠ 0xFFFFFFFF).map fun i => swizzle swz (base + index i * (w / 8))
      (swz = 0 ∨ 7 ≤ swz ∧ swz ≤ 18) → tag < 22 → (w = 32 ∨ w = 64) →
      (k.ready f.unit).VectorReady phys (w / 8) (base % (w / 8) = 0) false g → g.PadGood phys (w / 8) →
      ∃ bits : Vec, exec (.gath h a) s = .next (g.leaves h (gathTrig f.unit a) k x held (.result 8 ⟨BitVec.ofNat 5 tag, bits, 0⟩))
        ∧ ∀ i, i < 2048 / w → (lane w bits i).toNat = if index i = 0xFFFFFFFF then 0
            else numLE ((List.range (w / 8)).map fun b => g.byte (Key.pad g.c.id (swizzle swz (base + index i * (w / 8)) + b))))

/-- R162, R175, R176, R181, R287: a VST to an address, legal and behind no access that waits, stores chunk c of B at the swizzled
address of A + 16·c, pushes nothing, and changes no other byte, no register and no special register. During speculation, with fewer
than 32 stores held, or behind stores that still drain, the store is held: no byte of memory changes, and the strand reads its own data.
R184: a VST whose A[63] is 1 delivers to the write port A[2:0]: it stores at the port's next walk element with the port's
swizzle, and advances the walk.
R162, R178: a SCAT stores lane i of C at the swizzled address of A + index · w/8 for each active lane, the highest lane standing; no
other byte, register or special register changes. -/
def Obligations.VectorStores : Prop :=
  (∀ (h : Slot) (a : Src) (s : State) (f g : Frame) (x : Args) (k : Fetch) (held : Bool),
      s.Runs h f → s.Canonical → f.Takes (vstTrig f.unit a) x k held → x.wait = false →
      x.a.value.low.getLsbD 63 = false →
      let swz := accessSwz x.c.value.low
      let base := x.a.value.low.toNat
      let phys := (List.range 16).map fun c => swizzle swz (base + 16 * c)
      let key (c i : Nat) : Nat := Key.pad f.c.id (swizzle swz (base + 16 * c) + i)
      (swz = 0 ∨ 7 ≤ swz ∧ swz ≤ 18) → (k.ready f.unit).VectorReady phys 16 (base % 16 = 0) true g →
      (g.t.spec ≠ none → g.heldStores < 32) →
      ∃ r : Frame, exec (.vst h a) s = .next (r.advance h.stop)
        ∧ f.SameRegisters r ∧ f.SameSpecials r ∧ r.c.fpst = f.c.fpst
        ∧ (∀ c i, c < 16 → i < 16 → r.byte (key c i) = byteOf x.b.value.wide (16 * c + i))
        ∧ (g.holds = false → ∀ c i, c < 16 → i < 16 → Memory.get r.s.mem (key c i) = byteOf x.b.value.wide (16 * c + i))
        ∧ (g.holds = true → s.SameMemory r.s)
        ∧ ∀ j, (∀ c i, c < 16 → i < 16 → j ≠ key c i) → Memory.get r.s.mem j = Memory.get s.mem j)
  ∧ (∀ (h : Slot) (a : Src) (s : State) (f g g' : Frame) (x : Args) (k : Fetch) (held : Bool) (n : Fin 8),
      s.Runs h f → s.Canonical → f.Takes (vstTrig f.unit a) x k held → x.wait = false →
      x.a.value.low = 0x8000000000000000 + BitVec.ofNat 64 n →
      let d := (k.ready f.unit).c.feeds[n]
      let at_ := d.addr d.pos
      let phys := (List.range 16).map fun c => swizzle d.swz (at_ + 16 * c)
      let key (c i : Nat) : Nat := Key.pad f.c.id (swizzle d.swz (at_ + 16 * c) + i)
      (k.ready f.unit).c.nestWaits n = false → d.bound = true → d.write = true → (k.ready f.unit).touch .feeds = .ok g →
      Frame.VectorReady { g with c := { g.c with feeds := g.c.feeds.set n { d with pos := d.pos + 1 } } } phys 16
        (at_ % 16 = 0) true g' → (g'.t.spec ≠ none → g'.heldStores < 32) →
      ∃ r : Frame, exec (.vst h a) s = .next (r.advance h.stop) ∧ r.c.feeds[n].pos = d.pos + 1
        ∧ f.SameRegisters r ∧ f.SameSpecials r ∧ r.c.fpst = f.c.fpst
        ∧ (∀ c i, c < 16 → i < 16 → r.byte (key c i) = byteOf x.b.value.wide (16 * c + i))
        ∧ (g'.holds = false → ∀ c i, c < 16 → i < 16 → Memory.get r.s.mem (key c i) = byteOf x.b.value.wide (16 * c + i))
        ∧ (g'.holds = true → s.SameMemory r.s)
        ∧ ∀ j, (∀ c i, c < 16 → i < 16 → j ≠ key c i) → Memory.get r.s.mem j = Memory.get s.mem j)
  ∧ (∀ (h : Slot) (a : Src) (s : State) (f g : Frame) (x : Args) (k : Fetch) (held : Bool),
      s.Runs h f → s.Canonical → f.Takes (scatTrig f.unit a) x k held → x.wait = false →
      let swz := accessSwz x.d.value.low
      let tag := accessTag x.d.value.low
      let base := x.a.value.low.toNat
      let w := tagWidth tag
      let index (i : Nat) : Nat := (lane 32 (x.b.value.lanes 32) i).toNat
      let key (i : Nat) : Nat := Key.pad f.c.id (swizzle swz (base + index i * (w / 8)))
      let phys := ((List.range (2048 / w)).filter fun i => index i ≠ 0xFFFFFFFF).map fun i => swizzle swz (base + index i * (w / 8))
      (swz = 0 ∨ 7 ≤ swz ∧ swz ≤ 18) → tag < 22 → (w = 32 ∨ w = 64) →
      (k.ready f.unit).VectorReady phys (w / 8) (base % (w / 8) = 0) true g → (g.t.spec ≠ none → g.heldStores < 32) →
      ∃ r : Frame, exec (.scat h a) s = .next (r.advance h.stop)
        ∧ f.SameRegisters r ∧ f.SameSpecials r ∧ r.c.fpst = f.c.fpst
        ∧ (∀ i b, i < 2048 / w → b < w / 8 → index i ≠ 0xFFFFFFFF →
            (∀ j, i < j → j < 2048 / w → index j ≠ 0xFFFFFFFF → ∀ c, c < w / 8 → key j + c ≠ key i + b) →
            r.byte (key i + b) = byteOf (lane w (x.c.value.lanes w) i) b
            ∧ (g.holds = false → Memory.get r.s.mem (key i + b) = byteOf (lane w (x.c.value.lanes w) i) b))
        ∧ (g.holds = true → s.SameMemory r.s)
        ∧ ∀ n, (∀ i b, i < 2048 / w → b < w / 8 → index i ≠ 0xFFFFFFFF → n ≠ key i + b) →
            Memory.get r.s.mem n = Memory.get s.mem n)

/-- R104, R174: FPSET and FPFLUSH write FPST at the end of their group's cycle: FPSET the bits that B selects, from A; FPFLUSH
clears the sticky flags that A[5:0] names and pushes FPST as the group finds it, tagged ui64, and stalls while any operation is
held. At the group's end the writes take effect in slot order, the last standing on the bits that it selects, a zero LFSR being
stored as one, and reserved bits read as zero. R74: an FPFLUSH with K = 1 under a leaf guard, which its bundle's transfer kills,
clears only as it pushes. That of two writes of one group the lower slot's stands on the bits that the higher does not select, and
that what comes after a held FPSET waits for it, is the model's reading (notes/assumptions/70.md). -/
def Obligations.FpstWrites : Prop :=
  let stalls (f : Frame) (w : WaitOn) (slk : BitVec 16) : State := Frame.put { f with
    s := { f.s with turn := f.s.turn.filter (· != f.t.sid) }
    t := { f.t with waits := some w }
    c := { f.c with slk := slk } }
  (∀ (h : Slot) (a : Src) (s : State) (f : Frame) (x : Args) (k : Fetch) (held : Bool),
    let trig := fpsetTrig f.unit a
    s.Runs h f → f.Takes trig x k held → x.wait = false →
    (f.c.fpsetWaits = true → exec (.fpset h a) s = .next (stalls f .element (f.c.slk - (if f.c.slk = 0 then 0 else 1))))
    ∧ (f.c.fpsetWaits = false → ∃ r : Frame, exec (.fpset h a) s = .next (r.leaves h trig k x held .quiet)
      ∧ r.c.seq.fpst = f.c.seq.fpst ++ [(x.b.value.low, x.a.value.low)]
      ∧ f.SameRegisters r ∧ f.SameSpecials r ∧ s.SameMemory r.s ∧ r.c.fpst = f.c.fpst))
  ∧ (∀ (h : Slot) (a : Src) (s : State) (f : Frame) (x : Args) (k : Fetch) (held : Bool),
    let trig := fpflushTrig f.unit a
    let mask : Word := (x.a.value.low.setWidth 6).setWidth 64
    s.Runs h f → f.Takes trig x k held → x.wait = false →
    (f.c.held ≠ [] → exec (.fpflush h a) s = .next (stalls f .buffer f.c.slk))
    ∧ (f.c.held = [] → ∃ r : Frame,
      exec (.fpflush h a) s = .next (r.leaves h trig k x held
        ⟨some (1, ⟨14, f.t.snap.ctx.fpst.setWidth 2048, 0⟩), none, none, [], if slotLeafed h then mask else 0, none⟩)
      ∧ r.c.seq.fpst = f.c.seq.fpst ++ (if slotLeafed h then [] else [(mask, 0)])
      ∧ f.SameRegisters r ∧ f.SameSpecials r ∧ s.SameMemory r.s ∧ r.c.fpst = f.c.fpst))
  ∧ (∀ f : Frame, f.endGroup.c.fpst = fpstCommit f.c.fpst f.c.seq.fpst ∧ f.endGroup.c.seq.fpst = []
    ∧ (f.c.again = none → f.c.seq.slot < 7 → ∃ g : Frame, f.advance true = g.put
      ∧ g.c.fpst = fpstCommit f.c.fpst f.c.seq.fpst ∧ g.c.seq.fpst = []))
  ∧ (∀ w : Word, fpstCommit w [] = w)
  ∧ (∀ (w : Word) (l : List (Word × Word)) (m v : Word), let r := fpstCommit w (l ++ [(m, v)])
      (∀ i, i < 6 ∨ i = 8 ∨ i = 9 → r.getLsbD i = if m.getLsbD i then v.getLsbD i else (fpstCommit w l).getLsbD i)
      ∧ (∀ i, 6 ≤ i ∧ i < 8 ∨ 10 ≤ i ∧ i < 32 → r.getLsbD i = false)
      ∧ fpstLfsr r ≠ 0
      ∧ (fpstLfsr m = 0 → l ≠ [] → fpstLfsr r = fpstLfsr (fpstCommit w l))
      ∧ (fpstLfsr m = BitVec.allOnes 32 → fpstLfsr r = if fpstLfsr v = 0 then 1 else fpstLfsr v))
  ∧ ∀ (w m v : Word), let r := fpstCommit w [(m, v)]
      let q := w &&& ~~~m ||| v &&& m
      (∀ i, i < 6 ∨ i = 8 ∨ i = 9 → r.getLsbD i = if m.getLsbD i then v.getLsbD i else w.getLsbD i)
      ∧ (∀ i, 6 ≤ i ∧ i < 8 ∨ 10 ≤ i ∧ i < 32 → r.getLsbD i = false)
      ∧ fpstLfsr r = if fpstLfsr q = 0 then 1 else fpstLfsr q

/-- R186, R187: TROW pushes row A[32w−1:0] into the open block, opening one of A's tag if none is open; a 32nd row closes it; TDRAIN
closes the open block, whose missing rows then read as zero; what waits for a column of a block gets it when the block closes; TCLR
discards every block. -/
def Obligations.TransposerOps : Prop :=
  (∀ (p : Nat × (Slot → Src → Instr)) (h : Slot) (a : Src) (s : State) (f : Frame) (x : Args) (k : Fetch) (held : Bool),
    p ∈ [(8, Instr.trowE8), (16, .trowE16), (32, .trowE32), (64, .trowE64)] →
    let trig := transposerTrig (some a) (rowKinds p.1)
    s.Runs h f → f.Takes trig x k held → x.wait = false →
    let g := k.ready .tr
    let row : Vec := BitVec.ofNat 2048 ((x.a.value.lanes p.1).toNat % 2 ^ (32 * p.1))
    (∀ b, g.c.blocks.find? (!·.closed) = some b → b.width = p.1 →
      (match x.a.value with | .tagged t _ => t = b.tag | _ => True) →
      exec (p.2 h a) s = .next (Frame.leaves { g with c := g.c.addRow b row g.s.cycle } h trig k x held .quiet))
    ∧ (g.c.blocks.find? (!·.closed) = none → (g.c.blocks.filter (·.nextCol < 32)).length < 2 →
      ∃ b : TBlock, b.width = p.1 ∧ b.rows = [] ∧ b.closed = false ∧ b.serial = g.c.nextRid
        ∧ b.tag.toNat = (match x.a.value with | .tagged t _ => t.toNat | _ => uintTag p.1)
        ∧ exec (p.2 h a) s = .next (Frame.leaves
          { g with c := Ctx.addRow { g.c with blocks := g.c.blocks ++ [b] } b row g.s.cycle } h trig k x held .quiet)))
  ∧ (∀ (c : Ctx) (l m : List TBlock) (b : TBlock) (row : Vec) (cycle : Nat), c.blocks = l ++ b :: m → b.closed = false →
    (∀ y ∈ l, y.closed = true) → (∀ y ∈ l ++ m, y.serial ≠ b.serial) →
    let added : TBlock := { b with rows := b.rows ++ [row] }
    let full : TBlock := { added with
      closed := true
      closedAt := cycle }
    (b.rows.length + 1 ≠ 32 → c.addRow b row cycle = { c with blocks := l ++ added :: m })
    ∧ (b.rows.length + 1 = 32 → c.addRow b row cycle = { c with
        blocks := l ++ full :: m
        held := c.held.map fun y => y.resolve full }))
  ∧ (∀ (h : Slot) (s : State) (f : Frame) (x : Args) (k : Fetch) (held : Bool),
    let trig := transposerTrig none fun _ => anyKinds
    let g := k.ready .tr
    s.Runs h f → f.Takes trig x k held → x.wait = false →
    ∃ c : Ctx, exec (.tdrain h) s = .next (Frame.leaves { g with c := c } h trig k x held .quiet)
      ∧ (∀ l b m, g.c.blocks = l ++ b :: m → b.closed = false → (∀ y ∈ l, y.closed = true) → (∀ y ∈ l ++ m, y.serial ≠ b.serial) →
        let full : TBlock := { b with
          closed := true
          closedAt := g.s.cycle }
        c = { g.c with
          blocks := l ++ full :: m
          held := g.c.held.map fun y => y.resolve full })
      ∧ (g.c.blocks.find? (!·.closed) = none → c = g.c))
  ∧ (∀ (h : Slot) (s : State) (f : Frame) (x : Args) (k : Fetch) (held : Bool),
    let trig := transposerTrig none fun _ => anyKinds
    let g := k.ready .tr
    s.Runs h f → f.Takes trig x k held → x.wait = false →
    ∃ c : Ctx, exec (.tclr h) s = .next (Frame.leaves { g with
        s := { g.s with fresh := g.s.fresh + 1 }
        c := c } h trig k x held .quiet)
      ∧ c = { g.c with
        blocks := []
        held := c.held }
      ∧ (g.c.blocks.find? (!·.closed) = none → c.held = g.c.held))
  ∧ ∀ (b : TBlock) (j i : Nat), (b.width = 8 ∨ b.width = 16 ∨ b.width = 32 ∨ b.width = 64) → j < 32 → i < 32 → b.rows.length ≤ 32 →
      lane b.width (b.column j) i = match b.rows[i]? with
        | some row => lane b.width row j
        | none => 0

/-! ### The control unit -/

/-- R49, R134, R136, R137, R138: JMP and JMPR ask for a transfer to their target; CALL and CALLR, within the depth and the spill area,
spill the lowest pair, whose words can be read, if the bank has no room, and ask for the call; RET, above depth 0, asks for the return, when the pair it
returns to is resident, or has arrived. An absolute target that is no block address traps ALIGN; a call at depth 4095 traps WINOVF
with SUB 0, one that the spill area cannot hold with SUB 2, and a return at depth 0 with SUB 0. That the spilled words stand in the spill
area when the call issues is the model's choice (notes/assumptions/30.md). -/
def Obligations.TransfersOfControl : Prop :=
  ∀ (h : Slot) (a : Src) (s : State) (f0 f : Frame) (x : Args) (k : Fetch) (held : Bool),
    let trig := transferTrig (some a) false []
    s.frame = some f0 → s.Runs h f → f.Takes trig x k held → x.wait = false →
    let g := k.ready .ct
    let abs := x.a.value.low.toNat
    let rel := (((f.c.pc : Int) + 32 * (x.a.value.low.setWidth 32).toInt) % 2 ^ 64).toNat
    let d := f.c.depth + 1
    let trapped (cause sub addr : Nat) : State := takeTrap f0.begin ⟨cause, sub, addr, x.a.low, x.b.low, none⟩ false
    (abs % 32 = 0 → exec (.jmp h a) s = .next ((g.transfer (.jump abs)).leaves h trig k x held .quiet))
    ∧ exec (.jmpr h a) s = .next ((g.transfer (.jump rel)).leaves h trig k x held .quiet)
    ∧ (abs % 32 ≠ 0 → ∀ i ∈ [Instr.jmp h a, .call h a, .ret h a], exec i s = .next (trapped 7 0 abs))
    ∧ (∀ p : Nat × (Slot → Src → Instr), (p = (abs, .call) ∧ abs % 32 = 0 ∨ p = (rel, .callr)) →
      (f.c.depth = 4095 → exec (p.2 h a) s = .next (trapped 9 0 0))
      ∧ (f.c.depth ≠ 4095 → 2 ^ (f.c.spill.toNat % 32) < 128 * (d + 2) → exec (p.2 h a) s = .next (trapped 9 2 0))
      ∧ ∀ g' : Frame, f.c.depth ≠ 4095 → 128 * (d + 2) ≤ 2 ^ (f.c.spill.toNat % 32) → g.touch (g.pairBank d) = .ok g' →
        (d + 1 - f.c.lo + 1 ≤ 2 * g'.banks →
          exec (p.2 h a) s = .next
            (({ g' with c := { g'.c with hi := d + 1 } } : Frame).transfer (.call p.1) |>.leaves h trig k x held .quiet))
        ∧ (∀ (u : Frame) (t : State), 2 * g'.banks < d + 1 - f.c.lo + 1 → g'.t.spec = none →
          g'.t.spilling.length < 2 → g'.touch (g'.pairBank f.c.lo) = .ok u → (∀ n, n < 16 → Sram.ring ((16 * f.c.lo + n) % 256) ∉ f.c.bad) →
          u.s.tileWrite f.t.ptn (f.c.pairAddr f.c.lo) (((f.c.pair f.c.lo).map wordBytes).flatten) = .ok t →
          exec (p.2 h a) s = .next (({ s := t
                                       t := { u.t with
                                         idle := u.t.idle + 2
                                         spilling := u.t.spilling ++ [f.c.lo] }
                                       c := { u.c with
                                         lo := f.c.lo + 1
                                         hi := d + 1 } } : Frame).transfer (.call p.1)
            |>.leaves h trig k x held .quiet)))
    ∧ (abs % 32 = 0 → f.c.depth = 0 → exec (.ret h a) s = .next (trapped 9 0 0))
    ∧ (∀ g' : Frame, abs % 32 = 0 → f.c.depth ≠ 0 → g.touch (g.pairBank (f.c.depth - 1)) = .ok g' →
      (f.c.lo ≤ f.c.depth - 1 → exec (.ret h a) s = .next
        (({ g' with c := { g'.c with hi := f.c.depth } } : Frame).transfer (.ret abs) |>.leaves h trig k x held .quiet))
      ∧ (f.c.depth - 1 < f.c.lo → g'.t.spec = none → g'.t.req = .done (.fill (f.c.depth - 1)) →
        exec (.ret h a) s = .next (({ g' with
          t := { g'.t with req := .none }
          c := { g'.c with
            lo := f.c.depth - 1
            hi := f.c.depth } } : Frame).transfer (.ret abs) |>.leaves h trig k x held .quiet)))

/-- R55, R76, R134, R136, R140: after a bundle's last group, a jump goes to its target; a leaf of the tree goes to pc plus 32 times
its offset; a call makes the window one deeper, with s8 to s14 the caller's s24 to s30 and s15 the address of the next bundle in
sequence; a return makes it one shallower; outside every loop body a bundle that transfers nothing falls through,
and at the end of the highest level's body, its count not reached, the counter rises and the body starts again. The predicates,
s0 to s7 and the vector registers stay as they were. A transfer kills the operations in flight that are marked squashable and have
not pushed before the bundle's end, and no other; where nothing is transferred none is killed (R74, R93). That those that push at the
end of the transferring bundle's last group, and those that its leaf guards let issue, are killed is the model's reading
(notes/assumptions/62.md). -/
def Obligations.BundleEnds : Prop :=
  ∀ (f : Frame), let r := f.endBundle
    let next := (f.c.pc + 32 * (1 + hdrLb f.c.seq.block)) % 2 ^ 64
    r.c.seq.issuing = false ∧ r.c.low = f.c.low ∧ r.c.preds = f.c.preds ∧ r.c.vregs = f.c.vregs
    ∧ (f.c.seq.leaf ≠ 5 → f.c.seq.goto = none →
      r.c.pc = (((f.c.pc : Int) + 32 * hdrOff f.c.seq.block f.c.seq.leaf) % 2 ^ 64).toNat ∧ r.c.depth = f.c.depth
        ∧ r.c.ring = f.c.ring)
    ∧ (f.c.seq.leaf = 5 → f.c.seq.goto = none → (∀ n : Fin 6, f.c.levels[n].active = false) →
      r.c.pc = next ∧ r.c.depth = f.c.depth ∧ r.c.ring = f.c.ring)
    ∧ (∀ lv : Fin 6, f.c.seq.leaf = 5 → f.c.seq.goto = none → f.c.levels[lv].active = true → f.c.levels[lv].fin = f.c.pc →
      (∀ n : Fin 6, lv < n → f.c.levels[n].active = false) → f.c.levels[lv].exit = none →
      f.c.levels[lv].lc.toNat + 1 < f.c.levels[lv].lb.toNat →
      r.c.pc = f.c.levels[lv].start ∧ r.c.depth = f.c.depth ∧ r.c.ring = f.c.ring
        ∧ r.c.levels = f.c.levels.set lv { f.c.levels[lv] with lc := f.c.levels[lv].lc + 1 })
    ∧ (∀ t, f.c.seq.goto = some (.jump t) → r.c.pc = t ∧ r.c.depth = f.c.depth ∧ r.c.ring = f.c.ring)
    ∧ (∀ t, f.c.seq.goto = some (.call t) → r.c.pc = t ∧ r.c.depth = f.c.depth + 1
      ∧ (r.c.readS 15).toNat = next ∧ ∀ n : Fin 32, 8 ≤ n.val → n.val < 15 → r.c.readS n = f.c.readS (n + 16))
    ∧ (∀ t, f.c.seq.goto = some (.ret t) → r.c.pc = t ∧ r.c.depth = f.c.depth - 1 ∧ r.c.ring = f.c.ring)
    ∧ (f.c.seq.leaf = 5 → f.c.seq.goto = none → r.c.flying = f.c.flying)
    ∧ ((f.c.seq.leaf ≠ 5 ∧ f.c.seq.goto = none ∨ ∃ t, f.c.seq.goto = some (.jump t) ∨ f.c.seq.goto = some (.call t) ∨ f.c.seq.goto = some (.ret t)) →
      let dead (x : Flying) : Prop := x.kill = true ∧ (x.leafed = true ∨ f.c.icyc ≤ x.due + 1)
      (∀ x ∈ r.c.flying, x ∈ f.c.flying ∧ ¬dead x)
      ∧ ∀ x ∈ f.c.flying, (∀ y ∈ f.c.flying, y.rid = x.rid → ¬dead y) → x ∈ r.c.flying)

/-- R68, R139, R142, R144: LOOP and LOOPX open level A[8:6], where no level from it up is active and no active body ends sooner:
with a bound of zero at the group's start they ask for the skip behind the body, else the body, from the next bundle for A[5:0] + 1 bundles, is open
with its counter at zero and its blocks in the loop buffer. NEST binds the port B[2:0] to a legal descriptor, unread elements being discarded.
That the whole body is buffered when the level opens is the model's reading (notes/assumptions/9.md), and that decode sees no clash
with a bound whose level an operand names is its choice (notes/assumptions/63.md). -/
def Obligations.LoopsAndNests : Prop :=
  (∀ (h : Slot) (a : Src) (s : State) (f : Frame) (x : Args) (k : Fetch) (held : Bool) (i : Instr) (b : Bool)
      (exit : Option (Nat × Bool)),
    let trig := transferTrig (some a) b [.loops]
    (i = .loop h a ∧ b = false ∧ exit = none
      ∨ i = .loopx h a ∧ b = true ∧ exit = some (x.b.value.low.toNat % 8, x.b.value.low.getLsbD 3)) →
    s.Runs h f → f.Takes trig x k held → x.wait = false →
    let g := k.ready .ct
    let len := x.a.value.low.toNat % 64 + 1
    let start := (f.c.pc + 32 * (1 + hdrLb f.c.seq.block)) % 2 ^ 64
    let fin := g.bundlesOn (len - 1) start
    let opened (lb : BitVec 20) : Level := ⟨true, start, fin, g.bundlesOn 1 fin, f.c.depth, exit, 0, lb, g.bodyBlocks fin 64 start⟩
    ∀ lv : Fin 6, x.a.value.low.toNat / 64 % 8 = lv → (∀ n : Fin 6, lv ≤ n → f.c.levels[n].active = false) →
      (∀ n : Fin 6, f.c.levels[n].active = true → fin ≤ f.c.levels[n].fin) →
      (f.t.snap.ctx.levels[lv].lb = 0 → exec i s = .next ((g.transfer (.skip (g.bundlesOn 1 fin))).leaves h trig k x held .quiet))
      ∧ (f.t.snap.ctx.levels[lv].lb ≠ 0 → exec i s = .next (Frame.leaves
          { g with c := { g.c with levels := g.c.levels.set lv (opened f.c.levels[lv].lb) } } h trig k x held .quiet)))
  ∧ ∀ (h : Slot) (a : Src) (s : State) (f g : Frame) (x : Args) (k : Fetch) (held : Bool),
    let trig := nestTrig a
    s.Runs h f → f.Takes trig x k held → x.wait = false →
    let addr := x.a.value.low.toNat
    let ws := wordsOf 8 (g.bytes (Key.pad g.c.id addr) 64)
    (k.ready .ct).PlaceReady addr 64 false g → g.PadGood [addr] 64 → nestCheck ws (x.b.value.low.getLsbD 3) addr = .ok () →
    ∃ (r : Frame) (n : Fin 8), exec (.nest h a) s = .next (r.leaves h trig k x held .quiet)
      ∧ n.val = x.b.value.low.toNat % 8
      ∧ (r.c.feeds[n].bound = true ∧ r.c.feeds[n].write = x.b.value.low.getLsbD 3
        ∧ r.c.feeds[n].base = (ws.headD 0).toNat % 2 ^ 21 ∧ r.c.feeds[n].pos = 0 ∧ r.c.feeds[n].arrived = 0
        ∧ r.c.feeds[n].since = g.s.cycle)
      ∧ (∀ m : Fin 8, m ≠ n → r.c.feeds[m] = g.c.feeds[m]) ∧ s.SameMemory r.s ∧ f.SameRegisters r ∧ f.SameSpecials r

/-- R44, R145, R146, R147, R150, R151, R152, R283: SLACK sets the remaining slack; BAR, TKPOST and CSYNC, outside speculation, the
first two once every window store has set out for its bank, arrive at a barrier (the last arrival lets every member go in the fourth
cycle on), post a token for the sixth cycle on, and take the new snapshot that is there; HEART adds one, or during speculation counts at its confirmation; RETIRE ends issue. -/
def Obligations.ControlHousekeeping : Prop :=
  ∀ (h : Slot) (a : Src) (s : State) (f : Frame) (x : Args) (k : Fetch) (held : Bool), s.Runs h f → x.wait = false →
    let g := k.ready .ct
    let A := x.a.value.low
    (f.Takes (controlTrig (some a) false false []) x k held →
      exec (.slack h a) s = .next (Frame.leaves { g with c := { g.c with slk := A.setWidth 16 } } h
        (controlTrig (some a) false false []) k x held .quiet)
      ∧ (g.t.spec = none → g.NoWindowStoreHeld → let n := A.toNat % 16
        ∃ r : Frame, exec (.bar h a) s = .next (r.leaves h (controlTrig (some a) false false []) k x held .quiet)
          ∧ ((∀ t ∈ g.s.strands, t.sid ≠ g.t.sid → t.task = g.t.task → t.life ≠ .retired → t.bar = some n) →
            r.t.bar = none ∧ r.t.barGo = g.s.cycle + 4
            ∧ (∀ t ∈ g.s.strands, t.sid ≠ g.t.sid → t.task = g.t.task → t.bar = some n →
              { t with
                bar := none
                barGo := g.s.cycle + 4 } ∈ r.s.strands)
            ∧ ∀ t ∈ r.s.strands, t.task = g.t.task → t.bar ≠ some n)
          ∧ (g.t.life ≠ .retired →
            (∃ t ∈ g.s.strands, t.sid ≠ g.t.sid ∧ t.task = g.t.task ∧ t.life ≠ .retired ∧ t.bar ≠ some n) →
            r.t.bar = some n)))
    ∧ (f.Takes (controlTrig (some a) true false []) x k held → g.t.spec = none → g.NoWindowStoreHeld →
      (g.t.posts.filter fun p => p.1 < g.s.cycle).length < 8 →
      ∃ w : Word, exec (.tkpost h a) s = .next (Frame.leaves { g with t := { g.t with
          posts := g.t.posts ++ [(g.s.cycle + 6, x.b.value.low.toNat % 16, w)] } } h (controlTrig (some a) true false []) k x held
          .quiet)
        ∧ w.toNat = (2 ^ 63 + (0xF0 + g.t.rank) * 2 ^ 48 + A.toNat % 2 ^ 48) % 2 ^ 64)
    ∧ (f.Takes (controlTrig none false false []) x k held →
      (g.t.spec = none → exec (.heart h) s = .next (Frame.leaves { g with
        s := g.s.progress g.t.task
        t := { g.t with heart := g.t.heart + 1 } } h (controlTrig none false false []) k x held .quiet))
      ∧ (∀ p, g.t.spec = some p → exec (.heart h) s = .next (Frame.leaves { g with
        t := { g.t with spec := some { p with heart := p.heart + 1 } } } h (controlTrig none false false []) k x held .quiet))
      ∧ (g.t.spec = none → exec (.retire h) s = .next (Frame.leaves { g with t := { g.t with life := .draining } } h
        (controlTrig none false false []) k x held .quiet))
      ∧ (g.t.spec = none → g.t.req = .done .csync → exec (.csync h) s = .next (Frame.leaves
        { g with t := { g.t with req := .none } } h (controlTrig none false false []) k x held .quiet)))

/-- R156, R281: a fence of tile scope never stalls; outside speculation one of cluster or a wider scope passes once every window store of the
strand, of either of its contexts, has reached its bank, a wider one once its request is answered too; none of them changes anything else. -/
def Obligations.FencesComplete : Prop :=
  ∀ (h : Slot) (sc : Scope) (i : Instr) (code : Nat) (s : State) (f : Frame) (x : Args) (k : Fetch) (held : Bool),
    (i, code) ∈ [(Instr.fenceAcq h sc, 0), (.fenceRel h sc, 1), (.fenceAr h sc, 2)]
      ∨ sc = .device ∧ i = .fenceScDevice h ∧ code = 3 ∨ sc = .domain ∧ i = .fenceScDomain h ∧ code = 3 →
    let trig := controlTrig none false false []
    s.Runs h f → f.Takes trig x k held → x.wait = false →
    let g := k.ready .ct
    (sc = .tile → exec i s = .next (g.leaves h trig k x held .quiet))
    ∧ (g.t.spec = none → (∀ w ∈ g.s.win, w.ctx = g.c.id ∨ some w.ctx = g.t.saved → w.op.stores = false) →
      g.NoWindowStoreHeld →
      (sc = .cluster → exec i s = .next (g.leaves h trig k x held .quiet))
      ∧ (sc ≠ .tile → sc ≠ .cluster → g.t.req = .done (.fence code sc.code) →
        exec i s = .next (Frame.leaves { g with t := { g.t with req := .none } } h trig k x held .quiet)))

/-- R149, R376, R377, R378: AGJOIN takes a legal set-up on a free slot of a group not yet joined; AGLEAVE frees a joined slot and
tells the root; AGEXCUSE, privileged, passes once the root has acknowledged; CBR on a joined slot, its release at hand,
contributes the predicate as the group found it and goes on speculating on the hint, or without one on the predicate. -/
def Obligations.AgreementOps : Prop :=
  ∀ (h : Slot) (a : Src) (s : State) (f : Frame) (x : Args) (k : Fetch) (held : Bool), s.Runs h f → x.wait = false →
    let g := k.ready .ct
    let A := x.a.value.low
    let B := x.b.value.low
    let C := x.c.value.low
    ∀ n : Fin 4, A.toNat % 4 = n → g.t.spec = none →
    (f.Takes (controlTrig (some a) true true []) x k held → A.toNat / 4 = 0 → g.t.ags[n].joined = false →
      setupOk B C = true → (∀ m : Fin 4, g.t.ags[m].joined = true → g.t.ags[m].agb.setWidth 24 ≠ B.setWidth 24) →
      ∃ pm : Bool, exec (.agjoin h a) s = .next (Frame.leaves { g with t := { g.t with
          ags := g.t.ags.set n ⟨true, false, pm, false, 0, C.extractLsb' 56 8, B, C⟩ } } h
          (controlTrig (some a) true true []) k x held .quiet))
    ∧ (f.Takes (controlTrig (some a) false false []) x k held → A.toNat / 4 = 0 → g.t.ags[n].joined = true →
      exec (.agleave h a) s = .next (Frame.leaves { g with
        s := g.s.leaveSlot g.t.ags[n]
        t := { g.t with ags := g.t.ags.set n { g.t.ags[n] with joined := false, out := false } } } h
        (controlTrig (some a) false false []) k x held .quiet))
    ∧ (f.Takes (controlTrig (some a) true false []) x k held → g.privileged = true →
      A.toNat / 2 ^ 36 = 0 → B.toNat / 2 ^ 24 = 0 → A.toNat / 2 ^ 24 ≤ 2303 →
      g.t.req = .done (.excuse (A.toNat / 2 ^ 24) (A.toNat % 2 ^ 24) B.toNat) →
      exec (.agexcuse h a) s = .next (Frame.leaves { g with t := { g.t with req := .none } } h
        (controlTrig (some a) true false []) k x held .quiet))
    ∧ (f.Takes (transferTrig (some a) true []) x k held → A.toNat / 2 ^ 7 = 0 → B.toNat / 2 ^ 32 = 0 →
      g.t.ags[n].joined = true → ∀ g', g.releaseAt (slotScope g.t.ags[n]) = .ok g' →
      let v := g.t.snap.ctx.preds.getLsbD (A.toNat / 4 % 8)
      let pred := if A.getLsbD 5 then A.getLsbD 6 else v
      let target := (((g.c.pc : Int) + 32 * (B.setWidth 32).toInt) % 2 ^ 64).toNat
      ∃ r : Frame, exec (.cbr h a) s = .next (r.leaves h (transferTrig (some a) true []) k x held .quiet)
        ∧ r.c.seq.goto = some (.cbr pred target)
        ∧ (∃ p, r.t.spec = some p ∧ p.slot = n ∧ p.pred = pred ∧ p.taken = target ∧ p.stores = [] ∧ p.trap = none)
        ∧ r.t.ags = g'.t.ags.set n { g.t.ags[n] with out := true }
        ∧ r.s = g'.s.contribute (g'.contribution n g.t.ags[n] v))

/-- R121, R154, R155, R157, R269, R271, R310, R348, R376: RDSR pushes the system register A[7:0], tagged i64, after one cycle, and an unlisted number reads as
zero; WRSR writes the named bits of the registers it may write and ignores the others; either traps PRIV where the register
needs a privilege that the strand lacks; a write of FPST waits for an FPSET that is held back. A write of CATB or of a domain register
takes effect at the end of the cycle: one that breaks a condition of R269 changes nothing, one that is taken puts the word in place,
its bit 61 left, and sets BUSY where it changes a valid domain otherwise than in Q alone. -/
def Obligations.SystemRegisters : Prop :=
  (∀ (h : Slot) (a : Src) (s : State) (f0 f : Frame) (x : Args) (k : Fetch) (held : Bool),
    let trig := rdsrTrig a
    s.frame = some f0 → s.Runs h f → f.Takes trig x k held → x.wait = false →
    let n := x.a.value.low.toNat % 256
    let g := k.ready .ct
    ((0x30 ≤ n ∧ n < 0x38 ∨ 0x40 ≤ n ∧ n < 0x50) → g.privileged = false →
      exec (.rdsr h a) s = .next (takeTrap f0.begin ⟨8, 0, 0, x.a.low, x.b.low, none⟩ false))
    ∧ ((0x30 ≤ n ∧ n < 0x38 ∨ 0x40 ≤ n ∧ n < 0x50 → g.privileged = true) → (n = 0 → g.c.held = []) →
      ∃ r : Word, exec (.rdsr h a) s = .next (g.leaves h trig k x held (.result 1 ⟨9, r.setWidth 2048, 0⟩))
        ∧ (n = 0 → r = g.t.snap.ctx.fpst) ∧ (n = 1 → r = g.t.snap.ctx.slk.setWidth 64)
        ∧ (n = 2 → r.toNat = (g.banks * 2 ^ 16 + g.c.depth) % 2 ^ 64)
        ∧ (n = 3 → r = g.t.heart) ∧ (n = 5 → r = g.t.snap.tags) ∧ (n = 6 → r = g.t.snap.tagbz)
        ∧ (n = 8 → r = g.c.spill) ∧ (n = 9 → r = g.t.tvec) ∧ (n = 0xA → r = g.t.csa) ∧ (n = 0xB → r = g.t.wdt.setWidth 64)
        ∧ (n = 0xC → r = g.t.ttb) ∧ (n = 0xD → r = g.s.catb)
        ∧ (∀ j : Fin 16, n = 0x10 + j → ∀ i, i < 64 → r.getLsbD i = (decide (i < 32) && g.ownerBit (32 * j + i)))
        ∧ (∀ j : Fin 8, n = 0x30 + j → r = g.t.tsave[j])
        ∧ (n = 4 → ∀ m : Fin 4, let y := g.t.ags[m]
          r.getLsbD (16 * m + 15) = y.joined ∧ r.getLsbD (16 * m + 14) = y.out ∧ r.getLsbD (16 * m + 13) = y.pm
          ∧ r.getLsbD (16 * m + 12) = y.lv ∧ r.toNat / 2 ^ (16 * m.val + 8) % 16 = y.lst % 16
          ∧ r.toNat / 2 ^ (16 * m.val) % 256 = y.rnd.toNat)
        ∧ (n = 7 → r.toNat = (if g.s.swp then 256 else 0) + 16 * g.s.stg.toNat + g.s.cur.toNat)
        ∧ (∀ j : Fin 16, n = 0x20 + j → r.toNat = g.t.chans[j].open_.foldl min g.t.chans[j].next % 2 ^ 48)
        ∧ (∀ (j : Fin 16) (d : Fin 8), n = 0x40 + j → dieOf g.t.ptn = d →
          r = g.s.dies[d].dom[j] ||| (if g.s.dies[d].busy[j] then 0x2000000000000000 else 0))
        ∧ (n = 0xE ∨ n = 0xF ∨ 0x38 ≤ n ∧ n < 0x40 ∨ 0x50 ≤ n → r = 0)))
  ∧ ∀ (h : Slot) (a : Src) (s : State) (f0 f : Frame) (x : Args) (k : Fetch) (held : Bool),
    let trig := controlTrig (some a) true false []
    s.frame = some f0 → s.Runs h f → f.Takes trig x k held → x.wait = false →
    let n := x.b.value.low.toNat % 256
    let A := x.a.value.low
    let g := k.ready .ct
    let needs := 8 ≤ n ∧ n < 0xE ∨ 0x30 ≤ n ∧ n < 0x38 ∨ 0x40 ≤ n ∧ n < 0x50
    (n < 2 ∨ g.t.spec = none) →
    (needs → g.privileged = false →
      exec (.wrsr h a) s = .next (takeTrap f0.begin ⟨8, 0, 0, x.a.low, x.b.low, none⟩ false))
    ∧ ((needs → g.privileged = true) → ¬(n = 0 ∧ h.guard = .always ∧ g.c.seq.fpsets = true) → (n = 0 → g.c.fpsetWaits = false) →
      ∃ r : Frame, exec (.wrsr h a) s = .next (r.leaves h trig k x held .quiet)
        ∧ (n = 0 → r.c.seq.fpst = g.c.seq.fpst ++ [(BitVec.allOnes 64, A)])
        ∧ (n = 1 → r = { g with c := { g.c with slk := A.setWidth 16 } })
        ∧ (n = 8 → r = { g with c := { g.c with spill := if 8 ≤ A.toNat % 32 ∧ A.toNat % 32 ≤ 20
            then A &&& 0x01FFFFFFFFFFFF9F else g.c.spill } })
        ∧ (n = 9 → r = { g with t := { g.t with tvec := A &&& 0x01FFFFFFFFFFFFE0 } })
        ∧ (n = 0xA → r = { g with t := { g.t with csa := A &&& 0x01FFFFFFFFC00000 } })
        ∧ (n = 0xB → r.t.wdt = A.setWidth 32)
        ∧ (n = 0xC → r = { g with t := { g.t with ttb := if A.toNat / 2 ^ 57 % 32 ≤ 16
            then A &&& 0xBFFFFFFFFFFFFFC0 else g.t.ttb } })
        ∧ (n = 0xD → r = { g with s := { g.s with late := g.s.late ++ [.catb (A &&& 0x81FFFFFFFFFC0000)] } })
        ∧ (n = 0x30 → r.t.tsave = g.t.tsave.set 0 (g.t.tsave[0] &&& 0xFFFFFFE7FFFFFFFF ||| A &&& 0x0000001800000000))
        ∧ (n = 0x37 → r = { g with t := { g.t with tsave := g.t.tsave.set 7 A } })
        ∧ (∀ j : Fin 16, n = 0x40 + j → r = { g with s := { g.s with late := g.s.late ++ [.domain (dieOf g.t.ptn) j A] } })
        ∧ (2 ≤ n ∧ n < 8 ∨ 0xE ≤ n ∧ n < 0x30 ∨ 0x31 ≤ n ∧ n < 0x37 ∨ 0x38 ≤ n ∧ n < 0x40 ∨ 0x50 ≤ n → r = g)
        ∧ (∀ (u : State) (l : List LateWrite) (w : Word), u.late = l ++ [.catb w] → u.endLates.catb = w ∧ u.endLates.late = [])
        ∧ ∀ (u : State) (l : List LateWrite) (d : Fin 8) (j : Fin 16) (w : Word), u.late = l ++ [.domain d j w] →
          let v := State.endLates { u with late := l }
          let new := w &&& 0xDFFFFFFFFFFFFFFF
          (v.dies[d].Takes j new →
            u.endLates.dies[d].dom = v.dies[d].dom.set j new
            ∧ (v.dies[d].dom[j].getLsbD 63 = true → DomainChanges v.dies[d].dom[j] new →
              u.endLates.dies[d].busy = v.dies[d].busy.set j true)
            ∧ (v.dies[d].dom[j].getLsbD 63 = false ∨ ¬DomainChanges v.dies[d].dom[j] new →
              u.endLates.dies[d].busy = v.dies[d].busy)
            ∧ ∀ e : Fin 8, e ≠ d → u.endLates.dies[e] = v.dies[e])
          ∧ (¬v.dies[d].Takes j new → u.endLates = v))

/-- R31, R75, R346, R347, R348: a vectored trap outside speculation and outside a handler, with TVEC set and its save place writable,
enters the handler: it saves cause, subcause, group, slot and leaf, the bundle's address, the address checked, the header, the
slot's bits and operands A and B, with RESUME 11 and TSAVE7 zero; the handler starts at TVEC at depth 0 with SLK, the predicates
and s0 to s7 zero, s8 to s10 as at its strand's start, and FPST at RNE with clear flags and the strand's own LFSR; the strand is
privileged, what it was doing is kept, what the slots before it asked of byte counters takes effect at the cycle's end, and only the
save place changes in memory. A trap of a held trigger saves that trigger's slot and its bits, and the address of its bundle as A.
R345, R351, R352: a trap that is not vectored, one that meets TVEC 0, and one raised in a handler fail the strand, unless it has
failed already, with the trap's cause, subcause and address; the fault words of one in a handler follow those of the trap that entered
it; no more of memory changes. R345, R382: a trap during speculation is held with its save registers, unless one is held already. -/
def Obligations.TrapsTaken : Prop :=
  (∀ (f : Frame) (r : TrapRec) (pre : Bool), f.t.spec = none → f.t.saved = none → f.t.tvec.toNat / 32 % 2 ^ 52 ≠ 0 →
      r.cause ∈ [1, 2, 3, 4, 5, 6, 7, 8, 9, 10, 14] → r.sub < 256 → f.c.seq.group < 8 → r.slot f.c.seq < 8 → f.c.seq.leaf < 8 → f.c.coreSound = true →
      let e := f.endCounters
      ∀ l, e.s.tileRange f.t.ptn .write (f.t.csa.toNat / 2 ^ 22 % 2 ^ 35 * 2 ^ 22 + 0x1000) 0x1000 = .ok l →
      f.s.strand? f.t.sid = some f.t → f.s.ctx? f.c.id = some f.c → f.c.id < f.s.nextId →
      ∃ (t : Strand) (c : Ctx), (takeTrap f r pre).frameOf f.t.sid = some ⟨takeTrap f r pre, t, c⟩
        ∧ (takeTrap f r pre).ctx? f.c.id = some e.c ∧ t.saved = some f.c.id
        ∧ (Frame.privileged ⟨takeTrap f r pre, t, c⟩) = true
        ∧ t.tsave[0].toNat / 2 ^ 56 = r.cause ∧ t.tsave[0].toNat / 2 ^ 48 % 256 = r.sub
        ∧ t.tsave[0].toNat / 2 ^ 35 % 4 = 3 ∧ t.tsave[0].getLsbD 46 = pre ∧ t.tsave[0].getLsbD 47 = r.held.isSome
        ∧ (pre = false → t.tsave[0].toNat / 2 ^ 43 % 8 = f.c.seq.group ∧ t.tsave[0].toNat / 2 ^ 37 % 8 = f.c.seq.leaf)
        ∧ (pre = false → r.held = none →
          t.tsave[0].toNat / 2 ^ 40 % 8 = f.c.seq.slot ∧ t.tsave[4] = (slotWord f.c.seq.block f.c.seq.slot).setWidth 64)
        ∧ (∀ x, pre = false → r.held = some x → t.tsave[0].toNat / 2 ^ 40 % 8 = x.slot ∧ t.tsave[4] = x.word.setWidth 64)
        ∧ (pre = true → t.tsave[4] = 0)
        ∧ t.tsave[1].toNat = f.c.pc % 2 ^ 57 ∧ t.tsave[2].toNat = r.addr % 2 ^ 64 ∧ t.tsave[3] = f.c.seq.block.extractLsb' 192 64
        ∧ (r.held = none → t.tsave[5] = r.opa) ∧ (∀ x, r.held = some x → t.tsave[5].toNat = x.pc % 2 ^ 64)
        ∧ t.tsave[6] = r.opb ∧ t.tsave[7] = 0
        ∧ c.pc = f.t.tvec.toNat / 32 % 2 ^ 52 * 32 ∧ c.seq.issuing = false ∧ c.depth = 0 ∧ c.slk = 0 ∧ c.preds = 0
        ∧ (∀ n : Fin 8, c.readS n = 0) ∧ fpstRm c.fpst = 0 ∧ fpstFlags c.fpst = 0
        ∧ (∀ k, f.s.task? f.t.task = some k → c.readS 8 = k.arg ∧ c.readS 9 = k.s9 ∧ c.readS 10 = k.s10)
        ∧ (fpstLfsr f.c.fpst ≠ 0 → fpstLfsr c.fpst = fpstLfsr f.c.fpst)
        ∧ ∀ j, (∀ p ∈ l, j < p.1 ∨ p.1 + p.2 ≤ j) → Memory.get (takeTrap f r pre).mem j = Memory.get e.s.mem j)
  ∧ (∀ (f : Frame) (r : TrapRec) (pre : Bool), f.t.spec = none → f.s.strand? f.t.sid = some f.t → f.s.ctx? f.c.id = some f.c →
      (r.cause ∈ [11, 12, 13] ∨ f.t.tvec.toNat / 32 % 2 ^ 52 = 0 ∨ f.t.saved ≠ none) →
      ∃ (t : Strand) (x : FailRec), (takeTrap f r pre).strand? f.t.sid = some t ∧ t.fail = some (f.t.fail.getD x)
        ∧ x.cause = r.cause ∧ x.sub = r.sub ∧ x.addr = r.addr
        ∧ x.words = (if f.t.saved = none then [] else f.t.tsave.toList) ++ (tsaveWords r f.c pre).toList
        ∧ f.endCounters.s.SameMemory (takeTrap f r pre))
  ∧ (∀ (f : Frame) (r : TrapRec) (pre : Bool) (p : Spec), f.t.spec = some p → f.s.strand? f.t.sid = some f.t →
      ∃ t : Strand, (takeTrap f r pre).strand? f.t.sid = some t ∧ (∃ q, t.spec = some q ∧ q.trap = p.trap.or (some (r, tsaveWords r f.c pre))) ∧ t.fail = f.t.fail
        ∧ t.tsave = f.t.tsave ∧ f.endCounters.s.SameMemory (takeTrap f r pre))
  ∧ ∀ f : Frame, f.endCounters.s = { f.s with late := f.s.late ++ f.c.seq.ends.map (.counter f.c.id) }
    ∧ f.endCounters.t = f.t ∧ f.endCounters.c = { f.c with seq := { f.c.seq with ends := [] } }

/-- R121, R347, R349: TRET, privileged, outside speculation, with an interrupted context and a save place that can be read, resumes it:
RETRY at the trapping slot, or before the bundle when nothing of it had issued; SKIP behind that slot; REDIRECT at an aligned TSAVE7;
FAIL fails the strand with the trap's cause, and a misaligned TSAVE7 with ALIGN. The handler's context is gone and with it the
handler's privilege. The registers are as they were, s0 to s7 and the predicates if nothing has written over the save place: that the others
keep their shape then is the model's choice (notes/assumptions/32.md). That a misaligned REDIRECT fails with the target as its address
is its reading (notes/assumptions/27.md). Without privilege it traps PRIV. -/
def Obligations.TrapReturn : Prop :=
  ∀ (h : Slot) (s : State) (f0 f : Frame), s.frame = some f0 → s.Runs h f → f.t.spec = none →
    (f.privileged = false → exec (.tret h) s = .next (takeTrap f0.begin ⟨8, 0, 0, 0, 0, none⟩ false))
    ∧ ∀ c0 : Ctx, f.t.saved = some c0.id → f.s.ctx? c0.id = some c0 → c0.id ≠ f.c.id →
      let resume := f.t.tsave[0].toNat / 2 ^ 35 % 4
      let target := f.t.tsave[7].toNat
      let place := f.s.tileRange f.t.ptn .read (f.t.csa.toNat / 2 ^ 22 % 2 ^ 35 * 2 ^ 22 + 0x1000) 0x1000
      (resume ≠ 3 → ∃ l, place = .ok l ∧ f.s.badPieces l = false) →
      ∃ (u : State) (t : Strand) (c : Ctx), exec (.tret h) s = .next u ∧ u.frameOf f.t.sid = some ⟨u, t, c⟩ ∧ c.id = c0.id
        ∧ t.saved = none ∧ u.ctx? f.c.id = none ∧ c.ring = c0.ring ∧ c.vregs = c0.vregs ∧ c.depth = c0.depth
        ∧ (resume = 3 ∨ (∀ l, place = .ok l → ∀ x ∈ f.t.images, x.1 = 0x1000 → f.s.imageStands x.2.2 l = true) →
          c.preds = c0.preds ∧ c.low = c0.low)
        ∧ s.SameMemory u
        ∧ (resume < 2 → f.t.tsave[0].getLsbD 46 = false → c.pc = c0.pc ∧ c.seq.slot = c0.seq.slot
          ∧ c.seq.leaf = c0.seq.leaf ∧ c.seq.issuing = c0.seq.issuing
          ∧ c.seq.skip = (if resume = 1 ∧ f.t.tsave[0].getLsbD 47 = false then some (f.t.tsave[0].toNat / 2 ^ 40 % 8) else none))
        ∧ (resume < 2 → f.t.tsave[0].getLsbD 46 = true → c.pc = c0.pc ∧ c.seq.issuing = false)
        ∧ (resume = 2 → target % 32 = 0 → c.pc = target ∧ c.seq.issuing = false)
        ∧ (resume = 2 → target % 32 ≠ 0 → ∃ x : FailRec, t.fail = some (f.t.fail.getD x) ∧ x.cause = 7 ∧ x.addr = target)
        ∧ (resume = 3 → ∃ x : FailRec, t.fail = some (f.t.fail.getD x) ∧ x.cause = f.t.tsave[0].toNat / 2 ^ 56)

/-! ### The engine port -/

/-- R191, R192, R202: MPSET, with no agreement outstanding, writes A to mp n and to no other; MPGET pushes mp n as the group
found it, and MXQ the counts of calls and tokens, each tagged i64, after one cycle.
R192, R194, R195, R198, R206: MXCALL of a valid entry with legal descriptors and a claim within the scratchpad puts A[31:0]
into mp7, takes its snapshot of mp0 to mp7 behind that, claims blocks F to F + N − 1 of mp6 from the end of the cycle, and enters
the queue; MXLOAD of legal fields, by a strand that may load there, claims the image's blocks, sets the entry of the issue side and
enters the queue. -/
def Obligations.EngineCallsIssue : Prop :=
  (∀ (h : Slot) (n : Fin 8) (a : Src) (s : State) (f : Frame) (x : Args) (k : Fetch) (held : Bool), s.Runs h f → x.wait = false →
      let g := k.ready .en
      let get := { engineTrig none false false false [.queue, .mxe] with lat := some 1 }
      (f.Takes (engineTrig (some a) false false false [.mxe]) x k held → g.Agreed →
        exec (.mpset h n a) s = .next (Frame.leaves { g with c := { g.c with mxe := { g.c.mxe with
          mp := g.c.mxe.mp.set n x.a.value.low } } } h (engineTrig (some a) false false false [.mxe]) k x held .quiet))
      ∧ (f.Takes get x k held →
        let was := g.t.snap.ctx
        exec (.mpget h n) s = .next (g.leaves h get k x held (.result 1 ⟨9, (was.mxe.mp[n]).setWidth 2048, 0⟩))
        ∧ ∃ r : Word, exec (.mxq h) s = .next (g.leaves h get k x held (.result 1 ⟨9, r.setWidth 2048, 0⟩))
          ∧ (was.mxe.taken + was.mxe.held.length < 16 → was.xfu.taken + was.xfu.held.length < 16 → was.mxe.k0.length < 32 →
            was.xfu.k1.length < 32 →
            r.toNat % 16 = was.mxe.taken + was.mxe.held.length ∧ r.toNat / 16 % 16 = was.xfu.taken + was.xfu.held.length
            ∧ r.toNat / 256 % 256 = was.mxe.k0.length ∧ r.toNat / 65536 = was.xfu.k1.length)))
  ∧ (∀ (h : Slot) (a : Src) (s : State) (f : Frame) (x : Args) (k : Fetch) (held : Bool), s.Runs h f → x.wait = false →
      let g := k.ready .en
      let A := x.a.value.low
      let B := x.b.value.low
      let C := x.c.value.low
      g.Agreed → g.c.mxe.taken < 8 → g.c.mxe.held = [] →
      (∀ (n : Fin 256) (u : Frame),
        let trig := { engineTrig (some a) false false false mxeUnits with kinds := callKinds n }
        f.Takes trig x k held →
        let e := issueEntry (g.s.tile g.t.ptn) g.c.mxe n
        let first := g.c.mxe.mp[6].toNat % 512
        let count := g.c.mxe.mp[6].toNat / 512 % 1024
        let blocks := (List.range count).map (first + ·)
        e.valid = true → descriptorsOk g.c.mxe.mp e = true → first + count ≤ 512 → g.BlocksReady blocks u →
        ∃ mp : Vector Word 8,
          exec (.mxcall h n a) s = .next (Frame.leaves { u.claimed g.s.nextId blocks with c := { u.c with mxe := { g.c.mxe with
              mp := mp
              queue := g.c.mxe.queue ++ [⟨g.s.nextId, n, mp, none, A.setWidth 32⟩] } } } h
            trig k x held .quiet)
          ∧ (∀ j : Fin 8, j ≠ 7 → mp[j] = g.c.mxe.mp[j])
          ∧ mp[7].toNat = g.c.mxe.mp[7].toNat / 2 ^ 32 * 2 ^ 32 + A.toNat % 2 ^ 32)
      ∧ (∀ u : Frame, f.Takes (engineTrig (some a) true true false mxeUnits) x k held →
        let index := B.toNat % 256
        let start := B.toNat / 256 % 2048
        let ad := B.toNat / 2 ^ 24 % 16
        let bd := B.toNat / 2 ^ 28 % 16
        let count := C.toNat % 4096
        let blocks := blocksOf A.toNat (8 * count)
        ad ≤ 8 → bd ≤ 8 → start + count ≤ 2048 → A.toNat % 8 = 0 → A.toNat + 8 * count ≤ 0x200000 →
        (g.privileged = true ∨ 64 ≤ index ∧ (count = 0 ∨ 1024 ≤ start)) → g.BlocksReady blocks u →
        ∃ r : Frame, exec (.mxload h a) s = .next (r.leaves h (engineTrig (some a) true true false mxeUnits) k x held .quiet)
          ∧ r.c.mxe.queue = g.c.mxe.queue ++ [⟨g.s.nextId, index, Vector.replicate 8 0, some ⟨A.toNat, index, start, ad, bd, count⟩,
            C.extractLsb' 32 32⟩]
          ∧ r.c.mxe.mp = g.c.mxe.mp ∧ r.s.claims = (u.claimed g.s.nextId blocks).s.claims
          ∧ issueEntry (r.s.tile r.t.ptn) r.c.mxe index = ⟨decide (count ≠ 0), ad, bd⟩
          ∧ ∀ j, j < 256 → j ≠ index →
            issueEntry (r.s.tile r.t.ptn) r.c.mxe j = issueEntry (g.s.tile g.t.ptn) g.c.mxe j))

/-- R220, R221, R223, R198: XPLAN, with no agreement outstanding, reads a legal descriptor into plan B[2:0], and no other plan
changes; a transform call whose plan is of its kind, with a legal batch, aligned addresses and elements within the scratchpad, claims
the blocks it touches from the end of the cycle, and enters the queue with the plan as it is. -/
def Obligations.TransformCalls : Prop :=
  (∀ (h : Slot) (a : Src) (s : State) (f v u : Frame) (x : Args) (k : Fetch) (held : Bool),
    let trig := engineTrig (some a) true false false [.xfu]
    s.Runs h f → f.Takes trig x k held → x.wait = false →
    let g := k.ready .en
    let addr := x.a.value.low.toNat
    g.Agreed → addr % 64 = 0 → addr < 0x200000 → g.ownerBit (addr / 4096) = false → g.touch (blockUnit addr) = .ok v →
    v.Accesses [(Key.pad v.c.id addr, 64)] false u → u.PadGood [addr] 64 →
    let w := wordsOf 8 (u.bytes (Key.pad u.c.id addr) 64)
    let p := readPlan w
    (w.headD 0).toNat / 2 ^ 57 % 32 < 2 → planLegal w p = true →
    ∃ r : Frame, exec (.xplan h a) s = .next (r.leaves h trig k x held .quiet)
      ∧ r = { u with c := { u.c with xfu := { u.c.xfu with plans := r.c.xfu.plans } } }
      ∧ (∀ n : Fin 8, r.c.xfu.plans[n] = if n.val = x.b.value.low.toNat % 8 then some p else u.c.xfu.plans[n])
      ∧ p.kind = (w.headD 0).toNat / 2 ^ 62 ∧ p.f32 = decide ((w.headD 0).toNat / 2 ^ 57 % 32 = 1)
      ∧ p.n = (w.getD 3 0).toNat % 2 ^ 14)
  ∧ ∀ q ∈ xfuForms, ∀ (h : Slot) (a : Src) (s : State) (f u : Frame) (x : Args) (k : Fetch) (held : Bool) (n : Fin 8) (p : Plan),
    let trig := engineTrig (some a) true true true [.xfu]
    s.Runs h f → f.Takes trig x k held → x.wait = false →
    let g := k.ready .en
    let src := x.b.value.low.toNat
    let dst := x.c.value.low.toNat
    let batch := x.d.value.low.toNat % 65536
    g.Agreed → x.a.value.low.toNat % 8 = n → g.c.xfu.plans[n] = some p → p.kind = q.2.1 → batch ≠ 0 →
    (q.2.1 = 2 → batch = 1) → src % p.esize = 0 → dst % p.esize = 0 → p.outside q.1 src dst batch = none →
    g.c.xfu.taken < 8 → g.c.xfu.held = [] → g.BlocksReady (p.blocks q.1 src dst batch) u →
    exec (q.2.2 h a) s = .next (Frame.leaves { u.claimed g.s.nextId (p.blocks q.1 src dst batch) with c := { u.c with
        xfu := { g.c.xfu with queue := g.c.xfu.queue ++
          [⟨g.s.nextId, q.1, p, x.a.value.low.extractLsb' 32 32, src, dst, batch⟩] } } } h trig k x held .quiet)

/-! ### The copy slots -/

/-- R231, R239, R240, R242, R243, R244: a descriptor operation with no agreement outstanding, whose descriptor passes its checks
and whose tag is not busy, issues its tag command on the engine of its slot, claiming the scratchpad blocks of both sides and of
its index list; CPY_ND's is detached.
R231, R245, R246, R247, R261: a global atomic, a multicast store, a range operation and a catalogue command with no agreement
outstanding, whose operands are legal and whose tag is not busy, issue their tag commands, claiming the scratchpad blocks that they
read or write. -/
def Obligations.TagCommandsIssue : Prop :=
  (∀ q ∈ descForms, ∀ (h : Slot) (a : Src) (s : State) (f w u v : Frame) (x : Args) (k : Fetch) (held now : Bool) (d : CopyDesc),
      let trig := copyTrig f.unit a true false false none
      s.Runs h f → f.Takes trig x k held → x.wait = false →
      let g := k.ready f.unit
      let tag := x.a.value.low.toNat % 64
      g.Agreed → g.checkDesc q.1 x.a.value.low x.b.value.low = .ok (d, w) → w.c.seq.late = [] →
      w.t.tagbz.getLsbD tag = false →
      let acs := d.sideBanks d.ssp d.saddr d.sstr ++ d.sideBanks d.dsp d.daddr d.dstr
      let blocks := (d.sideBlocks d.ssp d.saddr d.sstr ++ d.sideBlocks d.dsp d.daddr d.dstr
        ++ (if q.1 = .gather ∨ q.1 = .scatter then blocksOf d.idx d.listBytes else [])).eraseDups
      w.touchAll ((if !acs.isEmpty && w.mxeBusy then [.mxe] else []) ++ acs) = .ok u → u.entryPlace = .ok now →
      u.BlocksReady blocks v →
      ∃ r : Frame, exec (q.2.2 h a) s = .next (r.leaves h trig k x held .quiet)
        ∧ v.TagIssued r tag blocks now (.copy d q.2.1 (decide (q.1 = .detached))))
  ∧ (∀ (h : Slot) (a : Src) (s : State) (f u : Frame) (x : Args) (k : Fetch) (held now : Bool), s.Runs h f → x.wait = false →
      let g := k.ready f.unit
      let A := x.a.value.low
      let B := x.b.value.low
      let C := x.c.value.low
      let D := x.d.value.low
      let tag := A.toNat % 64
      let unowned (at_ n : Nat) : Prop := ∀ b ∈ blocksOf at_ n, g.ownerBit b = false
      g.Agreed → g.t.tagbz.getLsbD tag = false → g.entryPlace = .ok now →
      (∀ o : AtomicOp, let trig := copyTrig f.unit a true true (decide (o = .cas)) none
        let nr := A.getLsbD 7
        let narrow := A.getLsbD 6
        let res := A.toNat / 2 ^ 32 % 2 ^ 21
        let blocks := if nr then [] else blocksOf res 8
        f.Takes trig x k held → A.toNat / 2 ^ 53 = 0 → A.toNat / 2 ^ 8 % 2 ^ 24 = 0 →
        B.toNat % (if narrow then 4 else 8) = 0 → (nr = false → res % 8 = 0 ∧ unowned res 8) → g.BlocksReady blocks u →
        ∃ r : Frame, exec (globalAtomicInstr h a o) s = .next (r.leaves h trig k x held .quiet)
          ∧ u.TagIssued r tag blocks now (.atomic o narrow B.toNat (if nr then none else some res) C D))
      ∧ (let trig := copyTrig f.unit a true true true none
        let rec_ := C.toNat / 2 ^ 32 % 2 ^ 21
        let blocks := (blocksOf B.toNat 256 ++ blocksOf rec_ 80).eraseDups
        f.Takes trig x k held → A.toNat / 64 = 0 → C.toNat / 2 ^ 12 % 2 ^ 20 = 0 → C.toNat / 2 ^ 53 = 0 → B.toNat % 256 = 0 →
        B.toNat < 0x200000 → rec_ % 16 = 0 → rec_ + 80 ≤ 0x200000 → D.toNat % 256 = 0 →
        D.toNat < 2 ^ 57 → unowned B.toNat 256 → unowned rec_ 80 →
        g.BlocksReady blocks u →
        ∃ r : Frame, exec (.mcst h a) s = .next (r.leaves h trig k x held .quiet)
          ∧ u.TagIssued r tag blocks now (.mcst B.toNat (C.toNat % 4096) rec_ D.toNat))
      ∧ (∀ q ∈ [(RangeOp.wbr, Instr.wbr), (.invr, .invr), (.pref, .pref)], let trig := copyTrig f.unit a true true true none
        f.Takes trig x k held → A.toNat / 64 = 0 → (D = 1 ∨ D = 2) → 1 ≤ C.toNat → C.toNat ≤ 2 ^ 40 →
        ∃ r : Frame, exec (q.2 h a) s = .next (r.leaves h trig k x held .quiet)
          ∧ g.TagIssued r tag [] now (.range q.1 B.toNat C.toNat D.toNat))
      ∧ (let trig := copyTrig f.unit a true true false none
        f.Takes trig x k held → A.toNat / 2 ^ 18 = 0 → B.toNat % 64 = 0 →
        ∃ r : Frame, exec (.catArm h a) s = .next (r.leaves h trig k x held .quiet)
          ∧ g.TagIssued r tag [] now (.catArm (A.toNat / 64 % 4096) B.toNat (C.toNat % 2 ^ 32)))
      ∧ (let trig := copyTrig f.unit a false false false none
        f.Takes trig x k held → A.toNat / 2 ^ 18 = 0 →
        ∃ r : Frame, exec (.catDisarm h a) s = .next (r.leaves h trig k x held .quiet)
          ∧ g.TagIssued r tag [] now (.catDisarm (A.toNat / 64 % 4096))))

/-- R237: WAITANY passes when a tag of its mask is set or none is busy, and WAITALL when none is busy, now or as the group found
the tags; FFR pushes the lowest completed tag of its mask with its status, or bit 63 alone, tagged i64, after one cycle; CLRTAG, with
no agreement outstanding, clears the tags of its mask and their statuses.
R248, R249, R250, R251: BC_INIT of a legal address asks that the counter there be armed with BAL B and PEND C[15:0]; ARRIVE_EXP that B
be added to the balance of an armed counter and one be taken from its pending arrivals, BC_SUB that B be subtracted; BC_WAIT's test
form pushes PEND and BAL's low 48 bits, tagged i64, after six cycles, its wait form passes once the counter is complete; with B[0]
a complete counter is to be disarmed, by a test form with K = 1, which a transfer may kill, as it pushes. No register and no byte of memory changes at issue. At the end of the group's cycle, after the
cycle's arrivals, what was asked takes effect, in the order of the slots, and no byte outside the records changes. That PEND wraps below
zero where two ARRIVE_EXP of one group pass the check is the model's choice (notes/assumptions/73.md), and when a killed test form
disarms its reading (notes/assumptions/62.md). -/
def Obligations.TagsAndCounters : Prop :=
  (∀ (h : Slot) (a : Src) (s : State) (f : Frame) (x : Args) (k : Fetch) (held : Bool), s.Runs h f → x.wait = false →
      let g := k.ready f.unit
      let A := x.a.value.low
      let was := g.t.snap
      let quiet := copyTrig f.unit a false false false none
      let find := copyTrig f.unit a false false false (some 1)
      (f.Takes quiet x k held →
        (g.t.tags &&& A ≠ 0 ∨ g.t.tagbz &&& A = 0 ∨ was.tags &&& A ≠ 0 ∨ was.tagbz &&& A = 0 →
          exec (.waitany h a) s = .next (g.leaves h quiet k x held .quiet))
        ∧ (g.t.tagbz &&& A = 0 ∨ was.tagbz &&& A = 0 → exec (.waitall h a) s = .next (g.leaves h quiet k x held .quiet))
        ∧ (g.Agreed → ∃ r : Frame, exec (.clrtag h a) s = .next (r.leaves h quiet k x held .quiet)
          ∧ r = { g with t := { g.t with tags := g.t.tags &&& ~~~A, stats := r.t.stats } }
          ∧ ∀ i : Fin 64, r.t.stats[i] = if g.t.tags.getLsbD i && A.getLsbD i then 0 else g.t.stats[i]))
      ∧ (f.Takes find x k held →
        ∃ r : Word, exec (.ffr h a) s = .next (g.leaves h find k x held (.result 1 ⟨9, r.setWidth 2048, 0⟩))
          ∧ (was.tags &&& A = 0 → r = 0x8000000000000000)
          ∧ ∀ i : Fin 64, (was.tags.getLsbD i && A.getLsbD i) = true → (∀ j : Fin 64, j < i →
            (was.tags.getLsbD j && A.getLsbD j) = false) → r.toNat = i + 256 * (was.stats[i]).toNat))
  ∧ (∀ (h : Slot) (a : Src) (s : State) (f u v : Frame) (x : Args) (k : Fetch) (held : Bool), s.Runs h f → x.wait = false →
      let g := k.ready f.unit
      let A := x.a.value.low.toNat
      let B := x.b.value.low
      let C := x.c.value.low
      let key := Key.pad g.c.id A
      let num (at_ : Nat) : Nat := Memory.num g.s.mem at_ 8
      let three := copyTrig f.unit a true true false none
      let two := copyTrig f.unit a true false false none
      let asks (w : Frame) (e : CounterEnd) : Frame := { w with c := { w.c with seq := { w.c.seq with ends := w.c.seq.ends ++ [e] } } }
      let same (w : Frame) : Prop := f.SameRegisters w ∧ f.SameSpecials w ∧ s.SameMemory w.s
      let wait := f.bcWaitTrig a
      (f.Takes three x k held → g.Agreed → C.toNat < 65536 → (g.armedAfter.contains key = true ∨ g.armedAfter.length < 64) →
        A % 16 = 0 → A < 0x200000 → g.engineHolds (A / 4096) = false → g.touch (blockUnit A) = .ok u → u.Accesses [(key, 16)] true v →
        exec (.bcInit h a) s = .next ((asks v (.init key B C.toNat)).leaves h three k x held .quiet) ∧ same v)
      ∧ (f.Takes two x k held → A < 0x200000 → g.t.armed.contains key = true →
        (g.Agreed →
          (num (key + 8) % 65536 ≠ 0 →
            exec (.arriveExp h a) s = .next ((asks g (.add key B true)).leaves h two k x held .quiet))
          ∧ exec (.bcSub h a) s = .next ((asks g (.add key (-B) false)).leaves h two k x held .quiet) ∧ same g))
      ∧ (f.Takes wait x k held → A < 0x200000 → g.t.armed.contains key = true →
        let whole : Bool := decide (num key = 0 ∧ num (key + 8) % 65536 = 0)
        (B.getLsbD 1 = true → g.touch .queue = .ok u → ∃ w : Word,
            (h.kill = false →
              exec (.bcWait h a) s = .next (Frame.leaves (if B.getLsbD 0 && whole then asks u (.disarm key) else u) h wait k x held
                (.result 6 ⟨9, w.setWidth 2048, 0⟩)))
            ∧ (h.kill = true → exec (.bcWait h a) s = .next (u.leaves h wait k x held
              { Effect.result 6 ⟨9, w.setWidth 2048, 0⟩ with disarm := if B.getLsbD 0 && whole then some key else none }))
            ∧ w.toNat = num (key + 8) % 65536 * 2 ^ 48 + num key % 2 ^ 48 ∧ same u)
        ∧ (B.getLsbD 1 = false → whole = true →
            exec (.bcWait h a) s = .next (Frame.leaves (if B.getLsbD 0 then asks g (.disarm key) else g) h wait k x held .quiet)
            ∧ same g)))
  ∧ (∀ (f : Frame) (k : Nat), f.s.Canonical →
      let num (m : List Host.Cell) (at_ : Nat) : Nat := Memory.num m at_ 8
      (∀ (bal : Word) (pend : Nat), pend < 65536 → let r := f.endCounter (.init k bal pend)
        num r.s.mem k = bal.toNat ∧ num r.s.mem (k + 8) = pend ∧ f.s.SameOutside r.s k 16
        ∧ (∀ j, r.t.armed.contains j = (decide (j = k) || f.t.armed.contains j)) ∧ r.c = f.c)
      ∧ (∀ (by_ : Word) (pend : Bool), let r := f.endCounter (.add k by_ pend)
        num r.s.mem k = (num f.s.mem k + by_.toNat) % 2 ^ 64 ∧ f.s.SameOutside r.s k 16 ∧ r.t = f.t ∧ r.c = f.c
        ∧ num r.s.mem (k + 8) = (num f.s.mem (k + 8) + if pend then 65535 else 0) % 65536)
      ∧ let r := f.endCounter (.disarm k)
        r.t.armed = f.t.armed.erase k ∧ f.s.SameMemory r.s ∧ ∀ y ∈ r.s.claims, y ∈ f.s.claims ∧ y.holder ≠ .counter k)
  ∧ (∀ f : Frame, f.endGroup.s.late = f.s.late ++ f.c.seq.ends.map (.counter f.c.id) ∧ f.endGroup.c.seq.ends = []
      ∧ f.s.SameMemory f.endGroup.s ∧ f.endGroup.t.armed = f.t.armed)
  ∧ ∀ (u : State) (l : List LateWrite) (id : Nat) (e : CounterEnd), u.late = l ++ [.counter id e] →
      let v := State.endLates { u with late := l }
      ∀ (t : Strand) (c : Ctx), v.owner? id = some t → v.ctx? id = some c → u.endLates = (Frame.endCounter ⟨v, t, c⟩ e).put

/-- R253, R254, R255, R257, R259, R260: XCOLL of a legal parameter block and TTREADY of a legal index take the next transfer ID of
their channel and push it with the channel in bits [51:48], tagged i64, after two cycles, the push never killed; the work stands
posted under that ID, and is handed to the fabric sequencer at once where its channel has room. WAITID passes, on an ID taken by the
group's start, once that is below the channel's XDONE. -/
def Obligations.FabricPosts : Prop :=
  (∀ (h : Slot) (a : Src) (s : State) (f v : Frame) (x : Args) (k : Fetch) (held now : Bool) (chan inst : Nat) (w : Work)
      (words : List Word) (tok : Bool) (utag : Nat) (i : Instr) (b : Bool),
    let trig := copyTrig f.unit a b false false (some 2)
    s.Runs h f → f.Takes trig x k held → x.wait = false →
    let g := k.ready f.unit
    let A := x.a.value.low
    let at_ := x.b.value.low.toNat
    let c := readColl words (A.getLsbD 4)
    g.Agreed → v.postPlace chan = .ok now →
    (i = .xcoll h a ∧ b = true ∧ w = .coll c ∧ tok = c.tok ∧ utag = c.utag ∧ chan = A.toNat % 16
        ∧ inst = (if c.pers then c.round else lookupD g.t.insts c.grp 0 % 256)
        ∧ at_ % 128 = 0 ∧ at_ < 0x200000 ∧ (∀ n ∈ blocksOf at_ 128, g.ownerBit n = false)
        ∧ g.padWords at_ 16 = .ok (words, v) ∧ v.c.seq.late = [] ∧ A.toNat / 32 = 0
        ∧ collReserved words = true ∧ collLegal c = true ∧ (c.bce = true → g.armedAt c.bca = true)
        ∧ (c.pers = true → roundFollows g.t c chan = true) ∧ (c.rop ≠ 0 → etagBytes c.etag ≠ 0) ∧ c.sbuf % 16 = 0
        ∧ c.dbuf % 16 = 0 ∧ c.dpitch % 16 = 0 ∧ c.spitch % 16 = 0
        ∧ (c.pers = true → ((g.t.persOf c.grp chan).map (·.inc.length)).getD 0 < 2)
      ∨ i = .ttready h a ∧ b = false ∧ w = .fire (A.toNat % 65536) ∧ tok = false ∧ utag = 0
        ∧ chan = A.toNat / 65536 % 16 ∧ inst = 0 ∧ A.toNat / 2 ^ 20 = 0 ∧ g.t.ttb.getLsbD 63 = true
        ∧ A.toNat % 65536 < 2 ^ (g.t.ttb.toNat / 2 ^ 57 % 32)
        ∧ g.BlocksReady (g.s.firingBlocks g.t (A.toNat % 65536)) v) →
    let ch := vget v.t.chans chan Chan.start
    ∃ (p r : Frame), exec i s = .next (r.leaves { h with kill := false } trig k x held
        (.result 2 ⟨9, (BitVec.ofNat 64 (chan * 2 ^ 48 + ch.next)).setWidth 2048, 0⟩))
      ∧ p.s.posts = v.s.posts ++ [⟨v.unit, v.t.sid, v.c.id, v.t.ptn, chan, ch.next, inst, w, false, none, [], 0, [], [], none,
        ⟨false, false, false⟩, false, tok, utag⟩]
      ∧ p.t.chans = vset v.t.chans chan ⟨(ch.next + 1) % 2 ^ 48, ch.open_ ++ [ch.next]⟩
      ∧ r = if now then p.at_ (p.put.handPost v.t.sid chan ch.next) else p)
  ∧ ∀ (h : Slot) (a : Src) (s : State) (f : Frame) (x : Args) (k : Fetch) (held : Bool),
    let trig := copyTrig f.unit a true false false none
    s.Runs h f → f.Takes trig x k held → x.wait = false →
    let g := k.ready f.unit
    let c := vget g.t.chans (x.a.value.low.toNat % 16) Chan.start
    let id := x.b.value.low.toNat % 2 ^ 48
    id < (vget g.t.snap.chans (x.a.value.low.toNat % 16) Chan.start).next → id < c.doneId → exec (.waitid h a) s = .next (g.leaves h trig k x held .quiet)

/-! ### The MXE's micro-operations -/

/-- R207, R209, R371: a micro-operation whose word cannot be read ends the call with MCHK; one whose condition bit of mp K is zero does nothing, and the counter moves to the next word; a counter
that stays within the routine is the counter of the running call, and one that leaves it ends the call with UPC. -/
def Obligations.MicroConditions : Prop :=
  (∀ i, IsMicro i → ∀ (m : Micro) (s : State) (f : MxFrame), s.mxFrame = some f →
    (f.wordSound = true → m.c = true → (f.mp m.k.toNat).getLsbD m.cb.toNat = false → exec (i m) s = .next (f.move 1).marked)
    ∧ (f.wordSound = false → exec (i m) s = .next (f.fail (mxFail 5 0)).marked))
  ∧ ∀ (s : State) (f : MxFrame) (off : Int), s.mxFrame = some f →
    let n := (f.r.upc : Int) + off
    let lo : Int := f.r.entry.start
    let hi : Int := lo + f.r.entry.len
    (lo ≤ n → n < hi → f.move off = MxFrame.put { f with r := { f.r with upc := n.toNat, part := 0 } })
    ∧ (n < lo ∨ hi ≤ n → ∃ c : Ctx, (f.move off).ctx? f.c.id = some c ∧ c.mxe.run = none
      ∧ c.mxe.fin.map (·.token) = some (engineToken (64 + 7) (if f.r.call.load.isSome then 2 else 0) f.r.call.routine f.r.call.utag))

/-- R209, R210: MNOP, MSETA, MADD, MSETC, MLOOP and MJMP write their register as the table says, change no other state of the call,
and move the counter; MEND finishes the call with a token of its flags. -/
def Obligations.MicroRegisterOps : Prop :=
  ∀ (m : Micro) (s : State) (f : MxFrame), s.MicroRuns m f →
    let v := f.operand m
    let w := (f.mp m.k.toNat).toNat
    let off := (m.imm.setWidth 12).toInt
    exec (.mnop m) s = .next (f.move 1).marked
    ∧ exec (.mjmp m) s = .next (f.move off).marked
    ∧ (∀ j : Fin 8, m.j.toNat = j → ∀ (i : Instr) (x : BitVec 32),
      (i = .mseta m ∧ x.toNat = (if m.opx.getLsbD 0 then w / 2 ^ 32 else w) % 2 ^ 21
        ∨ i = .madd m ∧ x.toNat = (f.r.ma[j].toNat + ((BitVec.ofNat 16 v).signExtend 32).toNat) % 2 ^ 32) →
      exec i s = .next (MxFrame.move { f with r := { f.r with ma := f.r.ma.set j x } } 1).marked)
    ∧ (∀ j : Fin 4, m.j.toNat = j →
      exec (.msetc m) s = .next (MxFrame.move { f with r := { f.r with mc := f.r.mc.set j (BitVec.ofNat 16 v) } } 1).marked
      ∧ (2 ≤ f.r.mc[j].toNat →
        exec (.mloop m) s = .next (MxFrame.move { f with r := { f.r with mc := f.r.mc.set j (f.r.mc[j] - 1) } } off).marked)
      ∧ (f.r.mc[j].toNat < 2 →
        exec (.mloop m) s = .next (MxFrame.move { f with r := { f.r with mc := f.r.mc.set j 0 } } 1).marked))
    ∧ ∃ x : Finished, exec (.mend m) s = .next (s.setCtx { f.c with mxe := { f.c.mxe with run := none, fin := some x } }).marked
      ∧ x.serial = f.r.call.serial ∧ x.posted = false
      ∧ x.token = engineToken ((if f.r.flags.nan then 32 else 0) + (if f.r.flags.inf then 16 else 0)
          + (if f.r.flags.ovf then 8 else 0)) (if f.r.call.load.isSome then 2 else 0) f.r.call.routine f.r.call.utag

/-- R209, R210, R212, R217: a staging load begins by making its item of set S absent; when it goes on it puts the bytes at ma J into
the item, MLDA and MLDB line by line at the descriptor's pitch, MLDSW with the split V; a load that the declared descriptors do not
ask for is skipped; nothing else changes. -/
def Obligations.MicroLoads : Prop :=
  ∀ (m : Micro) (s : State) (f : MxFrame) (j : Fin 8), s.MicroRuns m f → m.j.toNat = j →
    let at_ := (f.r.ma[j]).toNat
    let d := f.mp m.k.toNat
    let pitch := d.toNat / 2 ^ 37 % 2 ^ 17
    let set (g : Staging) : MxFrame := if m.s then { f with r := { f.r with set1 := g } } else { f with r := { f.r with set0 := g } }
    let begun (g : Staging) : State := (MxFrame.put { set g with r := { (set g).r with part := 1 } }).marked
    let done (g : Staging) : State := (MxFrame.move (set g) 1).marked
    let was := if m.s then f.r.set1 else f.r.set0
    let bytes (a n : Nat) : List Byte := Memory.read s.mem (Key.pad f.c.id a) n
    let lines := (List.range 64).map fun i => bytes (at_ + i * pitch) (lineLength d)
    (f.r.part = 0 → exec (.mlda m) s = .next (begun { was with a := none }) ∧ exec (.mldb m) s = .next (begun { was with b := none })
      ∧ (descBit f.aDesc 54 = true → exec (.mldsa m) s = .next (begun { was with sa := none }))
      ∧ (descBit f.bDesc 54 = true → exec (.mldsw m) s = .next (begun { was with sw := none }))
      ∧ (f.es = true → exec (.mlde m) s = .next (begun { was with se := none }))
      ∧ (f.sparse = true → exec (.mldm m) s = .next (begun { was with sm := none })))
    ∧ (f.r.part ≠ 0 →
      ((∀ i, i < 64 → f.Reads (at_ + i * pitch) (lineLength d) 16) →
        exec (.mlda m) s = .next (done { was with a := some lines }) ∧ exec (.mldb m) s = .next (done { was with b := some lines }))
      ∧ (descBit f.aDesc 54 = true → f.Reads at_ 1024 16 → exec (.mldsa m) s = .next (done { was with sa := some (bytes at_ 1024) }))
      ∧ (descBit f.bDesc 54 = true → f.operand m ≤ 95 → f.Reads at_ 8 4 → exec (.mldsw m) s = .next (done
        { was with sw := some (BitVec.ofNat 64 (Memory.num s.mem (Key.pad f.c.id at_) 8), f.operand m) }))
      ∧ (f.es = true → f.Reads at_ 512 16 → exec (.mlde m) s = .next (done { was with se := some (bytes at_ 512) }))
      ∧ (f.sparse = true → f.Reads at_ 1024 16 → exec (.mldm m) s = .next (done { was with sm := some (bytes at_ 1024) })))
    ∧ (descBit f.aDesc 54 = false → exec (.mldsa m) s = .next (f.move 1).marked)
    ∧ (descBit f.bDesc 54 = false → exec (.mldsw m) s = .next (f.move 1).marked)
    ∧ (f.es = false → exec (.mlde m) s = .next (f.move 1).marked)
    ∧ (f.sparse = false → exec (.mldm m) s = .next (f.move 1).marked)

/-- R115, R204, R209, R210, R213, R214, R217: MSTR of staged tiles and legal metadata leaves in every element of its bank the scaled
group sums added to what stood there, in order of the groups: the four at once, or for BF16 and FP16 tiles two by two, in two
passes. MZERO zeroes its bank, MSTACC stores the bank at ma J and the pitch in the target format, and MLDACC loads a bank bit for bit,
each row by row. No other byte of memory changes; after its last pass or row the counter moves. -/
def Obligations.MicroBankOps : Prop :=
  ∀ (m : Micro) (s : State) (f : MxFrame) (j : Fin 8), s.MicroRuns m f → s.Canonical → m.j.toNat = j →
    let n := f.r.part
    let at_ (pitch : Nat) : Nat := (f.r.ma[j]).toNat + n * pitch
    let acc (b : Nat) : Nat := Key.acs f.c.id (16384 * b)
    let elem (t : State) (b i e : Nat) : Nat := Memory.num t.mem (acc b + 256 * i + 4 * e) 4
    let pad (a : Nat) : Nat := Key.pad f.c.id a
    let after (last : Bool) (g : MxFrame) : State :=
      if last then (g.move 1).marked else (MxFrame.put { g with r := { g.r with part := n + 1 } }).marked
    (∀ (da db : Word) (as bs : List (List Byte)) (x : StrideScales) (sm : List Byte),
      f.staged (f.staging m) = some (da, db, as, bs, x, sm) → as.length = 64 → bs.length = 64 → metaBroken db sm = false →
      s.bad (acc (f.bankOf m)) 16384 = false →
      let wide := decide (mxMode (descTag da) (descTag db) = some .wide)
      let groups := if wide then (if n = 0 then [0, 1] else [2, 3]) else [0, 1, 2, 3]
      ∃ g : MxFrame, exec (.mstr m) s = .next (after (decide (wide = false ∨ n ≠ 0)) g) ∧ g.r.part = n
        ∧ s.SameOutside g.s (acc (f.bankOf m)) 16384
        ∧ ∀ i e, i < 64 → e < 64 → elem g.s (f.bankOf m) i e
          = (strideElem x groups i e (elem s (f.bankOf m) i e) (groupsOf24 (lineValues (descTag da) (da.getLsbD 58) 96 (as.getD i [])))
              (groupsOf24 (columnValues db sm e (bs.getD e [])))).1 % 2 ^ 32)
    ∧ (n < 64 →
      (∃ g : MxFrame, exec (.mzero m) s = .next (after (decide (n = 63)) g) ∧ g.r.part = n
        ∧ s.SameOutside g.s (acc (f.bankOf m) + 256 * n) 256
        ∧ ∀ i, i < 256 → Memory.get g.s.mem (acc (f.bankOf m) + 256 * n + i) = 0)
      ∧ (∀ (tag pitch : Nat) (fmt : FpFmt),
        (m.opx.toNat % 32 = 31 ∧ tag = descTag (f.mp m.k.toNat) ∧ pitch = descPitch (f.mp m.k.toNat)
          ∨ m.opx.toNat % 32 ≠ 31 ∧ tag = m.opx.toNat % 32 ∧ pitch = m.imm.toNat / 65536) →
        let len := 64 * accBytes tag
        accFormat tag = some fmt → at_ pitch % 16 = 0 → at_ pitch + len ≤ 0x200000 →
        (∀ b ∈ blocksOf (at_ pitch) len, b ∈ s.ownedBlocks f.c.id) → s.bad (acc m.bk.toNat + 256 * n) 256 = false →
        ∃ g : MxFrame, exec (.mstacc m) s = .next (after (decide (n = 63)) g) ∧ g.r.part = n
          ∧ (∀ e, e < 64 → Memory.num g.s.mem (pad (at_ pitch) + accBytes tag * e) (accBytes tag)
            = (storeElem fmt (elem s m.bk.toNat n e)).1 % 2 ^ (8 * accBytes tag))
          ∧ s.SameOutside g.s (pad (at_ pitch)) len)
      ∧ let pitch := m.imm.toNat / 65536
        (f.Reads (at_ pitch) 256 16 →
        ∃ g : MxFrame, exec (.mldacc m) s = .next (after (decide (n = 63)) g) ∧ g.r.part = n
          ∧ s.SameOutside g.s (acc m.bk.toNat + 256 * n) 256
          ∧ ∀ e, e < 256 → Memory.get g.s.mem (acc m.bk.toNat + 256 * n + e) = Memory.get s.mem (pad (at_ pitch) + e)))

/-! ### The events of strands, contexts and windows -/

/-- R73, R93, R104, R148: RESULT_PUSH pushes the operations of its strand whose push cycle has ended, in the order of their cycles and
slots, but for those with K = 1 under a leaf guard, which wait for their bundle's end (notes/assumptions/62.md): the n-th last of them to
be pushed stands at place n of the result queue, what stood there before moves down, uncorrectable or not, the flags of each that is
not held are ORed into FPST, and not into what a held FPSET clears, and none is in flight any more; one that waits counts those pushed
after its turn, whose flags are not its to clear. What they disarm is disarmed at the cycle's end. Nothing else changes. -/
def Obligations.ResultsReachTheQueue : Prop :=
  ∀ (sid : Nat) (s : State) (f : Frame), s.frameOf sid = some f → f.c.duePushes.length ≤ 16 →
    let due := f.c.duePushes
    let after (y z : Flying) : Prop := (y.due < z.due ∨ y.due = z.due ∧ y.slot ≤ z.slot) ∧ y.rid ≠ z.rid
    ∃ c : Ctx, exec (.resultPush sid) s = .next (Frame.put { f with
        s := { s with late := s.late ++ (due.filterMap (·.disarm)).map fun k => .counter f.c.id (.disarm k) }
        c := c })
      ∧ c = { f.c with queue := c.queue, fpst := c.fpst, flying := c.flying, held := c.held, bad := c.bad }
      ∧ (∀ x ∈ c.flying, ∃ y ∈ f.c.flying, (y.leafed = true ∨ f.c.icyc ≤ y.due) ∧ x = { y with
          since := x.since
          clear := x.clear }
        ∧ (y.leafed = false → x = y)
        ∧ (y.leafed = true →
          (∀ l : List Flying, l.Sublist due → (∀ z ∈ l, after y z) → y.since + l.length ≤ x.since)
          ∧ ∀ i, x.clear.getLsbD i = true ↔ y.clear.getLsbD i = true ∧ ∀ z ∈ due, after y z → z.flags.getLsbD i = false))
      ∧ (∀ y ∈ f.c.flying, y.leafed = true ∨ f.c.icyc ≤ y.due → ∃ x ∈ c.flying, x = { y with
          since := x.since
          clear := x.clear })
      ∧ (∀ x ∈ due, x ∈ f.c.flying ∧ x.leafed = false ∧ x.due < f.c.icyc)
      ∧ (∀ x ∈ f.c.flying, x.leafed = false → x.due < f.c.icyc → x ∈ due)
      ∧ (∀ n, Sram.queue n ∈ c.bad ↔ due.length ≤ n ∧ (n < 16 ∨ due = []) ∧ Sram.queue (n - due.length) ∈ f.c.bad)
      ∧ (∀ x, (∀ n, x ≠ Sram.queue n) → (x ∈ c.bad ↔ x ∈ f.c.bad))
      ∧ (∃ raised : Flags, (∀ i, raised.getLsbD i = true ↔ ∃ x ∈ due, x.ready = true ∧ x.flags.getLsbD i = true)
        ∧ c.held = f.c.held.map fun x => if x.isFpset then { x with flags := x.flags ||| raised } else x)
      ∧ (∀ i j, i < j → j < due.length → ∃ x y, due[i]? = some x ∧ due[j]? = some y
        ∧ (x.due < y.due ∨ x.due = y.due ∧ x.slot ≤ y.slot))
      ∧ (∀ (i : Fin 16), (∀ x, i < due.length → due[due.length - 1 - i]? = some x →
          c.queue[i] = ⟨x.tag, if x.ready then x.bits else 0, x.ready, x.rid⟩)
        ∧ ∀ j : Fin 16, i.val = j.val + due.length → c.queue[i] = f.c.queue[j])
      ∧ (∀ i, i < 6 → (c.fpst.getLsbD i = true ↔ f.c.fpst.getLsbD i = true
        ∨ ∃ x ∈ due, x.ready = true ∧ x.flags.getLsbD i = true))
      ∧ ∀ i, 6 ≤ i → i < 64 → c.fpst.getLsbD i = f.c.fpst.getLsbD i

/-- R131, R130, R132, R180, R266: the accesses of a cluster that have reached their banks are performed in ascending position, each
position's in issue order, and no others. One store alone writes its bytes; one atomic alone reads eight bytes, writes the new value
of its table, and gives the operation in flight the old one, tagged i64; one load alone gives it the bytes, four of them
sign-extended, as they stand under the stores that its strand holds. -/
def Obligations.WindowAccessesPerform : Prop :=
  ∀ (cl : Nat) (s : State), s.Canonical →
    let gets (x c : Ctx) (rid : Nat) (tag : Tag) (v : Vec) : Prop :=
      let y := x.deliver rid tag v
      c = { y with flying := c.flying } ∧ c.flying.map (fun z => { z with undo := [] }) = y.flying.map fun z => { z with undo := [] }
    ∃ u : State, exec (.windowAccessPerform cl) s = .next u
      ∧ u = { (s.dueAccesses cl).foldl State.performWindow s with win := u.win }
      ∧ (∀ a ∈ s.dueAccesses cl, a ∈ s.win ∧ a.cluster = cl ∧ a.due ≤ s.cycle)
      ∧ (∀ a ∈ u.win, a.cluster = cl → s.cycle < a.due)
      ∧ ∀ a : WinAcc, s.dueAccesses cl = [a] → a.addr + 256 ≤ 2 ^ 24 →
        (∀ bs, a.op = .store bs → bs.length ≤ 256 → s.SameOutside u (Key.window cl a.addr) bs.length
          ∧ ∀ i : Fin bs.length, u.windowByte cl (a.addr + i) = bs[i])
        ∧ (∀ o b c rid, a.op = .atomic o b c rid →
          ∃ old new : Word, AtomicRule o old b c new ∧ s.SameOutside u (Key.window cl a.addr) 8
            ∧ (∀ i, i < 8 → byteOf old i = s.windowByte cl (a.addr + i) ∧ u.windowByte cl (a.addr + i) = byteOf new i)
            ∧ ∀ x, s.ctx? a.ctx = some x → ∃ c, u.ctx? a.ctx = some c ∧ gets x c rid 9 (old.setWidth 2048))
        ∧ (∀ (wide : Bool) rid own, a.op = .load wide rid own →
          ∃ w : Word, s.SameMemory u
            ∧ (∀ i, i < (if wide then 8 else 4) →
              byteOf w i = (heldByte own (Key.window cl (a.addr + i))).getD (s.windowByte cl (a.addr + i)))
            ∧ (wide = false → ∀ i, 32 ≤ i → i < 64 → w.getLsbD i = w.getLsbD 31)
            ∧ ∀ x, s.ctx? a.ctx = some x → u.ctx? a.ctx = some (x.deliver rid 9 (w.setWidth 2048)))
        ∧ ∀ rid tag own, a.op = .vload rid tag own →
          ∃ v : Vec, s.SameMemory u
            ∧ (∀ i, i < 256 → byteOf v i = (heldByte own (Key.window cl (a.addr + i))).getD (s.windowByte cl (a.addr + i)))
            ∧ ∀ x, s.ctx? a.ctx = some x → u.ctx? a.ctx = some (x.deliver rid tag v)

/-- R44, R64, R137, R146, R147, R152, R156, R282, R287, R307, R312, R314, R355, R377: what each event of a strand does when its condition holds:
a constant bank reloaded, a spill's buffer entry freed, a pair filled from the spill area, a tile stalled or on again, a token
posted to its receiver, a member excused, a strand retired, a snapshot read, a fence answered, a held store performed, a waiting k2
token posted, and a unit nobody else holds claimed.
R147, R148, R183, R187: the next element of a bound read port becomes present once it may; the next column of a closed block
becomes present in its cycle; the oldest operation that a unit holds, its elements there, begins: it traps OWNF where one of them is
faulted, takes its value or acts on the machine, and fills its result its latency later; with SLK used up, a trigger held for a
column of an open block traps ILLENC. The model's choices: when a feed element may arrive (notes/assumptions/7.md), which triggers are
held for a column, when they run and when they trap (17.md), that SPILL_WRITE_COMPLETE only frees the entry (30.md), what a retiring
strand waits for (55.md), which tokens keep their places in a port (95.md), and what waits for a port in Retrain (96.md). -/
def Obligations.StrandAndElementEvents : Prop :=
  (∀ (sid : Nat) (s : State) (t : Strand), s.strand? sid = some t →
      (t.cbxTill ≠ 0 → ∃ b : Vector Word 16,
        exec (.cbxReloadEnd sid) s = .next (s.setStrand { t with cbank := b, cbxTill := 0 })
        ∧ ∀ i : Fin 16, b[i] = t.const.getD (16 * t.cbx.toNat + i) 0)
      ∧ exec (.spillWriteComplete sid) s = .next (s.setStrand { t with spilling := t.spilling.drop 1 }).marked
      ∧ (∀ w, t.waits = some w → w.isStall = true →
        exec (.stallEnd sid) s = .next (s.setStrand { t with waits := none }).marked)
      ∧ (∀ p r, s.duePost t = some p → (s.setStrand { t with posts := t.posts.erase p }).receiver t.task p.2.1 = some r →
        exec (.tkpostDeliver sid) s = .next
          (((s.setStrand { t with posts := t.posts.erase p }).setStrand { r with
            k3 := r.k3 ++ [p.2.2] }).progress t.task))
      ∧ (∀ ver n, ver = some n → n ≠ s.cur.toNat → exec (.agexcuseAck ⟨sid, ver⟩) s = .next s.marked)
      ∧ (∀ rmod gid midx ver, t.req = .open (.excuse rmod gid midx) → (∀ n, ver = some n → n = s.cur.toNat) →
        let u := s.setStrand { t with req := .done (.excuse rmod gid midx) }
        (rmod ≠ s.modId → exec (.agexcuseAck ⟨sid, ver⟩) s = .next u.marked)
        ∧ (rmod = s.modId → exec (.agexcuseAck ⟨sid, ver⟩) s = .next (u.rootExcuse gid midx).marked
          ∧ ((s.root? gid).bind AgRoot.members = none → u.rootExcuse gid midx = u)))
      ∧ (∀ k w, t.req = .open (.fence k w) → (k = 1 ∨ s.acquireReady (dieOf t.ptn) = true) →
        exec (.fenceComplete sid) s = .next
          ((if k = 0 then s else s.releaseDie (dieOf t.ptn)).setStrand { t with req := .done (.fence k w) }).marked)
      ∧ (∀ w l, t.k2wait = w :: l → t.life = .running → t.k2.length + t.poppedHere 2 < 16 →
        exec (.k2TokenPost sid) s = .next ((s.setStrand { t with k2 := t.k2 ++ [w], k2wait := l }).progress t.task).marked)
      ∧ (s.drained t = true → let u := (s.retireStrand t).releaseBarriers t.task
        (∃ r : Strand, u.strand? sid = some r ∧ r.life = .retired ∧ r.k2 = [] ∧ r.k3 = [] ∧ r.armed = [] ∧ r.bar = none)
        ∧ ∀ k, u.task? t.task = some k → exec (.retireComplete sid) s = .next
          (if (u.taskStrands k.tid).all (·.life == .retired) then u.endDone k else u).marked)
      ∧ ∀ f, s.frameOf sid = some f →
        (f.starved = true →
          ((∀ x ∈ f.c.held, ∀ y ∈ x.args, y.isColumn = false) →
            exec (.slackExhausted sid) s = .next (s.setStrand { f.t with waits := some .element }).marked)
          ∧ ∀ x, f.c.held.find? (fun x => x.args.any (·.isColumn)) = some x →
            exec (.slackExhausted sid) s = .next (f.heldTrap x ⟨1, 0, 0, 0, 0, none⟩).marked)
        ∧ (∀ e l, t.req = .open (.fill e) → s.rangeWaits (f.c.pairAddr e) 128 = false → s.tileRange f.t.ptn .read (f.c.pairAddr e) 128 = .ok l → s.badPieces l = false →
          ∃ c : Ctx, exec (.fillArrive sid) s = .next
              (Frame.put { f with s := s.tileHasRead f.t.ptn (f.c.pairAddr e) 128 l, t := { f.t with req := .done (.fill e) }, c := { f.c with ring := c.ring, bad := c.bad } }).marked
            ∧ (∀ x, x ∈ c.bad ↔ x ∈ f.c.bad ∧ ∀ n, n < 16 → x ≠ .ring ((16 * e + n) % 256))
            ∧ ∀ n : Fin 256, c.ring[n] = if (n + 256 - 16 * e % 256) % 256 < 16
              then (wordsOf 16 (s.readPieces l)).getD ((n + 256 - 16 * e % 256) % 256) 0 else f.c.ring[n])
        ∧ (∀ l, t.req = .open .csync → s.rangeWaits f.t.cseg (8 * f.t.clen) = false → s.tileRange f.t.ptn .read f.t.cseg (8 * f.t.clen) = .ok l → s.badPieces l = false →
          let words := wordsOf f.t.clen (s.readPieces l)
          exec (.csyncSnapshot sid) s = .next ((s.tileHasRead f.t.ptn f.t.cseg (8 * f.t.clen) l).setStrand { f.t with
            req := .done .csync
            const := words
            cbank := reloadBank words f.t.cbx
            cbxTill := 0 }).marked)
        ∧ (∀ x l, t.drain = x :: l → (l ≠ [] ∨ t.trap = none) → (∀ u ∈ x.units f.c.id, f.atHand u = true) →
          ∃ (v : State) (r : Strand), exec (.heldStoreDrain sid) s = .next v ∧ v.strand? sid = some r ∧ r.drain = l
            ∧ r.drainGo = s.cycle + 1
            ∧ (x.window = false → ∀ (k : Nat) (bs : List Byte), x.pieces = [(k, bs)] → s.Canonical → s.SameOutside v k bs.length
              ∧ ∀ i : Fin bs.length, Memory.get v.mem (k + i) = bs[i])
            ∧ (x.window = true → ∀ (cl o : Nat) (bs : List Byte), x.pieces = [(2 ^ 40 + 2 ^ 24 * cl + o, bs)] → o < 2 ^ 24 →
              v.win = s.win ++ [⟨cl, s.cycle + 6, positionOf t.ptn, x.ctx, o, .store bs, x.rid⟩] ∧ v.SameMemory s))
        ∧ (∀ x l, t.drain = x :: l → (∃ u ∈ x.units f.c.id, f.atHand u = false) →
          ∃ c : Ctx, exec (.heldStoreDrain sid) s = .next
              (Frame.put { f with t := { f.t with drainGo := s.cycle + 1 }, c := { f.c with wants := c.wants, seq := c.seq } })
            ∧ ∀ u ∈ x.units f.c.id, f.atHand u = false → c.wants.any (·.2 == u) = true)
        ∧ (∀ u, s.owner? f.c.id = some f.t → t.req = .open (.claim u) → s.victimOf f.t.ptn u f.c.id = none → f.c.away = [] → f.windowResident = true →
          s.tileWaits f.t.ptn = false →
          ∃ v : State, exec (.unitClaimComplete sid u) s = .next v
            ∧ ((v.tile f.t.ptn).owners.find? (·.1 == u)).map (·.2) = some f.c.id ∧ v.SameMemory s
            ∧ (v.strand? sid).map (·.req) = some .none))
  ∧ (∀ (id : Nat) (s : State) (c : Ctx), s.ctx? id = some c →
      (∀ (p : Fin 8) (t : Strand), s.owner? id = some t → s.feedReady c c.feeds[p] = true →
        ∃ tiles, exec (.feedElementArrive id p) s = .next (State.setCtx { s with tiles := tiles }
          { c with feeds := c.feeds.set p { c.feeds[p] with arrived := c.feeds[p].arrived + 1 } }))
      ∧ (∀ l b m, c.blocks = l ++ b :: m → (∀ y ∈ l, s.columnDue y = false) → b.closed = true → b.present < 32 →
        b.closedAt + 2 + b.present ≤ s.cycle → (∀ y ∈ l ++ m, y.serial ≠ b.serial) →
        exec (.columnPresent id) s = .next (s.setCtx { c with
          blocks := (l ++ { b with present := b.present + 1 } :: m).filter fun y =>
            !(y.closed && decide (32 ≤ y.nextCol) && decide (32 ≤ y.present)) }))
      ∧ ∀ (t : Strand) (u : UnitName) (x : Held), s.owner? id = some t → t.cur = id →
        (c.held.find? (fun y => y.unit == u && y.till.any (· ≤ s.cycle)) = some x →
          ∃ v : State, exec (.heldOpRun id u) s = .next v ∧ v.SameMemory s
            ∧ v.ctx? id = some (Ctx.fill { c with held := c.held.erase x } x.rid x.result))
        ∧ (c.held.find? (fun y => y.unit == u && y.till.any (· ≤ s.cycle)) = none →
          c.held.find? (fun y => y.unit == u && y.till.isNone) = some x → c.elementsHere x = true →
          (∀ a, x.fault = some a → exec (.heldOpRun id u) s = .next (Frame.heldTrap ⟨s, t, c⟩ x ⟨5, 0, a, 0, 0, none⟩))
          ∧ (x.fault = none → let runs (y : Held) : State := s.setCtx { c with held := c.held.map fun z => if z = x then y else z }
            (x.op = none → exec (.heldOpRun id u) s = .next (runs { x with till := some (s.cycle + x.lat) }))
            ∧ (∀ o p, x.op = some (.compute o) → x.compute o = .ok p → exec (.heldOpRun id u) s = .next
              (runs { x with op := none, tag := p.tag, bits := p.bits, flags := p.flags, till := some (s.cycle + x.lat) }))
            ∧ ∀ i, x.op = some (.again i) → ∃ v : State, exec (.heldOpRun id u) s = .next v ∧ v.SameMemory s
              ∧ ∃ y : Ctx, v.ctx? id = some y ∧ y.again = some ⟨x.rid, c.seq, c.nextRid⟩ ∧ y.nextRid = x.rid
                ∧ y.seq.slot = x.unit.code ∧ y.held = c.held)))

/-! ### The events of engines and copies -/

/-- R196, R197, R199, R201, R202, R206, R207, R217, R223, R228, R371: a held call enters its queue once there is room; the MXE starts the
call at the head of its queue with its registers zero and nothing staged, or ends it where its routine is not valid; one whose entry in
the queue cannot be read ends with MCHK; a load whose image is legal is written whole; a completed call releases its claims and posts its
token, one that found its port full once there is room beside the tokens that a mismatch would put back (notes/assumptions/95.md); a
transform that may run goes on to its next quiescent point, writing nothing but the places of its pencil, and ends after its last
pencil with a token of its flags; an engine that another strand claims stops, a staging load that it was at to begin again. That the
XFU goes one stage or element in a step and writes a pencil with its last, and that its token shows the flags of what was stored, is
the model's choice (notes/assumptions/28.md). -/
def Obligations.EngineEvents : Prop :=
  ∀ (id : Nat) (s : State) (c : Ctx), s.ctx? id = some c →
    (∀ x l, c.mxe.held = x :: l → c.mxe.taken < 8 → exec (.heldCallEnqueue id .mxe) s = .next
      (s.setCtx { c with mxe := { c.mxe with held := l, queue := c.mxe.queue ++ [x] } }).marked)
    ∧ (∀ x l, c.xfu.held = x :: l → c.xfu.taken < 8 → exec (.heldCallEnqueue id .xfu) s = .next
      (s.setCtx { c with xfu := { c.xfu with held := l, queue := c.xfu.queue ++ [x] } }).marked)
    ∧ (∀ x l, c.mxe.queue = x :: l → s.mxeHead c = some x → Sram.call x.serial ∈ c.bad →
      ∃ (u : State) (d : Ctx), exec (if x.load.isSome then .mxloadRun id else .mxeCallStart id) s = .next u ∧ u.ctx? id = some d
        ∧ u.mem = s.mem ∧ d = { c with mxe := { c.mxe with
          queue := l
          run := none
          fin := some ⟨x.serial, engineToken (64 + 5) (if x.load.isSome then 2 else 0) x.routine x.utag, false⟩ } })
    ∧ (∀ x l, c.mxe.queue = x :: l → s.mxeHead c = some x → x.load = none → Sram.call x.serial ∉ c.bad →
      let e := storeEntry (s.tileOf id) c.mxe x.routine
      (e.valid = true → ∃ r : MxRun,
        exec (.mxeCallStart id) s = .next (s.setCtx { c with mxe := { c.mxe with queue := l, run := some r } }).marked
        ∧ r.call = x ∧ r.entry = e ∧ r.upc = e.start ∧ r.ma = Vector.replicate 8 0 ∧ r.mc = Vector.replicate 4 0
        ∧ r.set0 = .empty ∧ r.set1 = .empty ∧ r.flags = .none ∧ r.part = 0)
      ∧ (e.valid = false → exec (.mxeCallStart id) s = .next (s.setCtx { c with mxe := { c.mxe with
        queue := l, run := none, fin := some ⟨x.serial, engineToken (64 + 6) 0 x.routine x.utag, false⟩ } }).marked))
    ∧ (∀ x q, c.mxe.queue = x :: q → s.mxeHead c = some x → ∀ l, x.load = some l → Sram.call x.serial ∉ c.bad →
      s.bad (Key.pad id l.addr) (8 * l.count) = false →
      64 ≤ l.index → 1024 ≤ l.start → l.start + l.count ≤ 2048 →
      let words := s.imageWords id l
      (∀ i : Fin words.length, l.refuses (l.start + i) words[i] = false) →
      ∃ (u : State) (d : Ctx), exec (.mxloadRun id) s = .next u.marked ∧ u.ctx? id = some d ∧ d.mxe.queue = q
        ∧ d.mxe.fin = some ⟨x.serial, engineToken 0 2 x.routine x.utag, false⟩
        ∧ (∀ i : Fin words.length, storeWord (u.tileOf id) d.mxe (l.start + i) = words[i])
        ∧ storeEntry (u.tileOf id) d.mxe l.index = ⟨decide (l.count ≠ 0), l.start, l.count, l.adesc, l.bdesc⟩)
    ∧ (∀ e x, c.finished e = some x → x.posted = false →
      ∃ d : Ctx, exec (.engineCallComplete id e) s = .next ((s.release (.call x.serial)).postEngine d e x).marked
        ∧ d = { c with wants := d.wants } ∧ (s.release (.call x.serial)).mem = s.mem
        ∧ ∀ k, k ∈ (s.release (.call x.serial)).claims ↔ k ∈ s.claims ∧ k.holder ≠ .call x.serial)
    ∧ (∀ e x, c.finished e = some x → x.posted = true → exec (.engineTokenPostDeferred id e) s = .next (s.postEngine c e x).marked)
    ∧ (∀ e x t, s.owner? id = some t →
      (c.engineTokens e).length + (if t.cur = id then t.poppedHere (match e with | .mxe => 0 | .xfu => 1) else 0) < 16 →
      s.postEngine c e x = (s.setCtx ((c.setFinished e none).pushToken e x.token)).progress t.task)
    ∧ (∀ (r : XfuRun) (l : List XfuCall) (y : XStep), c.xfu.fin = none → c.xfu.stop = false → c.engineHere .xfu = true →
      (c.xfu.run = some r ∧ l = c.xfu.queue
        ∨ c.xfu.run = none ∧ c.xfu.queue = r.call :: l ∧ s.claimLive r.call.serial = true ∧ r = ⟨r.call, 0, 0, [], .none⟩
          ∧ Sram.call r.call.serial ∉ c.bad) →
      XStep.next ⟨s, r⟩ id = .ok y →
      (y.r.pencil < r.call.pencils → exec (.xfuCallStart id) s = .next (y.s.setCtx { c with xfu := { c.xfu with
        queue := l, run := some y.r } }).marked)
      ∧ (r.call.pencils ≤ y.r.pencil → exec (.xfuCallStart id) s = .next (y.s.setCtx { c with xfu := { c.xfu with
        queue := l, run := none, fin := some ⟨r.call.serial, engineToken y.r.flags.status 1 r.call.port r.call.utag, false⟩ } }).marked)
      ∧ y.r.call = r.call ∧ y.s = { s with mem := y.s.mem, ecc := y.s.ecc, fresh := y.s.fresh }
      ∧ ∀ dst, (match r.call.pencil r.pencil with | .fft _ _ _ d => d | .forward _ _ d => d | .inverse _ _ d => d) = dst →
        s.Canonical → ∀ j, (∀ a ∈ dst, j < Key.pad id a.toNat ∨ Key.pad id a.toNat + 2 * r.call.plan.rsize ≤ j) →
          Memory.get y.s.mem j = Memory.get s.mem j)
    ∧ (s.wantsEngine c .mxe = true →
      ∃ m : Mxe, exec (.mxeQuiesce id) s = .next (s.setCtx { c with mxe := m }).marked
        ∧ (c.mxe.run = none → m = { c.mxe with stop := true })
        ∧ ∀ r, c.mxe.run = some r → let op := (storeWord (s.tileOf id) c.mxe r.upc).toNat / 2 ^ 58
          m = { c.mxe with stop := true, run := some { r with part := if 7 ≤ op ∧ op ≤ 12 then 0 else r.part } })
    ∧ (s.wantsEngine c .xfu = true →
      exec (.xfuQuiesce id) s = .next (s.setCtx { c with xfu := { c.xfu with stop := true } }).marked)

/-- R232, R235, R246, R250, R261, R271, R282, R308, R312, R314: a held tag command is accepted once an entry of its engine is free; a command that
has ended sets its status and tag and frees its entry; a disarm completes once no launch is pending; an arrival subtracts from its
counter; a replayed request only takes time; a replica is written whole at one member after another, or refused by those whose page is, and the
last member's answer sends the module's; the record of a multicast store is written once every member has answered, an answer of other
modules that is stale counting nothing (notes/assumptions/81.md); a replica behind a retraining port waits; an invalidation is applied in stamp order, and a domain's switch ends. -/
def Obligations.CopyEvents : Prop :=
  (∀ (n : Nat) (s : State) (k : Cmd), s.cmd? n = some k →
    (k.accepted = false → s.activeEntries k.ptn k.engineB < 64 →
      exec (.tagCommandAccept n) s = .next (s.setCmd { k with accepted := true }).marked)
    ∧ (∀ t, k.ended = true → k.tag < 64 → ({ s with cmds := s.cmds.filter (·.id != n) } : State).strand? k.sid = some t →
      ∃ (u : State) (r : Strand), exec (.tagCommandComplete n) s = .next u ∧ u.strand? k.sid = some r ∧ u.cmd? n = none
        ∧ ∀ i : Fin 64, r.tags.getLsbD i = (decide (i.val = k.tag) || t.tags.getLsbD i)
          ∧ r.tagbz.getLsbD i = (decide (i.val ≠ k.tag) && t.tagbz.getLsbD i)
          ∧ r.stats[i] = if i.val = k.tag then BitVec.ofNat 8 k.status else t.stats[i])
    ∧ (∀ index, k.kind = .catDisarm index → k.pos = 1 → k.ended = false → s.launchPending index = false →
      exec (.catalogueDisarmComplete n) s = .next (s.endCmd k 0).marked)
    ∧ (∀ line grp at_ va ms, s.Canonical → k.kind = .mcst line grp at_ va → k.members = some ms → (∀ m ∈ ms, m.modu = s.modId) →
      k.answered = true → k.ended = false → ∀ ack : FarAck, ∃ (u : State) (d : Cmd), exec (.mcstAckArrive n ack) s = .next u ∧ u.cmd? n = some d
        ∧ d.ended = true ∧ d.status = (if k.negs = [] then 0 else 5)
        ∧ (k.acks.length < 65536 → k.negs.length < 65536 →
          Memory.num u.mem (Key.pad k.ctx at_) 8 = k.acks.length + 65536 * k.negs.length))
    ∧ ∀ line grp at_ va ms negs, k.kind = .mcst line grp at_ va → k.members = some ms → k.ended = false →
      let told (i : Nat) : Prop := i ∈ k.acks ∨ i ∈ k.negs
      (∀ i m, ms[i]? = some m → told i ∨ m.modu ≠ s.modId) →
      ∃ (u : State) (d : Cmd), exec (.mcstAckArrive n ⟨negs, s.cur.toNat⟩) s = .next u ∧ u.cmd? n = some d ∧ d.ended = true
        ∧ (d.status = 0 ∨ d.status = 5)
        ∧ (d.status = 0 ↔ k.negs = [] ∧ ∀ i m, ms[i]? = some m → ¬told i → i ∉ negs)
        ∧ ∀ ver, ver ≠ s.cur.toNat → k.answered = false → exec (.mcstAckArrive n ⟨negs, ver⟩) s = .next s.marked)
  ∧ (∀ (ctx bca len : Nat) (s : State) (t : Strand), s.Canonical → s.owner? ctx = some t →
    t.armed.contains (Key.pad ctx bca) = true →
    ∃ u : State, exec (.counterArrival ctx bca len) s = .next u ∧ s.SameOutside u (Key.pad ctx bca) 16
      ∧ (Memory.num u.mem (Key.pad ctx bca) 8 + len) % 2 ^ 64 = Memory.num s.mem (Key.pad ctx bca) 8
      ∧ Memory.num u.mem (Key.pad ctx bca + 8) 8 = Memory.num s.mem (Key.pad ctx bca + 8) 8 % 65536)
  ∧ (∀ (n : Nat) (s : State), exec (.replayResponse n) s = .next s.marked)
  ∧ (∀ (r : Replica) (m : Nat × Nat) (l : List (Nat × Nat)) (s : State), r.members = m :: l → (r.frm = s.modId ∨ r.ver = s.cur.toNat) →
    let t := { s with replicas := s.replicas.erase r }
    (t.rangeWaits r.va 256 = true → exec (.mcstReplicaArrive r) s = .next ({ t with replicas := t.replicas ++ [r] } : State).marked)
    ∧ (t.rangeWaits r.va 256 = false →
    let goes (w : State) (q : Replica) : Prop :=
      (l ≠ [] → exec (.mcstReplicaArrive r) s = .next ({ w with replicas := w.replicas ++ [q] } : State).marked)
      ∧ (l = [] → r.frm ≠ s.modId → exec (.mcstReplicaArrive r) s = .next (w.send r.frm (.mcAck r.frm r.cmd q.acks q.negs)).marked)
      ∧ (l = [] → r.frm = s.modId → exec (.mcstReplicaArrive r) s = .next (q.negs.foldl (fun s i => s.countAnswer r.cmd i false)
        (q.acks.foldl (fun s i => s.countAnswer r.cmd i true) w)).marked)
    (∀ why, t.globalKey [] .write r.va = .error why → goes t { r with members := l, negs := r.negs ++ [m.1] })
    ∧ ∀ key, t.globalKey [] .write r.va = .ok key → ∃ w : State, goes w { r with members := l, acks := r.acks ++ [m.1] }
      ∧ w = { t with mem := w.mem, ecc := w.ecc, stamps := w.stamps, clocks := w.clocks }
      ∧ (s.Canonical → s.SameOutside w key r.line.length ∧ ∀ i : Fin r.line.length, Memory.get w.mem (key + i) = r.line[i])))
  ∧ (∀ (r : Replica) (s : State), r.frm ≠ s.modId → r.ver ≠ s.cur.toNat → ∃ u : State, exec (.mcstReplicaArrive r) s = .next u
    ∧ u = (State.send { s with replicas := s.replicas.erase r } r.frm (.mcAck r.frm r.cmd r.acks (r.negs ++ r.members.map (·.1)))).marked)
  ∧ (∀ (die : Nat) (x : List Nat) (s : State), (s.dieClock die).appliable x = true → exec (.invalidationApply die x) s
    = .next (s.setDieClock die { s.dieClock die with inv := (s.dieClock die).inv.erase x }).marked)
  ∧ ∀ (die : Fin 8) (n : Fin 16) (s : State), exec (.l2domSwitchDone die n) s = .next (State.marked { s with
      dies := s.dies.set die { s.dies[die] with busy := (s.dies[die]).busy.set n false } })

/-- R232, R239, R241, R242, R243, R245, R247, R261, R308: COPY_CHUNK of a command that may go on. A chunk of a copy is the next bytes of
its walk, as many as lie within 64 KiB and one region of each global side; it reads each of its pieces from the source, in whichever of
the four spaces, and zeros in an inactive run of a gather, and writes them to the destination, an inactive run of a scatter left out; no
other byte changes, and the copy goes on behind it, or ends with status 0. The index of a gather or scatter takes the place of level 1.
That a command's runs go in the order of its walk, one chunk an event, is the model's choice (notes/assumptions/21.md).
A copy of one run of at most 64 KiB between disjoint
ranges of its scratchpad moves every byte, changes no other, and ends with status 0; a global atomic reads its location as one step,
writes the new value of its table, and leaves the old one at its result address. A range of one 64 KiB region changes no byte. CAT.ARM
writes its record to the catalogue and arms the entry, CAT.DISARM disarms one of its own queue; one that may not, and a multicast
store to a group that is not there, end with their status. -/
def Obligations.CopyChunks : Prop :=
  ∀ (n : Nat) (s : State) (k : Cmd), s.cmd? n = some k → s.chunkReady k = true → s.Canonical →
    (∀ (d : CopyDesc) (detach : Bool), k.kind = .copy d .plain detach → d.ssp = 1 → d.dsp = 1 → d.bce = false →
      d.bounds = [1, 1, 1, 1, 1] → 1 ≤ d.run → d.run ≤ 65536 → k.pos = 0 → d.saddr + d.run ≤ 0x200000 →
      d.daddr + d.run ≤ 0x200000 → (d.saddr + d.run ≤ d.daddr ∨ d.daddr + d.run ≤ d.saddr) → d.sstr.length = 5 →
      d.dstr.length = 5 → s.bad (Key.pad k.ctx d.saddr) d.run = false →
      ∃ (u : State) (e : Cmd), exec (.copyChunk n) s = .next u ∧ s.SameOutside u (Key.pad k.ctx d.daddr) d.run
        ∧ (∀ i, i < d.run → Memory.get u.mem (Key.pad k.ctx d.daddr + i) = Memory.get s.mem (Key.pad k.ctx d.saddr + i))
        ∧ u.cmd? n = some e ∧ e.ended = true ∧ e.status = 0)
    ∧ (∀ (d : CopyDesc) (w : Walk) (pos : Nat), 1 ≤ d.run → pos < d.total → let l := s.chunkAt k.ctx d w pos
      let region (sp : Nat) (side : Seg → Option Nat) : Prop := sp = 0 → ∀ g ∈ l, ∀ a, side g = some a → a % 65536 + g.n ≤ 65536
        ∧ ∀ g' ∈ l, ∀ a', side g' = some a' → a / 65536 = a' / 65536
      let leaves (sp : Nat) (side : Seg → Option Nat) (next : Option Nat) : Prop :=
        sp = 0 ∧ ∃ g ∈ l, ∃ a b, side g = some a ∧ next = some b ∧ a / 65536 ≠ b / 65536
      l ≠ [] ∧ segBytes l ≤ 65536 ∧ pos + segBytes l ≤ d.total ∧ region d.ssp (·.src) ∧ region d.dsp (·.dst)
      ∧ (segBytes l = 65536 ∨ pos + segBytes l = d.total ∨ leaves d.ssp (·.src) (s.walkSrc k.ctx d w (pos + segBytes l))
        ∨ leaves d.dsp (·.dst) (s.walkDst k.ctx d w (pos + segBytes l)))
      ∧ ∀ (i : Nat) (g : Seg), l[i]? = some g → 1 ≤ g.n ∧ ∀ j, j < g.n → let at_ := pos + segBytes (l.take i) + j
        s.walkSrc k.ctx d w at_ = g.src.map (fun a => (a + j) % 2 ^ 64)
        ∧ s.walkDst k.ctx d w at_ = g.dst.map (fun a => (a + j) % 2 ^ 64))
    ∧ (∀ (sp : Nat) (l : List Seg) (bs : List (List Byte)) (t : State), s.readSegs k sp l = .ok (bs, t) →
      bs.length = l.length ∧ t = { s with tlb := t.tlb, clocks := t.clocks }
      ∧ ∀ (i : Nat) (g : Seg) (b : List Byte), l[i]? = some g → bs[i]? = some b → b.length = g.n
        ∧ (g.src = none → ∀ x ∈ b, x = 0)
        ∧ ∀ a, g.src = some a → ∃ key : Nat, (∀ j, j < g.n → b[j]? = some (s.placeByte k sp (a + j) (key + j)))
          ∧ (sp = 0 → ∃ v : State, v = { s with tlb := v.tlb, clocks := v.clocks } ∧ v.globalKey k.tlbs .read a = .ok key)
          ∧ (sp ≠ 0 → key = k.place sp a))
    ∧ (∀ (d : CopyDesc) (w : Walk) (detach : Bool) (bs : List (List Byte)) (t : State) (places : List (Nat × Nat × List Byte)),
      let l := s.chunkAt k.ctx d w k.pos
      let m := segBytes l
      let put (p : Nat × Nat × List Byte) : Nat := if d.dsp = 0 then p.2.1 else k.place d.dsp p.1
      k.kind = .copy d w detach → d.bce = false → 1 ≤ d.run → k.pos < d.total →
      (w ≠ .plain → ∀ r, k.pos / d.run ≤ r → r ≤ (k.pos + m - 1) / d.run →
        s.bad (Key.pad k.ctx (d.idx + 2 ^ (2 + d.iw) * (r % d.bounds.headD 1))) (2 ^ (2 + d.iw)) = false) →
      s.readSegs k d.ssp l = .ok (bs, t) → t.segPlaces k d.dsp (l.zip bs) = .ok places →
      places.Pairwise (fun p q => put p + p.2.2.length ≤ put q ∨ put q + q.2.2.length ≤ put p) →
      (k.pos + m < d.total ∨ d.ssp ≠ d.dsp
        ∨ d.ssp = 0 ∧ (∀ i j a b, i < d.total → j < d.total → s.walkSrc k.ctx d w i = some a → s.walkDst k.ctx d w j = some b → a ≠ b)
        ∨ w = .plain ∧ ((d.extent d.saddr d.sstr).2 < (d.extent d.daddr d.dstr).1 ∨ (d.extent d.daddr d.dstr).2 < (d.extent d.saddr d.sstr).1)) →
      ∃ (u : State) (e : Cmd), exec (.copyChunk n) s = .next u ∧ u.cmd? n = some e
        ∧ (k.pos + m < d.total → e = { k with pos := k.pos + m })
        ∧ (d.total ≤ k.pos + m → e.ended = true ∧ e.status = 0)
        ∧ (∀ p ∈ places, ∀ j : Fin p.2.2.length, u.placeByte k d.dsp (p.1 + j) (put p + j) = p.2.2[j])
        ∧ ∀ x, (∀ p ∈ places, x < put p ∨ put p + p.2.2.length ≤ x) → Memory.get u.mem x = Memory.get s.mem x)
    ∧ (∀ (sp : Nat) (l : List (Seg × List Byte)) (places : List (Nat × Nat × List Byte)), s.segPlaces k sp l = .ok places →
      places.map (fun p => (p.1, p.2.2)) = l.filterMap (fun p => p.1.dst.map fun a => (a, p.2))
      ∧ (sp = 0 → ∀ p ∈ places, s.globalKey k.tlbs .write p.1 = .ok p.2.1))
    ∧ (∀ (o : AtomicOp) (va at_ key : Nat) (c d : Word), k.kind = .atomic o false va (some at_) c d →
      s.globalKey k.tlbs .write va = .ok key → s.bad key 8 = false → (key + 8 ≤ 2 ^ 40) → at_ < 0x200000 →
      ∃ (old new : Word) (u : State) (e : Cmd), exec (.copyChunk n) s = .next u ∧ AtomicRule o old c d new
        ∧ (∀ i, i < 8 → byteOf old i = Memory.get s.mem (key + i) ∧ Memory.get u.mem (key + i) = byteOf new i
          ∧ Memory.get u.mem (Key.pad k.ctx at_ + i) = byteOf old i)
        ∧ u.cmd? n = some e ∧ e.ended = true ∧ e.status = 0)
    ∧ (∀ (o : RangeOp) (base len lv key : Nat), k.kind = .range o base len lv → k.pos = 0 → 1 ≤ len →
      base % 65536 + len ≤ 65536 → s.globalKey k.tlbs .read (base / 256 * 256) = .ok key →
      ∃ (u : State) (e : Cmd), exec (.copyChunk n) s = .next u ∧ u.cmd? n = some e ∧ e.ended = true ∧ e.status = 0
        ∧ s.SameMemory u)
    ∧ (∀ (index va budget : Nat), k.kind = .catArm index va budget →
      (s.catPresent = false ∨ (s.catEntry index).isSome = true → exec (.copyChunk n) s = .next (s.endCmd k 7).marked)
      ∧ ∀ (bs : List Byte) (t u : State), s.catPresent = true → s.catEntry index = none → s.readSide k 0 va 64 = .ok (bs, t) →
        t.writeSide k 0 (s.catAddr index) bs = .ok u →
        exec (.copyChunk n) s = .next (State.endCmd { u with cat := ⟨index, s.queueOf k.sid,
          if budget = 0 then none else some budget⟩ :: u.cat } k 0).marked)
    ∧ (∀ index : Nat, k.kind = .catDisarm index →
      (s.catEntry index = none → exec (.copyChunk n) s = .next (s.endCmd k 7).marked)
      ∧ ∀ e, s.catEntry index = some e →
        (s.catPresent = true → e.queue = s.queueOf k.sid → ∃ (u : State) (j : Cmd), exec (.copyChunk n) s = .next u
          ∧ u.catEntry index = none ∧ u.cmd? n = some j ∧ j.pos = 1 ∧ j.ended = false ∧ s.SameMemory u)
        ∧ (s.catPresent = false ∨ e.queue ≠ s.queueOf k.sid → exec (.copyChunk n) s = .next (s.endCmd k 7).marked))
    ∧ ∀ (line grp at_ va : Nat), k.kind = .mcst line grp at_ va → s.group grp = none →
      exec (.copyChunk n) s = .next (s.endCmd k 6).marked

/-! ### The events of the fabric, of agreements and of tasks -/

/-- R250, R295, R297, R298, R299, R300, R304, R312, R314, R319, R390: what each event of the fabric does when its condition holds: a
notice is acted on, or refused by its version; a pull reads its chunk at the sender and sends it, waits for its route, or finds its
receiver out of reach; a chunk that was asked for lands, and leaves exactly its bytes where it is placed, waits for a port, or has its
transfer wait for a page; a parked chunk is written; a transfer without a translation is recorded once the ring has room; waiting pulls
are issued; a refused packet is asked for or sent again.
R253, R258, R305, R307: a transfer ID whose every part is over completes: it is no longer incomplete, its post and its claims are
gone, and its token, whose fields are R305's, enters k2 where one is due. How notices are matched is the model's choice
(notes/assumptions/24.md), and so are how the notices of an ended post are answered (notes/assumptions/80.md) and which reports are
refused by their version and how they are sent again (notes/assumptions/81.md). -/
def Obligations.FabricEvents : Prop :=
  (∀ (s : State),
      (∀ n : Notice, let t : State := { s with notices := s.notices.erase n }
        (n.dest.modu = s.modId → (n.frm.modu = s.modId ∨ n.ver = s.cur.toNat) →
          exec (.readinessNotice n) s = .next (t.takeNotice n).pumped.marked
          ∧ (∀ e i peer sender, n.body = .fire e i peer sender → ∃ x : Xfer, (t.takeNotice n).xfers = s.xfers ++ [x]
            ∧ x.id = s.nextId ∧ x.notice = n ∧ x.rx = n.dest ∧ x.len = e.len ∧ x.left = e.len ∧ x.asked = 0 ∧ x.out = []
            ∧ x.src = e.src + (if e.opr = 4 then peer * e.spitch else 0)
            ∧ x.dst = e.daddr + (if e.opr = 4 then e.self * e.dpitch else 0)))
        ∧ (n.dest.modu ≠ s.modId ∨ n.frm.modu ≠ s.modId ∧ n.ver ≠ s.cur.toNat → exec (.readinessNotice n) s = .next t.marked))
      ∧ (∀ p : Pull, let t : State := { s with pulls := s.pulls.erase p }
        p.frm.modu = s.modId → (p.dest.modu = s.modId ∨ p.ver = s.cur.toNat) →
        (s.route p.dest.modu = .none → exec (.pullRequest p) s = .next (t.lostReceiver p).marked)
        ∧ (s.route p.dest.modu ≠ .none → t.pullWaits p = true →
          exec (.pullRequest p) s = .next (State.marked { t with pulls := t.pulls ++ [p] }))
        ∧ ∀ q : PostRec, s.route p.dest.modu ≠ .none → t.pullWaits p = false → p.ssp = true → s.post? p.strand p.chan p.id = some q →
          s.bad (Key.pad p.ctx (p.src + p.pos)) p.len = false →
          let f : Flight := ⟨p.xfer, p.dest, p.pos, p.len, s.cur.toNat, 0, .data (Memory.read s.mem (Key.pad p.ctx (p.src + p.pos)) p.len)⟩
          exec (.pullRequest p) s = .next (if p.dest.modu = s.modId then { t with flights := t.flights ++ [f] }
            else t.send p.dest.modu (.flight f)).marked)
      ∧ (∀ (f : Flight) (x : Xfer) (bs : List Byte) (keys : List (Nat × Nat)),
        (s.xfers.find? fun x => x.id == f.xfer && x.out.contains (f.pos, f.len)) = some x →
        (∀ k ∈ s.parked, ¬(k.flight.xfer = f.xfer ∧ k.flight.pos = f.pos)) →
        (x.notice.frm.modu = s.modId ∨ f.ver = s.cur.toNat) → f.data = .data bs → x.how = .place →
        let u : State := { s with flights := s.flights.erase f }
        (u.landWaits x f.pos f.len = true → exec (.chunkLand f) s = .next (State.marked { u with flights := u.flights ++ [f] }))
        ∧ (u.landWaits x f.pos f.len = false → u.placeKeys .write (x.places f.pos f.len) = .ok keys →
          exec (.chunkLand f) s = .next (u.landChunk x f.pos f.len f.port bs keys).pumped.marked)
        ∧ ∀ va, u.landWaits x f.pos f.len = false → u.placeKeys .write (x.places f.pos f.len) = .error (va, 0) → x.notice.frm.modu = s.modId →
          exec (.chunkLand f) s = .next (u.setXfer { x with
            out := x.out.erase (f.pos, f.len)
            redo := x.redo ++ [(f.pos, f.len)]
            stuck := x.stuck.or (some ⟨f.pos, f.len, va, none⟩) }).marked)
      ∧ (∀ (num : Nat) (k : Parked) (x : Xfer) (bs : List Byte),
        (s.parked.find? fun k => k.recorded && k.resolved && k.num == num) = some k → k.flight.data = .data bs →
        let u : State := { s with parked := s.parked.filter (·.id != k.id) }
        u.xfers.find? (·.id == k.flight.xfer) = some x →
        exec (.parkedChunkWrite num) s
          = .next (if s.landWaits x k.flight.pos k.flight.len then s else u.arriveChunk x k.flight bs).marked)
      ∧ (∀ (x : Xfer) (k : Stuck), s.xfers.find? (·.id == x.id) = some x → x.stuck = some k → k.num = none →
        (s.ringRoom = true → exec (.localPullFault x.id) s = .next (State.setXfer
          (s.writeRecord 3 .write 0 k.va x.rx.ptn (s.tileIds x.rx.ptn).1 (s.tileIds x.rx.ptn).2)
          { x with stuck := some { k with num := some s.fltwr.toNat } }).marked)
        ∧ (s.ringRoom = false → exec (.localPullFault x.id) s = .next s.marked))
      ∧ (∀ port : Fin 64, exec (.parkingSpaceFree port) s = .next s.pumped.marked)
      ∧ ((∀ x ∈ s.xfers, ∀ c, x.next = some c → s.mayAsk x c = false) → s.pumped = s)
      ∧ (∀ (p : PostRec) (chan : Fin 16) (c : Coll), p ∈ s.posts → p.chan = chan → p.handed = true → p.work = .coll c → c.pers = true →
        (∀ q ∈ s.posts, q.sid = p.sid → q.chan = p.chan → q.handed = true → q = p) →
        exec (.parkedNoticeRelease p.sid chan c.grp) s = .next (s.actOnArrived p.sid chan p.id).pumped.marked)
      ∧ (∀ (sid : Nat) (chan : Fin 16) (id : Nat) (far : List Served) (p : PostRec) (t : Strand), 
        let u := (far.filter (·.ver = s.cur.toNat)).foldl State.takeServed s
        u.post? sid chan id = some p → u.strand? sid = some t →
        (u.postDone p = true → exec (.transferIdComplete sid chan id far) s = .next (u.completeId p t).pumped.marked)
        ∧ (u.postDone p = false → exec (.transferIdComplete sid chan id far) s = .next u.marked))
      ∧ (∀ (x : Xfer) (c : Nat × Nat) (l : List (Nat × Nat)), s.xfers.find? (·.id == x.id) = some x → x.redo = c :: l →
        s.mayAsk x c = true → exec (.chunkRedrive x.id) s = .next (s.ask x { x with redo := l } c).pumped.marked)
      ∧ (∀ (n : Notice) (p : PostRec), let t : State := { s with refused := s.refused.erase n }
        s.post? n.strand n.chan n.id = some p → n.frm.modu = s.modId → n.ridx ∉ p.served →
        exec (.noticeResend n) s = .next (t.sendNotice { n with ver := s.cur.toNat }).marked)
      ∧ (∀ n : Notice, n.frm.modu = s.modId → exec (.staleRefuse (.notice n)) s = .next (State.marked { s with refused := s.refused ++ [n] }))
      ∧ (∀ (xfer pos n : Nat) (dest : Member) (x : Xfer) (i : Instr), dest.modu = s.modId →
        (s.xfers.find? fun x => x.id == xfer && x.out.contains (pos, n)) = some x →
        (∃ f : Flight, i = .staleRefuse (.flight f) ∧ f.dest = dest ∧ f.xfer = xfer ∧ f.pos = pos ∧ f.len = n
          ∨ ∃ p : Pull, i = .staleRefuse (.pull p) ∧ p.dest = dest ∧ p.xfer = xfer ∧ p.pos = pos ∧ p.len = n) →
        (x.rr = true → exec i s = .next (s.setXfer { x with out := x.out.erase (pos, n), redo := x.redo ++ [(pos, n)] }).marked)
        ∧ (x.rr = false → exec i s = .next (s.failChunk x pos n 1).pumped.marked))
      ∧ (∀ (c : Contribution), c.frm = s.modId →
        exec (.staleRefuse (.contribution c)) s = .next (s.contribute { c with ver := s.cur.toNat }).marked)
      ∧ ∀ (dest : Nat) (q q' : Packet), reportAgain s.cur.toNat q = some q' →
        (s.outbox.any (·.2 == q) = true → exec (.staleRefuse (.report dest q)) s = .next (s.send dest q').marked)
        ∧ (s.outbox.any (·.2 == q) = false → exec (.staleRefuse (.report dest q)) s = .next s.marked))
  ∧ (∀ (s : State) (x : Xfer) (pos n port key : Nat) (bs : List Byte), s.Canonical → x.how = .place → x.bce = false → x.post = none →
      bs.length = n → n < x.left →
      let u := s.landChunk x pos n port bs [(key, n)]
      (∀ i : Fin bs.length, Memory.get u.mem (key + i) = bs[i]) ∧ s.SameOutside u key n
        ∧ (s.xfers.find? (·.id == x.id) = some x → ∃ y, u.xfers.find? (·.id == x.id) = some y ∧ y.left = x.left - n
          ∧ y.out = x.out.erase (pos, n)))
  ∧ (∀ (s : State) (p : PostRec) (t : Strand) (chan : Fin 16), s.strand? p.sid = some t → p.chan = chan →
      (∀ q ∈ s.posts, q.sid = p.sid → q.chan = p.chan → q.handed = true) →
      (t.chans[chan].open_).Nodup → t.k2wait = [] → t.k2.length + t.poppedHere 2 < 16 →
      ∃ r : Strand, (s.completeId p t).strand? p.sid = some r ∧ p.id ∉ r.chans[chan].open_
        ∧ (s.completeId p t).post? p.sid p.chan p.id = none
        ∧ (∀ k ∈ (s.completeId p t).claims, k.holder ≠ .firing p.sid p.chan p.id) ∧ s.SameMemory (s.completeId p t)
        ∧ r.k2 = if p.tok = true ∨ p.fail ≠ none ∨ p.miss = true then t.k2 ++ [p.token] else t.k2)
  ∧ ∀ p : PostRec, p.chan < 16 → p.utag < 2 ^ 32 → (∀ c, p.fail = some c → c < 64) →
      p.token.toNat = 2 ^ 63 + (match p.fail with
          | some c => 64 + c
          | none => (if p.flags.nan then 32 else 0) + (if p.flags.inf then 16 else 0) + (if p.flags.ovf then 8 else 0)
            + (if p.miss then 4 else 0)) * 2 ^ 56
        + ((match p.work with | .coll _ => 0x10 | .fire _ => 0x20) + p.chan) * 2 ^ 48 + p.id % 65536 * 2 ^ 32 + p.utag

/-- R312, R375, R379, R380, R381, R384, R387: a contribution that its root counts is kept until every index has contributed or is excused,
and then every member is answered with the operation's value; a round that times out is answered with TIMEOUT; an answer frees its
contribution and changes the slot's fields, and ends a speculation on it, with an acquire at its scope: confirmed, restored at its
checkpoint, or by AGTO, before the CBR took its operands; a leave
excuses its index from the round in progress, or from the next if it has contributed, which is the model's choice
(notes/assumptions/22.md); a pre-emption and a resumption are noted at the root and by the members elsewhere, by notices that are its
reading of R384 (notes/assumptions/58.md). v of an answer that is not OK is free (notes/assumptions/12.md). A stale answer or notice is
not delivered (R312, notes/assumptions/81.md). -/
def Obligations.AgreementEvents : Prop :=
  (∀ (s : State) (c f : Contribution) (r : AgRoot), s.root? c.gid = some r → r.first = some f → c.rmod = s.modId →
    (c.frm = s.modId ∨ c.ver = s.cur.toNat) → sameGroup c f = true → c.round = r.round → r.exc.contains c.midx = false → r.mis = [] →
    r.busy = true → r.bad = false → r.got.any (·.midx == c.midx) = false → r.early = [] →
    let all := r.got ++ [c]
    (AgRoot.full { r with got := all } = false → ∃ (u : State) (q : AgRoot), exec (.contributionArrive c) s = .next u
      ∧ u.root? c.gid = some q ∧ q.got = all ∧ q.round = r.round ∧ q.busy = true ∧ q.exc = r.exc ∧ q.left = r.left
      ∧ u.answers = s.answers ∧ u.SameMemory s)
    ∧ (AgRoot.full { r with got := all } = true → f.op < 2 → ∃ u : State, exec (.contributionArrive c) s = .next u
      ∧ u.answers = s.answers ++ (all.filter (·.frm = s.modId)).map fun d => (d.strand, Fin.ofNat 4 d.slot,
        (if f.op = 0 then all.all (·.value) else all.any (·.value)), 1)))
  ∧ (∀ (s : State) (gid : Nat) (f : Contribution) (r : AgRoot), s.root? gid = some r → r.first = some f → f.tmo ≠ 0 →
    r.busy = true → r.pre = [] → r.left = 0 → r.early = [] →
    ∃ (u : State) (v : Bool), exec (.agreementTimeout gid) s = .next u
      ∧ u.answers = s.answers ++ (r.got.filter (·.frm = s.modId)).map (fun d => (d.strand, Fin.ofNat 4 d.slot, v, 2))
      ∧ ∀ q, u.root? gid = some q → q.round = (r.round + 1) % 256 ∧ q.busy = false ∧ q.got = [])
  ∧ (∀ (s : State) (sid : Nat) (n : Fin 4) (v : Bool) (status : Nat) (ver : Option Nat) (f : Frame), s.frameOf sid = some f →
    f.t.ags[n].joined = true → f.t.ags[n].out = true →
    ((∃ m, ver = some m ∧ m ≠ s.cur.toNat) → exec (.answerArrive sid n v ⟨status, ver⟩) s = .next s.marked)
    ∧ ((∀ m, ver = some m → m = s.cur.toNat) →
    let ags := f.t.ags.set n { f.t.ags[n] with
      joined := decide (status ≠ 5), out := false, lv := v, lst := status, rnd := f.t.ags[n].rnd + 1 }
    let now : State := State.progress { s with answers := s.answers.erase (sid, n, v, status) } f.t.task
    (f.t.spec = none ∨ (∃ p, f.t.spec = some p ∧ p.slot ≠ n) →
      exec (.answerArrive sid n v ⟨status, ver⟩) s = .next (Frame.put ⟨now, { f.t with ags := ags }, f.c⟩).marked)
    ∧ ∀ p, f.t.spec = some p → p.slot = n →
      (status ≠ 1 → let g := Frame.atCbr ⟨now, { f.t with ags := ags }, f.c⟩ p
        (∃ sub, exec (.answerArrive sid n v ⟨status, ver⟩) s = .next (takeTrap g ⟨10, sub, 0, p.opa, p.opb, none⟩ false).marked
          ∧ sub = if 2 ≤ status ∧ status ≤ 5 then status - 2 else 4)
        ∧ g.c.pc = p.check.pc ∧ g.c.low = p.check.low ∧ g.c.ring = p.check.ring ∧ g.c.vregs = p.check.vregs
        ∧ g.c.preds = p.check.preds ∧ g.c.ports = p.retry.ports ∧ g.c.feeds = p.retry.feeds ∧ g.c.blocks = p.retry.blocks)
      ∧ (status = 1 → (p.trap = none ∨ f.t.drain ++ p.stores ≠ []) →
        ∃ (u : State) (t : Strand), exec (.answerArrive sid n v ⟨status, ver⟩) s = .next u ∧ u.strand? sid = some t
          ∧ t.spec = none ∧ t.ags = ags ∧ t.acq = decide (3 ≤ f.t.ags[n].agc.toNat / 2 ^ 24 % 8)
          ∧ (v = p.pred → t.drain = f.t.drain ++ p.stores ∧ t.drainGo = s.cycle + 1 ∧ t.trap = p.trap
            ∧ t.heart = f.t.heart + BitVec.ofNat 64 p.heart ∧ (u.ctx? f.c.id) = some f.c)
          ∧ (v ≠ p.pred → t.drain = f.t.drain ∧ (p.check.id = f.c.id → ∃ c, u.ctx? f.c.id = some c ∧ c.low = p.check.low
            ∧ c.ring = p.check.ring ∧ c.vregs = p.check.vregs ∧ c.preds = p.check.preds ∧ (v = true → c.pc = p.taken))))))
  ∧ (∀ (s : State) (gid count midx : Nat) (out : Bool) (f : Contribution) (r : AgRoot), s.root? gid = some r → r.first = some f →
    r.busy = true →
    (∀ ver, ver ≠ s.cur.toNat → exec (.leaveNotice ⟨gid, count, ver⟩ midx out) s = .next s.marked)
    ∧ (
    let counted := out = true ∨ r.got.any (·.midx == midx) = true ∨ r.mis.contains midx = true
    let exc := (r.exc ++ [midx]).eraseDups
    (¬counted → AgRoot.full { r with exc := exc } = false →
      ∃ (u : State) (q : AgRoot), exec (.leaveNotice ⟨gid, count, s.cur.toNat⟩ midx out) s = .next u ∧ u.root? gid = some q ∧ q.exc = exc
        ∧ q.later = r.later ∧ q.got = r.got ∧ q.pre = r.pre.filter (· != midx) ∧ u.answers = s.answers)
    ∧ (¬counted → AgRoot.full { r with exc := exc } = true → f.op < 2 → r.bad = false → r.early = [] →
      ∃ u : State, exec (.leaveNotice ⟨gid, count, s.cur.toNat⟩ midx out) s = .next u
        ∧ u.answers = s.answers ++ (r.got.filter (·.frm = s.modId)).map fun d => (d.strand, Fin.ofNat 4 d.slot,
          (if f.op = 0 then r.got.all (·.value) else r.got.any (·.value)), 1))
    ∧ (counted → AgRoot.full r = false →
      ∃ (u : State) (q : AgRoot), exec (.leaveNotice ⟨gid, count, s.cur.toNat⟩ midx out) s = .next u ∧ u.root? gid = some q ∧ q.exc = r.exc
        ∧ q.later = r.later ++ [midx] ∧ q.got = r.got ∧ q.pre = r.pre.filter (· != midx) ∧ u.answers = s.answers)))
  ∧ ∀ (s : State) (gid midx : Nat) (busy : Bool), let ver := s.cur.toNat
    (∀ old, old ≠ ver → exec (.preemptedNotice gid ⟨midx, busy, old⟩) s = .next s.marked
      ∧ exec (.resumeNotice gid ⟨midx, busy, old⟩) s = .next s.marked)
    ∧
    (∀ r : AgRoot, s.rootElsewhere gid = false → s.root? gid = some r → ∃ u w : State,
      exec (.preemptedNotice gid ⟨midx, busy, ver⟩) s = .next u ∧ exec (.resumeNotice gid ⟨midx, busy, ver⟩) s = .next w
        ∧ u.root? gid = some { r with pre := (r.pre ++ [midx]).eraseDups }
        ∧ w.root? gid = some { r with pre := r.pre.filter (· != midx) })
    ∧ (s.rootElsewhere gid = true → ∃ u w : State,
      exec (.preemptedNotice gid ⟨midx, busy, ver⟩) s = .next u ∧ exec (.resumeNotice gid ⟨midx, busy, ver⟩) s = .next w
        ∧ (∀ g, g ∈ u.roundsElsewhere ↔ if g = gid then busy = true else g ∈ s.roundsElsewhere)
        ∧ (∀ g, g ∈ w.roundsElsewhere ↔ g ≠ gid ∧ g ∈ s.roundsElsewhere)
        ∧ ∀ (sid : Nat) (t : Strand) (n : Fin 4), s.strand? sid = some t → t.ags[n].joined = true → t.ags[n].agb.toNat % 2 ^ 24 = gid →
          (u.strand? sid).map (fun x => x.ags[n].pm) = some true ∧ (w.strand? sid).map (fun x => x.ags[n].pm) = some false)

/-- R28, R29, R31, R33, R34, R37, R46, R328, R351, R352, R358, R368: a task that the distributor considers, with a legal header and a
cluster, is placed: where nobody runs there it is Running, and each rank's strand stands on its tile at the header's entry with its
argument registers; else it is Placed, and its victims stop at their next bundle boundary; a failure stops its task, and fails it once
every strand has stopped; so does a watchdog that has elapsed; a Pre-empted task resumes once its tiles are free; a report brings the
distributor's view up to date; two good banks of a tile without strands are retired. The model's choices: a watchdog microsecond of 2000
tile cycles (notes/assumptions/37.md), retirement in pairs and the last pair only of a tile with no strand (36.md), when tiles return and
reports show it, and that a Placed task has its tiles (85.md), the wait of areas for a port (96.md), and PRE of the watchdog's words
(98.md). -/
def Obligations.TaskEvents : Prop :=
  (∀ (s : State) (k : Task) (h : Header) (c : Nat) (const : List Word) (reads : List (Nat × Nat)), s.task? k.tid = some k →
    s.considered k = true → s.readHeader k.at_ = .ok h → s.chooseCluster k.prio h = some c → k.csaMisaligned = false →
    (s.coreHasRead k.at_ 64).launchSnapshot h = .ok (const, reads) → k.acq < 3 → s.placeWaits k = false →
    (∀ j ∈ s.tasks, j.tid = k.tid → j = k) →
    ((∀ v ∈ s.victims h c, v.st ≠ .running) → (∀ x ∈ s.ctxs, x.id < s.nextId) → (∀ t ∈ s.strands, t.task ≠ k.tid) →
      ∃ u : State, exec (.taskPlace k.tid) s = .next u
        ∧ (u.task? k.tid).map (·.st) = some .running
        ∧ ∀ i, i ≤ h.tcnt → ∃ (t : Strand) (x : Ctx), t ∈ u.strands ∧ t.task = k.tid ∧ t.rank = i
          ∧ t.ptn = 16 * c + h.rmap.toNat / 2 ^ (4 * i) % 16 ∧ u.ctx? t.cur = some x ∧ x.pc = h.entry ∧ x.depth = 0 ∧ x.preds = 0
          ∧ x.readS 8 = k.arg ∧ x.readS 9 = k.s9 ∧ x.readS 10 = k.s10 ∧ (∀ n : Fin 8, x.readS n = 0) ∧ x.seq.issuing = false
          ∧ t.const = const ∧ t.life = .running)
    ∧ ((∃ v ∈ s.victims h c, v.st = .running ∧ s.allStopped v.tid = false) →
      ∃ u : State, exec (.taskPlace k.tid) s = .next u
        ∧ (u.task? k.tid).map (·.st) = some .placed ∧ u.strands = s.strands
        ∧ ∀ v ∈ u.tasks, v.st = .running → (∃ t ∈ u.strands, t.task = v.tid ∧ t.ptn ∈ h.tilesOn c) → u.stopping v = true))
  ∧ (∀ (s : State) (t : Strand) (k : Task) (cause sub addr : Nat), s.strand? t.sid = some t → s.task? t.task = some k →
    let u := if t.fail = none then s.setStrand { t with fail := some ⟨s.cycle, cause, sub, addr, failWords cause sub addr⟩ } else s
    (u.allStopped k.tid = false ∨ u.endWaits k = true → exec (.taskFail t.sid cause sub addr) s = .next u.marked)
    ∧ (u.allStopped k.tid = true → u.endWaits k = false → exec (.taskFail t.sid cause sub addr) s = .next (u.endFailed k 3).marked))
  ∧ (∀ (s : State) (k : Task) (t : Strand), s.task? k.tid = some k → k.st = .running → k.wdInt ≠ 0 → k.wdInt * 2000 ≤ k.wdCnt →
    s.allStopped k.tid = true → s.endWaits k = false → (∀ x ∈ s.strands, x.task = k.tid → x.fail = none) →
    (s.taskStrands k.tid).find? (·.rank == 0) = some t → s.strand? t.sid = some t →
    ∃ (u : State) (x : FailRec), exec (.watchdogFire k.tid) s = .next (u.endFailed k 4).marked
      ∧ (u.strand? t.sid).map (·.fail) = some (some x) ∧ x.cause = 11 ∧ x.sub = 0 ∧ x.cycle = s.cycle
      ∧ ∀ c, s.ctx? t.cur = some c → c.seq.issuing = false → ∃ ws : List Word, ws.length = 8
        ∧ x.words = (if t.saved.isSome then t.tsave.toList else []) ++ ws
        ∧ ws[0]? = some (BitVec.ofNat 64 (11 * 2 ^ 56 + 2 ^ 46 + 3 * 2 ^ 35)) ∧ ws[1]? = some (BitVec.ofNat 64 (c.pc % 2 ^ 57))
        ∧ ∀ n ∈ [2, 4, 5, 6, 7], ws[n]? = some 0)
  ∧ (∀ (s : State) (k : Task) (status : Nat), let u := s.endFailed k status
    (∀ t ∈ u.strands, t.task ≠ k.tid) ∧ (∀ t ∈ s.strands, t.task = k.tid → ∀ x ∈ u.cmds, x.sid ≠ t.sid))
  ∧ (∀ (s : State) (k : Task), s.task? k.tid = some k → s.mayResume k = true → s.taskWaits k = false → ∃ u : State,
    exec (.taskResume k.tid) s = .next u ∧ (u.task? k.tid).map (·.st) = some .running
      ∧ u = (((s.taskStrands k.tid).map (·.sid)).foldl State.resumeStrand
        ((s.setTask { k with st := .running }).setVacant ((s.taskStrands k.tid).map (·.ptn)) false)).marked)
  ∧ (∀ (s : State) (die : Nat), die < 8 → ∃ u : State, exec (.dieReport die) s = .next u
    ∧ u.tiles.length = s.tiles.length
    ∧ (∀ (i : Nat) (r : TileRec), s.tiles[i]? = some r → ∃ q : TileRec, u.tiles[i]? = some q ∧ (r.ptn / 128 ≠ die → q = r)
      ∧ (r.ptn / 128 = die → q.vacant = ((s.holders r.ptn .running).isEmpty && !s.unrecorded r.ptn)
        ∧ q.offered = decide (2 ≤ r.banks.length) ∧ q.banks = r.banks ∧ q.owners = r.owners))
    ∧ ∀ c : Fin 64, u.resident[c] = if c.val / 8 = die
      then (s.tasks.filter fun k => k.st == .running && 8 * k.die + k.clus == c.val).length else s.resident[c])
  ∧ ∀ (s : State) (ptn : Nat) (b : Fin 8), ptn < 1024 → (∀ t ∈ s.strands, t.ptn ≠ ptn) → b.val ∈ (s.tile ptn).banks →
    b.val ^^^ 1 ∈ (s.tile ptn).banks →
    (2 < (s.tile ptn).banks.length ∨ s.bound ptn = false → ∃ u : State, exec (.scalarBankRetire ptn b) s = .next u
      ∧ (u.tile ptn).banks = (s.tile ptn).banks.filter fun n => !(decide (n = b.val) || decide (n = b.val ^^^ 1)))
    ∧ ((s.tile ptn).banks.length ≤ 2 → s.bound ptn = true → exec (.scalarBankRetire ptn b) s = .next s.marked)

/-! ### The command core, the graph sequencer and the host -/

/-- R323, R326, R329, R364, with R324, R332 and R333: what a write to the queue table and its doorbells does, and what each event of the
command core does when its condition holds. A queue is registered, halted, resumed and unregistered; a started SIGNAL or INVAL that is
acknowledged completes, its completion being due in the service phase, which raises DONECNT and writes a record where one is due; a queue
with nothing to do for sixteen frames is unmapped; a frame serves one mapped slot after another, then the rotation slots, and at its end
counts the idle frames. The model's choices: that completions wait for the service phase (notes/assumptions/83.md), that an INVAL waits
only for this module's own pulls (82.md), that a queue registered anew writes the records that still wait (89.md), that a ring behind a
port in Retrain holds its records back (96.md), and that a packet whose record waits does not keep its queue from being idle (97.md). -/
def Obligations.QueueEvents : Prop :=
  (∀ (s : State) (q : Nat) (v : Word), q < 4096 →
    let x := s.queue q
    (s.locked = false →
      exec (.notifyWrite q v) s = .next (s.setQueue { x with wridx := (v.setWidth 32).setWidth 64 }).marked
      ∧ exec (.crdidxWrite q v) s = .next (s.setQueue { x with crdidx := (v.setWidth 32).setWidth 64 }).marked)
    ∧ (x.w0.getLsbD 63 = false → s.locked = false →
      exec (.queueRegister q 1 v) s = .next (s.setQueue { x with w1 := v &&& 0x01FFFFFFFFFFFFC0 }).marked
      ∧ exec (.queueRegister q 2 v) s = .next (s.setQueue { x with w2 := v &&& 0x01FFFFFFFFFFFFE0 }).marked
      ∧ (v.toNat / 2 ^ 40 % 32 ∈ List.range' 4 13 → v.toNat / 2 ^ 32 % 32 ∈ List.range' 4 13 →
        v &&& 0xFFC01F1F00000000 = v →
        (x.held = [] ∨ v.getLsbD 63 = false ∨ v.getLsbD 61 = true →
          exec (.queueRegister q 0 v) s = .next (s.setQueue { x with w0 := v }).marked)
        ∧ ∀ (r : Record) (t : State), x.held = [r] → v.getLsbD 63 = true → v.getLsbD 61 = false →
          (s.setQueue { x with w0 := v, held := [] }).writeVirt
            (32 * (x.w2.toNat / 32 % 2 ^ 52 + x.cwridx.toNat % 2 ^ (v.toNat / 2 ^ 32 % 32))) r.bytes = .ok t →
          ∃ u : State, exec (.queueRegister q 0 v) s = .next u ∧ u.mem = t.mem ∧ u.queue q = { x with
            w0 := v, held := [], cwridx := x.cwridx + 1, donecnt := if r.done then x.donecnt + 1 else x.donecnt })
      ∧ (v.getLsbD 63 = true → v.toNat / 2 ^ 40 % 32 ∉ List.range' 4 13 ∨ v.toNat / 2 ^ 32 % 32 ∉ List.range' 4 13
        ∨ v &&& 0xFFC01F1F00000000 ≠ v → exec (.queueRegister q 0 v) s = .next s.marked))
    ∧ (x.w0.getLsbD 63 = true → exec (.queueRegister q 1 v) s = .next s.marked ∧ exec (.queueRegister q 2 v) s = .next s.marked)
    ∧ (x.w0.getLsbD 63 = true → v = x.w0 ^^^ 0x8000000000000000 →
      (x.started = [] → (∀ r ∈ x.held, r.done = false) → (∀ d ∈ s.dues, d.1 = q → ∃ r, d.2 = some r ∧ r.done = false) →
        exec (.queueUnregister q v) s = .next (s.setQueue { x with w0 := v, gone := x.mapped.isSome }).marked)
      ∧ (x.started ≠ [] ∨ (∃ r ∈ x.held, r.done = true) ∨ (q, none) ∈ s.dues →
        exec (.queueUnregister q v) s = .next s.marked))
    ∧ (x.w0.getLsbD 63 = true → x.w0.getLsbD 61 = false → v = x.w0 ||| 0x2000000000000000 →
      ((∀ p ∈ x.started, p.words[0].toNat / 2 ^ 60 ≠ 4 ∧ p.words[0].toNat / 2 ^ 60 ≠ 5) →
        exec (.queueHalt q v) s = .next (s.setQueue { x with w0 := v }).marked)
      ∧ ∀ p, x.started = [p] → p.words[0].toNat / 2 ^ 60 = 4 ∨ p.words[0].toNat / 2 ^ 60 = 5 → ∃ (u : State) (r : Record),
        exec (.queueHalt q v) s = .next u ∧ u.queue q = { x with w0 := v, started := [] } ∧ u.dues = s.dues ++ [(q, some r)]
          ∧ r.w0.toNat = 7 * 2 ^ 56 + p.words[0].toNat / 2 ^ 60 * 2 ^ 52 + p.words[0].toNat % 2 ^ 32
          ∧ r.w1 = BitVec.ofNat 64 p.idx ∧ r.w2 = 0 ∧ r.done = true)
    ∧ (x.w0.getLsbD 63 = true → x.w0.getLsbD 61 = true → v = x.w0 &&& 0xDFFFFFFFFFFFFFFF →
      (x.held = [] → ∃ u : State, exec (.queueResume q v) s = .next u ∧ u.queue q = { x with w0 := v })
      ∧ ∀ (r : Record) (t : State), x.held = [r] →
        (s.setQueue { x with w0 := v, held := [] }).writeVirt
          (32 * (x.w2.toNat / 32 % 2 ^ 52 + x.cwridx.toNat % 2 ^ (x.w0.toNat / 2 ^ 32 % 32))) r.bytes = .ok t →
        ∃ u : State, exec (.queueResume q v) s = .next u ∧ u.mem = t.mem ∧ u.queue q = { x with
          w0 := v, held := [], cwridx := x.cwridx + 1, donecnt := if r.done then x.donecnt + 1 else x.donecnt })
    ∧ (x.w0.getLsbD 61 = true → exec (.rdidxWrite q v) s = .next (s.setQueue { x with rdidx := v.setWidth 32 }).marked)
    ∧ (x.w0.getLsbD 61 = false → exec (.rdidxWrite q v) s = .next s.marked)
    ∧ (x.mapped ≠ none → x.quiet = true → 16 ≤ x.idle →
      exec (.queueIdleUnmap q) s = .next (s.setQueue { x with mapped := none, idle := 0 }).marked)
    ∧ (∀ p idx, x.started.find? (·.idx == idx) = some p → p.words[0].toNat / 2 ^ 60 = 3 →
      let t := s.unstart q idx
      (p.words[0].getLsbD 49 = false →
        exec (.signalAck q idx) s = .next (State.marked { t with dues := s.dues ++ [(q, none)] }))
      ∧ (p.words[0].getLsbD 49 = true → ∃ r : Record,
        exec (.signalAck q idx) s = .next (State.marked { t with dues := s.dues ++ [(q, some r)] })
          ∧ r.w0.toNat = 3 * 2 ^ 52 + p.words[0].toNat % 2 ^ 32 ∧ r.w1 = BitVec.ofNat 64 p.idx ∧ r.w2 = 0 ∧ r.done = true))
    ∧ (∀ p, x.started = [p] → p.words[0].toNat / 2 ^ 60 = 6 → p.words[0].getLsbD 49 = false →
      (∀ y ∈ s.xfers, y.notice.frm.modu = s.modId → y.out = []) →
      ∃ u : State, exec (.invalAck q) s = .next u ∧ u.queue q = { x with started := [] } ∧ u.dues = s.dues ++ [(q, none)]
        ∧ (∀ a, p.words[1].toNat ≤ a → a < p.words[1].toNat + p.words[2].toNat → ∀ e ∈ u.tlb, e.page ≠ a / 65536)
        ∧ ∀ e ∈ s.tlb, (65536 * (e.page + 1) ≤ p.words[1].toNat ∨ p.words[1].toNat + p.words[2].toNat ≤ 65536 * e.page) →
          e ∈ u.tlb))
  ∧ (∀ s : State, exec .frameStart s = .next (State.marked (State.mappedSlot
      { s with frames := s.frames + 1, frameAt := s.cycle, part := 1, rotated := [] } 0)))
  ∧ (∀ s : State, (∀ q d, s.dues = [(q, d)] → s.rangeWaits (s.queue q).recordAddr 32 = true → s.writeDues = s)
    ∧ (∀ q, s.dues = [(q, none)] → s.rangeWaits (s.queue q).recordAddr 32 = false →
        s.writeDues = State.setQueue { s with dues := [] } { s.queue q with donecnt := (s.queue q).donecnt + 1 })
    ∧ (∀ q r t, s.dues = [(q, some r)] → s.rangeWaits (s.queue q).recordAddr 32 = false → (s.queue q).held = [] → State.writeVirt { s with dues := [] }
          (32 * ((s.queue q).w2.toNat / 32 % 2 ^ 52 + (s.queue q).cwridx.toNat % 2 ^ ((s.queue q).w0.toNat / 2 ^ 32 % 32)))
          r.bytes = .ok t → (s.queue q).w0.getLsbD 60 = false ∨ r.irq = false →
        s.writeDues = t.setQueue { s.queue q with
          cwridx := (s.queue q).cwridx + 1, donecnt := if r.done then (s.queue q).donecnt + 1 else (s.queue q).donecnt })
    ∧ (∀ q, (s.queue q).w0.getLsbD 63 = false ∨ (s.queue q).w0.getLsbD 61 = true → s.serve q = s)
    ∧ (∀ q k, s.nextRotating s.rotated = some q → s.freeSlot = some k → s.rotate.queue q
      = { s.queue q with mapped := some k, idle := 0, busy := true })
    ∧ (s.part = 72 → s.framePart = { s with part := 73, queues := s.queues.map Queue.frameEnd }))
  ∧ (∀ x : Queue, x.mapped.isSome = true → x.w0.getLsbD 63 = true → x.gone = false →
    (x.busy = false → x.pending = false → x.started = [] → x.frameEnd = { x with idle := x.idle + 1 })
    ∧ (x.busy = true ∨ x.pending = true ∨ x.started ≠ [] → x.frameEnd = { x with idle := 0, busy := false }))
  ∧ ∀ (s : State) (q : Nat) (w : Vector Word 8),
    s.mayStart (s.queue q) = true → s.readPacket (s.queue q) = .ok w →
    s.packetOk w = true → w[0].toNat / 2 ^ 60 = 0 → w[0].getLsbD 53 = false → w[0].getLsbD 49 = false →
    (∀ p ∈ (s.queue q).started, p.idx ≠ (s.queue q).rdidx.toNat) →
    (s.readOne q).2 = true ∧ (s.readOne q).1.dues = s.dues ++ [(q, none)]
      ∧ (s.readOne q).1.queue q = { s.queue q with rdidx := (s.queue q).rdidx + 1 }

/-- R336, with R35, R335 and R337: a step of a replay begins with its counts set and its ready nodes fired in ascending index; a node
that completes lowers the counts of its successors and fires those at zero, and the last one ends the step: the next begins with the
step number raised, or the graph ends and its packet completes; a COND that reads a nonzero word ends the graph after its step, and
after a failure no further node fires. What a graph's nodes read and write waits for a port in Retrain, which is the model's choice
(notes/assumptions/96.md). -/
def Obligations.GraphEvents : Prop :=
  ∀ (g : Fin 16) (s : State) (r : Replay), (s.graph g).run = some r →
    let x := s.graph g
    (s.graphStands g = true → exec (.graphStepBegin g) s = .next s.marked
      ∧ ∀ node, exec (.graphNodeComplete g node) s = .next s.marked ∧ exec (.condNodeRead g node) s = .next s.marked)
    ∧ (s.graphStands g = false →
      (r.begun = false → r.over_ = false → r.failed = none → exec (.graphStepBegin g) s = .next (State.settleReplay
      (State.fireNodes (s.setGraph g { x with run := some { r with
        begun := true, counts := x.nodes.map (·.init), fired := [], worked := [], doneN := [] } }) g
        ((List.range x.nodes.length).filter fun n => (x.node n).init == 0)) g).marked)
    ∧ (∀ node t, s.nodeReady x r node = true → s.nodeActs (x.node node) = .ok t → r.failed = none → r.over_ = false →
      let done (c : List Nat) : Replay := { r with
        counts := c, fired := r.fired.erase node, worked := r.worked.erase node, doneN := r.doneN ++ [node] }
      (r.doneN.length + 1 < x.nodes.length →
        ((x.node node).succ = [] → exec (.graphNodeComplete g node) s
          = .next (t.setGraph g { x with run := some (done r.counts) }).marked)
        ∧ ∀ m, (x.node node).succ = [m] → m < x.nodes.length → exec (.graphNodeComplete g node) s
          = .next (State.settleReplay (State.fireNodes
              (t.setGraph g { x with run := some (done (r.counts.set m (r.counts.getD m 0 - 1))) }) g
              (if r.counts.getD m 0 ≤ 1 then [m] else [])) g).marked)
      ∧ (r.doneN.length + 1 = x.nodes.length → (x.node node).succ = [] →
        (r.ending = false → 2 ≤ r.left → ∃ (u : State) (q : Replay), exec (.graphNodeComplete g node) s = .next u
          ∧ (u.graph g).run = some q ∧ q.begun = false ∧ q.step = r.step + 1 ∧ q.left + 1 = r.left ∧ q.later = true)
        ∧ ((r.ending = true ∨ r.left ≤ 1) → r.fired = [node] → r.pers = [] → r.launched = [] → x.waitq = [] →
          ∃ u : State, exec (.graphNodeComplete g node) s = .next u ∧ (u.graph g).run = none ∧ (u.graph g).nodes = x.nodes
            ∧ ∀ p, r.own = true → (s.queue r.queue).started.find? (·.idx == r.idx) = some p → p.words[0].getLsbD 49 = false →
              u.dues = s.dues ++ [(r.queue, none)])))
    ∧ (∀ node bs, node ∈ r.fired → (x.node node).kind = 2 → node ∉ r.worked → s.gsqAcquires (x.node node) r = true →
      s.coreRead (x.node node).addr 8 = .ok bs →
      ∃ (u : State) (q : Replay), exec (.condNodeRead g node) s = .next u ∧ (u.graph g).run = some q
        ∧ q.worked = r.worked ++ [node] ∧ (q.ending = true ↔ r.ending = true ∨ numLE bs ≠ 0)))
    ∧ ∀ n, r.failed ≠ none → s.fireNode g n = s
/-- R315, R316, R317, R342, with R10, R18, R314 and R341: a port's state and fields change as the table of events says, no other port's
do, and PORTST reads them in their places; a train that would take the laser past its limit waits. A function-level reset ends every task
and every replay, clears the queue table, and gives every started packet whose record is not written a record with status ENDED, with
the step of its graph, and leaves the others' records as they are; a module reset
gives every register its reset value, leaves HBM, the boot code and the measurements, and an image that failed to verify leaves only the
management aperture. The model's choices: the agenda (notes/assumptions/3.md), the length of HOLD's millisecond (37.md), what a
function-level reset ends and records (44.md), that DUTY is the sum of the shares of the last trains and what the monitor still needs
(47.md), that a train past the limit does not start (54.md), what a module reset keeps of the events still to come, its identity and its
free values (88.md), and that the doorbells go with their queues and the rotation begins at queue 0 (93.md). -/
def Obligations.LinksAndResets : Prop :=
  (∀ (n : Fin 64) (s : State),
      let p := s.optical[n]
      let upd (q : OptPort) : State := { s with optical := s.optical.set n q }
      exec (.circuitChange n) s = .next (upd { p with state := 1, rtc := p.rtc + 1 }).marked
      ∧ (p.state = 1 →
        exec (.linkRetrained n) s = .next (upd { p with state := 0, ver := s.cur.toNat }).handWaiting.pumped.marked
        ∧ exec (.retrainTimeout n) s = .next (upd { p with state := 2 }).handWaiting.pumped.marked)
      ∧ (p.state ≤ 1 → exec (.linkFail n) s = .next (upd { p with state := 2 }).handWaiting.pumped.marked)
      ∧ exec (.portDisable n) s = .next (upd { p with state := 3 }).handWaiting.pumped.marked
      ∧ (∀ d : BitVec 8, (p.state = 0 → p.dutyAt s.cycle + d.toNat ≤ 229 → exec (.packetTrainStart n d) s = .next (upd { p with
            trains := (p.trains.filter fun x => s.cycle < x.1 + 2000) ++ [(s.cycle, d.toNat)] }).marked)
        ∧ (229 < p.dutyAt s.cycle + d.toNat → exec (.packetTrainStart n d) s = .next s.marked))
      ∧ (∀ l : BitVec 8,
        (p.actual.toNat < l.toNat →
          exec (.errorMonitorRaise n l) s = .next (upd { p with actual := l, holdTill := s.cycle + 20000000 }).marked)
        ∧ (p.holdTill ≠ 0 → p.holdTill ≤ s.cycle → ∃ a : BitVec 8,
          exec (.holdExpire n l) s = .next (upd { p with holdTill := 0, actual := a }).marked
            ∧ a.toNat = min p.actual.toNat (min p.budget.toNat l.toNat))
        ∧ (p.holdTill ≠ 0 → p.holdTill ≤ s.cycle → Act.holdExpire n (Config.monitorNeed n s.cycle) ∈ s.dueActs)
        ∧ (s.cycle < p.holdTill → exec (.holdExpire n l) s = .next s.marked))
      ∧ (∀ b : BitVec 8, exec (.opticalBudgetChange n b) s = .next (upd { p with
        budget := b, actual := if p.holdTill ≤ s.cycle ∧ b.toNat < p.actual.toNat then b else p.actual }).marked)
      ∧ let w := (s.readRegister (0xA00000 + 8 * n)).toNat
        w / 2 ^ 62 = p.state % 4 ∧ w / 2 ^ 58 % 16 = p.ver % 16 ∧ w / 2 ^ 48 % 1024 = 0 ∧ w / 2 ^ 32 % 65536 = p.rtc.toNat
          ∧ w / 2 ^ 24 % 256 = p.budget.toNat ∧ w / 2 ^ 16 % 256 = p.actual.toNat
          ∧ w / 2 ^ 8 % 256 = (p.holdTill - s.cycle + 1999999) / 2000000 % 256 ∧ w % 256 = p.dutyAt s.cycle % 256)
  ∧ (∀ s : State,
      (∃ u : State, exec .functionLevelReset s = .next u ∧ u.queues = [] ∧ u.dues = [] ∧ u.tasks = [] ∧ u.rotor = 0
        ∧ u.optical = s.optical ∧ u.bootst = s.bootst ∧ u.measure = s.measure
        ∧ ∀ g : Fin 16, u.graphs[g].run = none ∧ u.graphs[g].waitq = [] ∧ u.graphs[g].nodes = s.graphs[g].nodes)
      ∧ (∀ q tids, (∀ r ∈ s.endedRecords q tids, r.begun = true → r.w0.toNat / 2 ^ 56 = 7)
        ∧ (∀ r, r ∈ (s.queue q).held ∨ (q, some r) ∈ s.dues → r.begun = false → r ∈ s.endedRecords q tids)
        ∧ ∀ p ∈ (s.queue q).started, ∃ r ∈ s.endedRecords q tids, r.done = true ∧ r.begun = true ∧ r.w1 = BitVec.ofNat 64 p.idx
          ∧ r.w0.toNat % 2 ^ 32 = p.words[0].toNat % 2 ^ 32 ∧ r.w0.toNat / 2 ^ 52 % 16 = p.words[0].toNat / 2 ^ 60
          ∧ (∀ y : Replay, (∃ g : Fin 16, s.graphs[g].run = some y) → y.own = true ∧ y.queue = q ∧ y.idx = p.idx →
            (∀ z : Replay, (∃ g : Fin 16, s.graphs[g].run = some z) → z.own = true ∧ z.queue = q ∧ z.idx = p.idx → z = y) →
            r.w2 = BitVec.ofNat 64 y.step))
      ∧ ∀ (ok : Bool) (code : Word) (m : List (BitVec 256)), exec (.moduleReset ok code m) s = .next (State.marked { State.reset with
          agenda := s.agenda
          fresh := s.fresh
          modId := s.modId
          mem := s.mem.filter fun c => c.1 < 2 ^ 40 ∨ 2 ^ 60 ≤ c.1
          ecc := s.ecc.filter fun k => k < 2 ^ 40 ∨ 2 ^ 60 ≤ k
          struck := s.struck
          outbox := s.outbox
          hostbox := s.hostbox
          bootst := code
          measure := m
          locked := !ok }))

/-- R321, R361, R389, with R18, R289, R290, R298, R311, R319, R320, R323, R339, R341 and R365: what the host's accesses and the writes
of the management registers do: host reads and writes of the three apertures, and those that end in Unsupported Request; the group table,
the routing tables and their swap, the page-table root, the fault ring, the current limit and the clocks, the attestation report, and
the PCIe link. The model's choices: the attestation report's contents and the nonce's own event (notes/assumptions/45.md), clock steps
from 0 to 12 of all clusters (48.md), and the rates and widths of PCIe 7.0, taken from outside the spec (77.md). -/
def Obligations.HostEvents : Prop :=
  ∀ s : State,
    (∀ (pa n : Nat), s.locked = false → n ∈ [1, 2, 4, 8, 16, 32, 64] → pa % 64 + n ≤ 64 → pa + n ≤ 2 ^ 40 →
      (s.bad (Key.hbm pa) n = false → exec (.hostMemoryAccess ⟨.bar4, pa⟩ (.read n)) s
        = .next (State.marked { s.noteRead 8 (Key.hbm pa) n with hostbox := s.hostbox ++ [.hostData (Memory.read s.mem pa n)] }))
      ∧ ∀ bs : List Byte, bs.length = n → s.Canonical → ∃ u : State,
        exec (.hostMemoryAccess ⟨.bar4, pa⟩ (.write bs)) s = .next u ∧ s.SameOutside u pa n
          ∧ ∀ i : Fin bs.length, Memory.get u.mem (pa + i) = bs[i])
    ∧ (∀ (b : Bar) (o n : Nat), n ∉ [1, 2, 4, 8, 16, 32, 64] ∨ 64 < o % 64 + n →
      exec (.hostMemoryAccess ⟨b, o⟩ (.read n)) s = .next (State.marked { s with hostbox := s.hostbox ++ [.unsupported] })
      ∧ ∀ bs : List Byte, bs.length = n →
        exec (.hostMemoryAccess ⟨b, o⟩ (.write bs)) s = .next (State.marked { s with hostbox := s.hostbox ++ [.unsupported] }))
    ∧ (∀ q, q < 4096 → s.locked = false →
      exec (.hostMemoryAccess ⟨.bar0, 16 * q⟩ (.read 8)) s
        = .next (State.marked { s with hostbox := s.hostbox ++ [.hostData (wordBytes (s.queue q).wridx)] })
      ∧ exec (.hostMemoryAccess ⟨.bar0, 16 * q + 8⟩ (.read 8)) s
        = .next (State.marked { s with hostbox := s.hostbox ++ [.hostData (wordBytes (s.queue q).crdidx)] })
      ∧ ∀ bs : List Byte, bs.length = 8 →
        exec (.hostMemoryAccess ⟨.bar0, 16 * q⟩ (.write bs)) s = exec (.notifyWrite q (BitVec.ofNat 64 (numLE bs))) s
        ∧ exec (.hostMemoryAccess ⟨.bar0, 16 * q + 8⟩ (.write bs)) s = exec (.crdidxWrite q (BitVec.ofNat 64 (numLE bs))) s)
    ∧ (∀ o, o % 8 = 0 → o < 2 ^ 24 →
      exec (.hostMemoryAccess ⟨.bar2, o⟩ (.read 8)) s
        = .next (State.marked { s with hostbox := s.hostbox ++ [.hostData (wordBytes (s.readRegister o))] })
      ∧ ∀ bs : List Byte, bs.length = 8 →
        exec (.hostMemoryAccess ⟨.bar2, o⟩ (.write bs)) s = exec (.registerWrite o (BitVec.ofNat 64 (numLE bs))) s)
    ∧ (∀ g m v, g < 4096 → m < 512 → ∃ u : State, exec (.groupMemberWrite g m v) s = .next u ∧ u.stagedMember g m = v
      ∧ ∀ h n, h < 4096 → n < 512 → (h, n) ≠ (g, m) → u.stagedMember h n = s.stagedMember h n)
    ∧ (∀ g v, g < 4096 → ∃ u : State, exec (.groupHeaderWrite g v) s = .next u
      ∧ u.groups.find? (·.1 == g) = some (g, v, (List.range 512).map (s.stagedMember g)))
    ∧ (∀ m v, m < 2304 → ∃ u w : State, exec (.routingEntryWrite m false v) s = .next u ∧ lookupD u.stageMin m 0 = v
      ∧ exec (.routingEntryWrite m true v) s = .next w ∧ lookupD w.stageVia m 0 = v)
    ∧ (∀ v : Word, v.getLsbD 63 = false →
      exec (.rtctlStage v) s = .next (State.marked { s with stg := v.extractLsb' 4 4, swp := true }))
    ∧ (∀ v : Word, v.getLsbD 63 = true → s.swp = true → s.stg = s.cur + 1 → exec (.topologySwap v) s = .next (State.pumped { s with
      curMin := s.stageMin, curVia := s.stageVia, cur := s.stg, swp := false }).marked)
    ∧ (∀ v : Word, v.getLsbD 63 = true → s.swp = false ∨ s.stg ≠ s.cur + 1 → exec (.topologySwap v) s = .next s.marked)
    ∧ (∀ v : Word, exec (.ptrootWrite v) s = .next (State.marked { s with ptroot := v &&& 0x000FFFFFFFFFF001 }))
    ∧ (∀ v : Word, (v.toNat % 32 = 0 ∨ v.toNat % 32 ∈ List.range' 4 13) →
      (v.toNat / 2 ^ 40 % 4096 = 0 ∨ v.toNat / 2 ^ 40 % 4096 = s.modId + 1) → exec (.fltbaseWrite v) s
        = .next (State.recordWaiting { s with fltbase := v &&& 0x000FFFFFFFFFF01F }).marked)
    ∧ (∀ v : Word, (v.toNat % 32 ≠ 0 ∧ v.toNat % 32 ∉ List.range' 4 13)
      ∨ (v.toNat / 2 ^ 40 % 4096 ≠ 0 ∧ v.toNat / 2 ^ 40 % 4096 ≠ s.modId + 1) → exec (.fltbaseWrite v) s = .next s.marked)
    ∧ (∀ v : Word, exec (.fltrdWrite v) s = .next (State.recordWaiting { s with fltrd := v.setWidth 32 }).marked)
    ∧ (∀ (n : BitVec 32) (k : Parked), s.parked = [k] → k.recorded = true → k.num = n.toNat → (∀ x ∈ s.xfers, x.stuck = none) →
      exec (.fltrespResolve n) s = .next (State.pumped { s with
        parked := [{ k with resolved := true }], xfers := s.xfers }).marked
      ∧ ∀ x, s.xfers.find? (·.id == k.flight.xfer) = some x →
        let u := State.failChunk { s with parked := [] } x k.flight.pos k.flight.len 2
        (∀ y ∈ u.xfers, y.stuck = none) → exec (.fltrespRefuse n) s = .next u.pumped.marked)
    ∧ (∀ (n : BitVec 32) (x : Xfer) (c : Stuck), s.parked = [] → s.xfers = [x] → x.stuck = some c → c.num = some n.toNat →
      exec (.fltrespResolve n) s = .next (State.pumped { s with parked := [], xfers := [{ x with stuck := none }] }).marked
      ∧ exec (.fltrespRefuse n) s = .next (State.pumped
        (s.failChunk { x with asked := max x.asked (c.pos + c.len), stuck := none } c.pos c.len 2)).marked)
    ∧ (∀ v : Word, (500 ≤ v.toNat % 65536 → v.toNat % 65536 ≤ 4000 → ∃ w : Word, w.toNat = v.toNat % 65536
        ∧ exec (.iclampWrite v) s = .next (State.marked { s with iclamp := w }))
      ∧ (v.toNat % 65536 < 500 ∨ 4000 < v.toNat % 65536 → exec (.iclampWrite v) s = .next s.marked))
    ∧ (∃ a b : Vector Nat 64, exec .currentClampReached s = .next (State.marked { s with clamped := true, clockStep := a })
      ∧ exec .clockRecoverStep s = .next (State.marked { s with clamped := false, clockStep := b })
      ∧ ∀ n : Fin 64, a[n] = min 12 (s.clockStep[n] + 1) ∧ b[n] = s.clockStep[n] - 1)
    ∧ (∀ n : BitVec 256, exec (.attestNonceWrite n) s
      = .next (State.marked { s with nonce := n, report := some ⟨s.measure, n, Config.identityKey,
        Config.signature s.measure n Config.identityKey⟩ }))
    ∧ (∀ rate width, rate ∈ [25, 50, 80, 160, 320, 640, 1280] → width ∈ [1, 2, 4, 8, 16] →
      exec (.pcieLinkTrain rate width) s = .next (State.marked { s with pcie := (rate, width) }))
    ∧ (∀ v : Word, exec (.registerWrite 0x40020 v) s = .next (State.marked { s with fltvec := v &&& 127 })
      ∧ ∀ o ∈ [0x40010, 0x40030, 0x980000, 0xA00000, 0xB00000, 0xB08000, 0xC00000, 0xD00008],
        exec (.registerWrite o v) s = .next s.marked)
    ∧ (s.readRegister 0x40000 = s.ptroot ∧ s.readRegister 0x40008 = s.fltbase ∧ s.readRegister 0x40028 = 0
      ∧ s.readRegister 0xC00000 = s.bootst ∧ s.readRegister 0xD00000 = s.iclamp ∧ s.readRegister 0xD00008 = 0)
    ∧ ∀ v : Word, exec (.registerWrite 0x40000 v) s = exec (.ptrootWrite v) s
      ∧ exec (.registerWrite 0x40008 v) s = exec (.fltbaseWrite v) s ∧ exec (.registerWrite 0x40018 v) s = exec (.fltrdWrite v) s
      ∧ exec (.registerWrite 0x900000 v) s = exec (.rtctlStage v) s ∧ exec (.registerWrite 0xD00000 v) s = exec (.iclampWrite v) s
      ∧ (∀ g, g < 4096 → exec (.registerWrite (0x80000 + 8 * g) v) s = exec (.groupHeaderWrite g v) s)
      ∧ ∀ (q : Nat) (w : Fin 8), q < 4096 → exec (.registerWrite (64 * q + 8 * w) v) s = exec (.queueRegister q w v) s
end

