-- ==== Sys2Proof/Laws/State.lean ====
section
/-! SUPPORT. What each named update of the state leaves in each field: one lemma per field, true by computation. -/

namespace Sys2Proof.Machine

/-! ### State.setStrand -/

@[simp] theorem State.setStrand_agenda (s : State) (t : Strand) : (s.setStrand t).agenda = s.agenda := rfl
@[simp] theorem State.setStrand_turn (s : State) (t : Strand) : (s.setStrand t).turn = s.turn := rfl
@[simp] theorem State.setStrand_moved (s : State) (t : Strand) : (s.setStrand t).moved = s.moved := rfl
@[simp] theorem State.setStrand_mxTurn (s : State) (t : Strand) : (s.setStrand t).mxTurn = s.mxTurn := rfl
@[simp] theorem State.setStrand_fresh (s : State) (t : Strand) : (s.setStrand t).fresh = s.fresh := rfl
@[simp] theorem State.setStrand_nextId (s : State) (t : Strand) : (s.setStrand t).nextId = s.nextId := rfl
@[simp] theorem State.setStrand_cycle (s : State) (t : Strand) : (s.setStrand t).cycle = s.cycle := rfl
@[simp] theorem State.setStrand_frames (s : State) (t : Strand) : (s.setStrand t).frames = s.frames := rfl
@[simp] theorem State.setStrand_modId (s : State) (t : Strand) : (s.setStrand t).modId = s.modId := rfl
@[simp] theorem State.setStrand_mem (s : State) (t : Strand) : (s.setStrand t).mem = s.mem := rfl
@[simp] theorem State.setStrand_ecc (s : State) (t : Strand) : (s.setStrand t).ecc = s.ecc := rfl
@[simp] theorem State.setStrand_strands (s : State) (t : Strand) : (s.setStrand t).strands = replaceIf s.strands (·.sid == t.sid) t := rfl
@[simp] theorem State.setStrand_ctxs (s : State) (t : Strand) : (s.setStrand t).ctxs = s.ctxs := rfl
@[simp] theorem State.setStrand_claims (s : State) (t : Strand) : (s.setStrand t).claims = s.claims := rfl
@[simp] theorem State.setStrand_tiles (s : State) (t : Strand) : (s.setStrand t).tiles = s.tiles := rfl
@[simp] theorem State.setStrand_dies (s : State) (t : Strand) : (s.setStrand t).dies = s.dies := rfl
@[simp] theorem State.setStrand_clocks (s : State) (t : Strand) : (s.setStrand t).clocks = s.clocks := rfl
@[simp] theorem State.setStrand_stamps (s : State) (t : Strand) : (s.setStrand t).stamps = s.stamps := rfl
@[simp] theorem State.setStrand_win (s : State) (t : Strand) : (s.setStrand t).win = s.win := rfl
@[simp] theorem State.setStrand_winFree (s : State) (t : Strand) : (s.setStrand t).winFree = s.winFree := rfl
@[simp] theorem State.setStrand_tasks (s : State) (t : Strand) : (s.setStrand t).tasks = s.tasks := rfl
@[simp] theorem State.setStrand_nextTid (s : State) (t : Strand) : (s.setStrand t).nextTid = s.nextTid := rfl
@[simp] theorem State.setStrand_queues (s : State) (t : Strand) : (s.setStrand t).queues = s.queues := rfl
@[simp] theorem State.setStrand_rotor (s : State) (t : Strand) : (s.setStrand t).rotor = s.rotor := rfl
@[simp] theorem State.setStrand_graphs (s : State) (t : Strand) : (s.setStrand t).graphs = s.graphs := rfl
@[simp] theorem State.setStrand_cmds (s : State) (t : Strand) : (s.setStrand t).cmds = s.cmds := rfl
@[simp] theorem State.setStrand_posts (s : State) (t : Strand) : (s.setStrand t).posts = s.posts := rfl
@[simp] theorem State.setStrand_xfers (s : State) (t : Strand) : (s.setStrand t).xfers = s.xfers := rfl
@[simp] theorem State.setStrand_notices (s : State) (t : Strand) : (s.setStrand t).notices = s.notices := rfl
@[simp] theorem State.setStrand_arrived (s : State) (t : Strand) : (s.setStrand t).arrived = s.arrived := rfl
@[simp] theorem State.setStrand_pulls (s : State) (t : Strand) : (s.setStrand t).pulls = s.pulls := rfl
@[simp] theorem State.setStrand_flights (s : State) (t : Strand) : (s.setStrand t).flights = s.flights := rfl
@[simp] theorem State.setStrand_replicas (s : State) (t : Strand) : (s.setStrand t).replicas = s.replicas := rfl
@[simp] theorem State.setStrand_parked (s : State) (t : Strand) : (s.setStrand t).parked = s.parked := rfl
@[simp] theorem State.setStrand_folded (s : State) (t : Strand) : (s.setStrand t).folded = s.folded := rfl
@[simp] theorem State.setStrand_contribs (s : State) (t : Strand) : (s.setStrand t).contribs = s.contribs := rfl
@[simp] theorem State.setStrand_answers (s : State) (t : Strand) : (s.setStrand t).answers = s.answers := rfl
@[simp] theorem State.setStrand_outbox (s : State) (t : Strand) : (s.setStrand t).outbox = s.outbox := rfl
@[simp] theorem State.setStrand_catb (s : State) (t : Strand) : (s.setStrand t).catb = s.catb := rfl
@[simp] theorem State.setStrand_cat (s : State) (t : Strand) : (s.setStrand t).cat = s.cat := rfl
@[simp] theorem State.setStrand_grpMem (s : State) (t : Strand) : (s.setStrand t).grpMem = s.grpMem := rfl
@[simp] theorem State.setStrand_groups (s : State) (t : Strand) : (s.setStrand t).groups = s.groups := rfl
@[simp] theorem State.setStrand_stageMin (s : State) (t : Strand) : (s.setStrand t).stageMin = s.stageMin := rfl
@[simp] theorem State.setStrand_stageVia (s : State) (t : Strand) : (s.setStrand t).stageVia = s.stageVia := rfl
@[simp] theorem State.setStrand_curMin (s : State) (t : Strand) : (s.setStrand t).curMin = s.curMin := rfl
@[simp] theorem State.setStrand_curVia (s : State) (t : Strand) : (s.setStrand t).curVia = s.curVia := rfl
@[simp] theorem State.setStrand_swp (s : State) (t : Strand) : (s.setStrand t).swp = s.swp := rfl
@[simp] theorem State.setStrand_stg (s : State) (t : Strand) : (s.setStrand t).stg = s.stg := rfl
@[simp] theorem State.setStrand_cur (s : State) (t : Strand) : (s.setStrand t).cur = s.cur := rfl
@[simp] theorem State.setStrand_optical (s : State) (t : Strand) : (s.setStrand t).optical = s.optical := rfl
@[simp] theorem State.setStrand_roots (s : State) (t : Strand) : (s.setStrand t).roots = s.roots := rfl
@[simp] theorem State.setStrand_ptroot (s : State) (t : Strand) : (s.setStrand t).ptroot = s.ptroot := rfl
@[simp] theorem State.setStrand_fltbase (s : State) (t : Strand) : (s.setStrand t).fltbase = s.fltbase := rfl
@[simp] theorem State.setStrand_fltwr (s : State) (t : Strand) : (s.setStrand t).fltwr = s.fltwr := rfl
@[simp] theorem State.setStrand_fltrd (s : State) (t : Strand) : (s.setStrand t).fltrd = s.fltrd := rfl
@[simp] theorem State.setStrand_fltvec (s : State) (t : Strand) : (s.setStrand t).fltvec = s.fltvec := rfl
@[simp] theorem State.setStrand_fltlost (s : State) (t : Strand) : (s.setStrand t).fltlost = s.fltlost := rfl
@[simp] theorem State.setStrand_iclamp (s : State) (t : Strand) : (s.setStrand t).iclamp = s.iclamp := rfl
@[simp] theorem State.setStrand_clockStep (s : State) (t : Strand) : (s.setStrand t).clockStep = s.clockStep := rfl
@[simp] theorem State.setStrand_clamped (s : State) (t : Strand) : (s.setStrand t).clamped = s.clamped := rfl
@[simp] theorem State.setStrand_bootst (s : State) (t : Strand) : (s.setStrand t).bootst = s.bootst := rfl
@[simp] theorem State.setStrand_measure (s : State) (t : Strand) : (s.setStrand t).measure = s.measure := rfl
@[simp] theorem State.setStrand_nonce (s : State) (t : Strand) : (s.setStrand t).nonce = s.nonce := rfl
@[simp] theorem State.setStrand_report (s : State) (t : Strand) : (s.setStrand t).report = s.report := rfl
@[simp] theorem State.setStrand_locked (s : State) (t : Strand) : (s.setStrand t).locked = s.locked := rfl
@[simp] theorem State.setStrand_pcie (s : State) (t : Strand) : (s.setStrand t).pcie = s.pcie := rfl
@[simp] theorem State.setStrand_softErr (s : State) (t : Strand) : (s.setStrand t).softErr = s.softErr := rfl
@[simp] theorem State.setStrand_late (s : State) (t : Strand) : (s.setStrand t).late = s.late := rfl
@[simp] theorem State.setStrand_frameAt (s : State) (t : Strand) : (s.setStrand t).frameAt = s.frameAt := rfl
@[simp] theorem State.setStrand_part (s : State) (t : Strand) : (s.setStrand t).part = s.part := rfl
@[simp] theorem State.setStrand_rotated (s : State) (t : Strand) : (s.setStrand t).rotated = s.rotated := rfl
@[simp] theorem State.setStrand_gsqAt (s : State) (t : Strand) : (s.setStrand t).gsqAt = s.gsqAt := rfl
@[simp] theorem State.setStrand_dues (s : State) (t : Strand) : (s.setStrand t).dues = s.dues := rfl
@[simp] theorem State.setStrand_struck (s : State) (t : Strand) : (s.setStrand t).struck = s.struck := rfl
@[simp] theorem State.setStrand_tlb (s : State) (t : Strand) : (s.setStrand t).tlb = s.tlb := rfl
@[simp] theorem State.setStrand_resident (s : State) (t : Strand) : (s.setStrand t).resident = s.resident := rfl
@[simp] theorem State.setStrand_ended (s : State) (t : Strand) : (s.setStrand t).ended = s.ended := rfl
@[simp] theorem State.setStrand_refused (s : State) (t : Strand) : (s.setStrand t).refused = s.refused := rfl
@[simp] theorem State.setStrand_departing (s : State) (t : Strand) : (s.setStrand t).departing = s.departing := rfl
@[simp] theorem State.setStrand_hostbox (s : State) (t : Strand) : (s.setStrand t).hostbox = s.hostbox := rfl
@[simp] theorem State.setStrand_roundsElsewhere (s : State) (t : Strand) : (s.setStrand t).roundsElsewhere = s.roundsElsewhere := rfl
@[simp] theorem State.setStrand_requests (s : State) (t : Strand) : (s.setStrand t).requests = s.requests := rfl

/-! ### State.setCtx -/

@[simp] theorem State.setCtx_agenda (s : State) (c : Ctx) : (s.setCtx c).agenda = s.agenda := rfl
@[simp] theorem State.setCtx_turn (s : State) (c : Ctx) : (s.setCtx c).turn = s.turn := rfl
@[simp] theorem State.setCtx_moved (s : State) (c : Ctx) : (s.setCtx c).moved = s.moved := rfl
@[simp] theorem State.setCtx_mxTurn (s : State) (c : Ctx) : (s.setCtx c).mxTurn = s.mxTurn := rfl
@[simp] theorem State.setCtx_fresh (s : State) (c : Ctx) : (s.setCtx c).fresh = s.fresh := rfl
@[simp] theorem State.setCtx_nextId (s : State) (c : Ctx) : (s.setCtx c).nextId = s.nextId := rfl
@[simp] theorem State.setCtx_cycle (s : State) (c : Ctx) : (s.setCtx c).cycle = s.cycle := rfl
@[simp] theorem State.setCtx_frames (s : State) (c : Ctx) : (s.setCtx c).frames = s.frames := rfl
@[simp] theorem State.setCtx_modId (s : State) (c : Ctx) : (s.setCtx c).modId = s.modId := rfl
@[simp] theorem State.setCtx_mem (s : State) (c : Ctx) : (s.setCtx c).mem = s.mem := rfl
@[simp] theorem State.setCtx_ecc (s : State) (c : Ctx) : (s.setCtx c).ecc = s.ecc := rfl
@[simp] theorem State.setCtx_strands (s : State) (c : Ctx) : (s.setCtx c).strands = s.strands := rfl
@[simp] theorem State.setCtx_ctxs (s : State) (c : Ctx) : (s.setCtx c).ctxs = replaceIf s.ctxs (·.id == c.id) c := rfl
@[simp] theorem State.setCtx_claims (s : State) (c : Ctx) : (s.setCtx c).claims = s.claims := rfl
@[simp] theorem State.setCtx_tiles (s : State) (c : Ctx) : (s.setCtx c).tiles = s.tiles := rfl
@[simp] theorem State.setCtx_dies (s : State) (c : Ctx) : (s.setCtx c).dies = s.dies := rfl
@[simp] theorem State.setCtx_clocks (s : State) (c : Ctx) : (s.setCtx c).clocks = s.clocks := rfl
@[simp] theorem State.setCtx_stamps (s : State) (c : Ctx) : (s.setCtx c).stamps = s.stamps := rfl
@[simp] theorem State.setCtx_win (s : State) (c : Ctx) : (s.setCtx c).win = s.win := rfl
@[simp] theorem State.setCtx_winFree (s : State) (c : Ctx) : (s.setCtx c).winFree = s.winFree := rfl
@[simp] theorem State.setCtx_tasks (s : State) (c : Ctx) : (s.setCtx c).tasks = s.tasks := rfl
@[simp] theorem State.setCtx_nextTid (s : State) (c : Ctx) : (s.setCtx c).nextTid = s.nextTid := rfl
@[simp] theorem State.setCtx_queues (s : State) (c : Ctx) : (s.setCtx c).queues = s.queues := rfl
@[simp] theorem State.setCtx_rotor (s : State) (c : Ctx) : (s.setCtx c).rotor = s.rotor := rfl
@[simp] theorem State.setCtx_graphs (s : State) (c : Ctx) : (s.setCtx c).graphs = s.graphs := rfl
@[simp] theorem State.setCtx_cmds (s : State) (c : Ctx) : (s.setCtx c).cmds = s.cmds := rfl
@[simp] theorem State.setCtx_posts (s : State) (c : Ctx) : (s.setCtx c).posts = s.posts := rfl
@[simp] theorem State.setCtx_xfers (s : State) (c : Ctx) : (s.setCtx c).xfers = s.xfers := rfl
@[simp] theorem State.setCtx_notices (s : State) (c : Ctx) : (s.setCtx c).notices = s.notices := rfl
@[simp] theorem State.setCtx_arrived (s : State) (c : Ctx) : (s.setCtx c).arrived = s.arrived := rfl
@[simp] theorem State.setCtx_pulls (s : State) (c : Ctx) : (s.setCtx c).pulls = s.pulls := rfl
@[simp] theorem State.setCtx_flights (s : State) (c : Ctx) : (s.setCtx c).flights = s.flights := rfl
@[simp] theorem State.setCtx_replicas (s : State) (c : Ctx) : (s.setCtx c).replicas = s.replicas := rfl
@[simp] theorem State.setCtx_parked (s : State) (c : Ctx) : (s.setCtx c).parked = s.parked := rfl
@[simp] theorem State.setCtx_folded (s : State) (c : Ctx) : (s.setCtx c).folded = s.folded := rfl
@[simp] theorem State.setCtx_contribs (s : State) (c : Ctx) : (s.setCtx c).contribs = s.contribs := rfl
@[simp] theorem State.setCtx_answers (s : State) (c : Ctx) : (s.setCtx c).answers = s.answers := rfl
@[simp] theorem State.setCtx_outbox (s : State) (c : Ctx) : (s.setCtx c).outbox = s.outbox := rfl
@[simp] theorem State.setCtx_catb (s : State) (c : Ctx) : (s.setCtx c).catb = s.catb := rfl
@[simp] theorem State.setCtx_cat (s : State) (c : Ctx) : (s.setCtx c).cat = s.cat := rfl
@[simp] theorem State.setCtx_grpMem (s : State) (c : Ctx) : (s.setCtx c).grpMem = s.grpMem := rfl
@[simp] theorem State.setCtx_groups (s : State) (c : Ctx) : (s.setCtx c).groups = s.groups := rfl
@[simp] theorem State.setCtx_stageMin (s : State) (c : Ctx) : (s.setCtx c).stageMin = s.stageMin := rfl
@[simp] theorem State.setCtx_stageVia (s : State) (c : Ctx) : (s.setCtx c).stageVia = s.stageVia := rfl
@[simp] theorem State.setCtx_curMin (s : State) (c : Ctx) : (s.setCtx c).curMin = s.curMin := rfl
@[simp] theorem State.setCtx_curVia (s : State) (c : Ctx) : (s.setCtx c).curVia = s.curVia := rfl
@[simp] theorem State.setCtx_swp (s : State) (c : Ctx) : (s.setCtx c).swp = s.swp := rfl
@[simp] theorem State.setCtx_stg (s : State) (c : Ctx) : (s.setCtx c).stg = s.stg := rfl
@[simp] theorem State.setCtx_cur (s : State) (c : Ctx) : (s.setCtx c).cur = s.cur := rfl
@[simp] theorem State.setCtx_optical (s : State) (c : Ctx) : (s.setCtx c).optical = s.optical := rfl
@[simp] theorem State.setCtx_roots (s : State) (c : Ctx) : (s.setCtx c).roots = s.roots := rfl
@[simp] theorem State.setCtx_ptroot (s : State) (c : Ctx) : (s.setCtx c).ptroot = s.ptroot := rfl
@[simp] theorem State.setCtx_fltbase (s : State) (c : Ctx) : (s.setCtx c).fltbase = s.fltbase := rfl
@[simp] theorem State.setCtx_fltwr (s : State) (c : Ctx) : (s.setCtx c).fltwr = s.fltwr := rfl
@[simp] theorem State.setCtx_fltrd (s : State) (c : Ctx) : (s.setCtx c).fltrd = s.fltrd := rfl
@[simp] theorem State.setCtx_fltvec (s : State) (c : Ctx) : (s.setCtx c).fltvec = s.fltvec := rfl
@[simp] theorem State.setCtx_fltlost (s : State) (c : Ctx) : (s.setCtx c).fltlost = s.fltlost := rfl
@[simp] theorem State.setCtx_iclamp (s : State) (c : Ctx) : (s.setCtx c).iclamp = s.iclamp := rfl
@[simp] theorem State.setCtx_clockStep (s : State) (c : Ctx) : (s.setCtx c).clockStep = s.clockStep := rfl
@[simp] theorem State.setCtx_clamped (s : State) (c : Ctx) : (s.setCtx c).clamped = s.clamped := rfl
@[simp] theorem State.setCtx_bootst (s : State) (c : Ctx) : (s.setCtx c).bootst = s.bootst := rfl
@[simp] theorem State.setCtx_measure (s : State) (c : Ctx) : (s.setCtx c).measure = s.measure := rfl
@[simp] theorem State.setCtx_nonce (s : State) (c : Ctx) : (s.setCtx c).nonce = s.nonce := rfl
@[simp] theorem State.setCtx_report (s : State) (c : Ctx) : (s.setCtx c).report = s.report := rfl
@[simp] theorem State.setCtx_locked (s : State) (c : Ctx) : (s.setCtx c).locked = s.locked := rfl
@[simp] theorem State.setCtx_pcie (s : State) (c : Ctx) : (s.setCtx c).pcie = s.pcie := rfl
@[simp] theorem State.setCtx_softErr (s : State) (c : Ctx) : (s.setCtx c).softErr = s.softErr := rfl
@[simp] theorem State.setCtx_late (s : State) (c : Ctx) : (s.setCtx c).late = s.late := rfl
@[simp] theorem State.setCtx_frameAt (s : State) (c : Ctx) : (s.setCtx c).frameAt = s.frameAt := rfl
@[simp] theorem State.setCtx_part (s : State) (c : Ctx) : (s.setCtx c).part = s.part := rfl
@[simp] theorem State.setCtx_rotated (s : State) (c : Ctx) : (s.setCtx c).rotated = s.rotated := rfl
@[simp] theorem State.setCtx_gsqAt (s : State) (c : Ctx) : (s.setCtx c).gsqAt = s.gsqAt := rfl
@[simp] theorem State.setCtx_dues (s : State) (c : Ctx) : (s.setCtx c).dues = s.dues := rfl
@[simp] theorem State.setCtx_struck (s : State) (c : Ctx) : (s.setCtx c).struck = s.struck := rfl
@[simp] theorem State.setCtx_tlb (s : State) (c : Ctx) : (s.setCtx c).tlb = s.tlb := rfl
@[simp] theorem State.setCtx_resident (s : State) (c : Ctx) : (s.setCtx c).resident = s.resident := rfl
@[simp] theorem State.setCtx_ended (s : State) (c : Ctx) : (s.setCtx c).ended = s.ended := rfl
@[simp] theorem State.setCtx_refused (s : State) (c : Ctx) : (s.setCtx c).refused = s.refused := rfl
@[simp] theorem State.setCtx_departing (s : State) (c : Ctx) : (s.setCtx c).departing = s.departing := rfl
@[simp] theorem State.setCtx_hostbox (s : State) (c : Ctx) : (s.setCtx c).hostbox = s.hostbox := rfl
@[simp] theorem State.setCtx_roundsElsewhere (s : State) (c : Ctx) : (s.setCtx c).roundsElsewhere = s.roundsElsewhere := rfl
@[simp] theorem State.setCtx_requests (s : State) (c : Ctx) : (s.setCtx c).requests = s.requests := rfl

/-! ### State.setTile -/

@[simp] theorem State.setTile_agenda (s : State) (r : TileRec) : (s.setTile r).agenda = s.agenda := rfl
@[simp] theorem State.setTile_turn (s : State) (r : TileRec) : (s.setTile r).turn = s.turn := rfl
@[simp] theorem State.setTile_moved (s : State) (r : TileRec) : (s.setTile r).moved = s.moved := rfl
@[simp] theorem State.setTile_mxTurn (s : State) (r : TileRec) : (s.setTile r).mxTurn = s.mxTurn := rfl
@[simp] theorem State.setTile_fresh (s : State) (r : TileRec) : (s.setTile r).fresh = s.fresh := rfl
@[simp] theorem State.setTile_nextId (s : State) (r : TileRec) : (s.setTile r).nextId = s.nextId := rfl
@[simp] theorem State.setTile_cycle (s : State) (r : TileRec) : (s.setTile r).cycle = s.cycle := rfl
@[simp] theorem State.setTile_frames (s : State) (r : TileRec) : (s.setTile r).frames = s.frames := rfl
@[simp] theorem State.setTile_modId (s : State) (r : TileRec) : (s.setTile r).modId = s.modId := rfl
@[simp] theorem State.setTile_mem (s : State) (r : TileRec) : (s.setTile r).mem = s.mem := rfl
@[simp] theorem State.setTile_ecc (s : State) (r : TileRec) : (s.setTile r).ecc = s.ecc := rfl
@[simp] theorem State.setTile_strands (s : State) (r : TileRec) : (s.setTile r).strands = s.strands := rfl
@[simp] theorem State.setTile_ctxs (s : State) (r : TileRec) : (s.setTile r).ctxs = s.ctxs := rfl
@[simp] theorem State.setTile_claims (s : State) (r : TileRec) : (s.setTile r).claims = s.claims := rfl
@[simp] theorem State.setTile_dies (s : State) (r : TileRec) : (s.setTile r).dies = s.dies := rfl
@[simp] theorem State.setTile_clocks (s : State) (r : TileRec) : (s.setTile r).clocks = s.clocks := rfl
@[simp] theorem State.setTile_stamps (s : State) (r : TileRec) : (s.setTile r).stamps = s.stamps := rfl
@[simp] theorem State.setTile_win (s : State) (r : TileRec) : (s.setTile r).win = s.win := rfl
@[simp] theorem State.setTile_winFree (s : State) (r : TileRec) : (s.setTile r).winFree = s.winFree := rfl
@[simp] theorem State.setTile_tasks (s : State) (r : TileRec) : (s.setTile r).tasks = s.tasks := rfl
@[simp] theorem State.setTile_nextTid (s : State) (r : TileRec) : (s.setTile r).nextTid = s.nextTid := rfl
@[simp] theorem State.setTile_queues (s : State) (r : TileRec) : (s.setTile r).queues = s.queues := rfl
@[simp] theorem State.setTile_rotor (s : State) (r : TileRec) : (s.setTile r).rotor = s.rotor := rfl
@[simp] theorem State.setTile_graphs (s : State) (r : TileRec) : (s.setTile r).graphs = s.graphs := rfl
@[simp] theorem State.setTile_cmds (s : State) (r : TileRec) : (s.setTile r).cmds = s.cmds := rfl
@[simp] theorem State.setTile_posts (s : State) (r : TileRec) : (s.setTile r).posts = s.posts := rfl
@[simp] theorem State.setTile_xfers (s : State) (r : TileRec) : (s.setTile r).xfers = s.xfers := rfl
@[simp] theorem State.setTile_notices (s : State) (r : TileRec) : (s.setTile r).notices = s.notices := rfl
@[simp] theorem State.setTile_arrived (s : State) (r : TileRec) : (s.setTile r).arrived = s.arrived := rfl
@[simp] theorem State.setTile_pulls (s : State) (r : TileRec) : (s.setTile r).pulls = s.pulls := rfl
@[simp] theorem State.setTile_flights (s : State) (r : TileRec) : (s.setTile r).flights = s.flights := rfl
@[simp] theorem State.setTile_replicas (s : State) (r : TileRec) : (s.setTile r).replicas = s.replicas := rfl
@[simp] theorem State.setTile_parked (s : State) (r : TileRec) : (s.setTile r).parked = s.parked := rfl
@[simp] theorem State.setTile_folded (s : State) (r : TileRec) : (s.setTile r).folded = s.folded := rfl
@[simp] theorem State.setTile_contribs (s : State) (r : TileRec) : (s.setTile r).contribs = s.contribs := rfl
@[simp] theorem State.setTile_answers (s : State) (r : TileRec) : (s.setTile r).answers = s.answers := rfl
@[simp] theorem State.setTile_outbox (s : State) (r : TileRec) : (s.setTile r).outbox = s.outbox := rfl
@[simp] theorem State.setTile_catb (s : State) (r : TileRec) : (s.setTile r).catb = s.catb := rfl
@[simp] theorem State.setTile_cat (s : State) (r : TileRec) : (s.setTile r).cat = s.cat := rfl
@[simp] theorem State.setTile_grpMem (s : State) (r : TileRec) : (s.setTile r).grpMem = s.grpMem := rfl
@[simp] theorem State.setTile_groups (s : State) (r : TileRec) : (s.setTile r).groups = s.groups := rfl
@[simp] theorem State.setTile_stageMin (s : State) (r : TileRec) : (s.setTile r).stageMin = s.stageMin := rfl
@[simp] theorem State.setTile_stageVia (s : State) (r : TileRec) : (s.setTile r).stageVia = s.stageVia := rfl
@[simp] theorem State.setTile_curMin (s : State) (r : TileRec) : (s.setTile r).curMin = s.curMin := rfl
@[simp] theorem State.setTile_curVia (s : State) (r : TileRec) : (s.setTile r).curVia = s.curVia := rfl
@[simp] theorem State.setTile_swp (s : State) (r : TileRec) : (s.setTile r).swp = s.swp := rfl
@[simp] theorem State.setTile_stg (s : State) (r : TileRec) : (s.setTile r).stg = s.stg := rfl
@[simp] theorem State.setTile_cur (s : State) (r : TileRec) : (s.setTile r).cur = s.cur := rfl
@[simp] theorem State.setTile_optical (s : State) (r : TileRec) : (s.setTile r).optical = s.optical := rfl
@[simp] theorem State.setTile_roots (s : State) (r : TileRec) : (s.setTile r).roots = s.roots := rfl
@[simp] theorem State.setTile_ptroot (s : State) (r : TileRec) : (s.setTile r).ptroot = s.ptroot := rfl
@[simp] theorem State.setTile_fltbase (s : State) (r : TileRec) : (s.setTile r).fltbase = s.fltbase := rfl
@[simp] theorem State.setTile_fltwr (s : State) (r : TileRec) : (s.setTile r).fltwr = s.fltwr := rfl
@[simp] theorem State.setTile_fltrd (s : State) (r : TileRec) : (s.setTile r).fltrd = s.fltrd := rfl
@[simp] theorem State.setTile_fltvec (s : State) (r : TileRec) : (s.setTile r).fltvec = s.fltvec := rfl
@[simp] theorem State.setTile_fltlost (s : State) (r : TileRec) : (s.setTile r).fltlost = s.fltlost := rfl
@[simp] theorem State.setTile_iclamp (s : State) (r : TileRec) : (s.setTile r).iclamp = s.iclamp := rfl
@[simp] theorem State.setTile_clockStep (s : State) (r : TileRec) : (s.setTile r).clockStep = s.clockStep := rfl
@[simp] theorem State.setTile_clamped (s : State) (r : TileRec) : (s.setTile r).clamped = s.clamped := rfl
@[simp] theorem State.setTile_bootst (s : State) (r : TileRec) : (s.setTile r).bootst = s.bootst := rfl
@[simp] theorem State.setTile_measure (s : State) (r : TileRec) : (s.setTile r).measure = s.measure := rfl
@[simp] theorem State.setTile_nonce (s : State) (r : TileRec) : (s.setTile r).nonce = s.nonce := rfl
@[simp] theorem State.setTile_report (s : State) (r : TileRec) : (s.setTile r).report = s.report := rfl
@[simp] theorem State.setTile_locked (s : State) (r : TileRec) : (s.setTile r).locked = s.locked := rfl
@[simp] theorem State.setTile_pcie (s : State) (r : TileRec) : (s.setTile r).pcie = s.pcie := rfl
@[simp] theorem State.setTile_softErr (s : State) (r : TileRec) : (s.setTile r).softErr = s.softErr := rfl
@[simp] theorem State.setTile_late (s : State) (r : TileRec) : (s.setTile r).late = s.late := rfl
@[simp] theorem State.setTile_frameAt (s : State) (r : TileRec) : (s.setTile r).frameAt = s.frameAt := rfl
@[simp] theorem State.setTile_part (s : State) (r : TileRec) : (s.setTile r).part = s.part := rfl
@[simp] theorem State.setTile_rotated (s : State) (r : TileRec) : (s.setTile r).rotated = s.rotated := rfl
@[simp] theorem State.setTile_gsqAt (s : State) (r : TileRec) : (s.setTile r).gsqAt = s.gsqAt := rfl
@[simp] theorem State.setTile_dues (s : State) (r : TileRec) : (s.setTile r).dues = s.dues := rfl
@[simp] theorem State.setTile_struck (s : State) (r : TileRec) : (s.setTile r).struck = s.struck := rfl
@[simp] theorem State.setTile_tlb (s : State) (r : TileRec) : (s.setTile r).tlb = s.tlb := rfl
@[simp] theorem State.setTile_resident (s : State) (r : TileRec) : (s.setTile r).resident = s.resident := rfl
@[simp] theorem State.setTile_ended (s : State) (r : TileRec) : (s.setTile r).ended = s.ended := rfl
@[simp] theorem State.setTile_refused (s : State) (r : TileRec) : (s.setTile r).refused = s.refused := rfl
@[simp] theorem State.setTile_departing (s : State) (r : TileRec) : (s.setTile r).departing = s.departing := rfl
@[simp] theorem State.setTile_hostbox (s : State) (r : TileRec) : (s.setTile r).hostbox = s.hostbox := rfl
@[simp] theorem State.setTile_roundsElsewhere (s : State) (r : TileRec) : (s.setTile r).roundsElsewhere = s.roundsElsewhere := rfl
@[simp] theorem State.setTile_requests (s : State) (r : TileRec) : (s.setTile r).requests = s.requests := rfl

/-! ### State.setTask -/

@[simp] theorem State.setTask_agenda (s : State) (k : Task) : (s.setTask k).agenda = s.agenda := rfl
@[simp] theorem State.setTask_turn (s : State) (k : Task) : (s.setTask k).turn = s.turn := rfl
@[simp] theorem State.setTask_moved (s : State) (k : Task) : (s.setTask k).moved = s.moved := rfl
@[simp] theorem State.setTask_mxTurn (s : State) (k : Task) : (s.setTask k).mxTurn = s.mxTurn := rfl
@[simp] theorem State.setTask_fresh (s : State) (k : Task) : (s.setTask k).fresh = s.fresh := rfl
@[simp] theorem State.setTask_nextId (s : State) (k : Task) : (s.setTask k).nextId = s.nextId := rfl
@[simp] theorem State.setTask_cycle (s : State) (k : Task) : (s.setTask k).cycle = s.cycle := rfl
@[simp] theorem State.setTask_frames (s : State) (k : Task) : (s.setTask k).frames = s.frames := rfl
@[simp] theorem State.setTask_modId (s : State) (k : Task) : (s.setTask k).modId = s.modId := rfl
@[simp] theorem State.setTask_mem (s : State) (k : Task) : (s.setTask k).mem = s.mem := rfl
@[simp] theorem State.setTask_ecc (s : State) (k : Task) : (s.setTask k).ecc = s.ecc := rfl
@[simp] theorem State.setTask_strands (s : State) (k : Task) : (s.setTask k).strands = s.strands := rfl
@[simp] theorem State.setTask_ctxs (s : State) (k : Task) : (s.setTask k).ctxs = s.ctxs := rfl
@[simp] theorem State.setTask_claims (s : State) (k : Task) : (s.setTask k).claims = s.claims := rfl
@[simp] theorem State.setTask_tiles (s : State) (k : Task) : (s.setTask k).tiles = s.tiles := rfl
@[simp] theorem State.setTask_dies (s : State) (k : Task) : (s.setTask k).dies = s.dies := rfl
@[simp] theorem State.setTask_clocks (s : State) (k : Task) : (s.setTask k).clocks = s.clocks := rfl
@[simp] theorem State.setTask_stamps (s : State) (k : Task) : (s.setTask k).stamps = s.stamps := rfl
@[simp] theorem State.setTask_win (s : State) (k : Task) : (s.setTask k).win = s.win := rfl
@[simp] theorem State.setTask_winFree (s : State) (k : Task) : (s.setTask k).winFree = s.winFree := rfl
@[simp] theorem State.setTask_tasks (s : State) (k : Task) : (s.setTask k).tasks = replaceIf s.tasks (·.tid == k.tid) k := rfl
@[simp] theorem State.setTask_nextTid (s : State) (k : Task) : (s.setTask k).nextTid = s.nextTid := rfl
@[simp] theorem State.setTask_queues (s : State) (k : Task) : (s.setTask k).queues = s.queues := rfl
@[simp] theorem State.setTask_rotor (s : State) (k : Task) : (s.setTask k).rotor = s.rotor := rfl
@[simp] theorem State.setTask_graphs (s : State) (k : Task) : (s.setTask k).graphs = s.graphs := rfl
@[simp] theorem State.setTask_cmds (s : State) (k : Task) : (s.setTask k).cmds = s.cmds := rfl
@[simp] theorem State.setTask_posts (s : State) (k : Task) : (s.setTask k).posts = s.posts := rfl
@[simp] theorem State.setTask_xfers (s : State) (k : Task) : (s.setTask k).xfers = s.xfers := rfl
@[simp] theorem State.setTask_notices (s : State) (k : Task) : (s.setTask k).notices = s.notices := rfl
@[simp] theorem State.setTask_arrived (s : State) (k : Task) : (s.setTask k).arrived = s.arrived := rfl
@[simp] theorem State.setTask_pulls (s : State) (k : Task) : (s.setTask k).pulls = s.pulls := rfl
@[simp] theorem State.setTask_flights (s : State) (k : Task) : (s.setTask k).flights = s.flights := rfl
@[simp] theorem State.setTask_replicas (s : State) (k : Task) : (s.setTask k).replicas = s.replicas := rfl
@[simp] theorem State.setTask_parked (s : State) (k : Task) : (s.setTask k).parked = s.parked := rfl
@[simp] theorem State.setTask_folded (s : State) (k : Task) : (s.setTask k).folded = s.folded := rfl
@[simp] theorem State.setTask_contribs (s : State) (k : Task) : (s.setTask k).contribs = s.contribs := rfl
@[simp] theorem State.setTask_answers (s : State) (k : Task) : (s.setTask k).answers = s.answers := rfl
@[simp] theorem State.setTask_outbox (s : State) (k : Task) : (s.setTask k).outbox = s.outbox := rfl
@[simp] theorem State.setTask_catb (s : State) (k : Task) : (s.setTask k).catb = s.catb := rfl
@[simp] theorem State.setTask_cat (s : State) (k : Task) : (s.setTask k).cat = s.cat := rfl
@[simp] theorem State.setTask_grpMem (s : State) (k : Task) : (s.setTask k).grpMem = s.grpMem := rfl
@[simp] theorem State.setTask_groups (s : State) (k : Task) : (s.setTask k).groups = s.groups := rfl
@[simp] theorem State.setTask_stageMin (s : State) (k : Task) : (s.setTask k).stageMin = s.stageMin := rfl
@[simp] theorem State.setTask_stageVia (s : State) (k : Task) : (s.setTask k).stageVia = s.stageVia := rfl
@[simp] theorem State.setTask_curMin (s : State) (k : Task) : (s.setTask k).curMin = s.curMin := rfl
@[simp] theorem State.setTask_curVia (s : State) (k : Task) : (s.setTask k).curVia = s.curVia := rfl
@[simp] theorem State.setTask_swp (s : State) (k : Task) : (s.setTask k).swp = s.swp := rfl
@[simp] theorem State.setTask_stg (s : State) (k : Task) : (s.setTask k).stg = s.stg := rfl
@[simp] theorem State.setTask_cur (s : State) (k : Task) : (s.setTask k).cur = s.cur := rfl
@[simp] theorem State.setTask_optical (s : State) (k : Task) : (s.setTask k).optical = s.optical := rfl
@[simp] theorem State.setTask_roots (s : State) (k : Task) : (s.setTask k).roots = s.roots := rfl
@[simp] theorem State.setTask_ptroot (s : State) (k : Task) : (s.setTask k).ptroot = s.ptroot := rfl
@[simp] theorem State.setTask_fltbase (s : State) (k : Task) : (s.setTask k).fltbase = s.fltbase := rfl
@[simp] theorem State.setTask_fltwr (s : State) (k : Task) : (s.setTask k).fltwr = s.fltwr := rfl
@[simp] theorem State.setTask_fltrd (s : State) (k : Task) : (s.setTask k).fltrd = s.fltrd := rfl
@[simp] theorem State.setTask_fltvec (s : State) (k : Task) : (s.setTask k).fltvec = s.fltvec := rfl
@[simp] theorem State.setTask_fltlost (s : State) (k : Task) : (s.setTask k).fltlost = s.fltlost := rfl
@[simp] theorem State.setTask_iclamp (s : State) (k : Task) : (s.setTask k).iclamp = s.iclamp := rfl
@[simp] theorem State.setTask_clockStep (s : State) (k : Task) : (s.setTask k).clockStep = s.clockStep := rfl
@[simp] theorem State.setTask_clamped (s : State) (k : Task) : (s.setTask k).clamped = s.clamped := rfl
@[simp] theorem State.setTask_bootst (s : State) (k : Task) : (s.setTask k).bootst = s.bootst := rfl
@[simp] theorem State.setTask_measure (s : State) (k : Task) : (s.setTask k).measure = s.measure := rfl
@[simp] theorem State.setTask_nonce (s : State) (k : Task) : (s.setTask k).nonce = s.nonce := rfl
@[simp] theorem State.setTask_report (s : State) (k : Task) : (s.setTask k).report = s.report := rfl
@[simp] theorem State.setTask_locked (s : State) (k : Task) : (s.setTask k).locked = s.locked := rfl
@[simp] theorem State.setTask_pcie (s : State) (k : Task) : (s.setTask k).pcie = s.pcie := rfl
@[simp] theorem State.setTask_softErr (s : State) (k : Task) : (s.setTask k).softErr = s.softErr := rfl
@[simp] theorem State.setTask_late (s : State) (k : Task) : (s.setTask k).late = s.late := rfl
@[simp] theorem State.setTask_frameAt (s : State) (k : Task) : (s.setTask k).frameAt = s.frameAt := rfl
@[simp] theorem State.setTask_part (s : State) (k : Task) : (s.setTask k).part = s.part := rfl
@[simp] theorem State.setTask_rotated (s : State) (k : Task) : (s.setTask k).rotated = s.rotated := rfl
@[simp] theorem State.setTask_gsqAt (s : State) (k : Task) : (s.setTask k).gsqAt = s.gsqAt := rfl
@[simp] theorem State.setTask_dues (s : State) (k : Task) : (s.setTask k).dues = s.dues := rfl
@[simp] theorem State.setTask_struck (s : State) (k : Task) : (s.setTask k).struck = s.struck := rfl
@[simp] theorem State.setTask_tlb (s : State) (k : Task) : (s.setTask k).tlb = s.tlb := rfl
@[simp] theorem State.setTask_resident (s : State) (k : Task) : (s.setTask k).resident = s.resident := rfl
@[simp] theorem State.setTask_ended (s : State) (k : Task) : (s.setTask k).ended = s.ended := rfl
@[simp] theorem State.setTask_refused (s : State) (k : Task) : (s.setTask k).refused = s.refused := rfl
@[simp] theorem State.setTask_departing (s : State) (k : Task) : (s.setTask k).departing = s.departing := rfl
@[simp] theorem State.setTask_hostbox (s : State) (k : Task) : (s.setTask k).hostbox = s.hostbox := rfl
@[simp] theorem State.setTask_roundsElsewhere (s : State) (k : Task) : (s.setTask k).roundsElsewhere = s.roundsElsewhere := rfl
@[simp] theorem State.setTask_requests (s : State) (k : Task) : (s.setTask k).requests = s.requests := rfl

/-! ### State.setCmd -/

@[simp] theorem State.setCmd_agenda (s : State) (k : Cmd) : (s.setCmd k).agenda = s.agenda := rfl
@[simp] theorem State.setCmd_turn (s : State) (k : Cmd) : (s.setCmd k).turn = s.turn := rfl
@[simp] theorem State.setCmd_moved (s : State) (k : Cmd) : (s.setCmd k).moved = s.moved := rfl
@[simp] theorem State.setCmd_mxTurn (s : State) (k : Cmd) : (s.setCmd k).mxTurn = s.mxTurn := rfl
@[simp] theorem State.setCmd_fresh (s : State) (k : Cmd) : (s.setCmd k).fresh = s.fresh := rfl
@[simp] theorem State.setCmd_nextId (s : State) (k : Cmd) : (s.setCmd k).nextId = s.nextId := rfl
@[simp] theorem State.setCmd_cycle (s : State) (k : Cmd) : (s.setCmd k).cycle = s.cycle := rfl
@[simp] theorem State.setCmd_frames (s : State) (k : Cmd) : (s.setCmd k).frames = s.frames := rfl
@[simp] theorem State.setCmd_modId (s : State) (k : Cmd) : (s.setCmd k).modId = s.modId := rfl
@[simp] theorem State.setCmd_mem (s : State) (k : Cmd) : (s.setCmd k).mem = s.mem := rfl
@[simp] theorem State.setCmd_ecc (s : State) (k : Cmd) : (s.setCmd k).ecc = s.ecc := rfl
@[simp] theorem State.setCmd_strands (s : State) (k : Cmd) : (s.setCmd k).strands = s.strands := rfl
@[simp] theorem State.setCmd_ctxs (s : State) (k : Cmd) : (s.setCmd k).ctxs = s.ctxs := rfl
@[simp] theorem State.setCmd_claims (s : State) (k : Cmd) : (s.setCmd k).claims = s.claims := rfl
@[simp] theorem State.setCmd_tiles (s : State) (k : Cmd) : (s.setCmd k).tiles = s.tiles := rfl
@[simp] theorem State.setCmd_dies (s : State) (k : Cmd) : (s.setCmd k).dies = s.dies := rfl
@[simp] theorem State.setCmd_clocks (s : State) (k : Cmd) : (s.setCmd k).clocks = s.clocks := rfl
@[simp] theorem State.setCmd_stamps (s : State) (k : Cmd) : (s.setCmd k).stamps = s.stamps := rfl
@[simp] theorem State.setCmd_win (s : State) (k : Cmd) : (s.setCmd k).win = s.win := rfl
@[simp] theorem State.setCmd_winFree (s : State) (k : Cmd) : (s.setCmd k).winFree = s.winFree := rfl
@[simp] theorem State.setCmd_tasks (s : State) (k : Cmd) : (s.setCmd k).tasks = s.tasks := rfl
@[simp] theorem State.setCmd_nextTid (s : State) (k : Cmd) : (s.setCmd k).nextTid = s.nextTid := rfl
@[simp] theorem State.setCmd_queues (s : State) (k : Cmd) : (s.setCmd k).queues = s.queues := rfl
@[simp] theorem State.setCmd_rotor (s : State) (k : Cmd) : (s.setCmd k).rotor = s.rotor := rfl
@[simp] theorem State.setCmd_graphs (s : State) (k : Cmd) : (s.setCmd k).graphs = s.graphs := rfl
@[simp] theorem State.setCmd_cmds (s : State) (k : Cmd) : (s.setCmd k).cmds = replaceIf s.cmds (·.id == k.id) k := rfl
@[simp] theorem State.setCmd_posts (s : State) (k : Cmd) : (s.setCmd k).posts = s.posts := rfl
@[simp] theorem State.setCmd_xfers (s : State) (k : Cmd) : (s.setCmd k).xfers = s.xfers := rfl
@[simp] theorem State.setCmd_notices (s : State) (k : Cmd) : (s.setCmd k).notices = s.notices := rfl
@[simp] theorem State.setCmd_arrived (s : State) (k : Cmd) : (s.setCmd k).arrived = s.arrived := rfl
@[simp] theorem State.setCmd_pulls (s : State) (k : Cmd) : (s.setCmd k).pulls = s.pulls := rfl
@[simp] theorem State.setCmd_flights (s : State) (k : Cmd) : (s.setCmd k).flights = s.flights := rfl
@[simp] theorem State.setCmd_replicas (s : State) (k : Cmd) : (s.setCmd k).replicas = s.replicas := rfl
@[simp] theorem State.setCmd_parked (s : State) (k : Cmd) : (s.setCmd k).parked = s.parked := rfl
@[simp] theorem State.setCmd_folded (s : State) (k : Cmd) : (s.setCmd k).folded = s.folded := rfl
@[simp] theorem State.setCmd_contribs (s : State) (k : Cmd) : (s.setCmd k).contribs = s.contribs := rfl
@[simp] theorem State.setCmd_answers (s : State) (k : Cmd) : (s.setCmd k).answers = s.answers := rfl
@[simp] theorem State.setCmd_outbox (s : State) (k : Cmd) : (s.setCmd k).outbox = s.outbox := rfl
@[simp] theorem State.setCmd_catb (s : State) (k : Cmd) : (s.setCmd k).catb = s.catb := rfl
@[simp] theorem State.setCmd_cat (s : State) (k : Cmd) : (s.setCmd k).cat = s.cat := rfl
@[simp] theorem State.setCmd_grpMem (s : State) (k : Cmd) : (s.setCmd k).grpMem = s.grpMem := rfl
@[simp] theorem State.setCmd_groups (s : State) (k : Cmd) : (s.setCmd k).groups = s.groups := rfl
@[simp] theorem State.setCmd_stageMin (s : State) (k : Cmd) : (s.setCmd k).stageMin = s.stageMin := rfl
@[simp] theorem State.setCmd_stageVia (s : State) (k : Cmd) : (s.setCmd k).stageVia = s.stageVia := rfl
@[simp] theorem State.setCmd_curMin (s : State) (k : Cmd) : (s.setCmd k).curMin = s.curMin := rfl
@[simp] theorem State.setCmd_curVia (s : State) (k : Cmd) : (s.setCmd k).curVia = s.curVia := rfl
@[simp] theorem State.setCmd_swp (s : State) (k : Cmd) : (s.setCmd k).swp = s.swp := rfl
@[simp] theorem State.setCmd_stg (s : State) (k : Cmd) : (s.setCmd k).stg = s.stg := rfl
@[simp] theorem State.setCmd_cur (s : State) (k : Cmd) : (s.setCmd k).cur = s.cur := rfl
@[simp] theorem State.setCmd_optical (s : State) (k : Cmd) : (s.setCmd k).optical = s.optical := rfl
@[simp] theorem State.setCmd_roots (s : State) (k : Cmd) : (s.setCmd k).roots = s.roots := rfl
@[simp] theorem State.setCmd_ptroot (s : State) (k : Cmd) : (s.setCmd k).ptroot = s.ptroot := rfl
@[simp] theorem State.setCmd_fltbase (s : State) (k : Cmd) : (s.setCmd k).fltbase = s.fltbase := rfl
@[simp] theorem State.setCmd_fltwr (s : State) (k : Cmd) : (s.setCmd k).fltwr = s.fltwr := rfl
@[simp] theorem State.setCmd_fltrd (s : State) (k : Cmd) : (s.setCmd k).fltrd = s.fltrd := rfl
@[simp] theorem State.setCmd_fltvec (s : State) (k : Cmd) : (s.setCmd k).fltvec = s.fltvec := rfl
@[simp] theorem State.setCmd_fltlost (s : State) (k : Cmd) : (s.setCmd k).fltlost = s.fltlost := rfl
@[simp] theorem State.setCmd_iclamp (s : State) (k : Cmd) : (s.setCmd k).iclamp = s.iclamp := rfl
@[simp] theorem State.setCmd_clockStep (s : State) (k : Cmd) : (s.setCmd k).clockStep = s.clockStep := rfl
@[simp] theorem State.setCmd_clamped (s : State) (k : Cmd) : (s.setCmd k).clamped = s.clamped := rfl
@[simp] theorem State.setCmd_bootst (s : State) (k : Cmd) : (s.setCmd k).bootst = s.bootst := rfl
@[simp] theorem State.setCmd_measure (s : State) (k : Cmd) : (s.setCmd k).measure = s.measure := rfl
@[simp] theorem State.setCmd_nonce (s : State) (k : Cmd) : (s.setCmd k).nonce = s.nonce := rfl
@[simp] theorem State.setCmd_report (s : State) (k : Cmd) : (s.setCmd k).report = s.report := rfl
@[simp] theorem State.setCmd_locked (s : State) (k : Cmd) : (s.setCmd k).locked = s.locked := rfl
@[simp] theorem State.setCmd_pcie (s : State) (k : Cmd) : (s.setCmd k).pcie = s.pcie := rfl
@[simp] theorem State.setCmd_softErr (s : State) (k : Cmd) : (s.setCmd k).softErr = s.softErr := rfl
@[simp] theorem State.setCmd_late (s : State) (k : Cmd) : (s.setCmd k).late = s.late := rfl
@[simp] theorem State.setCmd_frameAt (s : State) (k : Cmd) : (s.setCmd k).frameAt = s.frameAt := rfl
@[simp] theorem State.setCmd_part (s : State) (k : Cmd) : (s.setCmd k).part = s.part := rfl
@[simp] theorem State.setCmd_rotated (s : State) (k : Cmd) : (s.setCmd k).rotated = s.rotated := rfl
@[simp] theorem State.setCmd_gsqAt (s : State) (k : Cmd) : (s.setCmd k).gsqAt = s.gsqAt := rfl
@[simp] theorem State.setCmd_dues (s : State) (k : Cmd) : (s.setCmd k).dues = s.dues := rfl
@[simp] theorem State.setCmd_struck (s : State) (k : Cmd) : (s.setCmd k).struck = s.struck := rfl
@[simp] theorem State.setCmd_tlb (s : State) (k : Cmd) : (s.setCmd k).tlb = s.tlb := rfl
@[simp] theorem State.setCmd_resident (s : State) (k : Cmd) : (s.setCmd k).resident = s.resident := rfl
@[simp] theorem State.setCmd_ended (s : State) (k : Cmd) : (s.setCmd k).ended = s.ended := rfl
@[simp] theorem State.setCmd_refused (s : State) (k : Cmd) : (s.setCmd k).refused = s.refused := rfl
@[simp] theorem State.setCmd_departing (s : State) (k : Cmd) : (s.setCmd k).departing = s.departing := rfl
@[simp] theorem State.setCmd_hostbox (s : State) (k : Cmd) : (s.setCmd k).hostbox = s.hostbox := rfl
@[simp] theorem State.setCmd_roundsElsewhere (s : State) (k : Cmd) : (s.setCmd k).roundsElsewhere = s.roundsElsewhere := rfl
@[simp] theorem State.setCmd_requests (s : State) (k : Cmd) : (s.setCmd k).requests = s.requests := rfl

/-! ### State.setQueue -/

@[simp] theorem State.setQueue_agenda (s : State) (x : Queue) : (s.setQueue x).agenda = s.agenda := rfl
@[simp] theorem State.setQueue_turn (s : State) (x : Queue) : (s.setQueue x).turn = s.turn := rfl
@[simp] theorem State.setQueue_moved (s : State) (x : Queue) : (s.setQueue x).moved = s.moved := rfl
@[simp] theorem State.setQueue_mxTurn (s : State) (x : Queue) : (s.setQueue x).mxTurn = s.mxTurn := rfl
@[simp] theorem State.setQueue_fresh (s : State) (x : Queue) : (s.setQueue x).fresh = s.fresh := rfl
@[simp] theorem State.setQueue_nextId (s : State) (x : Queue) : (s.setQueue x).nextId = s.nextId := rfl
@[simp] theorem State.setQueue_cycle (s : State) (x : Queue) : (s.setQueue x).cycle = s.cycle := rfl
@[simp] theorem State.setQueue_frames (s : State) (x : Queue) : (s.setQueue x).frames = s.frames := rfl
@[simp] theorem State.setQueue_modId (s : State) (x : Queue) : (s.setQueue x).modId = s.modId := rfl
@[simp] theorem State.setQueue_mem (s : State) (x : Queue) : (s.setQueue x).mem = s.mem := rfl
@[simp] theorem State.setQueue_ecc (s : State) (x : Queue) : (s.setQueue x).ecc = s.ecc := rfl
@[simp] theorem State.setQueue_strands (s : State) (x : Queue) : (s.setQueue x).strands = s.strands := rfl
@[simp] theorem State.setQueue_ctxs (s : State) (x : Queue) : (s.setQueue x).ctxs = s.ctxs := rfl
@[simp] theorem State.setQueue_claims (s : State) (x : Queue) : (s.setQueue x).claims = s.claims := rfl
@[simp] theorem State.setQueue_tiles (s : State) (x : Queue) : (s.setQueue x).tiles = s.tiles := rfl
@[simp] theorem State.setQueue_dies (s : State) (x : Queue) : (s.setQueue x).dies = s.dies := rfl
@[simp] theorem State.setQueue_clocks (s : State) (x : Queue) : (s.setQueue x).clocks = s.clocks := rfl
@[simp] theorem State.setQueue_stamps (s : State) (x : Queue) : (s.setQueue x).stamps = s.stamps := rfl
@[simp] theorem State.setQueue_win (s : State) (x : Queue) : (s.setQueue x).win = s.win := rfl
@[simp] theorem State.setQueue_winFree (s : State) (x : Queue) : (s.setQueue x).winFree = s.winFree := rfl
@[simp] theorem State.setQueue_tasks (s : State) (x : Queue) : (s.setQueue x).tasks = s.tasks := rfl
@[simp] theorem State.setQueue_nextTid (s : State) (x : Queue) : (s.setQueue x).nextTid = s.nextTid := rfl
@[simp] theorem State.setQueue_rotor (s : State) (x : Queue) : (s.setQueue x).rotor = s.rotor := rfl
@[simp] theorem State.setQueue_graphs (s : State) (x : Queue) : (s.setQueue x).graphs = s.graphs := rfl
@[simp] theorem State.setQueue_cmds (s : State) (x : Queue) : (s.setQueue x).cmds = s.cmds := rfl
@[simp] theorem State.setQueue_posts (s : State) (x : Queue) : (s.setQueue x).posts = s.posts := rfl
@[simp] theorem State.setQueue_xfers (s : State) (x : Queue) : (s.setQueue x).xfers = s.xfers := rfl
@[simp] theorem State.setQueue_notices (s : State) (x : Queue) : (s.setQueue x).notices = s.notices := rfl
@[simp] theorem State.setQueue_arrived (s : State) (x : Queue) : (s.setQueue x).arrived = s.arrived := rfl
@[simp] theorem State.setQueue_pulls (s : State) (x : Queue) : (s.setQueue x).pulls = s.pulls := rfl
@[simp] theorem State.setQueue_flights (s : State) (x : Queue) : (s.setQueue x).flights = s.flights := rfl
@[simp] theorem State.setQueue_replicas (s : State) (x : Queue) : (s.setQueue x).replicas = s.replicas := rfl
@[simp] theorem State.setQueue_parked (s : State) (x : Queue) : (s.setQueue x).parked = s.parked := rfl
@[simp] theorem State.setQueue_folded (s : State) (x : Queue) : (s.setQueue x).folded = s.folded := rfl
@[simp] theorem State.setQueue_contribs (s : State) (x : Queue) : (s.setQueue x).contribs = s.contribs := rfl
@[simp] theorem State.setQueue_answers (s : State) (x : Queue) : (s.setQueue x).answers = s.answers := rfl
@[simp] theorem State.setQueue_outbox (s : State) (x : Queue) : (s.setQueue x).outbox = s.outbox := rfl
@[simp] theorem State.setQueue_catb (s : State) (x : Queue) : (s.setQueue x).catb = s.catb := rfl
@[simp] theorem State.setQueue_cat (s : State) (x : Queue) : (s.setQueue x).cat = s.cat := rfl
@[simp] theorem State.setQueue_grpMem (s : State) (x : Queue) : (s.setQueue x).grpMem = s.grpMem := rfl
@[simp] theorem State.setQueue_groups (s : State) (x : Queue) : (s.setQueue x).groups = s.groups := rfl
@[simp] theorem State.setQueue_stageMin (s : State) (x : Queue) : (s.setQueue x).stageMin = s.stageMin := rfl
@[simp] theorem State.setQueue_stageVia (s : State) (x : Queue) : (s.setQueue x).stageVia = s.stageVia := rfl
@[simp] theorem State.setQueue_curMin (s : State) (x : Queue) : (s.setQueue x).curMin = s.curMin := rfl
@[simp] theorem State.setQueue_curVia (s : State) (x : Queue) : (s.setQueue x).curVia = s.curVia := rfl
@[simp] theorem State.setQueue_swp (s : State) (x : Queue) : (s.setQueue x).swp = s.swp := rfl
@[simp] theorem State.setQueue_stg (s : State) (x : Queue) : (s.setQueue x).stg = s.stg := rfl
@[simp] theorem State.setQueue_cur (s : State) (x : Queue) : (s.setQueue x).cur = s.cur := rfl
@[simp] theorem State.setQueue_optical (s : State) (x : Queue) : (s.setQueue x).optical = s.optical := rfl
@[simp] theorem State.setQueue_roots (s : State) (x : Queue) : (s.setQueue x).roots = s.roots := rfl
@[simp] theorem State.setQueue_ptroot (s : State) (x : Queue) : (s.setQueue x).ptroot = s.ptroot := rfl
@[simp] theorem State.setQueue_fltbase (s : State) (x : Queue) : (s.setQueue x).fltbase = s.fltbase := rfl
@[simp] theorem State.setQueue_fltwr (s : State) (x : Queue) : (s.setQueue x).fltwr = s.fltwr := rfl
@[simp] theorem State.setQueue_fltrd (s : State) (x : Queue) : (s.setQueue x).fltrd = s.fltrd := rfl
@[simp] theorem State.setQueue_fltvec (s : State) (x : Queue) : (s.setQueue x).fltvec = s.fltvec := rfl
@[simp] theorem State.setQueue_fltlost (s : State) (x : Queue) : (s.setQueue x).fltlost = s.fltlost := rfl
@[simp] theorem State.setQueue_iclamp (s : State) (x : Queue) : (s.setQueue x).iclamp = s.iclamp := rfl
@[simp] theorem State.setQueue_clockStep (s : State) (x : Queue) : (s.setQueue x).clockStep = s.clockStep := rfl
@[simp] theorem State.setQueue_clamped (s : State) (x : Queue) : (s.setQueue x).clamped = s.clamped := rfl
@[simp] theorem State.setQueue_bootst (s : State) (x : Queue) : (s.setQueue x).bootst = s.bootst := rfl
@[simp] theorem State.setQueue_measure (s : State) (x : Queue) : (s.setQueue x).measure = s.measure := rfl
@[simp] theorem State.setQueue_nonce (s : State) (x : Queue) : (s.setQueue x).nonce = s.nonce := rfl
@[simp] theorem State.setQueue_report (s : State) (x : Queue) : (s.setQueue x).report = s.report := rfl
@[simp] theorem State.setQueue_locked (s : State) (x : Queue) : (s.setQueue x).locked = s.locked := rfl
@[simp] theorem State.setQueue_pcie (s : State) (x : Queue) : (s.setQueue x).pcie = s.pcie := rfl
@[simp] theorem State.setQueue_softErr (s : State) (x : Queue) : (s.setQueue x).softErr = s.softErr := rfl
@[simp] theorem State.setQueue_late (s : State) (x : Queue) : (s.setQueue x).late = s.late := rfl
@[simp] theorem State.setQueue_frameAt (s : State) (x : Queue) : (s.setQueue x).frameAt = s.frameAt := rfl
@[simp] theorem State.setQueue_part (s : State) (x : Queue) : (s.setQueue x).part = s.part := rfl
@[simp] theorem State.setQueue_rotated (s : State) (x : Queue) : (s.setQueue x).rotated = s.rotated := rfl
@[simp] theorem State.setQueue_gsqAt (s : State) (x : Queue) : (s.setQueue x).gsqAt = s.gsqAt := rfl
@[simp] theorem State.setQueue_dues (s : State) (x : Queue) : (s.setQueue x).dues = s.dues := rfl
@[simp] theorem State.setQueue_struck (s : State) (x : Queue) : (s.setQueue x).struck = s.struck := rfl
@[simp] theorem State.setQueue_tlb (s : State) (x : Queue) : (s.setQueue x).tlb = s.tlb := rfl
@[simp] theorem State.setQueue_resident (s : State) (x : Queue) : (s.setQueue x).resident = s.resident := rfl
@[simp] theorem State.setQueue_ended (s : State) (x : Queue) : (s.setQueue x).ended = s.ended := rfl
@[simp] theorem State.setQueue_refused (s : State) (x : Queue) : (s.setQueue x).refused = s.refused := rfl
@[simp] theorem State.setQueue_departing (s : State) (x : Queue) : (s.setQueue x).departing = s.departing := rfl
@[simp] theorem State.setQueue_hostbox (s : State) (x : Queue) : (s.setQueue x).hostbox = s.hostbox := rfl
@[simp] theorem State.setQueue_roundsElsewhere (s : State) (x : Queue) : (s.setQueue x).roundsElsewhere = s.roundsElsewhere := rfl
@[simp] theorem State.setQueue_requests (s : State) (x : Queue) : (s.setQueue x).requests = s.requests := rfl

/-! ### State.setGraph -/

@[simp] theorem State.setGraph_agenda (s : State) (g : Nat) (x : Graph) : (s.setGraph g x).agenda = s.agenda := rfl
@[simp] theorem State.setGraph_turn (s : State) (g : Nat) (x : Graph) : (s.setGraph g x).turn = s.turn := rfl
@[simp] theorem State.setGraph_moved (s : State) (g : Nat) (x : Graph) : (s.setGraph g x).moved = s.moved := rfl
@[simp] theorem State.setGraph_mxTurn (s : State) (g : Nat) (x : Graph) : (s.setGraph g x).mxTurn = s.mxTurn := rfl
@[simp] theorem State.setGraph_fresh (s : State) (g : Nat) (x : Graph) : (s.setGraph g x).fresh = s.fresh := rfl
@[simp] theorem State.setGraph_nextId (s : State) (g : Nat) (x : Graph) : (s.setGraph g x).nextId = s.nextId := rfl
@[simp] theorem State.setGraph_cycle (s : State) (g : Nat) (x : Graph) : (s.setGraph g x).cycle = s.cycle := rfl
@[simp] theorem State.setGraph_frames (s : State) (g : Nat) (x : Graph) : (s.setGraph g x).frames = s.frames := rfl
@[simp] theorem State.setGraph_modId (s : State) (g : Nat) (x : Graph) : (s.setGraph g x).modId = s.modId := rfl
@[simp] theorem State.setGraph_mem (s : State) (g : Nat) (x : Graph) : (s.setGraph g x).mem = s.mem := rfl
@[simp] theorem State.setGraph_ecc (s : State) (g : Nat) (x : Graph) : (s.setGraph g x).ecc = s.ecc := rfl
@[simp] theorem State.setGraph_strands (s : State) (g : Nat) (x : Graph) : (s.setGraph g x).strands = s.strands := rfl
@[simp] theorem State.setGraph_ctxs (s : State) (g : Nat) (x : Graph) : (s.setGraph g x).ctxs = s.ctxs := rfl
@[simp] theorem State.setGraph_claims (s : State) (g : Nat) (x : Graph) : (s.setGraph g x).claims = s.claims := rfl
@[simp] theorem State.setGraph_tiles (s : State) (g : Nat) (x : Graph) : (s.setGraph g x).tiles = s.tiles := rfl
@[simp] theorem State.setGraph_dies (s : State) (g : Nat) (x : Graph) : (s.setGraph g x).dies = s.dies := rfl
@[simp] theorem State.setGraph_clocks (s : State) (g : Nat) (x : Graph) : (s.setGraph g x).clocks = s.clocks := rfl
@[simp] theorem State.setGraph_stamps (s : State) (g : Nat) (x : Graph) : (s.setGraph g x).stamps = s.stamps := rfl
@[simp] theorem State.setGraph_win (s : State) (g : Nat) (x : Graph) : (s.setGraph g x).win = s.win := rfl
@[simp] theorem State.setGraph_winFree (s : State) (g : Nat) (x : Graph) : (s.setGraph g x).winFree = s.winFree := rfl
@[simp] theorem State.setGraph_tasks (s : State) (g : Nat) (x : Graph) : (s.setGraph g x).tasks = s.tasks := rfl
@[simp] theorem State.setGraph_nextTid (s : State) (g : Nat) (x : Graph) : (s.setGraph g x).nextTid = s.nextTid := rfl
@[simp] theorem State.setGraph_queues (s : State) (g : Nat) (x : Graph) : (s.setGraph g x).queues = s.queues := rfl
@[simp] theorem State.setGraph_rotor (s : State) (g : Nat) (x : Graph) : (s.setGraph g x).rotor = s.rotor := rfl
@[simp] theorem State.setGraph_graphs (s : State) (g : Nat) (x : Graph) : (s.setGraph g x).graphs = vset s.graphs g x := rfl
@[simp] theorem State.setGraph_cmds (s : State) (g : Nat) (x : Graph) : (s.setGraph g x).cmds = s.cmds := rfl
@[simp] theorem State.setGraph_posts (s : State) (g : Nat) (x : Graph) : (s.setGraph g x).posts = s.posts := rfl
@[simp] theorem State.setGraph_xfers (s : State) (g : Nat) (x : Graph) : (s.setGraph g x).xfers = s.xfers := rfl
@[simp] theorem State.setGraph_notices (s : State) (g : Nat) (x : Graph) : (s.setGraph g x).notices = s.notices := rfl
@[simp] theorem State.setGraph_arrived (s : State) (g : Nat) (x : Graph) : (s.setGraph g x).arrived = s.arrived := rfl
@[simp] theorem State.setGraph_pulls (s : State) (g : Nat) (x : Graph) : (s.setGraph g x).pulls = s.pulls := rfl
@[simp] theorem State.setGraph_flights (s : State) (g : Nat) (x : Graph) : (s.setGraph g x).flights = s.flights := rfl
@[simp] theorem State.setGraph_replicas (s : State) (g : Nat) (x : Graph) : (s.setGraph g x).replicas = s.replicas := rfl
@[simp] theorem State.setGraph_parked (s : State) (g : Nat) (x : Graph) : (s.setGraph g x).parked = s.parked := rfl
@[simp] theorem State.setGraph_folded (s : State) (g : Nat) (x : Graph) : (s.setGraph g x).folded = s.folded := rfl
@[simp] theorem State.setGraph_contribs (s : State) (g : Nat) (x : Graph) : (s.setGraph g x).contribs = s.contribs := rfl
@[simp] theorem State.setGraph_answers (s : State) (g : Nat) (x : Graph) : (s.setGraph g x).answers = s.answers := rfl
@[simp] theorem State.setGraph_outbox (s : State) (g : Nat) (x : Graph) : (s.setGraph g x).outbox = s.outbox := rfl
@[simp] theorem State.setGraph_catb (s : State) (g : Nat) (x : Graph) : (s.setGraph g x).catb = s.catb := rfl
@[simp] theorem State.setGraph_cat (s : State) (g : Nat) (x : Graph) : (s.setGraph g x).cat = s.cat := rfl
@[simp] theorem State.setGraph_grpMem (s : State) (g : Nat) (x : Graph) : (s.setGraph g x).grpMem = s.grpMem := rfl
@[simp] theorem State.setGraph_groups (s : State) (g : Nat) (x : Graph) : (s.setGraph g x).groups = s.groups := rfl
@[simp] theorem State.setGraph_stageMin (s : State) (g : Nat) (x : Graph) : (s.setGraph g x).stageMin = s.stageMin := rfl
@[simp] theorem State.setGraph_stageVia (s : State) (g : Nat) (x : Graph) : (s.setGraph g x).stageVia = s.stageVia := rfl
@[simp] theorem State.setGraph_curMin (s : State) (g : Nat) (x : Graph) : (s.setGraph g x).curMin = s.curMin := rfl
@[simp] theorem State.setGraph_curVia (s : State) (g : Nat) (x : Graph) : (s.setGraph g x).curVia = s.curVia := rfl
@[simp] theorem State.setGraph_swp (s : State) (g : Nat) (x : Graph) : (s.setGraph g x).swp = s.swp := rfl
@[simp] theorem State.setGraph_stg (s : State) (g : Nat) (x : Graph) : (s.setGraph g x).stg = s.stg := rfl
@[simp] theorem State.setGraph_cur (s : State) (g : Nat) (x : Graph) : (s.setGraph g x).cur = s.cur := rfl
@[simp] theorem State.setGraph_optical (s : State) (g : Nat) (x : Graph) : (s.setGraph g x).optical = s.optical := rfl
@[simp] theorem State.setGraph_roots (s : State) (g : Nat) (x : Graph) : (s.setGraph g x).roots = s.roots := rfl
@[simp] theorem State.setGraph_ptroot (s : State) (g : Nat) (x : Graph) : (s.setGraph g x).ptroot = s.ptroot := rfl
@[simp] theorem State.setGraph_fltbase (s : State) (g : Nat) (x : Graph) : (s.setGraph g x).fltbase = s.fltbase := rfl
@[simp] theorem State.setGraph_fltwr (s : State) (g : Nat) (x : Graph) : (s.setGraph g x).fltwr = s.fltwr := rfl
@[simp] theorem State.setGraph_fltrd (s : State) (g : Nat) (x : Graph) : (s.setGraph g x).fltrd = s.fltrd := rfl
@[simp] theorem State.setGraph_fltvec (s : State) (g : Nat) (x : Graph) : (s.setGraph g x).fltvec = s.fltvec := rfl
@[simp] theorem State.setGraph_fltlost (s : State) (g : Nat) (x : Graph) : (s.setGraph g x).fltlost = s.fltlost := rfl
@[simp] theorem State.setGraph_iclamp (s : State) (g : Nat) (x : Graph) : (s.setGraph g x).iclamp = s.iclamp := rfl
@[simp] theorem State.setGraph_clockStep (s : State) (g : Nat) (x : Graph) : (s.setGraph g x).clockStep = s.clockStep := rfl
@[simp] theorem State.setGraph_clamped (s : State) (g : Nat) (x : Graph) : (s.setGraph g x).clamped = s.clamped := rfl
@[simp] theorem State.setGraph_bootst (s : State) (g : Nat) (x : Graph) : (s.setGraph g x).bootst = s.bootst := rfl
@[simp] theorem State.setGraph_measure (s : State) (g : Nat) (x : Graph) : (s.setGraph g x).measure = s.measure := rfl
@[simp] theorem State.setGraph_nonce (s : State) (g : Nat) (x : Graph) : (s.setGraph g x).nonce = s.nonce := rfl
@[simp] theorem State.setGraph_report (s : State) (g : Nat) (x : Graph) : (s.setGraph g x).report = s.report := rfl
@[simp] theorem State.setGraph_locked (s : State) (g : Nat) (x : Graph) : (s.setGraph g x).locked = s.locked := rfl
@[simp] theorem State.setGraph_pcie (s : State) (g : Nat) (x : Graph) : (s.setGraph g x).pcie = s.pcie := rfl
@[simp] theorem State.setGraph_softErr (s : State) (g : Nat) (x : Graph) : (s.setGraph g x).softErr = s.softErr := rfl
@[simp] theorem State.setGraph_late (s : State) (g : Nat) (x : Graph) : (s.setGraph g x).late = s.late := rfl
@[simp] theorem State.setGraph_frameAt (s : State) (g : Nat) (x : Graph) : (s.setGraph g x).frameAt = s.frameAt := rfl
@[simp] theorem State.setGraph_part (s : State) (g : Nat) (x : Graph) : (s.setGraph g x).part = s.part := rfl
@[simp] theorem State.setGraph_rotated (s : State) (g : Nat) (x : Graph) : (s.setGraph g x).rotated = s.rotated := rfl
@[simp] theorem State.setGraph_gsqAt (s : State) (g : Nat) (x : Graph) : (s.setGraph g x).gsqAt = s.gsqAt := rfl
@[simp] theorem State.setGraph_dues (s : State) (g : Nat) (x : Graph) : (s.setGraph g x).dues = s.dues := rfl
@[simp] theorem State.setGraph_struck (s : State) (g : Nat) (x : Graph) : (s.setGraph g x).struck = s.struck := rfl
@[simp] theorem State.setGraph_tlb (s : State) (g : Nat) (x : Graph) : (s.setGraph g x).tlb = s.tlb := rfl
@[simp] theorem State.setGraph_resident (s : State) (g : Nat) (x : Graph) : (s.setGraph g x).resident = s.resident := rfl
@[simp] theorem State.setGraph_ended (s : State) (g : Nat) (x : Graph) : (s.setGraph g x).ended = s.ended := rfl
@[simp] theorem State.setGraph_refused (s : State) (g : Nat) (x : Graph) : (s.setGraph g x).refused = s.refused := rfl
@[simp] theorem State.setGraph_departing (s : State) (g : Nat) (x : Graph) : (s.setGraph g x).departing = s.departing := rfl
@[simp] theorem State.setGraph_hostbox (s : State) (g : Nat) (x : Graph) : (s.setGraph g x).hostbox = s.hostbox := rfl
@[simp] theorem State.setGraph_roundsElsewhere (s : State) (g : Nat) (x : Graph) : (s.setGraph g x).roundsElsewhere = s.roundsElsewhere := rfl
@[simp] theorem State.setGraph_requests (s : State) (g : Nat) (x : Graph) : (s.setGraph g x).requests = s.requests := rfl

/-! ### State.write -/

@[simp] theorem State.write_agenda (s : State) (k : Nat) (bs : List Byte) : (s.write k bs).agenda = s.agenda := rfl
@[simp] theorem State.write_turn (s : State) (k : Nat) (bs : List Byte) : (s.write k bs).turn = s.turn := rfl
@[simp] theorem State.write_moved (s : State) (k : Nat) (bs : List Byte) : (s.write k bs).moved = s.moved := rfl
@[simp] theorem State.write_mxTurn (s : State) (k : Nat) (bs : List Byte) : (s.write k bs).mxTurn = s.mxTurn := rfl
@[simp] theorem State.write_fresh (s : State) (k : Nat) (bs : List Byte) : (s.write k bs).fresh = s.fresh := rfl
@[simp] theorem State.write_nextId (s : State) (k : Nat) (bs : List Byte) : (s.write k bs).nextId = s.nextId := rfl
@[simp] theorem State.write_cycle (s : State) (k : Nat) (bs : List Byte) : (s.write k bs).cycle = s.cycle := rfl
@[simp] theorem State.write_frames (s : State) (k : Nat) (bs : List Byte) : (s.write k bs).frames = s.frames := rfl
@[simp] theorem State.write_modId (s : State) (k : Nat) (bs : List Byte) : (s.write k bs).modId = s.modId := rfl
@[simp] theorem State.write_mem (s : State) (k : Nat) (bs : List Byte) : (s.write k bs).mem = Memory.write s.mem k bs := rfl
@[simp] theorem State.write_strands (s : State) (k : Nat) (bs : List Byte) : (s.write k bs).strands = s.strands := rfl
@[simp] theorem State.write_ctxs (s : State) (k : Nat) (bs : List Byte) : (s.write k bs).ctxs = s.ctxs := rfl
@[simp] theorem State.write_claims (s : State) (k : Nat) (bs : List Byte) : (s.write k bs).claims = s.claims := rfl
@[simp] theorem State.write_tiles (s : State) (k : Nat) (bs : List Byte) : (s.write k bs).tiles = s.tiles := rfl
@[simp] theorem State.write_dies (s : State) (k : Nat) (bs : List Byte) : (s.write k bs).dies = s.dies := rfl
@[simp] theorem State.write_clocks (s : State) (k : Nat) (bs : List Byte) : (s.write k bs).clocks = s.clocks := rfl
@[simp] theorem State.write_stamps (s : State) (k : Nat) (bs : List Byte) : (s.write k bs).stamps = s.stamps := rfl
@[simp] theorem State.write_win (s : State) (k : Nat) (bs : List Byte) : (s.write k bs).win = s.win := rfl
@[simp] theorem State.write_winFree (s : State) (k : Nat) (bs : List Byte) : (s.write k bs).winFree = s.winFree := rfl
@[simp] theorem State.write_tasks (s : State) (k : Nat) (bs : List Byte) : (s.write k bs).tasks = s.tasks := rfl
@[simp] theorem State.write_nextTid (s : State) (k : Nat) (bs : List Byte) : (s.write k bs).nextTid = s.nextTid := rfl
@[simp] theorem State.write_queues (s : State) (k : Nat) (bs : List Byte) : (s.write k bs).queues = s.queues := rfl
@[simp] theorem State.write_rotor (s : State) (k : Nat) (bs : List Byte) : (s.write k bs).rotor = s.rotor := rfl
@[simp] theorem State.write_graphs (s : State) (k : Nat) (bs : List Byte) : (s.write k bs).graphs = s.graphs := rfl
@[simp] theorem State.write_cmds (s : State) (k : Nat) (bs : List Byte) : (s.write k bs).cmds = s.cmds := rfl
@[simp] theorem State.write_posts (s : State) (k : Nat) (bs : List Byte) : (s.write k bs).posts = s.posts := rfl
@[simp] theorem State.write_xfers (s : State) (k : Nat) (bs : List Byte) : (s.write k bs).xfers = s.xfers := rfl
@[simp] theorem State.write_notices (s : State) (k : Nat) (bs : List Byte) : (s.write k bs).notices = s.notices := rfl
@[simp] theorem State.write_arrived (s : State) (k : Nat) (bs : List Byte) : (s.write k bs).arrived = s.arrived := rfl
@[simp] theorem State.write_pulls (s : State) (k : Nat) (bs : List Byte) : (s.write k bs).pulls = s.pulls := rfl
@[simp] theorem State.write_flights (s : State) (k : Nat) (bs : List Byte) : (s.write k bs).flights = s.flights := rfl
@[simp] theorem State.write_replicas (s : State) (k : Nat) (bs : List Byte) : (s.write k bs).replicas = s.replicas := rfl
@[simp] theorem State.write_parked (s : State) (k : Nat) (bs : List Byte) : (s.write k bs).parked = s.parked := rfl
@[simp] theorem State.write_folded (s : State) (k : Nat) (bs : List Byte) : (s.write k bs).folded = s.folded := rfl
@[simp] theorem State.write_contribs (s : State) (k : Nat) (bs : List Byte) : (s.write k bs).contribs = s.contribs := rfl
@[simp] theorem State.write_answers (s : State) (k : Nat) (bs : List Byte) : (s.write k bs).answers = s.answers := rfl
@[simp] theorem State.write_outbox (s : State) (k : Nat) (bs : List Byte) : (s.write k bs).outbox = s.outbox := rfl
@[simp] theorem State.write_catb (s : State) (k : Nat) (bs : List Byte) : (s.write k bs).catb = s.catb := rfl
@[simp] theorem State.write_cat (s : State) (k : Nat) (bs : List Byte) : (s.write k bs).cat = s.cat := rfl
@[simp] theorem State.write_grpMem (s : State) (k : Nat) (bs : List Byte) : (s.write k bs).grpMem = s.grpMem := rfl
@[simp] theorem State.write_groups (s : State) (k : Nat) (bs : List Byte) : (s.write k bs).groups = s.groups := rfl
@[simp] theorem State.write_stageMin (s : State) (k : Nat) (bs : List Byte) : (s.write k bs).stageMin = s.stageMin := rfl
@[simp] theorem State.write_stageVia (s : State) (k : Nat) (bs : List Byte) : (s.write k bs).stageVia = s.stageVia := rfl
@[simp] theorem State.write_curMin (s : State) (k : Nat) (bs : List Byte) : (s.write k bs).curMin = s.curMin := rfl
@[simp] theorem State.write_curVia (s : State) (k : Nat) (bs : List Byte) : (s.write k bs).curVia = s.curVia := rfl
@[simp] theorem State.write_swp (s : State) (k : Nat) (bs : List Byte) : (s.write k bs).swp = s.swp := rfl
@[simp] theorem State.write_stg (s : State) (k : Nat) (bs : List Byte) : (s.write k bs).stg = s.stg := rfl
@[simp] theorem State.write_cur (s : State) (k : Nat) (bs : List Byte) : (s.write k bs).cur = s.cur := rfl
@[simp] theorem State.write_optical (s : State) (k : Nat) (bs : List Byte) : (s.write k bs).optical = s.optical := rfl
@[simp] theorem State.write_roots (s : State) (k : Nat) (bs : List Byte) : (s.write k bs).roots = s.roots := rfl
@[simp] theorem State.write_ptroot (s : State) (k : Nat) (bs : List Byte) : (s.write k bs).ptroot = s.ptroot := rfl
@[simp] theorem State.write_fltbase (s : State) (k : Nat) (bs : List Byte) : (s.write k bs).fltbase = s.fltbase := rfl
@[simp] theorem State.write_fltwr (s : State) (k : Nat) (bs : List Byte) : (s.write k bs).fltwr = s.fltwr := rfl
@[simp] theorem State.write_fltrd (s : State) (k : Nat) (bs : List Byte) : (s.write k bs).fltrd = s.fltrd := rfl
@[simp] theorem State.write_fltvec (s : State) (k : Nat) (bs : List Byte) : (s.write k bs).fltvec = s.fltvec := rfl
@[simp] theorem State.write_fltlost (s : State) (k : Nat) (bs : List Byte) : (s.write k bs).fltlost = s.fltlost := rfl
@[simp] theorem State.write_iclamp (s : State) (k : Nat) (bs : List Byte) : (s.write k bs).iclamp = s.iclamp := rfl
@[simp] theorem State.write_clockStep (s : State) (k : Nat) (bs : List Byte) : (s.write k bs).clockStep = s.clockStep := rfl
@[simp] theorem State.write_clamped (s : State) (k : Nat) (bs : List Byte) : (s.write k bs).clamped = s.clamped := rfl
@[simp] theorem State.write_bootst (s : State) (k : Nat) (bs : List Byte) : (s.write k bs).bootst = s.bootst := rfl
@[simp] theorem State.write_measure (s : State) (k : Nat) (bs : List Byte) : (s.write k bs).measure = s.measure := rfl
@[simp] theorem State.write_nonce (s : State) (k : Nat) (bs : List Byte) : (s.write k bs).nonce = s.nonce := rfl
@[simp] theorem State.write_report (s : State) (k : Nat) (bs : List Byte) : (s.write k bs).report = s.report := rfl
@[simp] theorem State.write_locked (s : State) (k : Nat) (bs : List Byte) : (s.write k bs).locked = s.locked := rfl
@[simp] theorem State.write_pcie (s : State) (k : Nat) (bs : List Byte) : (s.write k bs).pcie = s.pcie := rfl
@[simp] theorem State.write_softErr (s : State) (k : Nat) (bs : List Byte) : (s.write k bs).softErr = s.softErr := rfl
@[simp] theorem State.write_late (s : State) (k : Nat) (bs : List Byte) : (s.write k bs).late = s.late := rfl
@[simp] theorem State.write_frameAt (s : State) (k : Nat) (bs : List Byte) : (s.write k bs).frameAt = s.frameAt := rfl
@[simp] theorem State.write_part (s : State) (k : Nat) (bs : List Byte) : (s.write k bs).part = s.part := rfl
@[simp] theorem State.write_rotated (s : State) (k : Nat) (bs : List Byte) : (s.write k bs).rotated = s.rotated := rfl
@[simp] theorem State.write_gsqAt (s : State) (k : Nat) (bs : List Byte) : (s.write k bs).gsqAt = s.gsqAt := rfl
@[simp] theorem State.write_dues (s : State) (k : Nat) (bs : List Byte) : (s.write k bs).dues = s.dues := rfl
@[simp] theorem State.write_struck (s : State) (k : Nat) (bs : List Byte) : (s.write k bs).struck = s.struck := rfl
@[simp] theorem State.write_tlb (s : State) (k : Nat) (bs : List Byte) : (s.write k bs).tlb = s.tlb := rfl
@[simp] theorem State.write_resident (s : State) (k : Nat) (bs : List Byte) : (s.write k bs).resident = s.resident := rfl
@[simp] theorem State.write_ended (s : State) (k : Nat) (bs : List Byte) : (s.write k bs).ended = s.ended := rfl
@[simp] theorem State.write_refused (s : State) (k : Nat) (bs : List Byte) : (s.write k bs).refused = s.refused := rfl
@[simp] theorem State.write_departing (s : State) (k : Nat) (bs : List Byte) : (s.write k bs).departing = s.departing := rfl
@[simp] theorem State.write_hostbox (s : State) (k : Nat) (bs : List Byte) : (s.write k bs).hostbox = s.hostbox := rfl
@[simp] theorem State.write_roundsElsewhere (s : State) (k : Nat) (bs : List Byte) : (s.write k bs).roundsElsewhere = s.roundsElsewhere := rfl
@[simp] theorem State.write_requests (s : State) (k : Nat) (bs : List Byte) : (s.write k bs).requests = s.requests := rfl

/-! ### State.marked -/

@[simp] theorem State.marked_agenda (s : State) : (s.marked).agenda = s.agenda := rfl
@[simp] theorem State.marked_turn (s : State) : (s.marked).turn = s.turn := rfl
@[simp] theorem State.marked_moved (s : State) : (s.marked).moved = true := rfl
@[simp] theorem State.marked_mxTurn (s : State) : (s.marked).mxTurn = s.mxTurn := rfl
@[simp] theorem State.marked_fresh (s : State) : (s.marked).fresh = s.fresh := rfl
@[simp] theorem State.marked_nextId (s : State) : (s.marked).nextId = s.nextId := rfl
@[simp] theorem State.marked_cycle (s : State) : (s.marked).cycle = s.cycle := rfl
@[simp] theorem State.marked_frames (s : State) : (s.marked).frames = s.frames := rfl
@[simp] theorem State.marked_modId (s : State) : (s.marked).modId = s.modId := rfl
@[simp] theorem State.marked_mem (s : State) : (s.marked).mem = s.mem := rfl
@[simp] theorem State.marked_ecc (s : State) : (s.marked).ecc = s.ecc := rfl
@[simp] theorem State.marked_strands (s : State) : (s.marked).strands = s.strands := rfl
@[simp] theorem State.marked_ctxs (s : State) : (s.marked).ctxs = s.ctxs := rfl
@[simp] theorem State.marked_claims (s : State) : (s.marked).claims = s.claims := rfl
@[simp] theorem State.marked_tiles (s : State) : (s.marked).tiles = s.tiles := rfl
@[simp] theorem State.marked_dies (s : State) : (s.marked).dies = s.dies := rfl
@[simp] theorem State.marked_clocks (s : State) : (s.marked).clocks = s.clocks := rfl
@[simp] theorem State.marked_stamps (s : State) : (s.marked).stamps = s.stamps := rfl
@[simp] theorem State.marked_win (s : State) : (s.marked).win = s.win := rfl
@[simp] theorem State.marked_winFree (s : State) : (s.marked).winFree = s.winFree := rfl
@[simp] theorem State.marked_tasks (s : State) : (s.marked).tasks = s.tasks := rfl
@[simp] theorem State.marked_nextTid (s : State) : (s.marked).nextTid = s.nextTid := rfl
@[simp] theorem State.marked_queues (s : State) : (s.marked).queues = s.queues := rfl
@[simp] theorem State.marked_rotor (s : State) : (s.marked).rotor = s.rotor := rfl
@[simp] theorem State.marked_graphs (s : State) : (s.marked).graphs = s.graphs := rfl
@[simp] theorem State.marked_cmds (s : State) : (s.marked).cmds = s.cmds := rfl
@[simp] theorem State.marked_posts (s : State) : (s.marked).posts = s.posts := rfl
@[simp] theorem State.marked_xfers (s : State) : (s.marked).xfers = s.xfers := rfl
@[simp] theorem State.marked_notices (s : State) : (s.marked).notices = s.notices := rfl
@[simp] theorem State.marked_arrived (s : State) : (s.marked).arrived = s.arrived := rfl
@[simp] theorem State.marked_pulls (s : State) : (s.marked).pulls = s.pulls := rfl
@[simp] theorem State.marked_flights (s : State) : (s.marked).flights = s.flights := rfl
@[simp] theorem State.marked_replicas (s : State) : (s.marked).replicas = s.replicas := rfl
@[simp] theorem State.marked_parked (s : State) : (s.marked).parked = s.parked := rfl
@[simp] theorem State.marked_folded (s : State) : (s.marked).folded = s.folded := rfl
@[simp] theorem State.marked_contribs (s : State) : (s.marked).contribs = s.contribs := rfl
@[simp] theorem State.marked_answers (s : State) : (s.marked).answers = s.answers := rfl
@[simp] theorem State.marked_outbox (s : State) : (s.marked).outbox = s.outbox := rfl
@[simp] theorem State.marked_catb (s : State) : (s.marked).catb = s.catb := rfl
@[simp] theorem State.marked_cat (s : State) : (s.marked).cat = s.cat := rfl
@[simp] theorem State.marked_grpMem (s : State) : (s.marked).grpMem = s.grpMem := rfl
@[simp] theorem State.marked_groups (s : State) : (s.marked).groups = s.groups := rfl
@[simp] theorem State.marked_stageMin (s : State) : (s.marked).stageMin = s.stageMin := rfl
@[simp] theorem State.marked_stageVia (s : State) : (s.marked).stageVia = s.stageVia := rfl
@[simp] theorem State.marked_curMin (s : State) : (s.marked).curMin = s.curMin := rfl
@[simp] theorem State.marked_curVia (s : State) : (s.marked).curVia = s.curVia := rfl
@[simp] theorem State.marked_swp (s : State) : (s.marked).swp = s.swp := rfl
@[simp] theorem State.marked_stg (s : State) : (s.marked).stg = s.stg := rfl
@[simp] theorem State.marked_cur (s : State) : (s.marked).cur = s.cur := rfl
@[simp] theorem State.marked_optical (s : State) : (s.marked).optical = s.optical := rfl
@[simp] theorem State.marked_roots (s : State) : (s.marked).roots = s.roots := rfl
@[simp] theorem State.marked_ptroot (s : State) : (s.marked).ptroot = s.ptroot := rfl
@[simp] theorem State.marked_fltbase (s : State) : (s.marked).fltbase = s.fltbase := rfl
@[simp] theorem State.marked_fltwr (s : State) : (s.marked).fltwr = s.fltwr := rfl
@[simp] theorem State.marked_fltrd (s : State) : (s.marked).fltrd = s.fltrd := rfl
@[simp] theorem State.marked_fltvec (s : State) : (s.marked).fltvec = s.fltvec := rfl
@[simp] theorem State.marked_fltlost (s : State) : (s.marked).fltlost = s.fltlost := rfl
@[simp] theorem State.marked_iclamp (s : State) : (s.marked).iclamp = s.iclamp := rfl
@[simp] theorem State.marked_clockStep (s : State) : (s.marked).clockStep = s.clockStep := rfl
@[simp] theorem State.marked_clamped (s : State) : (s.marked).clamped = s.clamped := rfl
@[simp] theorem State.marked_bootst (s : State) : (s.marked).bootst = s.bootst := rfl
@[simp] theorem State.marked_measure (s : State) : (s.marked).measure = s.measure := rfl
@[simp] theorem State.marked_nonce (s : State) : (s.marked).nonce = s.nonce := rfl
@[simp] theorem State.marked_report (s : State) : (s.marked).report = s.report := rfl
@[simp] theorem State.marked_locked (s : State) : (s.marked).locked = s.locked := rfl
@[simp] theorem State.marked_pcie (s : State) : (s.marked).pcie = s.pcie := rfl
@[simp] theorem State.marked_softErr (s : State) : (s.marked).softErr = s.softErr := rfl
@[simp] theorem State.marked_late (s : State) : (s.marked).late = s.late := rfl
@[simp] theorem State.marked_frameAt (s : State) : (s.marked).frameAt = s.frameAt := rfl
@[simp] theorem State.marked_part (s : State) : (s.marked).part = s.part := rfl
@[simp] theorem State.marked_rotated (s : State) : (s.marked).rotated = s.rotated := rfl
@[simp] theorem State.marked_gsqAt (s : State) : (s.marked).gsqAt = s.gsqAt := rfl
@[simp] theorem State.marked_dues (s : State) : (s.marked).dues = s.dues := rfl
@[simp] theorem State.marked_struck (s : State) : (s.marked).struck = s.struck := rfl
@[simp] theorem State.marked_tlb (s : State) : (s.marked).tlb = s.tlb := rfl
@[simp] theorem State.marked_resident (s : State) : (s.marked).resident = s.resident := rfl
@[simp] theorem State.marked_ended (s : State) : (s.marked).ended = s.ended := rfl
@[simp] theorem State.marked_refused (s : State) : (s.marked).refused = s.refused := rfl
@[simp] theorem State.marked_departing (s : State) : (s.marked).departing = s.departing := rfl
@[simp] theorem State.marked_hostbox (s : State) : (s.marked).hostbox = s.hostbox := rfl
@[simp] theorem State.marked_roundsElsewhere (s : State) : (s.marked).roundsElsewhere = s.roundsElsewhere := rfl
@[simp] theorem State.marked_requests (s : State) : (s.marked).requests = s.requests := rfl

/-! ### State.pass -/

@[simp] theorem State.pass_agenda (s : State) (sid : Nat) : (s.pass sid).agenda = s.agenda := rfl
@[simp] theorem State.pass_turn (s : State) (sid : Nat) : (s.pass sid).turn = s.turn.filter (· != sid) := rfl
@[simp] theorem State.pass_moved (s : State) (sid : Nat) : (s.pass sid).moved = s.moved := rfl
@[simp] theorem State.pass_mxTurn (s : State) (sid : Nat) : (s.pass sid).mxTurn = s.mxTurn := rfl
@[simp] theorem State.pass_fresh (s : State) (sid : Nat) : (s.pass sid).fresh = s.fresh := rfl
@[simp] theorem State.pass_nextId (s : State) (sid : Nat) : (s.pass sid).nextId = s.nextId := rfl
@[simp] theorem State.pass_cycle (s : State) (sid : Nat) : (s.pass sid).cycle = s.cycle := rfl
@[simp] theorem State.pass_frames (s : State) (sid : Nat) : (s.pass sid).frames = s.frames := rfl
@[simp] theorem State.pass_modId (s : State) (sid : Nat) : (s.pass sid).modId = s.modId := rfl
@[simp] theorem State.pass_mem (s : State) (sid : Nat) : (s.pass sid).mem = s.mem := rfl
@[simp] theorem State.pass_ecc (s : State) (sid : Nat) : (s.pass sid).ecc = s.ecc := rfl
@[simp] theorem State.pass_strands (s : State) (sid : Nat) : (s.pass sid).strands = s.strands := rfl
@[simp] theorem State.pass_ctxs (s : State) (sid : Nat) : (s.pass sid).ctxs = s.ctxs := rfl
@[simp] theorem State.pass_claims (s : State) (sid : Nat) : (s.pass sid).claims = s.claims := rfl
@[simp] theorem State.pass_tiles (s : State) (sid : Nat) : (s.pass sid).tiles = s.tiles := rfl
@[simp] theorem State.pass_dies (s : State) (sid : Nat) : (s.pass sid).dies = s.dies := rfl
@[simp] theorem State.pass_clocks (s : State) (sid : Nat) : (s.pass sid).clocks = s.clocks := rfl
@[simp] theorem State.pass_stamps (s : State) (sid : Nat) : (s.pass sid).stamps = s.stamps := rfl
@[simp] theorem State.pass_win (s : State) (sid : Nat) : (s.pass sid).win = s.win := rfl
@[simp] theorem State.pass_winFree (s : State) (sid : Nat) : (s.pass sid).winFree = s.winFree := rfl
@[simp] theorem State.pass_tasks (s : State) (sid : Nat) : (s.pass sid).tasks = s.tasks := rfl
@[simp] theorem State.pass_nextTid (s : State) (sid : Nat) : (s.pass sid).nextTid = s.nextTid := rfl
@[simp] theorem State.pass_queues (s : State) (sid : Nat) : (s.pass sid).queues = s.queues := rfl
@[simp] theorem State.pass_rotor (s : State) (sid : Nat) : (s.pass sid).rotor = s.rotor := rfl
@[simp] theorem State.pass_graphs (s : State) (sid : Nat) : (s.pass sid).graphs = s.graphs := rfl
@[simp] theorem State.pass_cmds (s : State) (sid : Nat) : (s.pass sid).cmds = s.cmds := rfl
@[simp] theorem State.pass_posts (s : State) (sid : Nat) : (s.pass sid).posts = s.posts := rfl
@[simp] theorem State.pass_xfers (s : State) (sid : Nat) : (s.pass sid).xfers = s.xfers := rfl
@[simp] theorem State.pass_notices (s : State) (sid : Nat) : (s.pass sid).notices = s.notices := rfl
@[simp] theorem State.pass_arrived (s : State) (sid : Nat) : (s.pass sid).arrived = s.arrived := rfl
@[simp] theorem State.pass_pulls (s : State) (sid : Nat) : (s.pass sid).pulls = s.pulls := rfl
@[simp] theorem State.pass_flights (s : State) (sid : Nat) : (s.pass sid).flights = s.flights := rfl
@[simp] theorem State.pass_replicas (s : State) (sid : Nat) : (s.pass sid).replicas = s.replicas := rfl
@[simp] theorem State.pass_parked (s : State) (sid : Nat) : (s.pass sid).parked = s.parked := rfl
@[simp] theorem State.pass_folded (s : State) (sid : Nat) : (s.pass sid).folded = s.folded := rfl
@[simp] theorem State.pass_contribs (s : State) (sid : Nat) : (s.pass sid).contribs = s.contribs := rfl
@[simp] theorem State.pass_answers (s : State) (sid : Nat) : (s.pass sid).answers = s.answers := rfl
@[simp] theorem State.pass_outbox (s : State) (sid : Nat) : (s.pass sid).outbox = s.outbox := rfl
@[simp] theorem State.pass_catb (s : State) (sid : Nat) : (s.pass sid).catb = s.catb := rfl
@[simp] theorem State.pass_cat (s : State) (sid : Nat) : (s.pass sid).cat = s.cat := rfl
@[simp] theorem State.pass_grpMem (s : State) (sid : Nat) : (s.pass sid).grpMem = s.grpMem := rfl
@[simp] theorem State.pass_groups (s : State) (sid : Nat) : (s.pass sid).groups = s.groups := rfl
@[simp] theorem State.pass_stageMin (s : State) (sid : Nat) : (s.pass sid).stageMin = s.stageMin := rfl
@[simp] theorem State.pass_stageVia (s : State) (sid : Nat) : (s.pass sid).stageVia = s.stageVia := rfl
@[simp] theorem State.pass_curMin (s : State) (sid : Nat) : (s.pass sid).curMin = s.curMin := rfl
@[simp] theorem State.pass_curVia (s : State) (sid : Nat) : (s.pass sid).curVia = s.curVia := rfl
@[simp] theorem State.pass_swp (s : State) (sid : Nat) : (s.pass sid).swp = s.swp := rfl
@[simp] theorem State.pass_stg (s : State) (sid : Nat) : (s.pass sid).stg = s.stg := rfl
@[simp] theorem State.pass_cur (s : State) (sid : Nat) : (s.pass sid).cur = s.cur := rfl
@[simp] theorem State.pass_optical (s : State) (sid : Nat) : (s.pass sid).optical = s.optical := rfl
@[simp] theorem State.pass_roots (s : State) (sid : Nat) : (s.pass sid).roots = s.roots := rfl
@[simp] theorem State.pass_ptroot (s : State) (sid : Nat) : (s.pass sid).ptroot = s.ptroot := rfl
@[simp] theorem State.pass_fltbase (s : State) (sid : Nat) : (s.pass sid).fltbase = s.fltbase := rfl
@[simp] theorem State.pass_fltwr (s : State) (sid : Nat) : (s.pass sid).fltwr = s.fltwr := rfl
@[simp] theorem State.pass_fltrd (s : State) (sid : Nat) : (s.pass sid).fltrd = s.fltrd := rfl
@[simp] theorem State.pass_fltvec (s : State) (sid : Nat) : (s.pass sid).fltvec = s.fltvec := rfl
@[simp] theorem State.pass_fltlost (s : State) (sid : Nat) : (s.pass sid).fltlost = s.fltlost := rfl
@[simp] theorem State.pass_iclamp (s : State) (sid : Nat) : (s.pass sid).iclamp = s.iclamp := rfl
@[simp] theorem State.pass_clockStep (s : State) (sid : Nat) : (s.pass sid).clockStep = s.clockStep := rfl
@[simp] theorem State.pass_clamped (s : State) (sid : Nat) : (s.pass sid).clamped = s.clamped := rfl
@[simp] theorem State.pass_bootst (s : State) (sid : Nat) : (s.pass sid).bootst = s.bootst := rfl
@[simp] theorem State.pass_measure (s : State) (sid : Nat) : (s.pass sid).measure = s.measure := rfl
@[simp] theorem State.pass_nonce (s : State) (sid : Nat) : (s.pass sid).nonce = s.nonce := rfl
@[simp] theorem State.pass_report (s : State) (sid : Nat) : (s.pass sid).report = s.report := rfl
@[simp] theorem State.pass_locked (s : State) (sid : Nat) : (s.pass sid).locked = s.locked := rfl
@[simp] theorem State.pass_pcie (s : State) (sid : Nat) : (s.pass sid).pcie = s.pcie := rfl
@[simp] theorem State.pass_softErr (s : State) (sid : Nat) : (s.pass sid).softErr = s.softErr := rfl
@[simp] theorem State.pass_late (s : State) (sid : Nat) : (s.pass sid).late = s.late := rfl
@[simp] theorem State.pass_frameAt (s : State) (sid : Nat) : (s.pass sid).frameAt = s.frameAt := rfl
@[simp] theorem State.pass_part (s : State) (sid : Nat) : (s.pass sid).part = s.part := rfl
@[simp] theorem State.pass_rotated (s : State) (sid : Nat) : (s.pass sid).rotated = s.rotated := rfl
@[simp] theorem State.pass_gsqAt (s : State) (sid : Nat) : (s.pass sid).gsqAt = s.gsqAt := rfl
@[simp] theorem State.pass_dues (s : State) (sid : Nat) : (s.pass sid).dues = s.dues := rfl
@[simp] theorem State.pass_struck (s : State) (sid : Nat) : (s.pass sid).struck = s.struck := rfl
@[simp] theorem State.pass_tlb (s : State) (sid : Nat) : (s.pass sid).tlb = s.tlb := rfl
@[simp] theorem State.pass_resident (s : State) (sid : Nat) : (s.pass sid).resident = s.resident := rfl
@[simp] theorem State.pass_ended (s : State) (sid : Nat) : (s.pass sid).ended = s.ended := rfl
@[simp] theorem State.pass_refused (s : State) (sid : Nat) : (s.pass sid).refused = s.refused := rfl
@[simp] theorem State.pass_departing (s : State) (sid : Nat) : (s.pass sid).departing = s.departing := rfl
@[simp] theorem State.pass_hostbox (s : State) (sid : Nat) : (s.pass sid).hostbox = s.hostbox := rfl
@[simp] theorem State.pass_roundsElsewhere (s : State) (sid : Nat) : (s.pass sid).roundsElsewhere = s.roundsElsewhere := rfl
@[simp] theorem State.pass_requests (s : State) (sid : Nat) : (s.pass sid).requests = s.requests := rfl

/-! ### Frame.put -/

@[simp] theorem Frame.put_strands (f : Frame) : f.put.strands = replaceIf f.s.strands (·.sid == f.t.sid) f.t := rfl
@[simp] theorem Frame.put_ctxs (f : Frame) : f.put.ctxs = replaceIf f.s.ctxs (·.id == f.c.id) f.c := rfl
@[simp] theorem Frame.put_agenda (f : Frame) : f.put.agenda = f.s.agenda := rfl
@[simp] theorem Frame.put_turn (f : Frame) : f.put.turn = f.s.turn := rfl
@[simp] theorem Frame.put_moved (f : Frame) : f.put.moved = f.s.moved := rfl
@[simp] theorem Frame.put_mxTurn (f : Frame) : f.put.mxTurn = f.s.mxTurn := rfl
@[simp] theorem Frame.put_fresh (f : Frame) : f.put.fresh = f.s.fresh := rfl
@[simp] theorem Frame.put_nextId (f : Frame) : f.put.nextId = f.s.nextId := rfl
@[simp] theorem Frame.put_cycle (f : Frame) : f.put.cycle = f.s.cycle := rfl
@[simp] theorem Frame.put_frames (f : Frame) : f.put.frames = f.s.frames := rfl
@[simp] theorem Frame.put_modId (f : Frame) : f.put.modId = f.s.modId := rfl
@[simp] theorem Frame.put_mem (f : Frame) : f.put.mem = f.s.mem := rfl
@[simp] theorem Frame.put_ecc (f : Frame) : f.put.ecc = f.s.ecc := rfl
@[simp] theorem Frame.put_claims (f : Frame) : f.put.claims = f.s.claims := rfl
@[simp] theorem Frame.put_tiles (f : Frame) : f.put.tiles = f.s.tiles := rfl
@[simp] theorem Frame.put_dies (f : Frame) : f.put.dies = f.s.dies := rfl
@[simp] theorem Frame.put_clocks (f : Frame) : f.put.clocks = f.s.clocks := rfl
@[simp] theorem Frame.put_stamps (f : Frame) : f.put.stamps = f.s.stamps := rfl
@[simp] theorem Frame.put_win (f : Frame) : f.put.win = f.s.win := rfl
@[simp] theorem Frame.put_winFree (f : Frame) : f.put.winFree = f.s.winFree := rfl
@[simp] theorem Frame.put_tasks (f : Frame) : f.put.tasks = f.s.tasks := rfl
@[simp] theorem Frame.put_nextTid (f : Frame) : f.put.nextTid = f.s.nextTid := rfl
@[simp] theorem Frame.put_queues (f : Frame) : f.put.queues = f.s.queues := rfl
@[simp] theorem Frame.put_rotor (f : Frame) : f.put.rotor = f.s.rotor := rfl
@[simp] theorem Frame.put_graphs (f : Frame) : f.put.graphs = f.s.graphs := rfl
@[simp] theorem Frame.put_cmds (f : Frame) : f.put.cmds = f.s.cmds := rfl
@[simp] theorem Frame.put_posts (f : Frame) : f.put.posts = f.s.posts := rfl
@[simp] theorem Frame.put_xfers (f : Frame) : f.put.xfers = f.s.xfers := rfl
@[simp] theorem Frame.put_notices (f : Frame) : f.put.notices = f.s.notices := rfl
@[simp] theorem Frame.put_arrived (f : Frame) : f.put.arrived = f.s.arrived := rfl
@[simp] theorem Frame.put_pulls (f : Frame) : f.put.pulls = f.s.pulls := rfl
@[simp] theorem Frame.put_flights (f : Frame) : f.put.flights = f.s.flights := rfl
@[simp] theorem Frame.put_replicas (f : Frame) : f.put.replicas = f.s.replicas := rfl
@[simp] theorem Frame.put_parked (f : Frame) : f.put.parked = f.s.parked := rfl
@[simp] theorem Frame.put_folded (f : Frame) : f.put.folded = f.s.folded := rfl
@[simp] theorem Frame.put_contribs (f : Frame) : f.put.contribs = f.s.contribs := rfl
@[simp] theorem Frame.put_answers (f : Frame) : f.put.answers = f.s.answers := rfl
@[simp] theorem Frame.put_outbox (f : Frame) : f.put.outbox = f.s.outbox := rfl
@[simp] theorem Frame.put_catb (f : Frame) : f.put.catb = f.s.catb := rfl
@[simp] theorem Frame.put_cat (f : Frame) : f.put.cat = f.s.cat := rfl
@[simp] theorem Frame.put_grpMem (f : Frame) : f.put.grpMem = f.s.grpMem := rfl
@[simp] theorem Frame.put_groups (f : Frame) : f.put.groups = f.s.groups := rfl
@[simp] theorem Frame.put_stageMin (f : Frame) : f.put.stageMin = f.s.stageMin := rfl
@[simp] theorem Frame.put_stageVia (f : Frame) : f.put.stageVia = f.s.stageVia := rfl
@[simp] theorem Frame.put_curMin (f : Frame) : f.put.curMin = f.s.curMin := rfl
@[simp] theorem Frame.put_curVia (f : Frame) : f.put.curVia = f.s.curVia := rfl
@[simp] theorem Frame.put_swp (f : Frame) : f.put.swp = f.s.swp := rfl
@[simp] theorem Frame.put_stg (f : Frame) : f.put.stg = f.s.stg := rfl
@[simp] theorem Frame.put_cur (f : Frame) : f.put.cur = f.s.cur := rfl
@[simp] theorem Frame.put_optical (f : Frame) : f.put.optical = f.s.optical := rfl
@[simp] theorem Frame.put_roots (f : Frame) : f.put.roots = f.s.roots := rfl
@[simp] theorem Frame.put_ptroot (f : Frame) : f.put.ptroot = f.s.ptroot := rfl
@[simp] theorem Frame.put_fltbase (f : Frame) : f.put.fltbase = f.s.fltbase := rfl
@[simp] theorem Frame.put_fltwr (f : Frame) : f.put.fltwr = f.s.fltwr := rfl
@[simp] theorem Frame.put_fltrd (f : Frame) : f.put.fltrd = f.s.fltrd := rfl
@[simp] theorem Frame.put_fltvec (f : Frame) : f.put.fltvec = f.s.fltvec := rfl
@[simp] theorem Frame.put_fltlost (f : Frame) : f.put.fltlost = f.s.fltlost := rfl
@[simp] theorem Frame.put_iclamp (f : Frame) : f.put.iclamp = f.s.iclamp := rfl
@[simp] theorem Frame.put_clockStep (f : Frame) : f.put.clockStep = f.s.clockStep := rfl
@[simp] theorem Frame.put_clamped (f : Frame) : f.put.clamped = f.s.clamped := rfl
@[simp] theorem Frame.put_bootst (f : Frame) : f.put.bootst = f.s.bootst := rfl
@[simp] theorem Frame.put_measure (f : Frame) : f.put.measure = f.s.measure := rfl
@[simp] theorem Frame.put_nonce (f : Frame) : f.put.nonce = f.s.nonce := rfl
@[simp] theorem Frame.put_report (f : Frame) : f.put.report = f.s.report := rfl
@[simp] theorem Frame.put_locked (f : Frame) : f.put.locked = f.s.locked := rfl
@[simp] theorem Frame.put_pcie (f : Frame) : f.put.pcie = f.s.pcie := rfl
@[simp] theorem Frame.put_softErr (f : Frame) : f.put.softErr = f.s.softErr := rfl
@[simp] theorem Frame.put_late (f : Frame) : f.put.late = f.s.late := rfl
@[simp] theorem Frame.put_frameAt (f : Frame) : f.put.frameAt = f.s.frameAt := rfl
@[simp] theorem Frame.put_part (f : Frame) : f.put.part = f.s.part := rfl
@[simp] theorem Frame.put_rotated (f : Frame) : f.put.rotated = f.s.rotated := rfl
@[simp] theorem Frame.put_gsqAt (f : Frame) : f.put.gsqAt = f.s.gsqAt := rfl
@[simp] theorem Frame.put_dues (f : Frame) : f.put.dues = f.s.dues := rfl
@[simp] theorem Frame.put_struck (f : Frame) : f.put.struck = f.s.struck := rfl
@[simp] theorem Frame.put_tlb (f : Frame) : f.put.tlb = f.s.tlb := rfl
@[simp] theorem Frame.put_resident (f : Frame) : f.put.resident = f.s.resident := rfl
@[simp] theorem Frame.put_ended (f : Frame) : f.put.ended = f.s.ended := rfl
@[simp] theorem Frame.put_refused (f : Frame) : f.put.refused = f.s.refused := rfl
@[simp] theorem Frame.put_departing (f : Frame) : f.put.departing = f.s.departing := rfl
@[simp] theorem Frame.put_hostbox (f : Frame) : f.put.hostbox = f.s.hostbox := rfl
@[simp] theorem Frame.put_roundsElsewhere (f : Frame) : f.put.roundsElsewhere = f.s.roundsElsewhere := rfl

end Sys2Proof.Machine
end

