-- ==== Sys2Proof/Laws/Memory.lean ====
section
/-! SUPPORT. Memory: every operation keeps the canonical form, and what one cell's write does to a read. -/

namespace Sys2Proof.Machine

/-! ### The canonical form is kept -/

theorem Memory.wfFrom_mono : ∀ {m : List Host.Cell} {lo hi : Nat}, lo ≤ hi → Memory.wfFrom hi m = true →
    Memory.wfFrom lo m = true
  | [], _, _, _, _ => rfl
  | (k, b) :: m, lo, hi, h, w => by
    simp only [Memory.wfFrom, Bool.and_eq_true, decide_eq_true_eq] at w ⊢
    exact ⟨⟨le_trans h w.1.1, w.1.2⟩, w.2⟩

theorem Memory.wfFrom_cons {lo k : Nat} {b : Byte} {m : List Host.Cell} :
    Memory.wfFrom lo ((k, b) :: m) = true ↔ lo ≤ k ∧ b ≠ 0 ∧ Memory.wfFrom (k + 1) m = true := by
  simp only [Memory.wfFrom, Bool.and_eq_true, decide_eq_true_eq, and_assoc]

theorem Memory.set_wfFrom : ∀ {m : List Host.Cell} {lo a : Nat} {b : Byte}, lo ≤ a → Memory.wfFrom lo m = true →
    Memory.wfFrom lo (Memory.set m a b) = true
  | [], lo, a, b, h, _ => by
    unfold Memory.set
    split
    · rfl
    · exact Memory.wfFrom_cons.2 ⟨h, ‹_›, rfl⟩
  | (k, c) :: m, lo, a, b, h, w => by
    obtain ⟨w1, w2, w3⟩ := Memory.wfFrom_cons.1 w
    unfold Memory.set
    split
    · split
      · exact w
      · exact Memory.wfFrom_cons.2 ⟨h, ‹_›, Memory.wfFrom_cons.2 ⟨by omega, w2, w3⟩⟩
    · split
      · split
        · exact Memory.wfFrom_mono (by omega) w3
        · exact Memory.wfFrom_cons.2 ⟨w1, ‹_›, w3⟩
      · exact Memory.wfFrom_cons.2 ⟨w1, w2, Memory.set_wfFrom (by omega) w3⟩

/-- One cell's write keeps the canonical form. -/
theorem Memory.set_wf {m : List Host.Cell} (a : Nat) (b : Byte) (w : Memory.wf m = true) :
    Memory.wf (Memory.set m a b) = true := Memory.set_wfFrom (Nat.zero_le a) w

/-- A write of bytes keeps the canonical form. -/
theorem Memory.write_wf : ∀ {bs : List Byte} {m : List Host.Cell} {k : Nat}, Memory.wf m = true →
    Memory.wf (Memory.write m k bs) = true
  | [], _, _, w => w
  | b :: bs, m, k, w => by
    unfold Memory.write
    exact Memory.write_wf (Memory.set_wf k b w)

/-- A state's write keeps its memory canonical. -/
theorem State.write_canonical {s : State} (k : Nat) (bs : List Byte) (w : s.Canonical) : (s.write k bs).Canonical :=
  Memory.write_wf (m := s.mem) w

/-! ### What one cell's write does to a read -/

theorem Memory.get_below : ∀ {m : List Host.Cell} {lo a : Nat}, Memory.wfFrom lo m = true → a < lo → Memory.get m a = 0
  | [], _, _, _, _ => rfl
  | (k, b) :: m, lo, a, w, h => by
    simp only [Memory.wfFrom, Bool.and_eq_true, decide_eq_true_eq] at w
    have : a < k := by omega
    simp [Memory.get, this]

theorem Memory.get_set_from : ∀ {m : List Host.Cell} {lo a j : Nat} {b : Byte}, Memory.wfFrom lo m = true →
    Memory.get (Memory.set m a b) j = if j = a then b else Memory.get m j
  | [], lo, a, j, b, _ => by
    unfold Memory.set
    split
    · simp [Memory.get, *]
    · simp only [Memory.get]
      split
      · rw [if_neg (by omega)]
      · rfl
  | (k, c) :: m, lo, a, j, b, w => by
    simp only [Memory.wfFrom, Bool.and_eq_true, decide_eq_true_eq] at w
    obtain ⟨⟨w1, w2⟩, w3⟩ := w
    unfold Memory.set
    split
    · split
      · subst b
        split
        · subst j; simp [Memory.get, *]
        · rfl
      · by_cases e : j = a
        · subst e; simp [Memory.get]
        · by_cases l : j < a
          · have : j < k := by omega
            simp [Memory.get, *]
          · simp [Memory.get, *]
    · split
      · subst k
        split
        · subst b
          by_cases e : j = a
          · subst e; simpa using Memory.get_below w3 (Nat.lt_succ_self j)
          · by_cases l : j < a
            · have := Memory.get_below w3 (by omega : j < a + 1)
              simp [Memory.get, *]
            · simp [Memory.get, *]
        · by_cases e : j = a
          · subst e; simp [Memory.get]
          · simp [Memory.get, *]
      · have ih := Memory.get_set_from (a := a) (j := j) (b := b) w3
        by_cases e : j = a
        · subst e
          have : ¬ j < k := by omega
          simp [Memory.get, *] at ih ⊢
        · simp only [if_neg e] at ih ⊢
          simp [Memory.get, ih]

/-- One cell's write gives that cell its byte and leaves every other as it was. -/
theorem Memory.get_set {m : List Host.Cell} (a j : Nat) (b : Byte) (w : Memory.wf m = true) :
    Memory.get (Memory.set m a b) j = if j = a then b else Memory.get m j := Memory.get_set_from w

end Sys2Proof.Machine
end

