-- ==== Sys2Proof/Laws/PerInstr.lean ====
section
/-! SUPPORT. The per-instruction family Encoding: how the word of each instruction is made. -/

namespace Sys2Proof.Laws.Encoding

/-- The word of a slot in move form is made of S, K and G, a destination of ten bits and a source field of nine (R57); that of a slot
in immediate form of S, a selector of three bits and the immediate (R66); a micro-word of an OP of at most 16 and its fields (R208). -/
def Statement (i : Instr) : Prop :=
  match encode i with
  | .slot _ false w => ∃ (h : Slot) (d x : Nat), d < 1024 ∧ x < 512 ∧ w = encodeMove h d x
  | .slot _ true w => ∃ (stop : Bool) (sel : Nat) (imm : BitVec 20), sel < 7 ∧ w = encodeImm stop sel imm
  | .micro w => ∃ (op : Nat) (m : Micro), op ≤ 16 ∧ w = encodeMicro op m
  | .none => True

theorem source_code_lt (a : Src) : a.code < 512 := by
  have h : a.src.code < 128 := by
    rcases a with ⟨m, x⟩
    cases x <;> simp only [Source.code] <;> omega
  have g : a.mode.code < 4 := by cases a.mode <;> decide
  simp only [Src.code]
  omega

theorem nop (h : Slot) : Statement (.nop h) := ⟨h, _, _, by decide, by decide, rfl⟩
theorem moveOperandPort (h : Slot) (u : UnitName) (p : OpPort) (a : Src) : Statement (.moveOperandPort h u p a) :=
  ⟨h, _, _, by cases u <;> cases p <;> decide, source_code_lt a, rfl⟩
theorem moveScalar (h : Slot) (n : Fin 32) (a : Src) : Statement (.moveScalar h n a) := ⟨h, _, _, by omega, source_code_lt a, rfl⟩
theorem moveVector (h : Slot) (n : Fin 16) (a : Src) : Statement (.moveVector h n a) := ⟨h, _, _, by omega, source_code_lt a, rfl⟩
theorem movePredicate (h : Slot) (n : Fin 8) (a : Src) : Statement (.movePredicate h n a) :=
  ⟨h, _, _, by omega, source_code_lt a, rfl⟩
theorem moveLc (h : Slot) (n : Fin 6) (a : Src) : Statement (.moveLc h n a) := ⟨h, _, _, by omega, source_code_lt a, rfl⟩
theorem moveLb (h : Slot) (n : Fin 6) (a : Src) : Statement (.moveLb h n a) := ⟨h, _, _, by omega, source_code_lt a, rfl⟩
theorem moveSlk (h : Slot) (a : Src) : Statement (.moveSlk h a) := ⟨h, _, _, by decide, source_code_lt a, rfl⟩
theorem moveCbx (h : Slot) (a : Src) : Statement (.moveCbx h a) := ⟨h, _, _, by decide, source_code_lt a, rfl⟩
theorem immBindBInt (stop : Bool) (imm : BitVec 20) : Statement (.immBindBInt stop imm) := ⟨_, _, _, by decide, rfl⟩
theorem immBindCInt (stop : Bool) (imm : BitVec 20) : Statement (.immBindCInt stop imm) := ⟨_, _, _, by decide, rfl⟩
theorem immBindBF32 (stop : Bool) (imm : BitVec 20) : Statement (.immBindBF32 stop imm) := ⟨_, _, _, by decide, rfl⟩
theorem immBindCF32 (stop : Bool) (imm : BitVec 20) : Statement (.immBindCF32 stop imm) := ⟨_, _, _, by decide, rfl⟩
theorem immBindBF64 (stop : Bool) (imm : BitVec 20) : Statement (.immBindBF64 stop imm) := ⟨_, _, _, by decide, rfl⟩
theorem immBindCF64 (stop : Bool) (imm : BitVec 20) : Statement (.immBindCF64 stop imm) := ⟨_, _, _, by decide, rfl⟩
theorem immSetLb (stop : Bool) (imm : BitVec 20) : Statement (.immSetLb stop imm) := ⟨_, _, _, by decide, rfl⟩
theorem add (h : Slot) (a : Src) : Statement (.add h a) := ⟨h, _, _, by decide, source_code_lt a, rfl⟩
theorem sub (h : Slot) (a : Src) : Statement (.sub h a) := ⟨h, _, _, by decide, source_code_lt a, rfl⟩
theorem and (h : Slot) (a : Src) : Statement (.and h a) := ⟨h, _, _, by decide, source_code_lt a, rfl⟩
theorem or (h : Slot) (a : Src) : Statement (.or h a) := ⟨h, _, _, by decide, source_code_lt a, rfl⟩
theorem xor (h : Slot) (a : Src) : Statement (.xor h a) := ⟨h, _, _, by decide, source_code_lt a, rfl⟩
theorem andn (h : Slot) (a : Src) : Statement (.andn h a) := ⟨h, _, _, by decide, source_code_lt a, rfl⟩
theorem shl (h : Slot) (a : Src) : Statement (.shl h a) := ⟨h, _, _, by decide, source_code_lt a, rfl⟩
theorem shr (h : Slot) (a : Src) : Statement (.shr h a) := ⟨h, _, _, by decide, source_code_lt a, rfl⟩
theorem sar (h : Slot) (a : Src) : Statement (.sar h a) := ⟨h, _, _, by decide, source_code_lt a, rfl⟩
theorem mul (h : Slot) (a : Src) : Statement (.mul h a) := ⟨h, _, _, by decide, source_code_lt a, rfl⟩
theorem mulh (h : Slot) (a : Src) : Statement (.mulh h a) := ⟨h, _, _, by decide, source_code_lt a, rfl⟩
theorem mulhu (h : Slot) (a : Src) : Statement (.mulhu h a) := ⟨h, _, _, by decide, source_code_lt a, rfl⟩
theorem div (h : Slot) (a : Src) : Statement (.div h a) := ⟨h, _, _, by decide, source_code_lt a, rfl⟩
theorem divu (h : Slot) (a : Src) : Statement (.divu h a) := ⟨h, _, _, by decide, source_code_lt a, rfl⟩
theorem rem (h : Slot) (a : Src) : Statement (.rem h a) := ⟨h, _, _, by decide, source_code_lt a, rfl⟩
theorem remu (h : Slot) (a : Src) : Statement (.remu h a) := ⟨h, _, _, by decide, source_code_lt a, rfl⟩
theorem min (h : Slot) (a : Src) : Statement (.min h a) := ⟨h, _, _, by decide, source_code_lt a, rfl⟩
theorem minu (h : Slot) (a : Src) : Statement (.minu h a) := ⟨h, _, _, by decide, source_code_lt a, rfl⟩
theorem max (h : Slot) (a : Src) : Statement (.max h a) := ⟨h, _, _, by decide, source_code_lt a, rfl⟩
theorem maxu (h : Slot) (a : Src) : Statement (.maxu h a) := ⟨h, _, _, by decide, source_code_lt a, rfl⟩
theorem clz (h : Slot) (a : Src) : Statement (.clz h a) := ⟨h, _, _, by decide, source_code_lt a, rfl⟩
theorem ctz (h : Slot) (a : Src) : Statement (.ctz h a) := ⟨h, _, _, by decide, source_code_lt a, rfl⟩
theorem popc (h : Slot) (a : Src) : Statement (.popc h a) := ⟨h, _, _, by decide, source_code_lt a, rfl⟩
theorem sext (h : Slot) (a : Src) : Statement (.sext h a) := ⟨h, _, _, by decide, source_code_lt a, rfl⟩
theorem zext (h : Slot) (a : Src) : Statement (.zext h a) := ⟨h, _, _, by decide, source_code_lt a, rfl⟩
theorem lea (h : Slot) (a : Src) : Statement (.lea h a) := ⟨h, _, _, by decide, source_code_lt a, rfl⟩
theorem bfx (h : Slot) (a : Src) : Statement (.bfx h a) := ⟨h, _, _, by decide, source_code_lt a, rfl⟩
theorem bfi (h : Slot) (a : Src) : Statement (.bfi h a) := ⟨h, _, _, by decide, source_code_lt a, rfl⟩
theorem cmpeq (h : Slot) (a : Src) : Statement (.cmpeq h a) := ⟨h, _, _, by decide, source_code_lt a, rfl⟩
theorem cmpne (h : Slot) (a : Src) : Statement (.cmpne h a) := ⟨h, _, _, by decide, source_code_lt a, rfl⟩
theorem cmplt (h : Slot) (a : Src) : Statement (.cmplt h a) := ⟨h, _, _, by decide, source_code_lt a, rfl⟩
theorem cmple (h : Slot) (a : Src) : Statement (.cmple h a) := ⟨h, _, _, by decide, source_code_lt a, rfl⟩
theorem cmpltu (h : Slot) (a : Src) : Statement (.cmpltu h a) := ⟨h, _, _, by decide, source_code_lt a, rfl⟩
theorem cmpleu (h : Slot) (a : Src) : Statement (.cmpleu h a) := ⟨h, _, _, by decide, source_code_lt a, rfl⟩
theorem fcmpeq (h : Slot) (a : Src) : Statement (.fcmpeq h a) := ⟨h, _, _, by decide, source_code_lt a, rfl⟩
theorem fcmplt (h : Slot) (a : Src) : Statement (.fcmplt h a) := ⟨h, _, _, by decide, source_code_lt a, rfl⟩
theorem fcmple (h : Slot) (a : Src) : Statement (.fcmple h a) := ⟨h, _, _, by decide, source_code_lt a, rfl⟩
theorem fcmpun (h : Slot) (a : Src) : Statement (.fcmpun h a) := ⟨h, _, _, by decide, source_code_lt a, rfl⟩
theorem fadd (h : Slot) (a : Src) : Statement (.fadd h a) := ⟨h, _, _, by decide, source_code_lt a, rfl⟩
theorem fsub (h : Slot) (a : Src) : Statement (.fsub h a) := ⟨h, _, _, by decide, source_code_lt a, rfl⟩
theorem fmul (h : Slot) (a : Src) : Statement (.fmul h a) := ⟨h, _, _, by decide, source_code_lt a, rfl⟩
theorem ffma (h : Slot) (a : Src) : Statement (.ffma h a) := ⟨h, _, _, by decide, source_code_lt a, rfl⟩
theorem fdiv (h : Slot) (a : Src) : Statement (.fdiv h a) := ⟨h, _, _, by decide, source_code_lt a, rfl⟩
theorem fsqrt (h : Slot) (a : Src) : Statement (.fsqrt h a) := ⟨h, _, _, by decide, source_code_lt a, rfl⟩
theorem fmin (h : Slot) (a : Src) : Statement (.fmin h a) := ⟨h, _, _, by decide, source_code_lt a, rfl⟩
theorem fmax (h : Slot) (a : Src) : Statement (.fmax h a) := ⟨h, _, _, by decide, source_code_lt a, rfl⟩
theorem fabs (h : Slot) (a : Src) : Statement (.fabs h a) := ⟨h, _, _, by decide, source_code_lt a, rfl⟩
theorem fneg (h : Slot) (a : Src) : Statement (.fneg h a) := ⟨h, _, _, by decide, source_code_lt a, rfl⟩
theorem fcvtI64 (h : Slot) (a : Src) : Statement (.fcvtI64 h a) := ⟨h, _, _, by decide, source_code_lt a, rfl⟩
theorem fcvtF64 (h : Slot) (a : Src) : Statement (.fcvtF64 h a) := ⟨h, _, _, by decide, source_code_lt a, rfl⟩
theorem ldb (h : Slot) (a : Src) : Statement (.ldb h a) := ⟨h, _, _, by decide, source_code_lt a, rfl⟩
theorem ldbu (h : Slot) (a : Src) : Statement (.ldbu h a) := ⟨h, _, _, by decide, source_code_lt a, rfl⟩
theorem ldh (h : Slot) (a : Src) : Statement (.ldh h a) := ⟨h, _, _, by decide, source_code_lt a, rfl⟩
theorem ldhu (h : Slot) (a : Src) : Statement (.ldhu h a) := ⟨h, _, _, by decide, source_code_lt a, rfl⟩
theorem ldw (h : Slot) (a : Src) : Statement (.ldw h a) := ⟨h, _, _, by decide, source_code_lt a, rfl⟩
theorem ldwu (h : Slot) (a : Src) : Statement (.ldwu h a) := ⟨h, _, _, by decide, source_code_lt a, rfl⟩
theorem ldd (h : Slot) (a : Src) : Statement (.ldd h a) := ⟨h, _, _, by decide, source_code_lt a, rfl⟩
theorem stb (h : Slot) (a : Src) : Statement (.stb h a) := ⟨h, _, _, by decide, source_code_lt a, rfl⟩
theorem sth (h : Slot) (a : Src) : Statement (.sth h a) := ⟨h, _, _, by decide, source_code_lt a, rfl⟩
theorem stw (h : Slot) (a : Src) : Statement (.stw h a) := ⟨h, _, _, by decide, source_code_lt a, rfl⟩
theorem std (h : Slot) (a : Src) : Statement (.std h a) := ⟨h, _, _, by decide, source_code_lt a, rfl⟩
theorem ldwCl (h : Slot) (a : Src) : Statement (.ldwCl h a) := ⟨h, _, _, by decide, source_code_lt a, rfl⟩
theorem lddCl (h : Slot) (a : Src) : Statement (.lddCl h a) := ⟨h, _, _, by decide, source_code_lt a, rfl⟩
theorem stwCl (h : Slot) (a : Src) : Statement (.stwCl h a) := ⟨h, _, _, by decide, source_code_lt a, rfl⟩
theorem stdCl (h : Slot) (a : Src) : Statement (.stdCl h a) := ⟨h, _, _, by decide, source_code_lt a, rfl⟩
theorem aadd (h : Slot) (a : Src) : Statement (.aadd h a) := ⟨h, _, _, by decide, source_code_lt a, rfl⟩
theorem aand (h : Slot) (a : Src) : Statement (.aand h a) := ⟨h, _, _, by decide, source_code_lt a, rfl⟩
theorem aor (h : Slot) (a : Src) : Statement (.aor h a) := ⟨h, _, _, by decide, source_code_lt a, rfl⟩
theorem axor (h : Slot) (a : Src) : Statement (.axor h a) := ⟨h, _, _, by decide, source_code_lt a, rfl⟩
theorem amin (h : Slot) (a : Src) : Statement (.amin h a) := ⟨h, _, _, by decide, source_code_lt a, rfl⟩
theorem amax (h : Slot) (a : Src) : Statement (.amax h a) := ⟨h, _, _, by decide, source_code_lt a, rfl⟩
theorem aswap (h : Slot) (a : Src) : Statement (.aswap h a) := ⟨h, _, _, by decide, source_code_lt a, rfl⟩
theorem acas (h : Slot) (a : Src) : Statement (.acas h a) := ⟨h, _, _, by decide, source_code_lt a, rfl⟩
theorem aaddCl (h : Slot) (a : Src) : Statement (.aaddCl h a) := ⟨h, _, _, by decide, source_code_lt a, rfl⟩
theorem aandCl (h : Slot) (a : Src) : Statement (.aandCl h a) := ⟨h, _, _, by decide, source_code_lt a, rfl⟩
theorem aorCl (h : Slot) (a : Src) : Statement (.aorCl h a) := ⟨h, _, _, by decide, source_code_lt a, rfl⟩
theorem axorCl (h : Slot) (a : Src) : Statement (.axorCl h a) := ⟨h, _, _, by decide, source_code_lt a, rfl⟩
theorem aminCl (h : Slot) (a : Src) : Statement (.aminCl h a) := ⟨h, _, _, by decide, source_code_lt a, rfl⟩
theorem amaxCl (h : Slot) (a : Src) : Statement (.amaxCl h a) := ⟨h, _, _, by decide, source_code_lt a, rfl⟩
theorem aswapCl (h : Slot) (a : Src) : Statement (.aswapCl h a) := ⟨h, _, _, by decide, source_code_lt a, rfl⟩
theorem acasCl (h : Slot) (a : Src) : Statement (.acasCl h a) := ⟨h, _, _, by decide, source_code_lt a, rfl⟩
theorem cld (h : Slot) (a : Src) : Statement (.cld h a) := ⟨h, _, _, by decide, source_code_lt a, rfl⟩
theorem jmp (h : Slot) (a : Src) : Statement (.jmp h a) := ⟨h, _, _, by decide, source_code_lt a, rfl⟩
theorem jmpr (h : Slot) (a : Src) : Statement (.jmpr h a) := ⟨h, _, _, by decide, source_code_lt a, rfl⟩
theorem call (h : Slot) (a : Src) : Statement (.call h a) := ⟨h, _, _, by decide, source_code_lt a, rfl⟩
theorem callr (h : Slot) (a : Src) : Statement (.callr h a) := ⟨h, _, _, by decide, source_code_lt a, rfl⟩
theorem ret (h : Slot) (a : Src) : Statement (.ret h a) := ⟨h, _, _, by decide, source_code_lt a, rfl⟩
theorem loop (h : Slot) (a : Src) : Statement (.loop h a) := ⟨h, _, _, by decide, source_code_lt a, rfl⟩
theorem loopx (h : Slot) (a : Src) : Statement (.loopx h a) := ⟨h, _, _, by decide, source_code_lt a, rfl⟩
theorem nest (h : Slot) (a : Src) : Statement (.nest h a) := ⟨h, _, _, by decide, source_code_lt a, rfl⟩
theorem slack (h : Slot) (a : Src) : Statement (.slack h a) := ⟨h, _, _, by decide, source_code_lt a, rfl⟩
theorem bar (h : Slot) (a : Src) : Statement (.bar h a) := ⟨h, _, _, by decide, source_code_lt a, rfl⟩
theorem tkpost (h : Slot) (a : Src) : Statement (.tkpost h a) := ⟨h, _, _, by decide, source_code_lt a, rfl⟩
theorem cbr (h : Slot) (a : Src) : Statement (.cbr h a) := ⟨h, _, _, by decide, source_code_lt a, rfl⟩
theorem agjoin (h : Slot) (a : Src) : Statement (.agjoin h a) := ⟨h, _, _, by decide, source_code_lt a, rfl⟩
theorem agleave (h : Slot) (a : Src) : Statement (.agleave h a) := ⟨h, _, _, by decide, source_code_lt a, rfl⟩
theorem agexcuse (h : Slot) (a : Src) : Statement (.agexcuse h a) := ⟨h, _, _, by decide, source_code_lt a, rfl⟩
theorem heart (h : Slot) : Statement (.heart h) := ⟨h, _, _, by decide, by decide, rfl⟩
theorem retire (h : Slot) : Statement (.retire h) := ⟨h, _, _, by decide, by decide, rfl⟩
theorem csync (h : Slot) : Statement (.csync h) := ⟨h, _, _, by decide, by decide, rfl⟩
theorem tret (h : Slot) : Statement (.tret h) := ⟨h, _, _, by decide, by decide, rfl⟩
theorem rdsr (h : Slot) (a : Src) : Statement (.rdsr h a) := ⟨h, _, _, by decide, source_code_lt a, rfl⟩
theorem wrsr (h : Slot) (a : Src) : Statement (.wrsr h a) := ⟨h, _, _, by decide, source_code_lt a, rfl⟩
theorem fenceAcq (h : Slot) (sc : Scope) : Statement (.fenceAcq h sc) := ⟨h, _, _, by cases sc <;> decide, by decide, rfl⟩
theorem fenceRel (h : Slot) (sc : Scope) : Statement (.fenceRel h sc) := ⟨h, _, _, by cases sc <;> decide, by decide, rfl⟩
theorem fenceAr (h : Slot) (sc : Scope) : Statement (.fenceAr h sc) := ⟨h, _, _, by cases sc <;> decide, by decide, rfl⟩
theorem fenceScDevice (h : Slot) : Statement (.fenceScDevice h) := ⟨h, _, _, by decide, by decide, rfl⟩
theorem fenceScDomain (h : Slot) : Statement (.fenceScDomain h) := ⟨h, _, _, by decide, by decide, rfl⟩
theorem addF (h : Slot) (e : FpFmt) (a : Src) : Statement (.addF h e a) := ⟨h, _, _, by cases e <;> decide, source_code_lt a, rfl⟩
theorem subF (h : Slot) (e : FpFmt) (a : Src) : Statement (.subF h e a) := ⟨h, _, _, by cases e <;> decide, source_code_lt a, rfl⟩
theorem mulF (h : Slot) (e : FpFmt) (a : Src) : Statement (.mulF h e a) := ⟨h, _, _, by cases e <;> decide, source_code_lt a, rfl⟩
theorem fmaF (h : Slot) (e : FpFmt) (a : Src) : Statement (.fmaF h e a) := ⟨h, _, _, by cases e <;> decide, source_code_lt a, rfl⟩
theorem fmsF (h : Slot) (e : FpFmt) (a : Src) : Statement (.fmsF h e a) := ⟨h, _, _, by cases e <;> decide, source_code_lt a, rfl⟩
theorem fnmaF (h : Slot) (e : FpFmt) (a : Src) : Statement (.fnmaF h e a) :=
  ⟨h, _, _, by cases e <;> decide, source_code_lt a, rfl⟩
theorem minF (h : Slot) (e : FpFmt) (a : Src) : Statement (.minF h e a) := ⟨h, _, _, by cases e <;> decide, source_code_lt a, rfl⟩
theorem maxF (h : Slot) (e : FpFmt) (a : Src) : Statement (.maxF h e a) := ⟨h, _, _, by cases e <;> decide, source_code_lt a, rfl⟩
theorem divF (h : Slot) (e : FpFmt) (a : Src) : Statement (.divF h e a) := ⟨h, _, _, by cases e <;> decide, source_code_lt a, rfl⟩
theorem sqrtF (h : Slot) (e : FpFmt) (a : Src) : Statement (.sqrtF h e a) :=
  ⟨h, _, _, by cases e <;> decide, source_code_lt a, rfl⟩
theorem absF (h : Slot) (e : FpFmt) (a : Src) : Statement (.absF h e a) := ⟨h, _, _, by cases e <;> decide, source_code_lt a, rfl⟩
theorem negF (h : Slot) (e : FpFmt) (a : Src) : Statement (.negF h e a) := ⟨h, _, _, by cases e <;> decide, source_code_lt a, rfl⟩
theorem cmpeqF (h : Slot) (e : FpFmt) (a : Src) : Statement (.cmpeqF h e a) :=
  ⟨h, _, _, by cases e <;> decide, source_code_lt a, rfl⟩
theorem cmpltF (h : Slot) (e : FpFmt) (a : Src) : Statement (.cmpltF h e a) :=
  ⟨h, _, _, by cases e <;> decide, source_code_lt a, rfl⟩
theorem cmpleF (h : Slot) (e : FpFmt) (a : Src) : Statement (.cmpleF h e a) :=
  ⟨h, _, _, by cases e <;> decide, source_code_lt a, rfl⟩
theorem cmpunF (h : Slot) (e : FpFmt) (a : Src) : Statement (.cmpunF h e a) :=
  ⟨h, _, _, by cases e <;> decide, source_code_lt a, rfl⟩
theorem iadd (h : Slot) (e : IntW) (a : Src) : Statement (.iadd h e a) := ⟨h, _, _, by cases e <;> decide, source_code_lt a, rfl⟩
theorem isub (h : Slot) (e : IntW) (a : Src) : Statement (.isub h e a) := ⟨h, _, _, by cases e <;> decide, source_code_lt a, rfl⟩
theorem iadds (h : Slot) (e : IntW) (a : Src) : Statement (.iadds h e a) :=
  ⟨h, _, _, by cases e <;> decide, source_code_lt a, rfl⟩
theorem iaddsu (h : Slot) (e : IntW) (a : Src) : Statement (.iaddsu h e a) :=
  ⟨h, _, _, by cases e <;> decide, source_code_lt a, rfl⟩
theorem isubs (h : Slot) (e : IntW) (a : Src) : Statement (.isubs h e a) :=
  ⟨h, _, _, by cases e <;> decide, source_code_lt a, rfl⟩
theorem isubsu (h : Slot) (e : IntW) (a : Src) : Statement (.isubsu h e a) :=
  ⟨h, _, _, by cases e <;> decide, source_code_lt a, rfl⟩
theorem imul (h : Slot) (e : IntW) (a : Src) : Statement (.imul h e a) := ⟨h, _, _, by cases e <;> decide, source_code_lt a, rfl⟩
theorem imulh (h : Slot) (e : IntW) (a : Src) : Statement (.imulh h e a) :=
  ⟨h, _, _, by cases e <;> decide, source_code_lt a, rfl⟩
theorem imulhu (h : Slot) (e : IntW) (a : Src) : Statement (.imulhu h e a) :=
  ⟨h, _, _, by cases e <;> decide, source_code_lt a, rfl⟩
theorem imin (h : Slot) (e : IntW) (a : Src) : Statement (.imin h e a) := ⟨h, _, _, by cases e <;> decide, source_code_lt a, rfl⟩
theorem iminu (h : Slot) (e : IntW) (a : Src) : Statement (.iminu h e a) :=
  ⟨h, _, _, by cases e <;> decide, source_code_lt a, rfl⟩
theorem imax (h : Slot) (e : IntW) (a : Src) : Statement (.imax h e a) := ⟨h, _, _, by cases e <;> decide, source_code_lt a, rfl⟩
theorem imaxu (h : Slot) (e : IntW) (a : Src) : Statement (.imaxu h e a) :=
  ⟨h, _, _, by cases e <;> decide, source_code_lt a, rfl⟩
theorem vecAnd (h : Slot) (e : IntW) (a : Src) : Statement (.vecAnd h e a) :=
  ⟨h, _, _, by cases e <;> decide, source_code_lt a, rfl⟩
theorem vecOr (h : Slot) (e : IntW) (a : Src) : Statement (.vecOr h e a) :=
  ⟨h, _, _, by cases e <;> decide, source_code_lt a, rfl⟩
theorem vecXor (h : Slot) (e : IntW) (a : Src) : Statement (.vecXor h e a) :=
  ⟨h, _, _, by cases e <;> decide, source_code_lt a, rfl⟩
theorem vecAndn (h : Slot) (e : IntW) (a : Src) : Statement (.vecAndn h e a) :=
  ⟨h, _, _, by cases e <;> decide, source_code_lt a, rfl⟩
theorem vecShl (h : Slot) (e : IntW) (a : Src) : Statement (.vecShl h e a) :=
  ⟨h, _, _, by cases e <;> decide, source_code_lt a, rfl⟩
theorem vecShr (h : Slot) (e : IntW) (a : Src) : Statement (.vecShr h e a) :=
  ⟨h, _, _, by cases e <;> decide, source_code_lt a, rfl⟩
theorem vecSar (h : Slot) (e : IntW) (a : Src) : Statement (.vecSar h e a) :=
  ⟨h, _, _, by cases e <;> decide, source_code_lt a, rfl⟩
theorem icmpeq (h : Slot) (e : IntW) (a : Src) : Statement (.icmpeq h e a) :=
  ⟨h, _, _, by cases e <;> decide, source_code_lt a, rfl⟩
theorem icmplt (h : Slot) (e : IntW) (a : Src) : Statement (.icmplt h e a) :=
  ⟨h, _, _, by cases e <;> decide, source_code_lt a, rfl⟩
theorem icmpltu (h : Slot) (e : IntW) (a : Src) : Statement (.icmpltu h e a) :=
  ⟨h, _, _, by cases e <;> decide, source_code_lt a, rfl⟩
theorem iabs (h : Slot) (e : IntW) (a : Src) : Statement (.iabs h e a) := ⟨h, _, _, by cases e <;> decide, source_code_lt a, rfl⟩
theorem vecPopc (h : Slot) (e : IntW) (a : Src) : Statement (.vecPopc h e a) :=
  ⟨h, _, _, by cases e <;> decide, source_code_lt a, rfl⟩
theorem vecClz (h : Slot) (e : IntW) (a : Src) : Statement (.vecClz h e a) :=
  ⟨h, _, _, by cases e <;> decide, source_code_lt a, rfl⟩
theorem cvt (h : Slot) (t : CvtT) (a : Src) : Statement (.cvt h t a) :=
  ⟨h, _, _, by cases t <;> first | decide | (rename_i f; cases f <;> decide), source_code_lt a, rfl⟩
theorem cvtsc (h : Slot) (t : CvtT) (a : Src) : Statement (.cvtsc h t a) :=
  ⟨h, _, _, by cases t <;> first | decide | (rename_i f; cases f <;> decide), source_code_lt a, rfl⟩
theorem cvtsr (h : Slot) (t : CvtT) (a : Src) : Statement (.cvtsr h t a) :=
  ⟨h, _, _, by cases t <;> first | decide | (rename_i f; cases f <;> decide), source_code_lt a, rfl⟩
theorem redadd (h : Slot) (a : Src) : Statement (.redadd h a) := ⟨h, _, _, by decide, source_code_lt a, rfl⟩
theorem redmax (h : Slot) (a : Src) : Statement (.redmax h a) := ⟨h, _, _, by decide, source_code_lt a, rfl⟩
theorem redmin (h : Slot) (a : Src) : Statement (.redmin h a) := ⟨h, _, _, by decide, source_code_lt a, rfl⟩
theorem vmaxi (h : Slot) (a : Src) : Statement (.vmaxi h a) := ⟨h, _, _, by decide, source_code_lt a, rfl⟩
theorem vmini (h : Slot) (a : Src) : Statement (.vmini h a) := ⟨h, _, _, by decide, source_code_lt a, rfl⟩
theorem perm (h : Slot) (a : Src) : Statement (.perm h a) := ⟨h, _, _, by decide, source_code_lt a, rfl⟩
theorem bcast (h : Slot) (a : Src) : Statement (.bcast h a) := ⟨h, _, _, by decide, source_code_lt a, rfl⟩
theorem sel (h : Slot) (a : Src) : Statement (.sel h a) := ⟨h, _, _, by decide, source_code_lt a, rfl⟩
theorem vld (h : Slot) (a : Src) : Statement (.vld h a) := ⟨h, _, _, by decide, source_code_lt a, rfl⟩
theorem vst (h : Slot) (a : Src) : Statement (.vst h a) := ⟨h, _, _, by decide, source_code_lt a, rfl⟩
theorem vldt (h : Slot) (a : Src) : Statement (.vldt h a) := ⟨h, _, _, by decide, source_code_lt a, rfl⟩
theorem vldCl (h : Slot) (a : Src) : Statement (.vldCl h a) := ⟨h, _, _, by decide, source_code_lt a, rfl⟩
theorem vstCl (h : Slot) (a : Src) : Statement (.vstCl h a) := ⟨h, _, _, by decide, source_code_lt a, rfl⟩
theorem gath (h : Slot) (a : Src) : Statement (.gath h a) := ⟨h, _, _, by decide, source_code_lt a, rfl⟩
theorem scat (h : Slot) (a : Src) : Statement (.scat h a) := ⟨h, _, _, by decide, source_code_lt a, rfl⟩
theorem fpset (h : Slot) (a : Src) : Statement (.fpset h a) := ⟨h, _, _, by decide, source_code_lt a, rfl⟩
theorem fpflush (h : Slot) (a : Src) : Statement (.fpflush h a) := ⟨h, _, _, by decide, source_code_lt a, rfl⟩
theorem trowE8 (h : Slot) (a : Src) : Statement (.trowE8 h a) := ⟨h, _, _, by decide, source_code_lt a, rfl⟩
theorem trowE16 (h : Slot) (a : Src) : Statement (.trowE16 h a) := ⟨h, _, _, by decide, source_code_lt a, rfl⟩
theorem trowE32 (h : Slot) (a : Src) : Statement (.trowE32 h a) := ⟨h, _, _, by decide, source_code_lt a, rfl⟩
theorem trowE64 (h : Slot) (a : Src) : Statement (.trowE64 h a) := ⟨h, _, _, by decide, source_code_lt a, rfl⟩
theorem tdrain (h : Slot) : Statement (.tdrain h) := ⟨h, _, _, by decide, by decide, rfl⟩
theorem tclr (h : Slot) : Statement (.tclr h) := ⟨h, _, _, by decide, by decide, rfl⟩
theorem mpset (h : Slot) (n : Fin 8) (a : Src) : Statement (.mpset h n a) := ⟨h, _, _, by omega, source_code_lt a, rfl⟩
theorem mpget (h : Slot) (n : Fin 8) : Statement (.mpget h n) := ⟨h, _, _, by omega, by decide, rfl⟩
theorem mxload (h : Slot) (a : Src) : Statement (.mxload h a) := ⟨h, _, _, by decide, source_code_lt a, rfl⟩
theorem mxq (h : Slot) : Statement (.mxq h) := ⟨h, _, _, by decide, by decide, rfl⟩
theorem xplan (h : Slot) (a : Src) : Statement (.xplan h a) := ⟨h, _, _, by decide, source_code_lt a, rfl⟩
theorem xfft (h : Slot) (a : Src) : Statement (.xfft h a) := ⟨h, _, _, by decide, source_code_lt a, rfl⟩
theorem xffti (h : Slot) (a : Src) : Statement (.xffti h a) := ⟨h, _, _, by decide, source_code_lt a, rfl⟩
theorem xlegf (h : Slot) (a : Src) : Statement (.xlegf h a) := ⟨h, _, _, by decide, source_code_lt a, rfl⟩
theorem xlegi (h : Slot) (a : Src) : Statement (.xlegi h a) := ⟨h, _, _, by decide, source_code_lt a, rfl⟩
theorem xshtf (h : Slot) (a : Src) : Statement (.xshtf h a) := ⟨h, _, _, by decide, source_code_lt a, rfl⟩
theorem xshti (h : Slot) (a : Src) : Statement (.xshti h a) := ⟨h, _, _, by decide, source_code_lt a, rfl⟩
theorem mxcall (h : Slot) (n : Fin 256) (a : Src) : Statement (.mxcall h n a) := ⟨h, _, _, by omega, source_code_lt a, rfl⟩
theorem cpyN (h : Slot) (a : Src) : Statement (.cpyN h a) := ⟨h, _, _, by decide, source_code_lt a, rfl⟩
theorem cpyNd (h : Slot) (a : Src) : Statement (.cpyNd h a) := ⟨h, _, _, by decide, source_code_lt a, rfl⟩
theorem ceGath (h : Slot) (a : Src) : Statement (.ceGath h a) := ⟨h, _, _, by decide, source_code_lt a, rfl⟩
theorem ceScat (h : Slot) (a : Src) : Statement (.ceScat h a) := ⟨h, _, _, by decide, source_code_lt a, rfl⟩
theorem accLd (h : Slot) (a : Src) : Statement (.accLd h a) := ⟨h, _, _, by decide, source_code_lt a, rfl⟩
theorem accSt (h : Slot) (a : Src) : Statement (.accSt h a) := ⟨h, _, _, by decide, source_code_lt a, rfl⟩
theorem gaAdd (h : Slot) (a : Src) : Statement (.gaAdd h a) := ⟨h, _, _, by decide, source_code_lt a, rfl⟩
theorem gaAnd (h : Slot) (a : Src) : Statement (.gaAnd h a) := ⟨h, _, _, by decide, source_code_lt a, rfl⟩
theorem gaOr (h : Slot) (a : Src) : Statement (.gaOr h a) := ⟨h, _, _, by decide, source_code_lt a, rfl⟩
theorem gaXor (h : Slot) (a : Src) : Statement (.gaXor h a) := ⟨h, _, _, by decide, source_code_lt a, rfl⟩
theorem gaMin (h : Slot) (a : Src) : Statement (.gaMin h a) := ⟨h, _, _, by decide, source_code_lt a, rfl⟩
theorem gaMax (h : Slot) (a : Src) : Statement (.gaMax h a) := ⟨h, _, _, by decide, source_code_lt a, rfl⟩
theorem gaSwap (h : Slot) (a : Src) : Statement (.gaSwap h a) := ⟨h, _, _, by decide, source_code_lt a, rfl⟩
theorem gaCas (h : Slot) (a : Src) : Statement (.gaCas h a) := ⟨h, _, _, by decide, source_code_lt a, rfl⟩
theorem mcst (h : Slot) (a : Src) : Statement (.mcst h a) := ⟨h, _, _, by decide, source_code_lt a, rfl⟩
theorem wbr (h : Slot) (a : Src) : Statement (.wbr h a) := ⟨h, _, _, by decide, source_code_lt a, rfl⟩
theorem invr (h : Slot) (a : Src) : Statement (.invr h a) := ⟨h, _, _, by decide, source_code_lt a, rfl⟩
theorem pref (h : Slot) (a : Src) : Statement (.pref h a) := ⟨h, _, _, by decide, source_code_lt a, rfl⟩
theorem waitany (h : Slot) (a : Src) : Statement (.waitany h a) := ⟨h, _, _, by decide, source_code_lt a, rfl⟩
theorem waitall (h : Slot) (a : Src) : Statement (.waitall h a) := ⟨h, _, _, by decide, source_code_lt a, rfl⟩
theorem ffr (h : Slot) (a : Src) : Statement (.ffr h a) := ⟨h, _, _, by decide, source_code_lt a, rfl⟩
theorem clrtag (h : Slot) (a : Src) : Statement (.clrtag h a) := ⟨h, _, _, by decide, source_code_lt a, rfl⟩
theorem bcInit (h : Slot) (a : Src) : Statement (.bcInit h a) := ⟨h, _, _, by decide, source_code_lt a, rfl⟩
theorem arriveExp (h : Slot) (a : Src) : Statement (.arriveExp h a) := ⟨h, _, _, by decide, source_code_lt a, rfl⟩
theorem bcSub (h : Slot) (a : Src) : Statement (.bcSub h a) := ⟨h, _, _, by decide, source_code_lt a, rfl⟩
theorem bcWait (h : Slot) (a : Src) : Statement (.bcWait h a) := ⟨h, _, _, by decide, source_code_lt a, rfl⟩
theorem xcoll (h : Slot) (a : Src) : Statement (.xcoll h a) := ⟨h, _, _, by decide, source_code_lt a, rfl⟩
theorem ttready (h : Slot) (a : Src) : Statement (.ttready h a) := ⟨h, _, _, by decide, source_code_lt a, rfl⟩
theorem catArm (h : Slot) (a : Src) : Statement (.catArm h a) := ⟨h, _, _, by decide, source_code_lt a, rfl⟩
theorem catDisarm (h : Slot) (a : Src) : Statement (.catDisarm h a) := ⟨h, _, _, by decide, source_code_lt a, rfl⟩
theorem waitid (h : Slot) (a : Src) : Statement (.waitid h a) := ⟨h, _, _, by decide, source_code_lt a, rfl⟩
theorem mnop (m : Micro) : Statement (.mnop m) := ⟨_, _, by decide, rfl⟩
theorem mend (m : Micro) : Statement (.mend m) := ⟨_, _, by decide, rfl⟩
theorem mseta (m : Micro) : Statement (.mseta m) := ⟨_, _, by decide, rfl⟩
theorem madd (m : Micro) : Statement (.madd m) := ⟨_, _, by decide, rfl⟩
theorem msetc (m : Micro) : Statement (.msetc m) := ⟨_, _, by decide, rfl⟩
theorem mloop (m : Micro) : Statement (.mloop m) := ⟨_, _, by decide, rfl⟩
theorem mjmp (m : Micro) : Statement (.mjmp m) := ⟨_, _, by decide, rfl⟩
theorem mlda (m : Micro) : Statement (.mlda m) := ⟨_, _, by decide, rfl⟩
theorem mldb (m : Micro) : Statement (.mldb m) := ⟨_, _, by decide, rfl⟩
theorem mldsa (m : Micro) : Statement (.mldsa m) := ⟨_, _, by decide, rfl⟩
theorem mldsw (m : Micro) : Statement (.mldsw m) := ⟨_, _, by decide, rfl⟩
theorem mlde (m : Micro) : Statement (.mlde m) := ⟨_, _, by decide, rfl⟩
theorem mldm (m : Micro) : Statement (.mldm m) := ⟨_, _, by decide, rfl⟩
theorem mstr (m : Micro) : Statement (.mstr m) := ⟨_, _, by decide, rfl⟩
theorem mzero (m : Micro) : Statement (.mzero m) := ⟨_, _, by decide, rfl⟩
theorem mstacc (m : Micro) : Statement (.mstacc m) := ⟨_, _, by decide, rfl⟩
theorem mldacc (m : Micro) : Statement (.mldacc m) := ⟨_, _, by decide, rfl⟩
theorem bundleIssue : Statement .bundleIssue := trivial
theorem cbxReloadEnd (sid : Nat) : Statement (.cbxReloadEnd sid) := trivial
theorem windowAccessPerform (cluster : Nat) : Statement (.windowAccessPerform cluster) := trivial
theorem resultPush (sid : Nat) : Statement (.resultPush sid) := trivial
theorem spillWriteComplete (sid : Nat) : Statement (.spillWriteComplete sid) := trivial
theorem fillArrive (sid : Nat) : Statement (.fillArrive sid) := trivial
theorem feedElementArrive (ctx : Nat) (port : Fin 8) : Statement (.feedElementArrive ctx port) := trivial
theorem heldOpRun (ctx : Nat) (u : UnitName) : Statement (.heldOpRun ctx u) := trivial
theorem slackExhausted (sid : Nat) : Statement (.slackExhausted sid) := trivial
theorem stallEnd (sid : Nat) : Statement (.stallEnd sid) := trivial
theorem tkpostDeliver (sid : Nat) : Statement (.tkpostDeliver sid) := trivial
theorem agexcuseAck (x : ExcuseAck) : Statement (.agexcuseAck x) := trivial
theorem retireComplete (sid : Nat) : Statement (.retireComplete sid) := trivial
theorem csyncSnapshot (sid : Nat) : Statement (.csyncSnapshot sid) := trivial
theorem l2domSwitchDone (die : Nat) (dom : Fin 16) : Statement (.l2domSwitchDone die dom) := trivial
theorem replayResponse (cmd : Nat) : Statement (.replayResponse cmd) := trivial
theorem fenceComplete (sid : Nat) : Statement (.fenceComplete sid) := trivial
theorem invalidationApply (die : Nat) (stamp : List Nat) : Statement (.invalidationApply die stamp) := trivial
theorem columnPresent (ctx : Nat) : Statement (.columnPresent ctx) := trivial
theorem heldCallEnqueue (ctx : Nat) (e : Engine) : Statement (.heldCallEnqueue ctx e) := trivial
theorem mxeCallStart (ctx : Nat) : Statement (.mxeCallStart ctx) := trivial
theorem mxloadRun (ctx : Nat) : Statement (.mxloadRun ctx) := trivial
theorem engineCallComplete (ctx : Nat) (e : Engine) : Statement (.engineCallComplete ctx e) := trivial
theorem engineTokenPostDeferred (ctx : Nat) (e : Engine) : Statement (.engineTokenPostDeferred ctx e) := trivial
theorem xfuCallStart (ctx : Nat) : Statement (.xfuCallStart ctx) := trivial
theorem mxeQuiesce (ctx : Nat) : Statement (.mxeQuiesce ctx) := trivial
theorem xfuQuiesce (ctx : Nat) : Statement (.xfuQuiesce ctx) := trivial
theorem tagCommandAccept (cmd : Nat) : Statement (.tagCommandAccept cmd) := trivial
theorem copyChunk (cmd : Nat) : Statement (.copyChunk cmd) := trivial
theorem tagCommandComplete (cmd : Nat) : Statement (.tagCommandComplete cmd) := trivial
theorem catalogueDisarmComplete (cmd : Nat) : Statement (.catalogueDisarmComplete cmd) := trivial
theorem counterArrival (ctx : Nat) (bca : Nat) (len : Nat) : Statement (.counterArrival ctx bca len) := trivial
theorem readinessNotice (n : Notice) : Statement (.readinessNotice n) := trivial
theorem pullRequest (p : Pull) : Statement (.pullRequest p) := trivial
theorem chunkLand (f : Flight) : Statement (.chunkLand f) := trivial
theorem parkedChunkWrite (num : Nat) : Statement (.parkedChunkWrite num) := trivial
theorem localPullFault (xfer : Nat) : Statement (.localPullFault xfer) := trivial
theorem parkingSpaceFree (port : Fin 64) : Statement (.parkingSpaceFree port) := trivial
theorem parkedNoticeRelease (sid : Nat) (chan : Fin 16) (grp : Nat) : Statement (.parkedNoticeRelease sid chan grp) := trivial
theorem transferIdComplete (sid : Nat) (chan : Fin 16) (id : Nat) (far : List Served) : Statement (.transferIdComplete sid chan id far) :=
  trivial
theorem k2TokenPost (sid : Nat) : Statement (.k2TokenPost sid) := trivial
theorem staleRefuse (p : Versioned) : Statement (.staleRefuse p) := trivial
theorem chunkRedrive (xfer : Nat) : Statement (.chunkRedrive xfer) := trivial
theorem noticeResend (n : Notice) : Statement (.noticeResend n) := trivial
theorem mcstReplicaArrive (r : Replica) : Statement (.mcstReplicaArrive r) := trivial
theorem mcstAckArrive (cmd : Nat) (ack : FarAck) : Statement (.mcstAckArrive cmd ack) := trivial
theorem circuitChange (port : Fin 64) : Statement (.circuitChange port) := trivial
theorem linkRetrained (port : Fin 64) : Statement (.linkRetrained port) := trivial
theorem retrainTimeout (port : Fin 64) : Statement (.retrainTimeout port) := trivial
theorem linkFail (port : Fin 64) : Statement (.linkFail port) := trivial
theorem packetTrainStart (port : Fin 64) (duty : BitVec 8) : Statement (.packetTrainStart port duty) := trivial
theorem errorMonitorRaise (port : Fin 64) (level : BitVec 8) : Statement (.errorMonitorRaise port level) := trivial
theorem holdExpire (port : Fin 64) (need : BitVec 8) : Statement (.holdExpire port need) := trivial
theorem contributionArrive (c : Contribution) : Statement (.contributionArrive c) := trivial
theorem agreementTimeout (gid : Nat) : Statement (.agreementTimeout gid) := trivial
theorem answerArrive (sid : Nat) (slot : Fin 4) (v : Bool) (st : AnswerStatus) : Statement (.answerArrive sid slot v st) := trivial
theorem heldStoreDrain (sid : Nat) : Statement (.heldStoreDrain sid) := trivial
theorem leaveNotice (group : LeftGroup) (midx : Nat) (out : Bool) : Statement (.leaveNotice group midx out) := trivial
theorem preemptedNotice (gid : Nat) (member : PreemptedMember) : Statement (.preemptedNotice gid member) := trivial
theorem resumeNotice (gid : Nat) (member : PreemptedMember) : Statement (.resumeNotice gid member) := trivial
theorem taskFail (sid : Nat) (cause : Nat) (sub : Nat) (addr : Nat) : Statement (.taskFail sid cause sub addr) := trivial
theorem watchdogFire (task : Nat) : Statement (.watchdogFire task) := trivial
theorem unitClaimComplete (sid : Nat) (u : TileUnit) : Statement (.unitClaimComplete sid u) := trivial
theorem dieReport (die : Nat) : Statement (.dieReport die) := trivial
theorem taskPlace (task : Nat) : Statement (.taskPlace task) := trivial
theorem taskResume (task : Nat) : Statement (.taskResume task) := trivial
theorem frameStart : Statement .frameStart := trivial
theorem queueIdleUnmap (q : Nat) : Statement (.queueIdleUnmap q) := trivial
theorem signalAck (q : Nat) (idx : Nat) : Statement (.signalAck q idx) := trivial
theorem invalAck (q : Nat) : Statement (.invalAck q) := trivial
theorem graphStepBegin (g : Fin 16) : Statement (.graphStepBegin g) := trivial
theorem graphNodeComplete (g : Fin 16) (node : Nat) : Statement (.graphNodeComplete g node) := trivial
theorem condNodeRead (g : Fin 16) (node : Nat) : Statement (.condNodeRead g node) := trivial
theorem notifyWrite (q : Nat) (v : Word) : Statement (.notifyWrite q v) := trivial
theorem crdidxWrite (q : Nat) (v : Word) : Statement (.crdidxWrite q v) := trivial
theorem queueRegister (q : Nat) (w : Fin 8) (v : Word) : Statement (.queueRegister q w v) := trivial
theorem queueUnregister (q : Nat) (v : Word) : Statement (.queueUnregister q v) := trivial
theorem queueHalt (q : Nat) (v : Word) : Statement (.queueHalt q v) := trivial
theorem queueResume (q : Nat) (v : Word) : Statement (.queueResume q v) := trivial
theorem rdidxWrite (q : Nat) (v : Word) : Statement (.rdidxWrite q v) := trivial
theorem hostMemoryAccess (place : BarPlace) (op : HostOp) : Statement (.hostMemoryAccess place op) := trivial
theorem groupMemberWrite (g : Nat) (m : Nat) (v : BitVec 32) : Statement (.groupMemberWrite g m v) := trivial
theorem groupHeaderWrite (g : Nat) (v : Word) : Statement (.groupHeaderWrite g v) := trivial
theorem routingEntryWrite (m : Nat) (via : Bool) (v : Word) : Statement (.routingEntryWrite m via v) := trivial
theorem rtctlStage (v : Word) : Statement (.rtctlStage v) := trivial
theorem topologySwap (v : Word) : Statement (.topologySwap v) := trivial
theorem ptrootWrite (v : Word) : Statement (.ptrootWrite v) := trivial
theorem fltbaseWrite (v : Word) : Statement (.fltbaseWrite v) := trivial
theorem fltrespResolve (num : BitVec 32) : Statement (.fltrespResolve num) := trivial
theorem fltrespRefuse (num : BitVec 32) : Statement (.fltrespRefuse num) := trivial
theorem iclampWrite (v : Word) : Statement (.iclampWrite v) := trivial
theorem attestNonceWrite (nonce : BitVec 256) : Statement (.attestNonceWrite nonce) := trivial
theorem registerWrite (off : Nat) (v : Word) : Statement (.registerWrite off v) := trivial
theorem currentClampReached : Statement .currentClampReached := trivial
theorem clockRecoverStep : Statement .clockRecoverStep := trivial
theorem functionLevelReset : Statement .functionLevelReset := trivial
theorem moduleReset (verified : Bool) (code : Word) (measure : List (BitVec 256)) : Statement (.moduleReset verified code measure) :=
  trivial
theorem pcieLinkTrain (rate : Nat) (width : Nat) : Statement (.pcieLinkTrain rate width) := trivial
theorem fltrdWrite (v : Word) : Statement (.fltrdWrite v) := trivial
theorem scalarBankRetire (ptn : Nat) (bank : Fin 8) : Statement (.scalarBankRetire ptn bank) := trivial
theorem opticalBudgetChange (port : Fin 64) (budget : BitVec 8) : Statement (.opticalBudgetChange port budget) := trivial
theorem portDisable (port : Fin 64) : Statement (.portDisable port) := trivial

end Sys2Proof.Laws.Encoding
end

