-- ==== Sys2Proof/Laws/Slots.lean ====
section
/-! SUPPORT. What a slot's frame is made of: how a slot body's answer becomes a step's, and all that the delivery of
operands can change. -/

namespace Sys2Proof.Machine

/-! ### From a body to a step -/

/-- A slot that runs answers what its body gives, moved past the slot. -/
theorem runSlot_of_ok {h : Slot} {body : Frame → Except Stop Frame} {s : State} {f g : Frame} (r : s.Runs h f)
    (b : body f = .ok g) : runSlot h body s = .next (g.advance h.stop) := by
  obtain ⟨f0, h1, h0, h2, h3, h4⟩ := r
  simp [runSlot, runSlotTo, h1, h0, h2, h3, h4, b, bind, Except.bind, Except.map]

/-- A slot that gives the next state itself. -/
theorem runSlotTo_of_ok {h : Slot} {body : Frame → Except Stop State} {s t : State} {f : Frame} (r : s.Runs h f)
    (b : body f = .ok t) : runSlotTo h body s = .next t := by
  obtain ⟨f0, h1, h0, h2, h3, h4⟩ := r
  simp [runSlotTo, h1, h0, h2, h3, h4, b, bind, Except.bind]

/-- A slot whose body traps takes the trap. -/
theorem runSlot_of_trap {h : Slot} {body : Frame → Except Stop Frame} {s : State} {f : Frame} {r : TrapRec}
    (hr : s.Runs h f) (b : body f = .error (.trap r)) : ∃ f0, s.frame = some f0 ∧
      runSlot h body s = .next (takeTrap f0.begin r false) := by
  obtain ⟨f0, h1, h0, h2, h3, h4⟩ := hr
  exact ⟨f0, h1, by simp [runSlot, runSlotTo, Frame.stopAt, h1, h0, h2, h3, h4, b, bind, Except.bind, Except.map]⟩

/-- A slot that is skipped has no effect. -/
theorem runSlotTo_of_skips {h : Slot} {body : Frame → Except Stop State} {s : State} {f : Frame} (r : s.Skips h f) :
    runSlotTo h body s = .next (f.advance h.stop) := by
  obtain ⟨f0, h1, h0, rfl, h3⟩ := r
  rcases h3 with h3 | h3 <;> simp [runSlotTo, h1, h0, h3]

/-! ### What delivery changes -/

theorem Frame.Delivered.refl (f : Frame) : f.Delivered f := ⟨rfl, rfl, rfl⟩

theorem Frame.Delivered.trans {f g h : Frame} (a : f.Delivered g) (b : g.Delivered h) : f.Delivered h := by
  obtain ⟨a1, a2, a3⟩ := a
  obtain ⟨b1, b2, b3⟩ := b
  refine ⟨?_, ?_, ?_⟩
  · rw [a1] at b1; exact b1
  · rw [a2] at b2; exact b2
  · rw [a3] at b3; exact b3

theorem Frame.own_delivered (f : Frame) (u : TileUnit) : f.Delivered (f.own u) := by
  unfold Frame.own
  split
  · exact .refl f
  · exact ⟨rfl, rfl, rfl⟩

theorem Frame.touch_delivered {f g : Frame} {u : TileUnit} (h : f.touch u = .ok g) : f.Delivered g := by
  unfold Frame.touch at h
  split at h <;> cases h
  exact own_delivered _ _

theorem Frame.reach_delivered {f g : Frame} {u : TileUnit} (h : f.reach u = .ok g) : f.Delivered g := by
  unfold Frame.reach at h
  split at h
  · cases h; exact own_delivered _ _
  · split at h <;> cases h
    exact ⟨rfl, rfl, rfl⟩

theorem Frame.reachAll_delivered {us : List TileUnit} : ∀ {f g : Frame}, f.reachAll us = .ok g → f.Delivered g := by
  induction us with
  | nil => intro f g h; cases h; exact .refl f
  | cons u us ih =>
    intro f g h
    unfold Frame.reachAll at h
    split at h
    · exact (reach_delivered ‹_›).trans (ih h)
    · cases h

theorem Frame.touchAll_delivered {us : List TileUnit} : ∀ {f g : Frame}, f.touchAll us = .ok g → f.Delivered g := by
  induction us with
  | nil => intro f g h; cases h; exact .refl f
  | cons u us ih =>
    intro f g h
    unfold Frame.touchAll at h
    split at h
    · exact (touch_delivered ‹_›).trans (ih h)
    · cases h

theorem Frame.popOnce_delivered {f g : Frame} {x : Source} {b : Bool} (h : f.popOnce x b = .ok g) : f.Delivered g := by
  simp only [Frame.popOnce] at h
  split at h <;> cases h
  exact ⟨rfl, rfl, rfl⟩

theorem Frame.setTokens_delivered (f : Frame) (n : Nat) (l : List Word) : f.Delivered (f.setTokens n l) := by
  unfold Frame.setTokens
  split <;> exact ⟨rfl, rfl, rfl⟩

theorem Frame.notePop_delivered (f : Frame) (n : Nat) (w : Word) : f.Delivered (f.notePop n w) := by
  unfold Frame.notePop
  split <;> exact ⟨rfl, rfl, rfl⟩

theorem Ctx.popColumn_delivered (f : Frame) : f.Delivered { f with c := f.c.popColumn } := by
  unfold Ctx.popColumn
  split <;> exact ⟨rfl, rfl, rfl⟩

theorem Fetch.token_delivered {k k' : Fetch} {n : Fin 4} {p b : Bool} {x : HeldArg} (h : k.token n p b = .ok (x, k')) :
    k.f.Delivered k'.f := by
  unfold Fetch.token at h
  split at h
  · split at h
    · cases h
    · split at h <;> cases h
      exact ((Frame.popOnce_delivered ‹_›).trans (Frame.setTokens_delivered _ _ _)).trans (Frame.notePop_delivered _ _ _)
  · cases h; exact .refl _

/-- A bind that answers, taken apart. -/
theorem except_bind_ok {ε α β : Type} {x : Except ε α} {g : α → Except ε β} {r : β} (h : (x >>= g) = .ok r) :
    ∃ a, x = .ok a ∧ g a = .ok r := by
  cases x with
  | error e => cases h
  | ok a => exact ⟨a, rfl, h⟩

theorem Fetch.feed_delivered {k k' : Fetch} {n : Fin 8} {p b : Bool} {x : HeldArg} (h : k.feed n p b = .ok (x, k')) :
    k.f.Delivered k'.f := by
  simp only [Fetch.feed] at h
  split at h
  · cases h
  · split at h
    · cases h; exact .refl _
    · split at h
      · cases h; exact .refl _
      · obtain ⟨_, _, h⟩ := except_bind_ok h
        obtain ⟨f1, h1, h⟩ := except_bind_ok h
        refine (Frame.reachAll_delivered h1).trans ?_
        split at h
        · split at h <;> cases h
          exact (Frame.popOnce_delivered ‹_›).trans ⟨rfl, rfl, rfl⟩
        · cases h; exact .refl _

theorem Fetch.column_delivered {k k' : Fetch} {p b : Bool} {x : HeldArg} (h : k.column p b = .ok (x, k')) :
    k.f.Delivered k'.f := by
  simp only [Fetch.column] at h
  split at h
  · cases h
  · split at h
    · split at h <;> cases h
      exact (Frame.popOnce_delivered ‹_›).trans (Ctx.popColumn_delivered _)
    · cases h; exact .refl _

theorem Fetch.source_delivered {k k' : Fetch} {s : Source} {p b : Bool} {x : HeldArg}
    (h : k.source s p b = .ok (x, k')) : k.f.Delivered k'.f := by
  unfold Fetch.source at h
  split at h
  · exact token_delivered h
  · exact feed_delivered h
  · exact column_delivered h
  · split at h <;> cases h
    exact .refl _

theorem Fetch.portValue_delivered {k k' : Fetch} {u : UnitName} {p : OpPort} {b : Bool} {x : HeldArg}
    (h : k.portValue u p b = .ok (x, k')) : k.f.Delivered k'.f := by
  simp only [Fetch.portValue] at h
  split at h
  · cases h; exact .refl _
  · split at h
    · cases h; exact .refl _
    · split at h
      · exact source_delivered h
      · cases h; exact .refl _
    · cases h; exact .refl _

theorem Fetch.arg_delivered {k k' : Fetch} {a : Option Src} {x : HeldArg} (h : k.arg a = .ok (x, k')) :
    k.f.Delivered k'.f := by
  unfold Fetch.arg at h
  split at h
  · cases h; exact .refl _
  · exact source_delivered h

/-- A bind of what has answered. -/
theorem except_ok_bind {ε α β : Type} (a : α) (g : α → Except ε β) : ((.ok a : Except ε α) >>= g) = g a := rfl

/-- All that gathering a trigger's operands can change. -/
theorem Frame.gather_delivered {f : Frame} {g : Trig} {x : Args} {k : Fetch} (h : f.gather g = .ok (x, k)) :
    f.Delivered k.f := by
  unfold Frame.gather at h
  obtain ⟨_, _, h⟩ := except_bind_ok h
  obtain ⟨_, _, h⟩ := except_bind_ok h
  obtain ⟨_, _, h⟩ := except_bind_ok h
  obtain ⟨_, _, h⟩ := except_bind_ok h
  obtain ⟨_, _, h⟩ := except_bind_ok h
  obtain ⟨f1, h1, h⟩ := except_bind_ok h
  obtain ⟨_, _, h⟩ := except_bind_ok h
  obtain ⟨⟨_, k1⟩, ha, h⟩ := except_bind_ok h
  obtain ⟨⟨_, k2⟩, hb, h⟩ := except_bind_ok h
  obtain ⟨⟨_, k3⟩, hc, h⟩ := except_bind_ok h
  obtain ⟨⟨_, k4⟩, hd, h⟩ := except_bind_ok h
  cases h
  exact (reachAll_delivered h1).trans (((Fetch.arg_delivered ha).trans (Fetch.portValue_delivered hb)).trans
    ((Fetch.portValue_delivered hc).trans (Fetch.portValue_delivered hd)))

/-- All that a move's delivery can change. -/
theorem Frame.moveValue_delivered {f g : Frame} {a : Src} {v : Val} (h : f.moveValue a = .ok (v, g)) :
    f.Delivered g := by
  unfold Frame.moveValue at h
  obtain ⟨f1, h1, h⟩ := except_bind_ok h
  obtain ⟨_, _, h⟩ := except_bind_ok h
  obtain ⟨⟨_, k1⟩, ha, h⟩ := except_bind_ok h
  obtain ⟨_, _, h⟩ := except_bind_ok h
  obtain ⟨_, _, h⟩ := except_bind_ok h
  obtain ⟨_, _, h⟩ := except_bind_ok h
  cases h
  exact (touchAll_delivered h1).trans (Fetch.arg_delivered ha)

/-! ### What delivery keeps -/

theorem Frame.Delivered.snap {f g : Frame} (h : f.Delivered g) : g.t.snap = f.t.snap := by rw [h.2.1]
theorem Frame.Delivered.mem {f g : Frame} (h : f.Delivered g) : g.s.mem = f.s.mem := by rw [h.1]
theorem Frame.Delivered.fpst {f g : Frame} (h : f.Delivered g) : g.c.fpst = f.c.fpst := by rw [h.2.2]
theorem Frame.Delivered.seqSlot {f g : Frame} (h : f.Delivered g) : g.c.seq.slot = f.c.seq.slot := by rw [h.2.2]
theorem Frame.Delivered.registers {f g : Frame} (h : f.Delivered g) : f.SameRegisters g := by
  obtain ⟨_, h2, h3⟩ := h
  unfold Frame.SameRegisters
  rw [h2, h3]
  exact ⟨rfl, rfl, rfl, rfl, rfl, rfl, rfl, rfl, rfl⟩
theorem Frame.Delivered.specials {f g : Frame} (h : f.Delivered g) : f.SameSpecials g := by
  obtain ⟨_, h2, h3⟩ := h
  unfold Frame.SameSpecials
  rw [h2, h3]
  exact ⟨rfl, rfl, rfl, rfl, rfl, rfl, rfl, rfl, rfl, rfl, rfl, rfl, rfl, rfl⟩

theorem Frame.Delivered.again {f g : Frame} (h : f.Delivered g) : g.c.again = f.c.again := by rw [h.2.2]
theorem Frame.Delivered.held {f g : Frame} (h : f.Delivered g) : g.c.held = f.c.held := by rw [h.2.2]
theorem Frame.Delivered.flying {f g : Frame} (h : f.Delivered g) : g.c.flying = f.c.flying := by rw [h.2.2]
theorem Frame.Delivered.nextRid {f g : Frame} (h : f.Delivered g) : g.c.nextRid = f.c.nextRid := by rw [h.2.2]
theorem Frame.Delivered.actsLater {f g : Frame} (h : f.Delivered g) (u : UnitName) :
    g.c.actsLater u = f.c.actsLater u := by unfold Ctx.actsLater; rw [h.held]

/-! ### Triggers that run -/

/-- A slot that runs is no held operation's turn. -/
theorem State.Runs.again {s : State} {h : Slot} {f : Frame} (r : s.Runs h f) : f.c.again = none := by
  obtain ⟨f0, _, h0, _, _, h4⟩ := r
  rw [(Frame.touchAll_delivered h4).again]
  exact h0

/-- Whether a trigger must act later does not change as its operands are delivered and its unit's supplies consumed. -/
theorem mustWait_delivered {f : Frame} {g : Trig} {x : Args} {k : Fetch} (h : f.gather g = .ok (x, k)) :
    Frame.mustWait { k.f with c := k.f.c.consume g.u } g x = f.mustWait g x := by
  have e : (k.f.c.consume g.u).actsLater g.u = f.c.actsLater g.u := (Frame.gather_delivered h).actsLater g.u
  simp only [Frame.mustWait, e]

/-- What a trigger whose operands are delivered answers, when its operation does not have to wait: what its operation
leaves, settled. -/
theorem trigger_of_takes {h : Slot} {g : Trig} {run : Frame → Args → Except Stop (Frame × Effect)} {f f' : Frame}
    {x : Args} {k : Fetch} {held : Bool} {e : Effect} (a : f.c.again = none) (t : f.Takes g x k held)
    (r : run (k.ready g.u) x = .ok (f', e)) (l : f'.c.seq.late = []) :
    trigger h g run f = .ok (f'.settle h g k x held e) := by
  obtain ⟨h1, h2, h3, h4, h5⟩ := t
  simp only [Fetch.ready] at r
  have m : Frame.mustWait { k.f with c := k.f.c.consume g.u } g x = false := by rw [← h5]; exact mustWait_delivered h1
  have l0 : (k.f.c.consume g.u).seq.late = [] := h4
  simp [trigger, a, h1, h2, h3, l0, Frame.fire, m, r, l]

/-- A trigger whose operands are delivered and whose operation traps takes the trap with A and B (R348). -/
theorem trigger_traps {h : Slot} {g : Trig} {run : Frame → Args → Except Stop (Frame × Effect)} {f : Frame}
    {x : Args} {k : Fetch} {held : Bool} {q : TrapRec} (a : f.c.again = none) (t : f.Takes g x k held)
    (r : run (k.ready g.u) x = .error (.trap q)) :
    trigger h g run f = .error (.trap { q with opa := x.a.low, opb := x.b.low }) := by
  obtain ⟨h1, h2, h3, h4, h5⟩ := t
  simp only [Fetch.ready] at r
  have m : Frame.mustWait { k.f with c := k.f.c.consume g.u } g x = false := by rw [← h5]; exact mustWait_delivered h1
  simp [trigger, a, h1, h2, h3, Frame.fire, m, r, Stop.within]

/-! ### Units at hand and accesses in order -/

/-- A unit that a slot may touch is reached as it is touched. -/
theorem Frame.reach_of_touch {f g : Frame} {u : TileUnit} (h : f.touch u = .ok g) : f.reach u = .ok g := by
  unfold Frame.touch at h
  unfold Frame.reach
  split at h
  · cases h; simp [*]
  · cases h

theorem Frame.reachAll_of_touchAll {us : List TileUnit} : ∀ {f g : Frame}, f.touchAll us = .ok g → f.reachAll us = .ok g := by
  induction us with
  | nil => intro f g h; exact h
  | cons u us ih =>
    intro f g h
    unfold Frame.touchAll at h
    unfold Frame.reachAll
    split at h
    · rw [reach_of_touch ‹_›]; exact ih h
    · cases h

/-- A touch changes nothing of the context. -/
theorem Frame.touch_ctx {f g : Frame} {u : TileUnit} (h : f.touch u = .ok g) : g.c = f.c := by
  unfold Frame.touch at h
  split at h <;> cases h
  unfold Frame.own
  split <;> rfl

theorem Frame.touchAll_ctx {us : List TileUnit} : ∀ {f g : Frame}, f.touchAll us = .ok g → g.c = f.c := by
  induction us with
  | nil => intro f g h; cases h; rfl
  | cons u us ih =>
    intro f g h
    unfold Frame.touchAll at h
    split at h
    · rw [ih h, touch_ctx ‹_›]
    · cases h

/-- An access that nothing stands before is made. -/
theorem Frame.access_of {f g : Frame} {keys : List (Nat × Nat)} {w : Bool} (h : f.Accesses keys w g) :
    f.access keys w = .ok g := by
  obtain ⟨h1, h2, rfl⟩ := h
  cases w <;> simp_all [Frame.access]

/-- Scratchpad bytes that may be touched pass their checks. -/
theorem Frame.padPlace_of {f g : Frame} {addr width : Nat} {w : Bool} (h : f.PlaceReady addr width w g) :
    f.padPlace addr width w = .ok g := by
  obtain ⟨h1, h2, h3, u, h4, h5⟩ := h
  have hu : u.c.id = f.c.id := by rw [touch_ctx h4]
  simp only [Frame.padPlace, need, h1, h2, h3, reach_of_touch h4, except_ok_bind, decide_true, beq_self_eq_true,
    Bool.and_self, if_true, Bool.not_false, hu]
  exact access_of h5

/-- A scratchpad word that may be touched passes its checks. -/
theorem Frame.padWord_of {f g : Frame} {addr width : Nat} {w : Bool} (h : f.PadReady addr width w g) :
    f.padWord addr width w = .ok g := padPlace_of h

/-- A window address that is legal passes its checks. -/
theorem Frame.windowCheck_of {f g : Frame} {addr n align : Nat} {r w : Bool} (h : f.WindowReady addr n align w g)
    (b : r = true → f.WindowGood addr n) : f.windowCheck addr n align r w = .ok g := by
  obtain ⟨h1, h2, h3⟩ := h
  unfold Frame.WindowGood at b
  have e : (r && f.s.bad (Key.window (clusterOf f.t.ptn) addr) n) = false := by cases r <;> simp_all
  simp only [Frame.windowCheck, need, h1, h2, e, except_ok_bind, decide_true, beq_self_eq_true, Bool.and_self, if_true,
    Bool.not_false]
  exact access_of h3

/-- A vector access that may be made passes its checks. -/
theorem Frame.padVector_of {f g : Frame} {phys : List Nat} {n base : Nat} {al w : Bool}
    (h : f.VectorReady phys n (al = true) w g) : f.padVector phys n al base w = .ok g := by
  obtain ⟨h1, rfl, h3, u, h4, h5⟩ := h
  have e1 : (phys.find? fun a => decide (0x200000 ≤ a)) = none := by
    simp only [List.find?_eq_none]
    intro a ha
    simpa using h1 a ha
  have e2 : f.firstOwned phys = none := by
    simp only [Frame.firstOwned, List.find?_eq_none]
    intro a ha
    simp [h3 a ha]
  have hu : u.c = f.c := touchAll_ctx h4
  simp only [Frame.padVector, refuseFirst, need, e1, e2, if_true, reachAll_of_touchAll h4, except_ok_bind, hu]
  exact access_of h5

/-- Consuming a unit's supplies and settling a result keep what delivery keeps. -/
theorem Frame.settle_keeps (f : Frame) (h : Slot) (g : Trig) (k : Fetch) (x : Args) (held : Bool) (e : Effect) :
    f.SameRegisters (f.settle h g k x held e) ∧ f.SameSpecials (f.settle h g k x held e)
      ∧ (f.settle h g k x held e).s = f.s ∧ (f.settle h g k x held e).c.fpst = f.c.fpst :=
  ⟨⟨rfl, rfl, rfl, rfl, rfl, rfl, rfl, rfl, rfl⟩, ⟨rfl, rfl, rfl, rfl, rfl, rfl, rfl, rfl, rfl, rfl, rfl, rfl, rfl, rfl⟩, rfl, rfl⟩

end Sys2Proof.Machine
end

