-- ==== Sys2Proof/Laws/Registers.lean ====
section
/-! SUPPORT. Registers, ports, lanes and elements of the register files: what one write does to each read. -/

namespace Sys2Proof.Machine

/-- A slot that runs begins in a frame whose memory is the state's. -/
theorem State.Runs.mem {s h f} (r : State.Runs s h f) : f.s.mem = s.mem := by
  obtain ⟨f0, h1, _, _, _, h4⟩ := r
  have := (Frame.touchAll_delivered h4).mem
  rw [this]
  simp only [Frame.begin]
  simp only [State.frame, State.frameOf, Option.bind_eq_some_iff, Option.map_eq_some_iff] at h1
  obtain ⟨_, _, t, _, c, h2, rfl⟩ := h1
  rfl

/-- A move whose value is delivered puts it and passes the slot. -/
theorem moveSlot_of {h : Slot} {units a put s f g v} (r : State.Runs s h f) (c : f.Carries units a v g) :
   moveSlot h units a put s = .next ((put g v).advance h.stop) := by
  obtain ⟨g0, h1, h2⟩ := c
  refine runSlot_of_ok r ?_
  simp [h1, h2, bind, Except.bind, pure, Except.pure]

/-- All that a move's delivery and the touch of its destination can change. -/
theorem carries_delivered {f : Frame} {units a g v}  (c : f.Carries units a v g) : f.Delivered g := by
  obtain ⟨g0, h1, h2⟩ := c
  exact (Frame.moveValue_delivered h1).trans (Frame.touchAll_delivered h2)

/-! ### Register files -/

theorem vget_vset_same {α n} (v : Vector α n) (i : Nat) (x d : α) (h : i < n) : vget (vset v i x) i d = x := by
  simp [vget, vset, List.getD, h]
theorem vget_vset_other {α n} (v : Vector α n) (i j : Nat) (x d : α) (h : i ≠ j) : vget (vset v i x) j d = vget v j d := by
  simp [vget, vset, List.getD, h]

/-- Mending a place gives it fresh check bits; the scalar registers keep what they hold (R371). -/
theorem readS_mend (c : Ctx) (l : List Sram) (n : Fin 32) : (c.mend l).readS n = c.readS n := rfl
theorem readS_writeS_same (c : Ctx) (n : Fin 32) (w) : (c.writeS n w).readS n = w := by
  unfold Ctx.writeS
  split
  · rw [readS_mend]; simp [Ctx.readS, *, vget_vset_same]
  · rw [readS_mend]
    simp only [Ctx.readS, Ctx.ringIndex]
    rw [if_neg (by assumption), vget_vset_same]
    omega
theorem readS_writeS_other (c : Ctx) (n m : Fin 32) (w) (h : m ≠ n) : (c.writeS n w).readS m = c.readS m := by
  have : (m:ℕ) ≠ n := fun e => h (Fin.ext e)
  unfold Ctx.writeS
  split <;> rw [readS_mend]
  · simp only [Ctx.readS]
    split
    · rw [vget_vset_other]; omega
    · rfl
  · simp only [Ctx.readS]
    split
    · rfl
    · simp only [Ctx.ringIndex]
      rw [vget_vset_other]; omega

/-! ### Lanes -/

theorem fold_add (w : Nat) (x : Nat → Nat) (h : ∀ i, x i < 2^w) : ∀ n, (((List.range n).map fun i => x i * 2 ^ (w*i)).foldl (·+·) 0) < 2^(w*n)
    ∧ ∀ i < n, (((List.range n).map fun i => x i * 2 ^ (w*i)).foldl (·+·) 0) / 2^(w*i) % 2^w = x i := by
  intro n
  induction n with
  | zero => simp
  | succ n ih =>
    obtain ⟨ih1, ih2⟩ := ih
    simp only [List.range_succ, List.map_append, List.foldl_append, List.map_cons, List.map_nil, List.foldl_cons, List.foldl_nil]
    set S := (((List.range n).map fun i => x i * 2 ^ (w*i)).foldl (·+·) 0)
    constructor
    · rw [Nat.mul_succ, pow_add]
      have := h n
      nlinarith [Nat.one_le_two_pow (n := w*n)]
    · intro i hi
      by_cases e : i = n
      · subst e
        rw [Nat.add_mul_div_right _ _ (by positivity), Nat.div_eq_of_lt ih1, Nat.zero_add, Nat.mod_eq_of_lt (h _)]
      · have hlt : i < n := by omega
        rw [← ih2 i hlt]
        obtain ⟨d, rfl⟩ : ∃ d, n = i + 1 + d := ⟨n - (i+1), by omega⟩
        have : x (i+1+d) * 2 ^ (w*(i+1+d)) = (x (i+1+d) * 2^(w*d) * 2^w) * 2^(w*i) := by
          rw [show w*(i+1+d) = w*d + w + w*i by ring]; simp only [pow_add]; ring
        rw [this, Nat.add_mul_div_right _ _ (by positivity), Nat.add_mul_mod_self_right]

theorem broadcast_lane (w x i : Nat) (hw : w ∣ 2048) (hi : i < 2048 / w) : ((broadcast w x).extractLsb' (w*i) w).toNat = x % 2^w := by
  have := (fold_add w (fun _ => x % 2^w) (fun _ => Nat.mod_lt _ (by positivity)) (2048/w))
  simp only [broadcast, BitVec.extractLsb'_toNat, BitVec.toNat_ofNat, Nat.shiftRight_eq_div_pow]
  rw [Nat.mod_eq_of_lt (a := _) (b := 2^2048), this.2 i hi]
  have h2 := this.1
  rwa [Nat.mul_div_cancel' hw] at h2

theorem laneVec_lane (w i : Nat) (hw : w ∣ 2048) (hi : i < 2048 / w) : ((laneVec w).extractLsb' (w*i) w).toNat = i % 2^w := by
  have := (fold_add w (fun i => i % 2^w) (fun _ => Nat.mod_lt _ (by positivity)) (2048/w))
  simp only [laneVec, BitVec.extractLsb'_toNat, BitVec.toNat_ofNat, Nat.shiftRight_eq_div_pow]
  rw [Nat.mod_eq_of_lt (a := _) (b := 2^2048), this.2 i hi]
  have h2 := this.1
  rwa [Nat.mul_div_cancel' hw] at h2

/-! ### Operand ports -/

theorem portIndex_lt (u p) : portIndex u p < 24 := by cases u <;> cases p <;> decide
theorem portIndex_inj {u p u' p'} (h : portIndex u p = portIndex u' p') : (u', p') = (u, p) := by
  revert h; cases u <;> cases p <;> cases u' <;> cases p' <;> decide

theorem putPort_same (g : Frame) (u p q) : (g.putPort u p q).port u p = q (g.portBefore u p) :=
  vget_vset_same _ _ _ _ (portIndex_lt u p)
theorem putPort_other (g : Frame) (u p q u' p') (h : (u',p') ≠ (u, p)) : (g.putPort u p q).port u' p' = g.port u' p' :=
  vget_vset_other _ _ _ _ _ (fun e => h (portIndex_inj e))

end Sys2Proof.Machine
end

