-- ==== Sys2Proof/Tests/Slice0.lean ====
section
/-! SUPPORT. Tests: ill-formed instructions that the check refuses, words of the spec's encodings, and for each statement a state
and operands that meet its hypotheses. -/

namespace Sys2Proof.Tests

set_option Elab.async false

open Sys2Proof.Machine

/-! ### Well-formedness (R5, R80, R163, R211, R323) -/

/-- A slot with S and K clear and guard 000. -/
def go : Slot := ⟨false, false, .always⟩
/-- The source s0, read. -/
def s0 : Src := ⟨.read, .s 0⟩
/-- A micro-word with every field zero. -/
def micro0 : Micro := ⟨0, 0, 0, false, false, false, 0, 0, 0⟩

theorem test_wf_refuses_add_f64 : (Instr.addF go .f64 s0).wf = false := by decide
theorem test_wf_refuses_div_f16 : (Instr.divF go .f16 s0).wf = false := by decide
theorem test_wf_refuses_sqrt_bf16 : (Instr.sqrtF go .bf16 s0).wf = false := by decide
theorem test_wf_refuses_scaled_to_f64 : (Instr.cvtsc go (.fp .f64) s0).wf = false := by decide
theorem test_wf_refuses_stochastic_to_i8 : (Instr.cvtsr go .i8 s0).wf = false := by decide
theorem test_wf_refuses_stray_micro_field : (Instr.mnop { micro0 with j := 1 }).wf = false := by decide +kernel
theorem test_wf_refuses_condition_bit_alone : (Instr.mend { micro0 with cb := 1 }).wf = false := by decide +kernel
theorem test_wf_refuses_loop_counter_four : (Instr.mloop { micro0 with j := 4 }).wf = false := by decide +kernel
theorem test_wf_refuses_split_96 : (Instr.mldsw { micro0 with imm := 96 }).wf = false := by decide +kernel
theorem test_wf_refuses_small_pitch : (Instr.mldacc { micro0 with imm := 0x00F00000 }).wf = false := by decide +kernel
theorem test_wf_refuses_queue_4096 : (Instr.notifyWrite 4096 0).wf = false := by decide
theorem test_wf_refuses_group_4096 : (Instr.groupHeaderWrite 4096 0).wf = false := by decide
theorem test_wf_refuses_module_2304 : (Instr.routingEntryWrite 2304 false 0).wf = false := by decide
theorem test_wf_refuses_register_off_eight : (Instr.registerWrite 0x40004 0).wf = false := by decide
theorem test_wf_refuses_die_8 : (Instr.dieReport 8).wf = false := by decide
theorem test_wf_refuses_tile_1024 : (Instr.scalarBankRetire 1024 0).wf = false := by decide
theorem test_wf_accepts_add : (Instr.add go s0).wf = true := by decide

/-! ### Words written out from the spec's encodings (R57, R63 to R66, R78 to R83, R208) -/

/-- `sc: add s17`: S 0, K 0, G 000, D 1, mode 00, source 33. -/
theorem test_decode_add : decodeSlot .sc false 0b000000000000001000100001 = some (.add go ⟨.read, .s 17⟩) := by decide +kernel
/-- `va: fma.f32 f0`: D 16 · 3 + 1 = 49, source 64. -/
theorem test_decode_fma : decodeSlot .va false 0b000000000110001001000000 = some (.fmaF go .f32 ⟨.read, .f 0⟩) := by decide +kernel
/-- `vb: cvtsc.e4m3 q1`: D 416 + 4 = 420, source 1. -/
theorem test_decode_cvtsc : decodeSlot .vb false 0b000000110100100000000001 = some (.cvtsc go (.fp .e4m3) ⟨.read, .q 1⟩) := by decide +kernel
/-- `va: iadds.i16 v3`: D 264 + 1 = 265, source 51. -/
theorem test_decode_iadds : decodeSlot .va false 0b000000100001001000110011 = some (.iadds go .i16 ⟨.read, .v 3⟩) := by decide +kernel
/-- `va: vldt s20`: D 490, source 36. -/
theorem test_decode_vldt : decodeSlot .va false 0b000000111101010000100100 = some (.vldt go ⟨.read, .s 20⟩) := by decide +kernel
/-- `tr: trow.e16 v4`: D 2, source 52. -/
theorem test_decode_trow : decodeSlot .tr false 0b000000000000010000110100 = some (.trowE16 go ⟨.read, .v 4⟩) := by decide +kernel
/-- `ct: callr`: D 4, source 96, a literal. -/
theorem test_decode_callr : decodeSlot .ct false 0b000000000000100001100000 = some (.callr go ⟨.read, .lit 0⟩) := by decide +kernel
/-- `=v2 > va.b`: D 512 + 16 + 4 = 532, mode 10, source 50. -/
theorem test_decode_bind : decodeSlot .sc false 0b000001000010100100110010 = some (.moveOperandPort go .va .b ⟨.bind, .v 2⟩) := by
  decide +kernel
/-- `<1.5 > vb.b`: S 1, SEL 010, the top 20 bits of 0x3FC00000. -/
theorem test_decode_immediate : decodeSlot .vb true 0b101000111111110000000000 = some (.immBindBF32 true 0x3FC00) := by decide +kernel
/-- A micro-word of OP 5, MLOOP, with J 1 and an offset of −2. -/
theorem test_decode_mloop : decodeMicro 0x1480000000000FFE = some (.mloop { micro0 with j := 1, imm := 0xFFE }) := by decide +kernel
/-- A port that no unit has, and a reserved selector. -/
theorem test_decode_refuses : decodeSlot .sc false 0x005800 = none ∧ decodeSlot .sc true 0x700000 = none := by decide +kernel
/-- `en: mxcall 5 s8`: D 256 + 5, source 24. -/
theorem test_decode_mxcall : decodeSlot .en false 0b000000100000101000011000 = some (.mxcall go 5 ⟨.read, .s 8⟩) := by decide +kernel
/-- `cb: xcoll s0`, at the end of its group: D 0x30, source 16. -/
theorem test_decode_xcoll : decodeSlot .cb false 0b100000000110000000010000 = some (.xcoll ⟨true, false, .always⟩ s0) := by decide +kernel
/-- `ca: cpy.n s0`, under guard 110: D 1, source 16. -/
theorem test_decode_copy : decodeSlot .ca false 0b001100000000001000010000 = some (.cpyN ⟨false, false, .first⟩ s0) := by decide +kernel

/-! ### States for the witnesses -/

/-- A strand of a module just reset stands at slot `u` of an opened bundle and has the turn. -/
def at_ (u : UnitName) : State := State.reset.placeSlot u false 0
/-- The same with its context changed. -/
def onCtx (s : State) (g : Ctx → Ctx) : State := { s with ctxs := s.ctxs.map g }
/-- The same with its strand changed. -/
def onStrand (s : State) (g : Strand → Strand) : State := { s with strands := s.strands.map g }
/-- s0 to s7 of the context. -/
def withLow (s : State) (n : Nat) (w : Word) : State := onCtx s fun c => { c with low := vset c.low n w }
/-- A value bound to an operand port. -/
def withPort (s : State) (u : UnitName) (p : OpPort) (w : Word) : State :=
  onCtx s fun c => { c with ports := vset c.ports (portIndex u p) ⟨none, some (.value (.untyped w))⟩ }
/-- Words in the scratchpad of context 1. -/
def withWords (s : State) (a : Nat) (l : List Word) : State := s.write (Key.pad 1 a) (l.map wordBytes).flatten

/-- A page table that maps the first gigabyte to itself, readable, writable and executable. -/
def mapped (s : State) : State :=
  (((({ s with ptroot := 0x1001 } : State).write (Key.hbm 0x1000) (wordBytes 0x2001)).write (Key.hbm 0x2000) (wordBytes 0x3001)).write
    (Key.hbm 0x3000) (wordBytes 0x1B))

/-- Delivers a trigger's operands at a state, if its slot runs there. -/
def probe (h : Slot) (g : Frame → Trig) (s : State) : Option (Frame × Args × Fetch × Bool) :=
  match s.frame with
  | none => none
  | some f0 =>
    if f0.c.again ≠ none ∨ f0.begin.c.seq.skip = some f0.begin.c.seq.slot ∨ f0.begin.c.seq.guardHolds h.guard = false then none
    else match f0.begin.touchAll (if guardLoops h.guard then [.loops] else []) with
      | .error _ => none
      | .ok f => match f.gather (g f) with
        | .error _ => none
        | .ok (x, k) => match f.timing (g f) k x with
          | .error _ => none
          | .ok held => if k.fault ≠ none ∨ k.f.c.seq.late ≠ [] ∨ f.mustWait (g f) x = true then none
            else some (f, x, k, held)

/-- A slot runs at a state, takes its operands, and the rest of a statement's hypotheses hold of them. -/
def Meets (s : State) (h : Slot) (g : Frame → Trig) (p : Frame → Args → Fetch → Bool) : Prop :=
  ∃ f x k held, s.Runs h f ∧ f.Takes (g f) x k held ∧ p f x k = true

theorem Meets.of {s : State} {h : Slot} {g : Frame → Trig} {p : Frame → Args → Fetch → Bool}
    (e : ((probe h g s).any fun r => p r.1 r.2.1 r.2.2.1) = true) : Meets s h g p := by
  unfold probe at e
  split at e
  · cases e
  · rename_i f0 h0
    split at e
    · cases e
    · rename_i hn
      split at e
      · cases e
      · rename_i f hf
        split at e
        · cases e
        · rename_i x k hg
          split at e
          · cases e
          · rename_i held ht
            split at e
            · cases e
            · rename_i hh
              rw [not_or, not_or, not_not, not_not, Bool.not_eq_true] at hh
              rw [not_or, not_or, not_not, Bool.not_eq_false] at hn
              exact ⟨f, x, k, held, ⟨f0, h0, hn.1, hn.2.1, hn.2.2, hf⟩, ⟨hg, ht, hh⟩, e⟩

theorem goesOn {o : Host.Outcome State Fault Refusal} (e : (match o with | .next _ => true | _ => false) = true) :
    ∃ t, o = .next t := by
  cases o with
  | next t => exact ⟨t, rfl⟩
  | fault _ => cases e
  | refused _ => cases e

/-- Whether an access succeeds. -/
def okay {α : Type} (x : Except Stop α) : Bool := x.toOption.isSome
/-- The frame that a touch leaves, if it is made. -/
def after {α : Type} (x : Except Stop α) (p : α → Bool) : Bool := match x with | .ok a => p a | .error _ => false
/-- No older access that waits stands before an access. -/
def clear (f : Frame) (keys : List (Nat × Nat)) (writes : Bool) : Bool := !f.c.blocked f.c.nextRid keys writes
/-- A scratchpad word may be accessed and is good. -/
def padReady (f : Frame) (a w : Nat) (writes : Bool) : Bool :=
  decide (a < 0x200000) && a % w == 0 && !f.ownerBit (a / 4096) && after (f.touch (blockUnit a)) fun g =>
    clear (g.noteChunks [a / 16 * 16]) [(Key.pad f.c.id a, w)] writes && !g.s.bad (Key.pad g.c.id a) w
/-- A window access may be made and is good. -/
def windowReady (f : Frame) (a n align : Nat) (writes : Bool) : Bool :=
  decide (a + n ≤ f.s.windowSize (clusterOf f.t.ptn)) && a % align == 0 && clear f [(Key.window (clusterOf f.t.ptn) a, n)] writes
    && !f.s.bad (Key.window (clusterOf f.t.ptn) a) n
/-- A vector access may be made and its chunks are good. -/
def vectorReady (f : Frame) (phys : List Nat) (n : Nat) (writes : Bool) : Bool :=
  phys.all (fun a => decide (a < 0x200000) && !f.ownerBit (a / 4096))
    && after (f.touchAll (blockUnits phys)) fun g => clear (g.noteChunks (chunksOf phys)) (phys.map fun a => (Key.pad f.c.id a, n)) writes
      && phys.all fun a => !g.s.bad (Key.pad g.c.id a) n

/-- A move's value is delivered at a state, and the units of its destination are at hand. -/
def Moves (s : State) (h : Slot) (units : Frame → List TileUnit) (a : Src) : Prop :=
  ∃ f g v, s.Runs h f ∧ f.Carries units a v g

theorem Moves.of {s : State} {h : Slot} {units : Frame → List TileUnit} {a : Src}
    (e : (match s.frame with
      | none => false
      | some f0 =>
        if f0.c.again ≠ none ∨ f0.begin.c.seq.skip = some f0.begin.c.seq.slot ∨ f0.begin.c.seq.guardHolds h.guard = false then false
        else after (f0.begin.touchAll (if guardLoops h.guard then [.loops] else [])) fun f =>
          after (f.moveValue a) fun p => after (p.2.touchAll (units p.2)) fun _ => true) = true) : Moves s h units a := by
  split at e
  · cases e
  · rename_i f0 h0
    split at e
    · cases e
    · rename_i hn
      rw [not_or, not_or, not_not, Bool.not_eq_false] at hn
      unfold after at e
      split at e
      · rename_i f hf
        beta_reduce at e
        split at e
        · rename_i p hp
          split at e
          · rename_i g hg
            exact ⟨f, g, p.1, ⟨f0, h0, hn.1, hn.2.1, hn.2.2, hf⟩, ⟨p.2, hp, hg⟩⟩
          · cases e
        · cases e
      · cases e

/-! ### Witnesses: steps, bundles, delivery -/

theorem witness_StepRuns_agenda : State.reset.turnCtx.isNone = true ∧ ∃ i l, ({ State.reset with agenda := [.frameStart] } : State).agenda = i :: l :=
  ⟨by decide +kernel, _, _, rfl⟩
theorem witness_StepRuns_turn : (at_ .sc).turnCtx.isNone = true ∧ ∃ sid l f i, (at_ .sc).agenda = [] ∧ (at_ .sc).turn = sid :: l
    ∧ (at_ .sc).frameOf sid = some f ∧ (at_ .sc).able f.t = true ∧ f.groupHolds.isNone = true ∧ f.c.seq.issuing = true
    ∧ f.slotInstr = some i := by
  refine ⟨by decide +kernel, 1, [], ((at_ .sc).frameOf 1).get (by decide +kernel), .nop go, ?_, ?_, ?_, ?_, ?_, ?_, ?_⟩ <;> decide +kernel
/-- A slot under the guard `first`, while the loop sequencer is away. -/
def loopsAway : State := onCtx (State.reset.placeSlot .sc false 0x300210) fun c => { c with
  away := [⟨.loops, 0⟩], seq := { c.seq with first := true } }
theorem witness_StepRuns_groupHolds : (loopsAway.frameOf 1).any (fun f => loopsAway.able f.t && f.groupHolds.isSome) = true := by decide +kernel
theorem witness_StepRuns_idle : State.reset.turnCtx.isNone = true ∧ State.reset.agenda = [] ∧ State.reset.turn = []
    ∧ State.reset.dueActs = [] ∧ State.reset.frameDue = true := by decide +kernel
/-- A module in its first frame, at a cycle and with a part of the frame to come. -/
def framed (cycle part : Nat) (dues : List (Nat × Option Record)) : State :=
  { State.reset with cycle := cycle, frames := 1, frameAt := 0, part := part, dues := dues }
theorem witness_StepRuns_parts : (framed 100 5 []).dueActs = [] ∧ (framed 100 5 []).frameDue = false ∧ (framed 100 5 []).partDue = true
    ∧ (framed 1700 73 [(0, none)]).dueActs = [] ∧ (framed 1700 73 [(0, none)]).partDue = false
    ∧ (framed 1700 73 [(0, none)]).inService = true ∧ (framed 100 73 []).dueActs = [] ∧ (framed 100 73 []).frameDue = false
    ∧ (framed 100 73 []).partDue = false ∧ (framed 100 73 []).gsqAct.isNone = true ∧ (framed 100 73 []).pickAct.isNone = true := by
  decide +kernel

/-- A bundle of eight NOPs in the loop buffer of an active level, where the strand stands at a bundle boundary. -/
def loopState : State := onCtx (at_ .sc) fun c => { c with
  seq := Seq.start
  levels := c.levels.set 0 ⟨true, 0, 0, 32, 0, none, 0, 2, [(0, BitVec.ofNat 256 (2 ^ 255))]⟩ }

theorem witness_BundleOpens : loopState.frame.any (fun f => f.t.spec.isNone && (match f.fetchBlock f.c.pc with
    | .ok b => b.getLsbD 255 && (f.fetchLiterals f.c.pc (b.toNat / 2 ^ 253 % 4)).toOption == some []
      && !illegalEncoding b [] && !illegalDependence b []
    | .error _ => false)) = true := by decide +kernel
theorem witness_BundleRefused : (onCtx (at_ .sc) fun c => { c with seq := Seq.start }).frame.any (fun f => f.t.spec.isNone
    && (match f.fetchBlock f.c.pc with | .ok _ => false | .error _ => true)) = true := by decide +kernel
theorem witness_EncodingRoundTrips : (Instr.add go s0).wf = true ∧ encode (.add go s0) = .slot (some .sc) false 0x000210
    ∧ encode (.mnop micro0) = .micro 0 := by decide +kernel
theorem witness_OperandsDeliver : (at_ .sc).frame.any (fun f => [OpPort.b, .c, .d].all (f.plainPort .sc)
    && (f.c.held.filter (·.unit == .sc)).isEmpty && f.c.seq.late.isEmpty && after (f.touchAll (f.trigUnits (pureTrig (.scalar .add) .sc s0))) fun g =>
      after (g.readValue s0.src) fun v => (pureTrig (.scalar .add) .sc s0).kinds f v.kind .untyped .untyped) = true := by decide +kernel
theorem witness_MemoryReadAfterWrite : Memory.wf [(5, 1), (7, 2)] = true := by decide
theorem witness_MemoryStaysCanonical : State.reset.Canonical ∧ ∃ t, step State.reset = .next t :=
  ⟨rfl, goesOn (by decide +kernel)⟩

/-! ### Witnesses: moves, computations -/

theorem witness_NopCompletes : ∃ f, (at_ .sc).Runs go f := by
  obtain ⟨f, _, _, r, _⟩ : Moves (at_ .sc) go (fun _ => []) s0 := Moves.of (by decide +kernel)
  exact ⟨f, r⟩
theorem witness_FalseGuard : ∃ f, decodeSlot .sc false 0x080221 = some (.add ⟨false, false, .leaf1⟩ ⟨.read, .s 17⟩)
    ∧ (at_ .sc).Skips (slotFields 0x080221) f :=
  ⟨_, by decide +kernel, ((at_ .sc).frame).get (by decide +kernel), by simp, by decide +kernel, rfl,
    .inr (by decide +kernel)⟩
theorem witness_MoveScalar : Moves (at_ .sc) go (Frame.scalarUnits 9) s0 := Moves.of (by decide +kernel)
theorem witness_MoveVector : Moves (at_ .sc) go (fun _ => [.vfile]) ⟨.read, .lane⟩ := Moves.of (by decide +kernel)
theorem witness_MovePredicate : Moves (at_ .sc) go (fun _ => []) ⟨.read, .one⟩ := Moves.of (by decide +kernel)
theorem witness_MoveSpecial : Moves (at_ .sc) go (fun _ => [.loops]) s0 := Moves.of (by decide +kernel)
theorem witness_MovePortBindStream : ((at_ .sc).frame.any fun f => okay (f.touchAll (f.sourceUnits (.k 0)))) = true
    ∧ sourceStream (.k 0) = true := by decide +kernel
theorem witness_Immediates : ((at_ .sc).frame.any fun f => okay (f.touchAll [.loops])) = true := by decide +kernel
theorem witness_Scalar : Meets (at_ .sc) go (fun _ => pureTrig (.scalar .add) .sc s0) (fun f x _ => !x.wait && !f.c.fpsetWaits) := Meets.of (by decide +kernel)
theorem witness_Fp64 : Meets (at_ .sc) go (fun _ => pureTrig (.scalar .fdiv) .sc s0) (fun f x _ => !x.wait && !f.c.fpsetWaits) := Meets.of (by decide +kernel)
theorem witness_ConversionRounding : (0 : Int) ≤ 1 ∧ 0 < 2 ^ codeBits .f32 ∧ (decodeFl .f32 0).isNaN = false := by decide +kernel
theorem witness_VectorInteger : Meets (at_ .va) go (fun f => pureTrig (.vector (.int .adds .i16)) f.unit s0) (fun f x _ => !x.wait && !f.c.fpsetWaits) :=
  Meets.of (by decide +kernel)
theorem witness_VectorFloating : Meets (at_ .vb) go (fun f => pureTrig (.vector (.fp .fma .f32)) f.unit s0) (fun f x _ => !x.wait && !f.c.fpsetWaits) :=
  Meets.of (by decide +kernel)
/-- The last part of a narrowing from f64 to e4m3, and the highest run origin. -/
theorem witness_Conversion : Meets (onCtx (withPort (at_ .va) .va .c (7 * 32 + 23)) fun c => { c with vregs := c.vregs.set 0 (0, 0) }) go
    (fun f => pureTrig (.vector (.cvt .cvtsc (.fp .e4m3))) f.unit ⟨.read, .v 0⟩)
    (fun f x _ => !x.wait && !f.c.fpsetWaits && x.c.value.low.toNat / 32 % 8 == 7 && x.c.value.low.toNat % 32 == 23
      && 7 < max (2048 / tagWidth (cvtSourceTag .cvtsc x.a.value)) 256 / min (2048 / tagWidth (cvtSourceTag .cvtsc x.a.value)) 256) :=
  Meets.of (by decide +kernel)
theorem witness_Reduction : Meets (at_ .va) go (fun f => pureTrig (.vector .redmax) f.unit ⟨.read, .v 1⟩) (fun f x _ => !x.wait && !f.c.fpsetWaits) :=
  Meets.of (by decide +kernel)
/-- f32 lanes that are −0, but one: a NaN, an infinity, or a number. -/
def lanes32 (w : Nat) : State := onCtx (at_ .va) fun c =>
  let bits : Vec := BitVec.ofNat 2048 ((List.range 63).foldl (fun n _ => n * 2 ^ 32 + 0x80000000) 0 * 2 ^ 32 + w)
  { c with vregs := c.vregs.set 1 (1, bits) }
/-- The value of a reduction of such lanes has a class of its own for each of these. -/
theorem witness_FloatingReduction : ∀ w ∈ [0x7FC00000, 0x7F800001, 0x7F800000, 0xFF800000, 0x80000000, 0x3F800000],
    Meets (lanes32 w) go (fun f => pureTrig (.vector .redadd) f.unit ⟨.read, .v 1⟩)
      (fun f x _ => !x.wait && !f.c.fpsetWaits && x.a.value.tagOr 14 == 1 && (FpFmt.ofCode? 1).isSome
        && (lane 32 (x.a.value.lanes 32) 0).toNat == w && (lane 32 (x.a.value.lanes 32) 63).toNat == 0x80000000) := by
  intro w hw
  fin_cases hw <;> exact Meets.of (by decide +kernel)
theorem witness_Permute : Meets (at_ .va) go (fun f => pureTrig (.vector .perm) f.unit ⟨.read, .v 1⟩) (fun f x _ => !x.wait && !f.c.fpsetWaits) :=
  Meets.of (by decide +kernel)
/-- A block with one row is open, and its first column is still to come. -/
theorem witness_ComputationWaits : Meets (onCtx (at_ .va) fun c => { c with slk := 5, blocks := [⟨1, 10, 32, [1], false, 0, 0, 0⟩] }) go
    (fun f => pureTrig (.vector (.int .add .i32)) f.unit ⟨.read, .col⟩) (fun _ x _ => x.wait) := Meets.of (by decide +kernel)
theorem witness_ComputationFrame : Meets (at_ .sc) go (fun _ => pureTrig (.scalar .mul) .sc s0)
    (fun _ x k => after (pureRun (.scalar .mul) (k.ready .sc) x) fun _ => true) := Meets.of (by decide +kernel)

/-! ### Witnesses: memory -/

theorem witness_PadLoad : Meets (at_ .sc) go (fun _ => scalarTrig s0 true false true)
    (fun _ x k => !x.wait && padReady (k.ready .sc) (x.a.value.low + x.b.value.low).toNat 8 false) := Meets.of (by decide +kernel)
/-- The last word of the scratchpad. -/
theorem witness_PadStore : Meets (withPort (at_ .sc) .sc .b 0x1FFFF8) go (fun _ => scalarTrig s0 true true false)
    (fun _ x k => !x.wait && (x.a.value.low + x.b.value.low).toNat == 0x1FFFF8 && padReady (k.ready .sc) 0x1FFFF8 8 true && (k.ready .sc).holds == false) :=
  Meets.of (by decide +kernel)
theorem witness_PadAtomic : Meets (at_ .sc) go (fun _ => atomicTrig .cas s0 6)
    (fun _ x k => !x.wait && padReady (k.ready .sc) x.a.value.low.toNat 8 true && (k.ready .sc).t.spec.isNone
      && (k.ready .sc).t.drain.isEmpty) := Meets.of (by decide +kernel)
theorem witness_ConstantLoad : Meets (at_ .sc) go (fun _ => { scalarTrig s0 false false true with lat := some 12, late := .act }) (fun _ x _ => !x.wait) :=
  Meets.of (by decide +kernel)
/-- The first address past the scratchpad, an address off its width, and a block that an engine owns. -/
theorem witness_TrapAlign : Meets (withPort (at_ .sc) .sc .b 0x200000) go (fun _ => scalarTrig s0 true false true)
      (fun _ x _ => !x.wait && (x.a.value.low + x.b.value.low).toNat == 0x200000)
    ∧ Meets (withLow (at_ .sc) 0 4) go (fun _ => scalarTrig s0 true false true)
      (fun _ x _ => !x.wait && (x.a.value.low + x.b.value.low).toNat % 8 == 4) :=
  ⟨Meets.of (by decide +kernel), Meets.of (by decide +kernel)⟩
theorem witness_TrapOwned : Meets { at_ .sc with claims := [⟨1, .call 9, [0], true, 0⟩] } go (fun _ => scalarTrig s0 true true false)
    (fun _ x k => !x.wait && (k.ready .sc).ownerBit 0) := Meets.of (by decide +kernel)
theorem witness_TrapWindow : Meets (withLow (at_ .sc) 0 0x1FFFFC) go (fun _ => windowTrig s0 true false true false)
    (fun _ x k => !x.wait && decide ((k.ready .sc).s.windowSize (clusterOf (k.ready .sc).t.ptn) < x.a.value.low.toNat + 8)) :=
  Meets.of (by decide +kernel)
/-- The first run origin that CVTSC refuses. -/
theorem witness_TrapOrigin : Meets (onCtx (withPort (at_ .va) .va .c 24) fun c => { c with vregs := c.vregs.set 0 (0, 0) }) go
    (fun f => pureTrig (.vector (.cvt .cvtsc (.fp .e4m3))) f.unit ⟨.read, .v 0⟩)
    (fun _ x _ => !x.wait && x.c.value.low.toNat % 32 == 24) := Meets.of (by decide +kernel)
/-- The last word of the window of 2 MiB. -/
theorem witness_WindowLoad : Meets (withLow (at_ .sc) 0 0x1FFFF8) go (fun _ => windowTrig s0 true false true false)
    (fun _ x k => !x.wait && (x.a.value.low + x.b.value.low).toNat == 0x1FFFF8 && windowReady (k.ready .sc) 0x1FFFF8 8 8 false
      && (k.ready .sc).s.windowSize (clusterOf (k.ready .sc).t.ptn) == 0x200000) := Meets.of (by decide +kernel)
theorem witness_WindowStoreBehind : Meets (onStrand (at_ .sc) fun t => { t with drain := [⟨true, [], 1, 0⟩] }) go
    (fun _ => windowTrig s0 true true false true) (fun _ x k => !x.wait && windowReady (k.ready .sc) 0 8 8 true && (k.ready .sc).t.spec.isNone
      && !(k.ready .sc).t.drain.isEmpty) :=
  Meets.of (by decide +kernel)
/-- A speculation on slot 0. -/
def spec0 (c : Ctx) (snap : Snap) : Spec := ⟨0, true, c, 64, 32, 0, [], 1, none, [], [], 0, 0, Vector.replicate 16 0, 0, 0, 0, [], [],
  ⟨snap, c.ports, c.feeds, [], [], 0⟩⟩
/-- The strand speculates. -/
def speculating (s : State) : State := onStrand s fun t => { t with spec := some (spec0 (Ctx.start 1 0 0 1) t.snap) }
theorem witness_WindowStoreHeld : Meets (speculating (at_ .sc)) go (fun _ => windowTrig s0 true true false true)
    (fun _ x k => !x.wait && windowReady (k.ready .sc) 0 8 8 true && (k.ready .sc).t.spec.isSome
      && decide ((k.ready .sc).heldStores < 32)) := Meets.of (by decide +kernel)
theorem witness_WindowVector : Meets (at_ .va) go (fun f => vldClTrig f.unit s0)
    (fun f x k => !x.wait && decide (accessTag x.b.value.low < 22) && windowReady (k.ready f.unit) 0 256 16 false) :=
  Meets.of (by decide +kernel)
theorem witness_VectorLoad : Meets (at_ .va) go (fun f => vldTrig f.unit s0)
    (fun f x k => !x.wait && vectorReady (k.ready f.unit) ((List.range 16).map fun c => swizzle 7 (x.a.value.low.toNat + 16 * c)) 16 false) :=
  Meets.of (by decide +kernel)
theorem witness_TransposedLoad : Meets (withPort (at_ .vb) .vb .b 0x10000) go
    (fun f => vldtTrig f.unit s0)
    (fun f x k => !x.wait && x.b.value.low.toNat % 2 ^ 17 == 0x10000
      && vectorReady (k.ready f.unit) ((List.range 16).map fun j => x.a.value.low.toNat + j * 0x10000) 16 false) := Meets.of (by decide +kernel)
theorem witness_Gather : Meets (at_ .va) go (fun f => gathTrig f.unit s0)
    (fun f x k => !x.wait && vectorReady (k.ready f.unit) [0] 8 false) := Meets.of (by decide +kernel)
theorem witness_VectorStore : Meets (at_ .va) go (fun f => vstTrig f.unit s0)
    (fun f x k => !x.wait && decide (x.b = .val (.untyped 0)) && !x.a.value.low.getLsbD 63 && (k.ready f.unit).holds == false
      && vectorReady (k.ready f.unit) ((List.range 16).map fun c => 16 * c) 16 true) := Meets.of (by decide +kernel)
/-- A write port bound to sixteen places. -/
theorem witness_WritePort : Meets (onCtx (withLow (at_ .va) 0 0x8000000000000007) fun c => { c with
      feeds := c.feeds.set 7 ⟨true, true, 0, 0, 0, [(16, 256)], 3, 0, 0⟩ }) go
    (fun f => vstTrig f.unit s0)
    (fun f x k => !x.wait && x.a.value.low == 0x8000000000000007 && okay ((k.ready f.unit).touch .feeds)
      && (vget (k.ready f.unit).c.feeds 7 Feed.start).write) := Meets.of (by decide +kernel)
theorem witness_Scatter : Meets (at_ .vb) go (fun f => scatTrig f.unit s0)
    (fun f x k => !x.wait && vectorReady (k.ready f.unit) [0] 8 true && (k.ready f.unit).holds == false) := Meets.of (by decide +kernel)
theorem witness_Canonical : (at_ .va).Canonical := rfl
theorem witness_Fpset : Meets (at_ .va) go (fun f => fpsetTrig f.unit s0) (fun f x _ => !x.wait && !f.c.fpsetWaits) :=
  Meets.of (by decide +kernel)
/-- A held operation of a unit. -/
def heldBy (u : UnitName) (op : Option HeldOp) : Held :=
  ⟨u, 4, [], [], [], op, [], 0, 1, 14, 0, 0, none, 0, 4, none, some [], false, 0⟩
/-- An FPSET of vector unit B is held. -/
theorem witness_FpsetWaits : Meets (onCtx (at_ .va) fun c => { c with held := [heldBy .vb (some (.again (.fpset go s0)))] }) go
    (fun f => fpsetTrig f.unit s0) (fun f x _ => !x.wait && f.c.fpsetWaits) := Meets.of (by decide +kernel)
theorem witness_Fpflush : Meets (at_ .va) go (fun f => fpflushTrig f.unit s0)
      (fun f x _ => !x.wait && f.c.held.isEmpty)
    ∧ Meets (onCtx (at_ .va) fun c => { c with held := [heldBy .sc none] }) go (fun f => fpflushTrig f.unit s0)
      (fun f x _ => !x.wait && !f.c.held.isEmpty) := ⟨Meets.of (by decide +kernel), Meets.of (by decide +kernel)⟩
theorem witness_FpstEnds : (at_ .va).frame.any (fun f => f.c.again == none && decide (f.c.seq.slot < 7)) = true := by decide +kernel
theorem witness_Row : Meets (at_ .tr) go (fun _ => transposerTrig (some s0) (rowKinds 32))
    (fun _ x k => !x.wait && (k.ready .tr).c.blocks.isEmpty) := Meets.of (by decide +kernel)
theorem witness_RowOpen : Meets (onCtx (at_ .tr) fun c => { c with blocks := [⟨1, 10, 32, [1], false, 0, 0, 0⟩] }) go
    (fun _ => transposerTrig (some s0) (rowKinds 32))
    (fun _ x k => !x.wait && ((k.ready .tr).c.blocks.find? (!·.closed)).any fun b => b.width == 32) := Meets.of (by decide +kernel)
theorem witness_Drain : Meets (at_ .tr) go (fun _ => transposerTrig none fun _ => anyKinds) (fun _ x _ => !x.wait) := Meets.of (by decide +kernel)

/-! ### Witnesses: control -/

theorem witness_Jump : Meets (withLow (at_ .ct) 0 0x40) go (fun _ => transferTrig (some s0) false [])
    (fun _ x _ => !x.wait && x.a.value.low.toNat % 32 == 0) := Meets.of (by decide +kernel)
/-- A tile with its eight banks, and a spill area of 4 KiB. -/
def calls (d : Nat) : State := onCtx (at_ .ct) fun c => { c with spill := 0x1000 + 12, depth := d, hi := d + 1 }
theorem witness_Call : Meets (calls 0) go (fun _ => transferTrig (some s0) false [])
    (fun f x k => !x.wait && f.c.depth != 4095 && decide (128 * (f.c.depth + 1 + 2) ≤ 2 ^ (f.c.spill.toNat % 32))
      && after ((k.ready .ct).touch ((k.ready .ct).pairBank (f.c.depth + 1))) fun g =>
        decide (f.c.depth + 2 - f.c.lo + 1 ≤ 2 * g.banks)) := Meets.of (by decide +kernel)
/-- Fifteen deep, with every pair in its bank: one more spills the lowest. -/
theorem witness_CallSpills : Meets (onCtx (mapped (calls 14)) fun c => { c with spill := 0x4000 + 12 }) go (fun _ => transferTrig (some s0) false [])
    (fun f x k => !x.wait && f.c.depth != 4095 && decide (128 * (f.c.depth + 1 + 2) ≤ 2 ^ (f.c.spill.toNat % 32))
      && after ((k.ready .ct).touch ((k.ready .ct).pairBank (f.c.depth + 1))) fun g =>
        decide (2 * g.banks < f.c.depth + 1 + 1 - f.c.lo + 1) && g.t.spec.isNone && decide (g.t.spilling.length < 2)
          && f.c.bad.isEmpty
          && after (g.touch (g.pairBank f.c.lo)) fun u =>
            (u.s.tileWrite f.t.ptn (f.c.pairAddr f.c.lo) (((f.c.pair f.c.lo).map wordBytes).flatten)).toOption.isSome) :=
  Meets.of (by decide +kernel)
/-- The deepest call, a call past the spill area, a return at depth 0, and targets off a block. -/
theorem witness_TransferTraps : Meets (calls 4095) go (fun _ => transferTrig (some s0) false []) (fun f x _ => !x.wait && f.c.depth == 4095)
    ∧ Meets (calls 30) go (fun _ => transferTrig (some s0) false [])
      (fun f x _ => !x.wait && f.c.depth != 4095 && decide (2 ^ (f.c.spill.toNat % 32) < 128 * (f.c.depth + 1 + 2)))
    ∧ Meets (withLow (calls 0) 0 31) go (fun _ => transferTrig (some s0) false [])
      (fun f x _ => !x.wait && f.c.depth == 0 && x.a.value.low.toNat % 32 == 31) :=
  ⟨Meets.of (by decide +kernel), Meets.of (by decide +kernel), Meets.of (by decide +kernel)⟩
theorem witness_Return : Meets (calls 1) go (fun _ => transferTrig (some s0) false [])
    (fun f x k => !x.wait && f.c.depth != 0 && okay ((k.ready .ct).touch ((k.ready .ct).pairBank 0)) && decide (f.c.lo ≤ 0)) :=
  Meets.of (by decide +kernel)
theorem witness_ReturnFilled : Meets (onStrand (onCtx (calls 1) fun c => { c with lo := 1 }) fun t => { t with req := .done (.fill 0) }) go
    (fun _ => transferTrig (some s0) false [])
    (fun f x k => !x.wait && after ((k.ready .ct).touch ((k.ready .ct).pairBank 0)) fun g => decide (f.c.depth - 1 < f.c.lo)
      && g.t.spec.isNone && g.t.drain.isEmpty && decide (g.t.req = .done (.fill 0))) := Meets.of (by decide +kernel)
theorem witness_BundleEnds : ∃ f : Frame, f.c.seq.leaf = 5 ∧ f.c.seq.goto = none ∧ (f.c.levels[(0 : Fin 6)]).active = true
    ∧ (f.c.levels[(0 : Fin 6)]).fin = f.c.pc ∧ (∀ n : Fin 6, 0 < n → (f.c.levels[n]).active = false)
    ∧ (f.c.levels[(0 : Fin 6)]).exit = none ∧ (f.c.levels[(0 : Fin 6)]).lc.toNat + 1 < (f.c.levels[(0 : Fin 6)]).lb.toNat :=
  ⟨loopState.frame.get (by decide +kernel), by decide +kernel⟩
theorem witness_LoopEmpty : Meets (at_ .ct) go (fun _ => transferTrig (some s0) false [.loops])
    (fun f x _ => !x.wait && f.c.levels.all (fun l => !l.active) && f.t.snap.ctx.levels.all fun l => l.lb == 0) := Meets.of (by decide +kernel)
theorem witness_Loopx : Meets (onCtx (withLow (at_ .ct) 0 (5 * 64 + 3)) fun c => { c with levels := c.levels.map fun l => { l with lb := 9 } }) go
    (fun _ => transferTrig (some s0) true [.loops])
    (fun f x _ => !x.wait && x.a.value.low.toNat / 64 % 8 == 5 && f.c.levels.all (fun l => !l.active)
      && f.t.snap.ctx.levels.all fun l => l.lb == 9) := Meets.of (by decide +kernel)
/-- A nest of one chunk run: base 0, tag f64, six bounds of 1. -/
def nestWords : List Word := [0, 1, 1, 1, 1, 1, 1, 0]
theorem witness_Nest : Meets (withWords (at_ .ct) 0 nestWords) go (fun _ => nestTrig s0)
    (fun _ x k => !x.wait && padReady (k.ready .ct) x.a.value.low.toNat 64 false && after ((k.ready .ct).touch (blockUnit 0)) fun g =>
      okay (nestCheck (wordsOf 8 (g.bytes (Key.pad g.c.id 0) 64)) false 0)) := Meets.of (by decide +kernel)
theorem witness_Slack : Meets (at_ .ct) go (fun _ => controlTrig (some s0) false false [])
    (fun _ x k => !x.wait && (k.ready .ct).t.spec.isNone && (k.ready .ct).t.drain.isEmpty && (k.ready .ct).t.life == .running
      && (k.ready .ct).s.strands.all fun t => t.sid == (k.ready .ct).t.sid) := Meets.of (by decide +kernel)
/-- A second strand of the task waits at barrier 0; and one that does not. -/
def twoMembers (bar : Option Nat) : State := { at_ .ct with strands := (at_ .ct).strands ++ (at_ .ct).strands.map fun t =>
  { t with sid := 2, rank := 1, ptn := 1, bar := bar } }
theorem witness_Barrier : Meets (twoMembers (some 0)) go (fun _ => controlTrig (some s0) false false [])
      (fun _ x k => !x.wait && (k.ready .ct).t.spec.isNone && (k.ready .ct).t.drain.isEmpty && (k.ready .ct).c.held.isEmpty
        && (k.ready .ct).t.saved.isNone && (k.ready .ct).s.strands.any fun t => t.sid == 2 && t.task == (k.ready .ct).t.task && t.bar == some 0)
    ∧ Meets (twoMembers none) go (fun _ => controlTrig (some s0) false false [])
      (fun _ x k => !x.wait && (k.ready .ct).t.life == .running && (k.ready .ct).s.strands.any fun t => t.sid == 2 && t.life == .running
        && t.bar == none) := ⟨Meets.of (by decide +kernel), Meets.of (by decide +kernel)⟩
theorem witness_Tkpost : Meets (at_ .ct) go (fun _ => controlTrig (some s0) true false [])
    (fun _ x k => !x.wait && (k.ready .ct).t.spec.isNone && ((k.ready .ct).t.posts.filter fun p => p.1 < (k.ready .ct).s.cycle).isEmpty) := Meets.of (by decide +kernel)
theorem witness_Heart : Meets (at_ .ct) go (fun _ => controlTrig none false false []) (fun _ x k => !x.wait && (k.ready .ct).t.spec.isNone) :=
  Meets.of (by decide +kernel)
theorem witness_HeartSpeculating : Meets (speculating (at_ .ct)) go (fun _ => controlTrig none false false [])
    (fun _ x k => !x.wait && (k.ready .ct).t.spec.isSome) := Meets.of (by decide +kernel)
theorem witness_Csync : Meets (onStrand (at_ .ct) fun t => { t with req := .done .csync }) go (fun _ => controlTrig none false false [])
    (fun _ x k => !x.wait && decide ((k.ready .ct).t.req = .done .csync)) := Meets.of (by decide +kernel)
theorem witness_FenceCluster : Meets (at_ .ct) go (fun _ => controlTrig none false false [])
    (fun _ x k => !x.wait && (k.ready .ct).t.spec.isNone && (k.ready .ct).s.win.isEmpty && (k.ready .ct).t.drain.isEmpty
      && (k.ready .ct).c.held.isEmpty) := Meets.of (by decide +kernel)
theorem witness_FenceWide : Meets (onStrand (at_ .ct) fun t => { t with req := .done (.fence 3 Scope.domain.code) }) go
    (fun _ => controlTrig none false false [])
    (fun _ x k => !x.wait && (k.ready .ct).t.spec.isNone && (k.ready .ct).s.win.isEmpty && (k.ready .ct).t.drain.isEmpty
      && (k.ready .ct).c.held.isEmpty && (k.ready .ct).t.saved.isNone
      && decide ((k.ready .ct).t.req = .done (.fence 3 Scope.domain.code))) := Meets.of (by decide +kernel)
/-- A set-up with one member and index 0. -/
theorem witness_Agjoin : Meets (withPort (at_ .ct) .ct .b (1 * 2 ^ 24 + 7)) go (fun _ => controlTrig (some s0) true true [])
    (fun _ x k => !x.wait && setupOk x.b.value.low x.c.value.low && (k.ready .ct).t.ags.all fun a => !a.joined) := Meets.of (by decide +kernel)
/-- A joined slot. -/
def joined : AgSlot := ⟨true, false, false, false, 0, 0, 1 * 2 ^ 24 + 7, 0⟩
/-- The strand has joined slot 0. -/
def member (s : State) : State := onStrand s fun t => { t with ags := t.ags.set 0 joined }
theorem witness_Agleave : Meets (member (at_ .ct)) go (fun _ => controlTrig (some s0) false false [])
    (fun _ x k => !x.wait && (vget (k.ready .ct).t.ags 0 AgSlot.start).joined) := Meets.of (by decide +kernel)
theorem witness_Agexcuse : Meets (onStrand (at_ .ct) fun t => { t with privTask := true, req := .done (.excuse 0 0 0) }) go
    (fun _ => controlTrig (some s0) true false [])
    (fun _ x k => !x.wait && (k.ready .ct).privileged && decide ((k.ready .ct).t.req = .done (.excuse 0 0 0))) := Meets.of (by decide +kernel)
theorem witness_Cbr : Meets (member (at_ .ct)) go (fun _ => transferTrig (some s0) true [])
    (fun _ x k => !x.wait && okay ((k.ready .ct).releaseAt (slotScope joined)) && (k.ready .ct).t.spec.isNone) := Meets.of (by decide +kernel)
/-- The last number of a privileged register, without and with the privilege. -/
theorem witness_Rdsr : Meets (withLow (at_ .ct) 0 0x4F) go (fun _ => rdsrTrig s0)
      (fun _ x k => !x.wait && x.a.value.low == 0x4F && !(k.ready .ct).privileged)
    ∧ Meets (at_ .ct) go (fun _ => rdsrTrig s0)
      (fun _ x k => !x.wait && x.a.value.low == 0 && (k.ready .ct).c.held.isEmpty) := ⟨Meets.of (by decide +kernel), Meets.of (by decide +kernel)⟩
theorem witness_Wrsr : Meets (withPort (at_ .ct) .ct .b 8) go (fun _ => controlTrig (some s0) true false [])
      (fun _ x k => !x.wait && x.b.value.low == 8 && (k.ready .ct).t.spec.isNone && (k.ready .ct).t.drain.isEmpty
        && !(k.ready .ct).privileged)
    ∧ Meets (onStrand (withPort (at_ .ct) .ct .b 8) fun t => { t with privTask := true }) go (fun _ => controlTrig (some s0) true false [])
      (fun _ x k => !x.wait && x.b.value.low == 8 && (k.ready .ct).privileged) := ⟨Meets.of (by decide +kernel), Meets.of (by decide +kernel)⟩

/-- A die whose domain register 15 has Q set, a write of it that clears V, one that clears Q alone, and one that is not legal. -/
def quiet15 : State := { State.reset with dies := State.reset.dies.set 7 { State.reset.dies[7] with
  dom := (Vector.replicate 16 0).set 15 0xC000100010000000 } }
theorem witness_DomainWrites : (quiet15.writeDomain 7 15 0x4000100010000000).dies[7].dom[15] = (0x4000100010000000 : Word)
    ∧ (quiet15.writeDomain 7 15 0x4000100010000000).dies[7].busy[15] = true
    ∧ (quiet15.writeDomain 7 15 0x8000100010000000).dies[7].dom[15] = (0x8000100010000000 : Word)
    ∧ (quiet15.writeDomain 7 15 0x8000100010000000).dies[7].busy[15] = false
    ∧ quiet15.writeDomain 7 15 0xC000100010010000 = quiet15 := by decide +kernel

/-! ### Witnesses: traps -/

/-- A strand with a handler and a context save area that can be written. -/
def handled : State := onStrand (mapped (at_ .sc)) fun t => { t with tvec := 0x4000, csa := 0x400000 }
/-- The save place of a strand's core record. -/
def corePlace (t : Strand) : Nat := t.csa.toNat / 2 ^ 22 % 2 ^ 35 * 2 ^ 22 + 0x1000
theorem witness_TrapEntry : handled.frame.any (fun f => f.t.spec.isNone && f.t.saved.isNone && f.t.tvec.toNat / 32 % 2 ^ 52 != 0
    && decide (f.c.seq.group < 8 ∧ f.c.seq.slot < 8 ∧ f.c.seq.leaf < 8) && f.c.coreSound
    && (f.endCounters.s.tileRange f.t.ptn .write (corePlace f.t) 0x1000).isOk && f.s.strand? f.t.sid == some f.t
    && f.s.ctx? f.c.id == some f.c && decide (f.c.id < f.s.nextId)) = true := by decide +kernel
theorem witness_TrapFails : (at_ .sc).frame.any (fun f => f.t.spec.isNone && f.t.tvec == 0 && f.s.strand? f.t.sid == some f.t
    && f.s.ctx? f.c.id == some f.c && f.c.seq.ends.isEmpty) = true := by decide +kernel
theorem witness_TrapHeld : (speculating (at_ .sc)).frame.any (fun f => f.t.spec.isSome && f.s.strand? f.t.sid == some f.t) = true := by
  decide +kernel
/-- A handler that returns by RETRY to context 2. -/
def handler : State :=
  let s := onStrand (mapped (at_ .ct)) fun t => { t with saved := some 2, csa := 0x400000, tsave := vset t.tsave 0 0 }
  { s with ctxs := s.ctxs ++ [Ctx.start 2 0x80 0 1] }
theorem witness_TrapReturn : (∃ f, handler.Runs go f)
    ∧ handler.frame.any (fun f => f.begin.privileged && f.begin.t.spec.isNone && f.begin.t.saved == some 2
      && ((f.begin.s.ctx? 2).any fun c => c.id == 2 && f.c.id == 1)
      && (match f.begin.s.tileRange f.t.ptn .read (corePlace f.t) 0x1000 with
        | .ok l => !f.begin.s.badPieces l
        | .error _ => false)) = true := by
  refine ⟨?_, by decide +kernel⟩
  obtain ⟨f, _, _, r, _⟩ : Moves handler go (fun _ => []) s0 := Moves.of (by decide +kernel)
  exact ⟨f, r⟩
theorem witness_TrapReturnUnprivileged : (∃ f, (at_ .ct).Runs go f) ∧ (at_ .ct).frame.any (fun f => !f.begin.privileged
    && f.begin.t.spec.isNone) = true := by
  refine ⟨?_, by decide +kernel⟩
  obtain ⟨f, _, _, r, _⟩ : Moves (at_ .ct) go (fun _ => []) s0 := Moves.of (by decide +kernel)
  exact ⟨f, r⟩

/-! ### Witnesses: engines and copies -/

theorem witness_Mpset : Meets (at_ .en) go (fun _ => engineTrig (some s0) false false false [.mxe])
    (fun _ x k => !x.wait && (k.ready .en).t.spec.isNone && (k.ready .en).t.drain.isEmpty) := Meets.of (by decide +kernel)
theorem witness_Mxq : Meets (at_ .en) go (fun _ => { engineTrig none false false false [.queue, .mxe] with lat := some 1 })
    (fun _ x k => !x.wait && decide ((k.ready .en).t.snap.ctx.mxe.taken + (k.ready .en).t.snap.ctx.mxe.held.length < 16)) := Meets.of (by decide +kernel)
/-- Routine 255 is loaded, and mp6 claims the last block. -/
def routine255 : State := onCtx (at_ .en) fun c => { c with mxe := { c.mxe with
  store := { c.mxe.store with issue := [(255, ⟨true, 8, 8⟩)] }
  mp := c.mxe.mp.set 6 (511 + 512) } }
theorem witness_Mxcall : Meets routine255 go (fun _ => { engineTrig (some s0) false false false mxeUnits with kinds := callKinds 255 })
    (fun _ x k => !x.wait && (issueEntry ((k.ready .en).s.tile 0) (k.ready .en).c.mxe 255).valid
      && descriptorsOk (k.ready .en).c.mxe.mp ⟨true, 8, 8⟩ && (k.ready .en).c.mxe.held.isEmpty
      && okay ((k.ready .en).touchAll [.block 511])) := Meets.of (by decide +kernel)
/-- An image of one word at store word 1024, for routine 64, by a strand without privilege. -/
theorem witness_Mxload : Meets (withPort (withPort (at_ .en) .en .b (64 + 1024 * 256 + 8 * 2 ^ 24 + 8 * 2 ^ 28)) .en .c 1) go
    (fun _ => engineTrig (some s0) true true false mxeUnits)
    (fun _ x k => !x.wait && x.b.value.low.toNat % 256 == 64 && x.b.value.low.toNat / 256 % 2048 == 1024 && x.c.value.low.toNat % 4096 == 1
      && !(k.ready .en).privileged && okay ((k.ready .en).touchAll [.block 0])) := Meets.of (by decide +kernel)
/-- A transform of two f64 points. -/
def planWords : List Word := [1 + 1 * 2 ^ 50, 0x0000001000000010, 0, 2, 0, 0, 0, 0]
theorem witness_Xplan : Meets (withWords (at_ .en) 0 planWords) go (fun _ => engineTrig (some s0) true false false [.xfu])
    (fun _ x k => !x.wait && padReady (k.ready .en) 0 64 false && (k.ready .en).t.spec.isNone && after ((k.ready .en).touch (blockUnit 0)) fun u =>
      let w := wordsOf 8 (u.bytes (Key.pad u.c.id 0) 64)
      decide ((w.headD 0).toNat / 2 ^ 57 % 32 < 2) && planLegal w (readPlan w)) := Meets.of (by decide +kernel)
/-- That plan, held by the XFU. -/
def planned : State := onCtx (withPort (at_ .en) .en .d 1) fun c => { c with xfu := { c.xfu with
  plans := c.xfu.plans.set 0 (some (readPlan planWords)) } }
theorem witness_Xfft : Meets planned go (fun _ => engineTrig (some s0) true true true [.xfu])
    (fun _ x k => !x.wait && ((k.ready .en).c.xfu.plans[0]).any fun p => p.kind == 0 && x.d.value.low.toNat % 65536 == 1
      && (p.outside 0x21 0 0 1).isNone && okay ((k.ready .en).touchAll ((p.blocks 0x21 0 0 1).map fun b => .block (Fin.ofNat 512 b)))) :=
  Meets.of (by decide +kernel)
/-- A copy of sixteen bytes from 0x100 to 0x200 of the scratchpad. -/
def copyWords : List Word := [2 ^ 62 + 0x100, 2 ^ 62 + 0x200, 16, 2 ^ 48, 2 ^ 48, 2 ^ 48, 2 ^ 48, 2 ^ 48, 0, 0, 0, 0, 0, 0, 0, 0]
theorem witness_Copy : Meets (withWords (at_ .ca) 0 copyWords) go (fun f => copyTrig f.unit s0 true false false none)
    (fun f x k => !x.wait && after ((k.ready f.unit).checkDesc .copy x.a.value.low x.b.value.low) fun r =>
      r.2.c.seq.late.isEmpty && !r.2.t.tagbz.getLsbD 0 && okay r.2.entryPlace
        && (r.1.sideBanks r.1.ssp r.1.saddr r.1.sstr ++ r.1.sideBanks r.1.dsp r.1.daddr r.1.dstr).isEmpty
        && okay (r.2.touchAll [.block 0])) := Meets.of (by decide +kernel)
theorem witness_GlobalAtomic : Meets (at_ .cb) go (fun f => copyTrig f.unit s0 true true true none)
    (fun f x k => !x.wait && x.a.value.low == 0 && (k.ready f.unit).t.spec.isNone && okay (k.ready f.unit).entryPlace && okay ((k.ready f.unit).touchAll [.block 0])) :=
  Meets.of (by decide +kernel)
theorem witness_Mcst : Meets (withPort (at_ .ca) .ca .c (0x1FFFB0 * 2 ^ 32)) go (fun f => copyTrig f.unit s0 true true true none)
    (fun f x k => !x.wait && x.c.value.low.toNat / 2 ^ 32 % 2 ^ 21 == 0x1FFFB0
      && okay ((k.ready f.unit).touchAll [.block 0, .block 511])) := Meets.of (by decide +kernel)
theorem witness_Range : Meets (withPort (withPort (at_ .ca) .ca .d 2) .ca .c (2 ^ 40)) go
    (fun f => copyTrig f.unit s0 true true true none)
    (fun _ x _ => !x.wait && x.d.value.low == 2 && x.c.value.low == 2 ^ 40) := Meets.of (by decide +kernel)
theorem witness_CatArm : Meets (withLow (at_ .ca) 0 (4095 * 64 + 63)) go (fun f => copyTrig f.unit s0 true true false none)
    (fun f x k => !x.wait && x.a.value.low.toNat / 2 ^ 18 == 0 && !(k.ready f.unit).t.tagbz.getLsbD 63) := Meets.of (by decide +kernel)
theorem witness_CatDisarm : Meets (at_ .cb) go (fun f => copyTrig f.unit s0 false false false none)
    (fun _ x _ => !x.wait && x.a.value.low.toNat / 2 ^ 18 == 0) := Meets.of (by decide +kernel)
theorem witness_Waitany : Meets (onStrand (withLow (at_ .ca) 0 1) fun t => { t with tags := 1 }) go
    (fun f => copyTrig f.unit s0 false false false none)
    (fun f x k => !x.wait && (k.ready f.unit).t.tags &&& x.a.value.low != 0 && (k.ready f.unit).t.tagbz &&& x.a.value.low == 0) :=
  Meets.of (by decide +kernel)
theorem witness_Ffr : Meets (onStrand (withLow (at_ .ca) 0 0x8000000000000000) fun t => { t with tags := 0x8000000000000000 }) go
    (fun f => copyTrig f.unit s0 false false false (some 1))
    (fun f x k => !x.wait && (k.ready f.unit).t.snap.tags.getLsbD 63 && x.a.value.low.getLsbD 63) := Meets.of (by decide +kernel)
theorem witness_BcInit : Meets (withPort (withLow (at_ .ca) 0 0x1FFFF0) .ca .c 65535) go
    (fun f => copyTrig f.unit s0 true true false none)
    (fun f x k => !x.wait && x.c.value.low == 65535 && !(k.ready f.unit).engineHolds 511 && decide ((k.ready f.unit).armedAfter.length < 64)
      && after ((k.ready f.unit).touch (blockUnit 0x1FFFF0)) fun u => clear u [(Key.pad (k.ready f.unit).c.id 0x1FFFF0, 16)] true) :=
  Meets.of (by decide +kernel)
/-- An armed counter at 0 with one pending arrival, and a complete one at 16. -/
def counters : State := onStrand (withWords (at_ .ca) 0 [5, 1, 0, 0]) fun t => { t with armed := [Key.pad 1 0, Key.pad 1 16] }
theorem witness_Arrive : Meets counters go (fun f => copyTrig f.unit s0 true false false none)
      (fun f x k => !x.wait && (k.ready f.unit).t.armed.contains (Key.pad (k.ready f.unit).c.id 0)
        && Memory.num (k.ready f.unit).s.mem (Key.pad 1 0 + 8) 8 == 1)
    ∧ Meets (withLow counters 0 16) go (fun f => copyTrig f.unit s0 true false false none)
      (fun f x k => !x.wait && (k.ready f.unit).t.armed.contains (Key.pad (k.ready f.unit).c.id 16)
        && Memory.num (k.ready f.unit).s.mem (Key.pad 1 16) 8 == 0
        && Memory.num (k.ready f.unit).s.mem (Key.pad 1 16 + 8) 8 == 0) := ⟨Meets.of (by decide +kernel), Meets.of (by decide +kernel)⟩
/-- The test form, and the wait form on a complete counter. -/
theorem witness_BcWait : Meets (withPort counters .ca .b 3) go (fun f => f.bcWaitTrig s0)
      (fun f x k => !x.wait && x.b.value.low == 3 && (k.ready f.unit).t.armed.contains (Key.pad (k.ready f.unit).c.id 0)
        && okay ((k.ready f.unit).touch .queue))
    ∧ Meets (withLow counters 0 16) go (fun f => f.bcWaitTrig s0)
      (fun f x k => !x.wait && x.b.value.low == 0 && (k.ready f.unit).t.armed.contains (Key.pad (k.ready f.unit).c.id 16)) :=
  ⟨Meets.of (by decide +kernel), Meets.of (by decide +kernel)⟩
theorem witness_CounterEnds : counters.Canonical ∧ (counters.owner? 1).isSome = true ∧ (counters.ctx? 1).isSome = true :=
  ⟨Memory.write_wf rfl, by decide +kernel, by decide +kernel⟩
/-- A parameter block of an all-gather of sixteen bytes. -/
def collWords : List Word := [3 * 2 ^ 60, 0, 0x100, 16, 0, 0, 0, 0, 0, 0, 0, 0, 0, 0, 0, 0]
theorem witness_Xcoll : Meets (withWords (withLow (at_ .ca) 0 15) 0 collWords) go (fun f => copyTrig f.unit s0 true false false (some 2))
    (fun f x k => !x.wait && (blocksOf 0 128).all (fun n => !(k.ready f.unit).ownerBit n) && after ((k.ready f.unit).padWords 0 16) fun r =>
      let c := readColl r.1 false
      r.2.c.seq.late.isEmpty && okay (r.2.postPlace 15) && collReserved r.1 && collLegal c && !c.bce && !c.pers && c.rop == 0
        && c.sbuf % 16 == 0 && c.dbuf % 16 == 0 && c.dpitch % 16 == 0 && c.spitch % 16 == 0) := Meets.of (by decide +kernel)
theorem witness_Ttready : Meets (onStrand (at_ .ca) fun t => { t with ttb := 0x8000000000000000 }) go
    (fun f => copyTrig f.unit s0 false false false (some 2))
    (fun f x k => !x.wait && (k.ready f.unit).t.ttb.getLsbD 63
      && after ((k.ready f.unit).touchAll (((k.ready f.unit).s.firingBlocks (k.ready f.unit).t 0).map fun b => .block (Fin.ofNat 512 b)))
        fun v => okay (v.postPlace 0)) := Meets.of (by decide +kernel)
theorem witness_Waitid : Meets (onStrand (at_ .ca) fun t => { t with
      chans := t.chans.set 0 ⟨1, []⟩
      snap := { t.snap with chans := t.snap.chans.set 0 ⟨1, []⟩ } }) go
    (fun f => copyTrig f.unit s0 true false false none)
    (fun f x k => !x.wait && decide (0 < (vget (k.ready f.unit).t.snap.chans 0 Chan.start).next
      ∧ 0 < (vget (k.ready f.unit).t.chans 0 Chan.start).doneId)) := Meets.of (by decide +kernel)

/-! ### Witnesses: micro-operations -/

/-- The MXE stands before a micro-word of a routine with both descriptors. -/
def microState : State := State.reset.placeMicro 0
theorem witness_Micro : microState.mxFrame.any (fun f => f.r.upc == 1024 && f.r.entry.start == 1024 && decide (1024 < f.r.entry.start + f.r.entry.len))
    = true ∧ microState.Canonical := ⟨by decide +kernel, rfl⟩
theorem witness_MicroSkipped : microState.mxFrame.any (fun f => f.wordSound && !(f.mp 0).getLsbD 0) = true := by decide +kernel
/-- The word at which the MXE stands is uncorrectable. -/
theorem witness_MicroUnsound : (onCtx microState fun c => { c with mxe := { c.mxe with store := { c.mxe.store with
    bad := [1024] } } }).mxFrame.any (fun f => !f.wordSound) = true := by decide +kernel
/-- A call that claims block 0 with a tile descriptor of 64-byte lines in mp0. -/
def microLoads : State := { onCtx microState fun c => { c with mxe := { c.mxe with run := c.mxe.run.map fun r =>
    { r with call := { r.call with snap := r.call.snap.set 0 (0x40 * 2 ^ 37) } } } } with
  claims := [⟨1, .call 0, [0], true, 0⟩] }
theorem witness_MicroLoads : microLoads.mxFrame.any (fun f => f.r.part == 0 && !descBit f.aDesc 54 && !f.es && !f.sparse
    && (f.s.ownedBlocks f.c.id).contains 0) = true := by decide +kernel

/-! ### Witnesses: the events of strands, contexts and engines -/

/-- Two operations whose push cycle has ended. -/
def pushes : State := onCtx (at_ .sc) fun c => { c with
  icyc := 5
  flying := [⟨1, 4, 0, false, 9, 7, 0, true, none, [], false, 0, 0, none⟩, ⟨2, 3, 1, false, 9, 8, 1, true, none, [], false, 0, 0, none⟩] }
theorem witness_ResultsReachTheQueue : (pushes.frameOf 1).any (fun f => f.c.duePushes.length == 2) = true
    ∧ ((onCtx pushes fun c => { c with flying := ⟨3, 2, 0, true, 9, 7, 0, true, none, [], true, 0, 1, none⟩ :: c.flying }).frameOf 1).any
      (fun f => f.c.duePushes.length == 2 && f.c.flying.any (·.leafed)) = true := by decide +kernel
/-- An atomic at the last word of a window has reached its bank. -/
def windowDue : State := { at_ .sc with win := [⟨0, 0, 0, 1, 0x1FFFF8, .atomic .add 1 0 3, 3⟩] }
theorem witness_WindowAccessesPerform : windowDue.Canonical ∧ windowDue.dueAccesses 0 = windowDue.win ∧ 0x1FFFF8 + 256 ≤ 2 ^ 24
    ∧ windowDue.bad (Key.window 0 0x1FFFF8) 8 = false := ⟨rfl, by decide +kernel, by decide, by decide +kernel⟩
/-- A strand asks for a claim, a strand waits for a token's place, and a store still drains. -/
def waiting (r : Req) : State := onStrand (mapped (at_ .sc)) fun t => { t with
  req := r
  cbxTill := 3
  posts := [(0, 0, 9)]
  k2wait := [4]
  drain := [⟨false, [(Key.pad 1 0, [1])], 1, 0⟩]
  waits := some .element }
theorem witness_StrandEvents : ((waiting (.open (.fence 1 2))).strand? 1).any (fun t => t.cbxTill == 3 && (t.waits.any WaitOn.isStall)
    && (waiting (.open (.fence 1 2))).duePost t == some (0, 0, 9) && !t.k2wait.isEmpty && t.life == .running
    && decide (t.k2.length + t.poppedHere 2 < 16)
    && !t.drain.isEmpty && t.trap.isNone) = true := by decide +kernel
theorem witness_TokenReceiver : ((at_ .sc).receiver 1 0).isSome = true := by decide +kernel
theorem witness_AgexcuseAck : ((waiting (.open (.excuse 1 7 0))).strand? 1).any (fun t => decide (t.req = .open (.excuse 1 7 0))
    && (waiting (.open (.excuse 1 7 0))).modId != 1) = true := by decide +kernel
theorem witness_FillArrive : ((waiting (.open (.fill 3))).frameOf 1).any (fun f =>
    !(waiting (.open (.fill 3))).rangeWaits (f.c.pairAddr 3) 128
    && ((waiting (.open (.fill 3))).tileRange f.t.ptn .read (f.c.pairAddr 3) 128).toOption.any fun l => !(waiting (.open (.fill 3))).badPieces l) = true := by
  decide +kernel
theorem witness_CsyncSnapshot : ((waiting (.open .csync)).frameOf 1).any (fun f =>
    !(waiting (.open .csync)).rangeWaits f.t.cseg (8 * f.t.clen)
    && ((waiting (.open .csync)).tileRange f.t.ptn .read f.t.cseg (8 * f.t.clen)).toOption.any fun l => !(waiting (.open .csync)).badPieces l) = true := by
  decide +kernel
theorem witness_UnitClaim : ((waiting (.open (.claim .mxe))).frameOf 1).any (fun f =>
    ((waiting (.open (.claim .mxe))).victimOf f.t.ptn .mxe f.c.id).isNone && f.c.away.isEmpty && f.windowResident
    && (waiting (.open (.claim .mxe))).owner? f.c.id == some f.t && !(waiting (.open (.claim .mxe))).tileWaits f.t.ptn) = true := by
  decide +kernel
/-- A strand that has ended its issue and has nothing left. -/
def drainedState : State := onStrand (at_ .sc) fun t => { t with life := .draining }
theorem witness_RetireComplete : (drainedState.strand? 1).any (fun t => drainedState.drained t
    && (((drainedState.retireStrand t).releaseBarriers t.task).task? t.task).isSome) = true := by decide +kernel
/-- A held operation of vector unit A. -/
def heldOp (feeds : List (Nat × Nat)) (op : Option HeldOp) (args : List HeldArg) (fault till : Option Nat) : Held :=
  ⟨.va, 4, feeds, [], [], op, args, 0, 1, 14, 0, 0, fault, 0, 4, till, some [], false, 0⟩
/-- A strand that holds an operation with SLK at 0. -/
def holds (x : Held) : State := onCtx (at_ .va) fun c => { c with held := [x] }
theorem witness_SlackExhausted : ((holds (heldOp [(0, 5)] none [] none none)).frameOf 1).any Frame.starved = true
    ∧ ((holds (heldOp [] (some (.compute (.vector .perm))) [.column 1 0] none none)).frameOf 1).any (fun f => f.starved
      && (f.c.held.find? fun x => x.args.any (·.isColumn)).isSome) = true := by decide +kernel
/-- Whether a held operation is there for HELD_OP_RUN. -/
def runnable (s : State) (p : Ctx → Held → Bool) : Bool :=
  ((s.owner? 1).any fun t => t.cur == 1) && (s.ctx? 1).any fun c => c.held.any fun x => x.unit == .va && p c x
theorem witness_HeldOpRun : runnable (holds (heldOp [] none [] none none)) (fun c x => c.elementsHere x && x.fault.isNone && x.till.isNone)
    ∧ runnable (holds (heldOp [] none [] (some 4096) none)) (fun c x => c.elementsHere x && x.fault.isSome && x.till.isNone)
    ∧ runnable (holds (heldOp [] (some (.again (.vst go s0))) [] none none)) (fun c x => c.elementsHere x && x.till.isNone)
    ∧ runnable (holds (heldOp [] none [] none (some 0))) (fun _ x => x.till.any (· ≤ 0)) := by decide +kernel
theorem witness_HeldCompute : (let x := heldOp [] (some (.compute (.vector .perm))) [.val (.tagged 1 0), .val (.tagged 1 0),
    .val (.untyped 0), .val (.untyped 0)] none none
  (x.compute (.vector .perm)).toOption.isSome) = true := by decide +kernel
/-- A read port and a closed block, both due. -/
def elements : State := { onCtx (at_ .va) fun c => { c with
  feeds := c.feeds.set 0 ⟨true, false, 0, 0, 0, [(4, 256)], 0, 0, 0⟩
  blocks := [⟨1, 10, 32, [1], true, 0, 0, 0⟩] } with cycle := 9 }
theorem witness_ElementEvents : (elements.ctx? 1).any (fun c => elements.feedReady c (vget c.feeds 0 Feed.start)
    && c.blocks.any elements.columnDue) = true := by decide +kernel
/-- An engine with a held call, a queued one and a finished one. -/
def engines : State := onCtx (at_ .en) fun c => { c with
  mxe := { c.mxe with
    held := [⟨8, 64, Vector.replicate 8 0, none, 0⟩]
    queue := [⟨7, 64, Vector.replicate 8 0, none, 0⟩]
    store := { c.mxe.store with table := [(64, ⟨true, 1024, 1, 8, 8⟩)] } }
  xfu := { c.xfu with fin := some ⟨5, 0, false⟩, held := [⟨6, 0x21, readPlan planWords, 0, 0, 0, 1⟩] } }
theorem witness_EngineEvents : (engines.ctx? 1).any (fun c => !c.mxe.held.isEmpty && decide (c.mxe.taken < 8)
    && (engines.mxeHead c).any (fun x => x.load.isNone && (storeEntry (engines.tileOf 1) c.mxe x.routine).valid)
    && (c.finished .xfu).any (fun x => !x.posted) && (engines.owner? 1).any (fun t => t.cur == 1
      && decide ((c.engineTokens .xfu).length + t.poppedHere 1 < 16)) && c.bad.isEmpty
    && !c.xfu.held.isEmpty && decide (c.xfu.taken < 8)) = true := by decide +kernel
/-- A transform at the head of its queue, and an image to load. -/
def heads : State := { onCtx (at_ .en) fun c => { c with
  mxe := { c.mxe with queue := [⟨7, 64, Vector.replicate 8 0, some ⟨0, 64, 1024, 8, 8, 1⟩, 0⟩] }
  xfu := { c.xfu with queue := [⟨6, 0x21, readPlan planWords, 0, 0, 0, 1⟩] } } with claims := [⟨1, .call 6, [0], true, 0⟩] }
theorem witness_EngineHeads : (heads.ctx? 1).any (fun c => (heads.mxeHead c).any (fun x => x.load.any fun l =>
      64 ≤ l.index && 1024 ≤ l.start && (heads.imageWords 1 l).all fun w => !l.refuses l.start w)
    && c.xfu.queue.any (fun x => heads.claimLive x.serial && (XStep.next ⟨heads, ⟨x, 0, 0, [], .none⟩⟩ 1).toOption.isSome)
    && c.xfu.fin.isNone && !c.xfu.stop && c.engineHere .xfu) = true := by decide +kernel
/-- A second strand of the tile claims the MXE. -/
def wanted : State := { at_ .sc with strands := (at_ .sc).strands ++ (at_ .sc).strands.map fun t =>
  { t with sid := 2, cur := 2, req := .open (.claim .mxe) } }
theorem witness_Quiesce : (wanted.ctx? 1).any (fun c => wanted.wantsEngine c .mxe) = true := by decide +kernel

/-! ### Witnesses: the events of copies, the fabric and agreements -/

/-- A tag command of this kind on tag 63. -/
def withCmd (s : State) (k : CmdKind) (accepted ended : Bool) (pos : Nat) : State :=
  { s with cycle := 7, cmds := [⟨9, 1, 1, 0, false, 63, k, accepted, 0, pos, 0, ended, some [], [], []⟩] }
theorem witness_TagCommands : ((withCmd (at_ .ca) (.catDisarm 4095) false false 1).cmd? 9).any (fun k => !k.accepted
      && decide ((withCmd (at_ .ca) (.catDisarm 4095) false false 1).activeEntries k.ptn k.engineB < 64)
      && !(withCmd (at_ .ca) (.catDisarm 4095) false false 1).launchPending 4095) = true
    ∧ ((withCmd (at_ .ca) (.catDisarm 4095) true true 1).cmd? 9).any (fun k => k.ended && decide (k.tag < 64)
      && (({ withCmd (at_ .ca) (.catDisarm 4095) true true 1 with cmds := [] } : State).strand? k.sid).isSome) = true := by decide +kernel
theorem witness_CounterArrival : counters.Canonical ∧ (counters.owner? 1).any (fun t => t.armed.contains (Key.pad 1 0)) = true :=
  ⟨Memory.write_wf rfl, by decide +kernel⟩
theorem witness_Invalidation : (({ State.reset with clocks := State.reset.clocks.set 0 ⟨[], [], [[1]]⟩ } : State).dieClock 0).appliable [1]
    = true := by decide +kernel
/-- The entry of the call at the head of the MXE's queue is uncorrectable. -/
theorem witness_EngineUnsound : ((onCtx engines fun c => { c with bad := [.call 7] }).ctx? 1).any (fun c =>
    ((onCtx engines fun c => { c with bad := [.call 7] }).mxeHead c).any fun x => c.bad.contains (.call x.serial)) = true := by
  decide +kernel
theorem witness_ReplicaArrive : ((mapped State.reset).globalKey [] .write 0x4000).toOption.isSome = true
    ∧ (mapped State.reset).rangeWaits 0x4000 256 = false := by decide +kernel
/-- HBM stands behind a port that retrains: a page-table root in module 1, to which port 0 leads. -/
def retrain : State := { at_ .ca with
  modId := 0
  ptroot := 0x20000001001
  curMin := [(1, 1)]
  optical := State.reset.optical.map fun p => { p with state := 1 } }
theorem witness_PortsWait : retrain.rangeWaits 0x4000 256 = true := by decide +kernel
/-- A copy of sixteen bytes within the scratchpad that may go on. -/
def copying : State := withCmd (at_ .ca) (.copy ⟨1, 0, 1, 0x1FFFF0, false, 0, 16, [1, 1, 1, 1, 1], [0, 0, 0, 0, 0], [0, 0, 0, 0, 0], 0, 0⟩
  .plain false) true false 0
theorem witness_CopyChunks : copying.Canonical ∧ (copying.cmd? 9).any copying.chunkReady = true := ⟨rfl, by decide +kernel⟩
/-- Sixteen runs of sixteen bytes from the scratchpad to global memory, two bytes below a 64 KiB boundary at first. -/
def runsDesc : CopyDesc := ⟨1, 0, 0, 0xFFFE, false, 0, 16, [16, 1, 1, 1, 1], [32, 0, 0, 0, 0], [16, 0, 0, 0, 0], 0, 0⟩
/-- The same gathered by 32-bit indices at 0x1000, of which the highest bit of the first makes its run inactive. -/
def gatherDesc : CopyDesc := { runsDesc with idx := 0x1000 }
/-- A copy command of many runs. -/
def scattering (d : CopyDesc) (w : Walk) : State := withCmd (mapped (withWords (at_ .ca) 0x1000 [0x1FFFFFFFF])) (.copy d w false) true false 0
/-- A chunk of it reads and places its pieces, as the hypotheses ask. -/
def pieces (s : State) (d : CopyDesc) (w : Walk) : Bool := (s.cmd? 9).any fun k =>
  s.chunkReady k && decide (1 ≤ d.run ∧ k.pos < d.total) && (match s.readSegs k d.ssp (s.chunkAt k.ctx d w k.pos) with
    | .ok (bs, t) => (match t.segPlaces k d.dsp ((s.chunkAt k.ctx d w k.pos).zip bs) with
      | .ok places => !places.isEmpty && decide (segBytes (s.chunkAt k.ctx d w k.pos) < d.total)
      | .error _ => false)
    | .error _ => false)
theorem witness_CopyRuns : pieces (scattering runsDesc .plain) runsDesc .plain = true := by decide +kernel
theorem witness_CopyGather : pieces (scattering gatherDesc .gather) gatherDesc .gather = true := by decide +kernel
/-- A global atomic that may go on. -/
def atomicCmd : State := withCmd (mapped (at_ .ca)) (.atomic .cas false 0x4000 (some 0x1FFFF8) 0 5) true false 0
theorem witness_AtomicChunk : (atomicCmd.cmd? 9).any (fun k => atomicCmd.chunkReady k
    && (atomicCmd.globalKey k.tlbs .write 0x4000).toOption.any fun key => !atomicCmd.bad key 8 && decide (key + 8 ≤ 2 ^ 40)) = true := by decide +kernel
/-- A tile of this module. -/
def here : Member := ⟨0, 0⟩
/-- A notice of an all-gather. -/
def notice0 : Notice := ⟨here, 1, 1, 15, 0, here, 0, 0, 0, 0, .coll (readColl collWords false)⟩
/-- A transfer of sixteen bytes to 0x4000 with one chunk asked for and one to be asked for again. -/
def xfer0 : Xfer := ⟨4, here, some 1, none, notice0, true, 0, 0x4000, 32, .place, false, 0, true, 0, 32, [(0, 16)], [(16, 16)], 32, none,
  .none, none⟩
/-- A chunk in flight. -/
def flight0 : Flight := ⟨4, here, 0, 16, 0, 0, .data (List.replicate 16 7)⟩
/-- A strand has posted on its last channel, a transfer is under way and a chunk of it is in flight. -/
def fabric : State := { mapped (at_ .ca) with
  xfers := [xfer0]
  flights := [flight0]
  posts := [⟨.ca, 1, 1, 0, 15, 0, 0, .coll { readColl collWords false with pers := true }, true, none, [], 0, [], [], none, .none, false, false, 0⟩] }
theorem witness_FabricEvents : (fabric.xfers.find? fun x => x.id == flight0.xfer && x.out.contains (flight0.pos, flight0.len)) = some xfer0
    ∧ fabric.parked = [] ∧ xfer0.notice.frm.modu = fabric.modId
    ∧ (({ fabric with flights := fabric.flights.erase flight0 } : State).placeKeys .write (xfer0.places 0 16)).toOption.isSome = true
    ∧ fabric.landWaits xfer0 0 16 = false ∧ fabric.mayAsk xfer0 (16, 16) = true ∧ (fabric.post? 1 15 0).isSome = true ∧ xfer0.rr = true := by decide +kernel
/-- A chunk of this module whose page is not there. -/
theorem witness_ChunkFaults : ({ fabric with flights := [] } : State).placeKeys .write (Xfer.places { xfer0 with dst := 2 ^ 41 } 0 16)
    = .error (2 ^ 41, 0) ∧ ({ fabric with flights := [] } : State).landWaits { xfer0 with dst := 2 ^ 41 } 0 16 = false := by decide +kernel
/-- A report that a switch refused as stale is sent with the version of that moment. -/
theorem witness_ReportAgain : (reportAgain 3 (.served ⟨here, 1, 15, 0, 0, 0, false, false, false, false, 2⟩)).isSome = true := by decide +kernel
/-- A chunk is parked, its fault resolved. -/
def parkedState : State := { fabric with parked := [⟨3, 8, 0x4000, flight0, true, true⟩] }
theorem witness_ParkedChunk : (parkedState.parked.find? fun k => k.recorded && k.resolved && k.num == 8).any (fun k => k.flight == flight0) = true
    := by decide +kernel
/-- A transfer stuck on a page that is not there, with room in the fault ring. -/
def stuckState : State := { fabric with
  xfers := [{ xfer0 with stuck := some ⟨16, 16, 2 ^ 40, none⟩, dst := 2 ^ 40 }]
  fltbase := 0x5004 }
theorem witness_LocalPullFault : (stuckState.xfers.head?.bind Xfer.stuck).any (fun k => k.num.isNone) = true ∧ stuckState.ringRoom = true
    ∧ (stuckState.placeKeys .write (Xfer.places { xfer0 with dst := 2 ^ 40 } 16 16)).toOption = none := by decide +kernel
theorem witness_TransferIdWaits : (fabric.post? 1 15 0).any (fun p =>
    !({ fabric with xfers := [{ xfer0 with post := some (1, 15, 0) }] } : State).postDone p) = true := by decide +kernel
theorem witness_TransferIdComplete : (fabric.post? 1 15 0).any (fun p => decide (({ fabric with xfers := [] } : State).postDone p)) = true
    ∧ (fabric.strand? 1).isSome = true := by decide +kernel
/-- A member's first contribution to a group of two. -/
def contrib0 : Contribution := ⟨7, 2, 0, 0, 5, 1, 0, 0, true, 0, 1, 0, 0, 0⟩
/-- The root of the group has counted it. -/
def rooted : State := { at_ .ct with roots := [⟨7, some contrib0, 0, true, [contrib0], [], [], [], [], false, none, [], [0], 0, none, none, []⟩] }
theorem witness_AgreementEvents : (rooted.root? 7).any (fun r => r.busy && r.pre.isEmpty && r.left == 0 && !r.bad && r.mods == [0] && r.early.isEmpty && r.mis.isEmpty && !rooted.rootElsewhere 7
    && r.got.all (·.frm == 0) && !(r.got.any (·.midx == 1)) && AgRoot.full { r with got := r.got ++ [{ contrib0 with midx := 1 }] }) = true := by
  decide +kernel
/-- A strand speculates on slot 0, whose answer is out. -/
def answering : State := onStrand (speculating (at_ .ct)) fun t => { t with ags := t.ags.set 0 { joined with out := true } }
theorem witness_AnswerArrive : (answering.frameOf 1).any (fun f => (vget f.t.ags 0 AgSlot.start).joined && (vget f.t.ags 0 AgSlot.start).out
    && f.t.spec.any fun p => p.slot == 0 && p.trap.isNone && p.check.id == f.c.id) = true := by decide +kernel

/-! ### Witnesses: tasks, queues, graphs and the host -/

/-- A task with a header at 0x8000, whose words ask for nothing, is Pending. -/
def pendingState : State := { mapped State.reset with
  nextId := 5
  tasks := [{ Task.zero 1 with st := .pending, at_ := 0x8000, hdr := none }] }
theorem witness_TaskPlace : (pendingState.task? 1).any (fun k => pendingState.considered k && !k.csaMisaligned && decide (k.acq < 3)
    && (pendingState.readHeader k.at_).toOption.any fun h => pendingState.chooseCluster k.prio h == some 0
      && (pendingState.launchSnapshot h).toOption.isSome && (pendingState.victims h 0).isEmpty) = true
    ∧ (pendingState.task? 1).any (fun k => !pendingState.placeWaits k) = true := by decide +kernel
/-- A task of higher priority is Pending while one runs on every tile of a cluster, and on all of the others. -/
def contested : State := { mapped State.reset with
  nextId := 5
  tiles := (List.range 1024).map fun p => { TileRec.start p firmwareStore with vacant := false }
  tasks := [{ Task.zero 1 with st := .pending, at_ := 0x8000, hdr := none, prio := 1 }, { Task.zero 2 with st := .running }]
  strands := (State.reset.placeSlot .ct false 0).strands.map fun t => { t with task := 2, sid := 3 }
  ctxs := (State.reset.placeSlot .ct false 0).ctxs }
theorem witness_TaskPlaced : (contested.task? 1).any (fun k => contested.considered k && !contested.placeWaits k
    && (contested.readHeader k.at_).toOption.any fun h => contested.chooseCluster k.prio h == some 0
      && (contested.victims h 0).any fun v => v.st == .running && !contested.allStopped v.tid) = true := by decide +kernel
/-- A task whose only strand has stopped at a bundle boundary, with its watchdog elapsed. -/
def failing (x : Option FailRec) : State :=
  { onStrand (onCtx (at_ .sc) fun c => { c with seq := Seq.start }) fun t => { t with fail := x, life := .draining } with
    tasks := [{ Task.zero 1 with wdInt := 1, wdCnt := 2000 }] }
theorem witness_TaskFails : ((failing (some ⟨9, 1, 0, 0, []⟩)).strand? 1).any (fun t => t.fail.isSome
      && (failing (some ⟨9, 1, 0, 0, []⟩)).allStopped t.task
      && ((failing none).task? t.task).any fun k => !(failing (some ⟨9, 1, 0, 0, []⟩)).endWaits k) = true
    ∧ ((at_ .sc).strand? 1).any (fun t => !(at_ .sc).allStopped t.task) = true := by decide +kernel
theorem witness_WatchdogFires : ((failing none).task? 1).any (fun k => k.st == .running && k.wdInt != 0 && decide (k.wdInt * 2000 ≤ k.wdCnt)
    && (failing none).allStopped k.tid && !(failing none).endWaits k && (((failing none).taskStrands k.tid).find? (·.rank == 0)).any fun t => t.fail.isNone
      && (failing none).strand? t.sid == some t) = true := by decide +kernel
/-- A Pre-empted task whose tile is free. -/
def preempted : State := { at_ .sc with tasks := [{ Task.zero 1 with st := .preempted }] }
theorem witness_TaskResume : (preempted.task? 1).any (fun k => preempted.mayResume k && !preempted.taskWaits k) = true := by decide +kernel
theorem witness_BankRetire : 7 ∈ (State.reset.tile 1023).banks ∧ 7 ^^^ 1 ∈ (State.reset.tile 1023).banks
    ∧ 2 < (State.reset.tile 1023).banks.length := by decide +kernel
/-- A packet started of a type. -/
def started (type : Nat) : Started := ⟨0, #v[BitVec.ofNat 64 (type * 2 ^ 60), 0, 0, 0, 0, 0, 0, 0]⟩
/-- The last queue, registered with rings of sixteen at 0x10000 and 0x20000, with one packet that it has not read. -/
def queue0 (l : List Started) : Queue := ⟨4095, 0x8000040400000000, 0x10000, 0x20000, 0, 0, 0, 1, 0, l, [], some 0, 16, false, false⟩
/-- A module with that queue. -/
def queued (l : List Started) : State := { mapped State.reset with queues := [queue0 l] }
theorem witness_QueueStart : (queued []).mayStart ((queued []).queue 4095) = true ∧ ((queued []).readPacket ((queued []).queue 4095)).toOption.any
    (fun w => (queued []).packetOk w && w[0].toNat / 2 ^ 60 == 0 && !w[0].getLsbD 53 && !w[0].getLsbD 49) = true := by decide +kernel
theorem witness_QueueAcks : (((queued [started 3]).queue 4095).started.find? (·.idx == 0)).any (fun p => p.words[0].toNat / 2 ^ 60 == 3) = true
    ∧ ((queued [started 6]).queue 4095).started = [started 6] ∧ ((queued [started 4]).queue 4095).started = [started 4]
    ∧ (started 4).words[0].toNat / 2 ^ 60 = 4 ∧ (queued [started 6]).xfers = [] := by decide +kernel
theorem witness_QueueIdle : (({ queue0 [] with wridx := 0 } : Queue).quiet && decide (16 ≤ (queue0 []).idle)) = true := by decide +kernel
/-- A record that a write may make good. -/
def record0 : Record := ⟨0, 0, 0, true, false, [], false⟩
theorem witness_QueueWaits : ({ queue0 [] with w0 := 0xA000040400000000, held := [record0] } : Queue).w0.getLsbD 61 = true
    ∧ ((queued []).writeVirt 0x20000 record0.bytes).toOption.isSome = true ∧ (queue0 []).w0.toNat / 2 ^ 32 % 32 = 4
    ∧ (queued []).rangeWaits (queue0 []).recordAddr 32 = false := by decide +kernel
theorem witness_QueueRegister : (0x80000C0400000000 : Word).toNat / 2 ^ 40 % 32 = 12 ∧ (0x8000100400000000 : Word).toNat / 2 ^ 40 % 32 = 16
    ∧ (0x8000110400000000 : Word).toNat / 2 ^ 40 % 32 ∉ List.range' 4 13 := by decide +kernel
theorem witness_Rotation : ({ queued [] with queues := [{ queue0 [] with mapped := none }] } : State).nextRotating [] = some 4095
    ∧ (queued []).freeSlot = some 1 ∧ (queue0 []).pending = true ∧ ({ queue0 [] with wridx := 0 } : Queue).pending = false := by decide +kernel
/-- A node that reads the word at 0x4000. -/
def condNode : Node := ⟨2, 0, 0, 0, [], 0, 0x4000, 0, 0, 0, 0, 0⟩
/-- A replay of a graph of two of them, the first fired and worked. -/
def replaying (begun : Bool) (doneN : List Nat) (left : Nat) : State :=
  let r : Replay := ⟨0, 0, true, 0, left, begun, [0, 0], if doneN.isEmpty then [0, 1] else [0], [0], doneN, [], [], false, false, false, none, [],
    0, Vector.replicate 4 0⟩
  { mapped State.reset with graphs := State.reset.graphs.set 15 ⟨[condNode, condNode], 0, some r, []⟩ }
theorem witness_GraphEvents : ((replaying true [] 1).graph 15).run.any (fun r => (replaying true [] 1).nodeReady ((replaying true [] 1).graph 15) r 0
      && r.fired.contains 1 && !r.worked.contains 1 && (replaying true [] 1).gsqAcquires (((replaying true [] 1).graph 15).node 1) r
      && decide (r.doneN.length + 1 < 2)) = true
    ∧ ((replaying true [] 1).nodeActs (((replaying true [] 1).graph 15).node 0)).toOption.isSome = true
    ∧ ((replaying true [] 1).coreRead 0x4000 8).toOption.isSome = true
    ∧ ((replaying false [] 1).graph 15).run.any (fun r => !r.begun && !r.over_ && r.failed.isNone) = true
    ∧ (replaying true [] 1).graphStands 15 = false := by decide +kernel
theorem witness_GraphStepEnds : ((replaying true [1] 2).graph 15).run.any (fun r => (replaying true [1] 2).nodeReady
      ((replaying true [1] 2).graph 15) r 0 && r.doneN.length + 1 == 2 && !r.ending && r.left == 2 && r.fired == [0] && r.pers.isEmpty
      && r.launched.isEmpty) = true ∧ ((replaying true [1] 1).graph 15).run.any (fun r => r.left == 1) = true := by decide +kernel
/-- A port in a state that carries a level below its budget, with a hold that ends in cycle 20000000. -/
def portState (st : Nat) : State := { State.reset with optical := State.reset.optical.set 63 ⟨st, 0, 0, 9, 3, 20000000, []⟩ }
theorem witness_Links : ((portState 1).optical[(63 : Fin 64)]).state = 1 ∧ ((portState 0).optical[(63 : Fin 64)]).state = 0
    ∧ ((portState 0).optical[(63 : Fin 64)]).actual.toNat < 255 ∧ (portState 0).cycle < ((portState 0).optical[(63 : Fin 64)]).holdTill
    ∧ ((portState 0).optical[(63 : Fin 64)]).dutyAt 0 + (229 : BitVec 8).toNat ≤ 229
    ∧ 229 < ((portState 0).optical[(63 : Fin 64)]).dutyAt 0 + (230 : BitVec 8).toNat := by decide +kernel
theorem witness_HoldExpires : (({ portState 0 with cycle := 20000000 } : State).optical[(63 : Fin 64)]).holdOver 20000000 = true := by
  decide +kernel
/-- A record of a packet that was refused waits beside a started packet. -/
theorem witness_EndedRecords : (({ queue0 [started 2] with held := [record0] } : Queue).held.all fun r => !r.begun) = true
    ∧ (queue0 [started 2]).started ≠ [] := by decide +kernel
theorem witness_HostAccess : State.reset.locked = false ∧ (2 ^ 40 - 64) % 64 + 64 ≤ 64 ∧ State.reset.bad (Key.hbm (2 ^ 40 - 64)) 64 = false
    ∧ (3 ∉ [1, 2, 4, 8, 16, 32, 64]) ∧ (0x5004 : Word).toNat % 32 ∈ List.range' 4 13 ∧ (0x5004 : Word).toNat / 2 ^ 40 % 4096 = 0
    ∧ (0x5003 : Word).toNat % 32 ∉ List.range' 4 13 := by decide +kernel
theorem witness_HostFault : ∃ k, ({ parkedState with parked := [⟨3, 8, 0x4000, flight0, true, false⟩] } : State).parked = [k] ∧ k.recorded = true
    ∧ k.num = (8 : BitVec 32).toNat ∧ (parkedState.xfers.find? (·.id == k.flight.xfer)).isSome = true :=
  ⟨_, rfl, rfl, rfl, by decide +kernel⟩
theorem witness_HostStuck : ({ xfer0 with stuck := some ⟨16, 16, 2 ^ 40, some 8⟩ } : Xfer).stuck.any (fun k => k.num == some (8 : BitVec 32).toNat) = true := by decide +kernel
/-- A management request outside its phase, and one in it. -/
theorem witness_Requests : isRequest (.ptrootWrite 0) = true ∧ State.reset.inManagement = false
    ∧ ({ State.reset with requests := [.ptrootWrite 0], frames := 1, cycle := 1900 } : State).requestDue = true := by decide +kernel
theorem witness_TopologySwap : ({ State.reset with stg := 1, swp := true } : State).stg = State.reset.cur + 1 := by decide

end Sys2Proof.Tests
end

section
/-! SUPPORT. The scalar unit's integer results (R122 to R126): what `scalarInt` gives for each operation, and how a
scalar trigger whose operands are delivered pushes it. -/

namespace Sys2Proof.Machine

/-! ### Fields and truths -/

/-- A field that starts at bit 0 is the number modulo a power of two (R16). -/
@[simp] theorem fld_zero {n : Nat} (w : BitVec n) (len : Nat) : fld w 0 len = w.toNat % 2 ^ len := by
  simp [fld, BitVec.extractLsb'_toNat]

/-- A truth is 1 when it holds and 0 when it does not (R126). -/
theorem truth_of_iff {q : Bool} {p : Prop} (h : q = true ↔ p) : (p → truth q = 1) ∧ (¬p → truth q = 0) := by
  cases q <;> simp_all [truth]

/-! ### Counts of bits (R123) -/

/-- CLZ's count: a number has no bit above its first one, and its first one stands below the zeros counted. -/
theorem leadingZeros_spec {n x : Nat} (h : x < 2 ^ n) : leadingZeros n x ≤ n ∧ x < 2 ^ (n - leadingZeros n x)
    ∧ (leadingZeros n x < n → 2 ^ (n - 1 - leadingZeros n x) ≤ x) := by
  unfold leadingZeros
  split
  · subst x; simp
  · next hx =>
    have hlog : x.log2 < n := (Nat.log2_lt hx).2 h
    have hout : n - (n - 1 - x.log2) = x.log2 + 1 := by omega
    have hin : n - 1 - (n - 1 - x.log2) = x.log2 := by omega
    rw [hout, hin]
    exact ⟨by omega, Nat.lt_log2_self, fun _ => Nat.log2_self_le hx⟩

/-- CTZ's count is at most the width, every bit below it is zero, and the bit at it is one where there is such a bit. -/
theorem trailingZeros_spec (n : Nat) : ∀ x, trailingZeros n x ≤ n ∧ (∀ i < trailingZeros n x, x.testBit i = false)
    ∧ (trailingZeros n x < n → x.testBit (trailingZeros n x) = true) := by
  induction n with
  | zero => simp [trailingZeros]
  | succ n ih =>
    intro x
    obtain ⟨hle, hzero, hone⟩ := ih (x / 2)
    unfold trailingZeros
    split
    · next hodd => simp [hodd]
    · next heven =>
      rw [Nat.add_comm 1]
      refine ⟨by omega, fun i hi => ?_, fun hlt => ?_⟩
      · cases i with
        | zero => simpa using heven
        | succ i => rw [Nat.testBit_add_one]; exact hzero i (by omega)
      · rw [Nat.testBit_add_one]; exact hone (by omega)

/-- POPC's count is that of the places that hold a one. -/
theorem onesCount_eq_length_filter (n : Nat) :
    ∀ x, onesCount n x = ((List.range n).filter fun i => x.testBit i).length := by
  induction n with
  | zero => intro x; rfl
  | succ n ih =>
    intro x
    have hshift : ((List.range n).filter (x.testBit ∘ Nat.succ)) = (List.range n).filter fun i => (x / 2).testBit i :=
      List.filter_congr fun i _ => Nat.testBit_add_one x i
    rw [onesCount, ih, List.range_succ_eq_map, List.filter_cons, List.filter_map, hshift]
    rcases Nat.mod_two_eq_zero_or_one x with h | h <;> simp [h, Nat.add_comm]

/-- The number of ones of `n` bits is at most `n`. -/
theorem onesCount_le (n x : Nat) : onesCount n x ≤ n := by
  rw [onesCount_eq_length_filter]
  simpa using List.length_filter_le (fun i => x.testBit i) (List.range n)

/-! ### Extensions and fields (R123, R125) -/

/-- SEXT repeats bit n in every bit above it. -/
theorem extendLow_signed_getLsbD (a b : Word) {i : Nat} (hi : i < 64) :
    (extendLow true a b).getLsbD i = a.getLsbD (min i (b.toNat % 64)) := by
  have hext : extendLow true a b = (a.setWidth (b.toNat % 64 + 1)).signExtend 64 := by
    simp [extendLow, sintN, BitVec.signExtend, BitVec.ofNat_toNat]
  rw [hext, BitVec.getLsbD_signExtend, BitVec.msb_setWidth]
  by_cases h : i ≤ b.toNat % 64
  · simp [hi, h, Nat.lt_succ_of_le h]
  · simp [hi, show ¬i < b.toNat % 64 + 1 by omega, Nat.min_eq_right (Nat.le_of_not_le h)]

/-- ZEXT keeps bits n to 0 and clears those above. -/
theorem extendLow_unsigned_getLsbD (a b : Word) {i : Nat} (hi : i < 64) :
    (extendLow false a b).getLsbD i = (decide (i ≤ b.toNat % 64) && a.getLsbD i) := by
  simp only [extendLow, fld_zero, Bool.false_eq_true, if_false, BitVec.getLsbD_ofNat, Nat.testBit_mod_two_pow, hi,
    decide_true, Bool.true_and, Nat.lt_succ_iff, BitVec.testBit_toNat, Nat.reducePow]

/-- The mask of a field has its ones below the width, at most 64. -/
theorem fieldMask_getLsbD (c : Word) (i : Nat) : (fieldMask c).getLsbD i = decide (i < min (c.toNat % 128) 64) := by
  rw [fieldMask, BitVec.getLsbD_ofNat, Nat.testBit_two_pow_sub_one, fld_zero]
  by_cases h : i < 64 <;> simp [h]

/-- BFX reads the field at its position and zeros beyond its width. -/
theorem bitExtract_getLsbD (a b c : Word) (i : Nat) : (bitExtract a b c).getLsbD i
    = (decide (i < min (c.toNat % 128) 64) && a.getLsbD (b.toNat % 64 + i)) := by
  simp only [bitExtract, BitVec.getLsbD_and, BitVec.getLsbD_ushiftRight, fieldMask_getLsbD, fld_zero, Nat.reducePow,
    Bool.and_comm]

/-- BFI takes A's low bits inside the field and D's bits outside it. -/
theorem bitInsert_getLsbD (a b c d : Word) {i : Nat} (hi : i < 64) : (bitInsert a b c d).getLsbD i
    = if b.toNat % 64 ≤ i ∧ i < b.toNat % 64 + min (c.toNat % 128) 64 then a.getLsbD (i - b.toNat % 64)
      else d.getLsbD i := by
  simp only [bitInsert, BitVec.getLsbD_or, BitVec.getLsbD_and, BitVec.getLsbD_not, BitVec.getLsbD_shiftLeft,
    fieldMask_getLsbD, fld_zero, Nat.reducePow, hi]
  by_cases hp : i < b.toNat % 64
  · simp [hp, Nat.not_le.2 hp]
  · by_cases hw : i < b.toNat % 64 + min (c.toNat % 128) 64
    · simp [hp, Nat.le_of_not_lt hp, hw, show i - b.toNat % 64 < min (c.toNat % 128) 64 by omega]
    · simp [hp, hw, show ¬i - b.toNat % 64 < min (c.toNat % 128) 64 by omega]

/-! ### Products and quotients (R123, R124) -/

/-- The high half of a signed product is a word's signed value. -/
theorem mulh_toInt (a b : Word) : (BitVec.ofInt 64 (a.toInt * b.toInt / 2 ^ 64)).toInt = a.toInt * b.toInt / 2 ^ 64 := by
  have hl : -2 ^ 126 ≤ a.toInt * b.toInt := BitVec.le_toInt_mul_toInt
  have hu : a.toInt * b.toInt ≤ 2 ^ 126 := BitVec.toInt_mul_toInt_le
  exact BitVec.toInt_ofInt_eq_self (by decide) (by omega) (by omega)

/-- The high half of an unsigned product is a word's value. -/
theorem mulhu_toNat (a b : Word) : (BitVec.ofNat 64 (a.toNat * b.toNat / 2 ^ 64)).toNat = a.toNat * b.toNat / 2 ^ 64 := by
  rw [BitVec.toNat_ofNat]
  exact Nat.mod_eq_of_lt (Nat.div_lt_of_lt_mul (Nat.mul_lt_mul'' a.isLt b.isLt))

/-- A word is all ones when its signed value is −1. -/
theorem eq_allOnes_iff_toInt (b : Word) : b = BitVec.allOnes 64 ↔ b.toInt = -1 := by
  rw [← BitVec.toInt_inj]; rfl

/-- DIV and REM by zero. -/
theorem divSigned_zero (a : Word) : divSigned a 0 = (BitVec.allOnes 64, a) := rfl

/-- DIV and REM where the quotient is no word. -/
theorem divSigned_overflow {b : Word} (hb : b.toInt = -1) : divSigned 0x8000000000000000 b = (0x8000000000000000, 0) := by
  rw [(eq_allOnes_iff_toInt b).2 hb]; rfl

/-- DIV and REM elsewhere give the quotient truncated toward zero and what it leaves. -/
theorem divSigned_toInt {a b : Word} (hb : b ≠ 0) (h : ¬(a = 0x8000000000000000 ∧ b.toInt = -1)) :
    (divSigned a b).1.toInt = a.toInt.tdiv b.toInt
      ∧ (divSigned a b).2.toInt = a.toInt - b.toInt * a.toInt.tdiv b.toInt := by
  have hfits : a ≠ BitVec.intMin 64 ∨ b ≠ -1#64 := by
    rw [← eq_allOnes_iff_toInt] at h
    exact not_and_or.1 h
  have hdiv : divSigned a b = (a.sdiv b, a.srem b) := by
    simp only [divSigned, hb, eq_allOnes_iff_toInt, h, if_false, ← BitVec.toInt_sdiv_of_ne_or_ne a b hfits,
      ← BitVec.toInt_srem, BitVec.ofInt_toInt]
  rw [hdiv, ← Int.tmod_def]
  exact ⟨BitVec.toInt_sdiv_of_ne_or_ne a b hfits, BitVec.toInt_srem a b⟩

/-- DIVU and REMU by zero. -/
theorem divUnsigned_zero (a : Word) : divUnsigned a 0 = (BitVec.allOnes 64, a) := rfl

/-- DIVU and REMU elsewhere give the quotient and what it leaves. -/
theorem divUnsigned_toNat {a b : Word} (hb : b ≠ 0) : (divUnsigned a b).1.toNat = a.toNat / b.toNat
    ∧ (divUnsigned a b).2.toNat = a.toNat - b.toNat * (a.toNat / b.toNat) := by
  rw [divUnsigned, if_neg hb, ← Nat.mod_def]
  exact ⟨BitVec.toNat_udiv, BitVec.toNat_umod⟩

/-! ### The rules hold of every result -/

/-- R123: the results of the integer table. -/
theorem integerRule_scalarInt (o : ScalarOp) (a b c d : Word) : IntegerRule o a b c (scalarInt o a b c d) := by
  cases o with
  | add => exact BitVec.toNat_add a b
  | sub =>
    show ((a - b).toNat + b.toNat) % 2 ^ 64 = a.toNat
    rw [← BitVec.toNat_add, BitVec.sub_add_cancel]
  | and => intro i; exact BitVec.getLsbD_and
  | or => intro i; exact BitVec.getLsbD_or
  | xor => intro i; exact BitVec.getLsbD_xor
  | andn =>
    intro i
    by_cases hi : i < 64
    · simp [scalarInt, hi]
    · simp [scalarInt, BitVec.getLsbD_of_ge _ _ (Nat.le_of_not_lt hi)]
  | shl => simp [IntegerRule, scalarInt, BitVec.toNat_shiftLeft, Nat.shiftLeft_eq]
  | shr => simp [IntegerRule, scalarInt, BitVec.toNat_ushiftRight, Nat.shiftRight_eq_div_pow]
  | sar => simp [IntegerRule, scalarInt, BitVec.toInt_sshiftRight, Int.shiftRight_eq_div_pow]
  | mul => exact BitVec.toNat_mul a b
  | mulh => exact mulh_toInt a b
  | mulhu => exact mulhu_toNat a b
  | min =>
    simp only [IntegerRule, scalarInt, BitVec.slt_iff_toInt_lt]
    split <;> omega
  | minu =>
    simp only [IntegerRule, scalarInt, BitVec.ult_iff_toNat_lt]
    split <;> omega
  | max =>
    simp only [IntegerRule, scalarInt, BitVec.slt_iff_toInt_lt]
    split <;> omega
  | maxu =>
    simp only [IntegerRule, scalarInt, BitVec.ult_iff_toNat_lt]
    split <;> omega
  | clz =>
    have h := leadingZeros_spec a.isLt
    have hr : (scalarInt .clz a b c d).toNat = leadingZeros 64 a.toNat := by
      simp only [scalarInt, BitVec.toNat_ofNat]; omega
    rw [IntegerRule, hr]
    exact h
  | ctz =>
    obtain ⟨hle, hzero, hone⟩ := trailingZeros_spec 64 a.toNat
    have hr : (scalarInt .ctz a b c d).toNat = trailingZeros 64 a.toNat := by
      simp only [scalarInt, BitVec.toNat_ofNat]; omega
    simp only [IntegerRule, hr, ← BitVec.testBit_toNat]
    split
    · next h0 => subst h0; rfl
    · next h0 =>
      refine ⟨hone (lt_of_le_of_ne hle fun h64 => h0 (BitVec.eq_of_getLsbD_eq fun i hi => ?_)), hzero⟩
      exact ((BitVec.testBit_toNat a).symm.trans (hzero i (h64.symm ▸ hi))).trans BitVec.getLsbD_zero.symm
  | popc =>
    have hle := onesCount_le 64 a.toNat
    have hr : (scalarInt .popc a b c d).toNat = onesCount 64 a.toNat := by
      simp only [scalarInt, BitVec.toNat_ofNat]; omega
    rw [IntegerRule, hr, onesCount_eq_length_filter]
    rfl
  | sext => intro i hi; exact extendLow_signed_getLsbD a b hi
  | zext => intro i hi; exact extendLow_unsigned_getLsbD a b hi
  | lea => simp [IntegerRule, scalarInt, BitVec.toNat_shiftLeft, Nat.shiftLeft_eq]
  | _ => exact trivial

/-- R124: quotients and remainders. -/
theorem divisionRule_scalarInt (o : ScalarOp) (a b c d : Word) : DivisionRule o a b (scalarInt o a b c d) := by
  cases o with
  | div =>
    simp only [DivisionRule, scalarInt]
    split_ifs with hb hmin
    · rw [hb, divSigned_zero]; rfl
    · rw [hmin.1, divSigned_overflow hmin.2]
    · exact (divSigned_toInt hb hmin).1
  | rem =>
    simp only [DivisionRule, scalarInt]
    split_ifs with hb hmin
    · rw [hb, divSigned_zero]
    · rw [hmin.1, divSigned_overflow hmin.2]
    · exact (divSigned_toInt hb hmin).2
  | divu =>
    simp only [DivisionRule, scalarInt]
    split_ifs with hb
    · rw [hb, divUnsigned_zero]; rfl
    · exact (divUnsigned_toNat hb).1
  | remu =>
    simp only [DivisionRule, scalarInt]
    split_ifs with hb
    · rw [hb, divUnsigned_zero]
    · exact (divUnsigned_toNat hb).2
  | _ => exact trivial

/-- R125: bit fields. -/
theorem fieldRule_scalarInt (o : ScalarOp) (a b c d : Word) : FieldRule o a b c d (scalarInt o a b c d) := by
  cases o with
  | bfx => intro i _; exact bitExtract_getLsbD a b c i
  | bfi => intro i hi; exact bitInsert_getLsbD a b c d hi
  | _ => exact trivial

/-- R126: integer compares. -/
theorem compareRule_scalarInt {o : ScalarOp} (ho : o ∈ [ScalarOp.cmpeq, .cmpne, .cmplt, .cmple, .cmpltu, .cmpleu])
    (a b c d : Word) : (CompareRule o a b → scalarInt o a b c d = 1) ∧ (¬CompareRule o a b → scalarInt o a b c d = 0) := by
  fin_cases ho
  · exact truth_of_iff (beq_iff_eq.trans BitVec.toNat_inj.symm)
  · exact truth_of_iff (bne_iff_ne.trans BitVec.toNat_ne_iff_ne.symm)
  · exact truth_of_iff BitVec.slt_iff_toInt_lt
  · exact truth_of_iff BitVec.sle_iff_toInt_le
  · exact truth_of_iff BitVec.ult_iff_toNat_lt
  · exact truth_of_iff BitVec.ule_iff_toNat_le

/-! ### A scalar trigger runs (R122) -/

/-- The integer operations and compares of the scalar unit (R123 to R126). -/
def integerOps : List ScalarOp :=
  [.add, .sub, .and, .or, .xor, .andn, .shl, .shr, .sar, .mul, .mulh, .mulhu, .div, .divu, .rem, .remu, .min,
    .minu, .max, .maxu, .clz, .ctz, .popc, .sext, .zext, .lea, .bfx, .bfi, .cmpeq, .cmpne, .cmplt, .cmple, .cmpltu, .cmpleu]

/-- An integer operation pushes an i64 and no flag, whatever RM is. -/
theorem scalarCompute_integer {o : ScalarOp} (ho : o ∈ integerOps) (rm : BitVec 2) (a b c d : Word) :
    scalarCompute o rm a b c d = ⟨9, (scalarInt o a b c d).setWidth 2048, 0⟩ := by
  unfold integerOps at ho
  fin_cases ho <;> rfl

/-- The latencies of the integer operations: multiplication, division and the rest. -/
theorem scalarLatency_integer : ∀ o ∈ integerOps, scalarLatency o =
    if o ∈ [ScalarOp.mul, .mulh, .mulhu] then 3 else if o ∈ [ScalarOp.div, .divu, .rem, .remu] then 18 else 1 := by
  decide

/-- Every scalar computation's instruction runs the operation that it names. -/
theorem exec_scalarInstr (o : ScalarOp) (h : Slot) (a : Src) (s : State) :
    exec (scalarInstr h a o) s = scalarOp o h a s := by
  cases o <;> rfl

/-- An operand that has come is what a check of it sees. -/
theorem Frame.guess_value (f : Frame) {x : HeldArg} (h : x.waits = false) : (f.guess x).value = x.value := by
  cases x with
  | val v => rfl
  | column _ _ => cases h
  | element _ _ => cases h

/-- A scalar computation whose operands have come, with no FPSET held before it, pushes what it computes and changes
nothing else. -/
theorem pureRun_scalar {o : ScalarOp} {f : Frame} {x : Args} (hw : x.wait = false) (hf : f.c.fpsetWaits = false) :
    pureRun (.scalar o) f x = .ok (f, .result (scalarLatency o) (scalarCompute o (fpstRm f.t.snap.ctx.fpst)
      x.a.value.low x.b.value.low x.c.value.low x.d.value.low)) := by
  simp only [Args.wait, Bool.or_eq_false_iff] at hw
  obtain ⟨⟨⟨ha, hb⟩, hc⟩, hd⟩ := hw
  simp [pureRun, pureRandoms, pureCompute, pureLatency, Frame.guessArgs, Frame.guess_value, Args.wait, Effect.result,
    hf, ha, hb, hc, hd]

/-- A scalar computation whose slot runs and whose operands are delivered, with no FPSET held before it, leaves what it
computes in flight. -/
theorem exec_scalarInstr_of_takes {o : ScalarOp} {h : Slot} {a : Src} {s : State} {f : Frame} {x : Args} {k : Fetch}
    {held : Bool} (hr : s.Runs h f) (ht : f.Takes (pureTrig (.scalar o) .sc a) x k held) (hw : x.wait = false)
    (hf : f.c.fpsetWaits = false) :
    exec (scalarInstr h a o) s = .next (k.after h (pureTrig (.scalar o) .sc a) x held
      (.result (scalarLatency o) (scalarCompute o (fpstRm (k.ready .sc).t.snap.ctx.fpst)
        x.a.value.low x.b.value.low x.c.value.low x.d.value.low))) := by
  have ⟨hgather, _, _, hlate, _⟩ := ht
  have hready : (k.ready .sc).c.fpsetWaits = false := by
    rw [← hf]
    exact congrArg (List.any · Held.isFpset) (Frame.gather_delivered hgather).held
  have hrun := pureRun_scalar (o := o) hw hready
  rw [exec_scalarInstr]
  exact runSlot_of_ok hr (trigger_of_takes hr.again ht hrun hlate)

end Sys2Proof.Machine
end

section
/-! PROOF. The scalar unit's integer operations and compares (R122 to R126). -/

namespace Sys2Proof.Machine

/-- Settles O14: the trigger leaves `scalarInt` of its operands in flight, and the tables' rules hold of it. -/
theorem integerResults : Obligations.IntegerResults := by
  intro o h a s f x k held ho hr ht hw hf
  refine ⟨scalarInt o x.a.value.low x.b.value.low x.c.value.low x.d.value.low, ?_, integerRule_scalarInt _ _ _ _ _,
    divisionRule_scalarInt _ _ _ _ _, fieldRule_scalarInt _ _ _ _ _, fun hc => compareRule_scalarInt hc _ _ _ _⟩
  rw [exec_scalarInstr_of_takes hr ht hw hf, scalarCompute_integer ho, scalarLatency_integer o ho]

end Sys2Proof.Machine
end

section
/-! SUPPORT. The vector unit: how a vector trigger whose operands are delivered pushes its result (R161), and the lanes
and flags of a result made lane by lane (R159, R163). -/

namespace Sys2Proof.Machine

/-! ### A vector trigger runs (R161) -/

/-- Every vector computation's instruction runs the operation that it names. -/
theorem exec_vectorInstr (o : VecOp) (h : Slot) (a : Src) (s : State) :
    exec (vectorInstr h a o) s = vectorOp o h a s := by
  cases o with
  | fp o e => cases o <;> rfl
  | int o w => cases o <;> rfl
  | cvt o t => cases o <;> rfl
  | _ => rfl

/-- A vector computation that takes no random bits and whose operands have come, with no FPSET held before it, pushes
what it computes and changes nothing else. -/
theorem pureRun_vector {o : VecOp} {f : Frame} {x : Args} {p : Push} (hw : x.wait = false) (hf : f.c.fpsetWaits = false)
    (hn : pureRandoms (.vector o) f x = 0) (hp : vectorCompute o (fpstRm f.t.snap.ctx.fpst) (fpstLfsr f.c.fpst)
      x.a.value x.b.value x.c.value x.d.value = .ok p) :
    pureRun (.vector o) f x = .ok (f, .result (vectorLatency o) p) := by
  have hwait := hw
  simp only [Args.wait, Bool.or_eq_false_iff] at hw
  obtain ⟨⟨⟨ha, hb⟩, hc⟩, hd⟩ := hw
  simp [pureRun, hf, hn, hwait, pureCompute, pureLatency, Frame.guessArgs, Frame.guess_value, ha, hb, hc, hd, hp,
    Effect.result]

/-- A vector computation that takes no random bits, whose slot runs and whose operands are delivered, with no FPSET held
before it, leaves what it computes in flight. -/
theorem exec_vectorInstr_of_takes {o : VecOp} {h : Slot} {a : Src} {s : State} {f : Frame} {x : Args} {k : Fetch}
    {held : Bool} {p : Push} (hr : s.Runs h f) (ht : f.Takes (pureTrig (.vector o) f.unit a) x k held)
    (hw : x.wait = false) (hf : f.c.fpsetWaits = false) (hn : ∀ g, pureRandoms (.vector o) g x = 0)
    (hp : ∀ lfsr, vectorCompute o (fpstRm f.t.snap.ctx.fpst) lfsr x.a.value x.b.value x.c.value x.d.value = .ok p) :
    exec (vectorInstr h a o) s = .next (k.after h (pureTrig (.vector o) f.unit a) x held
      (.result (vectorLatency o) p)) := by
  have ⟨hgather, _, _, hlate, _⟩ := ht
  have hdel := Frame.gather_delivered hgather
  have hready : (k.ready f.unit).c.fpsetWaits = false := by
    rw [← hf]
    exact congrArg (List.any · Held.isFpset) hdel.held
  have hsnap : (k.ready f.unit).t.snap = f.t.snap := hdel.snap
  have hrun := pureRun_vector hw hready (hn _) (by rw [hsnap]; exact hp _)
  rw [exec_vectorInstr]
  exact runSlot_of_ok hr (trigger_of_takes hr.again ht hrun hlate)

/-! ### Results made lane by lane (R159, R163) -/

/-- Two vectors' lanes side by side are their lanes at each place. -/
theorem lanes_zip_lanes (w : Nat) (u v : Vec) : (lanes w u).zip (lanes w v)
    = (List.range (2048 / w)).map fun i => ((lane w u i).toNat, (lane w v i).toNat) :=
  List.zip_map' ..

/-- A list of lanes put together, read at one of its places. -/
theorem foldr_lanes_div_mod (w : Nat) : ∀ (l : List Nat) (i : Nat),
    l.foldr (fun x acc => x % 2 ^ w + acc * 2 ^ w) 0 / 2 ^ (w * i) % 2 ^ w = l.getD i 0 % 2 ^ w
  | [], i => by simp
  | x :: l, 0 => by simp
  | x :: l, i + 1 => by
    have hx : x % 2 ^ w < 2 ^ w := Nat.mod_lt _ (Nat.two_pow_pos w)
    rw [List.foldr_cons, List.getD_cons_succ, ← foldr_lanes_div_mod w l i, Nat.mul_succ, Nat.add_comm (w * i), pow_add,
      ← Nat.div_div_eq_div_mul, Nat.add_mul_div_right _ _ (Nat.two_pow_pos w), Nat.div_eq_of_lt hx, Nat.zero_add]

/-- A lane of a number of 2048 bits is that of the number itself. -/
theorem lane_ofNat {w i : Nat} (x : Nat) (hi : i < 2048 / w) :
    lane w (BitVec.ofNat 2048 x) i = BitVec.ofNat w (x / 2 ^ (w * i)) := by
  have hend : w * (i + 1) ≤ 2048 := (Nat.mul_le_mul_left w hi).trans (Nat.mul_div_le 2048 w)
  refine BitVec.eq_of_getLsbD_eq fun j hj => ?_
  have hplace : j + w * i < 2048 := by rw [Nat.mul_succ] at hend; omega
  rw [lane, BitVec.getLsbD_extractLsb', BitVec.getLsbD_ofNat, BitVec.getLsbD_ofNat, Nat.testBit_div_two_pow]
  simp only [hj, hplace, Nat.add_comm (w * i), decide_true, Bool.true_and]

/-- A lane of a result is what was computed for it. -/
theorem lane_gatherLanes {w i : Nat} (r : Nat → Nat × Flags) (hi : i < 2048 / w) :
    lane w (gatherLanes w ((List.range (2048 / w)).map r)).1 i = BitVec.ofNat w (r i).1 := by
  apply BitVec.eq_of_toNat_eq
  rw [gatherLanes, ofLanes, lane_ofNat _ hi, BitVec.toNat_ofNat, foldr_lanes_div_mod, BitVec.toNat_ofNat]
  simp [List.getD, hi]

/-- Flags that are one set or none, ORed: one or none, and one where one of them is. -/
theorem foldl_or_flags {c : Flags} : ∀ (l : List (Nat × Flags)) (fl : Flags), (fl = 0 ∨ fl = c) →
    (∀ r ∈ l, r.2 = 0 ∨ r.2 = c) →
    (l.foldl (fun fl r => fl ||| r.2) fl = 0 ∨ l.foldl (fun fl r => fl ||| r.2) fl = c)
      ∧ (l.foldl (fun fl r => fl ||| r.2) fl = c ↔ fl = c ∨ ∃ r ∈ l, r.2 = c)
  | [], fl, hfl, _ => by simpa using hfl
  | r :: l, fl, hfl, hl => by
    have hr := hl r (List.mem_cons_self ..)
    have hor : (fl ||| r.2 = 0 ∨ fl ||| r.2 = c) ∧ (fl ||| r.2 = c ↔ fl = c ∨ r.2 = c) := by
      rcases hfl with h | h <;> rcases hr with h' | h' <;> simp [h, h']
    have ih := foldl_or_flags l (fl ||| r.2) hor.1 fun q hq => hl q (List.mem_cons_of_mem r hq)
    rw [List.foldl_cons, List.exists_mem_cons_iff, ← or_assoc, ← hor.2]
    exact ih

/-- The flags of a result whose lanes raise one set of flags or none. -/
theorem gatherLanes_flags {w : Nat} {r : Nat → Nat × Flags} {c : Flags} (hc : c ≠ 0)
    (h : ∀ i, (r i).2 = 0 ∨ (r i).2 = c) :
    let fl := (gatherLanes w ((List.range (2048 / w)).map r)).2
    (fl = 0 ∨ fl = c) ∧ (fl = c ↔ ∃ i, i < 2048 / w ∧ (r i).2 = c) := by
  have h0 : 0#6 ≠ c := Ne.symm hc
  have hfold := foldl_or_flags ((List.range (2048 / w)).map r) 0 (.inl rfl) (by simpa using fun i _ => h i)
  simpa [gatherLanes, h0] using hfold

end Sys2Proof.Machine
end

section
/-! PROOF. The vector unit's integer operations (R161, R165, R166). -/

namespace Sys2Proof.Machine

/-! ### Saturation (R166) -/

/-- Clipping to a range gives the nearest number of it. -/
theorem clip_fst {lo hi : Int} (h : lo ≤ hi) (x : Int) : (clip lo hi x).1 = max lo (min hi x) := by
  unfold clip
  split_ifs <;> simp only <;> omega

/-- Clipping is noted where the number is outside the range. -/
theorem clip_snd (lo hi x : Int) : (clip lo hi x).2 = true ↔ x < lo ∨ hi < x := by
  unfold clip
  split_ifs <;> simp [*]

/-- A saturating operation on signed lanes. -/
theorem saturate_signed {w : Nat} (hw : 0 < w) (x : Int) : (BitVec.ofNat w (saturate w true x).1).toInt
    = max (-2 ^ (w - 1)) (min (2 ^ (w - 1) - 1) x) := by
  have hpos : (0 : Int) < 2 ^ (w - 1) := by positivity
  rw [saturate, BitVec.ofNat_toNat, BitVec.setWidth_eq, if_pos rfl, clip_fst (by omega)]
  exact BitVec.toInt_ofInt_eq_self hw (by omega) (by omega)

/-- A saturating operation on unsigned lanes. -/
theorem saturate_unsigned {w : Nat} (x : Int) : ((BitVec.ofNat w (saturate w false x).1).toNat : Int)
    = max 0 (min (2 ^ w - 1) x) := by
  have hpos : (0 : Int) < 2 ^ w := by positivity
  rw [saturate, BitVec.ofNat_toNat, BitVec.setWidth_eq, BitVec.toNat_ofInt, if_neg Bool.false_ne_true,
    clip_fst (by omega)]
  push_cast
  rw [Int.emod_eq_of_lt] <;> omega

/-- SAT is raised where its condition holds. -/
theorem flagIf_eq_sat {b : Bool} : flagIf b flagSAT = flagSAT ↔ b = true := by
  cases b <;> decide

/-- A saturating operation raises SAT where its exact result is outside the lane's range. -/
theorem saturate_flags (w : Nat) (signed : Bool) (x : Int) : (saturate w signed x).2 = flagSAT ↔
    if signed then x < -2 ^ (w - 1) ∨ 2 ^ (w - 1) - 1 < x else x < 0 ∨ 2 ^ w - 1 < x := by
  cases signed with
  | false => exact flagIf_eq_sat.trans (clip_snd ..)
  | true => exact flagIf_eq_sat.trans (clip_snd ..)

/-- A saturating operation raises SAT or nothing. -/
theorem saturate_flags_or (w : Nat) (signed : Bool) (x : Int) :
    (saturate w signed x).2 = 0 ∨ (saturate w signed x).2 = flagSAT :=
  (ite_eq_or_eq ..).symm

/-! ### The lanes of the table (R165) -/

/-- A lane's bits, read as the signed number of its width, are its signed value (R20). -/
@[simp] theorem sintN_toNat {w : Nat} (x : BitVec w) : sintN w x.toNat = x.toInt := by
  rw [sintN, BitVec.ofNat_toNat, BitVec.setWidth_eq]

/-- The high half of a signed product fits a lane. -/
theorem mulh_lane_toInt {w : Nat} (hw : 0 < w) (x y : BitVec w) :
    (BitVec.ofInt w (x.toInt * y.toInt / 2 ^ w)).toInt = x.toInt * y.toInt / 2 ^ w := by
  obtain ⟨n, rfl⟩ : ∃ n, w = n + 1 := ⟨w - 1, by omega⟩
  have hl := BitVec.le_toInt_mul_toInt (x := x) (y := y)
  have hu := BitVec.toInt_mul_toInt_le (x := x) (y := y)
  have hpos : (0 : Int) < 2 ^ (n + 1) := by positivity
  have hhalf : (2 : Int) ^ ((n + 1) * 2 - 2) * 2 = 2 ^ n * 2 ^ (n + 1) := by
    rw [← pow_succ, ← pow_add]; congr 1; omega
  have hsq : (0 : Int) < 2 ^ ((n + 1) * 2 - 2) := by positivity
  refine BitVec.toInt_ofInt_eq_self hw ((Int.le_ediv_iff_mul_le hpos).2 ?_) (Int.ediv_lt_of_lt_mul hpos ?_)
  · rw [Nat.add_sub_cancel, Int.neg_mul]; omega
  · rw [Nat.add_sub_cancel]; omega

/-- A lane of ones or zeros. -/
theorem ofNat_ones_ite {w : Nat} (p : Prop) [Decidable p] :
    BitVec.ofNat w (if p then 2 ^ w - 1 else 0) = if p then BitVec.allOnes w else 0 := by
  split
  · exact BitVec.eq_of_toNat_eq (by simp)
  · rfl

/-- The arithmetic shift of a lane. -/
theorem ofInt_div_two_pow {w : Nat} (x : BitVec w) (n : Nat) : BitVec.ofInt w (x.toInt / 2 ^ n) = x.sshiftRight n := by
  rw [← BitVec.ofInt_toInt (x := x.sshiftRight n), BitVec.toInt_sshiftRight, Int.shiftRight_eq_div_pow]
  push_cast
  rfl

/-- The magnitude of a lane, −2^(w−1) being its own. -/
theorem ofInt_natAbs {w : Nat} (x : BitVec w) :
    BitVec.ofInt w x.toInt.natAbs = if x.toInt < 0 then -x else x := by
  split
  · next h => rw [Int.ofNat_natAbs_of_nonpos h.le, BitVec.ofInt_neg, BitVec.ofInt_toInt]
  · next h => rw [Int.natAbs_of_nonneg (by omega), BitVec.ofInt_toInt]

/-- R165, R166: a lane's result is the table's. -/
theorem laneRule_intElem (o : IntOp) {w : Nat} (hw : 0 < w) (x y : BitVec w) :
    LaneRule o x y (BitVec.ofNat w (intElem o w x.toNat y.toNat).1) := by
  have hx := x.isLt
  have hy := y.isLt
  have hm : ((2 ^ w : Nat) : Int) = 2 ^ w := Nat.cast_pow 2 w
  cases o with
  | add => apply BitVec.eq_of_toNat_eq; simp [intElem]
  | sub =>
    apply BitVec.eq_of_toNat_eq
    simp only [intElem, BitVec.toNat_sub, BitVec.toNat_ofNat, Nat.mod_mod]
    congr 1
    omega
  | adds => simpa [LaneRule, intElem] using saturate_signed hw _
  | addsu =>
    simp only [LaneRule, intElem, saturate_unsigned]
    omega
  | subs => simpa [LaneRule, intElem] using saturate_signed hw _
  | subsu =>
    simp only [LaneRule, intElem, saturate_unsigned]
    omega
  | mul => apply BitVec.eq_of_toNat_eq; simp [intElem]
  | mulh =>
    simp only [LaneRule, intElem, sintN_toNat, BitVec.ofNat_toNat, BitVec.setWidth_eq, hm]
    exact mulh_lane_toInt hw x y
  | mulhu =>
    rw [LaneRule, BitVec.toNat_ofNat]
    exact Nat.mod_eq_of_lt (Nat.div_lt_of_lt_mul (Nat.mul_lt_mul'' hx hy))
  | min =>
    simp only [LaneRule, intElem, sintN_toNat]
    split <;> rw [BitVec.ofNat_toNat, BitVec.setWidth_eq] <;> omega
  | minu =>
    simp only [LaneRule, intElem]
    split <;> rw [BitVec.ofNat_toNat, BitVec.setWidth_eq] <;> omega
  | max =>
    simp only [LaneRule, intElem, sintN_toNat]
    split <;> rw [BitVec.ofNat_toNat, BitVec.setWidth_eq] <;> omega
  | maxu =>
    simp only [LaneRule, intElem]
    split <;> rw [BitVec.ofNat_toNat, BitVec.setWidth_eq] <;> omega
  | and => apply BitVec.eq_of_toNat_eq; simp [intElem]
  | or => apply BitVec.eq_of_toNat_eq; simp [intElem]
  | xor => apply BitVec.eq_of_toNat_eq; simp [intElem]
  | andn => simp [LaneRule, intElem, ← BitVec.toNat_not, ← BitVec.toNat_and]
  | shl => apply BitVec.eq_of_toNat_eq; simp [intElem, Nat.shiftLeft_eq]
  | shr => simp [LaneRule, intElem, ← Nat.shiftRight_eq_div_pow, ← BitVec.toNat_ushiftRight]
  | sar => simp only [LaneRule, intElem, sintN_toNat, BitVec.ofNat_toNat, BitVec.setWidth_eq, ofInt_div_two_pow]
  | cmpeq => simp only [LaneRule, intElem, ofNat_ones_ite, BitVec.toNat_inj]
  | cmplt => simp only [LaneRule, intElem, ofNat_ones_ite, sintN_toNat]
  | cmpltu => exact ofNat_ones_ite _
  | abs => simp only [LaneRule, intElem, sintN_toNat, BitVec.ofNat_toNat, BitVec.setWidth_eq, ofInt_natAbs]
  | popc =>
    have hr := Nat.mod_eq_of_lt ((onesCount_le w x.toNat).trans_lt Nat.lt_two_pow_self)
    rw [LaneRule, intElem, BitVec.toNat_ofNat, hr, onesCount_eq_length_filter]
    rfl
  | clz =>
    have h := leadingZeros_spec hx
    have hr := Nat.mod_eq_of_lt (h.1.trans_lt Nat.lt_two_pow_self)
    rw [LaneRule, intElem, BitVec.toNat_ofNat, hr]
    exact h

/-- R166: a lane of an integer operation raises SAT where it is clipped, and no other flag. -/
theorem intElem_flags (o : IntOp) {w : Nat} (x y : BitVec w) :
    ((intElem o w x.toNat y.toNat).2 = 0 ∨ (intElem o w x.toNat y.toNat).2 = flagSAT)
      ∧ ((intElem o w x.toNat y.toNat).2 = flagSAT ↔ LaneClips o x y) := by
  have hx := x.isLt
  have hy := y.isLt
  have hm : ((2 ^ w : Nat) : Int) = 2 ^ w := Nat.cast_pow 2 w
  cases o with
  | adds =>
    refine ⟨saturate_flags_or .., (saturate_flags ..).trans ?_⟩
    simp only [sintN_toNat, if_true, LaneClips]
  | addsu =>
    refine ⟨saturate_flags_or .., (saturate_flags ..).trans ?_⟩
    simp only [Bool.false_eq_true, if_false, LaneClips]
    omega
  | subs =>
    refine ⟨saturate_flags_or .., (saturate_flags ..).trans ?_⟩
    simp only [sintN_toNat, if_true, LaneClips]
  | subsu =>
    refine ⟨saturate_flags_or .., (saturate_flags ..).trans ?_⟩
    simp only [Bool.false_eq_true, if_false, LaneClips]
    omega
  | _ => exact ⟨.inl rfl, by simp [intElem, LaneClips, flagSAT]⟩

/-! ### The vector (R161, R165) -/

/-- What an integer operation pushes: each lane by itself, and the ORed flags. -/
theorem vectorInt_eq (o : IntOp) (e : IntW) (a b : Val) :
    vectorInt o e a b =
      let g := gatherLanes e.bits ((List.range (2048 / e.bits)).map fun i =>
        intElem o e.bits (lane e.bits (a.lanes e.bits) i).toNat (lane e.bits (b.lanes e.bits) i).toNat)
      ⟨BitVec.ofNat 5 (if intCompares o then e.uinTag else a.tagOr e.inTag), g.1, g.2⟩ := by
  simp only [vectorInt, lanes_zip_lanes, List.map_map, Function.comp_def]

/-- Each lane that an integer operation pushes is the table's. -/
theorem vectorInt_lane (o : IntOp) (e : IntW) (a b : Val) {i : Nat} (hi : i < 2048 / e.bits) :
    LaneRule o (lane e.bits (a.lanes e.bits) i) (lane e.bits (b.lanes e.bits) i)
      (lane e.bits (vectorInt o e a b).bits i) := by
  have hbits : 0 < e.bits := by cases e <;> decide
  rw [vectorInt_eq, lane_gatherLanes _ hi]
  exact laneRule_intElem o hbits _ _

/-- An integer operation raises SAT where a lane is clipped, and no other flag. -/
theorem vectorInt_flags (o : IntOp) (e : IntW) (a b : Val) :
    ((vectorInt o e a b).flags = 0 ∨ (vectorInt o e a b).flags = flagSAT)
      ∧ ((vectorInt o e a b).flags = flagSAT ↔ ∃ i, i < 2048 / e.bits
        ∧ LaneClips o (lane e.bits (a.lanes e.bits) i) (lane e.bits (b.lanes e.bits) i)) := by
  have ⟨hor, hsat⟩ := gatherLanes_flags (w := e.bits) (by decide) fun i =>
    (intElem_flags o (lane e.bits (a.lanes e.bits) i) (lane e.bits (b.lanes e.bits) i)).1
  rw [vectorInt_eq]
  exact ⟨hor, hsat.trans (exists_congr fun i => and_congr_right fun _ => (intElem_flags o _ _).2)⟩

/-- A value's tag has five bits, and so has the signed format of a width. -/
theorem tagOr_inTag_lt (a : Val) (e : IntW) : a.tagOr e.inTag < 2 ^ 5 := by
  have he : e.inTag < 2 ^ 5 := by cases e <;> decide
  cases a with
  | tagged t _ => exact t.isLt
  | untyped _ => exact he
  | lane => exact he

/-- The result tag: the unsigned format for a compare, A's tag, or the signed format where A has none. -/
theorem vectorInt_tag (o : IntOp) (e : IntW) (a b : Val) : (vectorInt o e a b).tag.toNat
    = if o = .cmpeq ∨ o = .cmplt ∨ o = .cmpltu then e.uinTag else a.tagOr e.inTag := by
  have hcompares : (o = .cmpeq ∨ o = .cmplt ∨ o = .cmpltu) ↔ intCompares o = true := by cases o <;> decide
  have huin : e.uinTag < 2 ^ 5 := by cases e <;> decide
  simp only [hcompares, vectorInt, BitVec.toNat_ofNat]
  split
  · exact Nat.mod_eq_of_lt huin
  · exact Nat.mod_eq_of_lt (tagOr_inTag_lt a e)

/-- Settles O17: each lane is `intElem` of the operands' lanes, for which the table and the clipping of R166 hold, and the
result's flags are SAT where one lane raises it. -/
theorem vectorIntegerResults : Obligations.VectorIntegerResults := by
  intro o h e a s f x k held hr ht hw hf
  have hexec := exec_vectorInstr_of_takes (p := vectorInt o e x.a.value x.b.value) hr ht hw hf (fun _ => rfl) fun _ => rfl
  have ⟨hor, hsat⟩ := vectorInt_flags o e x.a.value x.b.value
  exact ⟨_, _, _, hexec, fun _ hi => vectorInt_lane o e _ _ hi, hor, hsat, vectorInt_tag o e _ x.b.value⟩

end Sys2Proof.Machine
end

section
/-! SUPPORT. Memory: what a write of bytes leaves at each key, and little-endian numbers (R16). -/

namespace Sys2Proof.Machine

/-! ### Bytes written and read back -/

/-- A write of bytes leaves every byte outside them as it was. -/
theorem Memory.get_write_outside : ∀ {bs : List Byte} {m : List Host.Cell} {k j : Nat}, Memory.wf m = true →
    j < k ∨ k + bs.length ≤ j → Memory.get (Memory.write m k bs) j = Memory.get m j
  | [], _, _, _, _, _ => rfl
  | b :: bs, m, k, j, w, h => by
    rw [List.length_cons] at h
    rw [Memory.write, Memory.get_write_outside (Memory.set_wf k b w) (by omega), Memory.get_set k j b w, if_neg (by omega)]

/-- A write of bytes leaves each of them at its place. -/
theorem Memory.get_write_inside : ∀ {bs : List Byte} {m : List Host.Cell} {k i : Nat}, Memory.wf m = true →
    (h : i < bs.length) → Memory.get (Memory.write m k bs) (k + i) = bs[i]
  | b :: bs, m, k, 0, w, _ => by
    rw [Memory.write, Memory.get_write_outside (Memory.set_wf k b w) (by omega), Memory.get_set k _ b w]
    simp
  | b :: bs, m, k, i + 1, w, h => by
    rw [List.length_cons] at h
    rw [Memory.write, show k + (i + 1) = k + 1 + i by omega,
      Memory.get_write_inside (Memory.set_wf k b w) (by omega : i < bs.length)]
    rfl

/-- A range of keys reads as the bytes that stand there. -/
theorem Memory.read_eq_map (m : List Host.Cell) : ∀ (n k : Nat), Memory.read m k n
    = (List.range n).map fun i => Memory.get m (k + i)
  | 0, _ => rfl
  | n + 1, k => by
    rw [Memory.read, Memory.read_eq_map m n (k + 1), List.range_succ_eq_map, List.map_cons, List.map_map]
    simp only [Nat.add_zero, Function.comp_def, Nat.succ_eq_add_one, Nat.add_comm, Nat.add_left_comm]

/-- The bytes written are what their place reads as. -/
theorem Memory.read_write_same {m : List Host.Cell} (w : Memory.wf m = true) (k : Nat) (bs : List Byte) :
    Memory.read (Memory.write m k bs) k bs.length = bs := by
  rw [Memory.read_eq_map]
  apply List.ext_getElem (by simp)
  intro i _ hi
  simpa using Memory.get_write_inside w hi

/-! ### Little-endian numbers -/

theorem bytesLE_length : ∀ n x : Nat, (bytesLE n x).length = n
  | 0, _ => rfl
  | n + 1, x => by rw [bytesLE, List.length_cons, bytesLE_length]

/-- The bytes of a number, taken together, are its low digits. -/
theorem numLE_bytesLE : ∀ n x : Nat, numLE (bytesLE n x) = x % 2 ^ (8 * n)
  | 0, x => by simp [bytesLE, numLE, Nat.mod_one]
  | n + 1, x => by
    have h : x % 2 ^ (8 + 8 * n) = x % 256 + 256 * (x / 256 % 2 ^ (8 * n)) := by rw [pow_add, Nat.mod_mul]; rfl
    rw [bytesLE, numLE, numLE_bytesLE n, BitVec.toNat_ofNat, show 8 * (n + 1) = 8 + 8 * n by ring, h]

/-- A number stored little-endian is what its bytes read as. -/
theorem Memory.num_write_bytesLE {m : List Host.Cell} (w : Memory.wf m = true) (k n x : Nat) :
    Memory.num (Memory.write m k (bytesLE n x)) k n = x % 2 ^ (8 * n) := by
  have h := Memory.read_write_same w k (bytesLE n x)
  rw [bytesLE_length] at h
  rw [Memory.num, h, numLE_bytesLE]

/-- Settles O7, by induction on the bytes written. -/
theorem memoryReadAfterWrite : Obligations.MemoryReadAfterWrite := fun _ k bs w =>
  ⟨fun i => Memory.get_write_inside w i.isLt, fun _ h => Memory.get_write_outside w h, Memory.read_write_same w k bs,
    fun n x => Memory.num_write_bytesLE w k n x⟩

end Sys2Proof.Machine
end

section
/-! PROOF. The module after reset, and words written out (R57, R63, R66, R208, R267, R323). -/

namespace Sys2Proof.Machine

/-- Settles O3: each word is decoded. -/
theorem decodeWords : Obligations.DecodeWords := by
  unfold Obligations.DecodeWords
  decide +kernel

/-- Settles O5: every field is what `State.reset` gives it. -/
theorem resetState : Obligations.ResetState := by
  refine ⟨rfl, fun _ => rfl, fun d n => ?_, fun _ => ⟨rfl, rfl, rfl, rfl, rfl, rfl, rfl⟩, rfl, rfl, rfl, rfl, rfl, rfl, rfl,
    rfl, rfl⟩
  have hdie : State.reset.dies[d] = resetDie := by simp [State.reset]
  rw [hdie]
  fin_cases n <;> rfl

end Sys2Proof.Machine
end

section
/-! PROOF. NOP, false guards, moves and immediates (R57 to R72). -/

namespace Sys2Proof.Machine

/-- A number below a vector's length names the element there. -/
theorem vget_eq_getElem {α : Type} {n : Nat} (v : Vector α n) (i : Fin n) (d : α) : vget v i d = v[i] := by
  simp [vget]

/-- Setting the element at a number below a vector's length sets it. -/
theorem vset_eq_set {α : Type} {n : Nat} (v : Vector α n) (i : Fin n) (x : α) : vset v i x = v.set i x := by
  ext j hj
  simp [vset, Vector.getElem_setIfInBounds, Vector.getElem_set]

/-- Settles O11: the destination of each move is a field of its own. -/
theorem moveSpecialWrites : Obligations.MoveSpecialWrites := by
  intro h n a s f g v hr
  refine ⟨fun hc => ⟨⟨_, moveSlot_of (put := fun f v => f.putLc n v) hr hc, ?_⟩,
      ⟨_, moveSlot_of (put := fun f v => f.putLb n v) hr hc, ?_⟩⟩,
    fun hc => ⟨⟨_, moveSlot_of (put := fun f v => f.putSlack v.low) hr hc, ?_⟩,
      ⟨_, moveSlot_of (put := fun f v => f.putCbx v) hr hc, ?_⟩⟩⟩
  · simp only [Frame.putLc, Frame.putLevel, vget_eq_getElem, vset_eq_set, BitVec.setWidth_eq_extractLsb' (show 20 ≤ 64 by decide)]
  · simp only [Frame.putLb, Frame.putLevel, vget_eq_getElem, vset_eq_set, BitVec.setWidth_eq_extractLsb' (show 20 ≤ 64 by decide)]
  · simp only [Frame.putSlack, BitVec.setWidth_eq_extractLsb' (show 16 ≤ 64 by decide)]
  · simp only [Frame.putCbx, BitVec.setWidth_eq_extractLsb' (show 10 ≤ 64 by decide)]

/-! ### Registers (R65) -/

/-- The bit of a predicate and no other. -/
theorem one_shiftLeft_getLsbD (n m : Fin 8) : ((1 <<< (n : Nat) : Nat) : BitVec 8).getLsbD m = decide (m = n) := by
  revert n m; decide

/-- A write of a predicate sets that one to whether the value's low word is nonzero, and leaves the others. -/
theorem putPredicate_preds (g : Frame) (n m : Fin 8) (v : Val) : (g.putPredicate n v).c.preds.getLsbD m
    = if m = n then decide (v.low ≠ 0) else g.c.preds.getLsbD m := by
  unfold Frame.putPredicate
  split
  · rw [BitVec.getLsbD_and, BitVec.getLsbD_not, one_shiftLeft_getLsbD]
    by_cases hm : m = n <;> simp [*]
  · rw [BitVec.getLsbD_or, one_shiftLeft_getLsbD]
    by_cases hm : m = n
    · simpa [hm] using ‹¬v.low = 0›
    · simp [hm]

/-- An untyped value stands in every 64-bit element, the lane index as each element's number. -/
theorem register_untyped (w : Word) : (Val.untyped w).register.1 = 14
    ∧ ∀ i, i < 32 → lane 64 (Val.untyped w).register.2 i = w := by
  refine ⟨rfl, fun i hi => BitVec.eq_of_toNat_eq ?_⟩
  have h := broadcast_lane 64 w.toNat i (by decide) hi
  rwa [Nat.mod_eq_of_lt w.isLt] at h

theorem register_lane : Val.lane.register.1 = 14 ∧ ∀ i, i < 32 → (lane 64 Val.lane.register.2 i).toNat = i := by
  refine ⟨rfl, fun i hi => ?_⟩
  have h := laneVec_lane 64 i (by decide) hi
  rwa [Nat.mod_eq_of_lt (by omega)] at h

/-- What is uncorrectable once a place is mended: what was, but for that place. -/
theorem mem_bad_mend (c : Ctx) (p x : Sram) : x ∈ (c.mend [p]).bad ↔ x ∈ c.bad ∧ x ≠ p := by
  simp [Ctx.mend]

/-- Writing a scalar register changes nothing but the register files and what is uncorrectable. -/
theorem writeS_frame (c : Ctx) (n : Nat) (w : Word) : c.writeS n w
    = { c with low := (c.writeS n w).low, ring := (c.writeS n w).ring, bad := (c.writeS n w).bad } := by
  unfold Ctx.writeS
  split <;> rfl

theorem writeS_bad (c : Ctx) (n : Nat) (w : Word) (x : Sram) : x ∈ (c.writeS n w).bad ↔ x ∈ c.bad ∧ x ≠ c.scalarPlace n := by
  unfold Ctx.writeS
  split <;> exact mem_bad_mend _ _ x

/-- A move's delivery leaves memory as the state had it. -/
theorem carries_sameMemory {s : State} {h : Slot} {f g : Frame} {units : Frame → List TileUnit} {a : Src} {v : Val}
    (hr : s.Runs h f) (hc : f.Carries units a v g) : s.SameMemory g.s := fun k => by
  rw [(carries_delivered hc).mem, hr.mem]

/-- Settles O10: a move's value reaches its register, whose check bits are made anew. -/
theorem registerMoves : Obligations.RegisterMoves := by
  intro h a s f g v hr
  refine ⟨fun n hc => ?_, fun n hc => ?_, fun n hc => ?_⟩
  · refine ⟨g.putScalar n v, moveSlot_of (put := fun f v => f.putScalar n v) hr hc, carries_delivered hc, ?_,
      writeS_bad _ _ _, readS_writeS_same _ n _, fun m hm => readS_writeS_other _ n m _ hm, (carries_sameMemory hr hc : s.SameMemory g.s)⟩
    exact congrArg (fun c : Ctx => { g with c := c }) (writeS_frame g.c n v.low)
  · refine ⟨g.putVector n v, v.register.1, v.register.2, moveSlot_of (put := fun f v => f.putVector n v) hr hc,
      carries_delivered hc, ?_, mem_bad_mend _ _, ?_, (carries_sameMemory hr hc : s.SameMemory g.s)⟩
    · simp only [Frame.putVector, Ctx.mend, vset_eq_set]
    · cases v with
      | tagged t b => exact ⟨rfl, rfl⟩
      | untyped w => exact register_untyped w
      | lane => exact register_lane
  · exact ⟨g.putPredicate n v, moveSlot_of (put := fun f v => f.putPredicate n v) hr hc, carries_delivered hc, rfl,
      (putPredicate_preds g n n v).trans (if_pos rfl), fun m hm => (putPredicate_preds g n m v).trans (if_neg hm),
      (carries_sameMemory hr hc : s.SameMemory g.s)⟩

/-! ### Operand ports (R59, R69, R71) -/

theorem lookupD_insertKey_same {α : Type} (d v : α) (k : Nat) : ∀ l : List (Nat × α), lookupD (insertKey l k v) k d = v
  | [] => by simp [insertKey, lookupD]
  | (j, w) :: l => by
    have ih := lookupD_insertKey_same d v k l
    unfold insertKey
    split
    · simp [lookupD]
    · split
      · simp [lookupD]
      · simpa [lookupD, show (j == k) = false by simp; omega] using ih

theorem lookupD_insertKey_other {α : Type} (d v : α) {k i : Nat} (hi : i ≠ k) :
    ∀ l : List (Nat × α), lookupD (insertKey l k v) i d = lookupD l i d
  | [] => by simp [insertKey, lookupD, Ne.symm hi]
  | (j, w) :: l => by
    have ih := lookupD_insertKey_other d v hi l
    have hki : (k == i) = false := by simpa using Ne.symm hi
    unfold insertKey
    split
    · simp [lookupD, hki]
    · split
      · subst k; simp [lookupD, hki]
      · by_cases hj : j = i
        · subst hj; simp [lookupD]
        · simpa [lookupD, hj] using ih

/-- What a port held before the group's first write of it is remembered. -/
theorem putPort_portBefore_same (g : Frame) (u : UnitName) (p : OpPort) (q : Port → Port) :
    (g.putPort u p q).portBefore u p = g.portBefore u p := lookupD_insertKey_same _ _ _ _

theorem putPort_portBefore_other (g : Frame) (u u' : UnitName) (p p' : OpPort) (q : Port → Port) (h : (u', p') ≠ (u, p)) :
    (g.putPort u p q).portBefore u' p' = g.portBefore u' p' := by
  have hi : portIndex u' p' ≠ portIndex u p := fun e => h (portIndex_inj e.symm)
  unfold Frame.portBefore
  rw [putPort_other g u p q u' p' h]
  exact lookupD_insertKey_other _ _ hi _

/-- What a write of an operand port leaves: that port, and the others as they were. -/
theorem putPort_frame (g : Frame) (u : UnitName) (p : OpPort) (q : Port → Port) :
    let r := g.putPort u p q
    r = { g with c := { g.c with ports := r.c.ports, seq := { g.c.seq with portw := r.c.seq.portw } } }
      ∧ r.portBefore u p = g.portBefore u p
      ∧ ∀ u' p', (u', p') ≠ (u, p) → r.port u' p' = g.port u' p' ∧ r.portBefore u' p' = g.portBefore u' p' :=
  ⟨rfl, putPort_portBefore_same g u p q,
    fun u' p' h => ⟨putPort_other g u p q u' p' h, putPort_portBefore_other g u u' p p' q h⟩⟩

/-- A read or a peek to an operand port is a move that supplies its value. -/
theorem exec_moveOperandPort_read {h : Slot} {u : UnitName} {p : OpPort} {a : Src} {s : State} (ha : a.mode = .read ∨ a.mode = .peek) :
    exec (.moveOperandPort h u p a) s = moveSlot h (fun _ => []) a (fun f v => f.supply u p v) s := by
  change execMoveOperandPort h u p a s = _
  unfold execMoveOperandPort
  rcases ha with ha | ha <;> rw [ha]

/-- The other two modes bind. -/
theorem exec_moveOperandPort_bind {h : Slot} {u : UnitName} {p : OpPort} {a : Src} {s : State}
    (ha : a.mode = .bind ∨ a.mode = .bindPeek) : exec (.moveOperandPort h u p a) s = bindSlot h u p a s := by
  change execMoveOperandPort h u p a s = _
  unfold execMoveOperandPort
  rcases ha with ha | ha <;> rw [ha]

/-- Settles O12: each form is one write of the port. -/
theorem movePortWrites : Obligations.MovePortWrites := by
  intro h u p a s f g v hr
  refine ⟨fun ha hc => ?_, fun ha hs hc => ?_, fun ha hs ht => ?_⟩
  · have hport := putPort_same g u p fun q => { q with supply := some v }
    refine ⟨g.supply u p v, ?_, (congrArg Port.supply hport :), (congrArg Port.bind hport :), putPort_frame g u p _⟩
    rw [exec_moveOperandPort_read ha]
    exact moveSlot_of (put := fun f v => f.supply u p v) hr hc
  · have hport := putPort_same g u p fun q => { q with bind := some (.value v) }
    refine ⟨g.bind u p (.value v), ?_, (congrArg Port.bind hport :), (congrArg Port.supply hport :), putPort_frame g u p _⟩
    rw [exec_moveOperandPort_bind ha, bindSlot, hs]
    exact moveSlot_of (put := fun f v => f.bind u p (.value v)) hr hc
  · have hpeek : modePeeks a.mode = decide (a.mode = .bindPeek) := by rcases ha with ha | ha <;> rw [ha] <;> rfl
    have hport := putPort_same g u p fun q => { q with bind := some (.stream a.src (decide (a.mode = .bindPeek))) }
    refine ⟨g.bind u p (.stream a.src (decide (a.mode = .bindPeek))), ?_, (congrArg Port.bind hport :),
      (congrArg Port.supply hport :), putPort_frame g u p _⟩
    rw [exec_moveOperandPort_bind ha, bindSlot, hs, if_pos rfl]
    refine runSlot_of_ok hr ?_
    rw [ht, hpeek]
    rfl

/-! ### Immediates (R66) -/

/-- A value of `w` bits broadcast stands in every lane. -/
theorem broadcast_lane_eq (w : Nat) (x : BitVec w) {i : Nat} (hw : w ∣ 2048) (hi : i < 2048 / w) :
    (broadcast w x.toNat).extractLsb' (w * i) w = x :=
  BitVec.eq_of_toNat_eq ((broadcast_lane w x.toNat i hw hi).trans (Nat.mod_eq_of_lt x.isLt))

/-- A word whose top is an immediate of 20 bits, as a number. -/
theorem toNat_append_zero {n : Nat} (imm : BitVec 20) : (imm ++ (0 : BitVec n)).toNat = imm.toNat * 2 ^ n := by
  rw [BitVec.toNat_append]
  simp [Nat.shiftLeft_eq]

/-- Settles O13: a bind of the slot's own unit, or the bound of level GL. -/
theorem immediatesComplete : Obligations.ImmediatesComplete := by
  intro stop imm s f g hr
  refine ⟨?_, ?_, ?_, fun ht => ⟨_, runSlot_of_ok hr (by rw [ht]; rfl), rfl, fun n => ?_⟩⟩
  · intro p hp
    simp only [List.mem_cons, List.not_mem_nil, or_false] at hp
    rcases hp with rfl | rfl <;> exact runSlot_of_ok hr rfl
  · intro p hp
    refine ⟨broadcast 32 (imm.toNat * 2 ^ 12), ?_, fun i hi => ?_⟩
    · simp only [List.mem_cons, List.not_mem_nil, or_false] at hp
      rcases hp with rfl | rfl <;> exact runSlot_of_ok hr rfl
    · rw [← toNat_append_zero]
      exact broadcast_lane_eq 32 (imm ++ (0 : BitVec 12)) (by decide) hi
  · intro p hp
    refine ⟨broadcast 64 (imm.toNat * 2 ^ 44), ?_, fun i hi => ?_⟩
    · simp only [List.mem_cons, List.not_mem_nil, or_false] at hp
      rcases hp with rfl | rfl <;> exact runSlot_of_ok hr rfl
    · rw [← toNat_append_zero]
      exact broadcast_lane_eq 64 (imm ++ (0 : BitVec 44)) (by decide) hi
  · have hseq : g.c = f.c := Frame.touchAll_ctx ht
    rw [hseq]
    by_cases hn : n.val = hdrGl f.c.seq.block
    · simp [Frame.putLevel, hseq, ← hn, vset, vget]
    · have hn' : hdrGl f.c.seq.block ≠ n.val := fun e => hn e.symm
      simp [Frame.putLevel, hseq, hn, hn', vset]

end Sys2Proof.Machine
end

section
/-! PROOF. A step runs the instruction that is next (R39, R67, R76, R147, R332). -/

namespace Sys2Proof.Machine

/-! ### Every act of the device is the meaning of an instruction -/

/-- The micro-operation of an OP (R208, R210). -/
noncomputable def microInstr (op : Nat) (m : Micro) : Instr :=
  match op with
  | 1 => .mend m
  | 2 => .mseta m
  | 3 => .madd m
  | 4 => .msetc m
  | 5 => .mloop m
  | 6 => .mjmp m
  | 7 => .mlda m
  | 8 => .mldb m
  | 9 => .mldsa m
  | 10 => .mldsw m
  | 11 => .mlde m
  | 12 => .mldm m
  | 13 => .mstr m
  | 14 => .mzero m
  | 15 => .mstacc m
  | 16 => .mldacc m
  | _ => .mnop m

theorem microExec_eq_exec (op : Nat) (m : Micro) (s : State) : microExec op m s = exec (microInstr op m) s := by
  rcases Nat.lt_or_ge op 17 with h | h
  · interval_cases op <;> rfl
  · obtain ⟨n, rfl⟩ := Nat.exists_eq_add_of_le' h
    rfl

/-- The instruction whose meaning an act is. -/
noncomputable def Act.instr : Act → Instr
  | .holdExpire port need => .holdExpire port need
  | .cbxReloadEnd sid => .cbxReloadEnd sid
  | .windowAccessPerform c => .windowAccessPerform c
  | .resultPush sid => .resultPush sid
  | .tkpostDeliver sid => .tkpostDeliver sid
  | .columnPresent ctx => .columnPresent ctx
  | .micro op m => microInstr op m
  | .spillWriteComplete sid => .spillWriteComplete sid
  | .fillArrive sid => .fillArrive sid
  | .feedElementArrive ctx port => .feedElementArrive ctx port
  | .heldOpRun ctx u => .heldOpRun ctx u
  | .slackExhausted sid => .slackExhausted sid
  | .stallEnd sid => .stallEnd sid
  | .agexcuseAck sid => .agexcuseAck ⟨sid, none⟩
  | .retireComplete sid => .retireComplete sid
  | .csyncSnapshot sid => .csyncSnapshot sid
  | .l2domSwitchDone die dom => .l2domSwitchDone die dom
  | .fenceComplete sid => .fenceComplete sid
  | .invalidationApply die stamp => .invalidationApply die stamp
  | .heldCallEnqueue ctx e => .heldCallEnqueue ctx e
  | .mxeCallStart ctx => .mxeCallStart ctx
  | .mxloadRun ctx => .mxloadRun ctx
  | .engineCallComplete ctx e => .engineCallComplete ctx e
  | .engineTokenPostDeferred ctx e => .engineTokenPostDeferred ctx e
  | .xfuCallStart ctx => .xfuCallStart ctx
  | .mxeQuiesce ctx => .mxeQuiesce ctx
  | .xfuQuiesce ctx => .xfuQuiesce ctx
  | .tagCommandAccept cmd => .tagCommandAccept cmd
  | .copyChunk cmd => .copyChunk cmd
  | .tagCommandComplete cmd => .tagCommandComplete cmd
  | .catalogueDisarmComplete cmd => .catalogueDisarmComplete cmd
  | .readinessNotice n => .readinessNotice n
  | .pullRequest p => .pullRequest p
  | .chunkLand f => .chunkLand f
  | .parkedChunkWrite num => .parkedChunkWrite num
  | .localPullFault xfer => .localPullFault xfer
  | .parkedNoticeRelease sid chan grp => .parkedNoticeRelease sid chan grp
  | .transferIdComplete sid chan id => .transferIdComplete sid chan id []
  | .k2TokenPost sid => .k2TokenPost sid
  | .chunkRedrive xfer => .chunkRedrive xfer
  | .mcstReplicaArrive r => .mcstReplicaArrive r
  | .mcstAckArrive cmd ver => .mcstAckArrive cmd ⟨[], ver⟩
  | .contributionArrive c => .contributionArrive c
  | .agreementTimeout gid => .agreementTimeout gid
  | .answerArrive sid slot v status => .answerArrive sid slot v ⟨status, none⟩
  | .heldStoreDrain sid => .heldStoreDrain sid
  | .taskFail sid => .taskFail sid 0 0 0
  | .watchdogFire task => .watchdogFire task
  | .unitClaimComplete sid u => .unitClaimComplete sid u
  | .taskPlace task => .taskPlace task
  | .taskResume task => .taskResume task
  | .frameStart => .frameStart
  | .noticeResend n => .noticeResend n
  | .queueIdleUnmap q => .queueIdleUnmap q
  | .signalAck q idx => .signalAck q idx
  | .invalAck q => .invalAck q
  | .graphStepBegin g => .graphStepBegin g
  | .graphNodeComplete g n => .graphNodeComplete g n
  | .condNodeRead g n => .condNodeRead g n

theorem Act.run_eq_exec (a : Act) (s : State) : a.run s = exec a.instr s := by
  cases a with
  | micro op m => exact microExec_eq_exec op m s
  | _ => rfl

/-! ### What is next -/

/-- A held operation whose turn has come runs its own instruction. -/
theorem step_of_turnCtx {s : State} {t : Strand} {c : Ctx} {r : Again} {x : Held} {i : Instr} (ht : s.turnCtx = some (t, c, r))
    (hx : c.heldOf r.rid = some x) (hi : x.op = some (.again i)) : step s = exec i { s with turn := t.sid :: s.turn } := by
  simp only [step, State.nextStep, ht, State.runTurn, hx, Option.bind_some, hi]

section
variable {s : State} (ht : s.turnCtx = none)
include ht

/-- An event from outside runs, but for a management request before its time, which waits in order. -/
theorem step_of_agenda {i : Instr} {l : List Instr} (ha : s.agenda = i :: l) :
    step s = if isRequest i = true ∧ (s.inManagement = false ∨ s.requests ≠ [])
      then .next { s with agenda := l, requests := s.requests ++ [i] } else exec i { s with agenda := l } := by
  simp only [step, State.nextStep, ht, ha]
  congr 1
  cases isRequest i <;> cases s.inManagement <;> cases s.requests <;> simp

/-- The strand at the head of the turn has its turn. -/
theorem step_of_turn (ha : s.agenda = []) {sid : Nat} {l : List Nat} (hl : s.turn = sid :: l) :
    step s = s.turnStep sid := by
  simp only [step, State.nextStep, ht, ha, hl]

/-- With no strand left the device acts by itself. -/
theorem step_of_idle (ha : s.agenda = []) (hl : s.turn = []) : step s = s.idleStep := by
  simp only [step, State.nextStep, ht, ha, hl]

end

/-- A group that waits as a whole changes no memory, no context and not the cycle. -/
theorem Frame.groupHolds_keeps {f : Frame} {t : State} (h : f.groupHolds = some t) :
    t.mem = f.s.mem ∧ t.ctxs = f.s.ctxs ∧ t.cycle = f.s.cycle := by
  unfold Frame.groupHolds at h
  split at h
  · cases h
  · dsimp only at h
    split at h
    · cases h; exact ⟨rfl, rfl, rfl⟩
    · rw [Option.map_eq_some_iff] at h
      obtain ⟨_, _, rfl⟩ := h
      exact ⟨rfl, rfl, rfl⟩

/-- The frame of a strand is of the state it is taken from. -/
theorem State.frameOf_s {s : State} {sid : Nat} {f : Frame} (h : s.frameOf sid = some f) : f.s = s := by
  simp only [State.frameOf, Option.bind_eq_some_iff, Option.map_eq_some_iff] at h
  obtain ⟨_, _, _, _, rfl⟩ := h
  rfl

/-- No completion is written outside the service phase, or while none is ready. -/
theorem noDues_of {s : State} (h : s.inService = false ∨ ∀ d ∈ s.dues, s.dueReady d = false) :
    (s.inService && s.dues.any s.dueReady) = false := by
  rcases h with h | h
  · simp [h]
  · simpa using fun _ => h

/-- Settles O1: each case is one branch of `State.nextStep`, `State.turnStep` or `State.idleStep`. -/
theorem stepRuns : Obligations.StepRuns := by
  refine ⟨fun s => ⟨fun t c r x i ht hx hi => step_of_turnCtx ht hx hi, fun ht => ⟨?_, ?_, ?_⟩⟩,
    fun a => ⟨a.instr, a.run_eq_exec⟩⟩
  · intro i l ha
    rw [step_of_agenda ht ha]
    refine ⟨fun h => if_neg fun ⟨hr, hw⟩ => ?_, fun hr hw => if_pos ⟨hr, hw⟩⟩
    rcases h with h | ⟨hm, hq⟩
    · simp [h] at hr
    · simp [hm, hq] at hw
  · intro ha sid l f hl hf
    rw [step_of_turn ht ha hl]
    have hs : f.s = s := State.frameOf_s hf
    refine ⟨fun hn => ?_, fun hy => ⟨fun t hg => ?_, fun hg => ⟨fun hi => ?_, fun hi d hd => ⟨fun i hdi => ?_, fun hdn => ?_⟩⟩⟩⟩
    · simp only [State.turnStep, hf, hn]; rfl
    · have hkeep := Frame.groupHolds_keeps hg
      rw [hs] at hkeep
      exact ⟨by simp only [State.turnStep, hf, hy, hg]; rfl, hkeep⟩
    · simp only [State.turnStep, hf, hy, hg, State.issue, hi]; rfl
    · have hslot : f.slotInstr = some i := hd.trans hdi
      simp only [State.turnStep, hf, hy, hg, State.issue, hi, hslot]; rfl
    · have hslot : f.slotInstr = none := hd.trans hdn
      simp only [State.turnStep, hf, hy, hg, State.issue, hi, hslot]; rfl
  · intro ha hl
    rw [step_of_idle ht ha hl]
    refine ⟨fun a l hd => by simp only [State.idleStep, hd], fun hd => ⟨fun hf => ?_, fun hf => ⟨fun hp => ?_, fun hp =>
      ⟨fun hsv hdr => ?_, fun hnd => ⟨fun hq => ?_, fun hq => ⟨fun a hg => ?_, fun hg => ⟨fun hm => ?_, fun hm =>
        ⟨fun a hpick => ?_, fun hpick => ?_⟩⟩⟩⟩⟩⟩⟩⟩
    · simp only [State.idleStep, hd, hf, if_true]; rfl
    · simp [State.idleStep, hd, hf, hp]
    · simp [State.idleStep, hd, hf, hp, hsv, hdr]
    · have hne : s.requests ≠ [] := by
        intro he
        simp [State.requestDue, he] at hq
      obtain ⟨i, l, hreq⟩ := List.exists_cons_of_ne_nil hne
      refine ⟨i, l, hreq, ?_⟩
      simp [State.idleStep, hd, hf, hp, noDues_of hnd, hq, State.serveRequest, hreq]
    · simp [State.idleStep, hd, hf, hp, noDues_of hnd, hq, hg]
    · simp [State.idleStep, hd, hf, hp, noDues_of hnd, hq, hg, hm]
    · simp [State.idleStep, hd, hf, hp, noDues_of hnd, hq, hg, hm, hpick]
    · simp [State.idleStep, hd, hf, hp, noDues_of hnd, hq, hg, hm, hpick]

end Sys2Proof.Machine
end

section
/-! SUPPORT. The ports of the decoder: what a word that a port reads comes from (R57, R63, R78 to R83). -/

namespace Sys2Proof

/-- An operation with operand A comes from a source's code. -/
theorem withA_eq_some {x : Nat} {k : Src → Instr} {i : Instr} (h : withA x k = some i) :
    ∃ a, Src.ofCode? x = some a ∧ i = k a := by
  rw [withA, Option.map_eq_some_iff] at h
  obtain ⟨a, ha, rfl⟩ := h
  exact ⟨a, ha, rfl⟩

/-- An operation without operand A comes from a zero source field. -/
theorem bare_eq_some {x : Nat} {j i : Instr} (h : bare x j = some i) : x = 0 ∧ i = j := by
  unfold bare at h
  split at h
  · exact ⟨‹_›, (Option.some.inj h).symm⟩
  · cases h

end Sys2Proof
end

section
/-! PROOF. NOP and slots without effect (R58, R72, R349). -/

namespace Sys2Proof.Machine

/-- An instruction whose meaning is a slot's, with S, K and G of `h`. -/
def IsSlotOf (h : Slot) (i : Instr) : Prop := ∃ body : Frame → Except Stop State, ∀ s, exec i s = runSlotTo h body s

theorem isSlotOf_withA {h : Slot} {x : Nat} {k : Src → Instr} {i : Instr} (hk : ∀ a, IsSlotOf h (k a))
    (e : withA x k = some i) : IsSlotOf h i := by
  obtain ⟨a, _, rfl⟩ := withA_eq_some e
  exact hk a

theorem isSlotOf_bare {h : Slot} {x : Nat} {i j : Instr} (hj : IsSlotOf h j) (e : bare x j = some i) : IsSlotOf h i := by
  obtain ⟨_, rfl⟩ := bare_eq_some e
  exact hj

theorem isSlotOf_moveOperandPort (h : Slot) (u : UnitName) (p : OpPort) (a : Src) : IsSlotOf h (.moveOperandPort h u p a) := by
  by_cases ha : a.mode = .read ∨ a.mode = .peek
  · exact ⟨_, fun s => exec_moveOperandPort_read ha⟩
  · have hb : a.mode = .bind ∨ a.mode = .bindPeek := by cases hm : a.mode <;> simp_all
    cases hs : sourceStream a.src
    · exact ⟨_, fun s => by rw [exec_moveOperandPort_bind hb, bindSlot, hs]; rfl⟩
    · exact ⟨_, fun s => by rw [exec_moveOperandPort_bind hb, bindSlot, hs]; rfl⟩

theorem isSlotOf_scalarPort {h : Slot} {x p : Nat} {i : Instr} (e : scalarPort h x p = some i) : IsSlotOf h i := by
  unfold scalarPort at e
  split at e
  on_goal -1 => cases e
  all_goals exact isSlotOf_withA (fun a => ⟨_, fun s => rfl⟩) e

theorem isSlotOf_controlPort {h : Slot} {x p : Nat} {i : Instr} (e : controlPort h x p = some i) : IsSlotOf h i := by
  unfold controlPort at e
  split at e
  on_goal -1 => cases e
  all_goals first
    | exact isSlotOf_withA (fun a => ⟨_, fun s => rfl⟩) e
    | exact isSlotOf_bare ⟨_, fun s => rfl⟩ e

theorem isSlotOf_transposerPort {h : Slot} {x p : Nat} {i : Instr} (e : transposerPort h x p = some i) : IsSlotOf h i := by
  unfold transposerPort at e
  split at e
  on_goal -1 => cases e
  all_goals first
    | exact isSlotOf_withA (fun a => ⟨_, fun s => rfl⟩) e
    | exact isSlotOf_bare ⟨_, fun s => rfl⟩ e

theorem isSlotOf_copyPort {h : Slot} {x p : Nat} {i : Instr} (e : copyPort h x p = some i) : IsSlotOf h i := by
  unfold copyPort at e
  split at e
  on_goal -1 => cases e
  all_goals exact isSlotOf_withA (fun a => ⟨_, fun s => rfl⟩) e

theorem isSlotOf_enginePort {h : Slot} {x p : Nat} {i : Instr} (e : enginePort h x p = some i) : IsSlotOf h i := by
  unfold enginePort engineLowPort at e
  split_ifs at e
  · exact isSlotOf_withA (fun a => ⟨_, fun s => rfl⟩) e
  · exact isSlotOf_withA (fun a => ⟨_, fun s => rfl⟩) e
  · exact isSlotOf_bare ⟨_, fun s => rfl⟩ e
  · split at e
    on_goal -1 => cases e
    all_goals first
      | exact isSlotOf_withA (fun a => ⟨_, fun s => rfl⟩) e
      | exact isSlotOf_bare ⟨_, fun s => rfl⟩ e

theorem isSlotOf_fpPort {h : Slot} {x n : Nat} {f : FpFmt} {i : Instr} (e : fpPort h x f n = some i) : IsSlotOf h i := by
  unfold fpPort at e
  split at e
  case h_9 | h_10 =>
    split at e
    · exact isSlotOf_withA (fun a => ⟨_, fun s => rfl⟩) e
    · cases e
  case h_17 => cases e
  all_goals exact isSlotOf_withA (fun a => ⟨_, fun s => rfl⟩) e

theorem isSlotOf_intPort {h : Slot} {x n : Nat} {w : IntW} {i : Instr} (e : intPort h x w n = some i) : IsSlotOf h i := by
  unfold intPort at e
  split at e
  on_goal -1 => cases e
  all_goals exact isSlotOf_withA (fun a => ⟨_, fun s => rfl⟩) e

theorem isSlotOf_cvtPort {h : Slot} {x n : Nat} {t : CvtT} {i : Instr} (e : cvtPort h x t n = some i) : IsSlotOf h i := by
  unfold cvtPort at e
  split at e
  · exact isSlotOf_withA (fun a => ⟨_, fun s => rfl⟩) e
  · split at e
    · exact isSlotOf_withA (fun a => ⟨_, fun s => rfl⟩) e
    · cases e
  · split at e
    · exact isSlotOf_withA (fun a => ⟨_, fun s => rfl⟩) e
    · cases e
  · cases e

theorem isSlotOf_vectorHighPort {h : Slot} {x p : Nat} {i : Instr} (e : vectorHighPort h x p = some i) : IsSlotOf h i := by
  unfold vectorHighPort at e
  split at e
  on_goal -1 => cases e
  all_goals exact isSlotOf_withA (fun a => ⟨_, fun s => rfl⟩) e

theorem isSlotOf_vectorPort {h : Slot} {x p : Nat} {i : Instr} (e : vectorPort h x p = some i) : IsSlotOf h i := by
  unfold vectorPort at e
  split_ifs at e
  · obtain ⟨f, _, e⟩ := Option.bind_eq_some_iff.1 e
    exact isSlotOf_fpPort e
  · exact isSlotOf_intPort e
  · obtain ⟨t, _, e⟩ := Option.bind_eq_some_iff.1 e
    exact isSlotOf_cvtPort e
  · exact isSlotOf_vectorHighPort e

theorem isSlotOf_triggerPort {h : Slot} {x p : Nat} {u : UnitName} {i : Instr} (e : triggerPort u h x p = some i) :
    IsSlotOf h i := by
  unfold triggerPort at e
  split at e
  · exact isSlotOf_bare ⟨_, fun s => rfl⟩ e
  · cases u with
    | sc => exact isSlotOf_scalarPort e
    | va | vb => exact isSlotOf_vectorPort e
    | en => exact isSlotOf_enginePort e
    | ca | cb => exact isSlotOf_copyPort e
    | tr => exact isSlotOf_transposerPort e
    | ct => exact isSlotOf_controlPort e

theorem isSlotOf_destination {h : Slot} {x d : Nat} {i : Instr} (e : destination h x d = some i) : IsSlotOf h i := by
  unfold destination specialPort at e
  split at e <;> split_ifs at e
  · obtain ⟨p, _, e⟩ := Option.bind_eq_some_iff.1 e
    exact isSlotOf_withA (isSlotOf_moveOperandPort h _ p) e
  all_goals exact isSlotOf_withA (fun a => ⟨_, fun s => rfl⟩) e

/-- What a slot reads in immediate form is a slot's, without K and guard (R66). -/
theorem isSlotOf_decodeImm {w : SlotWord} {i : Instr} (e : decodeImm w.toNat = some i) :
    IsSlotOf ⟨w.getLsbD 23, false, .always⟩ i := by
  have hw := w.isLt
  have hbit : w.getLsbD 23 = decide (bitsAt w.toNat 23 1 = 1) := by
    rw [BitVec.getLsbD, Nat.testBit_eq_decide_div_mod_eq]
    rfl
  rw [hbit]
  simp only [decodeImm] at e
  split at e
  on_goal -1 => cases e
  all_goals
    cases e
    exact ⟨_, fun s => rfl⟩

/-- Settles O9: whatever a slot reads runs in the frame of a slot, which has no effect where it is skipped. -/
theorem nopAndFalseGuards : Obligations.NopAndFalseGuards := by
  refine ⟨fun h s f hr => runSlot_of_ok hr rfl, fun u im w i s f e => ?_⟩
  have hslot : IsSlotOf (if im then ⟨w.getLsbD 23, false, .always⟩ else slotFields w.toNat) i := by
    cases im with
    | true => exact isSlotOf_decodeImm e
    | false =>
      simp only [decodeSlot, decodeMove, Bool.false_eq_true, if_false] at e ⊢
      split at e
      · exact isSlotOf_triggerPort e
      · exact isSlotOf_destination e
  intro h hs
  obtain ⟨body, hbody⟩ := hslot
  rw [hbody]
  exact runSlotTo_of_skips hs

end Sys2Proof.Machine
end

section
/-! SUPPORT. Codes and fields of the encoding (R57, R63 to R66, R80, R208): what is coded reads back, and what is read codes
back. -/

namespace Sys2Proof

open Sys2Proof.Machine

/-! ### Codes of operands -/

theorem Guard.ofCode_code : ∀ g : Guard, Guard.ofCode g.code = g := by intro g; cases g <;> rfl
theorem Guard.code_lt : ∀ g : Guard, g.code < 8 := by intro g; cases g <;> decide
theorem Guard.code_ofCode {n : Nat} (h : n < 8) : (Guard.ofCode n).code = n := by interval_cases n <;> rfl

theorem Mode.ofCode_code : ∀ m : Mode, Mode.ofCode m.code = m := by intro m; cases m <;> rfl
theorem Mode.code_lt : ∀ m : Mode, m.code < 4 := by intro m; cases m <;> decide
theorem Mode.code_ofCode {n : Nat} (h : n < 4) : (Mode.ofCode n).code = n := by interval_cases n <;> rfl

theorem Source.code_lt (x : Source) : x.code < 128 := by cases x <;> simp only [Source.code] <;> omega

theorem Source.ofCode?_code (x : Source) : Source.ofCode? x.code = some x := by
  cases x with
  | q n | s n | v n | f n | k n | c n | lit n => fin_cases n <;> rfl
  | col | zero | one | lane | rank | task | clus | die | modId | cyc | lcin => rfl

theorem Source.code_of_ofCode? {n : Nat} {x : Source} (h : Source.ofCode? n = some x) : x.code = n := by
  unfold Source.ofCode? at h
  split_ifs at h <;> first
    | (cases h; simp only [Source.code] <;> omega)
    | (split at h <;> cases h <;> rfl)

theorem Src.ofCode?_code (a : Src) : Src.ofCode? a.code = some a := by
  have hs := a.src.code_lt
  rw [Src.ofCode?, Src.code, show (a.mode.code * 128 + a.src.code) % 128 = a.src.code by omega,
    show (a.mode.code * 128 + a.src.code) / 128 = a.mode.code by omega, Source.ofCode?_code, Mode.ofCode_code]
  rfl

theorem Src.code_of_ofCode? {n : Nat} {a : Src} (hn : n < 512) (h : Src.ofCode? n = some a) : a.code = n := by
  rw [Src.ofCode?, Option.map_eq_some_iff] at h
  obtain ⟨x, hx, rfl⟩ := h
  have hm := Mode.code_ofCode (show n / 128 < 4 by omega)
  rw [Src.code, hm, Source.code_of_ofCode? hx]
  omega

theorem FpFmt.ofCode?_code (e : FpFmt) : FpFmt.ofCode? e.code = some e := by cases e <;> rfl
theorem FpFmt.code_of_ofCode? {n : Nat} {e : FpFmt} (h : FpFmt.ofCode? n = some e) : e.code = n := by
  unfold FpFmt.ofCode? at h
  split at h <;> cases h <;> rfl
theorem IntW.code_ofCode {n : Nat} (h : n < 4) : (IntW.ofCode n).code = n := by interval_cases n <;> rfl
theorem CvtT.code_of_ofCode? {n : Nat} {t : CvtT} (h : CvtT.ofCode? n = some t) : t.code = n := by
  unfold CvtT.ofCode? at h
  split at h
  · cases h; exact FpFmt.code_of_ofCode? ‹_›
  · split at h <;> cases h <;> rfl
theorem UnitName.code_ofCode {n : Nat} (h : n < 8) : (UnitName.ofCode n).code = n := by interval_cases n <;> rfl
theorem OpPort.code_of_ofCode? {n : Nat} {p : OpPort} (h : OpPort.ofCode? n = some p) : p.code = n := by
  unfold OpPort.ofCode? at h
  split at h <;> cases h <;> rfl

/-! ### Slots in move and in immediate form (R57, R66) -/

/-- The fields of a slot in move form. -/
theorem encodeMove_toNat {h : Slot} {d x : Nat} (hd : d < 1024) (hx : x < 512) : (encodeMove h d x).toNat
    = h.stop.toNat * 2 ^ 23 + h.kill.toNat * 2 ^ 22 + h.guard.code * 2 ^ 19 + d * 2 ^ 9 + x := by
  have hs := Bool.toNat_lt h.stop
  have hk := Bool.toNat_lt h.kill
  have hg := h.guard.code_lt
  rw [encodeMove, BitVec.toNat_ofNat, Nat.mod_eq_of_lt (by omega)]

/-- The S, K and G fields of a word in move form. -/
theorem slotFields_encodeMove {h : Slot} {d x : Nat} (hd : d < 1024) (hx : x < 512) :
    slotFields (encodeMove h d x).toNat = h := by
  have hs := Bool.toNat_lt h.stop
  have hk := Bool.toNat_lt h.kill
  have hg := h.guard.code_lt
  rw [encodeMove_toNat hd hx]
  obtain ⟨s, k, g⟩ := h
  dsimp only at hs hk hg ⊢
  have h19 : (s.toNat * 2 ^ 23 + k.toNat * 2 ^ 22 + g.code * 2 ^ 19 + d * 2 ^ 9 + x) / 2 ^ 19 % 2 ^ 3 = g.code := by omega
  have h22 : (s.toNat * 2 ^ 23 + k.toNat * 2 ^ 22 + g.code * 2 ^ 19 + d * 2 ^ 9 + x) / 2 ^ 22 % 2 ^ 1 = k.toNat := by omega
  have h23 : (s.toNat * 2 ^ 23 + k.toNat * 2 ^ 22 + g.code * 2 ^ 19 + d * 2 ^ 9 + x) / 2 ^ 23 % 2 ^ 1 = s.toNat := by omega
  simp only [slotFields, bitsAt, h19, h22, h23, Guard.ofCode_code]
  cases s <;> cases k <;> rfl

/-- A slot in move form reads as the trigger or the destination of its D field. -/
theorem decodeSlot_encodeMove {v : UnitName} {h : Slot} {d x : Nat} (hd : d < 1024) (hx : x < 512) :
    decodeSlot v false (encodeMove h d x) = if d < 512 then triggerPort v h x d else destination h x (d - 512) := by
  have hs := Bool.toNat_lt h.stop
  have hk := Bool.toNat_lt h.kill
  have hg := h.guard.code_lt
  have h18 : bitsAt (encodeMove h d x).toNat 18 1 = d / 512 := by rw [encodeMove_toNat hd hx, bitsAt]; omega
  have h0 : bitsAt (encodeMove h d x).toNat 0 9 = x := by rw [encodeMove_toNat hd hx, bitsAt]; omega
  have h9 : bitsAt (encodeMove h d x).toNat 9 9 = d % 512 := by rw [encodeMove_toNat hd hx, bitsAt]; omega
  simp only [decodeSlot, decodeMove, h18, h0, h9, slotFields_encodeMove hd hx, Bool.false_eq_true, if_false]
  by_cases hlow : d < 512
  · simp only [hlow, if_true, Nat.div_eq_of_lt hlow, Nat.mod_eq_of_lt hlow]
  · simp only [hlow, if_false, show ¬ d / 512 = 0 by omega, show d % 512 = d - 512 by omega]

/-- Every slot word is one in move form of its fields. -/
theorem encodeMove_slotFields (w : SlotWord) :
    encodeMove (slotFields w.toNat) (bitsAt w.toNat 9 10) (bitsAt w.toNat 0 9) = w := by
  apply BitVec.eq_of_toNat_eq
  rw [encodeMove_toNat (by rw [bitsAt]; omega) (by rw [bitsAt]; omega)]
  have hw := w.isLt
  simp only [slotFields, Guard.code_ofCode (show bitsAt w.toNat 19 3 < 8 by rw [bitsAt]; omega)]
  have bool_toNat : ∀ n : Nat, n < 2 → (decide (n = 1)).toNat = n := by intro n hn; interval_cases n <;> rfl
  rw [bool_toNat _ (by rw [bitsAt]; omega), bool_toNat _ (by rw [bitsAt]; omega)]
  simp only [bitsAt]
  omega

/-- Every slot word is one in immediate form of its fields. -/
theorem encodeImm_fields (w : SlotWord) :
    encodeImm (bitsAt w.toNat 23 1 = 1) (bitsAt w.toNat 20 3) (BitVec.ofNat 20 w.toNat) = w := by
  apply BitVec.eq_of_toNat_eq
  have hw := w.isLt
  have hb : bitsAt w.toNat 23 1 < 2 := by rw [bitsAt]; omega
  have bool_toNat : ∀ n : Nat, n < 2 → (decide (n = 1)).toNat = n := by intro n hn; interval_cases n <;> rfl
  rw [encodeImm, BitVec.toNat_ofNat, BitVec.toNat_ofNat, bool_toNat _ hb]
  simp only [bitsAt]
  omega

/-- A slot in immediate form reads as the immediate of its selector. -/
theorem decodeSlot_encodeImm {v : UnitName} {stop : Bool} {sel : Nat} {imm : BitVec 20} :
    sel < 8 → decodeSlot v true (encodeImm stop sel imm) = match sel with
      | 0 => some (.immBindBInt stop imm)
      | 1 => some (.immBindCInt stop imm)
      | 2 => some (.immBindBF32 stop imm)
      | 3 => some (.immBindCF32 stop imm)
      | 4 => some (.immBindBF64 stop imm)
      | 5 => some (.immBindCF64 stop imm)
      | 6 => some (.immSetLb stop imm)
      | _ => none := by
  intro hs
  have hb := Bool.toNat_lt stop
  have hi := imm.isLt
  have hn : (encodeImm stop sel imm).toNat = stop.toNat * 2 ^ 23 + sel * 2 ^ 20 + imm.toNat := by
    rw [encodeImm, BitVec.toNat_ofNat, Nat.mod_eq_of_lt (by omega)]
  have h20 : bitsAt (encodeImm stop sel imm).toNat 20 3 = sel := by rw [hn, bitsAt]; omega
  have h23 : bitsAt (encodeImm stop sel imm).toNat 23 1 = stop.toNat := by rw [hn, bitsAt]; omega
  have hv : BitVec.ofNat 20 (encodeImm stop sel imm).toNat = imm := by
    apply BitVec.eq_of_toNat_eq
    rw [hn, BitVec.toNat_ofNat]
    omega
  have hstop : decide (stop.toNat = 1) = stop := by cases stop <;> rfl
  simp only [decodeSlot, decodeImm, h20, h23, hv, hstop, if_true] <;> rfl


/-! ### Micro-words (R208) -/

theorem getLsbD_encodeMicro (op : Nat) (m : Micro) (i : Nat) : (encodeMicro op m).getLsbD i =
    if i < 32 then m.imm.getLsbD i else if i < 40 then m.opx.getLsbD (i - 32) else if i < 46 then m.cb.getLsbD (i - 40)
    else if i = 46 then m.c else if i = 47 then m.p else if i = 48 then m.s else if i < 52 then m.bk.getLsbD (i - 49)
    else if i < 55 then m.k.getLsbD (i - 52) else if i < 58 then m.j.getLsbD (i - 55) else (BitVec.ofNat 6 op).getLsbD (i - 58) := by
  unfold encodeMicro
  simp only [BitVec.getLsbD_append, BitVec.getLsbD_ofBool]
  grind (splits := 30)

theorem encodeMicro_microFields {op : Nat} {w : Word} (h : fld w 58 6 = op) : encodeMicro op (microFields w) = w := by
  apply BitVec.eq_of_getLsbD_eq
  intro i hi
  rw [getLsbD_encodeMicro]
  subst h
  simp only [microFields, BitVec.ofNat_toNat, BitVec.setWidth_eq, BitVec.getLsbD_extractLsb', bit, fld]
  grind (splits := 30)

theorem microFields_encodeMicro (op : Nat) (m : Micro) : microFields (encodeMicro op m) = m := by
  obtain ⟨j, k, bk, s, p, c, cb, opx, imm⟩ := m
  simp only [microFields, Micro.mk.injEq, bit, getLsbD_encodeMicro]
  refine ⟨?_, ?_, ?_, rfl, rfl, rfl, ?_, ?_, ?_⟩ <;>
  · apply BitVec.eq_of_getLsbD_eq
    intro i hi
    rw [BitVec.getLsbD_extractLsb', getLsbD_encodeMicro]
    grind

theorem fld_encodeMicro {op : Nat} (hop : op < 64) (m : Micro) : fld (encodeMicro op m) 58 6 = op := by
  have h : (encodeMicro op m).extractLsb' 58 6 = BitVec.ofNat 6 op := by
    apply BitVec.eq_of_getLsbD_eq
    intro i hi
    rw [BitVec.getLsbD_extractLsb', getLsbD_encodeMicro]
    grind
  rw [fld, h, BitVec.toNat_ofNat, Nat.mod_eq_of_lt hop]
end Sys2Proof
end

section
/-! PROOF. Decode and encode agree (R57, R63 to R66, R78 to R83, R208). -/

namespace Sys2Proof

open Sys2Proof.Machine

/-! ### What is coded reads back -/

/-- A slot has an instruction whose word needs a unit: any slot where it needs none, and the second of two like units. -/
def Fits (u : Option UnitName) (v : UnitName) : Prop :=
  u = none ∨ u = some v ∨ u = some .va ∧ v = .vb ∨ u = some .ca ∧ v = .cb

/-- Every slot that has an instruction reads its slot word as the instruction. -/
def Instr.Reads (i : Instr) : Prop :=
  ∀ (u : Option UnitName) (im : Bool) (w : SlotWord), encode i = .slot u im w → ∀ v, Fits u v → decodeSlot v im w = some i

/-- Like units have the same trigger ports. -/
theorem triggerPort_fits {u v : UnitName} (h : Fits (some u) v) (hs : Slot) (x d : Nat) :
    triggerPort v hs x d = triggerPort u hs x d := by
  rcases h with h | h | ⟨h, rfl⟩ | ⟨h, rfl⟩ <;> cases h <;> rfl

theorem withA_code (a : Src) (k : Src → Instr) : withA a.code k = some (k a) := by rw [withA, Src.ofCode?_code]; rfl

/-- A trigger of one unit with operand A reads back. -/
theorem reads_trigger {u : UnitName} {h : Slot} {d : Nat} {a : Src} (k : Src → Instr) (hd : d < 512)
    (he : encode (k a) = .slot (some u) false (encodeMove h d a.code)) (hp : triggerPort u h a.code d = withA a.code k) :
    (k a).Reads := by
  intro u' im w e v hv
  rw [he] at e
  cases e
  rw [decodeSlot_encodeMove (by omega) (Laws.Encoding.source_code_lt a), if_pos hd, triggerPort_fits hv, hp, withA_code]

/-- A trigger of one unit without operand A reads back. -/
theorem reads_bare {u : UnitName} {h : Slot} {d : Nat} {i : Instr} (hd : d < 512)
    (he : encode i = .slot (some u) false (encodeMove h d 0)) (hp : triggerPort u h 0 d = bare 0 i) : i.Reads := by
  intro u' im w e v hv
  rw [he] at e
  cases e
  rw [decodeSlot_encodeMove (by omega) (by omega), if_pos hd, triggerPort_fits hv, hp]
  rfl

/-- A move to a destination reads back. -/
theorem reads_destination {h : Slot} {d : Nat} {a : Src} (k : Src → Instr) (hlow : 512 ≤ d) (hd : d < 1024)
    (he : encode (k a) = .slot none false (encodeMove h d a.code)) (hp : destination h a.code (d - 512) = withA a.code k) :
    (k a).Reads := by
  intro u' im w e v _
  rw [he] at e
  cases e
  rw [decodeSlot_encodeMove hd (Laws.Encoding.source_code_lt a), if_neg (by omega), hp, withA_code]

/-- An event or a micro-operation has no slot word. -/
theorem reads_of_noSlot {i : Instr} (h : ∀ u im w, encode i ≠ .slot u im w) : i.Reads :=
  fun u im w e => absurd e (h u im w)

/-- An immediate reads back. -/
theorem reads_imm {stop : Bool} {sel : Nat} {imm : BitVec 20} {i : Instr}
    (he : encode i = .slot none true (encodeImm stop sel imm))
    (hp : ∀ v, decodeSlot v true (encodeImm stop sel imm) = some i) : i.Reads := by
  intro u' im w e v _
  rw [he] at e
  cases e
  exact hp v

/-- A NOP reads back in every slot. -/
theorem reads_nop (h : Slot) : (Instr.nop h).Reads := by
  intro u im w e v _
  cases e
  rw [decodeSlot_encodeMove (by omega) (by omega)]
  rfl

/-- What the destinations with a number read (R63, R64). -/
theorem destination_operandPort (h : Slot) (x : Nat) (u : UnitName) (p : OpPort) :
    destination h x (512 + u.code * 16 + p.code * 4 - 512) = withA x (.moveOperandPort h u p) := by
  cases u <;> cases p <;> rfl
theorem destination_scalar (h : Slot) (x : Nat) (n : Fin 32) :
    destination h x (640 + n - 512) = withA x (.moveScalar h n) := by fin_cases n <;> rfl
theorem destination_vector (h : Slot) (x : Nat) (n : Fin 16) :
    destination h x (768 + n - 512) = withA x (.moveVector h n) := by fin_cases n <;> rfl
theorem destination_predicate (h : Slot) (x : Nat) (n : Fin 8) :
    destination h x (784 + n - 512) = withA x (.movePredicate h n) := by fin_cases n <;> rfl
theorem destination_lc (h : Slot) (x : Nat) (n : Fin 6) :
    destination h x (896 + n - 512) = withA x (.moveLc h n) := by fin_cases n <;> rfl
theorem destination_lb (h : Slot) (x : Nat) (n : Fin 6) :
    destination h x (904 + n - 512) = withA x (.moveLb h n) := by fin_cases n <;> rfl

/-- What the engine port's numbered triggers read (R82). -/
theorem enginePort_mxcall (h : Slot) (x : Nat) (n : Fin 256) :
    triggerPort .en h x (256 + n) = withA x (.mxcall h n) := by
  have hn : Fin.ofNat 256 (256 + n.val - 256) = n := by ext; simp
  simp only [triggerPort, enginePort, hn, show ¬ 256 + n.val = 0 by omega, show 256 ≤ 256 + n.val by omega, if_true, if_false]
theorem enginePort_mpset (h : Slot) (x : Nat) (n : Fin 8) :
    triggerPort .en h x (8 + n) = withA x (.mpset h n) := by fin_cases n <;> rfl
theorem enginePort_mpget (h : Slot) (x : Nat) (n : Fin 8) :
    triggerPort .en h x (16 + n) = bare x (.mpget h n) := by fin_cases n <;> rfl

/-- Every well-formed instruction reads back from its slot word. -/
theorem reads_of_wf (i : Instr) (hwf : i.wf = true) : i.Reads := by
  cases i with
  | nop h => exact reads_nop h
  | moveOperandPort h u p a =>
    exact reads_destination (.moveOperandPort h u p) (by omega) (by cases u <;> cases p <;> decide) rfl
      (destination_operandPort h _ u p)
  | moveScalar h n a => exact reads_destination (.moveScalar h n) (by omega) (by omega) rfl (destination_scalar h _ n)
  | moveVector h n a => exact reads_destination (.moveVector h n) (by omega) (by omega) rfl (destination_vector h _ n)
  | movePredicate h n a => exact reads_destination (.movePredicate h n) (by omega) (by omega) rfl (destination_predicate h _ n)
  | moveLc h n a => exact reads_destination (.moveLc h n) (by omega) (by omega) rfl (destination_lc h _ n)
  | moveLb h n a => exact reads_destination (.moveLb h n) (by omega) (by omega) rfl (destination_lb h _ n)
  | moveSlk h a => exact reads_destination (.moveSlk h) (by decide) (by decide) rfl rfl
  | moveCbx h a => exact reads_destination (.moveCbx h) (by decide) (by decide) rfl rfl
  | immBindBInt stop imm | immBindCInt stop imm | immBindBF32 stop imm | immBindCF32 stop imm | immBindBF64 stop imm
  | immBindCF64 stop imm | immSetLb stop imm => exact reads_imm rfl fun v => decodeSlot_encodeImm (by decide)
  | add h a | sub h a | and h a | or h a | xor h a | andn h a | shl h a | shr h a | sar h a | mul h a | mulh h a
  | mulhu h a | div h a | divu h a | rem h a | remu h a | min h a | minu h a | max h a | maxu h a | clz h a | ctz h a
  | popc h a | sext h a | zext h a | lea h a | bfx h a | bfi h a | cmpeq h a | cmpne h a | cmplt h a | cmple h a
  | cmpltu h a | cmpleu h a | fcmpeq h a | fcmplt h a | fcmple h a | fcmpun h a | fadd h a | fsub h a | fmul h a
  | ffma h a | fdiv h a | fsqrt h a | fmin h a | fmax h a | fabs h a | fneg h a | fcvtI64 h a | fcvtF64 h a | ldb h a
  | ldbu h a | ldh h a | ldhu h a | ldw h a | ldwu h a | ldd h a | stb h a | sth h a | stw h a | std h a | ldwCl h a
  | lddCl h a | stwCl h a | stdCl h a | aadd h a | aand h a | aor h a | axor h a | amin h a | amax h a | aswap h a
  | acas h a | aaddCl h a | aandCl h a | aorCl h a | axorCl h a | aminCl h a | amaxCl h a | aswapCl h a | acasCl h a
  | cld h a | redadd h a | redmax h a | redmin h a | vmaxi h a | vmini h a | perm h a | bcast h a | sel h a | vld h a
  | vst h a | vldt h a | vldCl h a | vstCl h a | gath h a | scat h a | fpset h a | fpflush h a | trowE8 h a
  | trowE16 h a | trowE32 h a | trowE64 h a | mxload h a | xplan h a | xfft h a | xffti h a | xlegf h a | xlegi h a
  | xshtf h a | xshti h a | cpyN h a | cpyNd h a | ceGath h a | ceScat h a | accLd h a | accSt h a | gaAdd h a
  | gaAnd h a | gaOr h a | gaXor h a | gaMin h a | gaMax h a | gaSwap h a | gaCas h a | mcst h a | wbr h a | invr h a
  | pref h a | waitany h a | waitall h a | ffr h a | clrtag h a | bcInit h a | arriveExp h a | bcSub h a | bcWait h a
  | xcoll h a | ttready h a | catArm h a | catDisarm h a | waitid h a | jmp h a | jmpr h a | call h a | callr h a
  | ret h a | loop h a | loopx h a | nest h a | slack h a | bar h a | tkpost h a | cbr h a | agjoin h a | agleave h a
  | agexcuse h a | rdsr h a | wrsr h a => exact reads_trigger _ (by decide) rfl rfl
  | tdrain h | tclr h | mxq h | heart h | retire h | csync h | tret h | fenceScDevice h | fenceScDomain h => exact reads_bare (by decide) rfl rfl
  | addF h e a =>
    have he : e ≠ .f64 := of_decide_eq_true hwf
    exact reads_trigger (.addF h e) (by cases e <;> decide) rfl (by cases e <;> first | contradiction | rfl)
  | subF h e a | mulF h e a | fmaF h e a | fmsF h e a | fnmaF h e a | minF h e a | maxF h e a | absF h e a | negF h e a
  | cmpeqF h e a | cmpltF h e a | cmpleF h e a | cmpunF h e a => exact reads_trigger (fun a => _) (by cases e <;> decide) rfl (by cases e <;> rfl)
  | divF h e a =>
    have he : e = .f64 ∨ e = .f32 := by cases e <;> first | exact .inl rfl | exact .inr rfl | cases hwf
    exact reads_trigger (.divF h e) (by cases e <;> decide) rfl (by rcases he with rfl | rfl <;> rfl)
  | sqrtF h e a =>
    have he : e = .f64 ∨ e = .f32 := by cases e <;> first | exact .inl rfl | exact .inr rfl | cases hwf
    exact reads_trigger (.sqrtF h e) (by cases e <;> decide) rfl (by rcases he with rfl | rfl <;> rfl)
  | iadd h e a | isub h e a | iadds h e a | iaddsu h e a | isubs h e a | isubsu h e a | imul h e a | imulh h e a
  | imulhu h e a | imin h e a | iminu h e a | imax h e a | imaxu h e a | vecAnd h e a | vecOr h e a | vecXor h e a
  | vecAndn h e a | vecShl h e a | vecShr h e a | vecSar h e a | icmpeq h e a | icmplt h e a | icmpltu h e a
  | iabs h e a | vecPopc h e a | vecClz h e a => exact reads_trigger (fun a => _) (by cases e <;> decide) rfl (by cases e <;> rfl)
  | cvt h t a =>
    exact reads_trigger (.cvt h t) (by cases t <;> first | decide | (rename_i e; cases e <;> decide)) rfl
      (by cases t <;> first | rfl | (rename_i e; cases e <;> rfl))
  | cvtsc h t a =>
    exact reads_trigger (.cvtsc h t) (by cases t <;> first | decide | (rename_i e; cases e <;> decide)) rfl
      (by cases t <;> first | rfl | cases hwf | (rename_i e; cases e <;> first | rfl | cases hwf))
  | cvtsr h t a =>
    exact reads_trigger (.cvtsr h t) (by cases t <;> first | decide | (rename_i e; cases e <;> decide)) rfl
      (by cases t <;> first | cases hwf | (rename_i e; cases e <;> first | rfl | cases hwf))
  | mpset h n a => exact reads_trigger (.mpset h n) (by omega) rfl (enginePort_mpset h _ n)
  | mpget h n => exact reads_bare (by omega) rfl (enginePort_mpget h _ n)
  | mxcall h n a => exact reads_trigger (.mxcall h n) (by omega) rfl (enginePort_mxcall h _ n)
  | fenceAcq h sc | fenceRel h sc | fenceAr h sc =>
    exact reads_bare (by cases sc <;> decide) rfl (by cases sc <;> rfl)
  | _ => exact reads_of_noSlot fun _ _ _ e => nomatch e

/-! ### What is read codes back -/

/-- An instruction is well formed and has the slot word of a trigger of a unit. -/
def Instr.Coded (i : Instr) (u : Option UnitName) (h : Slot) (d x : Nat) : Prop :=
  i.wf = true ∧ encode i = .slot u false (encodeMove h d x)

theorem coded_withA {u : Option UnitName} {h : Slot} {d x : Nat} {k : Src → Instr} {i : Instr} (hx : x < 512)
    (hk : ∀ a, (k a).Coded u h d a.code) (e : withA x k = some i) : i.Coded u h d x := by
  obtain ⟨a, ha, rfl⟩ := withA_eq_some e
  rw [← Src.code_of_ofCode? hx ha]
  exact hk a

theorem coded_bare {u : Option UnitName} {h : Slot} {d x : Nat} {i j : Instr} (hj : j.Coded u h d 0)
    (e : bare x j = some i) : i.Coded u h d x := by
  obtain ⟨rfl, rfl⟩ := bare_eq_some e
  exact hj

theorem scalarPort_coded {h : Slot} {x d : Nat} {i : Instr} (hx : x < 512) (e : scalarPort h x d = some i) :
    i.Coded (some .sc) h d x := by
  unfold scalarPort at e
  split at e
  on_goal -1 => cases e
  all_goals exact coded_withA hx (fun _ => ⟨rfl, rfl⟩) e

theorem controlPort_coded {h : Slot} {x d : Nat} {i : Instr} (hx : x < 512) (e : controlPort h x d = some i) :
    i.Coded (some .ct) h d x := by
  unfold controlPort at e
  split at e
  on_goal -1 => cases e
  all_goals first
    | exact coded_withA hx (fun _ => ⟨rfl, rfl⟩) e
    | exact coded_bare ⟨rfl, rfl⟩ e

theorem transposerPort_coded {h : Slot} {x d : Nat} {i : Instr} (hx : x < 512) (e : transposerPort h x d = some i) :
    i.Coded (some .tr) h d x := by
  unfold transposerPort at e
  split at e
  on_goal -1 => cases e
  all_goals first
    | exact coded_withA hx (fun _ => ⟨rfl, rfl⟩) e
    | exact coded_bare ⟨rfl, rfl⟩ e

theorem copyPort_coded {h : Slot} {x d : Nat} {i : Instr} (hx : x < 512) (e : copyPort h x d = some i) :
    i.Coded (some .ca) h d x := by
  unfold copyPort at e
  split at e
  on_goal -1 => cases e
  all_goals exact coded_withA hx (fun _ => ⟨rfl, rfl⟩) e

theorem engineLowPort_coded {h : Slot} {x d : Nat} {i : Instr} (hx : x < 512) (e : engineLowPort h x d = some i) :
    i.Coded (some .en) h d x := by
  unfold engineLowPort at e
  split at e
  on_goal -1 => cases e
  all_goals first
    | exact coded_withA hx (fun _ => ⟨rfl, rfl⟩) e
    | exact coded_bare ⟨rfl, rfl⟩ e

theorem enginePort_coded {h : Slot} {x d : Nat} {i : Instr} (hx : x < 512) (hd : d < 512) (e : enginePort h x d = some i) :
    i.Coded (some .en) h d x := by
  unfold enginePort at e
  split at e
  · have hn : 256 + (Fin.ofNat 256 (d - 256)).val = d := by simp only [Fin.ofNat]; omega
    exact coded_withA hx (fun a => ⟨rfl, by rw [encode, hn]⟩) e
  · split at e
    · have hn : 8 + (Fin.ofNat 8 (d - 8)).val = d := by simp only [Fin.ofNat]; omega
      exact coded_withA hx (fun a => ⟨rfl, by rw [encode, hn]⟩) e
    · split at e
      · have hn : 16 + (Fin.ofNat 8 (d - 16)).val = d := by simp only [Fin.ofNat]; omega
        exact coded_bare ⟨rfl, by rw [encode, hn]⟩ e
      · exact engineLowPort_coded hx e

theorem fpPort_coded {h : Slot} {x n : Nat} {f : FpFmt} {i : Instr} (hx : x < 512) (hn : n = 0 → f ≠ .f64)
    (e : fpPort h x f n = some i) : i.Coded (some .va) h (16 * n + f.code) x := by
  unfold fpPort at e
  split at e
  · exact coded_withA (k := .addF h f) hx (fun _ => ⟨decide_eq_true (hn rfl), rfl⟩) e
  case h_9 | h_10 =>
    split at e
    · have hf : f = .f64 ∨ f = .f32 := ‹_›
      rcases hf with rfl | rfl <;> exact coded_withA hx (fun _ => ⟨rfl, rfl⟩) e
    · cases e
  case h_17 => cases e
  all_goals exact coded_withA hx (fun _ => ⟨rfl, rfl⟩) e

theorem intPort_coded {h : Slot} {x n : Nat} {w : IntW} {i : Instr} (hx : x < 512) (e : intPort h x w n = some i) :
    i.Coded (some .va) h (256 + 4 * n + w.code) x := by
  unfold intPort at e
  split at e
  on_goal -1 => cases e
  all_goals exact coded_withA hx (fun _ => ⟨rfl, rfl⟩) e

theorem cvtPort_coded {h : Slot} {x n : Nat} {t : CvtT} {i : Instr} (hx : x < 512) (e : cvtPort h x t n = some i) :
    i.Coded (some .va) h (384 + 32 * n + t.code) x := by
  unfold cvtPort at e
  split at e
  · exact coded_withA hx (fun _ => ⟨rfl, rfl⟩) e
  · split at e
    · exact coded_withA hx (fun _ => ⟨‹_›, rfl⟩) e
    · cases e
  · split at e
    · exact coded_withA hx (fun _ => ⟨‹_›, rfl⟩) e
    · cases e
  · cases e

theorem vectorHighPort_coded {h : Slot} {x d : Nat} {i : Instr} (hx : x < 512) (e : vectorHighPort h x d = some i) :
    i.Coded (some .va) h d x := by
  unfold vectorHighPort at e
  split at e
  on_goal -1 => cases e
  all_goals exact coded_withA hx (fun _ => ⟨rfl, rfl⟩) e

theorem vectorPort_coded {h : Slot} {x d : Nat} {i : Instr} (hx : x < 512) (hd : d ≠ 0) (e : vectorPort h x d = some i) :
    i.Coded (some .va) h d x := by
  unfold vectorPort at e
  split at e
  · obtain ⟨f, hf, e⟩ := Option.bind_eq_some_iff.1 e
    have hc := FpFmt.code_of_ofCode? hf
    have hd' : 16 * (d / 16) + f.code = d := by omega
    have hcoded := fpPort_coded hx (fun h0 hf64 => by subst hf64; exact hd (by rw [← hd', h0]; rfl)) e
    rwa [hd'] at hcoded
  · split at e
    · have hc := IntW.code_ofCode (show d % 4 < 4 by omega)
      have hcoded := intPort_coded hx e
      rwa [show 256 + 4 * ((d - 256) / 4) + (IntW.ofCode (d % 4)).code = d by omega] at hcoded
    · split at e
      · obtain ⟨t, ht, e⟩ := Option.bind_eq_some_iff.1 e
        have hc := CvtT.code_of_ofCode? ht
        have hcoded := cvtPort_coded hx e
        rwa [show 384 + 32 * ((d - 384) / 32) + t.code = d by omega] at hcoded
      · exact vectorHighPort_coded hx e

/-- What a trigger port reads is coded by its D and X fields, for a unit whose ports these are. -/
theorem triggerPort_coded {v : UnitName} {h : Slot} {x d : Nat} {i : Instr} (hx : x < 512) (hd : d < 512)
    (e : triggerPort v h x d = some i) : ∃ u, i.Coded u h d x ∧ Fits u v := by
  unfold triggerPort at e
  split at e
  · subst d
    exact ⟨none, coded_bare ⟨rfl, rfl⟩ e, .inl rfl⟩
  · cases v with
    | sc => exact ⟨some .sc, scalarPort_coded hx e, .inr (.inl rfl)⟩
    | va => exact ⟨some .va, vectorPort_coded hx ‹_› e, .inr (.inl rfl)⟩
    | vb => exact ⟨some .va, vectorPort_coded hx ‹_› e, .inr (.inr (.inl ⟨rfl, rfl⟩))⟩
    | en => exact ⟨some .en, enginePort_coded hx hd e, .inr (.inl rfl)⟩
    | ca => exact ⟨some .ca, copyPort_coded hx e, .inr (.inl rfl)⟩
    | cb => exact ⟨some .ca, copyPort_coded hx e, .inr (.inr (.inr ⟨rfl, rfl⟩))⟩
    | tr => exact ⟨some .tr, transposerPort_coded hx e, .inr (.inl rfl)⟩
    | ct => exact ⟨some .ct, controlPort_coded hx e, .inr (.inl rfl)⟩

theorem specialPort_coded {h : Slot} {x c : Nat} {i : Instr} (hx : x < 512) (e : specialPort h x c = some i) :
    i.Coded none h (896 + c) x := by
  unfold specialPort at e
  split at e
  · have hn : (Fin.ofNat 6 c).val = c := by simp only [Fin.ofNat]; omega
    exact coded_withA hx (fun a => ⟨rfl, by rw [encode, hn]⟩) e
  · split at e
    · have hn : 904 + (Fin.ofNat 6 (c - 8)).val = 896 + c := by simp only [Fin.ofNat]; omega
      exact coded_withA hx (fun a => ⟨rfl, by rw [encode, hn]⟩) e
    · split at e
      · subst c; exact coded_withA hx (fun _ => ⟨rfl, rfl⟩) e
      · split at e
        · subst c; exact coded_withA hx (fun _ => ⟨rfl, rfl⟩) e
        · cases e

/-- What a destination reads is coded by its D and X fields. -/
theorem destination_coded {h : Slot} {x d : Nat} {i : Instr} (hx : x < 512) (hd : d < 512)
    (e : destination h x d = some i) : i.Coded none h (512 + d) x := by
  unfold destination at e
  split at e
  case h_1 hq =>
    split at e
    · obtain ⟨p, hp, e⟩ := Option.bind_eq_some_iff.1 e
      have hc := OpPort.code_of_ofCode? hp
      have hu := UnitName.code_ofCode (show d / 16 % 8 < 8 by omega)
      have hn : 512 + (UnitName.ofCode (d / 16 % 8)).code * 16 + p.code * 4 = 512 + d := by omega
      exact coded_withA hx (fun a => ⟨rfl, by rw [encode, hn]⟩) e
    · cases e
  case h_2 hq =>
    split at e
    · have hn : 640 + (Fin.ofNat 32 (d % 32)).val = 512 + d := by simp only [Fin.ofNat]; omega
      exact coded_withA hx (fun a => ⟨rfl, by rw [encode, hn]⟩) e
    · cases e
  case h_3 hq =>
    split at e
    · cases e
    · split at e
      · have hn : 768 + (Fin.ofNat 16 (d % 16)).val = 512 + d := by simp only [Fin.ofNat]; omega
        exact coded_withA hx (fun a => ⟨rfl, by rw [encode, hn]⟩) e
      · split at e
        · have hn : 784 + (Fin.ofNat 8 (d % 8)).val = 512 + d := by simp only [Fin.ofNat]; omega
          exact coded_withA hx (fun a => ⟨rfl, by rw [encode, hn]⟩) e
        · cases e
  case h_4 _ h0 h1 h2 =>
    have htop : d / 128 ≠ 0 ∧ d / 128 ≠ 1 ∧ d / 128 ≠ 2 := ⟨h0, h1, h2⟩
    have hcoded := specialPort_coded hx e
    rwa [show 896 + d % 128 = 512 + d by omega] at hcoded

/-- What a slot reads is well formed and coded by the word it was read from. -/
theorem decodeSlot_coded {v : UnitName} {im : Bool} {w : SlotWord} {i : Instr} (e : decodeSlot v im w = some i) :
    i.wf = true ∧ ∃ u, encode i = .slot u im w ∧ Fits u v := by
  cases im with
  | true =>
    have hw := encodeImm_fields w
    simp only [decodeSlot, decodeImm, if_true] at e
    split at e
    case h_8 => cases e
    all_goals
      rename_i hsel
      rw [hsel] at hw
      cases e
      exact ⟨rfl, none, by rw [encode, hw], .inl rfl⟩
  | false =>
    have hw := encodeMove_slotFields w
    have hx : bitsAt w.toNat 0 9 < 512 := by rw [bitsAt]; omega
    have h9 : bitsAt w.toNat 9 9 < 512 := by rw [bitsAt]; omega
    simp only [decodeSlot, decodeMove, Bool.false_eq_true, if_false] at e
    split at e
    case isTrue h18 =>
      obtain ⟨u, ⟨hwf, henc⟩, hfits⟩ := triggerPort_coded hx h9 e
      rw [show bitsAt w.toNat 9 9 = bitsAt w.toNat 9 10 by simp only [bitsAt] at *; omega, hw] at henc
      exact ⟨hwf, u, henc, hfits⟩
    case isFalse h18 =>
      obtain ⟨hwf, henc⟩ := destination_coded hx h9 e
      rw [show 512 + bitsAt w.toNat 9 9 = bitsAt w.toNat 9 10 by simp only [bitsAt] at *; omega, hw] at henc
      exact ⟨hwf, none, henc, .inl rfl⟩

/-! ### Micro-words -/

/-- A micro-word reads as the micro-operation that it codes. -/
theorem decodeMicro_of_encode {i : Instr} {w : Word} (e : encode i = .micro w) : decodeMicro w = some i := by
  cases i with
  | mnop m | mend m | mseta m | madd m | msetc m | mloop m | mjmp m | mlda m | mldb m | mldsa m | mldsw m | mlde m
  | mldm m | mstr m | mzero m | mstacc m | mldacc m =>
    cases e
    rw [decodeMicro, fld_encodeMicro (by decide), microFields_encodeMicro]
    rfl
  | _ => cases e

/-- The micro-operation that a micro-word reads as is coded by it. -/
theorem encode_of_decodeMicro {i : Instr} {w : Word} (e : decodeMicro w = some i) : encode i = .micro w := by
  unfold decodeMicro at e
  split at e
  on_goal -1 => cases e
  all_goals
    cases e
    rw [encode, encodeMicro_microFields ‹_›]

/-- Settles O4: every well-formed instruction reads back, and every word read is coded by its fields. -/
theorem encodingRoundTrips : Obligations.EncodingRoundTrips :=
  ⟨fun i u im w hwf e v hv => reads_of_wf i hwf u im w e v hv, fun _ _ _ _ e => decodeSlot_coded e,
    fun _ _ e => decodeMicro_of_encode e, fun _ _ e => encode_of_decodeMicro e⟩

end Sys2Proof
end

section
/-! PROOF. What a trigger takes from a plain source, from a token source and from its ports (R57 to R71, R148, R160). -/

namespace Sys2Proof.Machine

/-! ### Ports that read no stream -/

/-- A port that reads no stream has the kind of what it holds. -/
theorem Frame.portKind_of_plain {f : Frame} {u : UnitName} {p : OpPort} (h : f.plainPort u p = true) :
    f.portKind u p = .ok (f.portNow u p).kind := by
  simp only [Frame.plainPort, Frame.portStream] at h
  simp only [Frame.portKind, Frame.portNow]
  cases hs : (f.port u p).supply with
  | some v => rfl
  | none =>
    cases hb : (f.port u p).bind with
    | none => rfl
    | some l =>
      cases l with
      | value v => rfl
      | stream x q => simp [hs, hb] at h

/-- The kind of a port that reads no stream, where the operation uses it. -/
theorem Frame.usedKind_of_plain {f : Frame} {u : UnitName} {p : OpPort} (h : f.plainPort u p = true) (used : Bool) :
    f.usedKind u p used = .ok (if used then (f.portNow u p).kind else .untyped) := by
  cases used
  · rfl
  · exact f.portKind_of_plain h

/-- A port that reads no stream delivers what it holds, and nothing is popped. -/
theorem Fetch.portValue_of_plain {k : Fetch} {f : Frame} {u : UnitName} {p : OpPort} (hk : k.f.c.ports = f.c.ports)
    (h : f.plainPort u p = true) (used : Bool) : k.portValue u p used = .ok (.val (f.portNow u p), k) := by
  have hport : k.f.port u p = f.port u p := by rw [Frame.port, Frame.port, hk]
  simp only [Frame.plainPort, Frame.portStream] at h
  simp only [Fetch.portValue, Frame.portNow, hport]
  cases hs : (f.port u p).supply with
  | some v => rfl
  | none =>
    cases hb : (f.port u p).bind with
    | none => rfl
    | some l =>
      cases l with
      | value v => rfl
      | stream x q => simp [hs, hb] at h

/-! ### A trigger whose operand A has come -/

/-- A trigger gathers operand A as its source delivers it, and its ports as they stand. -/
theorem Frame.gather_of_plain {f g : Frame} {trig : Trig} {a : Src} {kind : Kind} {v : Val} {k : Fetch} (ha : trig.a = some a)
    (hp : ∀ p, f.plainPort trig.u p = true) (ht : f.touchAll (f.trigUnits trig) = .ok g) (hkind : f.kind a.src = .ok kind)
    (hkinds : trig.kinds f kind (if trig.b then (f.portNow trig.u .b).kind else .untyped)
      (if trig.c then (f.portNow trig.u .c).kind else .untyped) = true)
    (hready : g.argReady (some a) = .ok ()) (harg : (⟨g, [], [], none⟩ : Fetch).arg (some a) = .ok (.val v, k))
    (hports : k.f.c.ports = f.c.ports) : f.gather trig = .ok (f.argsNow trig.u v, k) := by
  have hak : f.argKind (some a) = .ok kind := hkind
  simp only [Frame.gather, hak, except_ok_bind, f.usedKind_of_plain (hp _), need, hkinds, if_true, f.reachAll_of_touchAll ht,
    ha, hready, harg, Fetch.portValue_of_plain hports (hp _)]
  rfl

/-- A trigger whose unit holds nothing, with every operand delivered and nothing late, takes them. -/
theorem Frame.takes_of_plain {f : Frame} {trig : Trig} {v : Val} {k : Fetch} (hheld : f.c.held.filter (·.unit == trig.u) = [])
    (hgather : f.gather trig = .ok (f.argsNow trig.u v, k)) (hfeeds : k.feeds = []) (hcols : k.cols = []) (hfault : k.fault = none)
    (hlate : k.f.c.seq.late = []) : f.Takes trig (f.argsNow trig.u v) k false := by
  have hunit : ∀ x ∈ f.c.held, (x.unit == trig.u) = false := by simpa [List.filter_eq_nil_iff] using hheld
  have hwait : (f.argsNow trig.u v).wait = false := rfl
  have hholds : f.c.holdsOf trig.u = 0 := by
    rw [Ctx.holdsOf, List.length_eq_zero_iff, List.filter_eq_nil_iff]
    intro x hx
    simp [hunit x hx]
  have hacts : f.c.actsLater trig.u = false := by
    rw [Ctx.actsLater, List.any_eq_false]
    intro x hx
    simp [hunit x hx]
  refine ⟨hgather, ?_, hfault, hlate, ?_⟩
  · simp [Frame.timing, hfeeds, hcols, hwait, hholds]
  · unfold Frame.mustWait
    cases trig.late <;> simp [hwait, hacts]

/-- A source that is no stream has the kind of its value. -/
theorem Frame.kind_of_readValue {f g : Frame} {x : Source} {v : Val} (hsnap : g.t.snap = f.t.snap)
    (hx : sourceStream x = false) (hv : g.readValue x = .ok v) : f.kind x = .ok v.kind := by
  have hsound : ∀ {p : Sram} {w : Val}, g.soundValue p w = .ok v → w = v := by
    intro p w h
    unfold Frame.soundValue at h
    split at h <;> cases h
    rfl
  cases x with
  | q n =>
    simp only [Frame.readValue] at hv
    split at hv
    · rw [← hsound hv, hsnap]; rfl
    · cases hv
  | s n => rw [← hsound hv]; rfl
  | v n => rw [← hsound hv, hsnap]; rfl
  | c n =>
    simp only [Frame.readValue] at hv
    split at hv
    · cases hv; rfl
    · split at hv <;> cases hv
      rfl
  | f n => cases hx
  | k n => cases hx
  | col => cases hx
  | _ => cases hv; rfl

/-! ### Tokens -/

/-- Popping a token leaves the rest at its port and the other ports as they were. -/
theorem Frame.tokens_after_pop {g g' : Frame} {n : Fin 4} {w : Word} {l : List Word} (hpop : g.popOnce (.k n) false = .ok g') :
    ((g'.setTokens n l).notePop n w).tokens n = l
      ∧ ∀ m : Fin 4, m ≠ n → ((g'.setTokens n l).notePop n w).tokens m = g.tokens m := by
  have hother : ∀ m : Fin 4, m ≠ n → ((g'.setTokens n l).notePop n w).tokens m = g'.tokens m := by
    intro m hm
    unfold Frame.notePop
    fin_cases n <;> fin_cases m <;> first | exact absurd rfl hm | (split <;> rfl)
  have hsame : ∀ m : Fin 4, g'.tokens m = g.tokens m := by
    simp only [Frame.popOnce] at hpop
    split at hpop <;> cases hpop
    exact fun m => rfl
  refine ⟨?_, fun m hm => (hother m hm).trans (hsame m)⟩
  unfold Frame.notePop
  fin_cases n <;> split <;> rfl

/-- A token may be popped that no other slot of the group pops through a binding. -/
theorem Frame.popOnce_of {g : Frame} {x : Source} (h : ∀ p ∈ g.c.seq.pops, p.2.1 = x → p.1 = g.c.seq.slot ∨ p.2.2 = false) :
    ∃ g', g.popOnce x false = .ok g' := by
  have hany : (g.c.seq.pops.any fun p => p.2.1 == x && p.1 != g.c.seq.slot && (false || p.2.2)) = false := by
    rw [List.any_eq_false]
    intro p hp
    by_cases hx : p.2.1 = x
    · rcases h p hp hx with h | h <;> simp [h]
    · simp [hx]
  exact ⟨_, by simp only [Frame.popOnce, hany, Bool.false_eq_true, if_false]; rfl⟩

theorem Frame.setTokens_notePop_ports (g : Frame) (n : Fin 4) (l : List Word) (w : Word) :
    ((g.setTokens n l).notePop n w).c.ports = g.c.ports ∧ ((g.setTokens n l).notePop n w).c.seq = g.c.seq := by
  unfold Frame.notePop Frame.setTokens
  constructor <;> split <;> split <;> rfl

theorem Frame.popOnce_ports {g g' : Frame} {x : Source} {b : Bool} (h : g.popOnce x b = .ok g') :
    g'.c.ports = g.c.ports ∧ g'.c.seq.late = g.c.seq.late := by
  simp only [Frame.popOnce] at h
  split at h <;> cases h
  exact ⟨rfl, rfl⟩

/-- Settles O6: operand A by its source, the ports by what they hold, and lanes by `broadcast_lane` and `laneVec_lane`. -/
theorem operandsDeliver : Obligations.OperandsDeliver := by
  refine ⟨fun f g trig a ha hp ht hheld hlate => ⟨fun v hs hv hkinds => ?_, fun n w l hsrc hmode htok hpops hkinds => ?_⟩, ?_⟩
  · have hc := Frame.touchAll_ctx ht
    have hsnap := (Frame.touchAll_delivered ht).snap
    have hready : g.argReady (some a) = .ok () := by simp only [Frame.argReady, hs, hv, Except.map]; rfl
    have harg : (⟨g, [], [], none⟩ : Fetch).arg (some a) = .ok (.val v, ⟨g, [], [], none⟩) := by
      simp only [Fetch.arg, Fetch.source]
      split
      · rename_i e; rw [e] at hs; cases hs
      · rename_i e; rw [e] at hs; cases hs
      · rename_i e; rw [e] at hs; cases hs
      · rw [hv]
    have hgather := f.gather_of_plain ha hp ht (Frame.kind_of_readValue hsnap hs hv) hkinds hready harg (by rw [hc])
    exact ⟨_, Frame.takes_of_plain hheld hgather rfl rfl rfl (by rw [hc]; exact hlate), rfl, rfl⟩
  · have hc := Frame.touchAll_ctx ht
    obtain ⟨g', hpop⟩ := Frame.popOnce_of hpops
    have hready : g.argReady (some a) = .ok () := by simp only [Frame.argReady, hsrc]; rfl
    have harg : (⟨g, [], [], none⟩ : Fetch).arg (some a)
        = .ok (.val (.untyped w), ⟨(g'.setTokens n l).notePop n w, [], [], none⟩) := by
      simp only [Fetch.arg, Fetch.source, hsrc, hmode, modePeeks, Fetch.token, htok, hpop, Bool.not_false, if_true]
    have hkind : f.kind a.src = .ok .untyped := by rw [hsrc]; rfl
    have hkeep := Frame.setTokens_notePop_ports g' n l w
    have hpopc := Frame.popOnce_ports hpop
    have hgather := f.gather_of_plain ha hp ht hkind hkinds hready harg (by rw [hkeep.1, hpopc.1, hc])
    have htokens := Frame.tokens_after_pop (w := w) (l := l) hpop
    exact ⟨_, Frame.takes_of_plain hheld hgather rfl rfl rfl (by rw [hkeep.2, hpopc.2, hc]; exact hlate), htokens.1, rfl, htokens.2⟩
  · intro w i x hw hi
    have hdvd : w ∣ 2048 := by
      simp only [List.mem_cons, List.not_mem_nil, or_false] at hw
      rcases hw with rfl | rfl | rfl | rfl | rfl <;> decide
    exact ⟨broadcast_lane w x.toNat i hdvd hi, laneVec_lane w i hdvd hi⟩

end Sys2Proof.Machine
end

section
/-! SUPPORT. Triggers that act on memory: how their answer becomes a step's, and what an access that is checked and noted
leaves as it was (R122, R128, R162, R348). -/

namespace Sys2Proof.Machine

/-! ### From a trigger to a step -/

/-- A trigger whose operands are delivered and whose operation acts leaves that operation's frame, settled. -/
theorem runSlot_trigger_of_takes {h : Slot} {g : Frame → Trig} {run : Frame → Args → Except Stop (Frame × Effect)} {s : State}
    {f f' : Frame} {x : Args} {k : Fetch} {held : Bool} {e : Effect} (hr : s.Runs h f) (ht : f.Takes (g f) x k held)
    (hrun : run (k.ready (g f).u) x = .ok (f', e)) (hlate : f'.c.seq.late = []) :
    runSlot h (fun f => trigger h (g f) run f) s = .next (f'.leaves h (g f) k x held e) :=
  runSlot_of_ok hr (trigger_of_takes hr.again ht hrun hlate)

/-- A trigger whose operands are delivered and whose operation traps takes the trap with A and B (R348). -/
theorem runSlot_trigger_traps {h : Slot} {g : Frame → Trig} {run : Frame → Args → Except Stop (Frame × Effect)} {s : State}
    {f0 f : Frame} {x : Args} {k : Fetch} {held : Bool} {q : TrapRec} (h0 : s.frame = some f0) (hr : s.Runs h f)
    (ht : f.Takes (g f) x k held) (hrun : run (k.ready (g f).u) x = .error (.trap q)) :
    runSlot h (fun f => trigger h (g f) run f) s
      = .next (takeTrap f0.begin { q with opa := x.a.low, opb := x.b.low } false) := by
  obtain ⟨f1, h1, hs⟩ := runSlot_of_trap (body := fun f => trigger h (g f) run f) hr (trigger_traps hr.again ht hrun)
  cases h0.symm.trans h1
  exact hs

/-- The trap of a check that records an address. -/
theorem runSlot_trigger_trapAt {h : Slot} {g : Frame → Trig} {run : Frame → Args → Except Stop (Frame × Effect)} {s : State}
    {f0 f : Frame} {x : Args} {k : Fetch} {held : Bool} (c : Cause) (addr : Nat) (h0 : s.frame = some f0) (hr : s.Runs h f)
    (ht : f.Takes (g f) x k held) (hrun : run (k.ready (g f).u) x = .error (trapAt c 0 addr)) :
    runSlot h (fun f => trigger h (g f) run f) s = .next (takeTrap f0.begin ⟨c.code, 0, addr, x.a.low, x.b.low, none⟩ false) :=
  runSlot_trigger_traps h0 hr ht hrun

/-- A check that fails stops what follows it. -/
theorem need_false_bind {α : Type} {b : Bool} {e : Stop} {f : Unit → Except Stop α} (hb : b = false) :
    (need b e >>= f) = .error e := by
  subst hb; rfl

/-- A check that passes lets go on what follows it. -/
theorem need_true_bind {α : Type} {b : Bool} {e : Stop} {f : Unit → Except Stop α} (hb : b = true) :
    (need b e >>= f) = f () := by
  subst hb; rfl

/-! ### What delivery and the consuming of supplies keep -/

/-- What the frame after delivery has kept of the slot's own. -/
theorem Frame.Takes.ready_delivered {f : Frame} {g : Trig} {x : Args} {k : Fetch} {held : Bool} (h : f.Takes g x k held) :
    f.Delivered k.f := Frame.gather_delivered h.1

theorem Frame.Takes.ready_late {f : Frame} {g : Trig} {x : Args} {k : Fetch} {held : Bool} (h : f.Takes g x k held)
    (u : UnitName) : (k.ready u).c.seq.late = [] := h.2.2.2.1

theorem Fetch.ready_registers {f : Frame} {k : Fetch} (h : f.Delivered k.f) (u : UnitName) :
    f.SameRegisters (k.ready u) ∧ f.SameSpecials (k.ready u) ∧ (k.ready u).c.fpst = f.c.fpst :=
  ⟨h.registers, h.specials, h.fpst⟩

theorem Fetch.ready_again {f : Frame} {k : Fetch} (h : f.Delivered k.f) (u : UnitName) : (k.ready u).c.again = f.c.again :=
  h.again

theorem Fetch.ready_mem {f : Frame} {k : Fetch} (h : f.Delivered k.f) (u : UnitName) : (k.ready u).s.mem = f.s.mem := h.mem

theorem Fetch.ready_id {f : Frame} {k : Fetch} (h : f.Delivered k.f) (u : UnitName) : (k.ready u).c.id = f.c.id := by
  obtain ⟨_, _, h3⟩ := h
  show k.f.c.id = f.c.id
  rw [h3]

end Sys2Proof.Machine
end

section
/-! PROOF. Illegal addresses, owned blocks and illegal conversion parts trap, in the order of the checks (R128, R130, R132, R167, R169). -/

namespace Sys2Proof.Machine

/-- A scratchpad word that lies outside or is not aligned traps ALIGN. -/
theorem Frame.padWord_align {f : Frame} {addr width : Nat} {w : Bool} (h : 0x200000 ≤ addr ∨ addr % width ≠ 0) :
    f.padWord addr width w = .error (trapAt .align 0 addr) := by
  have hb : (addr < 0x200000 && addr % width == 0 : Bool) = false := by
    rcases h with h | h
    · simp [show ¬addr < 0x200000 by omega]
    · simp [h]
  rw [Frame.padWord, Frame.padPlace, need_false_bind hb]

/-- A scratchpad word of an engine-owned block traps OWNF. -/
theorem Frame.padWord_owned {f : Frame} {addr width : Nat} {w : Bool} (h1 : addr < 0x200000) (h2 : addr % width = 0)
    (h3 : f.ownerBit (addr / 4096) = true) : f.padWord addr width w = .error (trapAt .ownf 0 addr) := by
  have hb : (addr < 0x200000 && addr % width == 0 : Bool) = true := by simp [h1, h2]
  have ho : (!(f.noteChunks [addr / 16 * 16]).ownerBit (addr / 4096)) = false := by
    show (!f.ownerBit (addr / 4096)) = false
    rw [h3]; rfl
  rw [Frame.padWord, Frame.padPlace, need_true_bind hb, need_false_bind ho]

/-- A window access that passes the window's end or is not aligned traps ALIGN. -/
theorem Frame.windowCheck_align {f : Frame} {addr n align : Nat} {r w : Bool}
    (h : f.s.windowSize (clusterOf f.t.ptn) < addr + n ∨ addr % align ≠ 0) :
    f.windowCheck addr n align r w = .error (trapAt .align 0 addr) := by
  have hb : (addr + n ≤ f.s.windowSize (clusterOf f.t.ptn) && addr % align == 0 : Bool) = false := by
    rcases h with h | h
    · simp [show ¬addr + n ≤ f.s.windowSize (clusterOf f.t.ptn) by omega]
    · simp [h]
  rw [Frame.windowCheck, need_false_bind hb]

/-- An atomic outside speculation, with no confirmed store still to drain, goes on to its address. -/
theorem Frame.settled_drained_bind {α : Type} {f : Frame} {r : Except Stop α} (h1 : f.t.spec = none) (h2 : f.t.drain = []) :
    (do let _ ← f.settled; let _ ← f.drained; r) = r := by
  have hs : f.settled = .ok () := by rw [Frame.settled, h1]; rfl
  have hd : f.drained = .ok () := by rw [Frame.drained, h2]; rfl
  rw [hs, hd]; rfl

/-- A conversion whose part is out of range, or whose run origin is above 23, traps ILLENC. -/
theorem vectorCvt_illegal {o : CvtOp} {t : CvtT} {rm : BitVec 2} {lfsr : BitVec 32} {a b c d : Val}
    (h : cvtParts (cvtSourceTag o a) t.code ≤ (cvtPart o b c d).1 ∨ o = .cvtsc ∧ 23 < fld c.low 0 5) :
    vectorCvt o t rm lfsr a b c d = .error (trapOf .illenc) := by
  rw [vectorCvt, if_pos h]

/-- The part number of a conversion, from the bits that give it. -/
theorem cvtPart_eq (o : CvtOp) (b c d : Val) :
    (cvtPart o b c d).1 = if o = .cvtsc then c.low.toNat / 32 % 8 else b.low.toNat % 8 := by
  cases o <;> simp [cvtPart, fld, BitVec.extractLsb'_toNat, Nat.shiftRight_eq_div_pow]

/-- A conversion that is illegal whatever is still to come traps as it issues. -/
theorem pureRun_cvt_illegal {o : CvtOp} {t : CvtT} {f : Frame} {x : Args} (hf : f.c.fpsetWaits = false)
    (h : let y := f.guessArgs x
      cvtParts (cvtSourceTag o y.a.value) t.code ≤ (cvtPart o y.b.value y.c.value y.d.value).1
        ∨ o = .cvtsc ∧ 23 < fld y.c.value.low 0 5) :
    pureRun (.vector (.cvt o t)) f x = .error (trapOf .illenc) := by
  simp only [pureRun, hf, Bool.false_eq_true, if_false, pureCompute, vectorCompute, vectorCvt_illegal h]

/-- Settles O24: each check of an address, in its order, and the conversion's of its part. -/
theorem operandTraps : Obligations.OperandTraps := by
  refine ⟨?_, ?_, ?_, ?_, ?_⟩
  · intro p h a s f0 f x k held c pushes hp h0 hr ht hw addr
    have traps {q : Cause} (hq : (k.ready .sc).padWord addr p.1 c = .error (trapAt q 0 addr)) :
        exec (p.2.2 h a) s = .next (takeTrap f0.begin ⟨q.code, 0, addr, x.a.low, x.b.low, none⟩ false) := by
      rcases hp with ⟨hp, rfl, rfl⟩ | ⟨hp, rfl, rfl⟩
      · have hexec : exec (p.2.2 h a) s = padLoad p.1 p.2.1 h a s := by fin_cases hp <;> rfl
        exact hexec.trans (runSlot_trigger_trapAt (g := fun _ => scalarTrig a true false true) q addr h0 hr ht
          (congrArg (· >>= _) hq))
      · obtain ⟨w, b, i⟩ := p
        have hexec : exec (i h a) s = padStoreOp w h a s := by
          simp only [padStoreForms, List.mem_cons, List.not_mem_nil, or_false, Prod.mk.injEq] at hp
          rcases hp with ⟨rfl, rfl⟩ | ⟨rfl, rfl⟩ | ⟨rfl, rfl⟩ | ⟨rfl, rfl⟩ <;> rfl
        exact hexec.trans (runSlot_trigger_trapAt (g := fun _ => scalarTrig a true true false) q addr h0 hr ht
          (congrArg (· >>= _) hq))
    exact ⟨fun hbad => traps (Frame.padWord_align hbad), fun h1 h2 h3 => traps (Frame.padWord_owned h1 h2 h3)⟩
  · intro o h a s f0 f x k held h0 hr ht hw hspec hdrain addr
    have traps {q : Cause} (hq : (k.ready .sc).padWord addr 8 true = .error (trapAt q 0 addr)) :
        exec (atomicInstr h a o) s = .next (takeTrap f0.begin ⟨q.code, 0, addr, x.a.low, x.b.low, none⟩ false) := by
      have hexec : exec (atomicInstr h a o) s = padAtomic o h a s := by cases o <;> rfl
      exact hexec.trans (runSlot_trigger_trapAt (g := fun _ => atomicTrig o a 6) q addr h0 hr ht
        ((Frame.settled_drained_bind hspec hdrain).trans (congrArg (· >>= _) hq)))
    exact ⟨fun hbad => traps (Frame.padWord_align hbad), fun h1 h2 h3 => traps (Frame.padWord_owned h1 h2 h3)⟩
  · intro p h a s f0 f x k held c pushes hp h0 hr ht hw addr hbad
    have hq {r w : Bool} := Frame.windowCheck_align (r := r) (w := w) hbad
    rcases hp with ⟨hp, rfl, rfl⟩ | ⟨hp, rfl, rfl⟩
    · have hexec : exec (p.2 h a) s = windowLoad (p.1 = 8) h a s := by fin_cases hp <;> rfl
      have hn : (if decide (p.1 = 8) then 8 else 4) = p.1 := by fin_cases hp <;> rfl
      refine hexec.trans (runSlot_trigger_trapAt (g := fun _ => windowTrig a true false true false) .align addr h0 hr ht ?_)
      simp only [direct, hn]
      exact congrArg (· >>= _) hq
    · have hexec : exec (p.2 h a) s = windowStoreOp p.1 h a s := by fin_cases hp <;> rfl
      exact hexec.trans (runSlot_trigger_trapAt (g := fun _ => windowTrig a true true false true) .align addr h0 hr ht
        (congrArg (· >>= _) hq))
  · intro o h a s f0 f x k held h0 hr ht hw hspec hdrain addr hbad
    have hexec : exec (windowAtomicInstr h a o) s = windowAtomic o h a s := by cases o <;> rfl
    exact hexec.trans (runSlot_trigger_trapAt (g := fun _ => atomicTrig o a 12) .align addr h0 hr ht
      ((Frame.settled_drained_bind hspec hdrain).trans (congrArg (· >>= _) (Frame.windowCheck_align hbad))))
  · intro o h t a s f0 f x k held h0 hr ht hf y n p hbad
    have hready : (k.ready f.unit).c.fpsetWaits = false := by
      rw [← hf]
      exact congrArg (List.any · Held.isFpset) (Frame.gather_delivered ht.1).held
    have horigin : fld y.c.value.low 0 5 = y.c.value.low.toNat % 32 := by simp [fld, BitVec.extractLsb'_toNat]
    have hrun := pureRun_cvt_illegal (o := o) (t := t) (x := x) hready (by
      simp only [cvtPart_eq]
      exact hbad.imp id fun hb => ⟨hb.1, by rw [horigin]; exact hb.2⟩)
    exact (exec_vectorInstr _ h a s).trans (runSlot_trigger_trapAt (g := fun f => pureTrig (.vector (.cvt o t)) f.unit a) .illenc 0
      h0 hr ht hrun)

end Sys2Proof.Machine
end

section
/-! SUPPORT. Bytes of words and vectors, accesses that are checked and noted, and stores by pieces (R16, R128, R162, R287). -/

namespace Sys2Proof.Machine

/-! ### Little-endian bytes -/

/-- A byte of a number made of bytes is that byte. -/
theorem numLE_div_mod : ∀ (bs : List Byte) (i : Nat), numLE bs / 2 ^ (8 * i) % 256 = (bs.getD i 0).toNat
  | [], i => by simp [numLE]
  | b :: bs, 0 => by
    have hb : b.toNat < 256 := b.isLt
    simp only [numLE, Nat.mul_zero, pow_zero, Nat.div_one, List.getD_cons_zero]
    omega
  | b :: bs, i + 1 => by
    have hb : b.toNat < 256 := b.isLt
    have hdiv : (b.toNat + 256 * numLE bs) / 256 = numLE bs := by omega
    rw [numLE, show 8 * (i + 1) = 8 + 8 * i by ring, pow_add, ← Nat.div_div_eq_div_mul, show 2 ^ 8 = 256 from rfl, hdiv,
      numLE_div_mod bs i, List.getD_cons_succ]

/-- A number of `n` bytes is below 256 to the `n`. -/
theorem numLE_lt : ∀ bs : List Byte, numLE bs < 2 ^ (8 * bs.length)
  | [] => by simp [numLE]
  | b :: bs => by
    have hb : b.toNat < 256 := b.isLt
    have ih := numLE_lt bs
    rw [numLE, List.length_cons, show 8 * (bs.length + 1) = 8 + 8 * bs.length by ring, pow_add]
    omega

/-- A byte of a bit vector, as a number. -/
theorem byteOf_toNat {n : Nat} (w : BitVec n) (i : Nat) : (byteOf w i).toNat = w.toNat / 2 ^ (8 * i) % 256 := by
  simp [byteOf, BitVec.extractLsb'_toNat, Nat.shiftRight_eq_div_pow]

/-- A byte of a number's bit vector, where it reaches. -/
theorem byteOf_ofNat {n x i : Nat} (h : 8 * i + 8 ≤ n) : (byteOf (BitVec.ofNat n x) i).toNat = x / 2 ^ (8 * i) % 256 := by
  rw [byteOf_toNat, BitVec.toNat_ofNat, ← Nat.mod_mul_right_div_self, Nat.mod_mod_of_dvd, Nat.mod_mul_right_div_self]
  rw [show (256 : Nat) = 2 ^ 8 from rfl, ← pow_add]
  exact pow_dvd_pow 2 h

/-- A byte of bytes taken together as a bit vector is that byte. -/
theorem byteOf_numLE {n : Nat} {bs : List Byte} {i : Nat} (h : 8 * i + 8 ≤ n) :
    byteOf (BitVec.ofNat n (numLE bs)) i = bs.getD i 0 :=
  BitVec.eq_of_toNat_eq ((byteOf_ofNat h).trans (numLE_div_mod bs i))

/-- A byte of a number's bytes. -/
theorem bytesLE_getElem : ∀ (n x i : Nat) (h : i < (bytesLE n x).length), ((bytesLE n x)[i]).toNat = x / 2 ^ (8 * i) % 256
  | 0, _, _, h => absurd h (Nat.not_lt_zero _)
  | n + 1, x, 0, _ => by simp [bytesLE]
  | n + 1, x, i + 1, h => by
    have hi : i < (bytesLE n (x / 256)).length := by
      rw [bytesLE_length] at h ⊢
      omega
    have ih := bytesLE_getElem n (x / 256) i hi
    simp only [bytesLE, List.getElem_cons_succ]
    rw [ih, Nat.div_div_eq_div_mul, show 8 * (i + 1) = 8 + 8 * i by ring, pow_add, show 2 ^ 8 = 256 from rfl]

/-- The bytes of a bit vector's number are its bytes. -/
theorem bytesLE_getElem_byteOf {m : Nat} (w : BitVec m) (n i : Nat) (h : i < (bytesLE n w.toNat).length) :
    (bytesLE n w.toNat)[i] = byteOf w i :=
  BitVec.eq_of_toNat_eq ((bytesLE_getElem n w.toNat i h).trans (byteOf_toNat w i).symm)

theorem rangeFrom_eq_map : ∀ n k : Nat, rangeFrom k n = (List.range n).map (k + ·)
  | n, k => by simp [rangeFrom]

/-- Bytes as the strand sees them, one by one. -/
theorem Frame.bytes_eq_map (f : Frame) (k n : Nat) : f.bytes k n = (List.range n).map fun i => f.byte (k + i) := by
  rw [Frame.bytes, rangeFrom_eq_map, List.map_map]
  rfl

/-! ### Accesses that are checked and noted -/

/-- `g` differs from `f` at most in the tiles' owners and in what the slot has noted of its access. -/
def Frame.Noted (f g : Frame) : Prop :=
  g.s = { f.s with tiles := g.s.tiles } ∧ g.t = f.t
    ∧ g.c = { f.c with seq := { f.c.seq with chunks := g.c.seq.chunks, foot := g.c.seq.foot, place := g.c.seq.place } }

theorem Frame.Noted.refl (f : Frame) : f.Noted f := ⟨rfl, rfl, rfl⟩

theorem Frame.Noted.trans {f g h : Frame} (a : f.Noted g) (b : g.Noted h) : f.Noted h := by
  obtain ⟨a1, a2, a3⟩ := a
  obtain ⟨b1, b2, b3⟩ := b
  refine ⟨?_, b2.trans a2, ?_⟩
  · rw [a1] at b1; exact b1
  · rw [a3] at b3; exact b3

theorem Frame.Noted.mem {f g : Frame} (h : f.Noted g) : g.s.mem = f.s.mem := by rw [h.1]
theorem Frame.Noted.ecc {f g : Frame} (h : f.Noted g) : g.s.ecc = f.s.ecc := by rw [h.1]
theorem Frame.Noted.id {f g : Frame} (h : f.Noted g) : g.c.id = f.c.id := by rw [h.2.2]
theorem Frame.Noted.late {f g : Frame} (h : f.Noted g) : g.c.seq.late = f.c.seq.late := by rw [h.2.2]
theorem Frame.Noted.again {f g : Frame} (h : f.Noted g) : g.c.again = f.c.again := by rw [h.2.2]
theorem Frame.Noted.fpst {f g : Frame} (h : f.Noted g) : g.c.fpst = f.c.fpst := by rw [h.2.2]
theorem Frame.Noted.registers {f g : Frame} (h : f.Noted g) : f.SameRegisters g := by
  unfold Frame.SameRegisters
  rw [h.2.1, h.2.2]
  exact ⟨rfl, rfl, rfl, rfl, rfl, rfl, rfl, rfl, rfl⟩
theorem Frame.Noted.specials {f g : Frame} (h : f.Noted g) : f.SameSpecials g := by
  unfold Frame.SameSpecials
  rw [h.2.1, h.2.2]
  exact ⟨rfl, rfl, rfl, rfl, rfl, rfl, rfl, rfl, rfl, rfl, rfl, rfl, rfl, rfl⟩

theorem Frame.own_noted (f : Frame) (u : TileUnit) : f.Noted (f.own u) := by
  unfold Frame.own
  split
  · exact .refl f
  · exact ⟨rfl, rfl, rfl⟩

theorem Frame.touch_noted {f g : Frame} {u : TileUnit} (h : f.touch u = .ok g) : f.Noted g := by
  unfold Frame.touch at h
  split at h <;> cases h
  exact own_noted _ _

theorem Frame.touchAll_noted : ∀ {us : List TileUnit} {f g : Frame}, f.touchAll us = .ok g → f.Noted g
  | [], f, g, h => by cases h; exact .refl f
  | u :: us, f, g, h => by
    unfold Frame.touchAll at h
    split at h
    · exact (touch_noted ‹_›).trans (touchAll_noted h)
    · cases h

theorem Frame.noteChunks_noted (f : Frame) (l : List Nat) : f.Noted (f.noteChunks l) := ⟨rfl, rfl, rfl⟩

theorem Frame.Accesses.noted {f g : Frame} {keys : List (Nat × Nat)} {w : Bool} (h : f.Accesses keys w g) : f.Noted g := by
  rw [h.2.2]
  exact ⟨rfl, rfl, rfl⟩

theorem Frame.PadReady.noted {f g : Frame} {addr width : Nat} {w : Bool} (h : f.PadReady addr width w g) : f.Noted g := by
  obtain ⟨_, _, _, u, hu, hg⟩ := h
  exact ((f.noteChunks_noted _).trans (touch_noted hu)).trans hg.noted

theorem Frame.WindowReady.noted {f g : Frame} {addr n al : Nat} {w : Bool} (h : f.WindowReady addr n al w g) : f.Noted g :=
  h.2.2.noted

theorem Frame.VectorReady.noted {f g : Frame} {phys : List Nat} {n : Nat} {al : Prop} {w : Bool}
    (h : f.VectorReady phys n al w g) : f.Noted g := by
  obtain ⟨_, _, _, u, hu, hg⟩ := h
  exact ((touchAll_noted hu).trans (u.noteChunks_noted _)).trans hg.noted

/-- Scratchpad bytes with no uncorrectable one among them are read. -/
theorem Frame.padRead_of {f : Frame} {addr n : Nat} (h : f.s.bad (Key.pad f.c.id addr) n = false) :
    f.padRead addr n = .ok ((List.range n).map fun i => f.byte (Key.pad f.c.id (addr + i))) := by
  have hkey : ∀ i, Key.pad f.c.id addr + i = Key.pad f.c.id (addr + i) := fun i => by unfold Key.pad; omega
  simp only [Frame.padRead, h, Bool.false_eq_true, if_false, Frame.bytes_eq_map, hkey]

/-! ### Stores by pieces (R129, R162, R287) -/

/-- The byte that pieces stored in order give a key, the latest standing. -/
def pieceByte (ps : List (Nat × List Byte)) (k : Nat) : Option Byte :=
  ps.foldl (fun r p => if p.1 ≤ k ∧ k < p.1 + p.2.length then p.2[k - p.1]? else r) none

theorem heldByte_eq_pieceByte (l : List HeldStore) (k : Nat) : heldByte l k = pieceByte (l.map (·.pieces)).flatten k := rfl

/-- A later piece stands over the earlier ones. -/
theorem pieceByte_concat (ps : List (Nat × List Byte)) (p : Nat × List Byte) (k : Nat) : pieceByte (ps ++ [p]) k
    = if p.1 ≤ k ∧ k < p.1 + p.2.length then p.2[k - p.1]? else pieceByte ps k := by
  simp [pieceByte, List.foldl_append]

/-- What pieces give a key after others: what the later give it, else what the earlier do. -/
theorem pieceByte_append (ps qs : List (Nat × List Byte)) (k : Nat) :
    pieceByte (ps ++ qs) k = (pieceByte qs k).or (pieceByte ps k) := by
  induction qs using List.reverseRecOn with
  | nil => simp [pieceByte]
  | append_singleton qs q ih =>
    rw [← List.append_assoc, pieceByte_concat, pieceByte_concat, ih]
    split
    · rename_i h
      rw [List.getElem?_eq_getElem (by omega : k - q.1 < q.2.length)]
      rfl
    · rfl

/-- Pieces that do not reach a key give it nothing. -/
theorem pieceByte_eq_none {ps : List (Nat × List Byte)} {k : Nat} (h : ∀ p ∈ ps, k < p.1 ∨ p.1 + p.2.length ≤ k) :
    pieceByte ps k = none := by
  induction ps using List.reverseRecOn with
  | nil => rfl
  | append_singleton ps p ih =>
    have hp := h p (by simp)
    rw [pieceByte_concat, if_neg (by omega), ih fun q hq => h q (by simp [hq])]

/-- The piece that holds a key gives it its byte, when no later one holds it. -/
theorem pieceByte_eq_some {ps qs : List (Nat × List Byte)} {p : Nat × List Byte} {i : Nat} (hi : i < p.2.length)
    (h : ∀ q ∈ qs, p.1 + i < q.1 ∨ q.1 + q.2.length ≤ p.1 + i) : pieceByte (ps ++ p :: qs) (p.1 + i) = some p.2[i] := by
  have hassoc : ps ++ p :: qs = (ps ++ [p]) ++ qs := by simp
  rw [hassoc, pieceByte_append, pieceByte_eq_none h, pieceByte_concat, if_pos ⟨by omega, by omega⟩]
  simp [hi]

/-- One piece gives each of its keys its byte. -/
theorem pieceByte_singleton {k i : Nat} {bs : List Byte} (hi : i < bs.length) : pieceByte [(k, bs)] (k + i) = some bs[i] :=
  pieceByte_eq_some (ps := []) (qs := []) (p := (k, bs)) hi (by simp)

/-- What a write of bytes leaves at each key. -/
theorem Memory.get_write {m : List Host.Cell} (w : Memory.wf m = true) (k j : Nat) (bs : List Byte) :
    Memory.get (Memory.write m k bs) j = (pieceByte [(k, bs)] j).getD (Memory.get m j) := by
  by_cases h : k ≤ j ∧ j < k + bs.length
  · obtain ⟨i, rfl⟩ := Nat.exists_eq_add_of_le h.1
    have hi : i < bs.length := by omega
    rw [Memory.get_write_inside w hi, pieceByte_singleton hi]
    rfl
  · rw [Memory.get_write_outside w (by omega), pieceByte_eq_none (by simp; omega)]
    rfl

/-- What a store has left alone: everything but memory and its check bits, what the group notes of overwritten bytes, and the
bytes that killed atomics would put back. -/
def Frame.Stored (f g : Frame) : Prop :=
  g.s = { f.s with mem := g.s.mem, ecc := g.s.ecc }
    ∧ g.t = { f.t with snap := { f.t.snap with undo := g.t.snap.undo, held := g.t.snap.held }, spec := g.t.spec, drain := g.t.drain }
    ∧ g.c = { f.c with flying := g.c.flying }

theorem Frame.Stored.refl (f : Frame) : f.Stored f := ⟨rfl, rfl, rfl⟩

theorem Frame.Stored.trans {f g h : Frame} (a : f.Stored g) (b : g.Stored h) : f.Stored h := by
  obtain ⟨a1, a2, a3⟩ := a
  obtain ⟨b1, b2, b3⟩ := b
  refine ⟨?_, ?_, ?_⟩
  · rw [a1] at b1; exact b1
  · rw [a2] at b2; exact b2
  · rw [a3] at b3; exact b3

theorem Frame.Stored.late {f g : Frame} (h : f.Stored g) : g.c.seq.late = f.c.seq.late := by rw [h.2.2]
theorem Frame.Stored.fpst {f g : Frame} (h : f.Stored g) : g.c.fpst = f.c.fpst := by rw [h.2.2]
theorem Frame.Stored.feeds {f g : Frame} (h : f.Stored g) : g.c.feeds = f.c.feeds := by rw [h.2.2]
theorem Frame.Stored.registers {f g : Frame} (h : f.Stored g) : f.SameRegisters g := by
  unfold Frame.SameRegisters
  rw [h.2.1, h.2.2]
  exact ⟨rfl, rfl, rfl, rfl, rfl, rfl, rfl, rfl, rfl⟩
theorem Frame.Stored.specials {f g : Frame} (h : f.Stored g) : f.SameSpecials g := by
  unfold Frame.SameSpecials
  rw [h.2.1, h.2.2]
  exact ⟨rfl, rfl, rfl, rfl, rfl, rfl, rfl, rfl, rfl, rfl, rfl, rfl, rfl, rfl⟩

theorem Frame.keepOld_stored (f : Frame) (k n : Nat) : f.Stored (f.keepOld k n)
    ∧ (f.keepOld k n).s = f.s ∧ (f.keepOld k n).t.pendingStores = f.t.pendingStores := by
  unfold Frame.keepOld
  split <;> exact ⟨⟨rfl, rfl, rfl⟩, rfl, rfl⟩

theorem Ctx.forgetUndo_eq (c : Ctx) (k n : Nat) : c.forgetUndo k n = { c with flying := (c.forgetUndo k n).flying } := by
  unfold Ctx.forgetUndo
  split <;> rfl

/-- A write made at once. -/
theorem Frame.writeNow_stored (f : Frame) (p : Nat × List Byte) : f.Stored (f.writeNow p)
    ∧ (f.writeNow p).s.mem = Memory.write f.s.mem p.1 p.2 ∧ (f.writeNow p).t.pendingStores = f.t.pendingStores := by
  obtain ⟨hk, hs, ht⟩ := f.keepOld_stored p.1 p.2.length
  have hw : (f.keepOld p.1 p.2.length).Stored (f.writeNow p) := ⟨rfl, rfl, Ctx.forgetUndo_eq _ _ _⟩
  refine ⟨hk.trans hw, ?_, ht⟩
  show Memory.write (f.keepOld p.1 p.2.length).s.mem p.1 p.2 = _
  rw [hs]

/-- Writes made at once, one after another. -/
theorem Frame.foldl_writeNow_stored : ∀ (ps : List (Nat × List Byte)) {f : Frame}, Memory.wf f.s.mem = true →
    f.Stored (ps.foldl Frame.writeNow f) ∧ (ps.foldl Frame.writeNow f).t.pendingStores = f.t.pendingStores
      ∧ ∀ j, Memory.get (ps.foldl Frame.writeNow f).s.mem j = (pieceByte ps j).getD (Memory.get f.s.mem j)
  | [], f, _ => ⟨.refl f, rfl, fun _ => rfl⟩
  | p :: ps, f, w => by
    obtain ⟨h1, h2, h3⟩ := f.writeNow_stored p
    obtain ⟨i1, i2, i3⟩ := foldl_writeNow_stored ps (f := f.writeNow p) (by rw [h2]; exact Memory.write_wf w)
    refine ⟨h1.trans i1, i2.trans h3, fun j => ?_⟩
    rw [List.foldl_cons, i3, h2, Memory.get_write w, show p :: ps = [p] ++ ps from rfl, pieceByte_append]
    cases pieceByte ps j <;> rfl

/-- A slot whose turn it is by itself makes no older store. -/
theorem Frame.noteHeld_of_again {f : Frame} (ha : f.c.again = none) (x : HeldStore) : f.noteHeld x = f := by
  have hold : f.olderStore = false := by rw [Frame.olderStore, ha]
  rw [Frame.noteHeld, hold]
  rfl

/-- A store during speculation, with room, is held by it (R382). -/
theorem Frame.holdStore_spec {f : Frame} {q : Spec} (ha : f.c.again = none) (hspec : f.t.spec = some q)
    (hroom : f.heldStores < 32) (x : HeldStore) :
    f.holdStore x = .ok { f with t := { f.t with spec := some { q with stores := q.stores ++ [x] } } } := by
  have hfull : (f.c.again.isNone && decide (32 ≤ f.heldStores)) = false := by simp; omega
  simp only [Frame.holdStore, f.noteHeld_of_again ha, hspec, hfull, Bool.false_eq_true, if_false]

/-- A store behind confirmed ones drains after them (R387). -/
theorem Frame.holdStore_drain {f : Frame} (ha : f.c.again = none) (hspec : f.t.spec = none) (x : HeldStore) :
    f.holdStore x = .ok { f with t := { f.t with drain := f.t.drain ++ [x] } } := by
  simp only [Frame.holdStore, f.noteHeld_of_again ha, hspec]

/-- A strand's own store stands over what it saw before. -/
theorem Frame.byte_of_pending {f r : Frame} {x : HeldStore} (hmem : r.s.mem = f.s.mem)
    (hp : r.t.pendingStores = f.t.pendingStores ++ [x]) (j : Nat) : r.byte j = (pieceByte x.pieces j).getD (f.byte j) := by
  simp only [Frame.byte, hp, hmem, heldByte_eq_pieceByte, List.map_append, List.flatten_append, pieceByte_append,
    List.map_cons, List.map_nil, List.flatten_cons, List.flatten_nil, List.append_nil]
  cases pieceByte x.pieces j <;> rfl

/-- A store that is held finds room: nothing else but what is held or drains changes, and the strand sees it. -/
theorem Frame.holdStore_of {f : Frame} (x : HeldStore) (ha : f.c.again = none) (hroom : f.t.spec ≠ none → f.heldStores < 32) :
    ∃ r, f.holdStore x = .ok r ∧ f.Stored r ∧ r.s.mem = f.s.mem ∧ r.t.pendingStores = f.t.pendingStores ++ [x] := by
  cases hspec : f.t.spec with
  | some q =>
    refine ⟨_, Frame.holdStore_spec ha hspec (hroom (by simp [hspec])) x, ⟨rfl, rfl, rfl⟩, rfl, ?_⟩
    simp only [Strand.pendingStores, hspec, List.append_assoc]
  | none =>
    refine ⟨_, Frame.holdStore_drain ha hspec x, ⟨rfl, rfl, rfl⟩, rfl, ?_⟩
    simp only [Strand.pendingStores, hspec, List.append_nil]

/-- A store of pieces that finds room: each key reads as the latest piece over it, and memory changes only where the store is
not held. -/
theorem Frame.storePieces_of {f : Frame} (l : List (Nat × List Byte)) (ha : f.c.again = none) (w : Memory.wf f.s.mem = true)
    (hroom : f.t.spec ≠ none → f.heldStores < 32) :
    let ps := l.map fun p => (Key.pad f.c.id p.1, p.2)
    ∃ r, f.storePieces l = .ok r ∧ f.Stored r
      ∧ (∀ j, r.byte j = (pieceByte ps j).getD (f.byte j))
      ∧ (f.holds = false → ∀ j, Memory.get r.s.mem j = (pieceByte ps j).getD (Memory.get f.s.mem j))
      ∧ (f.holds = true → r.s.mem = f.s.mem) := by
  intro ps
  cases hholds : f.holds with
  | true =>
    obtain ⟨r, hr, hstored, hmem, hpend⟩ := f.holdStore_of ⟨false, ps, f.c.id, f.c.nextRid⟩ ha hroom
    refine ⟨r, ?_, hstored, Frame.byte_of_pending hmem hpend, (by simp), fun _ => hmem⟩
    rw [Frame.storePieces, hholds]
    exact hr
  | false =>
    obtain ⟨h1, h2, h3⟩ := Frame.foldl_writeNow_stored ps w
    have hpend : f.t.pendingStores = [] := by
      simp only [Frame.holds, Bool.or_eq_false_iff, Option.isSome_eq_false_iff, Option.isNone_iff_eq_none,
        Bool.not_eq_false', List.isEmpty_iff] at hholds
      rw [Strand.pendingStores, hholds.1, hholds.2]
      rfl
    refine ⟨ps.foldl Frame.writeNow f, ?_, h1, fun j => ?_, fun _ => h3, (by simp)⟩
    · rw [Frame.storePieces, hholds]
      rfl
    · simp only [Frame.byte, h2, hpend, h3]
      rfl

end Sys2Proof.Machine
end

section
/-! PROOF. Scratchpad and window words: loads, stores, atomics (R128 to R133, R245, R287). -/

namespace Sys2Proof.Machine

/-! ### Loads -/

/-- Bytes taken together as a number, extended as a load extends them. -/
theorem loadedWord_bytes {n : Nat} (hn : n ∈ [1, 2, 4, 8]) (signed : Bool) {bs : List Byte} (hl : bs.length = n) :
    (∀ i, i < n → byteOf (loadedWord signed bs) i = bs.getD i 0)
      ∧ ((signed = true → n < 8) → ∀ i, 8 * n ≤ i → i < 64 →
        (loadedWord signed bs).getLsbD i = (signed && (loadedWord signed bs).getLsbD (8 * n - 1))) := by
  have hlt := numLE_lt bs
  rw [hl] at hlt
  have h8 : 8 * n ≤ 64 := by fin_cases hn <;> decide
  have h1 : 1 ≤ 8 * n := by fin_cases hn <;> decide
  cases signed with
  | false =>
    refine ⟨fun i hi => byteOf_numLE (by omega), fun _ i hi hi64 => ?_⟩
    simp only [loadedWord, Bool.false_eq_true, if_false, BitVec.getLsbD_ofNat, Bool.false_and, Bool.and_eq_false_iff]
    exact .inr (Nat.testBit_eq_false_of_lt (hlt.trans_le (Nat.pow_le_pow_right (by omega) hi)))
  | true =>
    have hw : loadedWord true bs = (BitVec.ofNat (8 * n) (numLE bs)).signExtend 64 := by
      subst hl; rfl
    have hbit : ∀ i, i < 64 → (loadedWord true bs).getLsbD i
        = if i < 8 * n then (BitVec.ofNat (8 * n) (numLE bs)).getLsbD i else (BitVec.ofNat (8 * n) (numLE bs)).msb := by
      intro i hi
      rw [hw, BitVec.getLsbD_signExtend]
      simp [hi]
    refine ⟨fun i hi => ?_, fun _ i hi hi64 => ?_⟩
    · rw [← byteOf_numLE (n := 8 * n) (bs := bs) (by omega)]
      apply BitVec.eq_of_getLsbD_eq
      intro j hj
      simp only [byteOf, BitVec.getLsbD_extractLsb', hj, decide_true, Bool.true_and]
      rw [hbit _ (by omega), if_pos (by omega)]
    · rw [hbit i hi64, if_neg (by omega), hbit (8 * n - 1) (by omega), if_pos (by omega), BitVec.msb_eq_getLsbD_last]
      rfl

/-- The constant path's snapshot beyond its end reads as zero. -/
theorem getD_const (l : List Word) (n : Nat) :
    (∀ i : Fin l.length, n = i → l.getD n 0 = l[i]) ∧ (l.length ≤ n → l.getD n 0 = 0) := by
  refine ⟨fun i hi => ?_, fun h => ?_⟩
  · subst hi; simp
  · simp [List.getD, List.getElem?_eq_none h]

/-- Settles O22: a load's word is made of the bytes at its address; CLD's is the snapshot's. -/
theorem loadedWords : Obligations.LoadedWords := by
  refine ⟨?_, ?_⟩
  · intro p hp h a s f g x k held hr ht hw addr hready hgood
    set bs := (List.range p.1).map fun i => g.byte (Key.pad g.c.id (addr + i)) with hbs
    have hexec : exec (p.2.2 h a) s = padLoad p.1 p.2.1 h a s := by fin_cases hp <;> rfl
    have hwidth : p.1 ∈ [1, 2, 4, 8] := by fin_cases hp <;> simp
    have hsigned : p.2.1 = true → p.1 < 8 := by fin_cases hp <;> simp
    have hbytes := loadedWord_bytes hwidth p.2.1 (bs := bs) (by rw [hbs, List.length_map, List.length_range])
    have hlate : g.c.seq.late = [] := hready.noted.late.trans (ht.ready_late _)
    refine ⟨loadedWord p.2.1 bs, ?_, fun i hi => ?_, hbytes.2 hsigned⟩
    · refine hexec.trans (runSlot_trigger_of_takes (g := fun _ => scalarTrig a true false true) hr ht ?_ hlate)
      have hcheck : (k.ready .sc).padWord (wordAddr x.a.value x.b.value) p.1 false = .ok g := Frame.padWord_of hready
      have hread : g.padRead (wordAddr x.a.value x.b.value) p.1 = .ok bs := Frame.padRead_of (hgood addr (by simp))
      simp only [direct, scalarTrig, hcheck, hread, except_ok_bind]
      rfl
    · rw [hbytes.1 i hi]
      simp [hbs, List.getD, hi]
  · intro h a s f x k held trig hr ht hw
    have hconst : (k.ready trig.u).t.const = f.t.const := by
      show k.f.t.const = f.t.const
      rw [ht.ready_delivered.2.1]
    obtain ⟨hin, hout⟩ := getD_const f.t.const x.a.value.low.toNat
    refine ⟨f.t.const.getD x.a.value.low.toNat 0, ?_, hin, hout⟩
    refine runSlot_trigger_of_takes (g := fun _ => trig) hr ht ?_ (ht.ready_late _)
    show (Except.ok _ : Except Stop _) = _
    rw [hconst]
    rfl

/-! ### Stores -/

theorem Frame.SameRegisters.trans {f g h : Frame} (a : f.SameRegisters g) (b : g.SameRegisters h) : f.SameRegisters h := by
  unfold Frame.SameRegisters at *
  obtain ⟨a1, a2, a3, a4, a5, a6, a7, a8, a9⟩ := a
  obtain ⟨b1, b2, b3, b4, b5, b6, b7, b8, b9⟩ := b
  exact ⟨b1.trans a1, b2.trans a2, b3.trans a3, b4.trans a4, b5.trans a5, b6.trans a6, b7.trans a7, b8.trans a8, b9.trans a9⟩

theorem Frame.SameSpecials.trans {f g h : Frame} (a : f.SameSpecials g) (b : g.SameSpecials h) : f.SameSpecials h := by
  unfold Frame.SameSpecials at *
  obtain ⟨a1, a2, a3, a4, a5, a6, a7, a8, a9, a10, a11, a12, a13, a14⟩ := a
  obtain ⟨b1, b2, b3, b4, b5, b6, b7, b8, b9, b10, b11, b12, b13, b14⟩ := b
  exact ⟨b1.trans a1, b2.trans a2, b3.trans a3, b4.trans a4, b5.trans a5, b6.trans a6, b7.trans a7, b8.trans a8, b9.trans a9,
    b10.trans a10, b11.trans a11, b12.trans a12, b13.trans a13, b14.trans a14⟩

/-- Delivery, an access that is noted, and a store keep the registers, the special registers and FPST. -/
theorem Frame.stored_keeps {f g r : Frame} {k : Fetch} {u : UnitName} (hd : f.Delivered k.f) (hn : (k.ready u).Noted g)
    (hs : g.Stored r) : f.SameRegisters r ∧ f.SameSpecials r ∧ r.c.fpst = f.c.fpst := by
  obtain ⟨h1, h2, h3⟩ := Fetch.ready_registers hd u
  exact ⟨(h1.trans hn.registers).trans hs.registers, (h2.trans hn.specials).trans hs.specials, hs.fpst.trans (hn.fpst.trans h3)⟩

/-- An atomic's write is a write, which one that can still be killed makes without forgetting what others put back. -/
theorem Frame.writeAtomic_cases (f : Frame) (h : Slot) (p : Nat × List Byte) :
    f.writeAtomic h p = f.writeNow p ∨ f.writeAtomic h p = { f.writeNow p with c := f.c } := by
  unfold Frame.writeAtomic
  dsimp only
  split <;> split
  · exact .inr rfl
  · exact .inl rfl
  · exact .inr rfl
  · exact .inl rfl

/-- What an atomic's write leaves. -/
theorem Frame.writeAtomic_stored (f : Frame) (h : Slot) (p : Nat × List Byte) :
    f.Stored (f.writeAtomic h p) ∧ (f.writeAtomic h p).s.mem = Memory.write f.s.mem p.1 p.2 := by
  obtain ⟨⟨h1, h2, h3⟩, hmem, _⟩ := f.writeNow_stored p
  rcases f.writeAtomic_cases h p with h' | h'
  · rw [h']; exact ⟨⟨h1, h2, h3⟩, hmem⟩
  · rw [h']; exact ⟨⟨h1, h2, rfl⟩, hmem⟩

/-- The new value of an atomic is the table's. -/
theorem atomicRule_atomicNew (o : AtomicOp) (old b c : Word) : AtomicRule o old b c (atomicNew o old b c) := by
  cases o with
  | add => exact BitVec.toNat_add old b
  | and => exact fun i => BitVec.getLsbD_and
  | or => exact fun i => BitVec.getLsbD_or
  | xor => exact fun i => BitVec.getLsbD_xor
  | min =>
    simp only [AtomicRule, atomicNew]
    split
    · rename_i h
      have hlt := BitVec.slt_iff_toInt_lt.1 h
      rw [min_eq_right hlt.le]
    · rename_i h
      rw [BitVec.slt_iff_toInt_lt, not_lt] at h
      rw [min_eq_left h]
  | max =>
    simp only [AtomicRule, atomicNew]
    split
    · rename_i h
      have hlt := BitVec.slt_iff_toInt_lt.1 h
      rw [max_eq_right hlt.le]
    · rename_i h
      rw [BitVec.slt_iff_toInt_lt, not_lt] at h
      rw [max_eq_left h]
  | swap => rfl
  | cas => rfl

theorem Key.pad_add (id a i : Nat) : Key.pad id (a + i) = Key.pad id a + i := by
  unfold Key.pad
  omega

/-- The bytes that putting an atomic back needs: each key with its old and its new byte. -/
theorem undoBytes_eq (k n : Nat) (old new : List Byte) (ho : old.length = n) (hn : new.length = n) :
    undoBytes k old new = (List.range n).map fun i => (k + i, old.getD i 0, new.getD i 0) := by
  unfold undoBytes
  apply List.ext_getElem
  · simp [ho, hn]
  · intro i h1 h2
    have hi : i < n := by simpa using h2
    simp [List.getD, ho, hn, hi]

/-- Settles O23: a store's pieces stand at its address, held or not; an atomic reads, computes and writes its word. -/
theorem storedWordsAndAtomics : Obligations.StoredWordsAndAtomics := by
  refine ⟨?_, ?_⟩
  · intro p hp h a s f g x k held hr hcan ht hw addr key hready hroom
    set bs := bytesLE p.1 x.c.value.low.toNat with hbs
    have hlen : bs.length = p.1 := bytesLE_length _ _
    have hd := ht.ready_delivered
    have hmem : g.s.mem = s.mem := (hready.noted.mem.trans (Fetch.ready_mem hd _)).trans hr.mem
    have hid : g.c.id = f.c.id := hready.noted.id.trans (Fetch.ready_id hd _)
    have hagain : g.c.again = none := (hready.noted.again.trans (Fetch.ready_again hd _)).trans hr.again
    have hwf : Memory.wf g.s.mem = true := by rw [hmem]; exact hcan
    obtain ⟨r, hstore, hstored, hbyte, hget, hheld⟩ := Frame.storePieces_of (f := g) [(addr, bs)] hagain hwf hroom
    rw [List.map_singleton, hid] at hbyte hget
    obtain ⟨hregs, hspecials, hfpst⟩ := Frame.stored_keeps hd hready.noted hstored
    have hlate : r.c.seq.late = [] := hstored.late.trans (hready.noted.late.trans (ht.ready_late _))
    have hkeep := r.settle_keeps h (scalarTrig a true true false) k x held .quiet
    have hinside : ∀ i, i < p.1 → pieceByte [(Key.pad f.c.id addr, bs)] (key + i) = some (byteOf x.c.value.low i) := by
      intro i hi
      have hib : i < bs.length := by rw [hlen]; exact hi
      rw [pieceByte_singleton hib]
      exact congrArg some (bytesLE_getElem_byteOf _ _ _ hib)
    have hexec : exec (p.2 h a) s = padStoreOp p.1 h a s := by fin_cases hp <;> rfl
    refine ⟨r.settle h (scalarTrig a true true false) k x held .quiet, ?_, hregs.trans hkeep.1, hspecials.trans hkeep.2.1,
      hkeep.2.2.2.trans hfpst, fun j hj => ?_, fun hh i hi => ?_, fun i hi => ?_, fun hh j => ?_⟩
    · refine hexec.trans (runSlot_trigger_of_takes (g := fun _ => scalarTrig a true true false) hr ht ?_ hlate)
      have hcheck : (k.ready .sc).padWord (wordAddr x.a.value x.b.value) p.1 true = .ok g := Frame.padWord_of hready
      have hstore' : g.padStore (wordAddr x.a.value x.b.value) bs = .ok r := hstore
      simp only [direct, scalarTrig, hcheck, ← hbs, hstore', except_ok_bind]
      rfl
    · show Memory.get r.s.mem j = _
      cases hh : g.holds with
      | true => rw [hheld hh, hmem]
      | false =>
        rw [hget hh, hmem, pieceByte_eq_none]
        · rfl
        · simpa [hlen] using hj
    · show Memory.get r.s.mem _ = _
      rw [hget hh, hinside i hi]
      rfl
    · show r.byte _ = _
      rw [hbyte, hinside i hi]
      rfl
    · show Memory.get r.s.mem j = _
      rw [hheld hh, hmem]
  · intro o h a s f g x k held hr hcan ht hw hspec hdrain addr key hready hgood
    have hd := ht.ready_delivered
    have hmem : g.s.mem = s.mem := (hready.noted.mem.trans (Fetch.ready_mem hd _)).trans hr.mem
    have hid : g.c.id = f.c.id := hready.noted.id.trans (Fetch.ready_id hd _)
    have hwf : Memory.wf g.s.mem = true := by rw [hmem]; exact hcan
    have hpend : g.t.pendingStores = [] := by
      rw [hready.noted.2.1, Strand.pendingStores, hspec, hdrain]
      rfl
    have hseen : ∀ j, g.byte j = Memory.get s.mem j := fun j => by rw [Frame.byte, hpend, hmem]; rfl
    set bs := (List.range 8).map fun i => g.byte (Key.pad g.c.id (addr + i)) with hbs
    set old := loadedWord false bs with hold
    set new := atomicNew o old x.b.value.low x.c.value.low with hnew
    set r := g.writeAtomic h (Key.pad g.c.id addr, wordBytes new) with hr'
    have hbslen : bs.length = 8 := by rw [hbs, List.length_map, List.length_range]
    have hnewlen : (wordBytes new).length = 8 := bytesLE_length _ _
    obtain ⟨hstored, hwrite⟩ := g.writeAtomic_stored h (Key.pad g.c.id addr, wordBytes new)
    obtain ⟨hregs, hspecials, hfpst⟩ := Frame.stored_keeps hd hready.noted hstored
    have hlate : r.c.seq.late = [] := hstored.late.trans (hready.noted.late.trans (ht.ready_late _))
    have holdbyte : ∀ i, i < 8 → byteOf old i = bs.getD i 0 := (loadedWord_bytes (by simp) false hbslen).1
    have hnewbyte : ∀ i (hi : i < 8), (wordBytes new).getD i 0 = byteOf new i := fun i hi => by
      rw [List.getD_eq_getElem _ _ (by rw [hnewlen]; exact hi)]
      exact bytesLE_getElem_byteOf new 8 i _
    have hget : ∀ j, Memory.get r.s.mem j = (pieceByte [(key, wordBytes new)] j).getD (Memory.get s.mem j) := fun j => by
      rw [hr', hwrite, Memory.get_write hwf, hmem, hid]
    have hundo : undoBytes (Key.pad g.c.id addr) bs (wordBytes new)
        = (List.range 8).map fun i => (key + i, byteOf old i, byteOf new i) := by
      rw [undoBytes_eq _ 8 _ _ hbslen hnewlen, hid]
      refine List.map_congr_left fun i hi => ?_
      rw [holdbyte i (List.mem_range.1 hi), hnewbyte i (List.mem_range.1 hi)]
    have hexec : exec (atomicInstr h a o) s = padAtomic o h a s := by cases o <;> rfl
    refine ⟨old, new, r, ?_, atomicRule_atomicNew o _ _ _, fun i hi => ⟨?_, ?_⟩, fun j hj => ?_, hregs, hspecials, hfpst⟩
    · refine hexec.trans (runSlot_trigger_of_takes (g := fun _ => atomicTrig o a 6) hr ht ?_ hlate)
      refine (Frame.settled_drained_bind hspec hdrain).trans ?_
      have hcheck : (k.ready .sc).padWord x.a.value.low.toNat 8 true = .ok g := Frame.padWord_of hready
      have hread : g.padRead x.a.value.low.toNat 8 = .ok bs := Frame.padRead_of (hgood addr (by simp))
      have hu : (atomicTrig o a 6).u = .sc := rfl
      simp only [hu, hcheck, hread, except_ok_bind]
      rw [← hundo]
      rfl
    · rw [holdbyte i hi, hbs, List.getD_eq_getElem _ _ (by simpa using hi)]
      simp [hseen, hid, Key.pad_add, key]
    · rw [hget, pieceByte_singleton (by rw [hnewlen]; exact hi), ← hnewbyte i hi, List.getD_eq_getElem _ _ (by rw [hnewlen]; exact hi)]
      rfl
    · rw [hget, pieceByte_eq_none]
      · rfl
      · simpa [hnewlen] using hj

/-! ### Window accesses at issue (R130, R131, R180) -/

/-- A killed atomic's bytes are seen only by what a killed atomic has written. -/
theorem Frame.unseenWindow_of_none_dead {g : Frame} (h : ∀ q, g.t.spec = some q → q.dead = []) : g.unseenWindow = [] := by
  unfold Frame.unseenWindow
  split
  · rfl
  · rename_i q hq
    simp [Spec.killed, h q hq]

/-- What a noted access reads is as sound as before it. -/
theorem Frame.Noted.windowGood {f g : Frame} (h : f.Noted g) {addr n : Nat} (hg : g.WindowGood addr n) : f.WindowGood addr n := by
  unfold Frame.WindowGood at *
  rw [h.2.1, State.bad, h.ecc] at hg
  exact hg

/-- A window store outside speculation, with nothing draining, is to reach its bank. -/
theorem Frame.windowStore_free {g : Frame} (h1 : g.t.spec = none) (h2 : g.t.drain = []) (addr : Nat) (bs : List Byte) :
    g.windowStore addr bs = .ok (g.accessWindow addr (.store bs)) := by
  have hh : g.holds = false := by rw [Frame.holds, h1, h2]; rfl
  rw [Frame.windowStore, hh]
  rfl

/-- A window store that is held goes where every held store goes. -/
theorem Frame.windowStore_held {g : Frame} (h : g.holds = true) (addr : Nat) (bs : List Byte) :
    g.windowStore addr bs = g.holdStore ⟨true, [(Key.window (clusterOf g.t.ptn) addr, bs)], g.c.id, g.c.nextRid⟩ := by
  rw [Frame.windowStore, h]
  rfl

/-- A window store issues as its place in the order of stores says: to its bank, to the draining ones, or to speculation. -/
theorem windowStore_issues {h : Slot} {g : Frame → Trig} {run : Frame → Args → Except Stop (Frame × Effect)} {s : State}
    {f w : Frame} {x : Args} {k : Fetch} {held : Bool} {addr : Nat} {bs : List Byte} (hr : s.Runs h f)
    (ht : f.Takes (g f) x k held) (hn : (k.ready (g f).u).Noted w)
    (hrun : run (k.ready (g f).u) x = (w.windowStore addr bs).map fun r => (r, Effect.quiet)) :
    (w.t.spec = none → w.t.drain = [] → runSlot h (fun f => trigger h (g f) run f) s
      = .next ((w.accessWindow addr (.store bs)).leaves h (g f) k x held .quiet))
    ∧ (w.t.spec = none → w.t.drain ≠ [] → runSlot h (fun f => trigger h (g f) run f) s
      = .next (Frame.leaves { w with t := { w.t with drain := w.t.drain ++
          [⟨true, [(Key.window (clusterOf w.t.ptn) addr, bs)], w.c.id, w.c.nextRid⟩] } } h (g f) k x held .quiet))
    ∧ ∀ q, w.t.spec = some q → w.heldStores < 32 → runSlot h (fun f => trigger h (g f) run f) s
      = .next (Frame.leaves { w with t := { w.t with spec := some { q with stores := q.stores ++
          [⟨true, [(Key.window (clusterOf w.t.ptn) addr, bs)], w.c.id, w.c.nextRid⟩] } } } h (g f) k x held .quiet) := by
  have hagain : w.c.again = none := (hn.again.trans (Fetch.ready_again ht.ready_delivered _)).trans hr.again
  have hlate : w.c.seq.late = [] := hn.late.trans (ht.ready_late _)
  refine ⟨fun h1 h2 => ?_, fun h1 h2 => ?_, fun q h1 h2 => ?_⟩
  · exact runSlot_trigger_of_takes hr ht (hrun.trans (by rw [Frame.windowStore_free h1 h2]; rfl)) hlate
  · have hh : w.holds = true := by simp [Frame.holds, h2]
    exact runSlot_trigger_of_takes hr ht
      (hrun.trans (by rw [Frame.windowStore_held hh, Frame.holdStore_drain hagain h1]; rfl)) hlate
  · have hh : w.holds = true := by simp [Frame.holds, h1]
    exact runSlot_trigger_of_takes hr ht
      (hrun.trans (by rw [Frame.windowStore_held hh, Frame.holdStore_spec hagain h1 h2]; rfl)) hlate

/-- Settles O25: each window access is checked, and joins those that are to reach their bank, or those that are held. -/
theorem windowAccessesIssue : Obligations.WindowAccessesIssue := by
  refine ⟨?_, ?_, ?_, ?_, ?_, ?_⟩
  · intro p hp h a s f g x k held hr ht hw addr hready hgood
    have hexec : exec (p.2 h a) s = windowLoad (p.1 = 8) h a s := by fin_cases hp <;> rfl
    have hn : (if decide (p.1 = 8) then 8 else 4) = p.1 := by fin_cases hp <;> rfl
    have hcheck : (k.ready .sc).windowCheck (wordAddr x.a.value x.b.value) p.1 p.1 true false = .ok g :=
      Frame.windowCheck_of hready fun _ => hready.noted.windowGood hgood
    refine hexec.trans (runSlot_trigger_of_takes (g := fun _ => windowTrig a true false true false) hr ht ?_
      (hready.noted.late.trans (ht.ready_late _)))
    have hu : (windowTrig a true false true false).u = .sc := rfl
    simp only [direct, hn, hu, hcheck, except_ok_bind]
    rfl
  · intro g hg
    rw [Frame.heldWindow, Frame.unseenWindow_of_none_dead hg, List.nil_append]
  · intro p hp h a s f g x k held hr ht hw addr hready
    have hexec : exec (p.2 h a) s = windowStoreOp p.1 h a s := by fin_cases hp <;> rfl
    have hcheck : (k.ready .sc).windowCheck (wordAddr x.a.value x.b.value) p.1 p.1 false true = .ok g :=
      Frame.windowCheck_of hready (by simp)
    rw [hexec]
    exact windowStore_issues (g := fun _ => windowTrig a true true false true) hr ht hready.noted (congrArg (· >>= _) hcheck)
  · intro o h a s f g x k held hr ht hw hspec hdrain addr hready hgood
    have hexec : exec (windowAtomicInstr h a o) s = windowAtomic o h a s := by cases o <;> rfl
    have hcheck : (k.ready .sc).windowCheck x.a.value.low.toNat 8 8 true true = .ok g :=
      Frame.windowCheck_of hready fun _ => hready.noted.windowGood hgood
    refine hexec.trans (runSlot_trigger_of_takes (g := fun _ => atomicTrig o a 12) hr ht ?_
      (hready.noted.late.trans (ht.ready_late _)))
    exact (Frame.settled_drained_bind hspec hdrain).trans (congrArg (· >>= _) hcheck)
  · intro h a s f g x k held hr ht hw addr tag htag hready hgood
    have hcheck : (k.ready f.unit).windowCheck x.a.value.low.toNat 256 16 true false = .ok g :=
      Frame.windowCheck_of hready fun _ => hready.noted.windowGood hgood
    refine runSlot_trigger_of_takes (g := fun f => vldClTrig f.unit a) hr ht ?_ (hready.noted.late.trans (ht.ready_late _))
    exact (need_true_bind (by simpa using htag)).trans (congrArg (· >>= _) hcheck)
  · intro h a s f g x k held hr ht hw addr hready
    have hcheck : (k.ready f.unit).windowCheck x.a.value.low.toNat 256 16 false true = .ok g :=
      Frame.windowCheck_of hready (by simp)
    exact windowStore_issues (g := fun f => vstClTrig f.unit a) hr ht hready.noted (congrArg (· >>= _) hcheck)

end Sys2Proof.Machine
end

section
/-! SUPPORT. Concrete runs: a state, a slot and a trigger that are evaluated, and what their evaluation says (R58, R71, R147). -/

namespace Sys2Proof.Machine

/-- What a slot's trigger takes at a state, evaluated: the frame in which it runs, its operands, what was fetched, and whether its
unit's buffer takes the result. -/
def State.taking (s : State) (h : Slot) (g : Frame → Trig) : Option (Frame × Args × Fetch × Bool) := do
  let f0 ← s.frame
  if f0.c.again = none ∧ f0.begin.c.seq.skip ≠ some f0.begin.c.seq.slot ∧ f0.begin.c.seq.guardHolds h.guard = true then
    let f ← (f0.begin.touchAll (if guardLoops h.guard then [.loops] else [])).toOption
    let (x, k) ← (f.gather (g f)).toOption
    let held ← (f.timing (g f) k x).toOption
    if k.fault = none ∧ k.f.c.seq.late = [] ∧ f.mustWait (g f) x = false then some (f, x, k, held) else none
  else none

theorem except_of_toOption {ε α : Type} {x : Except ε α} {a : α} (h : x.toOption = some a) : x = .ok a := by
  cases x <;> cases h
  rfl

/-- What is evaluated runs and takes its operands. -/
theorem State.taking_eq_some {s : State} {h : Slot} {g : Frame → Trig} {f : Frame} {x : Args} {k : Fetch} {held : Bool}
    (e : s.taking h g = some (f, x, k, held)) : s.Runs h f ∧ f.Takes (g f) x k held := by
  simp only [State.taking, Option.bind_eq_bind, Option.bind_eq_some_iff] at e
  obtain ⟨f0, hframe, e⟩ := e
  split at e
  · rename_i hbegin
    simp only [Option.bind_eq_some_iff] at e
    obtain ⟨f1, htouch, ⟨x1, k1⟩, hgather, held1, htiming, e⟩ := e
    split at e
    · rename_i hend
      cases e
      exact ⟨⟨f0, hframe, hbegin.1, hbegin.2.1, hbegin.2.2, except_of_toOption htouch⟩,
        except_of_toOption hgather, except_of_toOption htiming, hend⟩
    · cases e
  · cases e

/-- A test of what is taken at a state. -/
def State.takingMeets (s : State) (h : Slot) (g : Frame → Trig) (p : Frame → Args → Fetch → Bool) : Bool :=
  (s.taking h g).any fun r => p r.1 r.2.1 r.2.2.1

/-- What is taken at a state, when a test of it holds. -/
theorem State.takingMeets_spec {s : State} {h : Slot} {g : Frame → Trig} {p : Frame → Args → Fetch → Bool}
    (e : s.takingMeets h g p = true) : ∃ f x k held, s.Runs h f ∧ f.Takes (g f) x k held ∧ p f x k = true := by
  obtain ⟨⟨f, x, k, held⟩, hr, hp⟩ := (Option.any_eq_true_iff_get _ _).1 e |> fun ⟨hs, hp⟩ =>
    (⟨(s.taking h g).get hs, Option.eq_some_of_isSome hs, hp⟩ : ∃ r, s.taking h g = some r ∧ p r.1 r.2.1 r.2.2.1 = true)
  obtain ⟨h1, h2⟩ := State.taking_eq_some hr
  exact ⟨f, x, k, held, h1, h2, hp⟩

/-- The context of a strand just started, at a slot of an opened bundle. -/
def slotState (u : UnitName) (g : Ctx → Ctx) : State :=
  let s := State.reset.placeSlot u false 0
  { s with ctxs := s.ctxs.map g }

/-- A slot without stop bit or kill bit whose guard always holds. -/
def plainSlot : Slot := ⟨false, false, .always⟩

/-- A test of what an answer leaves. -/
def Except.leaves {α : Type} (x : Except Stop α) (p : α → Bool) : Bool := match x with | .ok a => p a | .error _ => false

/-- Nothing waits before a vector access, its addresses lie in the scratchpad, and no engine owns their blocks. -/
def Frame.vectorClear (f : Frame) (phys : List Nat) : Bool :=
  phys.all (fun a => decide (a < 0x200000) && !f.ownerBit (a / 4096))
    && Except.leaves (f.touchAll (blockUnits phys)) fun u => u.c.held.isEmpty

/-- A vector access that is clear may be made. -/
theorem Frame.vectorReady_of_clear {f : Frame} {phys : List Nat} {al : Prop} (n : Nat) (w : Bool) (hal : al)
    (h : f.vectorClear phys = true) : ∃ g, f.VectorReady phys n al w g := by
  simp only [Frame.vectorClear, Bool.and_eq_true, List.all_eq_true, decide_eq_true_eq, Bool.not_eq_eq_eq_not, Bool.not_true] at h
  obtain ⟨hphys, hleaves⟩ := h
  unfold Except.leaves at hleaves
  split at hleaves
  · rename_i u hu
    rw [List.isEmpty_iff] at hleaves
    refine ⟨_, fun a ha => (hphys a ha).1, hal, fun a ha => (hphys a ha).2, u, hu, ?_, fun _ => ?_, rfl⟩
    · simp [Ctx.blocked, Frame.noteChunks, hleaves]
    · simp [Frame.storeBehind, Frame.noteChunks, hleaves]
  · cases hleaves

end Sys2Proof.Machine
end

section
/-! PROOF. A delivery to a write port whose swizzle is none of R175's (R175, R184). -/

namespace Sys2Proof.Machine

/-- A write port with swizzle 4, which R175 does not list: under it the chunks at 0 and at 16 lie at one address. -/
def foldedPort : Feed := ⟨true, true, 0, 4, 0, [(16, 256)], 0, 0, 0⟩

/-- A VST is to deliver a vector whose first two chunks differ to a write port with swizzle 4. -/
def foldedState : State := slotState .va fun c => { c with
  low := c.low.set 0 0x8000000000000007
  feeds := c.feeds.set 7 foldedPort
  ports := vset c.ports (portIndex .va .b) ⟨none, some (.value (.tagged 14 1))⟩ }

/-- The source s0. -/
def sourceS0 : Src := ⟨.read, .s 0⟩

/-- What the delivery of `foldedState` finds. -/
def foldedFinds (f : Frame) (x : Args) (k : Fetch) : Bool :=
  let r := k.ready f.unit
  !x.wait && decide (x.a.value.low = 0x8000000000000007) && decide (x.b.value = .tagged 14 1) && !r.c.nestWaits 7
    && decide (r.c.feeds[7] = foldedPort) && r.t.spec.isNone && Except.leaves (r.touch .feeds) fun g =>
      Frame.vectorClear { g with c := { g.c with feeds := g.c.feeds.set 7 { foldedPort with pos := 1 } } }
        ((List.range 16).map fun c => swizzle 4 (16 * c))

theorem foldedState_finds : foldedState.takingMeets plainSlot (fun f => vstTrig f.unit sourceS0) foldedFinds = true := by
  decide +kernel

/-- Refutes O27: nothing in the clause on write ports says that the port's swizzle is legal, and under swizzle 4 two chunks
of a delivery share their place, where the later one stands. -/
theorem not_vectorStores : ¬ Obligations.VectorStores := by
  rintro ⟨-, hport, -⟩
  obtain ⟨f, x, k, held, hr, ht, hfinds⟩ := State.takingMeets_spec foldedState_finds
  simp only [foldedFinds, Bool.and_eq_true, Bool.not_eq_eq_eq_not, Bool.not_true, decide_eq_true_eq,
    Option.isNone_iff_eq_none] at hfinds
  obtain ⟨⟨⟨⟨⟨⟨hw, ha⟩, hb⟩, hnest⟩, hd⟩, hspec⟩, hleaves⟩ := hfinds
  have hfeed : (k.ready f.unit).c.feeds[(7 : Fin 8)] = foldedPort := hd
  unfold Except.leaves at hleaves
  split at hleaves
  · rename_i g hg
    obtain ⟨g', hready⟩ := Frame.vectorReady_of_clear (al := 0 % 16 = 0) 16 true rfl hleaves
    have hroom : g'.t.spec ≠ none → g'.heldStores < 32 := fun h =>
      absurd (by rw [hready.noted.2.1]; show g.t.spec = none; rw [(Frame.touch_noted hg).2.1]; exact hspec) h
    have hsame := hport plainSlot sourceS0 foldedState f g g' x k held 7 hr rfl ht hw ha
    simp only [hfeed, hb] at hsame
    obtain ⟨r, -, -, -, -, -, hbyte, -⟩ := hsame hnest rfl rfl hg hready hroom
    have hne : byteOf (Val.tagged 14 1).wide 0 ≠ byteOf (Val.tagged 14 1).wide 16 := by decide +kernel
    exact hne ((hbyte 0 0 (by omega) (by omega)).symm.trans (hbyte 1 0 (by omega) (by omega)))
  · cases hleaves

end Sys2Proof.Machine
end

section
/-! PROOF. Vector loads, transposed loads and gathers (R162, R175 to R179). -/

namespace Sys2Proof.Machine

/-- A bind of what answers goes on with the answer. -/
theorem except_bind_of {ε α β : Type} {x : Except ε α} {a : α} {g : α → Except ε β} (h : x = .ok a) : (x >>= g) = g a := by
  rw [h]
  rfl

/-! ### Access words and the bytes of chunks -/

/-- An access word with a legal swizzle and a tag that the form takes passes. -/
theorem accessCheck_of {w : Word} {ok : Nat → Bool} (ht : ok (accessTag w) = true)
    (hs : accessSwz w = 0 ∨ 7 ≤ accessSwz w ∧ accessSwz w ≤ 18) : accessCheck w ok = .ok () := by
  have hl : swzLegal (accessSwz w) = true := by simpa [swzLegal] using hs
  rw [accessCheck, need_true_bind ht, need, if_pos hl]

/-- The same access, its alignment tested as a truth. -/
theorem Frame.VectorReady.test {f g : Frame} {phys : List Nat} {n : Nat} {p : Prop} {b w : Bool} (h : f.VectorReady phys n p w g)
    (hb : p → b = true) : f.VectorReady phys n (b = true) w g := ⟨h.1, hb h.2.1, h.2.2⟩

/-- Bytes at each of some addresses, with no uncorrectable one among them. -/
theorem Frame.gatherBytes_of {f : Frame} (n : Nat) : ∀ {phys : List Nat}, f.PadGood phys n → f.gatherBytes n phys
    = .ok (phys.map fun a => (List.range n).map fun i => f.byte (Key.pad f.c.id (a + i))).flatten
  | [], _ => rfl
  | a :: as, h => by
    have ha := Frame.padRead_of (h a (List.mem_cons_self ..))
    have ih := gatherBytes_of n (phys := as) fun b hb => h b (List.mem_cons_of_mem a hb)
    rw [Frame.gatherBytes, ha, except_ok_bind, ih, except_ok_bind]
    rfl

/-- An entry of equally long lists put together. -/
theorem getD_flatten {α : Type} (d : α) (n : Nat) : ∀ (l : List (List α)) (c i : Nat), (∀ x ∈ l, x.length = n) → i < n →
    l.flatten.getD (n * c + i) d = (l.getD c []).getD i d
  | [], c, i, _, _ => by simp
  | x :: l, 0, i, h, hi => by
    have hx := h x (List.mem_cons_self ..)
    simp [List.getD, List.getElem?_append_left (show i < x.length by omega)]
  | x :: l, c + 1, i, h, hi => by
    have hx := h x (List.mem_cons_self ..)
    have ih := getD_flatten d n l c i (fun y hy => h y (List.mem_cons_of_mem x hy)) hi
    rw [List.flatten_cons, List.getD_append_right _ _ _ _ (by rw [hx, Nat.mul_succ]; omega), List.getD_cons_succ, ← ih, hx,
      Nat.mul_succ]
    congr 1
    omega

/-- Chunks put together and cut again. -/
theorem sixteens_flatten : ∀ (l : List (List Byte)), (∀ x ∈ l, x.length = 16) → sixteens l.length l.flatten = l
  | [], _ => rfl
  | x :: l, h => by
    have hx := h x (List.mem_cons_self ..)
    rw [List.length_cons, sixteens, List.flatten_cons, List.take_left' hx, List.drop_left' hx,
      sixteens_flatten l fun y hy => h y (List.mem_cons_of_mem x hy)]

/-- A lane of lanes put together. -/
theorem lane_ofLanes {w i : Nat} (l : List Nat) (hi : i < 2048 / w) : (lane w (ofLanes w l) i).toNat = l.getD i 0 % 2 ^ w := by
  rw [ofLanes, lane_ofNat _ hi, BitVec.toNat_ofNat, foldr_lanes_div_mod]

/-- The bytes of a vector made of sixteen chunks. -/
theorem byteOf_vecOfBytes_chunks (l : List (List Byte)) (hl : ∀ x ∈ l, x.length = 16) {c i : Nat} (hc : c < 16) (hi : i < 16) :
    byteOf (vecOfBytes l.flatten) (16 * c + i) = (l.getD c []).getD i 0 := by
  rw [vecOfBytes, byteOf_numLE (by omega), getD_flatten 0 16 l c i hl hi]

/-! ### The transpose -/

/-- An element of the transpose of sixteen chunks. -/
theorem lane_transposeChunks {w : Nat} (hw : 4 ≤ w) (hd : w ∣ 128) (l : List (List Byte)) (hl : l.length = 16) {col j : Nat}
    (hcol : col < 128 / w) (hj : j < 16) : (lane w (transposeChunks w l) (16 * col + j)).toNat
      = numLE (l.getD j []) / 2 ^ (w * col) % 2 ^ w := by
  obtain ⟨m, hm⟩ := hd
  have hw0 : 0 < w := by omega
  have hdiv : 128 / w = m := by rw [hm, Nat.mul_div_cancel_left m hw0]
  have hlanes : 2048 / w = 16 * m := by
    rw [show 2048 = w * (16 * m) by rw [Nat.mul_left_comm, ← hm], Nat.mul_div_cancel_left _ hw0]
  have hlt : 16 * col + j < 2048 / w := by omega
  rw [transposeChunks, lane_ofLanes _ hlt, getD_flatten 0 16 _ col j (by simp [hl]) hj]
  have hcol' : ((List.range (128 / w)).map fun col => l.map fun c => numLE c / 2 ^ (w * col) % 2 ^ w).getD col []
      = l.map fun c => numLE c / 2 ^ (w * col) % 2 ^ w := by
    simp [List.getD, hcol]
  rw [hcol', List.getD_eq_getElem _ _ (by simpa [hl] using hj), List.getElem_map, Nat.mod_mod,
    List.getD_eq_getElem _ _ (by rw [hl]; exact hj)]

/-- The widths that VLDT takes divide a chunk. -/
theorem tagWidth_dvd {t : Nat} (ht : t < 22) (hw : 4 ≤ tagWidth t) : tagWidth t ∣ 128 := by
  interval_cases t <;> revert hw <;> decide

/-! ### Gathers -/

/-- The addresses of the lanes of a gather or a scatter. -/
theorem laneAddrs_eq {w : Nat} (hw : w = 32 ∨ w = 64) (swz base : Nat) (b : Val) : laneAddrs w swz base b
    = (List.range (2048 / w)).map fun i => if (lane 32 (b.lanes 32) i).toNat = 0xFFFFFFFF then none
      else some (swizzle swz (base + (lane 32 (b.lanes 32) i).toNat * (w / 8))) := by
  have htake : (lanes 32 (b.lanes 32)).take (2048 / w) = (List.range (2048 / w)).map fun i => (lane 32 (b.lanes 32) i).toNat := by
    rw [lanes, ← List.map_take, List.take_range]
    rcases hw with rfl | rfl <;> rfl
  rw [laneAddrs, htake, List.map_map]
  rfl

/-- The addresses of the active lanes. -/
theorem laneAddrs_active {w : Nat} (hw : w = 32 ∨ w = 64) (swz base : Nat) (b : Val) : (laneAddrs w swz base b).filterMap id
    = ((List.range (2048 / w)).filter fun i => (lane 32 (b.lanes 32) i).toNat ≠ 0xFFFFFFFF).map
      fun i => swizzle swz (base + (lane 32 (b.lanes 32) i).toNat * (w / 8)) := by
  rw [laneAddrs_eq hw, List.filterMap_map, ← List.filterMap_eq_map, List.filterMap_filter]
  refine List.filterMap_congr fun i _ => ?_
  by_cases h : (lane 32 (b.lanes 32) i).toNat = 0xFFFFFFFF <;> simp [h]

/-- What a gather reads in each lane: zero in an inactive one. -/
theorem Frame.gatherLanesAt_of {f : Frame} (n : Nat) : ∀ {l : List (Option Nat)}, f.PadGood (l.filterMap id) n →
    f.gatherLanesAt n l = .ok (l.map fun o => match o with
      | none => 0
      | some a => numLE ((List.range n).map fun i => f.byte (Key.pad f.c.id (a + i))))
  | [], _ => rfl
  | none :: l, h => by
    have ih := gatherLanesAt_of n (l := l) (by simpa using h)
    rw [Frame.gatherLanesAt, ih, except_ok_bind]
    rfl
  | some a :: l, h => by
    have ha := Frame.padRead_of (h a (by simp))
    have ih := gatherLanesAt_of n (l := l) fun b hb => h b (by simp at hb ⊢; exact .inr hb)
    rw [Frame.gatherLanesAt, ha, except_ok_bind, ih, except_ok_bind]
    rfl

/-- Settles O26: the bytes read are put together, chunk by chunk, transposed, or lane by lane. -/
theorem vectorLoads : Obligations.VectorLoads := by
  refine ⟨?_, ?_, ?_⟩
  · intro h a s f g x k held hr ht hw swz tag base phys hswz htag hready hgood
    set chunks := phys.map fun a => (List.range 16).map fun i => g.byte (Key.pad g.c.id (a + i)) with hchunks
    have hcheck : (k.ready f.unit).padVector phys 16 (base % 16 == 0) base false = .ok g :=
      Frame.padVector_of (hready.test (by simp))
    refine ⟨vecOfBytes chunks.flatten, ?_, fun c i hc hi => ?_⟩
    · refine runSlot_trigger_of_takes (g := fun f => vldTrig f.unit a) hr ht ?_ (hready.noted.late.trans (ht.ready_late _))
      have haccess : accessCheck x.b.value.low (fun t => decide (t < 22)) = .ok () := accessCheck_of (by simpa using htag) hswz
      exact (except_bind_of haccess).trans ((except_bind_of hcheck).trans (except_bind_of (g.gatherBytes_of 16 hgood)))
    · rw [byteOf_vecOfBytes_chunks chunks (by simp [hchunks]) hc hi]
      simp [hchunks, phys, List.getD, hc, hi]
  · intro h a s f g x k held hr ht hw swz tag base p w phys hswz htag hw4 hready hgood
    set chunks := phys.map fun a => (List.range 16).map fun i => g.byte (Key.pad g.c.id (a + i)) with hchunks
    have hcheck : (k.ready f.unit).padVector phys 16 (base % 16 == 0 && p % 16 == 0 && decide (p ≤ 0x10000)) base false = .ok g :=
      Frame.padVector_of (hready.test (by simp; tauto))
    have hlen : chunks.length = 16 := by simp [hchunks, phys]
    have hcut : sixteens 16 chunks.flatten = chunks := by
      rw [← hlen]
      exact sixteens_flatten chunks (by simp [hchunks])
    refine ⟨transposeChunks w chunks, ?_, fun col j hcol hj => ?_⟩
    · refine runSlot_trigger_of_takes (g := fun f => vldtTrig f.unit a) hr ht ?_ (hready.noted.late.trans (ht.ready_late _))
      have haccess : accessCheck x.c.value.low vldtTag = .ok () := accessCheck_of (by simp [vldtTag]; exact ⟨htag, hw4⟩) hswz
      refine (except_bind_of haccess).trans ((except_bind_of hcheck).trans ((except_bind_of (g.gatherBytes_of 16 hgood)).trans ?_))
      exact congrArg (fun l => Except.ok (g, Effect.result 10 ⟨BitVec.ofNat 5 tag, transposeChunks w l, 0⟩)) hcut
    · rw [lane_transposeChunks hw4 (tagWidth_dvd htag hw4) chunks hlen hcol hj]
      simp [hchunks, phys, List.getD, hj]
  · intro h a s f g x k held hr ht hw swz tag base w index phys hswz htag hw32 hready hgood
    have hactive : (laneAddrs w swz base x.b.value).filterMap id = phys := laneAddrs_active hw32 _ _ _
    set l := (laneAddrs w swz base x.b.value).map fun o => match o with
      | none => 0
      | some a => numLE ((List.range (w / 8)).map fun i => g.byte (Key.pad g.c.id (a + i))) with hl
    have hcheck : (k.ready f.unit).padVector phys (w / 8) (base % (w / 8) == 0) base false = .ok g :=
      Frame.padVector_of (hready.test (by simp))
    have hread : g.gatherLanesAt (w / 8) (laneAddrs w swz base x.b.value) = .ok l :=
      g.gatherLanesAt_of (w / 8) (by rw [hactive]; exact hgood)
    refine ⟨ofLanes w l, ?_, fun i hi => ?_⟩
    · refine runSlot_trigger_of_takes (g := fun f => gathTrig f.unit a) hr ht ?_ (hready.noted.late.trans (ht.ready_late _))
      have hok : gatherTag (accessTag x.c.value.low) = true := by
        simp only [gatherTag, Bool.and_eq_true, decide_eq_true_eq]
        exact ⟨htag, by rcases hw32 with e | e <;> (show 32 ≤ w; omega)⟩
      have haccess : accessCheck x.c.value.low gatherTag = .ok () := accessCheck_of hok hswz
      rw [← hactive] at hcheck
      exact (except_bind_of haccess).trans ((except_bind_of hcheck).trans (except_bind_of hread))
    · rw [lane_ofLanes _ hi, hl, laneAddrs_eq hw32, List.getD_eq_getElem _ _ (by simpa using hi)]
      simp only [List.map_map, List.getElem_map, List.getElem_range, Function.comp_apply]
      have hlt : ∀ bs : List Byte, bs.length = w / 8 → numLE bs % 2 ^ w = numLE bs := fun bs hbs => by
        have h8 : 8 * (w / 8) = w := by rcases hw32 with e | e <;> omega
        have hb := numLE_lt bs
        rw [hbs, h8] at hb
        exact Nat.mod_eq_of_lt hb
      by_cases h : (lane 32 (x.b.value.lanes 32) i).toNat = 0xFFFFFFFF
      · simp [h, index]
      · simp only [h, index, if_false]
        exact hlt _ (by simp)

end Sys2Proof.Machine
end

section
/-! PROOF. FPSET, FPFLUSH and the writes of FPST (R103, R104, R174). -/

namespace Sys2Proof.Machine

/-! ### The fields of FPST -/

/-- The bits that a word written to FPST keeps: the flags and RM. -/
theorem fpstWritten_getLsbD (w : Word) {i : Nat} (hi : i < 32) :
    (fpstWritten w).getLsbD i = if i < 6 ∨ i = 8 ∨ i = 9 then w.getLsbD i else false := by
  simp only [fpstWritten, fpstMake, fpstRm, fpstFlags, BitVec.getLsbD_append, BitVec.getLsbD_extractLsb']
  interval_cases i <;> simp

/-- The LFSR that a word written to FPST leaves: a zero one is stored as one (R103). -/
theorem fpstLfsr_fpstWritten (w : Word) : fpstLfsr (fpstWritten w) = if fpstLfsr w = 0 then 1 else fpstLfsr w := by
  apply BitVec.eq_of_getLsbD_eq
  intro i hi
  have hplace : ¬32 + i < 32 := by omega
  simp only [fpstWritten, fpstMake]
  rw [fpstLfsr]
  simp only [BitVec.getLsbD_extractLsb', BitVec.getLsbD_append, hi, decide_true, Bool.true_and]
  rw [if_neg (by omega), if_neg (by omega), if_neg (by omega), if_neg (by omega)]
  congr 1
  omega

/-- A write takes the bits that its mask selects, and leaves the others. -/
theorem fpstMasked_getLsbD (w m v : Word) {i : Nat} (hi : i < 64) :
    (fpstMasked w (m, v)).getLsbD i = if m.getLsbD i then v.getLsbD i else w.getLsbD i := by
  simp only [fpstMasked, BitVec.getLsbD_or, BitVec.getLsbD_and, BitVec.getLsbD_not, hi, decide_true, Bool.true_and]
  cases m.getLsbD i <;> simp

/-- The LFSR after a write whose mask selects all of it or none. -/
theorem fpstLfsr_fpstMasked (w m v : Word) : (fpstLfsr m = 0 → fpstLfsr (fpstMasked w (m, v)) = fpstLfsr w)
    ∧ (fpstLfsr m = BitVec.allOnes 32 → fpstLfsr (fpstMasked w (m, v)) = fpstLfsr v) := by
  have hbit : ∀ (x : Word) (i : Nat), i < 32 → (fpstLfsr x).getLsbD i = x.getLsbD (32 + i) := fun x i hi => by
    simp [fpstLfsr, hi]
  refine ⟨fun hm => BitVec.eq_of_getLsbD_eq fun i hi => ?_, fun hm => BitVec.eq_of_getLsbD_eq fun i hi => ?_⟩
  · have h := hbit m i hi
    rw [hm] at h
    rw [hbit _ _ hi, hbit _ _ hi, fpstMasked_getLsbD _ _ _ (by omega), ← h]
    simp
  · have h := hbit m i hi
    rw [hm] at h
    rw [hbit _ _ hi, hbit _ _ hi, fpstMasked_getLsbD _ _ _ (by omega), ← h, BitVec.getLsbD_allOnes]
    simp [hi]

/-- A group's writes but the last, and then the last. -/
theorem fpstCommit_concat (w : Word) (l : List (Word × Word)) (p : Word × Word) :
    fpstCommit w (l ++ [p]) = fpstWritten (fpstMasked (l.foldl fpstMasked w) p) := by
  have hne : fpstCommit w (l ++ [p]) = fpstWritten ((l ++ [p]).foldl fpstMasked w) := by
    cases l <;> rfl
  rw [hne, List.foldl_append]
  rfl

/-- The fields that a group's writes leave are those of the writes taken together. -/
theorem fpstCommit_getLsbD (w : Word) (l : List (Word × Word)) {i : Nat} (hi : i < 6 ∨ i = 8 ∨ i = 9) :
    (fpstCommit w l).getLsbD i = (l.foldl fpstMasked w).getLsbD i := by
  cases l with
  | nil => rfl
  | cons p l =>
    show (fpstWritten _).getLsbD i = _
    rw [fpstWritten_getLsbD _ (by omega), if_pos hi]

/-- The bits of FPST after a group's writes, the last of which selects with `m` from `v`. -/
theorem fpstCommit_concat_bits (w : Word) (l : List (Word × Word)) (m v : Word) :
    let r := fpstCommit w (l ++ [(m, v)])
    (∀ i, i < 6 ∨ i = 8 ∨ i = 9 → r.getLsbD i = if m.getLsbD i then v.getLsbD i else (fpstCommit w l).getLsbD i)
      ∧ (∀ i, 6 ≤ i ∧ i < 8 ∨ 10 ≤ i ∧ i < 32 → r.getLsbD i = false) := by
  refine ⟨fun i hi => ?_, fun i hi => ?_⟩
  · rw [fpstCommit_concat, fpstWritten_getLsbD _ (by omega), if_pos hi, fpstMasked_getLsbD _ _ _ (by omega), fpstCommit_getLsbD _ _ hi]
  · rw [fpstCommit_concat, fpstWritten_getLsbD _ (by omega), if_neg (by omega)]

/-- The LFSR after a group's writes is never zero. -/
theorem fpstLfsr_fpstCommit_concat (w : Word) (l : List (Word × Word)) (p : Word × Word) :
    fpstLfsr (fpstCommit w (l ++ [p])) = (let q := fpstLfsr (fpstMasked (l.foldl fpstMasked w) p); if q = 0 then 1 else q) := by
  rw [fpstCommit_concat, fpstLfsr_fpstWritten]

/-! ### The triggers -/

/-- A trigger whose operation stalls leaves its slot's own frame, with the slack that has run. -/
theorem trigger_stalls {h : Slot} {g : Trig} {run : Frame → Args → Except Stop (Frame × Effect)} {f r : Frame} {x : Args}
    {k : Fetch} {held : Bool} {w : WaitOn} (a : f.c.again = none) (t : f.Takes g x k held)
    (hrun : run (k.ready g.u) x = .error (.stall w r)) : trigger h g run f = .error (.stall w { f with
      s := { f.s with outbox := r.s.outbox, departing := r.s.departing }
      t := { f.t with req := r.t.req }
      c := { f.c with slk := r.c.slk } }) := by
  obtain ⟨h1, h2, h3, h4, h5⟩ := t
  simp only [Fetch.ready] at hrun
  have m : Frame.mustWait { k.f with c := k.f.c.consume g.u } g x = false := by rw [← h5]; exact mustWait_delivered h1
  simp [trigger, a, h1, h2, h3, Frame.fire, m, hrun, Stop.within]

/-- A slot whose body stalls stands where it stood, and its strand's turn is over. -/
theorem runSlot_of_stall {h : Slot} {body : Frame → Except Stop Frame} {s : State} {f r : Frame} {w : WaitOn}
    (hr : s.Runs h f) (b : body f = .error (.stall w r)) : runSlot h body s = .next (Frame.put { r with
      s := { r.s with turn := r.s.turn.filter (· != r.t.sid) }
      t := { r.t with waits := some w } }) := by
  obtain ⟨f0, h1, h0, h2, h3, h4⟩ := hr
  simp [runSlot, runSlotTo, Frame.stopAt, h1, h0, h2, h3, h4, b, bind, Except.bind, Except.map]

/-- A slot whose operation stalls stands where it stood, with what it waits for and the slack that has run. -/
theorem runSlot_trigger_stalls {h : Slot} {g : Frame → Trig} {run : Frame → Args → Except Stop (Frame × Effect)} {s : State}
    {f r : Frame} {x : Args} {k : Fetch} {held : Bool} {w : WaitOn} (hr : s.Runs h f) (ht : f.Takes (g f) x k held)
    (hrun : run (k.ready (g f).u) x = .error (.stall w r)) (hs : r.s = k.f.s) (hq : r.t = k.f.t) :
    runSlot h (fun f => trigger h (g f) run f) s = .next (Frame.put { f with
      s := { f.s with turn := f.s.turn.filter (· != f.t.sid) }
      t := { f.t with waits := some w }
      c := { f.c with slk := r.c.slk } }) := by
  have hstall := trigger_stalls hr.again ht hrun (h := h)
  obtain ⟨d1, d2, _⟩ := ht.ready_delivered
  rw [hs, hq, d1, d2] at hstall
  exact runSlot_of_stall (body := fun f => trigger h (g f) run f) hr hstall

/-- Settles O28: FPSET and FPFLUSH add to the group's writes, or stall; a group's end commits them, bit by bit. -/
theorem fpstWrites : Obligations.FpstWrites := by
  refine ⟨?_, ?_, ?_, fun w => rfl, ?_, ?_⟩
  · intro h a s f x k held trig hr ht hw
    have hd := ht.ready_delivered
    have hagain : k.f.c.again = none := hd.again.trans hr.again
    have hslk : k.f.c.slk = f.c.slk := by rw [hd.2.2]
    have hwaits : (k.ready f.unit).c.fpsetWaits = f.c.fpsetWaits := congrArg (List.any · Held.isFpset) hd.held
    have hfree : (k.ready f.unit).c.again.isSome = false := by
      show k.f.c.again.isSome = false
      rw [hagain]; rfl
    refine ⟨fun hf => ?_, fun hf => ?_⟩
    · have hneed : ((k.ready f.unit).c.again.isSome || !(k.ready f.unit).c.fpsetWaits) = false := by rw [hfree, hwaits, hf]; rfl
      have h1 : exec (.fpset h a) s = _ := runSlot_trigger_stalls (g := fun f => fpsetTrig f.unit a) (w := .element) (r := { k.ready f.unit with
          c := { (k.ready f.unit).c with slk := (k.ready f.unit).c.slk - (if (k.ready f.unit).c.slk = 0 then 0 else 1) } }) hr ht (need_false_bind hneed) rfl rfl
      have h2 : (k.ready f.unit).c.slk = f.c.slk := hslk
      simp only [h2] at h1
      exact h1
    · have hneed : ((k.ready f.unit).c.again.isSome || !(k.ready f.unit).c.fpsetWaits) = true := by rw [hfree, hwaits, hf]; rfl
      have hraised : (k.ready f.unit).raisedSince = 0 := by
        have : (k.ready f.unit).c.again = none := hagain
        simp [Frame.raisedSince, this]
      have hregs := Fetch.ready_registers hd f.unit
      refine ⟨(k.ready f.unit).writeFpst h true x.b.value.low x.a.value.low, ?_, ?_, hregs.1, hregs.2.1, fun j => ?_, hregs.2.2⟩
      · refine runSlot_trigger_of_takes (g := fun f => fpsetTrig f.unit a) hr ht ?_ (ht.ready_late _)
        refine (need_true_bind hneed).trans ?_
        have hif : ∀ g g' : Frame, (if (k.ready f.unit).raisedSince = 0 then g else g') = g := fun g g' => if_pos hraised
        exact congrArg (fun g => Except.ok (g, Effect.quiet)) (hif _ _)
      · show k.f.c.seq.fpst ++ _ = _
        rw [hd.2.2]
      · show Memory.get k.f.s.mem j = _
        rw [hd.mem, hr.mem]
  · intro h a s f x k held trig mask hr ht hw
    have hd := ht.ready_delivered
    have hagain : (k.ready f.unit).c.again = none := hd.again.trans hr.again
    have hheld : (k.ready f.unit).c.held = f.c.held := hd.held
    have hslk : (k.ready f.unit).c.slk = f.c.slk := by
      show k.f.c.slk = _
      rw [hd.2.2]
    have hother : (k.ready f.unit).holdsOther = !f.c.held.isEmpty := by
      rw [Frame.holdsOther, hagain, hheld]
      cases f.c.held <;> rfl
    refine ⟨fun hf => ?_, fun hf => ?_⟩
    · have hneed : (!(k.ready f.unit).holdsOther) = false := by rw [hother]; simpa using hf
      have h1 : exec (.fpflush h a) s = _ := runSlot_trigger_stalls (g := fun f => fpflushTrig f.unit a) (w := .buffer) (r := k.ready f.unit) hr ht (need_false_bind hneed) rfl rfl
      rw [hslk] at h1
      exact h1
    · have hneed : (!(k.ready f.unit).holdsOther) = true := by rw [hother, hf]; rfl
      have hfound : (k.ready f.unit).fpstFound = f.t.snap.ctx.fpst := by
        rw [Frame.fpstFound, hagain]
        show k.f.t.snap.ctx.fpst = _
        rw [hd.snap]
      have hmask : BitVec.ofNat 64 (fld x.a.value.low 0 6) = mask := by
        simp only [mask, fld_zero]
        apply BitVec.eq_of_toNat_eq
        simp
      have hregs := Fetch.ready_registers hd f.unit
      have hpush : Effect.result 1 (pushWord 14 (k.ready f.unit).fpstFound 0)
          = Effect.result 1 ⟨14, f.t.snap.ctx.fpst.setWidth 2048, 0⟩ := by rw [hfound]; rfl
      have hseq : (k.ready f.unit).c.seq.fpst = f.c.seq.fpst := by
        show k.f.c.seq.fpst = _
        rw [hd.2.2]
      have hu : (fpflushTrig f.unit a).u = f.unit := rfl
      cases hl : slotLeafed h with
      | true =>
        refine ⟨k.ready f.unit, ?_, by simpa using hseq, hregs.1, hregs.2.1, fun j => by
          show Memory.get k.f.s.mem j = _
          rw [hd.mem, hr.mem], hregs.2.2⟩
        refine runSlot_trigger_of_takes (g := fun f => fpflushTrig f.unit a) hr ht ?_ (ht.ready_late _)
        refine (need_true_bind hneed).trans ?_
        simp only [hl, if_true, hu, hpush, hmask]
        rfl
      | false =>
        refine ⟨(k.ready f.unit).writeFpst h (!h.kill) mask 0, ?_, ?_, hregs.1, hregs.2.1, fun j => by
          show Memory.get k.f.s.mem j = _
          rw [hd.mem, hr.mem], hregs.2.2⟩
        · refine runSlot_trigger_of_takes (g := fun f => fpflushTrig f.unit a) hr ht ?_ (ht.ready_late _)
          refine (need_true_bind hneed).trans ?_
          simp only [hl, Bool.false_eq_true, if_false, hu, hpush, hmask]
          rfl
        · exact congrArg (· ++ [(mask, 0)]) hseq
  · intro f
    refine ⟨rfl, rfl, fun ha hslot => ⟨{ f.endGroup with
      c := { f.endGroup.c with seq := { f.endGroup.c.seq with slot := f.c.seq.slot + 1 } } }, ?_, rfl, rfl⟩⟩
    simp only [Frame.advance, ha, if_neg (by omega : ¬7 ≤ f.c.seq.slot), if_true]
  · intro w l m v r
    obtain ⟨hbits, hzero⟩ := fpstCommit_concat_bits w l m v
    have hlfsr := fpstLfsr_fpstCommit_concat w l (m, v)
    obtain ⟨hnone, hall⟩ := fpstLfsr_fpstMasked (l.foldl fpstMasked w) m v
    refine ⟨hbits, hzero, ?_, fun hm hl => ?_, fun hm => ?_⟩
    · simp only [r, hlfsr]
      split
      · decide
      · assumption
    · have hprev : fpstCommit w l = fpstWritten (l.foldl fpstMasked w) := by
        cases l with
        | nil => exact absurd rfl hl
        | cons p l => rfl
      simp only [r, hlfsr, hnone hm]
      rw [hprev, fpstLfsr_fpstWritten]
    · simp only [r, hlfsr, hall hm]
  · intro w m v r q
    obtain ⟨hbits, hzero⟩ := fpstCommit_concat_bits w [] m v
    exact ⟨hbits, hzero, fpstLfsr_fpstCommit_concat w [] (m, v)⟩

end Sys2Proof.Machine
end

section
/-! PROOF. What a computation leaves alone, and one that waits for a column (R104, R147, R187). -/

namespace Sys2Proof.Machine

/-- The unit on which a computation runs: the scalar unit, or that of its slot. -/
def pureUnit (o : PureOp) (f : Frame) : UnitName := match o with | .scalar _ => .sc | .vector _ => f.unit

/-- A computation's instruction. -/
noncomputable def pureInstr (h : Slot) (a : Src) (o : PureOp) : Instr :=
  match o with | .scalar p => scalarInstr h a p | .vector p => vectorInstr h a p

/-- A computation's instruction is its trigger. -/
theorem exec_pureInstr (o : PureOp) (h : Slot) (a : Src) (s : State) : exec (pureInstr h a o) s
    = runSlot h (fun f => trigger h (pureTrig o (pureUnit o f) a) (pureRun o) f) s := by
  cases o with
  | scalar p => exact exec_scalarInstr p h a s
  | vector p => exact exec_vectorInstr p h a s

/-- A computation while an FPSET of its context is held waits at its slot. -/
theorem pureRun_fpsetWaits {o : PureOp} {f : Frame} {x : Args} (h : f.c.fpsetWaits = true) :
    pureRun o f x = .error f.waitHere := by
  rw [pureRun, if_pos h]

/-- The frame after a computation: the LFSR has stepped if it took random bits. -/
theorem pureRun_frame {o : PureOp} {f g : Frame} {x : Args} {e : Effect} (h : pureRun o f x = .ok (g, e)) :
    (g = f ∨ pureRandoms o f x ≠ 0 ∧ ∃ l n, g = { f with c := { f.c with fpst := fpstSetLfsr f.c.fpst l, cvtsrs := n } })
      ∧ (∃ p, e.push = some (pureLatency o, p)) ∧ (x.wait = true → e.op = some (.compute o)) := by
  simp only [pureRun] at h
  split at h
  · cases h
  · split at h
    · cases h
    · rename_i p _
      cases h
      refine ⟨?_, ⟨p, rfl⟩, fun hw => by simp [hw]⟩
      split
      · exact .inl rfl
      · exact .inr ⟨‹_›, _, _, rfl⟩

/-- RM and the flags are not the LFSR's. -/
theorem fpstSetLfsr_fields (w : Word) (l : BitVec 32) :
    fpstRm (fpstSetLfsr w l) = fpstRm w ∧ fpstFlags (fpstSetLfsr w l) = fpstFlags w := by
  constructor
  · apply BitVec.eq_of_getLsbD_eq
    intro i hi
    simp only [fpstRm, fpstSetLfsr, fpstMake, BitVec.getLsbD_extractLsb', BitVec.getLsbD_append]
    interval_cases i <;> simp
  · apply BitVec.eq_of_getLsbD_eq
    intro i hi
    simp only [fpstFlags, fpstSetLfsr, fpstMake, BitVec.getLsbD_extractLsb', BitVec.getLsbD_append]
    interval_cases i <;> simp

/-- Only CVTSR takes random bits. -/
theorem pureRandoms_eq_zero {o : PureOp} (h : ∀ t, o ≠ .vector (.cvt .cvtsr t)) (f : Frame) (x : Args) : pureRandoms o f x = 0 := by
  unfold pureRandoms
  split
  · exact absurd rfl (h _)
  · rfl

/-- What a computation's frame keeps. -/
theorem pureRun_keeps {o : PureOp} {f g : Frame} {x : Args} {e : Effect} (h : pureRun o f x = .ok (g, e)) :
    f.SameRegisters g ∧ f.SameSpecials g ∧ g.s = f.s ∧ g.c.seq.late = f.c.seq.late
      ∧ ((∀ t, o ≠ .vector (.cvt .cvtsr t)) → g.c.fpst = f.c.fpst)
      ∧ fpstRm g.c.fpst = fpstRm f.c.fpst ∧ fpstFlags g.c.fpst = fpstFlags f.c.fpst := by
  obtain ⟨rfl | ⟨hn, l, n, rfl⟩, -, -⟩ := pureRun_frame h
  · exact ⟨⟨rfl, rfl, rfl, rfl, rfl, rfl, rfl, rfl, rfl⟩,
      ⟨rfl, rfl, rfl, rfl, rfl, rfl, rfl, rfl, rfl, rfl, rfl, rfl, rfl, rfl⟩, rfl, rfl, fun _ => rfl, rfl, rfl⟩
  · exact ⟨⟨rfl, rfl, rfl, rfl, rfl, rfl, rfl, rfl, rfl⟩,
      ⟨rfl, rfl, rfl, rfl, rfl, rfl, rfl, rfl, rfl, rfl, rfl, rfl, rfl, rfl⟩, rfl, rfl,
      fun ho => absurd (pureRandoms_eq_zero ho f x) hn, fpstSetLfsr_fields _ _⟩

/-- Settles O21: a computation's frame is that of its delivery, but for the LFSR, its place in flight and the buffer. -/
theorem computationFrame : Obligations.ComputationFrame := by
  refine ⟨?_, ?_⟩
  · intro o h a s f0 f x k held h0 hr u i ht
    have htake : f.Takes (pureTrig o (pureUnit o f) a) x k held := ht
    have hexec : exec i s = runSlot h (fun f => trigger h (pureTrig o (pureUnit o f) a) (pureRun o) f) s := exec_pureInstr o h a s
    have hd := ht.ready_delivered
    have hwaits : (k.ready u).c.fpsetWaits = f.c.fpsetWaits := congrArg (List.any · Held.isFpset) hd.held
    have hslk : (k.ready u).c.slk = f.c.slk := by
      show k.f.c.slk = _
      rw [hd.2.2]
    refine ⟨fun hf => ?_, fun hf hw ho => ?_, fun hw g e hrun => ?_, fun hw r hrun => ?_⟩
    · have h1 := runSlot_trigger_stalls (w := .element) (run := pureRun o) (g := fun f => pureTrig o (pureUnit o f) a)
        (r := { k.ready u with c := { (k.ready u).c with slk := (k.ready u).c.slk - (if (k.ready u).c.slk = 0 then 0 else 1) } })
        hr htake (pureRun_fpsetWaits (hwaits.trans hf)) rfl rfl
      rw [hslk] at h1
      exact hexec.trans h1
    · obtain ⟨p, rfl⟩ := ho
      have hready : (k.ready u).c.fpsetWaits = false := hwaits.trans hf
      simp only [pureRun, hready, Bool.false_eq_true, if_false, pureCompute]
      exact ⟨_, _, rfl⟩
    · obtain ⟨-, hpush, hop⟩ := pureRun_frame hrun
      refine ⟨?_, hpush, hop hw⟩
      rw [hexec]
      exact runSlot_trigger_of_takes (g := fun f => pureTrig o (pureUnit o f) a) hr htake hrun
        ((pureRun_keeps hrun).2.2.2.1.trans (ht.ready_late _))
    · rw [hexec]
      exact runSlot_trigger_traps (g := fun f => pureTrig o (pureUnit o f) a) h0 hr htake hrun
  · intro o h a s f g x k held e hr ht hrun
    have htake : f.Takes (pureTrig o (pureUnit o f) a) x k held := ht
    have hd := ht.ready_delivered
    obtain ⟨hregs, hspecials, hs, hlate, hfpst, hrm, hfl⟩ := pureRun_keeps hrun
    obtain ⟨dregs, dspecials, dfpst⟩ := Fetch.ready_registers hd (pureUnit o f)
    have hkeep := g.settle_keeps h (pureTrig o (pureUnit o f) a) k x held e
    refine ⟨g.settle h (pureTrig o (pureUnit o f) a) k x held e, ?_, (dregs.trans hregs).trans hkeep.1,
      (dspecials.trans hspecials).trans hkeep.2.1, fun j => ?_, fun ho => (hfpst ho).trans dfpst, hrm.trans ?_, hfl.trans ?_⟩
    · refine (exec_pureInstr o h a s).trans ?_
      exact runSlot_trigger_of_takes (g := fun f => pureTrig o (pureUnit o f) a) hr htake hrun (hlate.trans (ht.ready_late _))
    · show Memory.get g.s.mem j = _
      rw [hs, Fetch.ready_mem hd, hr.mem]
    · exact congrArg fpstRm dfpst
    · exact congrArg fpstFlags dfpst

end Sys2Proof.Machine
end

section
/-! PROOF. The transposer's blocks (R186, R187). -/

namespace Sys2Proof.Machine

/-! ### Blocks -/

/-- The first open block of a list, behind closed ones. -/
theorem find_open {l m : List TBlock} {b : TBlock} (hl : ∀ y ∈ l, y.closed = true) (hb : b.closed = false) :
    (l ++ b :: m).find? (!·.closed) = some b := by
  rw [List.find?_append, List.find?_eq_none.2 (by simpa using hl), List.find?_cons_of_pos (by simp [hb])]
  rfl

/-- Replacing the block of a serial number that no other has. -/
theorem replaceIf_serial {l m : List TBlock} {b v : TBlock} (h : ∀ y ∈ l ++ m, y.serial ≠ b.serial) :
    replaceIf (l ++ b :: m) (·.serial == b.serial) v = l ++ v :: m := by
  have hkeep : ∀ k : List TBlock, (∀ y ∈ k, y.serial ≠ b.serial) → (k.map fun x => if x.serial == b.serial then v else x) = k :=
    fun k hk => (List.map_congr_left fun y hy => if_neg (by simpa using hk y hy)).trans (List.map_id k)
  simp only [replaceIf, List.map_append, List.map_cons, hkeep l fun y hy => h y (by simp [hy]),
    hkeep m fun y hy => h y (by simp [hy]), beq_self_eq_true, if_true]

/-- Closing the open block: its columns follow, and what waits for one gets it. -/
theorem Ctx.closeBlock_of {c : Ctx} {l m : List TBlock} {b : TBlock} (cycle : Nat) (hc : c.blocks = l ++ b :: m)
    (hb : b.closed = false) (hl : ∀ y ∈ l, y.closed = true) (h : ∀ y ∈ l ++ m, y.serial ≠ b.serial) :
    let full : TBlock := { b with closed := true, closedAt := cycle }
    c.closeBlock cycle = { c with blocks := l ++ full :: m, held := c.held.map fun y => y.resolve full } := by
  intro full
  have hfind : c.blocks.find? (!·.closed) = some b := by rw [hc]; exact find_open hl hb
  have hrep : replaceIf (l ++ b :: m) (·.serial == full.serial) full = l ++ full :: m := replaceIf_serial h
  rw [Ctx.closeBlock, hfind]
  dsimp only
  rw [hc, hrep]

/-- With no open block nothing closes. -/
theorem Ctx.closeBlock_of_none {c : Ctx} {cycle : Nat} (h : c.blocks.find? (!·.closed) = none) : c.closeBlock cycle = c := by
  rw [Ctx.closeBlock, h]

/-- A sum of fields below a power of two, one beside another, has each at its place. -/
theorem foldl_fields_div_mod (w : Nat) (x : Nat → Nat) (h : ∀ i, x i < 2 ^ w) (n i : Nat) :
    (((List.range n).map fun i => x i * 2 ^ (w * i)).foldl (· + ·) 0) / 2 ^ (w * i) % 2 ^ w = if i < n then x i else 0 := by
  obtain ⟨hlt, hat⟩ := fold_add w x h n
  split
  · exact hat i ‹_›
  · rw [Nat.div_eq_of_lt (hlt.trans_le (Nat.pow_le_pow_right (by omega) (Nat.mul_le_mul_left w (by omega)))), Nat.zero_mod]

/-- Element i of column j is element j of row i, and zero in a row that is missing (R186, R187). -/
theorem lane_column (b : TBlock) {j i : Nat} (hw : b.width = 8 ∨ b.width = 16 ∨ b.width = 32 ∨ b.width = 64) (hi : i < 32) : lane b.width (b.column j) i = match b.rows[i]? with
      | some row => lane b.width row j
      | none => 0 := by
  have hlt : ∀ n : Nat, fld (b.rows.getD n 0) (b.width * j) b.width < 2 ^ b.width := fun n => (BitVec.extractLsb' _ _ _).isLt
  have hcol : b.column j = BitVec.ofNat 2048 (((List.range b.rows.length).map fun n =>
      fld (b.rows.getD n 0) (b.width * j) b.width * 2 ^ (b.width * n)).foldl (· + ·) 0) := by
    rw [TBlock.column]
    congr 2
    apply List.ext_getElem
    · simp
    · intro n h1 h2
      have hn : n < b.rows.length := by simpa using h1
      simp [List.getD, hn]
  have hplace : i < 2048 / b.width := by rcases hw with e | e | e | e <;> rw [e] <;> omega
  apply BitVec.eq_of_toNat_eq
  rw [hcol, lane_ofNat _ hplace, BitVec.toNat_ofNat, foldl_fields_div_mod _ _ hlt]
  by_cases hn : i < b.rows.length
  · simp [hn, List.getD, lane]
  · simp [hn]

/-! ### The triggers -/

/-- A transposer's trigger with its operand delivered leaves what its operation does. -/
theorem transposer_leaves {h : Slot} {a : Option Src} {kinds : Frame → Kind → Kind → Kind → Bool} {s : State} {f g : Frame}
    {x : Args} {k : Fetch} {held : Bool} {run : Frame → Args → Except Stop (Frame × Effect)} (hr : s.Runs h f)
    (ht : f.Takes (transposerTrig a kinds) x k held) (hrun : run (k.ready .tr) x = .ok (g, .quiet))
    (hlate : g.c.seq.late = (k.ready .tr).c.seq.late) :
    runSlot h (fun f => trigger h (transposerTrig a kinds) run f) s
      = .next (g.leaves h (transposerTrig a kinds) k x held .quiet) :=
  runSlot_trigger_of_takes (g := fun _ => transposerTrig a kinds) hr ht hrun (hlate.trans (ht.ready_late _))

/-- The forms of TROW. -/
theorem exec_trow {p : Nat × (Slot → Src → Instr)} (hp : p ∈ [(8, Instr.trowE8), (16, .trowE16), (32, .trowE32), (64, .trowE64)])
    (h : Slot) (a : Src) (s : State) : exec (p.2 h a) s = trowOp p.1 h a s ∧ uintTag p.1 < 32 := by
  fin_cases hp <;> exact ⟨rfl, by decide⟩

/-- The kind of a value that is tagged as an open block, or is not tagged. -/
theorem takesRow_of {c : Ctx} {b : TBlock} {w : Nat} {v : Val} (hb : c.blocks.find? (!·.closed) = some b) (hw : b.width = w)
    (ht : match v with | .tagged t _ => t = b.tag | _ => True) : c.takesRow w v.kind = true := by
  simp only [Ctx.takesRow, hb, hw, beq_self_eq_true, Bool.true_and]
  cases v with
  | tagged t _ => exact beq_iff_eq.2 ht
  | untyped _ => rfl
  | lane => rfl

/-- Adding a row to the open block. -/
theorem Ctx.addRow_of {c : Ctx} {l m : List TBlock} {b : TBlock} (row : Vec) (cycle : Nat) (hc : c.blocks = l ++ b :: m)
    (hb : b.closed = false) (hl : ∀ y ∈ l, y.closed = true) (h : ∀ y ∈ l ++ m, y.serial ≠ b.serial) :
    let added : TBlock := { b with rows := b.rows ++ [row] }
    let full : TBlock := { added with closed := true, closedAt := cycle }
    (b.rows.length + 1 ≠ 32 → c.addRow b row cycle = { c with blocks := l ++ added :: m })
    ∧ (b.rows.length + 1 = 32 → c.addRow b row cycle = { c with
        blocks := l ++ full :: m
        held := c.held.map fun y => y.resolve full }) := by
  intro added full
  have hrep : replaceIf c.blocks (·.serial == b.serial) added = l ++ added :: m := by rw [hc]; exact replaceIf_serial h
  have hlen : added.rows.length = b.rows.length + 1 := by simp [added]
  have hrow : c.addRow b row cycle = if added.rows.length = 32 then Ctx.closeBlock { c with blocks := l ++ added :: m } cycle
      else { c with blocks := l ++ added :: m } := by
    rw [← hrep]
    rfl
  refine ⟨fun hne => ?_, fun he => ?_⟩
  · rw [hrow, if_neg (by omega)]
  · rw [hrow, if_pos (by omega)]
    exact Ctx.closeBlock_of (c := { c with blocks := l ++ added :: m }) cycle rfl hb hl h

/-- Closing a block changes the blocks and what the held operations have. -/
theorem Ctx.closeBlock_frame (c : Ctx) (cycle : Nat) :
    c.closeBlock cycle = { c with blocks := (c.closeBlock cycle).blocks, held := (c.closeBlock cycle).held } := by
  unfold Ctx.closeBlock
  split <;> rfl

theorem Ctx.addRow_seq (c : Ctx) (b : TBlock) (row : Vec) (cycle : Nat) : (c.addRow b row cycle).seq = c.seq := by
  unfold Ctx.addRow
  dsimp only
  split
  · rw [Ctx.closeBlock_frame]
  · rfl

/-- Blocks that are all closed are as they are when the open one is freed. -/
theorem map_freed_of_closed {l : List TBlock} (n : Nat) (h : l.find? (!·.closed) = none) :
    (l.map fun b => if b.closed then b else b.freed n) = l := by
  rw [List.find?_eq_none] at h
  exact (List.map_congr_left fun b hb => if_pos (by simpa using h b hb)).trans (List.map_id l)

/-- The tag that a new block takes from its first row. -/
theorem rowTag_toNat (v : Val) {w : Nat} (h : uintTag w < 32) : (BitVec.ofNat 5 (v.tagOr (uintTag w))).toNat
    = match v with | .tagged t _ => t.toNat | _ => uintTag w := by
  cases v with
  | tagged t _ => simp [Val.tagOr]
  | untyped _ => simp [Val.tagOr, Nat.mod_eq_of_lt h]
  | lane => simp [Val.tagOr, Nat.mod_eq_of_lt h]

/-- Settles O29: each form acts on the list of blocks, and columns are read out of rows. -/
theorem transposerOps : Obligations.TransposerOps := by
  refine ⟨?_, ?_, ?_, ?_, fun b j i hw _ hi _ => lane_column b hw hi⟩
  · intro p h a s f x k held hp trig hr ht hw g row
    obtain ⟨hexec, htag⟩ := exec_trow hp h a s
    refine ⟨fun b hb hwidth hmatch => ?_, fun hnone hroom => ?_⟩
    · refine hexec.trans (transposer_leaves hr ht ?_ ?_)
      · refine (need_true_bind (takesRow_of hb hwidth hmatch)).trans ?_
        rw [show (k.ready .tr).c.blocks.find? (!·.closed) = some b from hb]
        rfl
      · exact congrArg Seq.late (Ctx.addRow_seq _ _ _ _)
    · have htakes : g.c.takesRow p.1 x.a.value.kind = true := by rw [Ctx.takesRow, hnone]
      refine ⟨⟨g.c.nextRid, BitVec.ofNat 5 (x.a.value.tagOr (uintTag p.1)), p.1, [], false, 0, 0, 0⟩, rfl, rfl, rfl, rfl,
        rowTag_toNat _ htag, hexec.trans (transposer_leaves hr ht ?_ ?_)⟩
      · refine (need_true_bind htakes).trans ?_
        rw [show (k.ready .tr).c.blocks.find? (!·.closed) = none from hnone]
        exact need_true_bind (decide_eq_true hroom)
      · exact congrArg Seq.late (Ctx.addRow_seq _ _ _ _)
  · intro c l m b row cycle hc hb hl h
    exact Ctx.addRow_of row cycle hc hb hl h
  · intro h s f x k held trig g hr ht hw
    refine ⟨g.c.closeBlock g.s.cycle, transposer_leaves hr ht rfl ?_, fun l b m hc hb hl hs => ?_, fun hnone => ?_⟩
    · rw [Ctx.closeBlock_frame]
    · exact Ctx.closeBlock_of g.s.cycle hc hb hl hs
    · exact Ctx.closeBlock_of_none hnone
  · intro h s f x k held trig g hr ht hw
    set freed : Ctx := { g.c with blocks := g.c.blocks.map fun b => if b.closed then b else b.freed g.s.fresh } with hfreed
    have hframe := Ctx.closeBlock_frame freed g.s.cycle
    refine ⟨{ freed.closeBlock g.s.cycle with blocks := [] }, transposer_leaves hr ht rfl ?_, ?_, fun hnone => ?_⟩
    · rw [hframe]
    · rw [hframe]
    · have hsame : freed = g.c := by rw [hfreed, map_freed_of_closed _ hnone]
      rw [hsame, Ctx.closeBlock_of_none hnone]

end Sys2Proof.Machine
end

section
/-! PROOF. Transfers of control, fences and the housekeeping of the control unit (R134 to R138, R145 to R152, R156, R281). -/

namespace Sys2Proof.Machine

/-! ### Control operations -/

/-- A control operation whose operands are delivered leaves what it does. -/
theorem controlOp_leaves {h : Slot} {g : Trig} {act : Frame → Word → Word → Word → Except Stop Frame} {s : State} {f r : Frame}
    {x : Args} {k : Fetch} {held : Bool} (hr : s.Runs h f) (ht : f.Takes g x k held)
    (hact : act (k.ready g.u) x.a.value.low x.b.value.low x.c.value.low = .ok r)
    (hlate : r.c.seq.late = (k.ready g.u).c.seq.late) : controlOp h g act s = .next (r.leaves h g k x held .quiet) :=
  runSlot_trigger_of_takes (g := fun _ => g) hr ht (congrArg (Except.map fun g => (g, Effect.quiet)) hact)
    (hlate.trans (ht.ready_late _))

/-- A control operation that traps. -/
theorem controlOp_traps {h : Slot} {g : Trig} {act : Frame → Word → Word → Word → Except Stop Frame} {s : State} {f0 f : Frame}
    {x : Args} {k : Fetch} {held : Bool} {c : Cause} {sub addr : Nat} (h0 : s.frame = some f0) (hr : s.Runs h f)
    (ht : f.Takes g x k held) (hact : act (k.ready g.u) x.a.value.low x.b.value.low x.c.value.low = .error (trapAt c sub addr)) :
    controlOp h g act s = .next (takeTrap f0.begin ⟨c.code, sub, addr, x.a.low, x.b.low, none⟩ false) :=
  runSlot_trigger_traps (g := fun _ => g) (q := ⟨c.code, sub, addr, 0, 0, none⟩) h0 hr ht (congrArg (Except.map fun g => (g, Effect.quiet)) hact)

/-- A check that passes, in a condition. -/
theorem need_eq_ok {b : Bool} {e : Stop} (h : b = true) : need b e = .ok () := by
  subst h; rfl

/-- An operation outside speculation goes on. -/
theorem Frame.settled_of {f : Frame} (h : f.t.spec = none) : f.settled = .ok () := by
  rw [Frame.settled, h]
  rfl

/-- What was asked of the device and is answered lets the operation go on. -/
theorem Frame.await_of {f : Frame} {w : WaitOn} (h : f.t.req = .done w) :
    f.await w = .ok { f with t := { f.t with req := .none } } := by
  rw [Frame.await, if_pos h]

theorem Frame.awaitData_of {f : Frame} {w : WaitOn} {refused : Nat → Stop} (h : f.t.req = .done w) :
    f.awaitData w refused = .ok { f with t := { f.t with req := .none } } := by
  rw [Frame.awaitData, h]
  exact Frame.await_of h

/-! ### Targets (R49, R134) -/

/-- A block address is an absolute target. -/
theorem absoluteTarget_of {w : Word} (h : w.toNat % 32 = 0) : absoluteTarget w = .ok w.toNat := by
  rw [absoluteTarget, fld_zero]
  exact if_pos h

/-- Any other traps ALIGN. -/
theorem absoluteTarget_align {w : Word} (h : w.toNat % 32 ≠ 0) : absoluteTarget w = .error (trapAt .align 0 w.toNat) := by
  rw [absoluteTarget, fld_zero]
  exact if_neg h

/-- A relative target counts blocks from the bundle's address. -/
theorem relativeTarget_eq (pc : Nat) (w : Word) :
    relativeTarget pc w = (((pc : Int) + 32 * (w.setWidth 32).toInt) % 2 ^ 64).toNat := by
  have h : BitVec.ofNat 32 (fld w 0 32) = w.setWidth 32 := by
    apply BitVec.eq_of_toNat_eq
    rw [fld_zero]
    simp
  rw [relativeTarget, sintN, h]

/-! ### Calls and returns (R136 to R138) -/

/-- SPILL's size, from its low bits. -/
theorem spillSize_eq (w : Word) : spillSize w = 2 ^ (w.toNat % 32) := by
  rw [spillSize, fld_zero]
  rfl

/-- A call that the bank has room for. -/
theorem Frame.callTo_resident {f g : Frame} {t : Nat} (h1 : f.c.depth ≠ 4095)
    (h2 : 128 * (f.c.depth + 1 + 2) ≤ 2 ^ (f.c.spill.toNat % 32)) (h3 : f.touch (f.pairBank (f.c.depth + 1)) = .ok g)
    (h4 : f.c.depth + 1 + 1 - g.c.lo + 1 ≤ 2 * g.banks) :
    f.callTo t = .ok (({ g with c := { g.c with hi := f.c.depth + 1 + 1 } } : Frame).transfer (.call t)) := by
  rw [Frame.callTo, need_true_bind (by simpa using h1), need_true_bind (by rw [spillSize_eq]; simpa using h2), h3, except_ok_bind,
    if_neg (by omega), except_ok_bind]
  rfl

/-- A call that first spills the lowest pair. -/
theorem Frame.callTo_spills {f g u : Frame} {r : State} {t : Nat} (h1 : f.c.depth ≠ 4095)
    (h2 : 128 * (f.c.depth + 1 + 2) ≤ 2 ^ (f.c.spill.toNat % 32)) (h3 : f.touch (f.pairBank (f.c.depth + 1)) = .ok g)
    (h4 : 2 * g.banks < f.c.depth + 1 + 1 - g.c.lo + 1) (h5 : g.t.spec = none) (h6 : g.t.spilling.length < 2)
    (h7 : g.touch (g.pairBank g.c.lo) = .ok u) (h8 : u.c.pairSound g.c.lo = true)
    (h9 : u.s.tileWrite u.t.ptn (u.c.pairAddr g.c.lo) (((u.c.pair g.c.lo).map wordBytes).flatten) = .ok r) :
    f.callTo t = .ok (({ s := r
                         t := { u.t with idle := u.t.idle + 2, spilling := u.t.spilling ++ [g.c.lo] }
                         c := { u.c with lo := g.c.lo + 1, hi := f.c.depth + 1 + 1 } } : Frame).transfer (.call t)) := by
  have hspill : g.spillLowest = .ok { u with
      s := r
      t := { u.t with idle := u.t.idle + 2, spilling := u.t.spilling ++ [g.c.lo] }
      c := { u.c with lo := g.c.lo + 1 } } := by
    rw [Frame.spillLowest, Frame.settled_of h5, except_ok_bind, need_true_bind (by simpa using h6)]
    dsimp only
    rw [h7, except_ok_bind, need_true_bind h8, h9]
  rw [Frame.callTo, need_true_bind (by simpa using h1), need_true_bind (by rw [spillSize_eq]; simpa using h2), h3, except_ok_bind,
    if_pos h4, hspill, except_ok_bind]
  rfl

/-- The places of a pair that none of what is uncorrectable names can be read. -/
theorem Ctx.pairSound_of {c : Ctx} {e : Nat} (h : ∀ n, n < 16 → Sram.ring ((16 * e + n) % 256) ∉ c.bad) : c.pairSound e = true := by
  simp only [Ctx.pairSound, pairPlaces, List.all_map, List.all_eq_true, List.mem_range, Function.comp_apply, Ctx.sound,
    Bool.not_eq_eq_eq_not, Bool.not_true, List.contains_eq_mem, decide_eq_false_iff_not]
  exact h

/-! ### The five instructions -/

section
variable {h : Slot} {a : Src} {s : State} {f0 f r : Frame} {x : Args} {k : Fetch} {held : Bool}

/-- A transfer's trigger. -/
def jumpTrig (a : Src) : Trig := transferTrig (some a) false []

theorem exec_jmp_leaves (hr : s.Runs h f) (ht : f.Takes (jumpTrig a) x k held) (ha : x.a.value.low.toNat % 32 = 0) :
    exec (.jmp h a) s
      = .next (((k.ready .ct).transfer (.jump x.a.value.low.toNat)).leaves h (jumpTrig a) k x held .quiet) :=
  have e : exec (.jmp h a) s = execJmp h a s := rfl
  e.trans (controlOp_leaves (r := (k.ready .ct).transfer (.jump x.a.value.low.toNat)) hr ht
    (congrArg (Except.map fun t => (k.ready .ct).transfer (.jump t)) (absoluteTarget_of ha)) rfl)

theorem exec_jmpr_leaves (hr : s.Runs h f) (ht : f.Takes (jumpTrig a) x k held) : exec (.jmpr h a) s
    = .next (((k.ready .ct).transfer (.jump (relativeTarget (k.ready .ct).c.pc x.a.value.low))).leaves h (jumpTrig a) k x held .quiet) :=
  have e : exec (.jmpr h a) s = execJmpr h a s := rfl
  e.trans (controlOp_leaves (r := (k.ready .ct).transfer (.jump (relativeTarget (k.ready .ct).c.pc x.a.value.low))) hr ht rfl rfl)

theorem exec_call_leaves (hr : s.Runs h f) (ht : f.Takes (jumpTrig a) x k held) (ha : x.a.value.low.toNat % 32 = 0)
    (hcall : (k.ready .ct).callTo x.a.value.low.toNat = .ok r) (hlate : r.c.seq.late = (k.ready .ct).c.seq.late) :
    exec (.call h a) s = .next (r.leaves h (jumpTrig a) k x held .quiet) :=
  have e : exec (.call h a) s = execCall h a s := rfl
  e.trans (controlOp_leaves hr ht ((congrArg (·.bind (k.ready .ct).callTo) (absoluteTarget_of ha)).trans hcall) hlate)

theorem exec_callr_leaves (hr : s.Runs h f) (ht : f.Takes (jumpTrig a) x k held)
    (hcall : (k.ready .ct).callTo (relativeTarget (k.ready .ct).c.pc x.a.value.low) = .ok r)
    (hlate : r.c.seq.late = (k.ready .ct).c.seq.late) :
    exec (.callr h a) s = .next (r.leaves h (jumpTrig a) k x held .quiet) :=
  have e : exec (.callr h a) s = execCallr h a s := rfl
  e.trans (controlOp_leaves hr ht hcall hlate)

theorem exec_ret_leaves (hr : s.Runs h f) (ht : f.Takes (jumpTrig a) x k held) (ha : x.a.value.low.toNat % 32 = 0)
    (hret : (k.ready .ct).returnTo x.a.value.low.toNat = .ok r) (hlate : r.c.seq.late = (k.ready .ct).c.seq.late) :
    exec (.ret h a) s = .next (r.leaves h (jumpTrig a) k x held .quiet) :=
  have e : exec (.ret h a) s = execRet h a s := rfl
  e.trans (controlOp_leaves hr ht ((congrArg (·.bind (k.ready .ct).returnTo) (absoluteTarget_of ha)).trans hret) hlate)

theorem exec_absolute_align (h0 : s.frame = some f0) (hr : s.Runs h f) (ht : f.Takes (jumpTrig a) x k held)
    (ha : x.a.value.low.toNat % 32 ≠ 0) : ∀ i ∈ [Instr.jmp h a, .call h a, .ret h a], exec i s
      = .next (takeTrap f0.begin ⟨7, 0, x.a.value.low.toNat, x.a.low, x.b.low, none⟩ false) := by
  have halign := absoluteTarget_align ha
  intro i hi
  simp only [List.mem_cons, List.not_mem_nil, or_false] at hi
  rcases hi with rfl | rfl | rfl
  · have e : exec (.jmp h a) s = execJmp h a s := rfl
    exact e.trans (controlOp_traps (c := .align) h0 hr ht (congrArg (Except.map fun t => (k.ready .ct).transfer (.jump t)) halign))
  · have e : exec (.call h a) s = execCall h a s := rfl
    exact e.trans (controlOp_traps (c := .align) h0 hr ht (congrArg (·.bind (k.ready .ct).callTo) halign))
  · have e : exec (.ret h a) s = execRet h a s := rfl
    exact e.trans (controlOp_traps (c := .align) h0 hr ht (congrArg (·.bind (k.ready .ct).returnTo) halign))

theorem exec_call_traps {c : Cause} {sub addr : Nat} (h0 : s.frame = some f0) (hr : s.Runs h f)
    (ht : f.Takes (jumpTrig a) x k held) (ha : x.a.value.low.toNat % 32 = 0)
    (hcall : (k.ready .ct).callTo x.a.value.low.toNat = .error (trapAt c sub addr)) :
    exec (.call h a) s = .next (takeTrap f0.begin ⟨c.code, sub, addr, x.a.low, x.b.low, none⟩ false) :=
  have e : exec (.call h a) s = execCall h a s := rfl
  e.trans (controlOp_traps h0 hr ht ((congrArg (·.bind (k.ready .ct).callTo) (absoluteTarget_of ha)).trans hcall))

theorem exec_callr_traps {c : Cause} {sub addr : Nat} (h0 : s.frame = some f0) (hr : s.Runs h f)
    (ht : f.Takes (jumpTrig a) x k held)
    (hcall : (k.ready .ct).callTo (relativeTarget (k.ready .ct).c.pc x.a.value.low) = .error (trapAt c sub addr)) :
    exec (.callr h a) s = .next (takeTrap f0.begin ⟨c.code, sub, addr, x.a.low, x.b.low, none⟩ false) :=
  have e : exec (.callr h a) s = execCallr h a s := rfl
  e.trans (controlOp_traps h0 hr ht hcall)

theorem exec_ret_traps {c : Cause} {sub addr : Nat} (h0 : s.frame = some f0) (hr : s.Runs h f)
    (ht : f.Takes (jumpTrig a) x k held) (ha : x.a.value.low.toNat % 32 = 0)
    (hret : (k.ready .ct).returnTo x.a.value.low.toNat = .error (trapAt c sub addr)) :
    exec (.ret h a) s = .next (takeTrap f0.begin ⟨c.code, sub, addr, x.a.low, x.b.low, none⟩ false) :=
  have e : exec (.ret h a) s = execRet h a s := rfl
  e.trans (controlOp_traps h0 hr ht ((congrArg (·.bind (k.ready .ct).returnTo) (absoluteTarget_of ha)).trans hret))

end

/-- Settles O30: the target, the depth and the spill area are checked in order, and then the transfer is asked for. -/
theorem transfersOfControl : Obligations.TransfersOfControl := by
  intro h a s f0 f x k held trig h0 hr ht hw g abs rel d trapped
  have hd := ht.ready_delivered
  have hc : g.c.depth = f.c.depth ∧ g.c.spill = f.c.spill ∧ g.c.lo = f.c.lo ∧ g.c.pc = f.c.pc ∧ g.c.bad = f.c.bad := by
    show k.f.c.depth = _ ∧ k.f.c.spill = _ ∧ k.f.c.lo = _ ∧ k.f.c.pc = _ ∧ k.f.c.bad = _
    rw [hd.2.2]
    exact ⟨rfl, rfl, rfl, rfl, rfl⟩
  obtain ⟨hdepth, hspill, hlo, hpc, hbad⟩ := hc
  have hrel : relativeTarget g.c.pc x.a.value.low = rel := by rw [relativeTarget_eq, hpc]
  refine ⟨fun ha => ?_, ?_, fun ha i hi => ?_, fun p hp => ?_, fun ha hz => ?_, fun g' ha hz htouch => ?_⟩
  · exact exec_jmp_leaves hr ht ha
  · rw [← hrel]
    exact exec_jmpr_leaves hr ht
  · exact exec_absolute_align h0 hr ht ha i hi
  · have hleaves {r : Frame} (hcall : g.callTo p.1 = .ok r) (hlate : r.c.seq.late = g.c.seq.late) :
        exec (p.2 h a) s = .next (r.leaves h trig k x held .quiet) := by
      rcases hp with ⟨rfl, ha⟩ | rfl
      · exact exec_call_leaves hr ht ha hcall hlate
      · exact exec_callr_leaves hr ht (by rw [← hrel] at hcall; exact hcall) hlate
    have htraps {sub : Nat} (hcall : g.callTo p.1 = .error (trapAt .winovf sub 0)) : exec (p.2 h a) s = .next (trapped 9 sub 0) := by
      rcases hp with ⟨rfl, ha⟩ | rfl
      · exact exec_call_traps (c := .winovf) h0 hr ht ha hcall
      · exact exec_callr_traps (c := .winovf) h0 hr ht (by rw [← hrel] at hcall; exact hcall)
    refine ⟨fun h1 => htraps ?_, fun h1 h2 => htraps ?_, fun g' h1 h2 h3 => ?_⟩
    · rw [Frame.callTo, need_false_bind (by rw [hdepth, h1]; rfl)]
      rfl
    · rw [Frame.callTo, need_true_bind (by rw [hdepth]; simpa using h1),
        need_false_bind (by rw [spillSize_eq, hdepth, hspill]; simpa using h2)]
      rfl
    · have hnoted := Frame.touch_noted h3
      have hlo' : g'.c.lo = f.c.lo := by rw [hnoted.2.2]; exact hlo
      rw [← hdepth] at h1
      have h2' : 128 * (g.c.depth + 1 + 2) ≤ 2 ^ (g.c.spill.toNat % 32) := by rw [hdepth, hspill]; exact h2
      have h3' : g.touch (g.pairBank (g.c.depth + 1)) = .ok g' := by rw [hdepth]; exact h3
      refine ⟨fun h4 => ?_, fun u t h4 h5 h6 h7 h8 h9 => ?_⟩
      · have hcall := Frame.callTo_resident (t := p.1) h1 h2' h3' (by rw [hdepth, hlo']; exact h4)
        rw [hdepth] at hcall
        exact hleaves hcall hnoted.late
      · have hu := Frame.touch_noted h7
        have hcu : u.c.bad = f.c.bad ∧ u.c.pair f.c.lo = f.c.pair f.c.lo ∧ u.c.pairAddr f.c.lo = f.c.pairAddr f.c.lo := by
          unfold Ctx.pair Ctx.pairAddr
          rw [hu.2.2, hnoted.2.2]
          show k.f.c.bad = _ ∧ List.map (fun n => vget k.f.c.ring _ 0) _ = _ ∧ spillBase k.f.c.spill + _ = _
          rw [hd.2.2]
          exact ⟨rfl, rfl, rfl⟩
        have hptn : u.t.ptn = f.t.ptn := by
          rw [hu.2.1, hnoted.2.1]
          show k.f.t.ptn = _
          rw [hd.2.1]
        have hcall := Frame.callTo_spills (t := p.1) (u := u) (r := t) h1 h2' h3' (by rw [hdepth, hlo']; exact h4) h5 h6
          (by rw [hlo']; exact h7) (by rw [hlo']; exact Ctx.pairSound_of (by rw [hcu.1]; exact h8))
          (by rw [hlo', hptn, hcu.2.1, hcu.2.2]; exact h9)
        rw [hdepth, hlo'] at hcall
        exact hleaves hcall (hu.late.trans hnoted.late)
  · refine exec_ret_traps (c := .winovf) h0 hr ht ha ?_
    show g.returnTo abs = _
    rw [Frame.returnTo, need_false_bind (by rw [hdepth, hz]; rfl)]
    rfl
  · have hnoted := Frame.touch_noted htouch
    have hlo' : g'.c.lo = f.c.lo := by rw [hnoted.2.2]; exact hlo
    have hsucc : f.c.depth - 1 + 1 = f.c.depth := by omega
    have hto : g.returnTo abs = (if g.c.depth - 1 < g'.c.lo then (do
        let _ ← g'.settled
        let f ← g'.awaitData (.fill (g.c.depth - 1)) (winovf 1)
        return ({ f with c := { f.c with lo := g.c.depth - 1, hi := g.c.depth - 1 + 1 } } : Frame).transfer (.ret abs))
        else .ok (({ g' with c := { g'.c with hi := g.c.depth - 1 + 1 } } : Frame).transfer (.ret abs))) := by
      rw [Frame.returnTo, need_true_bind (by rw [hdepth]; simpa using hz)]
      rw [← hdepth] at htouch
      dsimp only
      rw [htouch, except_ok_bind]
      rfl
    rw [hdepth, hlo', hsucc] at hto
    refine ⟨fun hres => ?_, fun haway hspec hreq => ?_⟩
    · rw [if_neg (by omega)] at hto
      exact exec_ret_leaves hr ht ha hto hnoted.late
    · rw [if_pos haway, Frame.settled_of hspec, except_ok_bind, Frame.awaitData_of hreq, except_ok_bind] at hto
      exact exec_ret_leaves hr ht ha hto hnoted.late

end Sys2Proof.Machine
end

section
/-! PROOF. Fences, barriers, tokens and housekeeping (R145 to R152, R156, R281). -/

namespace Sys2Proof.Machine

/-! ### Window stores that have set out (R147, R156) -/

/-- No held operation of a context is a window store. -/
theorem Ctx.holdsWindowStore_eq_false {c : Ctx} (h : ∀ x ∈ c.held, x.onWindow = true → x.pending = true → x.writes = false) :
    c.holdsWindowStore = false := by
  rw [Ctx.holdsWindowStore, List.any_eq_false]
  intro x hx
  have := h x hx
  cases h1 : x.onWindow <;> cases h2 : x.pending <;> simp_all

/-- Every window store has set out for its bank. -/
theorem Frame.windowHeld_eq_false {f : Frame} (h : f.NoWindowStoreHeld) : f.windowHeld = false := by
  obtain ⟨hdrain, hctx⟩ := h
  have h1 : f.t.drain.any (·.window) = false := by simpa using hdrain
  have h2 : f.c.holdsWindowStore = false := Ctx.holdsWindowStore_eq_false (hctx f.c (.inl rfl))
  have h3 : ((f.t.saved.bind f.s.ctx?).any (·.holdsWindowStore)) = false := by
    cases hs : f.t.saved.bind f.s.ctx? with
    | none => rfl
    | some c => exact Ctx.holdsWindowStore_eq_false (hctx c (.inr (Option.bind_eq_some_iff.1 hs)))
  rw [Frame.windowHeld, h1, h2, h3]
  rfl

theorem Frame.storesOut_of {f : Frame} (h : f.NoWindowStoreHeld) : f.storesOut = .ok () :=
  need_eq_ok (by rw [Frame.windowHeld_eq_false h]; rfl)

/-- Every window store has reached its bank. -/
theorem Frame.windowStoring_eq_false {f : Frame} (hwin : ∀ w ∈ f.s.win, w.ctx = f.c.id ∨ some w.ctx = f.t.saved → w.op.stores = false)
    (h : f.NoWindowStoreHeld) : f.windowStoring = false := by
  have h1 : (f.s.win.any fun a => (a.ctx == f.c.id || some a.ctx == f.t.saved) && a.op.stores) = false := by
    rw [List.any_eq_false]
    intro w hw
    have := hwin w hw
    simpa using this
  rw [Frame.windowStoring, h1, Frame.windowHeld_eq_false h]
  rfl

/-! ### Fences -/

/-- A fence's trigger. -/
def bareTrig : Trig := controlTrig none false false []

section
variable {h : Slot} {s : State} {f : Frame} {x : Args} {k : Fetch} {held : Bool} {n : FenceKind} {sc : Scope}

theorem fenceOp_tile (hr : s.Runs h f) (ht : f.Takes bareTrig x k held) :
    fenceOp n .tile h s = .next ((k.ready .ct).leaves h bareTrig k x held .quiet) :=
  controlOp_leaves (r := k.ready .ct) hr ht rfl rfl

theorem fenceOp_cluster (hr : s.Runs h f) (ht : f.Takes bareTrig x k held) (hspec : (k.ready .ct).t.spec = none)
    (hstore : (k.ready .ct).windowStoring = false) :
    fenceOp n .cluster h s = .next ((k.ready .ct).leaves h bareTrig k x held .quiet) := by
  refine controlOp_leaves (r := k.ready .ct) hr ht ?_ rfl
  have hneed : (!(k.ready .ct).windowStoring) = true := by rw [hstore]; rfl
  exact (except_bind_of (Frame.settled_of hspec)).trans (need_true_bind hneed)

theorem fenceOp_wide (hr : s.Runs h f) (ht : f.Takes bareTrig x k held) (htile : sc ≠ .tile) (hcluster : sc ≠ .cluster)
    (hspec : (k.ready .ct).t.spec = none) (hstore : (k.ready .ct).windowStoring = false)
    (hreq : (k.ready .ct).t.req = .done (.fence n.code sc.code)) : fenceOp n sc h s = .next (Frame.leaves
      { k.ready .ct with t := { (k.ready .ct).t with req := .none } } h bareTrig k x held .quiet) := by
  refine controlOp_leaves (r := { k.ready .ct with t := { (k.ready .ct).t with req := .none } }) hr ht ?_ rfl
  have hgo : (do let _ ← (k.ready .ct).settled
                 let _ ← need (!(k.ready .ct).windowStoring) (.stall (.fence n.code sc.code) (k.ready .ct))
                 (k.ready .ct).await (.fence n.code sc.code))
      = .ok { k.ready .ct with t := { (k.ready .ct).t with req := .none } } :=
    (except_bind_of (Frame.settled_of hspec)).trans ((need_true_bind (by rw [hstore]; rfl)).trans (Frame.await_of hreq))
  cases sc with
  | tile => exact absurd rfl htile
  | cluster => exact absurd rfl hcluster
  | _ => exact hgo

end

/-- Settles O34: each fence is one of `fenceOp`'s, which passes once what it waits for is there. -/
theorem fencesComplete : Obligations.FencesComplete := by
  intro h sc i code s f x k held hi trig hr ht hw g
  obtain ⟨n, hexec, hcode⟩ : ∃ n : FenceKind, exec i s = fenceOp n sc h s ∧ code = n.code := by
    simp only [List.mem_cons, Prod.mk.injEq, List.not_mem_nil, or_false] at hi
    rcases hi with (⟨rfl, rfl⟩ | ⟨rfl, rfl⟩ | ⟨rfl, rfl⟩) | ⟨rfl, rfl, rfl⟩ | ⟨rfl, rfl, rfl⟩
    · exact ⟨.acq, rfl, rfl⟩
    · exact ⟨.rel, rfl, rfl⟩
    · exact ⟨.ar, rfl, rfl⟩
    · exact ⟨.sc, rfl, rfl⟩
    · exact ⟨.sc, rfl, rfl⟩
  subst hcode
  rw [hexec]
  refine ⟨fun hsc => ?_, fun hspec hwin hheld => ?_⟩
  · subst hsc
    exact fenceOp_tile hr ht
  · have hstore : g.windowStoring = false := Frame.windowStoring_eq_false hwin hheld
    refine ⟨fun hsc => ?_, fun htile hcluster hreq => fenceOp_wide hr ht htile hcluster hspec hstore hreq⟩
    subst hsc
    exact fenceOp_cluster hr ht hspec hstore

/-! ### Barriers (R145) -/

/-- The strands after those of a task have left a barrier that is full. -/
def State.leaveFull (s : State) (task n : Nat) : State :=
  if s.barrierFull task n then
    { s with strands := updateIf s.strands (fun t => t.task == task && t.bar == some n) (·.leaveBarrier s.cycle) }
  else s

theorem State.releaseBarriers_eq (s : State) (task : Nat) :
    s.releaseBarriers task = (List.range 16).foldl (fun s n => s.leaveFull task n) s := rfl

/-- A barrier is full when every strand of the task that has not retired has arrived at it. -/
theorem State.barrierFull_iff {s : State} {task n : Nat} :
    s.barrierFull task n = true ↔ ∀ t ∈ s.strands, t.task = task → t.life ≠ .retired → t.bar = some n := by
  simp only [State.barrierFull, List.all_eq_true, List.mem_filter, Bool.and_eq_true, beq_iff_eq, bne_iff_ne, and_imp]

/-- A change of strands that lets only those of a task leave that stand at one of some barriers. -/
def LeavesOnly (task cycle : Nat) (l : List Nat) (p : Strand → Strand) : Prop :=
  ∀ t, p t = t ∨ t.task = task ∧ (∃ m ∈ l, t.bar = some m) ∧ p t = t.leaveBarrier cycle

theorem LeavesOnly.of_not_at {task cycle : Nat} {l : List Nat} {p : Strand → Strand} (h : LeavesOnly task cycle l p) {t : Strand}
    (ht : ∀ m ∈ l, t.bar ≠ some m) : p t = t := by
  rcases h t with h' | ⟨-, ⟨m, hm, hb⟩, -⟩
  · exact h'
  · exact absurd hb (ht m hm)

/-- What such a change keeps of a strand. -/
theorem LeavesOnly.keeps {task cycle : Nat} {l : List Nat} {p : Strand → Strand} (h : LeavesOnly task cycle l p) (t : Strand) :
    (p t).sid = t.sid ∧ (p t).task = t.task ∧ (p t).life = t.life ∧ ((p t).bar = t.bar ∨ (p t).bar = none) := by
  rcases h t with h' | ⟨-, -, h'⟩ <;> rw [h']
  · exact ⟨rfl, rfl, rfl, .inl rfl⟩
  · exact ⟨rfl, rfl, rfl, .inr rfl⟩

/-- One barrier of a task. -/
theorem State.leaveFull_eq_map (s : State) (task n : Nat) : ∃ p, LeavesOnly task s.cycle [n] p
    ∧ s.leaveFull task n = { s with strands := s.strands.map p }
    ∧ (s.barrierFull task n = true → ∀ t, t.task = task → t.bar = some n → p t = t.leaveBarrier s.cycle)
    ∧ (s.barrierFull task n = false → p = id) := by
  cases hfull : s.barrierFull task n with
  | true =>
    refine ⟨fun t => if t.task == task && t.bar == some n then t.leaveBarrier s.cycle else t, fun t => ?_, ?_, fun _ t h1 h2 => ?_, by simp⟩
    · by_cases h : (t.task == task && t.bar == some n) = true
      · have h' := h
        simp only [Bool.and_eq_true, beq_iff_eq] at h'
        exact .inr ⟨h'.1, ⟨n, List.mem_singleton_self n, h'.2⟩, if_pos h⟩
      · exact .inl (if_neg h)
    · rw [State.leaveFull, if_pos hfull]
      rfl
    · exact if_pos (by simp [h1, h2])
  | false =>
    refine ⟨id, fun t => .inl rfl, ?_, by simp, fun _ => rfl⟩
    rw [State.leaveFull, if_neg (by simp [hfull]), List.map_id]

/-- Several barriers of a task, one after another. -/
theorem State.foldl_leaveFull_eq_map (task : Nat) : ∀ (l : List Nat) (s : State), ∃ p, LeavesOnly task s.cycle l p
    ∧ l.foldl (fun s n => s.leaveFull task n) s = { s with strands := s.strands.map p }
  | [], s => ⟨id, fun _ => .inl rfl, by simp⟩
  | n :: l, s => by
    obtain ⟨p, hp, hs, -, -⟩ := s.leaveFull_eq_map task n
    obtain ⟨q, hq, hl⟩ := State.foldl_leaveFull_eq_map task l (s.leaveFull task n)
    rw [hs] at hq hl
    refine ⟨q ∘ p, fun t => ?_, by rw [List.foldl_cons, hs, hl, List.map_map]⟩
    rcases hp t with h1 | ⟨htask, ⟨m, hm, hb⟩, h1⟩
    · rcases hq t with h2 | ⟨htask, ⟨m, hm, hb⟩, h2⟩
      · exact .inl (by rw [Function.comp_apply, h1, h2])
      · exact .inr ⟨htask, ⟨m, List.mem_cons_of_mem n hm, hb⟩, by rw [Function.comp_apply, h1, h2]⟩
    · refine .inr ⟨htask, ⟨m, by rw [List.mem_singleton.1 hm]; exact List.mem_cons_self .., hb⟩, ?_⟩
      rw [Function.comp_apply, h1]
      exact hq.of_not_at fun j _ e => by cases e

/-- The sixteen barriers, with one of them set apart. -/
theorem range_split {n : Nat} (hn : n < 16) : ∃ l m : List Nat, List.range 16 = l ++ n :: m ∧ n ∉ l ∧ n ∉ m := by
  obtain ⟨l, m, h⟩ := List.append_of_mem (List.mem_range.2 hn)
  have hnodup := List.nodup_range (n := 16)
  rw [h, List.nodup_append] at hnodup
  obtain ⟨-, h2, h3⟩ := hnodup
  exact ⟨l, m, h, fun e => h3 n e n (List.mem_cons_self ..) rfl, (List.nodup_cons.1 h2).1⟩

/-- The release of a task's barriers: a full one lets every strand at it go and nobody stands at it any more; one that is not
full keeps every strand that stands at it. -/
theorem State.releaseBarriers_spec (s : State) (task : Nat) {n : Nat} (hn : n < 16) :
    ∃ p, (∀ t, (p t).sid = t.sid ∧ (p t).task = t.task) ∧ s.releaseBarriers task = { s with strands := s.strands.map p }
      ∧ (s.barrierFull task n = true → (∀ t ∈ s.strands, t.task = task → t.bar = some n → p t = t.leaveBarrier s.cycle)
        ∧ ∀ t ∈ s.strands, t.task = task → (p t).bar ≠ some n)
      ∧ (s.barrierFull task n = false → ∀ t ∈ s.strands, t.bar = some n → p t = t) := by
  obtain ⟨l, m, hlm, hl, hm⟩ := range_split hn
  obtain ⟨p, hp, hs1⟩ := s.foldl_leaveFull_eq_map task l
  obtain ⟨q, hq, hs2, hfull, hnot⟩ := ({ s with strands := s.strands.map p } : State).leaveFull_eq_map task n
  obtain ⟨r, hr, hs3⟩ := ({ s with strands := (s.strands.map p).map q } : State).foldl_leaveFull_eq_map task m
  have hsame : ∀ t : Strand, t.bar = some n → p t = t := fun t ht => hp.of_not_at fun j hj e => hl (by
    rw [ht] at e; cases e; exact hj)
  have hsame' : ∀ t : Strand, t.bar = some n → r t = t := fun t ht => hr.of_not_at fun j hj e => hm (by
    rw [ht] at e; cases e; exact hj)
  have hfulls : ({ s with strands := s.strands.map p } : State).barrierFull task n = s.barrierFull task n := by
    rw [Bool.eq_iff_iff, State.barrierFull_iff, State.barrierFull_iff]
    simp only [List.mem_map, forall_exists_index, and_imp, forall_apply_eq_imp_iff₂]
    refine forall₂_congr fun t _ => ?_
    obtain ⟨-, h2, h3, h4⟩ := hp.keeps t
    rw [h2, h3]
    refine forall₂_congr fun _ _ => ⟨fun e => ?_, fun e => by rw [hsame t e]; exact e⟩
    rcases h4 with h4 | h4
    · rw [← h4]; exact e
    · rw [h4] at e; cases e
  rw [hfulls] at hfull hnot
  refine ⟨r ∘ q ∘ p, fun t => ?_, ?_, fun hf => ⟨fun t _ ht hb => ?_, fun t _ ht hb => ?_⟩, fun hf t _ hb => ?_⟩
  · obtain ⟨h1, h2, -⟩ := hp.keeps t
    obtain ⟨h3, h4, -⟩ := hq.keeps (p t)
    obtain ⟨h5, h6, -⟩ := hr.keeps (q (p t))
    exact ⟨h5.trans (h3.trans h1), h6.trans (h4.trans h2)⟩
  · rw [State.releaseBarriers_eq, hlm, List.foldl_append, hs1, List.foldl_cons, hs2, hs3, List.map_map, List.map_map]
  · rw [Function.comp_apply, Function.comp_apply, hsame t hb, hfull hf t ht hb]
    exact hr.of_not_at fun j _ e => by cases e
  · have hrbar := (hr.keeps (q (p t))).2.2.2
    have hqn : (q (p t)).bar = some n := by
      rcases hrbar with h | h
      · rw [← h]; exact hb
      · rw [Function.comp_apply, Function.comp_apply, h] at hb; cases hb
    have hpn : (p t).bar = some n := by
      rcases (hq.keeps (p t)).2.2.2 with h | h
      · rw [← h]; exact hqn
      · rw [h] at hqn; cases hqn
    rw [hfull hf (p t) ((hp.keeps t).2.1.trans ht) hpn] at hqn
    cases hqn
  · rw [Function.comp_apply, Function.comp_apply, hsame t hb, hnot hf]
    exact hsame' t hb

/-! ### The strand whose turn it is -/

/-- The strand of a frame is one of its state's. -/
theorem State.frame_strand {s : State} {f : Frame} (h : s.frame = some f) : f.s = s ∧ s.strand? f.t.sid = some f.t := by
  simp only [State.frame, State.frameOf, Option.bind_eq_some_iff, Option.map_eq_some_iff] at h
  obtain ⟨sid, -, t, ht, c, -, rfl⟩ := h
  have hsid : t.sid = sid := by simpa using List.find?_some ht
  exact ⟨rfl, by rw [hsid]; exact ht⟩

/-- The strand of a slot that runs stands among its frame's strands. -/
theorem State.Runs.strand {s : State} {h : Slot} {f : Frame} (r : s.Runs h f) : ∃ t, f.s.strand? f.t.sid = some t := by
  obtain ⟨f0, h1, _, _, _, h4⟩ := r
  obtain ⟨hs, ht⟩ := State.frame_strand h1
  obtain ⟨d1, d2, -⟩ := Frame.touchAll_delivered h4
  refine ⟨f0.t, ?_⟩
  rw [State.strand?, d1, d2]
  show f0.s.strands.find? (·.sid == f0.t.sid) = some f0.t
  rw [hs]
  exact ht

/-- An element put in place of those that a test picks is the first that the test picks. -/
theorem find?_replaceIf_same {α : Type} {p : α → Bool} {v : α} (hv : p v = true) : ∀ {l : List α}, (l.find? p).isSome = true →
    (replaceIf l p v).find? p = some v
  | [], h => by cases h
  | y :: l, h => by
    by_cases hy : p y = true
    · simp [replaceIf, hy, hv]
    · have hl : (l.find? p).isSome = true := by rwa [List.find?_cons_of_neg hy] at h
      have ih := find?_replaceIf_same hv hl
      simpa [replaceIf, hy] using ih

/-- Writing back a strand leaves it under its number. -/
theorem State.strand?_setStrand {s : State} {t : Strand} (h : ∃ u, s.strand? t.sid = some u) :
    (s.setStrand t).strand? t.sid = some t :=
  find?_replaceIf_same (by simp) (Option.isSome_iff_exists.2 h)

theorem State.mem_setStrand_of_ne {s : State} {t u : Strand} (hu : u ∈ s.strands) (hne : u.sid ≠ t.sid) :
    u ∈ (s.setStrand t).strands := by
  refine List.mem_map.2 ⟨u, hu, ?_⟩
  rw [if_neg (by simpa using hne)]

theorem State.mem_setStrand {s : State} {t u : Strand} (hu : u ∈ (s.setStrand t).strands) : u = t ∨ u ∈ s.strands ∧ u.sid ≠ t.sid := by
  obtain ⟨y, hy, rfl⟩ := List.mem_map.1 hu
  by_cases h : (y.sid == t.sid) = true
  · exact .inl (if_pos h)
  · rw [if_neg h]
    exact .inr ⟨hy, by simpa using h⟩

/-- A number that a change of strands keeps finds the changed one. -/
theorem State.strand?_map {s : State} {p : Strand → Strand} (hp : ∀ t, (p t).sid = t.sid) {sid : Nat} {t : Strand}
    (h : s.strand? sid = some t) : ({ s with strands := s.strands.map p } : State).strand? sid = some (p t) := by
  unfold State.strand? at *
  rw [List.find?_map]
  have hcomp : ((fun t : Strand => t.sid == sid) ∘ p) = fun t => t.sid == sid := by
    funext t
    simp [hp t]
  rw [hcomp, h]
  rfl

/-! ### The instructions -/

section
variable {h : Slot} {a : Src} {s : State} {f : Frame} {x : Args} {k : Fetch} {held : Bool}

/-- A frame whose strand has come to barrier `n`, in the state `s` that this leaves. -/
def Frame.comeTo (g : Frame) (n : Nat) (s : State) : Frame :=
  { g with s := s, t := (s.strand? g.t.sid).getD { g.t with bar := some n } }

/-- What BAR leaves: its strand at the barrier, and the barriers of its task that are full left. -/
def Frame.atBarrier (g : Frame) (n : Nat) : Frame :=
  g.comeTo n ((g.s.setStrand { g.t with bar := some n }).releaseBarriers g.t.task)

/-- BAR outside speculation, with every window store out. -/
def barAct (f : Frame) (a : Word) : Except Stop Frame := do
  let _ ← f.settled
  let _ ← f.storesOut
  return f.atBarrier (fld a 0 4)

theorem execBar_eq (h : Slot) (a : Src) (s : State) : execBar h a s
    = controlOp h (controlTrig (some a) false false []) (fun f a _ _ => barAct f a) s := rfl

theorem exec_bar_leaves (hr : s.Runs h f) (ht : f.Takes (controlTrig (some a) false false []) x k held)
    (hspec : (k.ready .ct).t.spec = none) (hheld : (k.ready .ct).NoWindowStoreHeld) : exec (.bar h a) s
      = .next (((k.ready .ct).atBarrier (x.a.value.low.toNat % 16)).leaves h (controlTrig (some a) false false []) k x held .quiet) := by
  have e : exec (.bar h a) s = execBar h a s := rfl
  rw [e, execBar_eq]
  refine controlOp_leaves (r := (k.ready .ct).atBarrier (x.a.value.low.toNat % 16)) hr ht ?_ rfl
  refine (except_bind_of (Frame.settled_of hspec)).trans ((except_bind_of (Frame.storesOut_of hheld)).trans ?_)
  exact congrArg (fun n => Except.ok (Frame.atBarrier (k.ready .ct) n)) (fld_zero _ _)

/-- The strands of a frame at a barrier, and its own. -/
theorem Frame.atBarrier_spec (g : Frame) {n : Nat} (hn : n < 16) (hown : ∃ t, g.s.strand? g.t.sid = some t) :
    ((∀ t ∈ g.s.strands, t.sid ≠ g.t.sid → t.task = g.t.task → t.life ≠ .retired → t.bar = some n) →
      (g.atBarrier n).t.bar = none ∧ (g.atBarrier n).t.barGo = g.s.cycle + 4
      ∧ (∀ t ∈ g.s.strands, t.sid ≠ g.t.sid → t.task = g.t.task → t.bar = some n →
        { t with bar := none, barGo := g.s.cycle + 4 } ∈ (g.atBarrier n).s.strands)
      ∧ ∀ t ∈ (g.atBarrier n).s.strands, t.task = g.t.task → t.bar ≠ some n)
    ∧ (g.t.life ≠ .retired → (∃ t ∈ g.s.strands, t.sid ≠ g.t.sid ∧ t.task = g.t.task ∧ t.life ≠ .retired ∧ t.bar ≠ some n) →
      (g.atBarrier n).t.bar = some n) := by
  set own : Strand := { g.t with bar := some n } with hown_def
  set s1 := g.s.setStrand own with hs1
  obtain ⟨p, hkeep, hrel, hfull, hnot⟩ := s1.releaseBarriers_spec g.t.task hn
  have hfind : s1.strand? g.t.sid = some own := State.strand?_setStrand (t := own) hown
  have hmem : own ∈ s1.strands := List.mem_of_find?_eq_some hfind
  have hat : g.atBarrier n = g.comeTo n { s1 with strands := s1.strands.map p } := by rw [Frame.atBarrier, ← hown_def, ← hs1, hrel]
  rw [hat]
  have hstate : (g.comeTo n { s1 with strands := s1.strands.map p }).s.strands = s1.strands.map p := rfl
  have ht : (g.comeTo n { s1 with strands := s1.strands.map p }).t = p own := by
    rw [Frame.comeTo, State.strand?_map (fun t => (hkeep t).1) hfind]
    rfl
  refine ⟨fun hall => ?_, fun hlife ⟨t, hts, hne, htask, htlife, hbar⟩ => ?_⟩
  · have hf : s1.barrierFull g.t.task n = true := State.barrierFull_iff.2 fun t hts htask hlife => by
      rcases State.mem_setStrand hts with rfl | ⟨hts, hne⟩
      · rfl
      · exact hall t hts hne htask hlife
    obtain ⟨hleave, hgone⟩ := hfull hf
    have hownp : p own = own.leaveBarrier s1.cycle := hleave own hmem rfl rfl
    refine ⟨by rw [ht, hownp]; rfl, by rw [ht, hownp]; rfl, fun t hts hne htask hbar => ?_, fun t hts htask => ?_⟩
    · rw [hstate]
      have hts1 : t ∈ s1.strands := State.mem_setStrand_of_ne hts hne
      exact List.mem_map.2 ⟨t, hts1, hleave t hts1 htask hbar⟩
    · rw [hstate] at hts
      obtain ⟨u, hu, rfl⟩ := List.mem_map.1 hts
      exact hgone u hu ((hkeep u).2.symm.trans htask)
  · have hf : s1.barrierFull g.t.task n = false := by
      rw [Bool.eq_false_iff]
      exact fun hf => hbar (State.barrierFull_iff.1 hf t (State.mem_setStrand_of_ne hts hne) htask htlife)
    rw [ht, hnot hf own hmem rfl]

theorem postToken_toNat (rank : Nat) (w : Word) :
    (postToken rank w).toNat = (2 ^ 63 + (0xF0 + rank) * 2 ^ 48 + w.toNat % 2 ^ 48) % 2 ^ 64 := by
  rw [postToken, BitVec.toNat_ofNat, fld_zero]

theorem exec_tkpost_leaves (hr : s.Runs h f) (ht : f.Takes (controlTrig (some a) true false []) x k held)
    (hspec : (k.ready .ct).t.spec = none) (hheld : (k.ready .ct).NoWindowStoreHeld)
    (hroom : ((k.ready .ct).t.posts.filter fun p => p.1 < (k.ready .ct).s.cycle).length < 8) : exec (.tkpost h a) s
      = .next (Frame.leaves { k.ready .ct with t := { (k.ready .ct).t with posts := (k.ready .ct).t.posts
          ++ [((k.ready .ct).s.cycle + 6, x.b.value.low.toNat % 16, postToken (k.ready .ct).t.rank x.a.value.low)] } } h
          (controlTrig (some a) true false []) k x held .quiet) := by
  have e : exec (.tkpost h a) s = execTkpost h a s := rfl
  refine e.trans (controlOp_leaves (r := { k.ready .ct with t := { (k.ready .ct).t with posts := (k.ready .ct).t.posts
          ++ [((k.ready .ct).s.cycle + 6, x.b.value.low.toNat % 16, postToken (k.ready .ct).t.rank x.a.value.low)] } }) hr ht ?_ rfl)
  refine (except_bind_of (Frame.settled_of hspec)).trans ((except_bind_of (Frame.storesOut_of hheld)).trans
    ((need_true_bind (decide_eq_true hroom)).trans ?_))
  have hn : fld x.b.value.low 0 4 = x.b.value.low.toNat % 16 := fld_zero _ _
  exact congrArg (fun n => Except.ok { k.ready .ct with t := { (k.ready .ct).t with posts := (k.ready .ct).t.posts
    ++ [((k.ready .ct).s.cycle + 6, n, postToken (k.ready .ct).t.rank x.a.value.low)] } }) hn

theorem exec_heart_leaves (hr : s.Runs h f) (ht : f.Takes bareTrig x k held) :
    ((k.ready .ct).t.spec = none → exec (.heart h) s = .next (Frame.leaves { k.ready .ct with
        s := (k.ready .ct).s.progress (k.ready .ct).t.task
        t := { (k.ready .ct).t with heart := (k.ready .ct).t.heart + 1 } } h bareTrig k x held .quiet))
    ∧ ∀ p, (k.ready .ct).t.spec = some p → exec (.heart h) s = .next (Frame.leaves { k.ready .ct with
        t := { (k.ready .ct).t with spec := some { p with heart := p.heart + 1 } } } h bareTrig k x held .quiet) := by
  have e : exec (.heart h) s = execHeart h s := rfl
  refine ⟨fun hspec => e.trans (controlOp_leaves (r := { k.ready .ct with
        s := (k.ready .ct).s.progress (k.ready .ct).t.task
        t := { (k.ready .ct).t with heart := (k.ready .ct).t.heart + 1 } }) hr ht ?_ rfl), fun p hspec => e.trans (controlOp_leaves
      (r := { k.ready .ct with t := { (k.ready .ct).t with spec := some { p with heart := p.heart + 1 } } }) hr ht ?_ rfl)⟩
  · rw [show (k.ready (controlTrig none false false []).u).t.spec = none from hspec]
    rfl
  · rw [show (k.ready (controlTrig none false false []).u).t.spec = some p from hspec]
    rfl

theorem exec_retire_leaves (hr : s.Runs h f) (ht : f.Takes bareTrig x k held) (hspec : (k.ready .ct).t.spec = none) :
    exec (.retire h) s = .next (Frame.leaves { k.ready .ct with t := { (k.ready .ct).t with life := .draining } } h bareTrig k x
      held .quiet) := by
  have e : exec (.retire h) s = execRetire h s := rfl
  refine e.trans (controlOp_leaves (r := { k.ready .ct with t := { (k.ready .ct).t with life := .draining } }) hr ht ?_ rfl)
  exact need_true_bind (by rw [show (k.ready (controlTrig none false false []).u).t.spec = none from hspec]; rfl)

theorem exec_csync_leaves (hr : s.Runs h f) (ht : f.Takes bareTrig x k held) (hspec : (k.ready .ct).t.spec = none)
    (hreq : (k.ready .ct).t.req = .done .csync) :
    exec (.csync h) s = .next (Frame.leaves { k.ready .ct with t := { (k.ready .ct).t with req := .none } } h bareTrig k x
      held .quiet) := by
  have e : exec (.csync h) s = execCsync h s := rfl
  refine e.trans (controlOp_leaves (r := { k.ready .ct with t := { (k.ready .ct).t with req := .none } }) hr ht ?_ rfl)
  exact (except_bind_of (Frame.settled_of hspec)).trans (Frame.awaitData_of hreq)

end

/-- Settles O33: each form's own rule. -/
theorem controlHousekeeping : Obligations.ControlHousekeeping := by
  intro h a s f x k held hr hw g A
  refine ⟨fun ht => ⟨?_, fun hspec hheld => ?_⟩, fun ht hspec hheld hroom => ?_, fun ht => ?_⟩
  · have e : exec (.slack h a) s = execSlack h a s := rfl
    refine e.trans (controlOp_leaves (r := g.putSlack A) hr ht rfl rfl)
  · have hown : ∃ t, g.s.strand? g.t.sid = some t := by
      obtain ⟨d1, d2, -⟩ := ht.ready_delivered
      obtain ⟨t, ht'⟩ := hr.strand
      refine ⟨t, ?_⟩
      show State.strand? k.f.s k.f.t.sid = _
      rw [State.strand?, d1, d2]
      exact ht'
    have hbar := exec_bar_leaves hr ht hspec hheld
    have hrule := Frame.atBarrier_spec g (n := A.toNat % 16) (Nat.mod_lt _ (by omega)) hown
    generalize Frame.atBarrier g (A.toNat % 16) = r at hbar hrule
    exact ⟨r, hbar, hrule⟩
  · exact ⟨postToken g.t.rank A, exec_tkpost_leaves hr ht hspec hheld hroom, postToken_toNat _ _⟩
  · obtain ⟨h1, h2⟩ := exec_heart_leaves hr ht
    exact ⟨h1, h2, exec_retire_leaves hr ht, exec_csync_leaves hr ht⟩

end Sys2Proof.Machine
end

section
/-! PROOF. The end of a bundle, loops and NEST (R55, R74, R93, R134 to R144). -/

namespace Sys2Proof.Machine

/-! ### What ends of bodies, transfers and squashes keep -/

/-- A field of a word, as an arithmetic expression. -/
theorem fld_eq {n : Nat} (w : BitVec n) (p len : Nat) : fld w p len = w.toNat / 2 ^ p % 2 ^ len := by
  simp [fld, BitVec.extractLsb'_toNat, Nat.shiftRight_eq_div_pow]

/-- The end of a body changes levels alone. -/
theorem Ctx.bodyEnd_levels (pc next : Nat) : ∀ (n : Nat) (c : Ctx),
    (Ctx.bodyEnd pc next n c).1 = { c with levels := (Ctx.bodyEnd pc next n c).1.levels }
  | 0, c => rfl
  | n + 1, c => by
    rw [Ctx.bodyEnd]
    split
    · exact Ctx.bodyEnd_levels pc next n c
    · split
      · rfl
      · split
        · rfl
        · exact Ctx.bodyEnd_levels pc next n _

/-- Above the levels of a number none is active: the end of a body looks at those below it. -/
theorem Ctx.bodyEnd_of_inactive {pc next n : Nat} {c : Ctx} : ∀ (m : Nat), n ≤ m → m ≤ 6 →
    (∀ i : Fin 6, n ≤ i.val → c.levels[i].active = false) → Ctx.bodyEnd pc next m c = Ctx.bodyEnd pc next n c
  | 0, h, _, _ => by rw [Nat.le_zero.1 h]
  | m + 1, h, hm, hall => by
    rcases Nat.lt_or_ge m n with hlt | hge
    · rw [Nat.le_antisymm h hlt]
    · have hl : (vget c.levels m Level.idle).active = false := by
        rw [vget_eq_getElem c.levels (⟨m, hm⟩ : Fin 6)]
        exact hall ⟨m, hm⟩ hge
      rw [Ctx.bodyEnd]
      simpa [hl] using Ctx.bodyEnd_of_inactive m hge (Nat.le_of_succ_le hm) hall

/-- The highest active level, its count not reached and its exit test not met, starts its body again. -/
theorem Ctx.bodyEnd_wraps {pc next : Nat} {c : Ctx} {lv : Fin 6} (hact : c.levels[lv].active = true) (hfin : c.levels[lv].fin = pc)
    (hexit : c.levels[lv].exit = none) (hcount : c.levels[lv].lc.toNat + 1 < c.levels[lv].lb.toNat) :
    Ctx.bodyEnd pc next (lv + 1) c
      = ({ c with levels := c.levels.set lv { c.levels[lv] with lc := c.levels[lv].lc + 1 } }, c.levels[lv].start) := by
  have hexits : c.levels[lv].exits c.preds = false := by rw [Level.exits, hexit]
  have hget : vget c.levels lv Level.idle = c.levels[lv] := vget_eq_getElem ..
  have hgo : c.levels[lv].lc.toNat + 1 < c.levels[lv].lb.toNat ∧ !c.levels[lv].exits c.preds := ⟨hcount, by rw [hexits]; rfl⟩
  rw [Ctx.bodyEnd]
  dsimp only
  rw [hget, vset_eq_set, if_neg (by rw [hact]; simp), if_neg (not_not_intro hfin), if_pos hgo]

theorem Ctx.leaveBodies_levels (c : Ctx) (t : Nat) : c.leaveBodies t = { c with levels := (c.leaveBodies t).levels } := by
  unfold Ctx.leaveBodies
  split <;> rfl

/-- A context at a boundary with another's low registers, predicates and vector registers. -/
def Ctx.AtBoundary (c r : Ctx) : Prop :=
  r.seq.issuing = false ∧ r.low = c.low ∧ r.preds = c.preds ∧ r.vregs = c.vregs

/-- What a squash keeps, and which operations in flight it leaves. -/
theorem Frame.squash_keeps (f : Frame) : f.squash.c.pc = f.c.pc ∧ f.squash.c.depth = f.c.depth ∧ f.squash.c.ring = f.c.ring
    ∧ f.squash.c.seq = f.c.seq ∧ f.squash.c.low = f.c.low ∧ f.squash.c.preds = f.c.preds ∧ f.squash.c.vregs = f.c.vregs
    ∧ f.squash.c.flying = f.c.flying.filter fun x => !f.c.doomed.any (·.rid == x.rid) := ⟨rfl, rfl, rfl, rfl, rfl, rfl, rfl, rfl⟩

/-- The operations that a transfer kills, as a condition on one. -/
def Ctx.Dead (c : Ctx) (x : Flying) : Prop := x.kill = true ∧ (x.leafed = true ∨ c.icyc ≤ x.due + 1)

theorem Ctx.mem_doomed {c : Ctx} {x : Flying} : x ∈ c.doomed ↔ x ∈ c.flying ∧ c.Dead x := by
  simp [Ctx.doomed, Ctx.Dead]

/-- What survives a transfer: operations that do not die, and all whose number no dying one has. -/
theorem Ctx.mem_undoomed (c : Ctx) :
    (∀ x ∈ c.flying.filter fun x => !c.doomed.any (·.rid == x.rid), x ∈ c.flying ∧ ¬c.Dead x)
    ∧ ∀ x ∈ c.flying, (∀ y ∈ c.flying, y.rid = x.rid → ¬c.Dead y) →
      x ∈ c.flying.filter fun x => !c.doomed.any (·.rid == x.rid) := by
  constructor
  · intro x hx
    rw [List.mem_filter] at hx
    obtain ⟨hmem, hnot⟩ := hx
    refine ⟨hmem, fun hdead => ?_⟩
    have : c.doomed.any (·.rid == x.rid) = true := List.any_eq_true.2 ⟨x, Ctx.mem_doomed.2 ⟨hmem, hdead⟩, by simp⟩
    simp [this] at hnot
  · intro x hx hall
    refine List.mem_filter.2 ⟨hx, ?_⟩
    rw [Bool.not_eq_true', List.any_eq_false]
    intro y hy hrid
    obtain ⟨hmem, hdead⟩ := Ctx.mem_doomed.1 hy
    exact hall y hmem (by simpa using hrid) hdead

/-! ### The window after a call (R135, R136) -/

/-- A word of the window stands at its place in the ring. -/
theorem Ctx.readS_ring {c : Ctx} {n : Nat} (h : 8 ≤ n) : c.readS n = vget c.ring (c.ringIndex n) 0 :=
  if_neg (by omega)

/-- A write to a windowed register changes the ring at its place, and nothing else but what can be read there. -/
theorem Ctx.writeS_ring {c : Ctx} {n : Nat} (h : 8 ≤ n) (w : Word) : (c.writeS n w).ring = vset c.ring (c.ringIndex n) w
    ∧ c.writeS n w = { c with ring := (c.writeS n w).ring, bad := (c.writeS n w).bad } := by
  rw [Ctx.writeS, if_neg (by omega)]
  exact ⟨rfl, rfl⟩

/-- The writes of the sixteen words that a call leaves undefined. -/
def Ctx.writeFree (fresh : Nat) (l : List Nat) (c : Ctx) : Ctx :=
  l.foldl (fun c n => c.writeS (16 + n) (Config.freeWord (fresh + n))) c

/-- Writes to s16 up leave a place of the ring that is none of theirs. -/
theorem Ctx.writeFree_ring (fresh : Nat) {j : Nat} : ∀ (l : List Nat) (c : Ctx), (∀ n ∈ l, c.ringIndex (16 + n) ≠ j) →
    vget (Ctx.writeFree fresh l c).ring j 0 = vget c.ring j 0
    ∧ Ctx.writeFree fresh l c = { c with ring := (Ctx.writeFree fresh l c).ring, bad := (Ctx.writeFree fresh l c).bad }
  | [], c, _ => ⟨rfl, rfl⟩
  | n :: l, c, h => by
    obtain ⟨h1, h2⟩ := Ctx.writeS_ring (c := c) (n := 16 + n) (by omega) (Config.freeWord (fresh + n))
    have hcons : Ctx.writeFree fresh (n :: l) c = Ctx.writeFree fresh l (c.writeS (16 + n) (Config.freeWord (fresh + n))) := rfl
    rw [hcons]
    generalize c.writeS (16 + n) (Config.freeWord (fresh + n)) = d at h1 h2 ⊢
    have hindex : ∀ m, d.ringIndex m = c.ringIndex m := fun m => by rw [h2]; rfl
    obtain ⟨i1, i2⟩ := Ctx.writeFree_ring fresh l d fun m hm => by rw [hindex]; exact h m (List.mem_cons_of_mem n hm)
    refine ⟨i1.trans ?_, i2.trans ?_⟩
    · rw [h1, vget_vset_other _ _ _ _ _ (h n (List.mem_cons_self ..))]
    · generalize Ctx.writeFree fresh l d = e
      rw [h2]

/-- A call's window: one deeper, the return address in s15, the caller's s24 to s30 in s8 to s14. -/
theorem Ctx.callWindow_spec (c : Ctx) (ret fresh : Nat) :
    c.callWindow ret fresh = { c with
      depth := c.depth + 1
      ring := (c.callWindow ret fresh).ring
      bad := (c.callWindow ret fresh).bad }
    ∧ (c.callWindow ret fresh).readS 15 = BitVec.ofNat 64 ret
    ∧ ∀ n, 8 ≤ n → n < 15 → (c.callWindow ret fresh).readS n = c.readS (n + 16) := by
  have hr : c.callWindow ret fresh
      = (Ctx.writeFree fresh (List.range 16) { c with depth := c.depth + 1 }).writeS 15 (BitVec.ofNat 64 ret) := rfl
  have hfree : ∀ j, (∀ n, n < 16 → (16 * (c.depth + 1) + (16 + n) - 8) % 256 ≠ j) → _ := fun j hj =>
    Ctx.writeFree_ring fresh (j := j) (List.range 16) { c with depth := c.depth + 1 } fun n hn => hj n (List.mem_range.1 hn)
  obtain ⟨-, hd⟩ := hfree ((16 * (c.depth + 1) + 15 - 8) % 256) (fun n hn => by omega)
  rw [hr]
  generalize Ctx.writeFree fresh (List.range 16) { c with depth := c.depth + 1 } = d at hfree hd ⊢
  obtain ⟨w1, w2⟩ := Ctx.writeS_ring (c := d) (n := 15) (by omega) (BitVec.ofNat 64 ret)
  have hindex : ∀ n, d.ringIndex n = (16 * (c.depth + 1) + n - 8) % 256 := fun n => by rw [hd]; rfl
  generalize d.writeS 15 (BitVec.ofNat 64 ret) = r at w1 w2 ⊢
  have hindex' : ∀ n, r.ringIndex n = (16 * (c.depth + 1) + n - 8) % 256 := fun n => by rw [← hindex n, w2]; rfl
  refine ⟨by rw [w2, hd], ?_, fun n h8 h15 => ?_⟩
  · rw [Ctx.readS_ring (by omega), w1, hindex, hindex']
    exact vget_vset_same _ _ _ _ (Nat.mod_lt _ (by omega))
  · obtain ⟨i1, -⟩ := hfree ((16 * (c.depth + 1) + n - 8) % 256) (fun m hm => by omega)
    rw [Ctx.readS_ring h8, w1, hindex, hindex', vget_vset_other _ _ _ _ _ (by omega), i1, Ctx.readS_ring (by omega),
      Ctx.ringIndex]
    exact congrArg (fun j => vget c.ring j 0) (by omega)

/-! ### The end of a bundle -/

/-- A bundle that transfers nothing falls through, or goes on in its loop. -/
theorem Frame.endBundle_fall {f : Frame} (hleaf : f.c.seq.leaf = 5) (hgoto : f.c.seq.goto = none) : f.endBundle
    = { f with
          c := (Ctx.bodyEnd f.c.pc (nextInSequence f.c.pc f.c.seq.block) 6 f.c).1.goto
            (Ctx.bodyEnd f.c.pc (nextInSequence f.c.pc f.c.seq.block) 6 f.c).2 } := by
  simp [Frame.endBundle, hleaf, hgoto]

/-- A jump, of whatever kind. -/
def Frame.jumpsTo (f : Frame) (t : Nat) : Frame := ({ f with c := (f.c.leaveBodies t).goto t } : Frame).squash

theorem Frame.endBundle_leaf {f : Frame} (hleaf : f.c.seq.leaf ≠ 5) (hgoto : f.c.seq.goto = none) :
    f.endBundle = f.jumpsTo (leafTarget f.c.pc f.c.seq.block f.c.seq.leaf) := by
  simp [Frame.endBundle, hleaf, hgoto, Frame.jumpsTo]

theorem Frame.endBundle_jump {f : Frame} {t : Nat} (hgoto : f.c.seq.goto = some (.jump t)) : f.endBundle = f.jumpsTo t := by
  simp [Frame.endBundle, hgoto, Frame.jumpsTo]

theorem Frame.endBundle_call {f : Frame} {t : Nat} (hgoto : f.c.seq.goto = some (.call t)) : f.endBundle
    = ({ f with
          s := { f.s with fresh := f.s.fresh + 16 }
          c := (f.c.callWindow (nextInSequence f.c.pc f.c.seq.block) f.s.fresh).goto t } : Frame).squash := by
  simp [Frame.endBundle, hgoto]

theorem Frame.endBundle_ret {f : Frame} {t : Nat} (hgoto : f.c.seq.goto = some (.ret t)) : f.endBundle
    = ({ f with c := (({ f.c with depth := f.c.depth - 1 } : Ctx).leaveDepth (f.c.depth - 1)).goto t } : Frame).squash := by
  simp [Frame.endBundle, hgoto]

theorem Frame.endBundle_skip {f : Frame} {t : Nat} (hgoto : f.c.seq.goto = some (.skip t)) : f.endBundle = f.jumpsTo t := by
  simp [Frame.endBundle, hgoto, Frame.jumpsTo]

/-- A contribution goes on as the predicate that it speculates on says: with a jump, or without one. -/
theorem Frame.endBundle_cbr {f : Frame} {p : Bool} {t : Nat} (hgoto : f.c.seq.goto = some (.cbr p t)) :
    ∃ u : Strand, f.endBundle = ({ f with t := u } : Frame).jumpsTo t
      ∨ f.endBundle = { f with
          t := u
          c := (Ctx.bodyEnd f.c.pc (nextInSequence f.c.pc f.c.seq.block) 6 f.c).1.goto
            (Ctx.bodyEnd f.c.pc (nextInSequence f.c.pc f.c.seq.block) 6 f.c).2 } := by
  cases p
  · exact ⟨_, .inr ((if_neg (by simp [hgoto])).trans (by rw [hgoto]; rfl))⟩
  · exact ⟨_, .inl ((if_neg (by simp [hgoto])).trans (by rw [hgoto]; rfl))⟩

/-- What a jump leaves. -/
theorem Frame.jumpsTo_spec (f : Frame) (t : Nat) : f.c.AtBoundary (f.jumpsTo t).c ∧ (f.jumpsTo t).c.pc = t
    ∧ (f.jumpsTo t).c.depth = f.c.depth ∧ (f.jumpsTo t).c.ring = f.c.ring
    ∧ (f.jumpsTo t).c.flying = f.c.flying.filter fun x => !f.c.doomed.any (·.rid == x.rid) := by
  have h := f.c.leaveBodies_levels t
  rw [Frame.jumpsTo, h]
  exact ⟨⟨rfl, rfl, rfl, rfl⟩, rfl, rfl, rfl, rfl⟩

/-- What falling through leaves, or going on in a loop. -/
theorem Ctx.bodyEnd_goto (c : Ctx) (pc next : Nat) : let r := (Ctx.bodyEnd pc next 6 c).1.goto (Ctx.bodyEnd pc next 6 c).2
    c.AtBoundary r ∧ r.pc = (Ctx.bodyEnd pc next 6 c).2 ∧ r.depth = c.depth ∧ r.ring = c.ring
    ∧ r.levels = (Ctx.bodyEnd pc next 6 c).1.levels ∧ r.flying = c.flying := by
  have h := Ctx.bodyEnd_levels pc next 6 c
  dsimp only
  generalize hd : (Ctx.bodyEnd pc next 6 c).1 = d at h ⊢
  rw [h]
  exact ⟨⟨rfl, rfl, rfl, rfl⟩, rfl, rfl, rfl, rfl, rfl⟩

/-- What a call leaves. -/
theorem Frame.endBundle_call_spec {f : Frame} {t : Nat} (hgoto : f.c.seq.goto = some (.call t)) :
    f.c.AtBoundary f.endBundle.c ∧ f.endBundle.c.pc = t ∧ f.endBundle.c.depth = f.c.depth + 1
    ∧ f.endBundle.c.readS 15 = BitVec.ofNat 64 (nextInSequence f.c.pc f.c.seq.block)
    ∧ (∀ n, 8 ≤ n → n < 15 → f.endBundle.c.readS n = f.c.readS (n + 16))
    ∧ f.endBundle.c.flying = f.c.flying.filter fun x => !f.c.doomed.any (·.rid == x.rid) := by
  obtain ⟨h1, h2, h3⟩ := f.c.callWindow_spec (nextInSequence f.c.pc f.c.seq.block) f.s.fresh
  rw [Frame.endBundle_call hgoto]
  generalize f.c.callWindow (nextInSequence f.c.pc f.c.seq.block) f.s.fresh = w at h1 h2 h3 ⊢
  obtain ⟨k1, k2, k3, k4, k5, k6, k7, k8⟩ := Frame.squash_keeps { f with
    s := { f.s with fresh := f.s.fresh + 16 }
    c := w.goto t }
  have hread : ∀ n, (Frame.squash { f with
    s := { f.s with fresh := f.s.fresh + 16 }
    c := w.goto t }).c.readS n = w.readS n := fun n => rfl
  refine ⟨⟨congrArg _ k4, ?_, ?_, ?_⟩, k1, ?_, h2, h3, ?_⟩
  · exact k5.trans (congrArg Ctx.low h1 :)
  · exact k6.trans (congrArg Ctx.preds h1 :)
  · exact k7.trans (congrArg Ctx.vregs h1 :)
  · exact k2.trans (congrArg Ctx.depth h1)
  · rw [k8, h1]
    rfl

/-- What a return leaves. -/
theorem Frame.endBundle_ret_spec {f : Frame} {t : Nat} (hgoto : f.c.seq.goto = some (.ret t)) :
    f.c.AtBoundary f.endBundle.c ∧ f.endBundle.c.pc = t ∧ f.endBundle.c.depth = f.c.depth - 1 ∧ f.endBundle.c.ring = f.c.ring
    ∧ f.endBundle.c.flying = f.c.flying.filter fun x => !f.c.doomed.any (·.rid == x.rid) := by
  rw [Frame.endBundle_ret hgoto]
  exact ⟨⟨rfl, rfl, rfl, rfl⟩, rfl, rfl, rfl, rfl⟩

/-- Every bundle ends at a boundary with the low registers, the predicates and the vector registers as they were. -/
theorem Frame.endBundle_atBoundary (f : Frame) : f.c.AtBoundary f.endBundle.c := by
  by_cases hleaf : f.c.seq.leaf ≠ 5 ∧ f.c.seq.goto = none
  · rw [Frame.endBundle_leaf hleaf.1 hleaf.2]
    exact (f.jumpsTo_spec _).1
  cases hgoto : f.c.seq.goto with
  | none =>
    have h5 : f.c.seq.leaf = 5 := by simpa [hgoto] using hleaf
    rw [Frame.endBundle_fall h5 hgoto]
    exact (f.c.bodyEnd_goto _ _).1
  | some g =>
    cases g with
    | jump t => rw [Frame.endBundle_jump hgoto]; exact (f.jumpsTo_spec t).1
    | skip t => rw [Frame.endBundle_skip hgoto]; exact (f.jumpsTo_spec t).1
    | call t => exact (Frame.endBundle_call_spec hgoto).1
    | ret t => exact (Frame.endBundle_ret_spec hgoto).1
    | cbr p t =>
      obtain ⟨u, hu | hu⟩ := Frame.endBundle_cbr hgoto
      · rw [hu]; exact (Frame.jumpsTo_spec { f with t := u } t).1
      · rw [hu]; exact (f.c.bodyEnd_goto _ _).1

/-- Settles O31: by the kind of the bundle's transfer. -/
theorem bundleEnds : Obligations.BundleEnds := by
  intro f r next
  obtain ⟨hseq, hlow, hpreds, hvregs⟩ := f.endBundle_atBoundary
  obtain ⟨hsurvive, hstay⟩ := f.c.mem_undoomed
  refine ⟨hseq, hlow, hpreds, hvregs, fun hleaf hgoto => ?_, fun hleaf hgoto hidle => ?_,
    fun lv hleaf hgoto hact hfin hidle hexit hcount => ?_, fun t hgoto => ?_, fun t hgoto => ?_, fun t hgoto => ?_,
    fun hleaf hgoto => ?_, fun hkind => ?_⟩
  · obtain ⟨-, h1, h2, h3, -⟩ := f.jumpsTo_spec (leafTarget f.c.pc f.c.seq.block f.c.seq.leaf)
    rw [← Frame.endBundle_leaf hleaf hgoto] at h1 h2 h3
    exact ⟨h1, h2, h3⟩
  · obtain ⟨-, h1, h2, h3, -⟩ := f.c.bodyEnd_goto f.c.pc next
    have hend : Ctx.bodyEnd f.c.pc next 6 f.c = (f.c, next) :=
      Ctx.bodyEnd_of_inactive (n := 0) 6 (by omega) (by omega) fun i _ => hidle i
    have hr : r.c = _ := congrArg Frame.c (Frame.endBundle_fall hleaf hgoto)
    rw [hr]
    exact ⟨h1.trans (congrArg Prod.snd hend), h2, h3⟩
  · obtain ⟨-, h1, h2, h3, h4, -⟩ := f.c.bodyEnd_goto f.c.pc next
    have hend := (Ctx.bodyEnd_of_inactive (pc := f.c.pc) (next := next) (n := lv + 1) 6 (by omega) (by omega)
      fun i hi => hidle i (Fin.lt_def.2 hi)).trans (Ctx.bodyEnd_wraps hact hfin hexit hcount)
    have hr : r.c = _ := congrArg Frame.c (Frame.endBundle_fall hleaf hgoto)
    rw [hr]
    exact ⟨h1.trans (congrArg Prod.snd hend), h2, h3, h4.trans (congrArg (fun p : Ctx × Nat => p.1.levels) hend)⟩
  · obtain ⟨-, h1, h2, h3, -⟩ := f.jumpsTo_spec t
    rw [← Frame.endBundle_jump hgoto] at h1 h2 h3
    exact ⟨h1, h2, h3⟩
  · obtain ⟨-, h1, h2, h3, h4, -⟩ := Frame.endBundle_call_spec hgoto
    refine ⟨h1, h2, ?_, fun n h8 h15 => h4 n h8 h15⟩
    rw [h3, BitVec.toNat_ofNat]
    exact Nat.mod_mod _ _
  · obtain ⟨-, h1, h2, h3, -⟩ := Frame.endBundle_ret_spec hgoto
    exact ⟨h1, h2, h3⟩
  · have hr : r.c = _ := congrArg Frame.c (Frame.endBundle_fall hleaf hgoto)
    rw [hr]
    exact (f.c.bodyEnd_goto _ _).2.2.2.2.2
  · have hflying : r.c.flying = f.c.flying.filter fun x => !f.c.doomed.any (·.rid == x.rid) := by
      rcases hkind with ⟨hleaf, hgoto⟩ | ⟨t, hgoto | hgoto | hgoto⟩
      · exact (congrArg (·.c.flying) (Frame.endBundle_leaf hleaf hgoto)).trans (f.jumpsTo_spec _).2.2.2.2
      · exact (congrArg (·.c.flying) (Frame.endBundle_jump hgoto)).trans (f.jumpsTo_spec _).2.2.2.2
      · exact (Frame.endBundle_call_spec hgoto).2.2.2.2.2
      · exact (Frame.endBundle_ret_spec hgoto).2.2.2.2
    intro dead
    rw [hflying]
    exact ⟨hsurvive, hstay⟩

/-! ### LOOP and LOOPX (R139, R142) -/

/-- A level may be opened when none from it up is active and no active body ends sooner. -/
theorem Ctx.mayOpen_of {c : Ctx} {lv : Fin 6} {fin : Nat} (hidle : ∀ n : Fin 6, lv ≤ n → c.levels[n].active = false)
    (hends : ∀ n : Fin 6, c.levels[n].active = true → fin ≤ c.levels[n].fin) : c.mayOpen lv fin = true := by
  have hdrop : (c.levels.toList.drop lv).any (·.active) = false := by
    rw [List.any_eq_false]
    intro l hl
    obtain ⟨i, hi, rfl⟩ := List.mem_iff_getElem.1 hl
    simp only [List.length_drop, Vector.length_toList] at hi
    have h := hidle ⟨lv + i, by omega⟩ (Fin.le_def.2 (Nat.le_add_right _ _))
    simpa using h
  have hall : (c.levels.toList.any fun l => l.active && decide (l.fin < fin)) = false := by
    rw [List.any_eq_false]
    intro l hl
    obtain ⟨i, hi, rfl⟩ := List.mem_iff_getElem.1 hl
    simp only [Vector.length_toList] at hi
    have h := hends ⟨i, hi⟩
    simpa using h
  rw [Ctx.mayOpen, hdrop, hall]
  simpa using Nat.le_of_lt_succ lv.isLt

/-- The level that LOOP and LOOPX open, from the bundle `start` for `n` bundles more. -/
def Frame.openedLevel (g : Frame) (start n : Nat) (exit : Option (Nat × Bool)) (lb : BitVec 20) : Level :=
  ⟨true, start, g.bundlesOn n start, g.bundlesOn 1 (g.bundlesOn n start), g.c.depth, exit, 0, lb,
    g.bodyBlocks (g.bundlesOn n start) 64 start⟩

/-- A loop that may be opened is skipped if its bound is zero at the group's start, else open. -/
theorem Frame.openLoop_of {g : Frame} {a : Word} {exit : Option (Nat × Bool)} {lv : Fin 6} (hlv : a.toNat / 64 % 8 = lv)
    (hmay : g.c.mayOpen lv (g.bundlesOn (a.toNat % 64) (nextInSequence g.c.pc g.c.seq.block)) = true) :
    (g.t.snap.ctx.levels[lv].lb = 0 → g.openLoop a exit
      = .ok (g.transfer (.skip (g.bundlesOn 1 (g.bundlesOn (a.toNat % 64) (nextInSequence g.c.pc g.c.seq.block))))))
    ∧ (g.t.snap.ctx.levels[lv].lb ≠ 0 → g.openLoop a exit = .ok { g with c := { g.c with
        levels := g.c.levels.set lv (g.openedLevel (nextInSequence g.c.pc g.c.seq.block) (a.toNat % 64) exit
          g.c.levels[lv].lb) } }) := by
  have hlen : fld a 0 6 = a.toNat % 64 := fld_zero a 6
  have hlevel : fld a 6 3 = lv := (fld_eq a 6 3).trans hlv
  have hget : vget g.t.snap.ctx.levels lv Level.idle = g.t.snap.ctx.levels[lv] := vget_eq_getElem ..
  constructor <;> intro hlb <;> rw [Frame.openLoop, hlen, hlevel] <;> dsimp only <;> rw [need_true_bind hmay, hget]
  · rw [if_pos hlb]
    rfl
  · rw [if_neg hlb, Frame.putLevel, vset_eq_set, vget_eq_getElem]
    rfl

/-! ### NEST (R144, R182) -/

/-- An access to a place keeps all but what it notes. -/
theorem Frame.PlaceReady.noted {f g : Frame} {addr width : Nat} {w : Bool} (h : f.PlaceReady addr width w g) : f.Noted g := by
  obtain ⟨-, -, -, u, hu, hg⟩ := h
  exact (touch_noted hu).trans hg.noted

/-- The port that a descriptor binds. -/
def boundFeed (write : Bool) (ws : List Word) (cycle : Nat) : Feed :=
  ⟨true, write, fld (ws.headD 0) 0 21, fld (ws.headD 0) 26 5, BitVec.ofNat 5 (fld (ws.headD 0) 21 5), nestLevels ws, 0, 0, cycle⟩

/-- A port bound to a descriptor; the other ports and the registers are as they were. -/
theorem Frame.bindFeed_spec (g : Frame) (n : Fin 8) (write : Bool) (ws : List Word) :
    (g.bindFeed n write ws).c.feeds[n] = boundFeed write ws g.s.cycle
    ∧ (∀ m : Fin 8, m ≠ n → (g.bindFeed n write ws).c.feeds[m] = g.c.feeds[m])
    ∧ g.SameRegisters (g.bindFeed n write ws) ∧ g.SameSpecials (g.bindFeed n write ws) := by
  have hfeeds : (g.bindFeed n write ws).c.feeds = g.c.feeds.set n (boundFeed write ws g.s.cycle) := vset_eq_set ..
  refine ⟨?_, fun m hm => ?_, ⟨rfl, rfl, rfl, rfl, rfl, rfl, rfl, rfl, rfl⟩,
    ⟨rfl, rfl, rfl, rfl, rfl, rfl, rfl, rfl, rfl, rfl, rfl, rfl, rfl, rfl⟩⟩
  · rw [hfeeds]
    exact Vector.getElem_set_self ..
  · rw [hfeeds]
    exact Vector.getElem_set_ne _ _ fun e => hm (Fin.ext e.symm)

section
variable {h : Slot} {a : Src} {s : State} {f g : Frame} {x : Args} {k : Fetch} {held : Bool}

/-- A nest's descriptor that passes its checks binds its port. -/
theorem exec_nest_leaves (hr : s.Runs h f)
    (ht : f.Takes (nestTrig a) x k held) (hready : (k.ready .ct).PlaceReady x.a.value.low.toNat 64 false g)
    (hgood : g.PadGood [x.a.value.low.toNat] 64) {ws : List Word} (hws : ws = wordsOf 8 (g.bytes (Key.pad g.c.id x.a.value.low.toNat) 64))
    (hcheck : nestCheck ws (x.b.value.low.getLsbD 3) x.a.value.low.toNat = .ok ()) : exec (.nest h a) s
    = .next ((g.bindFeed (x.b.value.low.toNat % 8) (x.b.value.low.getLsbD 3) ws).leaves h (nestTrig a) k x held .quiet) := by
  have e : exec (.nest h a) s = execNest h a s := rfl
  have hread : g.padRead x.a.value.low.toNat 64 = .ok (g.bytes (Key.pad g.c.id x.a.value.low.toNat) 64) := by
    rw [Frame.padRead, hgood _ (List.mem_singleton.2 rfl)]
    rfl
  have hport : fld x.b.value.low 0 3 = x.b.value.low.toNat % 8 := fld_zero _ _
  refine e.trans (runSlot_trigger_of_takes (g := fun _ => nestTrig a) hr ht ?_ (hready.noted.late.trans (ht.ready_late _)))
  have hplace : (k.ready (nestTrig a).u).padPlace x.a.value.low.toNat 64 false = .ok g := Frame.padPlace_of hready
  refine (except_bind_of hplace).trans ((except_bind_of hread).trans ?_)
  dsimp only
  rw [← hws, hport]
  exact except_bind_of hcheck

/-- A loop that is opened, or skipped. -/
theorem exec_loop_leaves {i : Instr} {b : Bool} {exit : Option (Nat × Bool)} {r : Frame}
    (hi : i = .loop h a ∧ b = false ∧ exit = none
      ∨ i = .loopx h a ∧ b = true ∧ exit = some (x.b.value.low.toNat % 8, x.b.value.low.getLsbD 3))
    (hr : s.Runs h f) (ht : f.Takes (transferTrig (some a) b [.loops]) x k held)
    (hopen : (k.ready .ct).openLoop x.a.value.low exit = .ok r) (hlate : r.c.seq.late = (k.ready .ct).c.seq.late) :
    exec i s = .next (r.leaves h (transferTrig (some a) b [.loops]) k x held .quiet) := by
  obtain ⟨rfl, rfl, rfl⟩ | ⟨rfl, rfl, rfl⟩ := hi
  · have e : exec (.loop h a) s = execLoop h a s := rfl
    exact e.trans (controlOp_leaves (r := r) hr ht hopen hlate)
  · have e : exec (.loopx h a) s = execLoopx h a s := rfl
    have hn : fld x.b.value.low 0 3 = x.b.value.low.toNat % 8 := fld_zero _ _
    refine e.trans (controlOp_leaves (r := r) hr ht ?_ hlate)
    rw [← hn] at hopen
    exact hopen

end

/-- Settles O32: LOOP and LOOPX share the opening of a level; NEST binds its port. -/
theorem loopsAndNests : Obligations.LoopsAndNests := by
  refine ⟨?_, ?_⟩
  · intro h a s f x k held i b exit trig hi hr ht _ g len start fin opened lv hlv hidle hends
    obtain ⟨-, d2, d3⟩ := ht.ready_delivered
    have hc : g.c.pc = f.c.pc ∧ g.c.seq.block = f.c.seq.block ∧ g.c.levels = f.c.levels ∧ g.c.depth = f.c.depth := by
      show k.f.c.pc = _ ∧ k.f.c.seq.block = _ ∧ k.f.c.levels = _ ∧ k.f.c.depth = _
      rw [d3]
      exact ⟨rfl, rfl, rfl, rfl⟩
    have hsnap : g.t.snap = f.t.snap := by
      show k.f.t.snap = _
      rw [d2]
    obtain ⟨hpc, hblock, hlevels, hdepth⟩ := hc
    have hstart : nextInSequence g.c.pc g.c.seq.block = start := by rw [hpc, hblock]; rfl
    have hmay : g.c.mayOpen lv (g.bundlesOn (x.a.value.low.toNat % 64) start) = true :=
      Ctx.mayOpen_of (by rw [hlevels]; exact hidle) (by rw [hlevels]; exact hends)
    obtain ⟨h1, h2⟩ := Frame.openLoop_of (exit := exit) hlv (by rw [hstart]; exact hmay)
    rw [hstart, hsnap] at h1 h2
    refine ⟨fun hlb => exec_loop_leaves hi hr ht (h1 hlb) rfl, fun hlb => ?_⟩
    have hopened : g.openedLevel start (x.a.value.low.toNat % 64) exit g.c.levels[lv].lb = opened f.c.levels[lv].lb := by
      rw [Frame.openedLevel, hdepth, hlevels]
      rfl
    rw [hopened] at h2
    exact exec_loop_leaves hi hr ht (h2 hlb) rfl
  · intro h a s f g x k held trig hr ht _ addr ws hready hgood hcheck
    have hn : x.b.value.low.toNat % 8 < 8 := Nat.mod_lt _ (by omega)
    obtain ⟨h1, h2, h3, h4⟩ := g.bindFeed_spec ⟨_, hn⟩ (x.b.value.low.getLsbD 3) ws
    obtain ⟨r1, r2, -⟩ := Fetch.ready_registers ht.ready_delivered .ct
    refine ⟨_, ⟨_, hn⟩, exec_nest_leaves hr ht hready hgood rfl hcheck, rfl, ?_, h2, fun j => ?_,
      (r1.trans hready.noted.registers).trans h3, (r2.trans hready.noted.specials).trans h4⟩
    · rw [h1]
      exact ⟨rfl, rfl, fld_zero _ _, rfl, rfl, rfl⟩
    · show Memory.get g.s.mem j = _
      rw [hready.noted.mem, Fetch.ready_mem ht.ready_delivered, hr.mem]

end Sys2Proof.Machine
end

section
/-! PROOF. Agreement operations (R149, R377, R378). -/

namespace Sys2Proof.Machine

/-- The high bits of a word, as a quotient. -/
theorem fld_top (w : Word) {p len : Nat} (hp : p + len = 64) : fld w p len = w.toNat / 2 ^ p := by
  rw [fld_eq, Nat.mod_eq_of_lt]
  rw [Nat.div_lt_iff_lt_mul (Nat.two_pow_pos p), ← Nat.pow_add, Nat.add_comm, hp]
  exact w.isLt

/-- Fields from bit 0 agree when the low bits do. -/
theorem fld_zero_eq_iff (v w : Word) (len : Nat) : fld v 0 len = fld w 0 len ↔ v.setWidth len = w.setWidth len := by
  rw [fld_zero, fld_zero, ← BitVec.toNat_inj, BitVec.toNat_setWidth, BitVec.toNat_setWidth]

theorem Strand.agSlot_eq (t : Strand) (n : Fin 4) : t.agSlot n = t.ags[n] := vget_eq_getElem ..

/-- Whether the root of a set-up's group is here and reports a member Pre-empted. -/
def State.reportsPre (s : State) (b : Word) : Bool :=
  fld b 50 12 == s.modId && ((s.root? (fld b 0 24)).map fun r => !r.pre.isEmpty).getD false

/-- What AGJOIN leaves: the slot taken. -/
def Frame.joins (f : Frame) (n : Fin 4) (b c : Word) : Frame :=
  { f with t := { f.t with ags := f.t.ags.set n ⟨true, false, f.s.reportsPre b, false, 0, c.extractLsb' 56 8, b, c⟩ } }

/-- What AGLEAVE leaves: the slot free, and the root told. -/
def Frame.leavesSlot (f : Frame) (n : Fin 4) : Frame :=
  { f with s := f.s.leaveSlot f.t.ags[n], t := { f.t with ags := f.t.ags.set n { f.t.ags[n] with joined := false, out := false } } }

/-! ### What each operation does -/

/-- AGJOIN on a frame. -/
def Frame.agjoinAct (f : Frame) (a b c : Word) : Except Stop Frame := do
  let _ ← f.settled
  let n := fld a 0 2
  let _ ← need (fld a 2 62 == 0 && !(f.t.agSlot n).joined && setupOk b c
    && !(f.t.ags.toList.any fun x => x.joined && slotGid x == fld b 0 24)) (trapOf .illenc)
  return { f with t := { f.t with
    ags := vset f.t.ags n ⟨true, false, f.s.reportsPre b, false, 0, BitVec.ofNat 8 (fld c 56 8), b, c⟩ } }

/-- AGLEAVE on a frame. -/
def Frame.agleaveAct (f : Frame) (a : Word) : Except Stop Frame := do
  let _ ← f.settled
  let n := fld a 0 2
  let x := f.t.agSlot n
  let _ ← need (fld a 2 62 == 0 && x.joined) (trapOf .illenc)
  return { f with s := f.s.leaveSlot x, t := { f.t with ags := vset f.t.ags n { x with joined := false, out := false } } }

/-- AGEXCUSE on a frame. -/
def Frame.agexcuseAct (f : Frame) (a b : Word) : Except Stop Frame := do
  let _ ← f.settled
  let _ ← need f.privileged (trapOf .priv)
  let _ ← need (fld a 36 28 == 0 && fld b 24 40 == 0 && fld a 24 12 ≤ 2303) (trapOf .illenc)
  f.askExcuse (fld a 24 12) (fld a 0 24) (fld b 0 24)

/-- CBR on a frame; `f0` is its slot's before the operands were taken. -/
def Frame.cbrAct (f0 f : Frame) (a b : Word) : Except Stop (Frame × Effect) := do
  let n := fld a 0 2
  let x := f.t.agSlot n
  let _ ← need (fld a 7 57 == 0 && fld b 32 32 == 0 && x.joined) (trapOf .illenc)
  let _ ← need f.t.spec.isNone (.stall .agreement f)
  let f ← f.releaseAt (slotScope x)
  let v := bit f.t.snap.ctx.preds (fld a 2 3)
  let pred := if bit a 5 then bit a 6 else v
  let taken := relativeTarget f.c.pc b
  let other := nextInSequence f.c.pc f.c.seq.block
  let spec : Spec := ⟨n, pred, f.c, taken, other, f.c.seq.group, [], 0, none, [], [], 0, f.t.cbx, f.t.cbank, f.t.cbxTill, a, b,
    [], [], f0.retry f⟩
  let t := { f.t with ags := vset f.t.ags n { x with out := true }, spec := some spec }
  return ({ f with s := f.s.contribute (f.contribution n x v), t := t }.transfer (.cbr pred taken), .quiet)

section
variable {f : Frame} {a b c : Word} {n : Fin 4}

theorem Frame.agjoinAct_of (hn : a.toNat % 4 = n) (hspec : f.t.spec = none) (ha : a.toNat / 4 = 0)
    (hfree : f.t.ags[n].joined = false) (hok : setupOk b c = true)
    (hnew : ∀ m : Fin 4, f.t.ags[m].joined = true → f.t.ags[m].agb.setWidth 24 ≠ b.setWidth 24) :
    f.agjoinAct a b c = .ok (f.joins n b c) := by
  have hslot : fld a 0 2 = n := (fld_zero _ _).trans hn
  have hhigh : fld a 2 62 = 0 := (fld_top _ rfl).trans ha
  have hclash : (f.t.ags.toList.any fun y => y.joined && slotGid y == fld b 0 24) = false := by
    rw [List.any_eq_false]
    intro y hy
    obtain ⟨i, hi, rfl⟩ := List.mem_iff_getElem.1 hy
    have hi4 : i < 4 := by simpa using hi
    have hm := hnew ⟨i, hi4⟩
    simp only [Vector.getElem_toList, Bool.and_eq_true, beq_iff_eq, not_and, slotGid, fld_zero_eq_iff]
    exact hm
  have hrnd : BitVec.ofNat 8 (fld c 56 8) = c.extractLsb' 56 8 := BitVec.ofNat_toNat ..
  rw [Frame.agjoinAct, Frame.settled_of hspec, except_ok_bind, hslot, hhigh]
  dsimp only
  rw [Strand.agSlot_eq, hfree, hok, hclash, vset_eq_set, hrnd]
  rfl

theorem Frame.agleaveAct_of (hn : a.toNat % 4 = n) (hspec : f.t.spec = none) (ha : a.toNat / 4 = 0)
    (hjoined : f.t.ags[n].joined = true) : f.agleaveAct a = .ok (f.leavesSlot n) := by
  have hslot : fld a 0 2 = n := (fld_zero _ _).trans hn
  have hhigh : fld a 2 62 = 0 := (fld_top _ rfl).trans ha
  rw [Frame.agleaveAct, Frame.settled_of hspec, except_ok_bind, hslot, hhigh]
  dsimp only
  rw [Strand.agSlot_eq, hjoined, vset_eq_set]
  rfl

theorem Frame.agexcuseAct_of (hspec : f.t.spec = none) (hpriv : f.privileged = true) (ha : a.toNat / 2 ^ 36 = 0)
    (hb : b.toNat / 2 ^ 24 = 0) (hroot : a.toNat / 2 ^ 24 ≤ 2303)
    (hreq : f.t.req = .done (.excuse (a.toNat / 2 ^ 24) (a.toNat % 2 ^ 24) b.toNat)) :
    f.agexcuseAct a b = .ok { f with t := { f.t with req := .none } } := by
  have h1 : fld a 36 28 = 0 := (fld_top _ rfl).trans ha
  have h2 : fld b 24 40 = 0 := (fld_top _ rfl).trans hb
  have h3 : fld a 24 12 = a.toNat / 2 ^ 24 := by rw [fld_eq, Nat.mod_eq_of_lt (by omega)]
  have h4 : fld b 0 24 = b.toNat := by rw [fld_zero, Nat.mod_eq_of_lt (by omega)]
  rw [Frame.agexcuseAct, Frame.settled_of hspec, except_ok_bind, need_true_bind hpriv, h1, h2, h3, h4, fld_zero,
    need_true_bind (by simpa using hroot), Frame.askExcuse, if_neg (by rw [hreq]; simp)]
  exact Frame.await_of hreq

/-- A request that is answered is gone; nothing else changes. -/
theorem Frame.await_ok {f g : Frame} {w : WaitOn} (h : f.await w = .ok g) : g = { f with t := { f.t with req := .none } } := by
  rw [Frame.await] at h
  split at h
  · cases h; rfl
  · cases h

/-- A release at a scope keeps all but what the strand has asked for. -/
theorem Frame.releaseAt_keeps {f g : Frame} {scope : Nat} (h : f.releaseAt scope = .ok g) :
    g = { f with t := { f.t with req := g.t.req } } := by
  unfold Frame.releaseAt at h
  split at h
  · cases h; rfl
  · cases h; rfl
  · obtain ⟨-, -, h⟩ := except_bind_ok h
    obtain ⟨-, -, h⟩ := except_bind_ok h
    cases h; rfl
  · obtain ⟨-, -, h⟩ := except_bind_ok h
    obtain ⟨-, -, h⟩ := except_bind_ok h
    rw [Frame.await_ok h]

/-- What a contribution leaves: the slot waits for its answer, the strand speculates, and the root is told. -/
def Frame.contributes (f : Frame) (n : Fin 4) (y : AgSlot) (v : Bool) (p : Spec) : Frame :=
  ({ f with
    s := f.s.contribute (f.contribution n y v)
    t := { f.t with ags := f.t.ags.set n { y with out := true }, spec := some p } } : Frame).transfer (.cbr p.pred p.taken)

theorem Frame.cbrAct_of {f0 g : Frame} (hn : a.toNat % 4 = n) (hspec : f.t.spec = none) (ha : a.toNat / 2 ^ 7 = 0)
    (hb : b.toNat / 2 ^ 32 = 0) (hjoined : f.t.ags[n].joined = true) (hrel : f.releaseAt (slotScope f.t.ags[n]) = .ok g) :
    let v := f.t.snap.ctx.preds.getLsbD (a.toNat / 4 % 8)
    ∃ p : Spec, p.slot = n ∧ p.pred = (if a.getLsbD 5 then a.getLsbD 6 else v) ∧ p.taken = relativeTarget f.c.pc b
      ∧ p.stores = [] ∧ p.trap = none ∧ f0.cbrAct f a b = .ok (g.contributes n f.t.ags[n] v p, .quiet) := by
  have hslot : fld a 0 2 = n := (fld_zero _ _).trans hn
  have h1 : fld a 7 57 = 0 := (fld_top _ rfl).trans ha
  have h2 : fld b 32 32 = 0 := (fld_top _ rfl).trans hb
  have hpred : fld a 2 3 = a.toNat / 4 % 8 := fld_eq ..
  have hkeep := Frame.releaseAt_keeps hrel
  have hsnap : g.t.snap = f.t.snap := by rw [hkeep]
  have hpc : g.c = f.c := by rw [hkeep]
  rw [← hsnap]
  refine ⟨⟨n, _, g.c, relativeTarget g.c.pc b, nextInSequence g.c.pc g.c.seq.block, g.c.seq.group, [], 0, none, [], [], 0, g.t.cbx,
    g.t.cbank, g.t.cbxTill, a, b, [], [], f0.retry g⟩, rfl, rfl, by rw [hpc], rfl, rfl, ?_⟩
  rw [Frame.cbrAct, hslot, h1, h2, hpred]
  dsimp only
  rw [Strand.agSlot_eq, need_true_bind (by rw [hjoined]; rfl), need_true_bind (by rw [hspec]; rfl), hrel, except_ok_bind, vset_eq_set]
  rfl

end

/-! ### The instructions -/

section
variable {h : Slot} {a : Src} {s : State} {f : Frame} {x : Args} {k : Fetch} {held : Bool} {n : Fin 4}

theorem exec_cbr_leaves {g : Frame} (hr : s.Runs h f) (ht : f.Takes (transferTrig (some a) true []) x k held)
    (hn : x.a.value.low.toNat % 4 = n) (hspec : (k.ready .ct).t.spec = none) (ha : x.a.value.low.toNat / 2 ^ 7 = 0)
    (hb : x.b.value.low.toNat / 2 ^ 32 = 0) (hjoined : (k.ready .ct).t.ags[n].joined = true)
    (hrel : (k.ready .ct).releaseAt (slotScope (k.ready .ct).t.ags[n]) = .ok g) :
    let v := (k.ready .ct).t.snap.ctx.preds.getLsbD (x.a.value.low.toNat / 4 % 8)
    ∃ p : Spec, p.slot = n ∧ p.pred = (if x.a.value.low.getLsbD 5 then x.a.value.low.getLsbD 6 else v)
      ∧ p.taken = relativeTarget (k.ready .ct).c.pc x.b.value.low ∧ p.stores = [] ∧ p.trap = none
      ∧ exec (.cbr h a) s = .next ((g.contributes n (k.ready .ct).t.ags[n] v p).leaves h (transferTrig (some a) true []) k x held
        .quiet) := by
  have e : exec (.cbr h a) s = execCbr h a s := rfl
  obtain ⟨p, h1, h2, h3, h4, h5, hact⟩ := Frame.cbrAct_of (f0 := f) hn hspec ha hb hjoined hrel
  have hlate : g.c.seq.late = [] :=
    (congrArg (fun f : Frame => f.c.seq.late) (Frame.releaseAt_keeps hrel)).trans (ht.ready_late .ct)
  exact ⟨p, h1, h2, h3, h4, h5, e.trans (runSlot_of_ok hr (trigger_of_takes hr.again ht hact hlate))⟩

end

/-- Settles O35: the four forms. -/
theorem agreementOps : Obligations.AgreementOps := by
  intro h a s f x k held hr _ g A B C n hn hspec
  refine ⟨fun ht ha hfree hok hnew => ⟨g.s.reportsPre B, ?_⟩, fun ht ha hjoined => ?_, fun ht hpriv ha hb hroot hreq => ?_,
    fun ht ha hb hjoined g' hrel => ?_⟩
  · have e : exec (.agjoin h a) s = execAgjoin h a s := rfl
    exact e.trans (controlOp_leaves (r := g.joins n B C) hr ht (Frame.agjoinAct_of hn hspec ha hfree hok hnew) rfl)
  · have e : exec (.agleave h a) s = execAgleave h a s := rfl
    exact e.trans (controlOp_leaves (r := g.leavesSlot n) hr ht (Frame.agleaveAct_of hn hspec ha hjoined) rfl)
  · have e : exec (.agexcuse h a) s = execAgexcuse h a s := rfl
    exact e.trans (controlOp_leaves (r := { g with t := { g.t with req := .none } }) hr ht
      (Frame.agexcuseAct_of hspec hpriv ha hb hroot hreq) rfl)
  · obtain ⟨p, h1, h2, h3, h4, h5, he⟩ := exec_cbr_leaves hr ht hn hspec ha hb hjoined hrel
    intro v pred target
    have htarget : p.taken = target := h3.trans (relativeTarget_eq ..)
    refine ⟨_, he, ?_, ⟨p, rfl, h1, h2, htarget, h4, h5⟩, rfl, rfl⟩
    show some (Transfer.cbr p.pred p.taken) = _
    rw [h2, htarget]

end Sys2Proof.Machine
end

section
/-! PROOF. System registers and interleave domains (R154 to R157, R253, R267 to R271, R310, R376). -/

namespace Sys2Proof.Machine

/-! ### What each register reads (R154) -/

/-- The bits of a slot as a sum of fields, each below the next. -/
theorem AgSlot.bits_eq (y : AgSlot) : y.bits
    = y.joined.toNat * 32768 + y.out.toNat * 16384 + y.pm.toNat * 8192 + y.lv.toNat * 4096 + y.lst % 16 * 256 + y.rnd.toNat := by
  have h (b : Bool) (n : Nat) : (if b = true then n else 0) = b.toNat * n := by cases b <;> simp
  simp only [AgSlot.bits, h, Nat.reducePow]

theorem AgSlot.bits_lt (y : AgSlot) : y.bits < 65536 := by
  have h1 := y.rnd.isLt
  have h2 := Bool.toNat_le y.joined
  have h3 := Bool.toNat_le y.out
  have h4 := Bool.toNat_le y.pm
  have h5 := Bool.toNat_le y.lv
  rw [AgSlot.bits_eq]
  omega

/-- A truth as a bit of a number. -/
theorem bool_eq_of_toNat {b : Bool} {n : Nat} (h : n % 2 = b.toNat) : decide (n % 2 = 1) = b := by
  rw [h]
  cases b <;> rfl

theorem AgSlot.bits_fields (y : AgSlot) : y.bits.testBit 15 = y.joined ∧ y.bits.testBit 14 = y.out ∧ y.bits.testBit 13 = y.pm
    ∧ y.bits.testBit 12 = y.lv ∧ y.bits / 256 % 16 = y.lst % 16 ∧ y.bits % 256 = y.rnd.toNat := by
  have h1 := y.rnd.isLt
  have h2 := Bool.toNat_le y.joined
  have h3 := Bool.toNat_le y.out
  have h4 := Bool.toNat_le y.pm
  have h5 := Bool.toNat_le y.lv
  have e := y.bits_eq
  simp only [Nat.testBit_eq_decide_div_mod_eq]
  refine ⟨bool_eq_of_toNat ?_, bool_eq_of_toNat ?_, bool_eq_of_toNat ?_, bool_eq_of_toNat ?_, ?_, ?_⟩ <;> omega

/-- Four numbers of sixteen bits in a word, the first lowest. -/
theorem quarters_div {a b c d : Nat} (ha : a < 65536) (hb : b < 65536) (hc : c < 65536) (hd : d < 65536) (m : Fin 4) :
    (a + b * 65536 + c * 4294967296 + d * 281474976710656) / 2 ^ (16 * m.val) % 65536 = [a, b, c, d].getD m 0 := by
  fin_cases m <;> simp <;> omega

/-- The sum over four numbered elements. -/
theorem foldl_zipIdx_four {α : Type} (g : α × Nat → Nat) (p q r u : α) :
    ([p, q, r, u].zipIdx.map g).foldl (· + ·) 0 = g (p, 0) + g (q, 1) + g (r, 2) + g (u, 3) := by
  simp [List.zipIdx]

/-- AGS holds the bits of each slot, the first lowest. -/
theorem Strand.readAgs_toNat (t : Strand) : t.readAgs.toNat
    = t.ags[0].bits + t.ags[1].bits * 65536 + t.ags[2].bits * 4294967296 + t.ags[3].bits * 281474976710656 := by
  have h : t.ags.toList = [t.ags[0], t.ags[1], t.ags[2], t.ags[3]] := by
    apply List.ext_getElem
    · simp
    · intro i h1 h2
      have : i < 4 := by simpa using h1
      interval_cases i <;> simp
  have b0 := t.ags[0].bits_lt
  have b1 := t.ags[1].bits_lt
  have b2 := t.ags[2].bits_lt
  have b3 := t.ags[3].bits_lt
  rw [Strand.readAgs, h, foldl_zipIdx_four, BitVec.toNat_ofNat]
  dsimp only
  generalize t.ags[0].bits = a, t.ags[1].bits = b, t.ags[2].bits = c, t.ags[3].bits = d at *
  omega

theorem Strand.readAgs_div (t : Strand) (m : Fin 4) : t.readAgs.toNat / 2 ^ (16 * m.val) % 65536 = t.ags[m].bits := by
  rw [Strand.readAgs_toNat, quarters_div t.ags[0].bits_lt t.ags[1].bits_lt t.ags[2].bits_lt t.ags[3].bits_lt m]
  fin_cases m <;> rfl

/-- A bit of a word in sixteen of them that stand together. -/
theorem Strand.readAgs_bit (t : Strand) (m : Fin 4) {j : Nat} (hj : j < 16) :
    t.readAgs.getLsbD (16 * m + j) = t.ags[m].bits.testBit j := by
  have h := t.readAgs_div m
  rw [← h, BitVec.getLsbD, Nat.testBit_mod_two_pow (j := 16), Nat.testBit_div_two_pow, decide_eq_true hj, Bool.true_and,
    Nat.add_comm]

/-- OWNn holds the owner bits of 32 blocks. -/
theorem Frame.readOwn_bit (f : Frame) (n : Nat) {i : Nat} (hi : i < 64) :
    (f.readOwn n).getLsbD i = (decide (i < 32) && f.ownerBit (32 * n + i)) := by
  have hmap : ((List.range 32).map fun i => if f.ownerBit (32 * n + i) then 2 ^ i else 0)
      = (List.range 32).map fun i => (f.ownerBit (32 * n + i)).toNat * 2 ^ (1 * i) := by
    refine List.map_congr_left fun i _ => ?_
    cases f.ownerBit (32 * n + i) <;> simp
  have hsum := foldl_fields_div_mod 1 (fun i => (f.ownerBit (32 * n + i)).toNat) (fun i => by
    have := Bool.toNat_le (f.ownerBit (32 * n + i)); omega) 32 i
  rw [Frame.readOwn, hmap, BitVec.getLsbD_ofNat, decide_eq_true hi, Bool.true_and, Nat.testBit_eq_decide_div_mod_eq]
  rw [Nat.one_mul, Nat.pow_one] at hsum
  rw [hsum]
  by_cases h : i < 32
  · rw [if_pos h, decide_eq_true h]
    cases f.ownerBit (32 * n + i) <;> rfl
  · rw [if_neg h, decide_eq_false h]
    rfl

theorem State.readTopov_toNat (s : State) :
    s.readTopov.toNat = (if s.swp then 256 else 0) + 16 * s.stg.toNat + s.cur.toNat := by
  have h1 := s.stg.isLt
  have h2 := s.cur.isLt
  rw [State.readTopov, BitVec.toNat_ofNat]
  cases s.swp <;> simp <;> omega

theorem Strand.readXdone_toNat (t : Strand) (j : Fin 16) :
    (t.readXdone j).toNat = t.chans[j].open_.foldl min t.chans[j].next % 2 ^ 48 := by
  rw [Strand.readXdone, vget_eq_getElem, BitVec.toNat_ofNat, Chan.doneId]
  omega

theorem Frame.readDomain_eq (f : Frame) {d : Fin 8} (hd : dieOf f.t.ptn = d) (j : Fin 16) :
    f.readDomain j = f.s.dies[d].dom[j] ||| (if f.s.dies[d].busy[j] then 0x2000000000000000 else 0) := by
  rw [Frame.readDomain, hd, vget_eq_getElem, vget_eq_getElem, vget_eq_getElem]
  rfl

/-- The registers from number 16 up. -/
theorem Frame.readSystem_high (g : Frame) {n : Nat} (h : 0x10 ≤ n) : g.readSystem n
    = if n < 0x20 then g.readOwn (n - 0x10) else if n < 0x30 then g.t.readXdone (n - 0x20)
      else if n < 0x38 then vget g.t.tsave (n - 0x30) 0 else if 0x40 ≤ n ∧ n < 0x50 then g.readDomain (n - 0x40) else 0 :=
  if_neg (Nat.not_lt.2 h)

/-- What RDSR pushes, register by register. -/
theorem Frame.readSystem_spec (g : Frame) (hagain : g.c.again = none) (n : Nat) : let r := g.readSystem n
    (n = 0 → r = g.t.snap.ctx.fpst) ∧ (n = 1 → r = g.t.snap.ctx.slk.setWidth 64)
    ∧ (n = 2 → r.toNat = (g.banks * 2 ^ 16 + g.c.depth) % 2 ^ 64)
    ∧ (n = 3 → r = g.t.heart) ∧ (n = 5 → r = g.t.snap.tags) ∧ (n = 6 → r = g.t.snap.tagbz)
    ∧ (n = 8 → r = g.c.spill) ∧ (n = 9 → r = g.t.tvec) ∧ (n = 0xA → r = g.t.csa) ∧ (n = 0xB → r = g.t.wdt.setWidth 64)
    ∧ (n = 0xC → r = g.t.ttb) ∧ (n = 0xD → r = g.s.catb)
    ∧ (∀ j : Fin 16, n = 0x10 + j → ∀ i, i < 64 → r.getLsbD i = (decide (i < 32) && g.ownerBit (32 * j + i)))
    ∧ (∀ j : Fin 8, n = 0x30 + j → r = g.t.tsave[j])
    ∧ (n = 4 → ∀ m : Fin 4, let y := g.t.ags[m]
      r.getLsbD (16 * m + 15) = y.joined ∧ r.getLsbD (16 * m + 14) = y.out ∧ r.getLsbD (16 * m + 13) = y.pm
      ∧ r.getLsbD (16 * m + 12) = y.lv ∧ r.toNat / 2 ^ (16 * m.val + 8) % 16 = y.lst % 16
      ∧ r.toNat / 2 ^ (16 * m.val) % 256 = y.rnd.toNat)
    ∧ (n = 7 → r.toNat = (if g.s.swp then 256 else 0) + 16 * g.s.stg.toNat + g.s.cur.toNat)
    ∧ (∀ j : Fin 16, n = 0x20 + j → r.toNat = g.t.chans[j].open_.foldl min g.t.chans[j].next % 2 ^ 48)
    ∧ (∀ (j : Fin 16) (d : Fin 8), n = 0x40 + j → dieOf g.t.ptn = d →
      r = g.s.dies[d].dom[j] ||| (if g.s.dies[d].busy[j] then 0x2000000000000000 else 0))
    ∧ (n = 0xE ∨ n = 0xF ∨ 0x38 ≤ n ∧ n < 0x40 ∨ 0x50 ≤ n → r = 0) := by
  intro r
  refine ⟨?_, ?_, ?_, ?_, ?_, ?_, ?_, ?_, ?_, ?_, ?_, ?_, fun j hj i hi => ?_, fun j hj => ?_, ?_, ?_, fun j hj => ?_,
    fun j d hj hd => ?_, fun hn => ?_⟩
  case refine_13 =>
    have hr : r = g.readOwn j := by
      show g.readSystem n = _
      rw [g.readSystem_high (by omega), if_pos (by omega)]
      congr 1
      omega
    rw [hr]
    exact g.readOwn_bit j hi
  case refine_14 =>
    have hr : r = vget g.t.tsave j 0 := by
      show g.readSystem n = _
      rw [g.readSystem_high (by omega), if_neg (by omega), if_neg (by omega), if_pos (by omega)]
      congr 1
      omega
    rw [hr]
    exact vget_eq_getElem ..
  case refine_15 =>
    rintro rfl m
    obtain ⟨h1, h2, h3, h4, h5, h6⟩ := g.t.ags[m].bits_fields
    have hr : r = g.t.readAgs := rfl
    have hbits := g.t.readAgs_div m
    rw [hr]
    refine ⟨(g.t.readAgs_bit m (by omega)).trans h1, (g.t.readAgs_bit m (by omega)).trans h2,
      (g.t.readAgs_bit m (by omega)).trans h3, (g.t.readAgs_bit m (by omega)).trans h4, ?_, ?_⟩
    · rw [Nat.pow_add, ← Nat.div_div_eq_div_mul]
      omega
    · omega
  case refine_17 =>
    have hr : r = g.t.readXdone j := by
      show g.readSystem n = _
      rw [g.readSystem_high (by omega), if_neg (by omega), if_pos (by omega)]
      congr 1
      omega
    rw [hr]
    exact g.t.readXdone_toNat j
  case refine_18 =>
    have hr : r = g.readDomain j := by
      show g.readSystem n = _
      rw [g.readSystem_high (by omega), if_neg (by omega), if_neg (by omega), if_neg (by omega), if_pos (by omega)]
      congr 1
      omega
    rw [hr]
    exact g.readDomain_eq hd j
  case refine_19 =>
    show g.readSystem n = _
    rcases hn with rfl | rfl | hn | hn
    · rfl
    · rfl
    · rw [g.readSystem_high (by omega), if_neg (by omega), if_neg (by omega), if_neg (by omega), if_neg (by omega)]
    · rw [g.readSystem_high (by omega), if_neg (by omega), if_neg (by omega), if_neg (by omega), if_neg (by omega)]
  case refine_1 =>
    rintro rfl
    show g.fpstFound = _
    rw [Frame.fpstFound, hagain]
    rfl
  case refine_2 =>
    rintro rfl
    show (if g.c.again.isSome then g.c.slk else g.t.snap.ctx.slk).zeroExtend 64 = _
    rw [hagain]
    rfl
  case refine_16 =>
    rintro rfl
    exact g.s.readTopov_toNat
  case refine_3 =>
    rintro rfl
    exact BitVec.toNat_ofNat ..
  all_goals
    rintro rfl
    rfl

/-! ### Interleave domains (R266 to R271) -/

/-- A bit of a field. -/
theorem testBit_fld {n : Nat} (w : BitVec n) (p len i : Nat) : (fld w p len).testBit i = (decide (i < len) && w.getLsbD (p + i)) := by
  rw [fld_eq, Nat.testBit_mod_two_pow, Nat.testBit_div_two_pow, BitVec.getLsbD, Nat.add_comm]

theorem fieldOnes_eq (w : Word) (lo len : Nat) : fieldOnes w lo len = onesIn w lo len := by
  rw [fieldOnes, onesCount_eq_length_filter, onesIn]
  congr 1
  refine List.filter_congr fun i hi => ?_
  rw [testBit_fld, decide_eq_true (List.mem_range.1 hi), Bool.true_and]

theorem domainLegal_iff (w : Word) : domainLegal w = true ↔ DomainLegal w := by
  have hsize : (!bit w 63 || (List.range 8).any fun k => domainMembers w == 2 ^ k && fieldOnes w 0 16 == k) = true
      ↔ (w.getLsbD 63 = true → ∃ k ≤ 7, onesIn w 44 8 * onesIn w 28 16 = 2 ^ k ∧ onesIn w 0 16 = k) := by
    rw [domainMembers, fieldOnes_eq, fieldOnes_eq, fieldOnes_eq]
    simp only [bit, Bool.or_eq_true, Bool.not_eq_true', List.any_eq_true, List.mem_range, Bool.and_eq_true, beq_iff_eq,
      Nat.lt_succ_iff]
    cases w.getLsbD 63 <;> simp
  have hshare : (if fld w 54 6 = 0 then !bit w 60 else (decide (8 ≤ fld w 54 6) && decide (fld w 54 6 ≤ 51))) = true
      ↔ (w.toNat / 2 ^ 54 % 64 = 0 → w.getLsbD 60 = false)
        ∧ (w.toNat / 2 ^ 54 % 64 ≠ 0 → 8 ≤ w.toNat / 2 ^ 54 % 64 ∧ w.toNat / 2 ^ 54 % 64 ≤ 51) := by
    have hf : fld w 54 6 = w.toNat / 2 ^ 54 % 64 := fld_eq ..
    rw [hf]
    generalize w.toNat / 2 ^ 54 % 64 = q
    by_cases h : q = 0 <;> simp [h, bit]
  have h1 : fld w 23 5 = w.toNat / 2 ^ 23 % 32 := fld_eq ..
  have h2 : fld w 52 2 = w.toNat / 2 ^ 52 % 4 := fld_eq ..
  have h3 : fld w 16 7 = w.toNat / 2 ^ 16 % 128 := fld_eq ..
  simp only [domainLegal, Bool.and_eq_true, hsize, hshare, h1, h2, h3, decide_eq_true_eq, beq_iff_eq, DomainLegal, and_assoc]

/-- A field is zero when none of its bits is set. -/
theorem fld_ne_zero_iff {n : Nat} (w : BitVec n) (p len : Nat) : fld w p len ≠ 0 ↔ ∃ i < len, w.getLsbD (p + i) = true := by
  constructor
  · intro h
    obtain ⟨i, hi⟩ := Nat.exists_testBit_of_ne_zero h
    rw [testBit_fld, Bool.and_eq_true, decide_eq_true_eq] at hi
    exact ⟨i, hi⟩
  · rintro ⟨i, hi, hbit⟩ h
    have hz := testBit_fld w p len i
    rw [h, decide_eq_true hi, hbit, Nat.zero_testBit] at hz
    cases hz

theorem domainsOverlap_iff (a b : Word) : domainsOverlap a b = true ↔ a.getLsbD 63 = true ∧ b.getLsbD 63 = true ∧
    ∃ c < 8, ∃ x < 16, a.getLsbD (44 + c) = true ∧ a.getLsbD (28 + x) = true ∧ b.getLsbD (44 + c) = true
      ∧ b.getLsbD (28 + x) = true := by
  simp only [domainsOverlap, bit, Bool.and_eq_true, bne_iff_ne, fld_ne_zero_iff, BitVec.getLsbD_and]
  constructor
  · rintro ⟨⟨⟨ha, hb⟩, c, hc, hac, hbc⟩, x, hx, hax, hbx⟩
    exact ⟨ha, hb, c, hc, x, hx, hac, hax, hbc, hbx⟩
  · rintro ⟨ha, hb, c, hc, x, hx, hac, hax, hbc, hbx⟩
    exact ⟨⟨⟨ha, hb⟩, c, hc, hac, hbc⟩, x, hx, hax, hbx⟩

theorem domainChanges_iff (old new : Word) : domainChanges old new = true ↔ DomainChanges old new := by
  have hmask : ∀ i, i < 64 → (~~~((1 : Word) <<< 62)).getLsbD i = !decide (i = 62) := by decide
  rw [domainChanges, bne_iff_ne, DomainChanges, ne_eq, BitVec.eq_of_getLsbD_eq_iff]
  simp only [BitVec.getLsbD_and, BitVec.getLsbD_xor, not_forall]
  constructor
  · rintro ⟨i, hi, h⟩
    rw [hmask i hi] at h
    refine ⟨i, ?_, ?_⟩
    · rintro rfl
      simp at h
    · intro e
      rw [e] at h
      simp at h
  · rintro ⟨i, hne, h⟩
    have hi : i < 64 := by
      by_contra hge
      exact h (by rw [BitVec.getLsbD_of_ge _ _ (Nat.not_lt.1 hge), BitVec.getLsbD_of_ge _ _ (Nat.not_lt.1 hge)])
    refine ⟨i, hi, ?_⟩
    rw [hmask i hi]
    simpa [hne] using h

theorem not_and_not_iff (a b c d : Bool) : (!(a && b && !(c && d))) = true ↔ (a = true → b = true → c = true ∧ d = true) := by
  cases a <;> cases b <;> simp

theorem not_and_not_and_iff (a b c : Bool) : (!(a && !b && c)) = true ↔ (a = true → b = false → c = false) := by
  cases a <;> cases b <;> simp

/-- A write of a domain register is taken when R269's conditions hold. -/
theorem Die.accepts_iff (d : Die) (n : Fin 16) (new : Word) : d.accepts n new = true ↔ d.Takes n new := by
  have hold : vget d.dom n 0 = d.dom[n] := vget_eq_getElem ..
  have hbusy : vget d.busy n false = d.busy[n] := vget_eq_getElem ..
  have hclash : (!((d.dom.toList.zipIdx).any fun p => p.2 != n.val && domainsOverlap p.1 new)) = true
      ↔ ∀ m : Fin 16, m ≠ n → d.dom[m].getLsbD 63 = true → new.getLsbD 63 = true → ∀ c < 8, ∀ x < 16,
        ¬(d.dom[m].getLsbD (44 + c) = true ∧ d.dom[m].getLsbD (28 + x) = true
          ∧ new.getLsbD (44 + c) = true ∧ new.getLsbD (28 + x) = true) := by
    rw [Bool.not_eq_true', List.any_eq_false]
    constructor
    · intro h m hm hv hn c hc x hx hall
      have hmem : (d.dom[m], m.val) ∈ d.dom.toList.zipIdx := by
        rw [List.mem_zipIdx_iff_getElem?]
        simp
      have := h _ hmem
      rw [Bool.and_eq_true, bne_iff_ne, domainsOverlap_iff] at this
      exact this ⟨fun e => hm (Fin.ext e), hv, hn, c, hc, x, hx, hall⟩
    · intro h p hp hboth
      rw [Bool.and_eq_true, bne_iff_ne, domainsOverlap_iff] at hboth
      obtain ⟨hne, hv, hn, c, hc, x, hx, hall⟩ := hboth
      obtain ⟨w, i⟩ := p
      rw [List.mem_zipIdx_iff_getElem?] at hp
      obtain ⟨hi, hw⟩ := List.getElem?_eq_some_iff.1 hp
      have hi16 : i < 16 := by simpa using hi
      have hval : d.dom[i] = w := by simpa using hw
      subst hval
      exact h ⟨i, hi16⟩ (fun e => hne (congrArg Fin.val e)) hv hn c hc x hx hall
  have hquiet : (!(bit d.dom[n] 63 && domainChanges d.dom[n] new && !(bit d.dom[n] 62 && bit new 62))) = true
      ↔ (d.dom[n].getLsbD 63 = true → DomainChanges d.dom[n] new → d.dom[n].getLsbD 62 = true ∧ new.getLsbD 62 = true) := by
    rw [← domainChanges_iff]
    exact not_and_not_iff _ _ _ _
  have hswitch : (!(bit d.dom[n] 62 && !bit new 62 && d.busy[n])) = true
      ↔ (d.dom[n].getLsbD 62 = true → new.getLsbD 62 = false → d.busy[n] = false) := by
    exact not_and_not_and_iff _ _ _
  rw [Die.accepts, hold, hbusy]
  simp only [Bool.and_eq_true, hclash, domainLegal_iff, hquiet, hswitch, Die.Takes, and_assoc]

/-- A write that is not taken changes nothing; one that is changes its die's register alone. -/
theorem State.writeDomain_spec (v : State) (d : Fin 8) (j : Fin 16) (w : Word) :
    (v.dies[d].Takes j (w &&& 0xDFFFFFFFFFFFFFFF) →
      (v.writeDomain d j w).dies = v.dies.set d (v.dies[d].writeDomain j (w &&& 0xDFFFFFFFFFFFFFFF)))
    ∧ (¬v.dies[d].Takes j (w &&& 0xDFFFFFFFFFFFFFFF) → v.writeDomain d j w = v) := by
  have hdie : vget v.dies d resetDie = v.dies[d] := vget_eq_getElem ..
  have hmask : w &&& ~~~((1 : Word) <<< 61) = w &&& 0xDFFFFFFFFFFFFFFF := rfl
  rw [State.writeDomain, hdie, hmask]
  dsimp only
  rw [← Die.accepts_iff]
  constructor <;> intro h
  · rw [if_pos h, vset_eq_set]
    split <;> rfl
  · rw [if_neg h]

theorem Die.writeDomain_spec (d : Die) (j : Fin 16) (new : Word) : (d.writeDomain j new).dom = d.dom.set j new
    ∧ (d.dom[j].getLsbD 63 = true → DomainChanges d.dom[j] new → (d.writeDomain j new).busy = d.busy.set j true)
    ∧ (d.dom[j].getLsbD 63 = false ∨ ¬DomainChanges d.dom[j] new → (d.writeDomain j new).busy = d.busy) := by
  have hold : vget d.dom j 0 = d.dom[j] := vget_eq_getElem ..
  rw [Die.writeDomain, hold, vset_eq_set, vset_eq_set, ← domainChanges_iff]
  refine ⟨rfl, fun h1 h2 => ?_, fun h => ?_⟩
  · exact if_pos (by rw [bit, h1, h2]; rfl)
  · refine if_neg ?_
    rcases h with h | h
    · rw [bit, h]; simp
    · rw [Bool.not_eq_true] at h
      rw [h]; simp

/-- The changes of a cycle's end, with a last one. -/
theorem State.endLates_append {u : State} {l : List LateWrite} {x : LateWrite} (h : u.late = l ++ [x]) :
    u.endLates = (State.endLates { u with late := l }).endLate x := by
  rw [State.endLates, h, List.foldl_append]
  rfl

/-- A counter's change adds nothing to the changes of the cycle's end. -/
theorem Frame.endCounter_late (f : Frame) (x : CounterEnd) : (f.endCounter x).s.late = f.s.late := by
  cases x with
  | init k bal pend =>
    rw [Frame.endCounter]
    dsimp only
    split <;> rfl
  | add k d pend => rfl
  | disarm k => rfl

theorem State.endLate_late (s : State) (x : LateWrite) : (s.endLate x).late = s.late := by
  cases x with
  | domain die n w =>
    rw [State.endLate, State.writeDomain]
    dsimp only
    split
    · split <;> rfl
    · rfl
  | catb w => rfl
  | counter ctx x =>
    rw [State.endLate, State.endCounter]
    split
    · exact Frame.endCounter_late _ x
    · rfl

theorem State.endLates_late (s : State) : s.endLates.late = [] := by
  have h : ∀ (l : List LateWrite) (t : State), (l.foldl State.endLate t).late = t.late := by
    intro l
    induction l with
    | nil => exact fun _ => rfl
    | cons x l ih => exact fun t => (ih _).trans (t.endLate_late x)
  exact h _ _

/-! ### What each register takes (R138, R154, R291, R348) -/

/-- Two fields kept are a mask of both. -/
theorem keepField_or (w : Word) (a m b n : Nat) : keepField w a m ||| keepField w b n
    = w &&& (BitVec.ofNat 64 (2 ^ a * (2 ^ m - 1)) ||| BitVec.ofNat 64 (2 ^ b * (2 ^ n - 1))) := by
  ext i
  simp only [keepField, BitVec.getElem_or, BitVec.getElem_and, Bool.and_or_distrib_left]

theorem spillWritten_eq (old w : Word) : spillWritten old w
    = if 8 ≤ w.toNat % 32 ∧ w.toNat % 32 ≤ 20 then w &&& 0x01FFFFFFFFFFFF9F else old := by
  have h : fld w 0 5 = w.toNat % 32 := fld_zero _ _
  rw [spillWritten, h, keepField_or]
  rfl

theorem ttbWritten_eq (old w : Word) : ttbWritten old w
    = if w.toNat / 2 ^ 57 % 32 ≤ 16 then w &&& 0xBFFFFFFFFFFFFFC0 else old := by
  have h : fld w 57 5 = w.toNat / 2 ^ 57 % 32 := fld_eq ..
  have hmask : keepField w 63 1 ||| keepField w 57 5 ||| keepField w 6 51 = w &&& 0xBFFFFFFFFFFFFFC0 := by
    have hbits : BitVec.ofNat 64 (2 ^ 63 * (2 ^ 1 - 1)) ||| BitVec.ofNat 64 (2 ^ 57 * (2 ^ 5 - 1))
        ||| BitVec.ofNat 64 (2 ^ 6 * (2 ^ 51 - 1)) = 0xBFFFFFFFFFFFFFC0 := by decide
    rw [keepField_or, ← hbits]
    ext i hi
    simp only [keepField, BitVec.getElem_or, BitVec.getElem_and, ← Bool.and_or_distrib_left]
  rw [ttbWritten, h, hmask]

/-- What WRSR leaves, register by register. -/
theorem Frame.writeSystem_spec (g : Frame) (n : Nat) (A : Word) : let r := g.writeSystem n A
    (n = 0 → r.c.seq.fpst = g.c.seq.fpst ++ [(BitVec.allOnes 64, A)])
    ∧ (n = 1 → r = { g with c := { g.c with slk := A.setWidth 16 } })
    ∧ (n = 8 → r = { g with c := { g.c with spill := if 8 ≤ A.toNat % 32 ∧ A.toNat % 32 ≤ 20
        then A &&& 0x01FFFFFFFFFFFF9F else g.c.spill } })
    ∧ (n = 9 → r = { g with t := { g.t with tvec := A &&& 0x01FFFFFFFFFFFFE0 } })
    ∧ (n = 0xA → r = { g with t := { g.t with csa := A &&& 0x01FFFFFFFFC00000 } })
    ∧ (n = 0xB → r.t.wdt = A.setWidth 32)
    ∧ (n = 0xC → r = { g with t := { g.t with ttb := if A.toNat / 2 ^ 57 % 32 ≤ 16
        then A &&& 0xBFFFFFFFFFFFFFC0 else g.t.ttb } })
    ∧ (n = 0xD → r = { g with s := { g.s with late := g.s.late ++ [.catb (A &&& 0x81FFFFFFFFFC0000)] } })
    ∧ (n = 0x30 → r.t.tsave = g.t.tsave.set 0 (g.t.tsave[0] &&& 0xFFFFFFE7FFFFFFFF ||| A &&& 0x0000001800000000))
    ∧ (n = 0x37 → r = { g with t := { g.t with tsave := g.t.tsave.set 7 A } })
    ∧ (∀ j : Fin 16, n = 0x40 + j → r = { g with s := { g.s with late := g.s.late ++ [.domain (dieOf g.t.ptn) j A] } })
    ∧ (2 ≤ n ∧ n < 8 ∨ 0xE ≤ n ∧ n < 0x30 ∨ 0x31 ≤ n ∧ n < 0x37 ∨ 0x38 ≤ n ∧ n < 0x40 ∨ 0x50 ≤ n → r = g) := by
  intro r
  have hother (h : n ∉ [0, 1, 8, 9, 0xA, 0xB, 0xC, 0xD, 0x30, 0x37]) :
      r = if 0x40 ≤ n ∧ n < 0x50 then g.writeLate (.domain (dieOf g.t.ptn) (n - 0x40) A) else g := by
    simp only [List.mem_cons, List.not_mem_nil, or_false, not_or] at h
    obtain ⟨h0, h1, h2, h3, h4, h5, h6, h7, h8, h9⟩ := h
    exact Frame.writeSystem.eq_11 g n A h0 h1 h2 h3 h4 h5 h6 h7 h8 h9
  refine ⟨?_, ?_, ?_, ?_, ?_, ?_, ?_, ?_, ?_, ?_, fun j hj => ?_, fun hn => ?_⟩
  · rintro rfl
    rfl
  · rintro rfl
    have h : A.extractLsb' 0 16 = A.setWidth 16 := by ext i; simp
    exact congrArg (fun v => ({ g with c := { g.c with slk := v } } : Frame)) h
  · rintro rfl
    exact congrArg (fun v => ({ g with c := { g.c with spill := v } } : Frame)) (spillWritten_eq _ _)
  · rintro rfl
    rfl
  · rintro rfl
    rfl
  · rintro rfl
    exact BitVec.ofNat_toNat ..
  · rintro rfl
    exact congrArg (fun v => ({ g with t := { g.t with ttb := v } } : Frame)) (ttbWritten_eq _ _)
  · rintro rfl
    exact congrArg (fun v => ({ g with s := { g.s with late := g.s.late ++ [.catb v] } } : Frame)) (keepField_or ..)
  · rintro rfl
    have hold : vget g.t.tsave 0 0 = g.t.tsave[0] := vget_eq_getElem g.t.tsave (0 : Fin 8) 0
    show vset g.t.tsave 0 (tsave0Written (vget g.t.tsave 0 0) A) = _
    rw [hold]
    exact vset_eq_set g.t.tsave (0 : Fin 8) _
  · rintro rfl
    exact congrArg (fun v => ({ g with t := { g.t with tsave := v } } : Frame)) (vset_eq_set g.t.tsave (7 : Fin 8) A)
  · rw [hother (by simp; omega), if_pos (by omega), hj, Nat.add_sub_cancel_left]
    rfl
  · rw [hother (by simp; omega), if_neg (by omega)]

/-! ### RDSR and WRSR -/

theorem readNeeds_iff (n : Nat) : readNeeds n = true ↔ 0x30 ≤ n ∧ n < 0x38 ∨ 0x40 ≤ n ∧ n < 0x50 := by
  simp [readNeeds]

theorem writeNeeds_iff (n : Nat) :
    writeNeeds n = true ↔ 8 ≤ n ∧ n < 0xE ∨ 0x30 ≤ n ∧ n < 0x38 ∨ 0x40 ≤ n ∧ n < 0x50 := by
  simp [writeNeeds, readNeeds_iff]

/-- RDSR on a frame. -/
def Frame.rdsrAct (f : Frame) (a : Val) : Except Stop (Frame × Effect) := do
  let n := fld a.low 0 8
  let _ ← need (!readNeeds n || f.privileged) (trapOf .priv)
  let _ ← need (n != 0 || !f.holdsOther) (.stall .buffer f)
  return (f, .result 1 (pushWord 9 (f.readSystem n) 0))

/-- WRSR on a frame. -/
def Frame.wrsrAct (f : Frame) (h : Slot) (a b : Val) : Except Stop (Frame × Effect) := do
  let n := fld b.low 0 8
  let _ ← if n < 2 then .ok () else f.settled
  let _ ← need (!writeNeeds n || f.privileged) (trapOf .priv)
  let _ ← need (!(n == 0 && h.guard == .always && f.c.seq.fpsets)) (trapOf .illdep)
  let _ ← need (n != 0 || !f.c.fpsetWaits) f.waitHere
  return (f.writeSystem n a.low, .quiet)

section
variable {f : Frame} {h : Slot} {a b : Val}

theorem need_implies {p : Bool} {P : Prop} {v : Bool} (hp : p = true ↔ P) (h : P → v = true) : (!p || v) = true := by
  cases hb : p with
  | false => rfl
  | true => exact h (hp.1 hb)

theorem need_refused {p : Bool} {P : Prop} {v : Bool} (hp : p = true ↔ P) (h : P) (hv : v = false) : (!p || v) = false := by
  rw [hp.2 h, hv]
  rfl

theorem Frame.rdsrAct_of {n : Nat} (hn : n = a.low.toNat % 256)
    (hpriv : 0x30 ≤ n ∧ n < 0x38 ∨ 0x40 ≤ n ∧ n < 0x50 → f.privileged = true) (hheld : n = 0 → f.c.held = []) :
    f.rdsrAct a = .ok (f, .result 1 ⟨9, (f.readSystem n).setWidth 2048, 0⟩) := by
  have hfld : fld a.low 0 8 = n := (fld_zero _ _).trans hn.symm
  have hquiet : (n != 0 || !f.holdsOther) = true := by
    rw [Bool.or_eq_true, bne_iff_ne]
    by_cases h0 : n = 0
    · exact .inr (by rw [Frame.holdsOther, hheld h0]; rfl)
    · exact .inl h0
  rw [Frame.rdsrAct, hfld, need_true_bind (need_implies (readNeeds_iff n) hpriv), need_true_bind hquiet]
  rfl

theorem Frame.rdsrAct_priv {n : Nat} (hn : n = a.low.toNat % 256) (hneeds : 0x30 ≤ n ∧ n < 0x38 ∨ 0x40 ≤ n ∧ n < 0x50)
    (hpriv : f.privileged = false) : f.rdsrAct a = .error (trapOf .priv) := by
  have hfld : fld a.low 0 8 = n := (fld_zero _ _).trans hn.symm
  rw [Frame.rdsrAct, hfld, need_false_bind (need_refused (readNeeds_iff n) hneeds hpriv)]

/-- A register but FPST and SLK waits for an agreement. -/
theorem Frame.settledFor_bind {n : Nat} {α : Type} {r : Unit → Except Stop α} (h : n < 2 ∨ f.t.spec = none) :
    (if n < 2 then ((.ok () : Except Stop Unit) >>= r) else (f.settled >>= r)) = r () := by
  by_cases hn : n < 2
  · exact if_pos hn
  · rw [if_neg hn, Frame.settled_of (h.resolve_left hn), except_ok_bind]

theorem Frame.wrsrAct_of {n : Nat} (hn : n = b.low.toNat % 256) (hspec : n < 2 ∨ f.t.spec = none)
    (hpriv : 8 ≤ n ∧ n < 0xE ∨ 0x30 ≤ n ∧ n < 0x38 ∨ 0x40 ≤ n ∧ n < 0x50 → f.privileged = true)
    (hdep : ¬(n = 0 ∧ h.guard = .always ∧ f.c.seq.fpsets = true)) (hwait : n = 0 → f.c.fpsetWaits = false) :
    f.wrsrAct h a b = .ok (f.writeSystem n a.low, .quiet) := by
  have hfld : fld b.low 0 8 = n := (fld_zero _ _).trans hn.symm
  have halone : (!(n == 0 && h.guard == .always && f.c.seq.fpsets)) = true := by
    rw [Bool.not_eq_true']
    by_contra hc
    simp only [Bool.not_eq_false, Bool.and_eq_true, beq_iff_eq, and_assoc] at hc
    exact hdep hc
  have hfree : (n != 0 || !f.c.fpsetWaits) = true := by
    rw [Bool.or_eq_true, bne_iff_ne]
    by_cases h0 : n = 0
    · exact .inr (by rw [hwait h0]; rfl)
    · exact .inl h0
  rw [Frame.wrsrAct, hfld]
  dsimp only
  rw [Frame.settledFor_bind hspec, need_true_bind (need_implies (writeNeeds_iff n) hpriv), need_true_bind halone,
    need_true_bind hfree]
  rfl

theorem Frame.wrsrAct_priv {n : Nat} (hn : n = b.low.toNat % 256) (hspec : n < 2 ∨ f.t.spec = none)
    (hneeds : 8 ≤ n ∧ n < 0xE ∨ 0x30 ≤ n ∧ n < 0x38 ∨ 0x40 ≤ n ∧ n < 0x50) (hpriv : f.privileged = false) :
    f.wrsrAct h a b = .error (trapOf .priv) := by
  have hfld : fld b.low 0 8 = n := (fld_zero _ _).trans hn.symm
  rw [Frame.wrsrAct, hfld]
  dsimp only
  rw [Frame.settledFor_bind hspec, need_false_bind (need_refused (writeNeeds_iff n) hneeds hpriv)]

/-- A write of a register keeps what a slot has asked for late. -/
theorem Frame.writeSystem_lateSeq (f : Frame) (n : Nat) (w : Word) : (f.writeSystem n w).c.seq.late = f.c.seq.late := by
  unfold Frame.writeSystem
  split
  case h_11 => split <;> rfl
  all_goals rfl

end

/-- Settles O36: each register's field, and the conditions of R269. -/
theorem systemRegisters : Obligations.SystemRegisters := by
  refine ⟨?_, ?_⟩
  · intro h a s f0 f x k held trig h0 hr ht _ n g
    have e : exec (.rdsr h a) s = runSlot h (trigger h (rdsrTrig a) (direct fun f a _ _ _ => f.rdsrAct a)) s := rfl
    have hagain : g.c.again = none := (Fetch.ready_again ht.ready_delivered .ct).trans hr.again
    refine ⟨fun hneeds hpriv => ?_, fun hpriv hheld => ⟨g.readSystem n, ?_, g.readSystem_spec hagain n⟩⟩
    · exact e.trans (runSlot_trigger_traps (g := fun _ => trig) (q := ⟨8, 0, 0, 0, 0, none⟩) h0 hr ht
        (Frame.rdsrAct_priv (f := g) rfl hneeds hpriv))
    · exact e.trans (runSlot_trigger_of_takes (g := fun _ => trig) hr ht (Frame.rdsrAct_of (f := g) rfl hpriv hheld)
        (ht.ready_late _))
  · intro h a s f0 f x k held trig h0 hr ht _ n A g needs hspec
    have e : exec (.wrsr h a) s = runSlot h (trigger h (controlTrig (some a) true false [])
      (direct fun f a b _ _ => f.wrsrAct h a b)) s := rfl
    refine ⟨fun hneeds hpriv => ?_, fun hpriv hdep hwait => ⟨g.writeSystem n A, ?_, ?_⟩⟩
    · exact e.trans (runSlot_trigger_traps (g := fun _ => trig) (q := ⟨8, 0, 0, 0, 0, none⟩) h0 hr ht
        (Frame.wrsrAct_priv (f := g) rfl hspec hneeds hpriv))
    · exact e.trans (runSlot_trigger_of_takes (g := fun _ => trig) hr ht (Frame.wrsrAct_of (f := g) rfl hspec hpriv hdep hwait)
        ((g.writeSystem_lateSeq n A).trans (ht.ready_late _)))
    · obtain ⟨h1, h2, h3, h4, h5, h6, h7, h8, h9, h10, h11, h12⟩ := g.writeSystem_spec n A
      refine ⟨h1, h2, h3, h4, h5, h6, h7, h8, h9, h10, h11, h12, fun u l w hu => ⟨?_, u.endLates_late⟩, ?_⟩
      · rw [State.endLates_append hu]
        rfl
      · intro u l d j w hu v new
        have hend : u.endLates = v.writeDomain d j w := State.endLates_append hu
        obtain ⟨htaken, hkept⟩ := v.writeDomain_spec d j w
        obtain ⟨w1, w2, w3⟩ := v.dies[d].writeDomain_spec j new
        refine ⟨fun htakes => ?_, fun hnot => hend.trans (hkept hnot)⟩
        have hdies : u.endLates.dies = v.dies.set d (v.dies[d].writeDomain j new) := by rw [hend]; exact htaken htakes
        have hown : u.endLates.dies[d] = v.dies[d].writeDomain j new := by rw [hdies]; exact Vector.getElem_set_self ..
        rw [hown]
        refine ⟨w1, w2, w3, fun e' he => ?_⟩
        rw [hdies]
        exact Vector.getElem_set_ne _ _ fun hval => he (Fin.ext hval.symm)

end Sys2Proof.Machine
end

section
/-! PROOF. The return from a trap handler (R347, R349). -/

namespace Sys2Proof.Machine

/-! ### What translation depends on -/

/-- A range of a state whose translations are another's has its pieces. -/
theorem State.pieces_congr {s t : State} {hs : List TlbHolder} {acc : Access} (h : ∀ va, t.locateFor hs acc va = s.locateFor hs acc va) :
    ∀ fuel va n, t.pieces hs acc fuel va n = s.pieces hs acc fuel va n
  | 0, _, _ => rfl
  | fuel + 1, va, n => by
    rw [State.pieces, State.pieces, h va]
    simp only [State.pieces_congr h fuel]

theorem State.tileRange_congr {s t : State} {acc : Access} (h : ∀ hs va, t.locateFor hs acc va = s.locateFor hs acc va)
    (ptn va n : Nat) : t.tileRange ptn acc va n = s.tileRange ptn acc va n := State.pieces_congr (h _) _ _ _

/-- Who issues, and what the strands and contexts hold, is nothing that translation asks. -/
theorem State.locateFor_strands (s : State) (l : List Strand) (c : List Ctx) (q : List Nat) (hs : List TlbHolder) (acc : Access) (va : Nat) :
    ({ s with strands := l, ctxs := c, turn := q } : State).locateFor hs acc va = s.locateFor hs acc va := rfl

/-- `t` is `s` after reads: its cached translations and its dies' clocks may differ. -/
def State.ReadIn (s t : State) : Prop := t = { s with tlb := t.tlb, clocks := t.clocks }

theorem State.ReadIn.refl (s : State) : s.ReadIn s := rfl

theorem State.ReadIn.trans {s t u : State} (h : s.ReadIn t) (k : t.ReadIn u) : s.ReadIn u := by
  unfold State.ReadIn at *
  rw [h] at k
  exact k

theorem State.keepPage_readIn (s : State) (hs : List TlbHolder) (va : Nat) : s.ReadIn (s.keepPage hs va) := by
  unfold State.keepPage
  split <;> rfl

theorem State.foldl_readIn {α : Type} {g : State → α → State} (hg : ∀ (s : State) (x : α), s.ReadIn (g s x)) :
    ∀ (l : List α) (s : State), s.ReadIn (l.foldl g s)
  | [], s => .refl s
  | x :: l, s => (hg s x).trans (State.foldl_readIn hg l (g s x))

theorem State.keepRange_readIn (s : State) (hs : List TlbHolder) (va n : Nat) : s.ReadIn (s.keepRange hs va n) := by
  unfold State.keepRange
  split
  · exact .refl s
  · exact State.foldl_readIn (fun (s : State) _ => s.keepPage_readIn hs _) _ _

theorem State.tileHasRead_readIn (s : State) (ptn va n : Nat) (l : List (Nat × Nat)) : s.ReadIn (s.tileHasRead ptn va n l) :=
  (s.keepRange_readIn _ va n).trans (State.foldl_readIn (g := fun s p => s.noteRead (dieOf ptn) p.1 p.2) (fun _ _ => rfl) l _)

/-! ### Leaving the handler -/

/-- The registers of two contexts, and their numbers, agree. -/
def Ctx.SameBank (c d : Ctx) : Prop :=
  d.id = c.id ∧ d.low = c.low ∧ d.ring = c.ring ∧ d.depth = c.depth ∧ d.vregs = c.vregs ∧ d.preds = c.preds

theorem Ctx.SameBank.refl (c : Ctx) : c.SameBank c := ⟨rfl, rfl, rfl, rfl, rfl, rfl⟩

theorem Ctx.SameBank.trans {a b c : Ctx} (h : a.SameBank b) (k : b.SameBank c) : a.SameBank c := by
  obtain ⟨h1, h2, h3, h4, h5, h6⟩ := h
  obtain ⟨k1, k2, k3, k4, k5, k6⟩ := k
  exact ⟨k1.trans h1, k2.trans h2, k3.trans h3, k4.trans h4, k5.trans h5, k6.trans h6⟩

theorem Ctx.release_sameBank (c : Ctx) (x : Flying) : c.SameBank (c.release x) := by
  unfold Ctx.release
  dsimp only
  split
  · exact ⟨rfl, rfl, rfl, rfl, rfl, rfl⟩
  · exact ⟨rfl, rfl, rfl, rfl, rfl, rfl⟩

theorem Ctx.foldl_release_sameBank : ∀ (l : List Flying) (c : Ctx), c.SameBank (l.foldl Ctx.release c)
  | [], c => .refl c
  | x :: l, c => (c.release_sameBank x).trans (Ctx.foldl_release_sameBank l (c.release x))

/-- A frame with the strands, contexts, memory, strand and registers of another. -/
def Frame.SameStand (f r : Frame) : Prop :=
  r.s.strands = f.s.strands ∧ r.s.ctxs = f.s.ctxs ∧ r.s.mem = f.s.mem ∧ r.t.sid = f.t.sid ∧ r.t.cur = f.t.cur
    ∧ r.t.saved = f.t.saved ∧ f.c.SameBank r.c

theorem Frame.SameStand.trans {f g r : Frame} (h : f.SameStand g) (k : g.SameStand r) : f.SameStand r := by
  obtain ⟨h1, h2, h3, h4, h5, h6, h7⟩ := h
  obtain ⟨k1, k2, k3, k4, k5, k6, k7⟩ := k
  exact ⟨k1.trans h1, k2.trans h2, k3.trans h3, k4.trans h4, k5.trans h5, k6.trans h6, h7.trans k7⟩

theorem Frame.endGroup_sameStand (f : Frame) : f.SameStand f.endGroup := by
  unfold Frame.endGroup Frame.endWrites Frame.endCounters State.standClaims
  exact ⟨rfl, rfl, rfl, rfl, rfl, rfl, ⟨rfl, rfl, rfl, rfl, rfl, rfl⟩⟩

theorem Frame.releaseLeafed_sameStand (f : Frame) : f.SameStand f.releaseLeafed := by
  have h := Ctx.foldl_release_sameBank (sortBy Flying.earlier (f.c.flying.filter fun x => x.leafed && x.due < f.c.icyc)) f.c
  refine ⟨rfl, rfl, rfl, rfl, rfl, rfl, ?_⟩
  unfold Frame.releaseLeafed
  dsimp only
  generalize (sortBy Flying.earlier (f.c.flying.filter fun x => x.leafed && x.due < f.c.icyc)).foldl Ctx.release f.c = d at h ⊢
  exact h.trans ⟨rfl, rfl, rfl, rfl, rfl, rfl⟩

/-- What an interrupted context that is redirected keeps, and where it goes. -/
theorem Frame.redirected_spec (f : Frame) (target : Nat) :
    f.SameStand (f.redirected target) ∧ (f.redirected target).c.pc = target ∧ (f.redirected target).c.seq.issuing = false := by
  have h : f.SameStand (if f.c.seq.issuing then f.endGroup else f).releaseLeafed := by
    split
    · exact f.endGroup_sameStand.trans (Frame.releaseLeafed_sameStand _)
    · exact Frame.releaseLeafed_sameStand _
  unfold Frame.redirected
  dsimp only
  generalize (if f.c.seq.issuing then f.endGroup else f).releaseLeafed = g at h ⊢
  exact ⟨h.trans ⟨rfl, rfl, rfl, rfl, rfl, rfl, ⟨rfl, rfl, rfl, rfl, rfl, rfl⟩⟩, rfl, rfl⟩

/-- What leaving a handler for context `c` leaves: `r` is put back. -/
def Frame.LeavesTo (f : Frame) (c : Ctx) (r : Frame) : Prop :=
  r.s.strands = f.s.strands ∧ r.s.ctxs = f.s.ctxs.filter (·.id != f.c.id) ∧ r.s.mem = f.s.mem ∧ r.t.sid = f.t.sid
    ∧ r.t.cur = c.id ∧ r.t.saved = none ∧ c.SameBank r.c

theorem State.dropCtx_spec (s : State) (ptn id : Nat) : (s.dropCtx ptn id).strands = s.strands
    ∧ (s.dropCtx ptn id).ctxs = s.ctxs.filter (·.id != id) ∧ (s.dropCtx ptn id).mem = s.mem := by
  unfold State.dropCtx
  dsimp only
  split <;> exact ⟨rfl, rfl, rfl⟩

/-- A context that RETRY or SKIP resumes. -/
theorem Ctx.retried_spec (c : Ctx) (w : Word) : c.SameBank (c.retried w) ∧ (c.retried w).pc = c.pc
    ∧ (w.getLsbD 46 = false → (c.retried w).seq.slot = c.seq.slot ∧ (c.retried w).seq.leaf = c.seq.leaf
      ∧ (c.retried w).seq.issuing = c.seq.issuing
      ∧ (c.retried w).seq.skip = (if w.toNat / 2 ^ 35 % 4 = 1 ∧ w.getLsbD 47 = false then some (w.toNat / 2 ^ 40 % 8) else none))
    ∧ (w.getLsbD 46 = true → (c.retried w).seq.issuing = false) := by
  have h1 : fld w 35 2 = w.toNat / 2 ^ 35 % 4 := fld_eq ..
  have h2 : fld w 40 3 = w.toNat / 2 ^ 40 % 8 := fld_eq ..
  unfold Ctx.retried
  rw [h1, h2]
  split
  next h => exact ⟨⟨rfl, rfl, rfl, rfl, rfl, rfl⟩, rfl, fun e => absurd (h.symm.trans e) (by simp), fun _ => rfl⟩
  next h =>
    refine ⟨⟨rfl, rfl, rfl, rfl, rfl, rfl⟩, rfl, fun _ => ⟨rfl, rfl, rfl, ?_⟩, fun e => absurd e h⟩
    simp only [bit, Bool.not_eq_eq_eq_not, Bool.not_true]

/-- Leaving the handler, as RESUME says. -/
theorem Frame.leaveHandler_spec (f : Frame) (c : Ctx) : ∃ r : Frame, f.leaveHandler c = r.put ∧ f.LeavesTo c r
    ∧ (f.t.tsave[0].toNat / 2 ^ 35 % 4 < 2 → f.t.tsave[0].getLsbD 46 = false → r.c.pc = c.pc ∧ r.c.seq.slot = c.seq.slot
      ∧ r.c.seq.leaf = c.seq.leaf ∧ r.c.seq.issuing = c.seq.issuing
      ∧ r.c.seq.skip = (if f.t.tsave[0].toNat / 2 ^ 35 % 4 = 1 ∧ f.t.tsave[0].getLsbD 47 = false
        then some (f.t.tsave[0].toNat / 2 ^ 40 % 8) else none))
    ∧ (f.t.tsave[0].toNat / 2 ^ 35 % 4 < 2 → f.t.tsave[0].getLsbD 46 = true → r.c.pc = c.pc ∧ r.c.seq.issuing = false)
    ∧ (f.t.tsave[0].toNat / 2 ^ 35 % 4 = 2 → f.t.tsave[7].toNat % 32 = 0 →
      r.c.pc = f.t.tsave[7].toNat ∧ r.c.seq.issuing = false)
    ∧ (f.t.tsave[0].toNat / 2 ^ 35 % 4 = 2 → f.t.tsave[7].toNat % 32 ≠ 0 →
      ∃ x : FailRec, r.t.fail = some (f.t.fail.getD x) ∧ x.cause = 7 ∧ x.addr = f.t.tsave[7].toNat)
    ∧ (f.t.tsave[0].toNat / 2 ^ 35 % 4 = 3 →
      ∃ x : FailRec, r.t.fail = some (f.t.fail.getD x) ∧ x.cause = f.t.tsave[0].toNat / 2 ^ 56) := by
  have h0 : vget f.t.tsave 0 0 = f.t.tsave[0] := vget_eq_getElem f.t.tsave (0 : Fin 8) 0
  have h7 : vget f.t.tsave 7 0 = f.t.tsave[7] := vget_eq_getElem f.t.tsave (7 : Fin 8) 0
  have hresume : fld f.t.tsave[0] 35 2 = f.t.tsave[0].toNat / 2 ^ 35 % 4 := fld_eq ..
  have hcause : fld f.t.tsave[0] 56 8 = f.t.tsave[0].toNat / 2 ^ 56 := fld_top _ rfl
  obtain ⟨d1, d2, d3⟩ := f.s.dropCtx_spec f.t.ptn f.c.id
  unfold Frame.leaveHandler
  dsimp only
  rw [h0, h7, hresume]
  split
  next hr =>
    rw [hr]
    refine ⟨_, rfl, ⟨d1, d2, d3, rfl, rfl, rfl, ⟨rfl, rfl, rfl, rfl, rfl, rfl⟩⟩, by omega, by omega, by omega, by omega,
      fun _ => ⟨_, rfl, hcause⟩⟩
  next hr =>
    rw [hr]
    by_cases ht : f.t.tsave[7].toNat % 32 = 0
    · rw [if_neg (not_not_intro ht)]
      obtain ⟨⟨r1, r2, r3, r4, r5, r6, r7⟩, r8, r9⟩ := Frame.redirected_spec _ f.t.tsave[7].toNat
      refine ⟨_, rfl, ⟨r1.trans d1, r2.trans d2, r3.trans d3, r4, r5, r6, Ctx.SameBank.trans ⟨rfl, rfl, rfl, rfl, rfl, rfl⟩ r7⟩,
        by omega, by omega, fun _ _ => ⟨r8, r9⟩, fun _ h => absurd ht h, by omega⟩
    · rw [if_pos ht]
      exact ⟨_, rfl, ⟨d1, d2, d3, rfl, rfl, rfl, ⟨rfl, rfl, rfl, rfl, rfl, rfl⟩⟩, by omega, by omega, fun _ h => absurd h ht,
        fun _ _ => ⟨_, rfl, rfl, rfl⟩, by omega⟩
  next h3 h2 =>
    have hlow : f.t.tsave[0].toNat / 2 ^ 35 % 4 ≠ 3 ∧ f.t.tsave[0].toNat / 2 ^ 35 % 4 ≠ 2 := ⟨h3, h2⟩
    obtain ⟨q1, q2, q3, q4⟩ := Ctx.retried_spec (c.resumeEngines ((State.dropCtx f.s f.t.ptn f.c.id).tile f.t.ptn)) f.t.tsave[0]
    exact ⟨_, rfl, ⟨d1, d2, d3, rfl, rfl, rfl, Ctx.SameBank.trans ⟨rfl, rfl, rfl, rfl, rfl, rfl⟩ q1⟩,
      fun _ h => ⟨q2, q3 h⟩, fun _ h => ⟨q2, q4 h⟩, by omega, by omega, by omega⟩

/-! ### Frames that are put back -/

/-- Another context's number finds what it found before one is put back. -/
theorem State.ctx?_setCtx_of_ne {s : State} {c : Ctx} {id : Nat} (h : id ≠ c.id) : (s.setCtx c).ctx? id = s.ctx? id := by
  show (s.ctxs.map _).find? _ = s.ctxs.find? _
  induction s.ctxs with
  | nil => rfl
  | cons y l ih =>
    rw [List.map_cons, List.find?_cons, List.find?_cons, ih]
    by_cases hy : y.id = c.id
    · have hc : (c.id == id) = false := by simpa using Ne.symm h
      rw [if_pos (by simpa using hy)]
      simp [hy, hc]
    · rw [if_neg (by simpa using hy)]

/-- Writing back a context leaves it under its number. -/
theorem State.ctx?_setCtx {s : State} {c : Ctx} (h : ∃ d, s.ctx? c.id = some d) : (s.setCtx c).ctx? c.id = some c :=
  find?_replaceIf_same (by simp) (Option.isSome_iff_exists.2 h)

/-- A strand and the context that it runs stand as they are put back. -/
theorem Frame.put_frameOf {f : Frame} (hstrand : ∃ t, f.s.strand? f.t.sid = some t) (hctx : ∃ c, f.s.ctx? f.c.id = some c)
    (hcur : f.t.cur = f.c.id) : f.put.frameOf f.t.sid = some ⟨f.put, f.t, f.c⟩ := by
  have h1 : f.put.strand? f.t.sid = some f.t := State.strand?_setStrand hstrand
  have h2 : f.put.ctx? f.t.cur = some f.c := by
    rw [hcur]
    exact State.ctx?_setCtx (s := f.s.setStrand f.t) hctx
  rw [State.frameOf, h1, Option.bind_some, h2]
  rfl

/-- After leaving a handler the strand runs the interrupted context, and the handler's is gone. -/
theorem Frame.LeavesTo.put_spec {f r : Frame} {c c0 : Ctx} (h : f.LeavesTo c r) (hid : c.id = c0.id)
    (hstrand : ∃ t, f.s.strand? f.t.sid = some t) (hctx : f.s.ctx? c0.id = some c0) (hne : c0.id ≠ f.c.id) :
    r.put.frameOf f.t.sid = some ⟨r.put, r.t, r.c⟩ ∧ r.put.ctx? f.c.id = none ∧ r.put.mem = f.s.mem := by
  obtain ⟨h1, h2, h3, h4, h5, h6, h7⟩ := h
  have hrid : r.c.id = c0.id := h7.1.trans hid
  have hother : r.s.ctx? f.c.id = none := by
    rw [State.ctx?, h2]
    simp
  have hfound : r.s.ctx? r.c.id = some c0 := by
    rw [hrid, State.ctx?, h2, List.find?_filter, ← hctx, State.ctx?]
    congr 1
    funext x
    by_cases hx : x.id = c0.id
    · simp [hx, hne]
    · simp [hx]
  refine ⟨?_, ?_, h3⟩
  · rw [← h4]
    exact Frame.put_frameOf (by rw [State.strand?, h1, h4]; exact hstrand) ⟨c0, hfound⟩ (by rw [h5, h7.1])
  · rw [Frame.put, State.ctx?_setCtx_of_ne (by rw [hrid]; exact Ne.symm hne)]
    exact hother

/-! ### TRET -/

/-- Whether an image stands is a question about memory. -/
theorem State.imageStands_congr {s t : State} (h : t.mem = s.mem) : ∀ (n : Nat) (l : List (Nat × Nat)),
    t.imageStands n l = s.imageStands n l
  | _, [] => rfl
  | n, (k, len) :: l => by rw [State.imageStands, State.imageStands, h, State.imageStands_congr h (n + 1) l]

/-- The save area is read by a state that differs in who issues and in what strands and contexts hold. -/
theorem State.readArea_of {s u : State} {t : Strand} {o n : Nat} {l : List (Nat × Nat)}
    (hu : u = { s with strands := u.strands, ctxs := u.ctxs, turn := u.turn })
    (hl : s.tileRange t.ptn .read (csaBase t.csa + o) n = .ok l) (hgood : s.badPieces l = false) :
    u.readArea t o n = .ok (u.tileHasRead t.ptn (csaBase t.csa + o) n l, t.imageHolds s o l) := by
  have hrange : u.tileRange t.ptn .read (csaBase t.csa + o) n = .ok l := by
    rw [← hl, hu]
    exact State.tileRange_congr (fun hs va => s.locateFor_strands _ _ _ hs .read va) _ _ _
  have hbad : u.badPieces l = false := by rw [← hgood, hu]; rfl
  have hmem : u.mem = s.mem := by rw [hu]
  have himage : t.imageHolds u o l = t.imageHolds s o l := by
    simp only [Strand.imageHolds, State.imageStands_congr hmem]
  rw [State.readArea, hrange]
  dsimp only
  rw [hbad, himage]
  rfl

/-- What TRET resumes: the interrupted context as it is, or with free values where the save place has been written over. -/
theorem Frame.restoreAndLeave_spec {f : Frame} {c0 : Ctx} (hstrand : ∃ t, f.s.strand? f.t.sid = some t)
    (hctx : f.s.ctx? c0.id = some c0) (hne : c0.id ≠ f.c.id)
    (hplace : f.t.tsave[0].toNat / 2 ^ 35 % 4 ≠ 3 →
      ∃ l, f.s.tileRange f.t.ptn .read (csaBase f.t.csa + 0x1000) 0x1000 = .ok l ∧ f.s.badPieces l = false) :
    ∃ (g : Frame) (c : Ctx), f.restoreAndLeave c0 = g.leaveHandler c ∧ g.t = f.t ∧ g.c = f.c ∧ g.s.mem = f.s.mem
      ∧ (∃ t, g.s.strand? g.t.sid = some t) ∧ g.s.ctx? c0.id = some c0
      ∧ c.id = c0.id ∧ c.ring = c0.ring ∧ c.vregs = c0.vregs ∧ c.depth = c0.depth ∧ c.pc = c0.pc ∧ c.seq = c0.seq
      ∧ (f.t.tsave[0].toNat / 2 ^ 35 % 4 = 3
        ∨ (∀ l, f.s.tileRange f.t.ptn .read (csaBase f.t.csa + 0x1000) 0x1000 = .ok l →
          ∀ x ∈ f.t.images, x.1 = 0x1000 → f.s.imageStands x.2.2 l = true) → c.preds = c0.preds ∧ c.low = c0.low) := by
  have h0 : vget f.t.tsave 0 0 = f.t.tsave[0] := vget_eq_getElem f.t.tsave (0 : Fin 8) 0
  have hresume : fld f.t.tsave[0] 35 2 = f.t.tsave[0].toNat / 2 ^ 35 % 4 := fld_eq ..
  unfold Frame.restoreAndLeave
  rw [h0, hresume]
  by_cases h3 : f.t.tsave[0].toNat / 2 ^ 35 % 4 = 3
  · rw [if_pos h3]
    exact ⟨f, c0, rfl, rfl, rfl, rfl, hstrand, hctx, rfl, rfl, rfl, rfl, rfl, rfl, fun _ => ⟨rfl, rfl⟩⟩
  rw [if_neg h3]
  obtain ⟨l, hl, hgood⟩ := hplace h3
  dsimp only
  rw [State.readArea_of (s := f.s) rfl hl hgood]
  generalize hs1 : ({ f with s := { f.s with turn := f.s.turn.filter (· != f.t.sid) } } : Frame).put = s1
  have hread : s1.ReadIn (s1.tileHasRead f.t.ptn (csaBase f.t.csa + 0x1000) 0x1000 l) := s1.tileHasRead_readIn _ _ _ _
  generalize s1.tileHasRead f.t.ptn (csaBase f.t.csa + 0x1000) 0x1000 l = s2 at hread
  have hmem : s2.mem = f.s.mem := by rw [hread, ← hs1]; rfl
  have hstands : ∃ t, s2.strand? f.t.sid = some t := by
    rw [hread, ← hs1]
    exact ⟨f.t, State.strand?_setStrand (s := f.s) hstrand⟩
  have hfound : s2.ctx? c0.id = some c0 := by
    rw [hread, ← hs1]
    exact (State.ctx?_setCtx_of_ne (s := f.s) hne).trans hctx
  cases hholds : f.t.imageHolds f.s 0x1000 l with
  | true => exact ⟨{ f with s := s2 }, c0, rfl, rfl, rfl, hmem, hstands, hfound, rfl, rfl, rfl, rfl, rfl, rfl, fun _ => ⟨rfl, rfl⟩⟩
  | false =>
    refine ⟨{ f with s := { s2 with fresh := s2.fresh + 1 } }, c0.scrambleCore s2.fresh, rfl, rfl, rfl, hmem, hstands, hfound,
      rfl, rfl, rfl, rfl, rfl, rfl, fun h => absurd ?_ (Bool.eq_false_iff.1 hholds)⟩
    rw [Strand.imageHolds, List.all_eq_true]
    intro y hy
    rw [List.mem_filter, beq_iff_eq] at hy
    exact (h.resolve_left h3) l hl y hy.1 hy.2

/-- A slot that gives the next state itself and traps takes the trap. -/
theorem runSlotTo_of_trap {h : Slot} {body : Frame → Except Stop State} {s : State} {f0 f : Frame} {r : TrapRec}
    (h0 : s.frame = some f0) (hr : s.Runs h f) (b : body f = .error (.trap r)) :
    runSlotTo h body s = .next (takeTrap f0.begin r false) := by
  obtain ⟨f1, h1, hagain, hskip, hguard, htouch⟩ := hr
  cases h0.symm.trans h1
  simp [runSlotTo, h1, hagain, hskip, hguard, htouch, b, bind, Except.bind, Frame.stopAt]

/-- TRET with an interrupted context resumes it. -/
theorem exec_tret_resumes {h : Slot} {s : State} {f : Frame} {c0 : Ctx} (hr : s.Runs h f) (hspec : f.t.spec = none)
    (hsaved : f.t.saved = some c0.id) (hctx : f.s.ctx? c0.id = some c0) : exec (.tret h) s = .next (f.restoreAndLeave c0) := by
  have e : exec (.tret h) s = execTret h s := rfl
  have hpriv : f.privileged = true := by rw [Frame.privileged, hsaved, Option.isSome_some, Bool.or_true]
  refine e.trans (runSlotTo_of_ok hr ?_)
  rw [Frame.settled_of hspec, except_ok_bind, need_true_bind hpriv, hsaved, Option.bind_some, hctx]
  rfl

/-- Without privilege TRET traps PRIV. -/
theorem exec_tret_priv {h : Slot} {s : State} {f0 f : Frame} (h0 : s.frame = some f0) (hr : s.Runs h f) (hspec : f.t.spec = none)
    (hpriv : f.privileged = false) : exec (.tret h) s = .next (takeTrap f0.begin ⟨8, 0, 0, 0, 0, none⟩ false) := by
  have e : exec (.tret h) s = execTret h s := rfl
  refine e.trans (runSlotTo_of_trap h0 hr ?_)
  rw [Frame.settled_of hspec, except_ok_bind, need_false_bind hpriv]
  rfl

/-- Settles O38: the interrupted context is restored, and the handler left as RESUME says. -/
theorem trapReturn : Obligations.TrapReturn := by
  intro h s f0 f h0 hr hspec
  refine ⟨exec_tret_priv h0 hr hspec, ?_⟩
  intro c0 hsaved hctx hne resume target place hplace
  have hcsa : csaBase f.t.csa = f.t.csa.toNat / 2 ^ 22 % 2 ^ 35 * 2 ^ 22 := by rw [csaBase, fld_eq]
  obtain ⟨g, c, h1, h2, h3, h4, h5, h6, h7, h8, h9, h10, h11, h12, h13⟩ :=
    Frame.restoreAndLeave_spec hr.strand hctx hne (by rw [hcsa]; exact hplace)
  obtain ⟨r, k1, k2, k3, k4, k5, k6, k7⟩ := g.leaveHandler_spec c
  obtain ⟨p1, p2, p3⟩ := k2.put_spec h7 h5 h6 (by rw [h3]; exact hne)
  obtain ⟨-, -, -, -, -, hleft, hid, hlow, hring, hdepth, hvregs, hpreds⟩ := k2
  rw [h2] at p1 k3 k4 k5 k6 k7
  rw [h3] at p2
  rw [hcsa] at h13
  refine ⟨r.put, r.t, r.c, (exec_tret_resumes hr hspec hsaved hctx).trans (congrArg _ (h1.trans k1)), p1, hid.trans h7, hleft, p2,
    hring.trans h8, hvregs.trans h9, hdepth.trans h10, fun hsame => ?_, fun j => ?_, fun ha hb => ?_, fun ha hb => ?_, k5, k6, k7⟩
  · obtain ⟨q1, q2⟩ := h13 hsame
    exact ⟨hpreds.trans q1, hlow.trans q2⟩
  · rw [p3, h4, hr.mem]
  · obtain ⟨q1, q2, q3, q4, q5⟩ := k3 ha hb
    rw [h11] at q1
    rw [h12] at q2 q3 q4
    exact ⟨q1, q2, q3, q4, q5⟩
  · obtain ⟨q1, q2⟩ := k4 ha hb
    exact ⟨q1.trans h11, q2⟩

end Sys2Proof.Machine
end

section
/-! PROOF. The engine port and the calls of the transform unit (R191 to R198, R202, R206, R220 to R223). -/

namespace Sys2Proof.Machine

/-! ### Calls that are claimed for -/

theorem Frame.seen_of {f : Frame} (h : f.c.again = none) : f.seen = f.t.snap.ctx := by
  rw [Frame.seen, h]
  rfl

theorem Frame.callPlace_of {f : Frame} {room : Bool} (h : room = true) : f.callPlace room = .ok true := if_pos h

/-- A call whose blocks are at hand claims them. -/
theorem Frame.claimCall_of {f u : Frame} {blocks : List Nat} (h : f.BlocksReady blocks u) (serial : Nat) :
    f.claimCall serial blocks = .ok { u with s := { u.s.claim u.c.id (.call serial) u.c.nextRid blocks with nextId := u.s.nextId + 1 } } := by
  rw [Frame.claimCall, Frame.reachAll_of_touchAll h, except_ok_bind]
  rfl

/-- Units that are at hand leave the numbers that a state gives out. -/
theorem Frame.BlocksReady.nextId {f u : Frame} {blocks : List Nat} (h : f.BlocksReady blocks u) : u.s.nextId = f.s.nextId := by
  rw [(Frame.touchAll_noted h).1]

/-- A call of the MXE that finds room enters its queue. -/
theorem Frame.acceptMxe_of {f u : Frame} {call : Nat → MxCall} {blocks : List Nat} (hroom : f.c.mxe.taken < 8)
    (hheld : f.c.mxe.held = []) (hblocks : f.BlocksReady blocks u) : f.acceptMxe call blocks
      = .ok { u.claimed f.s.nextId blocks with c := { u.c with mxe := { f.c.mxe with
          queue := f.c.mxe.queue ++ [call f.s.nextId] } } } := by
  rw [Frame.acceptMxe]
  dsimp only
  rw [Frame.callPlace_of (by rw [hheld]; simpa using hroom), except_ok_bind, Frame.claimCall_of hblocks, except_ok_bind]
  rfl

/-! ### MPSET, MPGET and MXQ (R191, R202) -/

/-- Four counts in a word, each in its field. -/
theorem Ctx.engineCounts_toNat (c : Ctx) (h1 : c.mxe.taken + c.mxe.held.length < 16) (h2 : c.xfu.taken + c.xfu.held.length < 16)
    (h3 : c.mxe.k0.length < 32) (h4 : c.xfu.k1.length < 32) :
    c.engineCounts.toNat % 16 = c.mxe.taken + c.mxe.held.length ∧ c.engineCounts.toNat / 16 % 16 = c.xfu.taken + c.xfu.held.length
    ∧ c.engineCounts.toNat / 256 % 256 = c.mxe.k0.length ∧ c.engineCounts.toNat / 65536 = c.xfu.k1.length := by
  rw [Ctx.engineCounts, BitVec.toNat_ofNat]
  omega

/-! ### MXCALL and MXLOAD (R192 to R206) -/

/-- MXCALL on a frame. -/
def Frame.mxcallAct (f : Frame) (n : Fin 256) (a : Word) : Except Stop (Frame × Effect) := do
  let _ ← f.settled
  let m := f.c.mxe
  let e := issueEntry (f.s.tile f.t.ptn) m n
  let _ ← need e.valid (trapOf .illenc)
  let _ ← need (descriptorsOk m.mp e) (trapOf .illfmt)
  let mp6 := vget m.mp 6 0
  let first := fld mp6 0 9
  let cnt := fld mp6 9 10
  let _ ← need (first + cnt ≤ 512) (trapAt .align 0 (first * 4096))
  let utag := a.extractLsb' 0 32
  let mp := vset m.mp 7 ((vget m.mp 7 0).extractLsb' 32 32 ++ utag)
  let f ← f.acceptMxe (fun k => ⟨k, n, mp, none, utag⟩) (rangeFrom first cnt)
  return ({ f with c := { f.c with mxe := { f.c.mxe with mp := mp } } }, .quiet)

/-- The parameters that a call takes: A's low half in the low half of mp7. -/
def calledMp (mp : Vector Word 8) (a : Word) : Vector Word 8 := mp.set 7 (mp[7].extractLsb' 32 32 ++ a.extractLsb' 0 32)

theorem calledMp_spec (mp : Vector Word 8) (a : Word) : (∀ j : Fin 8, j ≠ 7 → (calledMp mp a)[j] = mp[j])
    ∧ (calledMp mp a)[7].toNat = mp[7].toNat / 2 ^ 32 * 2 ^ 32 + a.toNat % 2 ^ 32 := by
  refine ⟨fun j hj => Vector.getElem_set_ne _ _ fun e => hj (Fin.ext e.symm), ?_⟩
  have h : (calledMp mp a)[7] = mp[7].extractLsb' 32 32 ++ a.extractLsb' 0 32 := Vector.getElem_set_self ..
  have h7 := mp[7].isLt
  have hlow : (a.extractLsb' 0 32).toNat = a.toNat % 2 ^ 32 := fld_zero a 32
  have hhigh : (mp[7].extractLsb' 32 32).toNat = mp[7].toNat / 2 ^ 32 := fld_top mp[7] rfl
  rw [h, BitVec.toNat_append, hlow, hhigh, Nat.shiftLeft_eq, ← Nat.shiftLeft_eq, ← Nat.shiftLeft_add_eq_or_of_lt (Nat.mod_lt _ (by omega)),
    Nat.shiftLeft_eq]

theorem Frame.mxcallAct_of {f u : Frame} {n : Fin 256} {a : Word} (hspec : f.Agreed) (hroom : f.c.mxe.taken < 8)
    (hheld : f.c.mxe.held = []) (hvalid : (issueEntry (f.s.tile f.t.ptn) f.c.mxe n).valid = true)
    (hdesc : descriptorsOk f.c.mxe.mp (issueEntry (f.s.tile f.t.ptn) f.c.mxe n) = true)
    (hfit : f.c.mxe.mp[6].toNat % 512 + f.c.mxe.mp[6].toNat / 512 % 1024 ≤ 512)
    (hblocks : f.BlocksReady ((List.range (f.c.mxe.mp[6].toNat / 512 % 1024)).map (f.c.mxe.mp[6].toNat % 512 + ·)) u) :
    f.mxcallAct n a = .ok ({ u.claimed f.s.nextId ((List.range (f.c.mxe.mp[6].toNat / 512 % 1024)).map
          (f.c.mxe.mp[6].toNat % 512 + ·)) with c := { u.c with mxe := { f.c.mxe with
        mp := calledMp f.c.mxe.mp a
        queue := f.c.mxe.queue ++ [⟨f.s.nextId, n, calledMp f.c.mxe.mp a, none, a.setWidth 32⟩] } } }, .quiet) := by
  have h6 : vget f.c.mxe.mp 6 0 = f.c.mxe.mp[6] := vget_eq_getElem f.c.mxe.mp (6 : Fin 8) 0
  have h7 : vget f.c.mxe.mp 7 0 = f.c.mxe.mp[7] := vget_eq_getElem f.c.mxe.mp (7 : Fin 8) 0
  have hfirst : fld f.c.mxe.mp[6] 0 9 = f.c.mxe.mp[6].toNat % 512 := fld_zero _ _
  have hcount : fld f.c.mxe.mp[6] 9 10 = f.c.mxe.mp[6].toNat / 512 % 1024 := fld_eq ..
  have hset : vset f.c.mxe.mp 7 (f.c.mxe.mp[7].extractLsb' 32 32 ++ a.extractLsb' 0 32) = calledMp f.c.mxe.mp a :=
    vset_eq_set f.c.mxe.mp (7 : Fin 8) _
  have hlow : a.extractLsb' 0 32 = a.setWidth 32 := by ext i; simp
  rw [Frame.mxcallAct, Frame.settled_of hspec, except_ok_bind]
  dsimp only
  rw [need_true_bind hvalid, need_true_bind hdesc, h6, h7, hfirst, hcount, need_true_bind (decide_eq_true hfit), hset,
    rangeFrom_eq_map, Frame.acceptMxe_of hroom hheld hblocks, except_ok_bind, hlow]
  rfl

/-- MXLOAD on a frame. -/
def Frame.mxloadAct (f : Frame) (a b c : Word) : Except Stop (Frame × Effect) := do
  let _ ← f.settled
  let addr := a.toNat
  let index := fld b 0 8
  let start := fld b 8 11
  let ad := fld b 24 4
  let bd := fld b 28 4
  let count := fld c 0 12
  let _ ← need (ad ≤ 8 && bd ≤ 8 && start + count ≤ 2048) (trapOf .illenc)
  let _ ← need (addr % 8 == 0 && addr + 8 * count ≤ 0x200000) (trapAt .align 0 addr)
  let _ ← need (f.privileged || (64 ≤ index && (count == 0 || 1024 ≤ start))) (trapOf .priv)
  let utag := c.extractLsb' 32 32
  let f ← f.acceptMxe (fun k => ⟨k, index, Vector.replicate 8 0, some ⟨addr, index, start, ad, bd, count⟩, utag⟩)
    (blocksOf addr (8 * count))
  return (f.setIssue index ⟨count != 0, ad, bd⟩, .quiet)

/-- What a load of an image enters in the queue. -/
def loadCall (serial : Nat) (a b c : Word) : MxCall :=
  ⟨serial, b.toNat % 256, Vector.replicate 8 0, some ⟨a.toNat, b.toNat % 256, b.toNat / 256 % 2048, b.toNat / 2 ^ 24 % 16,
    b.toNat / 2 ^ 28 % 16, c.toNat % 4096⟩, c.extractLsb' 32 32⟩

theorem Frame.mxloadAct_of {f u : Frame} {a b c : Word} (hspec : f.Agreed) (hroom : f.c.mxe.taken < 8) (hheld : f.c.mxe.held = [])
    (had : b.toNat / 2 ^ 24 % 16 ≤ 8) (hbd : b.toNat / 2 ^ 28 % 16 ≤ 8) (hfit : b.toNat / 256 % 2048 + c.toNat % 4096 ≤ 2048)
    (halign : a.toNat % 8 = 0) (hpad : a.toNat + 8 * (c.toNat % 4096) ≤ 0x200000)
    (hpriv : f.privileged = true ∨ 64 ≤ b.toNat % 256 ∧ (c.toNat % 4096 = 0 ∨ 1024 ≤ b.toNat / 256 % 2048))
    (hblocks : f.BlocksReady (blocksOf a.toNat (8 * (c.toNat % 4096))) u) : f.mxloadAct a b c
      = .ok (Frame.setIssue { u.claimed f.s.nextId (blocksOf a.toNat (8 * (c.toNat % 4096))) with c := { u.c with mxe := { f.c.mxe with
          queue := f.c.mxe.queue ++ [loadCall f.s.nextId a b c] } } } (b.toNat % 256)
        ⟨c.toNat % 4096 != 0, b.toNat / 2 ^ 24 % 16, b.toNat / 2 ^ 28 % 16⟩, .quiet) := by
  have h1 : fld b 0 8 = b.toNat % 256 := fld_zero _ _
  have h2 : fld b 8 11 = b.toNat / 256 % 2048 := fld_eq ..
  have h3 : fld b 24 4 = b.toNat / 2 ^ 24 % 16 := fld_eq ..
  have h4 : fld b 28 4 = b.toNat / 2 ^ 28 % 16 := fld_eq ..
  have h5 : fld c 0 12 = c.toNat % 4096 := fld_zero _ _
  have hpriv' : (f.privileged || (decide (64 ≤ b.toNat % 256) && (c.toNat % 4096 == 0 || decide (1024 ≤ b.toNat / 256 % 2048)))) = true := by
    simpa using hpriv
  rw [Frame.mxloadAct, Frame.settled_of hspec, except_ok_bind, h1, h2, h3, h4, h5]
  dsimp only
  rw [need_true_bind (by simpa [and_assoc] using ⟨had, hbd, hfit⟩), need_true_bind (by simpa using ⟨halign, hpad⟩),
    need_true_bind hpriv', Frame.acceptMxe_of hroom hheld hblocks, except_ok_bind]
  rfl

/-! ### The issue side (R205, R206) -/

/-- An inserted key is found with its value, and the others as before. -/
theorem lookupD_insertKey {α : Type} (d v : α) (i j : Nat) : ∀ l : List (Nat × α),
    lookupD (insertKey l i v) j d = if j = i then v else lookupD l j d
  | [] => by
    by_cases h : j = i
    · simp [insertKey, lookupD, h]
    · simp [insertKey, lookupD, h, Ne.symm h]
  | (k, w) :: l => by
    have ih := lookupD_insertKey d v i j l
    unfold lookupD at *
    rw [insertKey]
    by_cases h1 : i < k
    · rw [if_pos h1]
      by_cases h : j = i
      · simp [h]
      · simp [h, Ne.symm h]
    · rw [if_neg h1]
      by_cases h2 : i = k
      · rw [if_pos h2]
        subst h2
        by_cases h : j = i
        · simp [h]
        · simp [h, Ne.symm h]
      · rw [if_neg h2]
        by_cases h3 : k = j
        · subst h3
          simp [Ne.symm h2]
        · rw [List.find?_cons_of_neg (by simpa using h3), ih, List.find?_cons_of_neg (by simpa using h3)]

/-- A tile's record is found as it is written. -/
theorem State.tile_setTile (s : State) (r : TileRec) : (s.setTile r).tile r.ptn = r := by
  unfold State.setTile State.tile
  dsimp only
  split
  next h =>
    have hsome : (s.tiles.find? (·.ptn == r.ptn)).isSome = true := by
      rw [List.find?_isSome]
      simpa using h
    rw [find?_replaceIf_same (by simp) hsome]
    rfl
  next => simp

/-- A tile's record names its tile. -/
theorem State.tile_ptn (s : State) (ptn : Nat) : (s.tile ptn).ptn = ptn := by
  unfold State.tile
  cases h : s.tiles.find? (·.ptn == ptn) with
  | none => rfl
  | some r => simpa using List.find?_some h

theorem State.tile_setTile_of {s : State} {r : TileRec} {ptn : Nat} (h : r.ptn = ptn) : (s.setTile r).tile ptn = r := by
  rw [← h]
  exact s.tile_setTile r

/-- What setting an entry of the issue side changes. -/
theorem Frame.setIssue_spec (f : Frame) (i : Nat) (e : IssueEntry) :
    ((f.setIssue i e).c.mxe.queue = f.c.mxe.queue ∧ (f.setIssue i e).c.mxe.mp = f.c.mxe.mp
      ∧ (f.setIssue i e).s.claims = f.s.claims ∧ (f.setIssue i e).c.seq = f.c.seq)
    ∧ ∀ j, issueEntry ((f.setIssue i e).s.tile (f.setIssue i e).t.ptn) (f.setIssue i e).c.mxe j
      = if j = i then e else issueEntry (f.s.tile f.t.ptn) f.c.mxe j := by
  by_cases h : i < 64
  · have htile : (f.s.setTile { f.s.tile f.t.ptn with fw := { (f.s.tile f.t.ptn).fw with
        issue := insertKey (f.s.tile f.t.ptn).fw.issue i e } }).tile f.t.ptn = _ := State.tile_setTile_of (f.s.tile_ptn f.t.ptn)
    rw [Frame.setIssue, if_pos h]
    refine ⟨⟨rfl, rfl, rfl, rfl⟩, fun j => ?_⟩
    dsimp only
    rw [htile, issueEntry, issueEntry]
    dsimp only
    by_cases hj : j < 64
    · rw [if_pos hj, if_pos hj, lookupD_insertKey]
    · rw [if_neg hj, if_neg hj, if_neg (by omega)]
  · rw [Frame.setIssue, if_neg h]
    refine ⟨⟨rfl, rfl, rfl, rfl⟩, fun j => ?_⟩
    rw [issueEntry, issueEntry]
    dsimp only
    by_cases hj : j < 64
    · rw [if_pos hj, if_pos hj, if_neg (by omega)]
    · rw [if_neg hj, if_neg hj, lookupD_insertKey]

/-- Owning a unit leaves the firmware of a tile. -/
theorem Frame.touch_fw {f g : Frame} {u : TileUnit} (h : f.touch u = .ok g) : (g.s.tile g.t.ptn).fw = (f.s.tile f.t.ptn).fw := by
  unfold Frame.touch at h
  split at h <;> cases h
  unfold Frame.own
  split
  · rfl
  · have htile := State.tile_setTile_of (s := f.s) (r := { f.s.tile f.t.ptn with
      owners := (u, f.c.id) :: (f.s.tile f.t.ptn).owners.filter (·.1 != u) }) (f.s.tile_ptn f.t.ptn)
    dsimp only
    rw [htile]

theorem Frame.touchAll_fw : ∀ {us : List TileUnit} {f g : Frame}, f.touchAll us = .ok g →
    (g.s.tile g.t.ptn).fw = (f.s.tile f.t.ptn).fw
  | [], f, g, h => by cases h; rfl
  | u :: us, f, g, h => by
    unfold Frame.touchAll at h
    split at h
    next v hv => exact (Frame.touchAll_fw h).trans (Frame.touch_fw hv)
    next => cases h

/-- Settles O39: the forms of the engine port. -/
theorem engineCallsIssue : Obligations.EngineCallsIssue := by
  refine ⟨?_, ?_⟩
  · intro h n a s f x k held hr _ g get
    refine ⟨fun ht hspec => ?_, fun ht => ?_⟩
    · have e : exec (.mpset h n a) s = execMpset h n a s := rfl
      refine e.trans (runSlot_trigger_of_takes (g := fun _ => engineTrig (some a) false false false [.mxe]) hr ht ?_
        (ht.ready_late .en))
      refine (except_bind_of (Frame.settled_of hspec)).trans ?_
      dsimp only
      rw [vset_eq_set]
      rfl
    · have hseen : g.seen = g.t.snap.ctx := Frame.seen_of ((Fetch.ready_again ht.ready_delivered .en).trans hr.again)
      intro was
      have e1 : exec (.mpget h n) s = execMpget h n s := rfl
      have e2 : exec (.mxq h) s = execMxq h s := rfl
      refine ⟨e1.trans (runSlot_trigger_of_takes (g := fun _ => get) hr ht ?_ (ht.ready_late _)), was.engineCounts,
        e2.trans (runSlot_trigger_of_takes (g := fun _ => get) hr ht ?_ (ht.ready_late _)), was.engineCounts_toNat⟩
      · show (Except.ok (g, Effect.result 1 (pushWord 9 (vget g.seen.mxe.mp n 0) 0)) : Except Stop _) = _
        rw [hseen, vget_eq_getElem]
        rfl
      · show (Except.ok (g, Effect.result 1 (pushWord 9 g.seen.engineCounts 0)) : Except Stop _) = _
        rw [hseen]
        rfl
  · intro h a s f x k held hr _ g A B C hspec hroom hheld
    refine ⟨?_, ?_⟩
    · intro n u trig ht e first count blocks hvalid hdesc hfit hblocks
      obtain ⟨m1, m2⟩ := calledMp_spec g.c.mxe.mp A
      refine ⟨calledMp g.c.mxe.mp A, ?_, m1, m2⟩
      have hlate : u.c.seq.late = [] := (Frame.touchAll_noted hblocks).late.trans (ht.ready_late _)
      have e : exec (.mxcall h n a) s = runSlot h (trigger h trig (direct fun f a _ _ _ => f.mxcallAct n a.low)) s := rfl
      exact e.trans (runSlot_trigger_of_takes (g := fun _ => trig) hr ht
        (Frame.mxcallAct_of (f := g) hspec hroom hheld hvalid hdesc hfit hblocks) hlate)
    · intro u ht index start ad bd count blocks had hbd hfit halign hpad hpriv hblocks
      have hlate : u.c.seq.late = [] := (Frame.touchAll_noted hblocks).late.trans (ht.ready_late _)
      have e : exec (.mxload h a) s = runSlot h (trigger h (engineTrig (some a) true true false mxeUnits)
        (direct fun f a b c _ => f.mxloadAct a.low b.low c.low)) s := rfl
      set v : Frame := { u.claimed g.s.nextId blocks with c := { u.c with mxe := { g.c.mxe with
          queue := g.c.mxe.queue ++ [loadCall g.s.nextId A B C] } } } with hv
      obtain ⟨⟨i1, i2, i3, i4⟩, i5⟩ := v.setIssue_spec index ⟨count != 0, ad, bd⟩
      have hentry : (⟨count != 0, ad, bd⟩ : IssueEntry) = ⟨decide (count ≠ 0), ad, bd⟩ := by
        congr 1
        by_cases h0 : count = 0 <;> simp [h0]
      refine ⟨v.setIssue index ⟨count != 0, ad, bd⟩, e.trans (runSlot_trigger_of_takes
        (g := fun _ => engineTrig (some a) true true false mxeUnits) hr ht
          (Frame.mxloadAct_of (f := g) hspec hroom hheld had hbd hfit halign hpad hpriv hblocks) ?_), i1, i2, i3, ?_, fun j _ hj => ?_⟩
      · rw [i4]
        exact hlate
      · rw [i5, if_pos rfl, hentry]
      · rw [i5, if_neg hj]
        rw [issueEntry, issueEntry, ← Frame.touchAll_fw hblocks]
        rfl

/-! ### Plans and transform calls (R220 to R223) -/

/-- The words of a plan descriptor that can be read. -/
theorem Frame.planWords_of {f v u : Frame} {addr : Nat} (htouch : f.touch (blockUnit addr) = .ok v)
    (haccess : v.Accesses [(Key.pad v.c.id addr, 64)] false u) (hgood : u.PadGood [addr] 64) :
    f.planWords addr = .ok (wordsOf 8 (u.bytes (Key.pad u.c.id addr) 64), u) := by
  have hread : u.padRead addr 64 = .ok (u.bytes (Key.pad u.c.id addr) 64) := by
    rw [Frame.padRead, hgood _ (List.mem_singleton.2 rfl)]
    rfl
  rw [Frame.planWords, Frame.reach_of_touch htouch, except_ok_bind, Frame.access_of haccess, except_ok_bind, hread, except_ok_bind]
  rfl

/-- XPLAN on a frame. -/
def Frame.xplanAct (f : Frame) (a b : Word) : Except Stop (Frame × Effect) := do
  let _ ← f.settled
  let addr := a.toNat
  let _ ← need (addr % 64 == 0 && addr < 0x200000) (trapAt .align 0 addr)
  let _ ← need (!f.ownerBit (addr / 4096)) (trapAt .ownf 0 addr)
  let (w, f) ← f.planWords addr
  let _ ← need (fld (w.getD 0 0) 57 5 < 2) (trapOf .illfmt)
  let p := readPlan w
  let _ ← need (planLegal w p) (trapOf .illenc)
  let x := f.c.xfu
  return ({ f with c := { f.c with xfu := { x with plans := vset x.plans (fld b 0 3) (some p) } } }, .quiet)

/-- A frame with a plan of the transform unit set. -/
def Frame.setPlan (f : Frame) (n : Nat) (p : Plan) : Frame :=
  { f with c := { f.c with xfu := { f.c.xfu with plans := vset f.c.xfu.plans n (some p) } } }

theorem Frame.xplanAct_of {f v u : Frame} {a b : Word} (hspec : f.Agreed) (halign : a.toNat % 64 = 0) (hpad : a.toNat < 0x200000)
    (hown : f.ownerBit (a.toNat / 4096) = false) (htouch : f.touch (blockUnit a.toNat) = .ok v)
    (haccess : v.Accesses [(Key.pad v.c.id a.toNat, 64)] false u) (hgood : u.PadGood [a.toNat] 64) {w : List Word}
    (hw : w = wordsOf 8 (u.bytes (Key.pad u.c.id a.toNat) 64)) (htag : (w.headD 0).toNat / 2 ^ 57 % 32 < 2)
    (hlegal : planLegal w (readPlan w) = true) : f.xplanAct a b = .ok (u.setPlan (b.toNat % 8) (readPlan w), .quiet) := by
  have hhead : w.getD 0 0 = w.headD 0 := by cases w <;> rfl
  have htag' : fld (w.headD 0) 57 5 < 2 := by rw [fld_eq]; exact htag
  have hport : fld b 0 3 = b.toNat % 8 := fld_zero _ _
  rw [Frame.xplanAct, Frame.settled_of hspec, except_ok_bind]
  dsimp only
  rw [need_true_bind (by simpa using ⟨halign, hpad⟩), need_true_bind (by simpa using hown), Frame.planWords_of htouch haccess hgood,
    except_ok_bind, ← hw]
  dsimp only
  rw [hhead, hport, need_true_bind (decide_eq_true htag'), need_true_bind hlegal]
  rfl

/-- A transform call on a frame. -/
def Frame.xfuAct (f : Frame) (port : Nat) (a b c d : Word) : Except Stop (Frame × Effect) := do
  let _ ← f.settled
  let x := f.c.xfu
  match vget x.plans (fld a 0 3) none with
  | none => .error (trapOf .illenc)
  | some p =>
    let batch := fld d 0 16
    let src := b.toNat
    let dst := c.toNat
    let _ ← need (p.kind == portKindOf port && batch != 0 && (p.kind != 2 || batch == 1)) (trapOf .illenc)
    let _ ← need (src % p.esize == 0) (trapAt .align 0 src)
    let _ ← need (dst % p.esize == 0) (trapAt .align 0 dst)
    let _ ← match p.outside port src dst batch with
      | some x => .error (trapAt .align 0 (BitVec.ofInt 64 x).toNat)
      | none => .ok ()
    let now ← f.callPlace (x.taken < 8 && x.held.isEmpty)
    let serial := f.s.nextId
    let call : XfuCall := ⟨serial, port, p, a.extractLsb' 32 32, src, dst, batch⟩
    let f ← f.claimCall serial (p.blocks port src dst batch)
    let x := if now then { x with queue := x.queue ++ [call] } else { x with held := x.held ++ [call] }
    return ({ f with c := { f.c with xfu := x } }, .quiet)

theorem Frame.xfuAct_of {f u : Frame} {port kind : Nat} {a b c d : Word} {n : Fin 8} {p : Plan} (hspec : f.Agreed)
    (hn : a.toNat % 8 = n) (hplan : f.c.xfu.plans[n] = some p) (hport : portKindOf port = kind) (hkind : p.kind = kind)
    (hbatch : d.toNat % 65536 ≠ 0) (hone : kind = 2 → d.toNat % 65536 = 1) (hsrc : b.toNat % p.esize = 0)
    (hdst : c.toNat % p.esize = 0) (hin : p.outside port b.toNat c.toNat (d.toNat % 65536) = none)
    (hroom : f.c.xfu.taken < 8) (hheld : f.c.xfu.held = [])
    (hblocks : f.BlocksReady (p.blocks port b.toNat c.toNat (d.toNat % 65536)) u) : f.xfuAct port a b c d
      = .ok ({ u.claimed f.s.nextId (p.blocks port b.toNat c.toNat (d.toNat % 65536)) with c := { u.c with
        xfu := { f.c.xfu with queue := f.c.xfu.queue ++
          [⟨f.s.nextId, port, p, a.extractLsb' 32 32, b.toNat, c.toNat, d.toNat % 65536⟩] } } }, .quiet) := by
  have hslot : fld a 0 3 = n := (fld_zero _ _).trans hn
  have hd : fld d 0 16 = d.toNat % 65536 := fld_zero _ _
  have hget : vget f.c.xfu.plans n none = some p := (vget_eq_getElem ..).trans hplan
  have hlegal : (p.kind == portKindOf port && d.toNat % 65536 != 0 && (p.kind != 2 || d.toNat % 65536 == 1)) = true := by
    rw [hport, hkind]
    by_cases h2 : kind = 2
    · simp [hone h2]
    · simp [h2, hbatch]
  rw [Frame.xfuAct, Frame.settled_of hspec, except_ok_bind, hslot, hd]
  dsimp only
  rw [hget]
  dsimp only
  rw [need_true_bind hlegal, need_true_bind (by simpa using hsrc), need_true_bind (by simpa using hdst), hin]
  dsimp only
  rw [except_ok_bind, Frame.callPlace_of (by rw [hheld]; simpa using hroom), except_ok_bind, Frame.claimCall_of hblocks,
    except_ok_bind]
  rfl

/-- Settles O40: XPLAN sets its plan, and a call enters the queue. -/
theorem transformCalls : Obligations.TransformCalls := by
  refine ⟨?_, ?_⟩
  · intro h a s f v u x k held trig hr ht _ g addr hspec halign hpad hown htouch haccess hgood w p htag hlegal
    have hhead : w.getD 0 0 = w.headD 0 := by cases w <;> rfl
    have e : exec (.xplan h a) s = runSlot h (trigger h trig (direct fun f a b _ _ => f.xplanAct a.low b.low)) s := rfl
    have hlate : u.c.seq.late = [] :=
      haccess.noted.late.trans ((Frame.touch_noted htouch).late.trans (ht.ready_late _))
    refine ⟨u.setPlan (x.b.value.low.toNat % 8) p, e.trans (runSlot_trigger_of_takes (g := fun _ => trig) hr ht
      (Frame.xplanAct_of (f := g) hspec halign hpad hown htouch haccess hgood rfl htag hlegal) hlate), rfl, fun n => ?_, ?_, ?_, ?_⟩
    · show (vset u.c.xfu.plans (x.b.value.low.toNat % 8) (some p))[n] = _
      have hn : x.b.value.low.toNat % 8 < 8 := Nat.mod_lt _ (by omega)
      rw [vset_eq_set u.c.xfu.plans (⟨_, hn⟩ : Fin 8)]
      by_cases hj : n.val = x.b.value.low.toNat % 8
      · have hself : n = ⟨_, hn⟩ := Fin.ext hj
        rw [if_pos hj, hself]
        exact Vector.getElem_set_self ..
      · rw [if_neg hj]
        exact Vector.getElem_set_ne _ _ fun e => hj e.symm
    · exact (congrArg (fun v : Word => fld v 62 2) hhead).trans (fld_top _ rfl)
    · have htagged : fld (w.headD 0) 57 5 = (w.headD 0).toNat / 2 ^ 57 % 32 := fld_eq ..
      show (fld (w.getD 0 0) 57 5 == 1) = _
      rw [hhead, htagged]
      rfl
    · exact fld_zero _ _
  · intro q hq h a s f u x k held n p trig hr ht _ g src dst batch hspec hn hplan hkind hbatch hone hsrc hdst hin hroom hheld hblocks
    have hlate : u.c.seq.late = [] := (Frame.touchAll_noted hblocks).late.trans (ht.ready_late _)
    have hport : portKindOf q.1 = q.2.1 := by fin_cases hq <;> rfl
    have e : exec (q.2.2 h a) s = runSlot h (trigger h trig (direct fun f a b c d => f.xfuAct q.1 a.low b.low c.low d.low)) s := by
      fin_cases hq <;> rfl
    exact e.trans (runSlot_trigger_of_takes (g := fun _ => trig) hr ht
      (Frame.xfuAct_of (f := g) hspec hn hplan hport hkind hbatch hone hsrc hdst hin hroom hheld hblocks) hlate)

end Sys2Proof.Machine
end

section
/-! PROOF. The tag operations and the byte counters (R237, R248 to R251). -/

namespace Sys2Proof.Machine

/-! ### Copy-slot operations -/

section
variable {h : Slot} {a : Src} {s : State} {f : Frame} {x : Args} {k : Fetch} {held : Bool} {b c d : Bool}

/-- A copy-slot operation whose operands are delivered leaves what it does. -/
theorem copyOp_leaves {lat : Option Nat} {act : Frame → Word → Word → Word → Word → Except Stop (Frame × Effect)} {r : Frame}
    {e : Effect} (hr : s.Runs h f) (ht : f.Takes (copyTrig f.unit a b c d lat) x k held)
    (hact : act (k.ready f.unit) x.a.value.low x.b.value.low x.c.value.low x.d.value.low = .ok (r, e))
    (hlate : r.c.seq.late = (k.ready f.unit).c.seq.late) :
    copyOp b c d lat h a act s = .next (r.leaves h (copyTrig f.unit a b c d lat) k x held e) :=
  runSlot_trigger_of_takes (g := fun f => copyTrig f.unit a b c d lat) hr ht hact (hlate.trans (ht.ready_late _))

/-- One that waits for agreement and pushes nothing. -/
theorem settledOp_leaves {act : Frame → Word → Word → Word → Word → Except Stop Frame} {r : Frame}
    (hr : s.Runs h f) (ht : f.Takes (copyTrig f.unit a b c d none) x k held) (hspec : (k.ready f.unit).Agreed)
    (hact : act (k.ready f.unit) x.a.value.low x.b.value.low x.c.value.low x.d.value.low = .ok r)
    (hlate : r.c.seq.late = (k.ready f.unit).c.seq.late) :
    settledOp b c d h a act s = .next (r.leaves h (copyTrig f.unit a b c d none) k x held .quiet) :=
  copyOp_leaves hr ht ((except_bind_of (Frame.settled_of hspec)).trans (except_bind_of hact)) hlate

end

/-! ### Tags (R237) -/

/-- The first number below a bound that a test picks. -/
theorem find?_range_eq_some {n i : Nat} {p : Nat → Bool} (hi : i < n) (hp : p i = true) (hmin : ∀ j, j < i → p j = false) :
    (List.range n).find? p = some i := by
  rw [List.find?_range_eq_some]
  exact ⟨hp, List.mem_range.2 hi, fun j hj => by rw [hmin j hj]; rfl⟩

/-- FFR gives the lowest tag with its status. -/
theorem ffrValue_of {tags m : Word} {stats : Vector Byte 64} {i : Fin 64} (hi : (tags.getLsbD i && m.getLsbD i) = true)
    (hmin : ∀ j : Fin 64, j < i → (tags.getLsbD j && m.getLsbD j) = false) :
    (ffrValue tags m stats).toNat = i + 256 * (stats[i]).toNat := by
  have hfind : (List.range 64).find? (fun t => bit tags t && bit m t) = some i.val :=
    find?_range_eq_some i.isLt hi fun j hj => hmin ⟨j, by omega⟩ hj
  have h := (stats[i]).isLt
  rw [ffrValue, hfind]
  dsimp only
  rw [vget_eq_getElem, BitVec.toNat_ofNat]
  omega

/-- FFR with no tag of its mask. -/
theorem ffrValue_none {tags m : Word} {stats : Vector Byte 64} (h : tags &&& m = 0) : ffrValue tags m stats = 0x8000000000000000 := by
  have hfind : (List.range 64).find? (fun t => bit tags t && bit m t) = none := by
    rw [List.find?_eq_none]
    intro t _ ht
    rw [← BitVec.getLsbD_and, h] at ht
    simp at ht
  rw [ffrValue, hfind]

/-! ### Counters (R248 to R251) -/

/-- Bytes read on from where others end. -/
theorem Memory.read_add (m : List Host.Cell) (k n l : Nat) : Memory.read m k (n + l) = Memory.read m k n ++ Memory.read m (k + n) l := by
  rw [Memory.read_eq_map, Memory.read_eq_map, Memory.read_eq_map, List.range_add, List.map_append, List.map_map]
  simp [Function.comp_def, Nat.add_assoc]

/-- Two numbers of eight bytes written one behind the other. -/
theorem Memory.num_write_pair {m : List Host.Cell} (w : Memory.wf m = true) (k x y : Nat) (hx : x < 2 ^ 64) (hy : y < 2 ^ 64) :
    Memory.num (Memory.write m k (bytesLE 8 x ++ bytesLE 8 y)) k 8 = x
    ∧ Memory.num (Memory.write m k (bytesLE 8 x ++ bytesLE 8 y)) (k + 8) 8 = y := by
  have h := Memory.read_write_same w k (bytesLE 8 x ++ bytesLE 8 y)
  rw [List.length_append, bytesLE_length, bytesLE_length, Memory.read_add] at h
  obtain ⟨h1, h2⟩ := List.append_inj h (by rw [Memory.read_eq_map, bytesLE_length]; simp)
  rw [Memory.num, h1, Memory.num, h2, numLE_bytesLE, numLE_bytesLE]
  exact ⟨Nat.mod_eq_of_lt hx, Nat.mod_eq_of_lt hy⟩

theorem State.setCounter_mem (s : State) (k : Nat) (bal : Word) (pend : Nat) : (s.setCounter k bal pend).mem
    = Memory.write s.mem k (bytesLE 8 bal.toNat ++ bytesLE 8 (pend % 65536)) := by
  rw [State.setCounter, State.write_mem, wordBytes]

/-- A counter's record as it is written. -/
theorem State.setCounter_spec {s : State} (w : s.Canonical) (k : Nat) (bal : Word) (pend : Nat) :
    Memory.num (s.setCounter k bal pend).mem k 8 = bal.toNat ∧ Memory.num (s.setCounter k bal pend).mem (k + 8) 8 = pend % 65536
    ∧ s.SameOutside (s.setCounter k bal pend) k 16 := by
  unfold State.SameOutside
  rw [State.setCounter_mem]
  obtain ⟨h1, h2⟩ := Memory.num_write_pair (m := s.mem) w k bal.toNat (pend % 65536) bal.isLt (by omega)
  exact ⟨h1, h2, fun j hj => Memory.get_write_outside w (by rwa [List.length_append, bytesLE_length, bytesLE_length])⟩

/-- A counter is complete when its record reads as zero. -/
theorem State.counterComplete_eq (s : State) (k : Nat) :
    s.counterComplete k = decide (Memory.num s.mem k 8 = 0 ∧ Memory.num s.mem (k + 8) 8 % 65536 = 0) := by
  have hlt : Memory.num s.mem k 8 < 2 ^ 64 := by
    have h := numLE_lt (Memory.read s.mem k 8)
    rwa [show (Memory.read s.mem k 8).length = 8 by rw [Memory.read_eq_map]; simp] at h
  have hbal : s.counterBal k = 0 ↔ Memory.num s.mem k 8 = 0 := by
    rw [State.counterBal, ← BitVec.toNat_inj, BitVec.toNat_ofNat, Nat.mod_eq_of_lt hlt]
    rfl
  rw [State.counterComplete, Bool.eq_iff_iff, Bool.and_eq_true, beq_iff_eq, beq_iff_eq, hbal, decide_eq_true_eq]
  rfl

/-- A list with one more element. -/
theorem contains_append_one (l : List Nat) (k j : Nat) : (l ++ [k]).contains j = (decide (j = k) || l.contains j) := by
  simp [or_comm]

section
variable (f : Frame) (k : Nat)

theorem Frame.endCounter_init_mem (bal : Word) (pend : Nat) :
    (f.endCounter (.init k bal pend)).s.mem = (f.s.setCounter k bal pend).mem := by
  rw [Frame.endCounter]
  dsimp only
  split <;> rfl

theorem Frame.endCounter_init_c (bal : Word) (pend : Nat) : (f.endCounter (.init k bal pend)).c = f.c := by
  rw [Frame.endCounter]
  dsimp only
  split <;> rfl

theorem Frame.endCounter_init_armed (bal : Word) (pend : Nat) :
    (f.endCounter (.init k bal pend)).t.armed = if f.t.armed.contains k then f.t.armed else f.t.armed ++ [k] := by
  rw [Frame.endCounter]
  dsimp only
  split <;> rfl

/-- What a change of a counter is, as the group's cycle ends. -/
theorem Frame.endCounter_init (w : f.s.Canonical) (bal : Word) (pend : Nat) (hp : pend < 65536) :
    let r := f.endCounter (.init k bal pend)
    Memory.num r.s.mem k 8 = bal.toNat ∧ Memory.num r.s.mem (k + 8) 8 = pend ∧ f.s.SameOutside r.s k 16
    ∧ (∀ j, r.t.armed.contains j = (decide (j = k) || f.t.armed.contains j)) ∧ r.c = f.c := by
  obtain ⟨h1, h2, h3⟩ := State.setCounter_spec w k bal pend
  rw [Nat.mod_eq_of_lt hp] at h2
  unfold State.SameOutside at h3 ⊢
  intro r
  have hmem : r.s.mem = _ := f.endCounter_init_mem k bal pend
  have harmed : r.t.armed = _ := f.endCounter_init_armed k bal pend
  rw [hmem, harmed]
  refine ⟨h1, h2, h3, fun j => ?_, f.endCounter_init_c k bal pend⟩
  split
  next hk =>
    by_cases hj : j = k
    · rw [hj, hk, Bool.or_true]
    · rw [decide_eq_false hj, Bool.false_or]
  next => exact contains_append_one f.t.armed k j

theorem Frame.endCounter_add_eq (by_ : Word) (pend : Bool) : f.endCounter (.add k by_ pend)
    = { f with s := f.s.setCounter k (f.s.counterBal k + by_) (if pend then f.s.counterPend k + 65535 else f.s.counterPend k) } := by
  rw [Frame.endCounter]

theorem State.counterBal_add (s : State) (by_ : Word) :
    (s.counterBal k + by_).toNat = (Memory.num s.mem k 8 + by_.toNat) % 2 ^ 64 := by
  rw [BitVec.toNat_add, State.counterBal, BitVec.toNat_ofNat, Nat.mod_add_mod]

theorem State.counterPend_add (s : State) (pend : Bool) : (if pend then s.counterPend k + 65535 else s.counterPend k) % 65536
    = (Memory.num s.mem (k + 8) 8 + if pend then 65535 else 0) % 65536 := by
  rw [State.counterPend]
  cases pend <;> simp

/-- What is added to a counter goes to its balance, and an arrival lowers what is pending. -/
theorem Frame.endCounter_add (w : f.s.Canonical) (by_ : Word) (pend : Bool) :
    let r := f.endCounter (.add k by_ pend)
    Memory.num r.s.mem k 8 = (Memory.num f.s.mem k 8 + by_.toNat) % 2 ^ 64 ∧ f.s.SameOutside r.s k 16 ∧ r.t = f.t ∧ r.c = f.c
    ∧ Memory.num r.s.mem (k + 8) 8 = (Memory.num f.s.mem (k + 8) 8 + if pend then 65535 else 0) % 65536 := by
  obtain ⟨h1, h2, h3⟩ := State.setCounter_spec w k (f.s.counterBal k + by_)
    (if pend then f.s.counterPend k + 65535 else f.s.counterPend k)
  rw [f.endCounter_add_eq, ← f.s.counterBal_add k by_, ← f.s.counterPend_add k pend]
  exact ⟨h1, h3, rfl, rfl, h2⟩

end

/-- BC_WAIT on a frame. -/
def Frame.bcWaitAct (f : Frame) (h : Slot) (a b : Word) : Except Stop (Frame × Effect) := do
  let k := f.counterKey a.toNat
  let _ ← need (f.armedAt a.toNat) (trapOf .illenc)
  let whole := f.s.counterComplete k
  if bit b 1 then
    let f ← f.reach .queue
    let v := BitVec.ofNat 64 (f.s.counterPend k * 2 ^ 48 + fld (f.s.counterBal k) 0 48)
    let e := Effect.result 6 (pushWord 9 v 0)
    if h.kill then return (f, { e with disarm := if bit b 0 && whole then some k else none })
    else return (if bit b 0 && whole then f.atEnd (.disarm k) else f, e)
  else
    let _ ← need whole (.stall (.counter k) f)
    return (if bit b 0 then f.atEnd (.disarm k) else f, .quiet)

section
variable {f u : Frame} {h : Slot} {a b : Word}

theorem Frame.armedAt_of (ha : a.toNat < 0x200000) (harmed : f.t.armed.contains (Key.pad f.c.id a.toNat) = true) :
    f.armedAt a.toNat = true := by
  rw [Frame.armedAt, decide_eq_true ha, Frame.counterKey, harmed]
  rfl

/-- The word that a test form pushes. -/
def State.counterWord (s : State) (k : Nat) : Word := BitVec.ofNat 64 (s.counterPend k * 2 ^ 48 + fld (s.counterBal k) 0 48)

theorem State.counterWord_toNat (s : State) (k : Nat) :
    (s.counterWord k).toNat = Memory.num s.mem (k + 8) 8 % 65536 * 2 ^ 48 + Memory.num s.mem k 8 % 2 ^ 48 := by
  have hbal : fld (s.counterBal k) 0 48 = Memory.num s.mem k 8 % 2 ^ 48 := by
    rw [fld_zero, State.counterBal, BitVec.toNat_ofNat]
    omega
  rw [State.counterWord, hbal, State.counterPend, BitVec.toNat_ofNat]
  omega

theorem Frame.bcWaitAct_test (ha : a.toNat < 0x200000) (harmed : f.t.armed.contains (Key.pad f.c.id a.toNat) = true)
    (hb : b.getLsbD 1 = true) (htouch : f.touch .queue = .ok u) : f.bcWaitAct h a b
      = if h.kill then .ok (u, { Effect.result 6 ⟨9, (u.s.counterWord (Key.pad f.c.id a.toNat)).setWidth 2048, 0⟩ with
            disarm := if b.getLsbD 0 && f.s.counterComplete (Key.pad f.c.id a.toNat) then some (Key.pad f.c.id a.toNat) else none })
        else .ok (if b.getLsbD 0 && f.s.counterComplete (Key.pad f.c.id a.toNat)
          then u.atEnd (.disarm (Key.pad f.c.id a.toNat)) else u,
          Effect.result 6 ⟨9, (u.s.counterWord (Key.pad f.c.id a.toNat)).setWidth 2048, 0⟩) := by
  rw [Frame.bcWaitAct]
  dsimp only
  rw [need_true_bind (Frame.armedAt_of ha harmed), if_pos hb, Frame.reach_of_touch htouch, except_ok_bind]
  split <;> rfl

theorem Frame.bcWaitAct_wait (ha : a.toNat < 0x200000) (harmed : f.t.armed.contains (Key.pad f.c.id a.toNat) = true)
    (hb : b.getLsbD 1 = false) (hwhole : f.s.counterComplete (Key.pad f.c.id a.toNat) = true) : f.bcWaitAct h a b
      = .ok (if b.getLsbD 0 then f.atEnd (.disarm (Key.pad f.c.id a.toNat)) else f, .quiet) := by
  have hnot : ¬bit b 1 = true := by rw [bit, hb]; simp
  rw [Frame.bcWaitAct]
  dsimp only
  rw [need_true_bind (Frame.armedAt_of ha harmed), if_neg hnot]
  exact need_true_bind hwhole

/-- BC_INIT on a frame. -/
def Frame.bcInitAct (f : Frame) (a b c : Word) : Except Stop Frame := do
  let at_ := a.toNat
  let _ ← need (at_ % 16 == 0 && at_ < 0x200000) (trapAt .align 0 at_)
  let _ ← need (!f.engineHolds (at_ / 4096)) (trapAt .ownf 0 at_)
  let k := f.counterKey at_
  let _ ← need ((f.armedAfter.contains k || f.armedAfter.length < 64) && fld c 16 48 == 0) (trapOf .illenc)
  let f ← f.reach (blockUnit at_)
  let f ← f.access [(k, 16)] true
  return f.atEnd (.init k b (fld c 0 16))

theorem Frame.bcInitAct_of {v : Frame} {c : Word} (hc : c.toNat < 65536)
    (harmed : f.armedAfter.contains (Key.pad f.c.id a.toNat) = true ∨ f.armedAfter.length < 64) (halign : a.toNat % 16 = 0)
    (hpad : a.toNat < 0x200000) (hheld : f.engineHolds (a.toNat / 4096) = false) (htouch : f.touch (blockUnit a.toNat) = .ok u)
    (haccess : u.Accesses [(Key.pad f.c.id a.toNat, 16)] true v) :
    f.bcInitAct a b c = .ok (v.atEnd (.init (Key.pad f.c.id a.toNat) b c.toNat)) := by
  have h1 : fld c 16 48 = 0 := by rw [fld_top _ rfl]; omega
  have h2 : fld c 0 16 = c.toNat := by rw [fld_zero]; omega
  have hroom : ((f.armedAfter.contains (f.counterKey a.toNat) || decide (f.armedAfter.length < 64)) && fld c 16 48 == 0) = true := by
    rw [h1, Frame.counterKey]
    simpa using harmed
  rw [Frame.bcInitAct]
  dsimp only
  rw [need_true_bind (by simpa using ⟨halign, hpad⟩), need_true_bind (by simpa using hheld), need_true_bind hroom,
    Frame.reach_of_touch htouch, except_ok_bind, Frame.counterKey, Frame.access_of haccess, except_ok_bind, h2]
  rfl

end

/-- Delivery, touches and noted accesses keep registers and memory. -/
theorem Frame.noted_same {h : Slot} {s : State} {f g : Frame} {k : Fetch} (hr : s.Runs h f) (hd : f.Delivered k.f)
    {u : UnitName} (hn : (k.ready u).Noted g) : f.SameRegisters g ∧ f.SameSpecials g ∧ s.SameMemory g.s := by
  obtain ⟨h1, h2, -⟩ := Fetch.ready_registers hd u
  refine ⟨h1.trans hn.registers, h2.trans hn.specials, fun j => ?_⟩
  rw [hn.mem, Fetch.ready_mem hd, hr.mem]

section
variable {h : Slot} {a : Src} {s : State} {f : Frame} {x : Args} {k : Fetch} {held : Bool}

/-- A wait for tags whose condition holds, at the group's start or now. -/
theorem tagWait_leaves {any : Bool} {cond : Word → Word → Word → Bool} (hr : s.Runs h f)
    (ht : f.Takes (copyTrig f.unit a false false false none) x k held)
    (hgo : (cond (k.ready f.unit).t.snap.tags (k.ready f.unit).t.snap.tagbz x.a.value.low
      || cond (k.ready f.unit).t.tags (k.ready f.unit).t.tagbz x.a.value.low) = true) : tagWait any cond h a s
      = .next ((k.ready f.unit).leaves h (copyTrig f.unit a false false false none) k x held .quiet) :=
  copyOp_leaves (act := fun f a _ _ _ => do
    let _ ← need (cond f.t.snap.tags f.t.snap.tagbz a || cond f.t.tags f.t.tagbz a) (.stall (.tags a any) f)
    return (f, .quiet)) hr ht (need_true_bind hgo) rfl

/-- A change of an armed counter. -/
theorem counterOp_leaves {pend : Bool} {sign : Word → Word} (hr : s.Runs h f)
    (ht : f.Takes (copyTrig f.unit a true false false none) x k held) (hspec : (k.ready f.unit).Agreed)
    (harm : (k.ready f.unit).armedAt x.a.value.low.toNat = true)
    (hpend : pend = true → (k.ready f.unit).s.counterPend ((k.ready f.unit).counterKey x.a.value.low.toNat) ≠ 0) :
    counterOp pend sign h a s = .next (((k.ready f.unit).atEnd (.add ((k.ready f.unit).counterKey x.a.value.low.toNat)
      (sign x.b.value.low) pend)).leaves h (copyTrig f.unit a true false false none) k x held .quiet) := by
  refine settledOp_leaves (act := fun f a b _ _ => do
    let k := f.counterKey a.toNat
    let _ ← need (f.armedAt a.toNat && (!pend || f.s.counterPend k != 0)) (trapOf .illenc)
    return f.atEnd (.add k (sign b) pend)) hr ht hspec (need_true_bind ?_) rfl
  rw [Bool.and_eq_true]
  refine ⟨harm, ?_⟩
  cases pend with
  | false => rfl
  | true => simpa using hpend rfl

/-- BC_WAIT, whatever its form. -/
theorem bcWait_leaves {r : Frame} {e : Effect} (hr : s.Runs h f) (ht : f.Takes (f.bcWaitTrig a) x k held)
    (hact : (k.ready f.unit).bcWaitAct h x.a.value.low x.b.value.low = .ok (r, e)) (hlate : r.c.seq.late = []) :
    exec (.bcWait h a) s = .next (r.leaves h (f.bcWaitTrig a) k x held e) := by
  have he : exec (.bcWait h a) s = runSlot h (fun f0 => trigger h (f0.bcWaitTrig a)
    (direct fun f a b _ _ => f.bcWaitAct h a.low b.low) f0) s := rfl
  exact he.trans (runSlot_trigger_of_takes (g := fun f => f.bcWaitTrig a) hr ht hact hlate)

end

/-- CLRTAG clears the tags of its mask and their statuses. -/
theorem clrtag_leaves {h : Slot} {a : Src} {s : State} {f : Frame} {x : Args} {k : Fetch} {held : Bool} (hr : s.Runs h f)
    (ht : f.Takes (copyTrig f.unit a false false false none) x k held) (hspec : (k.ready f.unit).Agreed) :
    ∃ stats : Vector Byte 64, execClrtag h a s = .next (Frame.leaves { k.ready f.unit with t := { (k.ready f.unit).t with
        tags := (k.ready f.unit).t.tags &&& ~~~x.a.value.low, stats := stats } } h (copyTrig f.unit a false false false none) k x held .quiet)
      ∧ ∀ i : Fin 64, stats[i] = if (k.ready f.unit).t.tags.getLsbD i && x.a.value.low.getLsbD i then 0 else (k.ready f.unit).t.stats[i] := by
  generalize hg : k.ready f.unit = g
  refine ⟨g.t.stats.mapFinIdx fun i y _ => if bit (g.t.tags &&& x.a.value.low) i then 0 else y,
    hg ▸ settledOp_leaves hr ht hspec rfl rfl, fun i => ?_⟩
  rw [Fin.getElem_fin, Vector.getElem_mapFinIdx, bit, BitVec.getLsbD_and]
  rfl

section
variable {h : Slot} {a : Src} {s : State} {f u : Frame} {x : Args} {k : Fetch} {held : Bool} {key : Nat} {whole : Bool}

/-- A test form of BC_WAIT that no transfer kills. -/
theorem bcWait_tests (hr : s.Runs h f) (ht : f.Takes (f.bcWaitTrig a) x k held) (hpad : x.a.value.low.toNat < 0x200000)
    (harmed : (k.ready f.unit).t.armed.contains (Key.pad (k.ready f.unit).c.id x.a.value.low.toNat) = true)
    (hb : x.b.value.low.getLsbD 1 = true) (htouch : (k.ready f.unit).touch .queue = .ok u)
    (hkey : Key.pad (k.ready f.unit).c.id x.a.value.low.toNat = key) (hwhole : (k.ready f.unit).s.counterComplete key = whole) :
    (h.kill = false → execBcWait h a s = .next (Frame.leaves
      (if x.b.value.low.getLsbD 0 && whole then { u with c := { u.c with seq := { u.c.seq with ends := u.c.seq.ends ++ [.disarm key] } } }
        else u) h (f.bcWaitTrig a) k x held (.result 6 ⟨9, (u.s.counterWord key).setWidth 2048, 0⟩)))
    ∧ (h.kill = true → execBcWait h a s = .next (u.leaves h (f.bcWaitTrig a) k x held
      { Effect.result 6 ⟨9, (u.s.counterWord key).setWidth 2048, 0⟩ with
        disarm := if x.b.value.low.getLsbD 0 && whole then some key else none })) := by
  have hact := Frame.bcWaitAct_test (h := h) (b := x.b.value.low) hpad harmed hb htouch
  have hlate : u.c.seq.late = [] := (Frame.touch_noted htouch).late.trans (ht.ready_late _)
  rw [hkey, hwhole] at hact
  refine ⟨fun hkill => ?_, fun hkill => ?_⟩
  · rw [hkill, if_neg (by simp)] at hact
    refine bcWait_leaves hr ht hact ?_
    split <;> exact hlate
  · rw [hkill, if_pos rfl] at hact
    exact bcWait_leaves hr ht hact hlate

end

/-- Settles O42: the tag operations, what the counter operations ask for, and what takes effect at the cycle's end. -/
theorem tagsAndCounters : Obligations.TagsAndCounters := by
  refine ⟨?_, ?_, ?_, ?_, ?_⟩
  · intro h a s f x k held hr _ g A was quiet find
    refine ⟨fun ht => ⟨fun hc => ?_, fun hc => ?_, fun hspec => ?_⟩, fun ht => ?_⟩
    · have e : exec (.waitany h a) s = execWaitany h a s := rfl
      have hgo : ((was.tags &&& A != 0 || was.tagbz &&& A == 0) || (g.t.tags &&& A != 0 || g.t.tagbz &&& A == 0)) = true := by
        simp only [Bool.or_eq_true, bne_iff_ne, beq_iff_eq]
        tauto
      exact e.trans (tagWait_leaves hr ht hgo)
    · have e : exec (.waitall h a) s = execWaitall h a s := rfl
      have hgo : (was.tagbz &&& A == 0 || g.t.tagbz &&& A == 0) = true := by
        simp only [Bool.or_eq_true, beq_iff_eq]
        tauto
      exact e.trans (tagWait_leaves hr ht hgo)
    · have e : exec (.clrtag h a) s = execClrtag h a s := rfl
      obtain ⟨stats, hx, hstats⟩ := clrtag_leaves hr ht hspec
      exact ⟨_, e.trans hx, rfl, hstats⟩
    · have e : exec (.ffr h a) s = execFfr h a s := rfl
      exact ⟨ffrValue was.tags A was.stats, e.trans (copyOp_leaves (r := g) hr ht rfl rfl), ffrValue_none,
        fun i hi hmin => ffrValue_of hi hmin⟩
  · intro h a s f u v x k held hr _ g A B C key num three two asks same wait
    refine ⟨fun ht hspec hc harmed halign hpad hheld htouch haccess => ?_, fun ht hpad harmed hspec => ?_,
      fun ht hpad harmed => ?_⟩
    · have e : exec (.bcInit h a) s = settledOp true true false h a (fun f a b c _ => f.bcInitAct a b c) s := rfl
      have hn : g.Noted v := (Frame.touch_noted htouch).trans haccess.noted
      exact ⟨e.trans (settledOp_leaves (r := asks v (.init key B C.toNat)) hr ht hspec
        (Frame.bcInitAct_of hc harmed halign hpad hheld htouch haccess) hn.late), Frame.noted_same hr ht.ready_delivered hn⟩
    · have harm : g.armedAt A = true := Frame.armedAt_of hpad harmed
      have e1 : exec (.arriveExp h a) s = execArriveExp h a s := rfl
      have e2 : exec (.bcSub h a) s = execBcSub h a s := rfl
      exact ⟨fun hpend => e1.trans (counterOp_leaves (sign := id) hr ht hspec harm fun _ => hpend),
        e2.trans (counterOp_leaves (sign := (- ·)) hr ht hspec harm fun h => absurd h (by simp)),
        Frame.noted_same hr ht.ready_delivered (.refl g)⟩
    · intro whole
      have hwhole : g.s.counterComplete key = whole := g.s.counterComplete_eq key
      have e : exec (.bcWait h a) s = execBcWait h a s := rfl
      refine ⟨fun hb htouch => ⟨u.s.counterWord key, ?_, ?_, ?_, ?_⟩, fun hb hw => ⟨?_, ?_⟩⟩
      · exact fun hkill => e.trans ((bcWait_tests hr ht hpad harmed hb htouch rfl hwhole).1 hkill)
      · exact fun hkill => e.trans ((bcWait_tests hr ht hpad harmed hb htouch rfl hwhole).2 hkill)
      · rw [State.counterWord_toNat, (Frame.touch_noted htouch).mem]
      · exact Frame.noted_same hr ht.ready_delivered (Frame.touch_noted htouch)
      · have hact := Frame.bcWaitAct_wait (h := h) (b := B) hpad harmed hb (hwhole.trans hw)
        refine bcWait_leaves hr ht hact ?_
        split <;> exact ht.ready_late _
      · exact Frame.noted_same hr ht.ready_delivered (.refl g)
  · intro f k w num
    refine ⟨fun bal pend hp => f.endCounter_init k w bal pend hp, fun by_ pend => f.endCounter_add k w by_ pend, rfl,
      fun j => rfl, fun y hy => ?_⟩
    obtain ⟨hin, hne⟩ := List.mem_filter.1 hy
    exact ⟨hin, by simpa using hne⟩
  · intro f
    unfold Frame.endGroup Frame.endWrites Frame.endCounters State.standClaims
    exact ⟨rfl, rfl, fun _ => rfl, rfl⟩
  · intro u l id e hu v t c ht hc
    have hend : u.endLates = v.endCounter id e := State.endLates_append hu
    rw [hend, State.endCounter, ht, hc]

end Sys2Proof.Machine
end

section
/-! PROOF. Issue of tag commands (R231 to R247, R261). -/

namespace Sys2Proof.Machine

/-- The tag that the low bits of a word name, alone. -/
theorem oneTag_getLsbD (tag : Nat) (i : Fin 64) : ((1 : Word) <<< tag).getLsbD i = decide (i.val = tag) := by
  rw [BitVec.getLsbD_shiftLeft, decide_eq_true i.isLt, Bool.true_and]
  by_cases h : i.val < tag
  · simp [h, Nat.ne_of_lt h]
  · have e : (1 : Word).getLsbD (i.val - tag) = decide (i.val - tag = 0) := by
      rw [show (1 : Word) = 1#64 from rfl, BitVec.getLsbD_one]
      simp
    rw [e, decide_eq_false h, Bool.not_false, Bool.true_and]
    exact decide_eq_decide.2 (by omega)

/-- The frame that a tag command leaves at its issue, its blocks at hand. -/
def Frame.withTag (f : Frame) (tag : Nat) (blocks : List Nat) (now : Bool) (kind : CmdKind) : Frame :=
  let m := (1 : Word) <<< tag
  { f with
    s := { f.s with
      claims := f.s.claims ++ [⟨f.c.id, .cmd f.s.nextId, blocks, false, f.c.nextRid⟩]
      nextId := f.s.nextId + 1
      cmds := f.s.cmds ++ [⟨f.s.nextId, f.t.sid, f.c.id, f.t.ptn, decide (f.unit = .cb), tag, kind, now, f.s.cycle, 0, 0, false,
        none, [], []⟩] }
    t := { f.t with
      tags := f.t.tags &&& ~~~m
      tagbz := f.t.tagbz ||| m
      stats := vset f.t.stats tag 0
      detach := match kind with
        | .copy _ _ true => f.t.detach ||| m
        | _ => f.t.detach &&& ~~~m } }

theorem Frame.withTag_issued (f : Frame) {tag : Nat} (ht : tag < 64) (blocks : List Nat) (now : Bool) (kind : CmdKind) :
    f.TagIssued (f.withTag tag blocks now kind) tag blocks now kind := by
  have hm := oneTag_getLsbD tag
  refine ⟨rfl, fun i => ⟨?_, ?_, ?_⟩, fun i => ?_⟩
  · change (f.t.tags &&& ~~~((1 : Word) <<< tag)).getLsbD i = _
    rw [BitVec.getLsbD_and, BitVec.getLsbD_not, hm, decide_eq_true i.isLt, Bool.true_and, Bool.and_comm, decide_not]
  · change (f.t.tagbz ||| (1 : Word) <<< tag).getLsbD i = _
    rw [BitVec.getLsbD_or, hm, Bool.or_comm]
  · have e : vset f.t.stats tag 0 = f.t.stats.set tag 0 ht := vset_eq_set f.t.stats ⟨tag, ht⟩ 0
    change (vset f.t.stats tag 0)[i.val] = _
    rw [e, Vector.getElem_set]
    by_cases h : tag = i.val
    · rw [if_pos h, if_pos h.symm]
    · rw [if_neg h, if_neg (Ne.symm h)]
      rfl
  · change (match kind with
      | .copy _ _ true => f.t.detach ||| (1 : Word) <<< tag
      | _ => f.t.detach &&& ~~~((1 : Word) <<< tag)).getLsbD i = _
    have hset : (f.t.detach ||| (1 : Word) <<< tag).getLsbD i = if i.val = tag then true else f.t.detach.getLsbD i := by
      rw [BitVec.getLsbD_or, hm]
      by_cases h : i.val = tag <;> simp [h]
    have hclear : (f.t.detach &&& ~~~((1 : Word) <<< tag)).getLsbD i = if i.val = tag then false else f.t.detach.getLsbD i := by
      rw [BitVec.getLsbD_and, BitVec.getLsbD_not, hm, decide_eq_true i.isLt]
      by_cases h : i.val = tag <;> simp [h]
    cases kind
    case copy d w detached =>
      cases detached
      · exact hclear
      · exact hset
    all_goals exact hclear

/-- A tag command whose tag is not busy is issued, on the frame whose blocks are at hand (R231). -/
theorem Frame.issueTag_of {f u : Frame} {tag : Nat} {blocks : List Nat} {now : Bool} {kind : CmdKind}
    (htag : f.t.tagbz.getLsbD tag = false) (hnow : f.entryPlace = .ok now) (hblocks : f.BlocksReady blocks u) :
    f.issueTag tag blocks kind = .ok (u.withTag tag blocks now kind) := by
  rw [Frame.issueTag, need_true_bind (by rw [bit, htag]; rfl), hnow, except_ok_bind, Frame.reachAll_of_touchAll hblocks, except_ok_bind]
  rfl

/-- A settled operation that issues a tag command on a frame whose blocks are at hand. -/
theorem settledOp_issues {b c d : Bool} {h : Slot} {a : Src} {s : State} {f u : Frame} {x : Args} {k : Fetch} {held now : Bool}
    {act : Frame → Word → Word → Word → Word → Except Stop Frame} {blocks : List Nat} {kind : CmdKind}
    (hr : s.Runs h f) (ht : f.Takes (copyTrig f.unit a b c d none) x k held) (hspec : (k.ready f.unit).Agreed)
    (hact : act (k.ready f.unit) x.a.value.low x.b.value.low x.c.value.low x.d.value.low
      = .ok (u.withTag (x.a.value.low.toNat % 64) blocks now kind))
    (hlate : u.c.seq.late = []) : ∃ r : Frame, settledOp b c d h a act s
        = .next (r.leaves h (copyTrig f.unit a b c d none) k x held .quiet)
      ∧ u.TagIssued r (x.a.value.low.toNat % 64) blocks now kind :=
  ⟨_, settledOp_leaves hr ht hspec hact (hlate.trans (ht.ready_late _).symm), u.withTag_issued (Nat.mod_lt _ (by decide)) blocks now kind⟩

/-- No block of a range is owned. -/
theorem Frame.needUnowned_of {f : Frame} {a n : Nat} (h : ∀ b ∈ blocksOf a n, f.ownerBit b = false) : f.needUnowned a n = .ok () := by
  have e : (blocksOf a n).find? f.ownerBit = none := List.find?_eq_none.2 fun b hb => by simp [h b hb]
  rw [Frame.needUnowned, Frame.ownedIn, e]
  rfl

section
variable {h : Slot} {a : Src} {s : State} {f : Frame} {x : Args} {k : Fetch} {held now : Bool}

/-- A descriptor operation issues its copy (R242 to R244). -/
theorem descOp_issues {use : DescUse} {walk : Walk} {w u v : Frame} {d : CopyDesc}
    (hr : s.Runs h f) (ht : f.Takes (copyTrig f.unit a true false false none) x k held) (hspec : (k.ready f.unit).Agreed)
    (hdesc : (k.ready f.unit).checkDesc use x.a.value.low x.b.value.low = .ok (d, w)) (hlate : w.c.seq.late = [])
    (htag : w.t.tagbz.getLsbD (x.a.value.low.toNat % 64) = false)
    (hacs : w.touchAll ((if !(d.sideBanks d.ssp d.saddr d.sstr ++ d.sideBanks d.dsp d.daddr d.dstr).isEmpty && w.mxeBusy
      then [.mxe] else []) ++ (d.sideBanks d.ssp d.saddr d.sstr ++ d.sideBanks d.dsp d.daddr d.dstr)) = .ok u)
    (hnow : u.entryPlace = .ok now)
    (hblocks : u.BlocksReady (d.sideBlocks d.ssp d.saddr d.sstr ++ d.sideBlocks d.dsp d.daddr d.dstr
        ++ (if use = .gather ∨ use = .scatter then blocksOf d.idx d.listBytes else [])).eraseDups v) :
    ∃ r : Frame, descOp use walk h a s = .next (r.leaves h (copyTrig f.unit a true false false none) k x held .quiet)
      ∧ v.TagIssued r (x.a.value.low.toNat % 64) (d.sideBlocks d.ssp d.saddr d.sstr ++ d.sideBlocks d.dsp d.daddr d.dstr
        ++ (if use = .gather ∨ use = .scatter then blocksOf d.idx d.listBytes else [])).eraseDups now
        (.copy d walk (decide (use = .detached))) := by
  have hu := Frame.touchAll_noted hacs
  have hindexed : (use == .gather || use == .scatter) = decide (use = .gather ∨ use = .scatter) := by cases use <;> rfl
  have hdetached : (use == .detached) = decide (use = .detached) := by cases use <;> rfl
  have hf : fld x.a.value.low 0 6 = x.a.value.low.toNat % 64 := fld_zero _ _
  refine settledOp_issues hr ht hspec ?_ ((Frame.touchAll_noted hblocks).late.trans (hu.late.trans hlate))
  dsimp only
  rw [except_bind_of hdesc]
  dsimp only
  rw [hf, need_true_bind (by rw [bit, htag]; rfl), Frame.reachAll_of_touchAll hacs, except_ok_bind, hindexed, hdetached]
  simp only [decide_eq_true_eq]
  exact Frame.issueTag_of (by rw [hu.2.1]; exact htag) hnow hblocks

/-- A global atomic issues its command (R245). -/
theorem globalAtomic_issues {o : AtomicOp} {u : Frame} (hr : s.Runs h f)
    (ht : f.Takes (copyTrig f.unit a true true (atomicCompares o) none) x k held) (hspec : (k.ready f.unit).Agreed)
    (htag : (k.ready f.unit).t.tagbz.getLsbD (x.a.value.low.toNat % 64) = false) (hnow : (k.ready f.unit).entryPlace = .ok now)
    (h53 : x.a.value.low.toNat / 2 ^ 53 = 0) (h8 : x.a.value.low.toNat / 2 ^ 8 % 2 ^ 24 = 0)
    (halign : x.b.value.low.toNat % (if x.a.value.low.getLsbD 6 then 4 else 8) = 0)
    (hres : x.a.value.low.getLsbD 7 = false → x.a.value.low.toNat / 2 ^ 32 % 2 ^ 21 % 8 = 0
      ∧ ∀ b ∈ blocksOf (x.a.value.low.toNat / 2 ^ 32 % 2 ^ 21) 8, (k.ready f.unit).ownerBit b = false)
    (hblocks : (k.ready f.unit).BlocksReady (if x.a.value.low.getLsbD 7 then [] else blocksOf (x.a.value.low.toNat / 2 ^ 32 % 2 ^ 21) 8) u) :
    ∃ r : Frame, globalAtomic o h a s = .next (r.leaves h (copyTrig f.unit a true true (atomicCompares o) none) k x held .quiet)
      ∧ u.TagIssued r (x.a.value.low.toNat % 64)
        (if x.a.value.low.getLsbD 7 then [] else blocksOf (x.a.value.low.toNat / 2 ^ 32 % 2 ^ 21) 8) now
        (.atomic o (x.a.value.low.getLsbD 6) x.b.value.low.toNat
          (if x.a.value.low.getLsbD 7 then none else some (x.a.value.low.toNat / 2 ^ 32 % 2 ^ 21)) x.c.value.low x.d.value.low) := by
  have e6 : fld x.a.value.low 0 6 = x.a.value.low.toNat % 64 := fld_zero _ _
  have e32 : fld x.a.value.low 32 21 = x.a.value.low.toNat / 2 ^ 32 % 2 ^ 21 := fld_eq ..
  have e53 : fld x.a.value.low 53 11 = 0 := (fld_top _ rfl).trans h53
  have e8 : fld x.a.value.low 8 24 = 0 := (fld_eq ..).trans h8
  refine settledOp_issues hr ht hspec ?_ ((Frame.touchAll_noted hblocks).late.trans (ht.ready_late _))
  dsimp only
  rw [e6, e32, e53, e8, need_true_bind (by rfl), bit, bit, need_true_bind (by simpa using halign)]
  by_cases h7 : x.a.value.low.getLsbD 7 = true
  · rw [if_pos h7] at hblocks
    simp only [h7, Bool.true_or, if_true]
    rw [need_true_bind (by rfl), except_ok_bind]
    exact Frame.issueTag_of htag hnow hblocks
  · rw [Bool.not_eq_true] at h7
    obtain ⟨hmod, hown⟩ := hres h7
    rw [h7, if_neg Bool.false_ne_true] at hblocks
    simp only [h7, Bool.false_or, Bool.false_eq_true, if_false]
    rw [need_true_bind (by simpa using hmod), Frame.needUnowned_of hown, except_ok_bind]
    exact Frame.issueTag_of htag hnow hblocks

/-- A multicast store issues its command (R246). -/
theorem mcst_issues {u : Frame} (hr : s.Runs h f) (ht : f.Takes (copyTrig f.unit a true true true none) x k held)
    (hspec : (k.ready f.unit).Agreed) (htag : (k.ready f.unit).t.tagbz.getLsbD (x.a.value.low.toNat % 64) = false)
    (hnow : (k.ready f.unit).entryPlace = .ok now) (hA : x.a.value.low.toNat / 64 = 0)
    (hC : x.c.value.low.toNat / 2 ^ 12 % 2 ^ 20 = 0) (hC' : x.c.value.low.toNat / 2 ^ 53 = 0) (hline : x.b.value.low.toNat % 256 = 0)
    (hline' : x.b.value.low.toNat < 0x200000) (hrec : x.c.value.low.toNat / 2 ^ 32 % 2 ^ 21 % 16 = 0)
    (hrec' : x.c.value.low.toNat / 2 ^ 32 % 2 ^ 21 + 80 ≤ 0x200000) (hD : x.d.value.low.toNat % 256 = 0)
    (hD' : x.d.value.low.toNat < 2 ^ 57) (hown : ∀ b ∈ blocksOf x.b.value.low.toNat 256, (k.ready f.unit).ownerBit b = false)
    (hown' : ∀ b ∈ blocksOf (x.c.value.low.toNat / 2 ^ 32 % 2 ^ 21) 80, (k.ready f.unit).ownerBit b = false)
    (hblocks : (k.ready f.unit).BlocksReady
      (blocksOf x.b.value.low.toNat 256 ++ blocksOf (x.c.value.low.toNat / 2 ^ 32 % 2 ^ 21) 80).eraseDups u) :
    ∃ r : Frame, execMcst h a s = .next (r.leaves h (copyTrig f.unit a true true true none) k x held .quiet)
      ∧ u.TagIssued r (x.a.value.low.toNat % 64)
        (blocksOf x.b.value.low.toNat 256 ++ blocksOf (x.c.value.low.toNat / 2 ^ 32 % 2 ^ 21) 80).eraseDups now
        (.mcst x.b.value.low.toNat (x.c.value.low.toNat % 4096) (x.c.value.low.toNat / 2 ^ 32 % 2 ^ 21) x.d.value.low.toNat) := by
  have e6 : fld x.a.value.low 0 6 = x.a.value.low.toNat % 64 := fld_zero _ _
  have e58 : fld x.a.value.low 6 58 = 0 := (fld_top _ rfl).trans hA
  have e12 : fld x.c.value.low 12 20 = 0 := (fld_eq ..).trans hC
  have e53 : fld x.c.value.low 53 11 = 0 := (fld_top _ rfl).trans hC'
  have e0 : fld x.c.value.low 0 12 = x.c.value.low.toNat % 4096 := fld_zero _ _
  have e32 : fld x.c.value.low 32 21 = x.c.value.low.toNat / 2 ^ 32 % 2 ^ 21 := fld_eq ..
  refine settledOp_issues hr ht hspec ?_ ((Frame.touchAll_noted hblocks).late.trans (ht.ready_late _))
  dsimp only
  rw [e6, e58, e12, e53, e0, e32, need_true_bind (by rfl), need_true_bind (by simp [hline, hline']),
    need_true_bind (by simp only [hrec, decide_eq_true hrec']; rfl), need_true_bind (by simp only [hD, decide_eq_true hD']; rfl),
    Frame.needUnowned_of hown, except_ok_bind, Frame.needUnowned_of hown', except_ok_bind]
  exact Frame.issueTag_of htag hnow hblocks

/-- A command that claims no block issues. -/
theorem issueTag_none {g : Frame} {tag : Nat} {kind : CmdKind} (htag : g.t.tagbz.getLsbD tag = false) (hnow : g.entryPlace = .ok now) :
    g.issueTag tag [] kind = .ok (g.withTag tag [] now kind) := Frame.issueTag_of htag hnow rfl

/-- A range operation issues its command (R247). -/
theorem rangeOp_issues (o : RangeOp) (hr : s.Runs h f) (ht : f.Takes (copyTrig f.unit a true true true none) x k held)
    (hspec : (k.ready f.unit).Agreed) (htag : (k.ready f.unit).t.tagbz.getLsbD (x.a.value.low.toNat % 64) = false)
    (hnow : (k.ready f.unit).entryPlace = .ok now) (hA : x.a.value.low.toNat / 64 = 0)
    (hD : x.d.value.low = 1 ∨ x.d.value.low = 2) (hC : 1 ≤ x.c.value.low.toNat) (hC' : x.c.value.low.toNat ≤ 2 ^ 40) :
    ∃ r : Frame, rangeOp o h a s = .next (r.leaves h (copyTrig f.unit a true true true none) k x held .quiet)
      ∧ (k.ready f.unit).TagIssued r (x.a.value.low.toNat % 64) [] now
        (.range o x.b.value.low.toNat x.c.value.low.toNat x.d.value.low.toNat) := by
  have e6 : fld x.a.value.low 0 6 = x.a.value.low.toNat % 64 := fld_zero _ _
  have e58 : fld x.a.value.low 6 58 = 0 := (fld_top _ rfl).trans hA
  have ed : fld x.d.value.low 2 62 = 0 ∧ (fld x.d.value.low 0 2 == 1 || fld x.d.value.low 0 2 == 2) = true
      ∧ fld x.d.value.low 0 2 = x.d.value.low.toNat := by
    rcases hD with hD | hD <;> rw [hD] <;> decide
  obtain ⟨ehigh, ekind, elow⟩ := ed
  refine settledOp_issues hr ht hspec ?_ (ht.ready_late _)
  rw [need_true_bind (by rw [e58, ehigh, ekind, decide_eq_true hC, decide_eq_true hC']; rfl), e6, elow]
  exact issueTag_none htag hnow

/-- CAT.ARM issues its command (R261). -/
theorem catArm_issues (hr : s.Runs h f) (ht : f.Takes (copyTrig f.unit a true true false none) x k held)
    (hspec : (k.ready f.unit).Agreed) (htag : (k.ready f.unit).t.tagbz.getLsbD (x.a.value.low.toNat % 64) = false)
    (hnow : (k.ready f.unit).entryPlace = .ok now) (hA : x.a.value.low.toNat / 2 ^ 18 = 0) (hB : x.b.value.low.toNat % 64 = 0) :
    ∃ r : Frame, execCatArm h a s = .next (r.leaves h (copyTrig f.unit a true true false none) k x held .quiet)
      ∧ (k.ready f.unit).TagIssued r (x.a.value.low.toNat % 64) [] now
        (.catArm (x.a.value.low.toNat / 64 % 4096) x.b.value.low.toNat (x.c.value.low.toNat % 2 ^ 32)) := by
  have e6 : fld x.a.value.low 0 6 = x.a.value.low.toNat % 64 := fld_zero _ _
  have e18 : fld x.a.value.low 18 46 = 0 := (fld_top _ rfl).trans hA
  have e12 : fld x.a.value.low 6 12 = x.a.value.low.toNat / 64 % 4096 := fld_eq ..
  have e32 : fld x.c.value.low 0 32 = x.c.value.low.toNat % 2 ^ 32 := fld_zero _ _
  refine settledOp_issues hr ht hspec ?_ (ht.ready_late _)
  rw [e6, e18, e12, e32, need_true_bind (by rfl), need_true_bind (by simpa using hB)]
  exact issueTag_none htag hnow

/-- CAT.DISARM issues its command (R261). -/
theorem catDisarm_issues (hr : s.Runs h f) (ht : f.Takes (copyTrig f.unit a false false false none) x k held)
    (hspec : (k.ready f.unit).Agreed) (htag : (k.ready f.unit).t.tagbz.getLsbD (x.a.value.low.toNat % 64) = false)
    (hnow : (k.ready f.unit).entryPlace = .ok now) (hA : x.a.value.low.toNat / 2 ^ 18 = 0) :
    ∃ r : Frame, execCatDisarm h a s = .next (r.leaves h (copyTrig f.unit a false false false none) k x held .quiet)
      ∧ (k.ready f.unit).TagIssued r (x.a.value.low.toNat % 64) [] now (.catDisarm (x.a.value.low.toNat / 64 % 4096)) := by
  have e6 : fld x.a.value.low 0 6 = x.a.value.low.toNat % 64 := fld_zero _ _
  have e18 : fld x.a.value.low 18 46 = 0 := (fld_top _ rfl).trans hA
  have e12 : fld x.a.value.low 6 12 = x.a.value.low.toNat / 64 % 4096 := fld_eq ..
  refine settledOp_issues hr ht hspec ?_ (ht.ready_late _)
  rw [e6, e18, e12, need_true_bind (by rfl)]
  exact issueTag_none htag hnow

end

/-- Settles O41: each command passes its checks and enters with its blocks claimed. -/
theorem tagCommandsIssue : Obligations.TagCommandsIssue := by
  refine ⟨?_, ?_⟩
  · intro q hq h a s f w u v x k held now d trig hr ht _ g tag hspec hdesc hlate htag acs blocks hacs hnow hblocks
    have main := descOp_issues (walk := q.2.1) hr ht hspec hdesc hlate htag hacs hnow hblocks
    have e : exec (q.2.2 h a) s = descOp q.1 q.2.1 h a s := by
      simp only [descForms, List.mem_cons, List.not_mem_nil, or_false] at hq
      rcases hq with rfl | rfl | rfl | rfl | rfl | rfl <;> rfl
    obtain ⟨r, hx, hi⟩ := main
    exact ⟨r, e.trans hx, hi⟩
  · intro h a s f u x k held now hr _ g A B C D tag unowned hspec htag hnow
    refine ⟨?_, ?_, ?_, ?_, ?_⟩
    · intro o trig nr narrow res blocks ht h53 h8 halign hres hblocks
      have ec : atomicCompares o = decide (o = .cas) := by cases o <;> rfl
      have e : exec (globalAtomicInstr h a o) s = globalAtomic o h a s := by cases o <;> rfl
      obtain ⟨r, hx, hi⟩ := globalAtomic_issues (o := o) hr (by rw [ec]; exact ht) hspec htag hnow h53 h8 halign hres hblocks
      exact ⟨r, e.trans (by rw [hx, ec]), hi⟩
    · intro trig rec_ blocks ht hA hC hC' hB hB' hrec hrec' hD hD' hown hown' hblocks
      have e : exec (.mcst h a) s = execMcst h a s := rfl
      rw [e]
      exact mcst_issues hr ht hspec htag hnow hA hC hC' hB hB' hrec hrec' hD hD' hown hown' hblocks
    · intro q hq trig ht hA hD hC hC'
      have e : exec (q.2 h a) s = rangeOp q.1 h a s := by
        simp only [List.mem_cons, List.not_mem_nil, or_false] at hq
        rcases hq with rfl | rfl | rfl <;> rfl
      obtain ⟨r, hx, hi⟩ := rangeOp_issues q.1 hr ht hspec htag hnow hA hD hC hC'
      exact ⟨r, e.trans hx, hi⟩
    · intro trig ht hA hB
      have e : exec (.catArm h a) s = execCatArm h a s := rfl
      rw [e]
      exact catArm_issues hr ht hspec htag hnow hA hB
    · intro trig ht hA
      have e : exec (.catDisarm h a) s = execCatDisarm h a s := rfl
      rw [e]
      exact catDisarm_issues hr ht hspec htag hnow hA

end Sys2Proof.Machine
end

section
/-! PROOF. The MXE's micro-operations: conditions, registers and staging loads (R207 to R217). -/

namespace Sys2Proof.Machine

/-! ### What a micro-operation answers -/

section
variable {m : Micro} {s : State} {f : MxFrame} {body : MxFrame → Except MxFail (MxFrame × Option Int)}

/-- One whose word cannot be read ends the call. -/
theorem microStep_unsound (hf : s.mxFrame = some f) (hw : f.wordSound = false) :
    microStep m body s = .next (f.fail (mxFail 5 0)).marked := by
  rw [microStep, hf]
  dsimp only
  rw [hw]
  rfl

/-- One whose condition is false only moves the counter. -/
theorem microStep_skips (hf : s.mxFrame = some f) (hw : f.wordSound = true) (hc : m.c = true)
    (hbit : (f.mp m.k.toNat).getLsbD m.cb.toNat = false) : microStep m body s = .next (f.move 1).marked := by
  rw [microStep, hf]
  dsimp only
  rw [hw, hc, bit, hbit]
  rfl

/-- One that runs is its body's. -/
theorem microStep_runs (hr : s.MicroRuns m f) : microStep m body s = match body f with
    | .error e => (f.fail e).event
    | .ok (g, some off) => (g.move off).event
    | .ok (g, none) => g.put.event := by
  obtain ⟨hf, hw, hc⟩ := hr
  have hcond : (m.c && !bit (f.mp m.k.toNat) m.cb.toNat) = false := by
    rw [bit]
    cases h : m.c
    · rfl
    · rw [hc h]; rfl
  rw [microStep, hf]
  dsimp only
  rw [hw, hcond]
  rfl

/-- One that has done all of its work moves the counter. -/
theorem microStep_moves {g : MxFrame} {off : Int} (hr : s.MicroRuns m f) (h : body f = .ok (g, some off)) :
    microStep m body s = .next (g.move off).marked := by
  rw [microStep_runs hr, h]
  rfl

/-- One that is to go on stays. -/
theorem microStep_stays {g : MxFrame} (hr : s.MicroRuns m f) (h : body f = .ok (g, none)) :
    microStep m body s = .next g.put.marked := by
  rw [microStep_runs hr, h]
  rfl

/-- Its frame is of the state's own machine. -/
theorem State.mxFrame_spec (hf : s.mxFrame = some f) : f.s = s ∧ s.ctx? f.c.id = some f.c := by
  unfold State.mxFrame at hf
  cases hc : s.ctx? s.mxTurn with
  | none => rw [hc] at hf; cases hf
  | some c =>
    rw [hc, Option.bind_some] at hf
    split at hf
    · cases hf
    · obtain ⟨r, _, rfl⟩ := Option.map_eq_some_iff.1 hf
      have hid : c.id = s.mxTurn := by simpa using List.find?_some hc
      exact ⟨rfl, by rw [hid]; exact hc⟩

end

/-! ### Conditions and the end of a routine (R207, R209) -/

/-- Every micro-operation but MEND is a body run up to a quiescent point. -/
theorem IsMicro.body {i : Micro → Instr} (hi : IsMicro i) : i = .mend ∨ ∀ m, ∃ body, ∀ s, exec (i m) s = microStep m body s := by
  rcases hi with rfl | rfl | rfl | rfl | rfl | rfl | rfl | rfl | rfl | rfl | rfl | rfl | rfl | rfl | rfl | rfl | rfl
  · exact .inr fun m => ⟨_, fun s => show exec (.mnop m) s = execMnop m s from rfl⟩
  · exact .inl rfl
  · exact .inr fun m => ⟨_, fun s => show exec (.mseta m) s = execMseta m s from rfl⟩
  · exact .inr fun m => ⟨_, fun s => show exec (.madd m) s = execMadd m s from rfl⟩
  · exact .inr fun m => ⟨_, fun s => show exec (.msetc m) s = execMsetc m s from rfl⟩
  · exact .inr fun m => ⟨_, fun s => show exec (.mloop m) s = execMloop m s from rfl⟩
  · exact .inr fun m => ⟨_, fun s => show exec (.mjmp m) s = execMjmp m s from rfl⟩
  · exact .inr fun m => ⟨_, fun s => show exec (.mlda m) s = execMlda m s from rfl⟩
  · exact .inr fun m => ⟨_, fun s => show exec (.mldb m) s = execMldb m s from rfl⟩
  · exact .inr fun m => ⟨_, fun s => show exec (.mldsa m) s = execMldsa m s from rfl⟩
  · exact .inr fun m => ⟨_, fun s => show exec (.mldsw m) s = execMldsw m s from rfl⟩
  · exact .inr fun m => ⟨_, fun s => show exec (.mlde m) s = execMlde m s from rfl⟩
  · exact .inr fun m => ⟨_, fun s => show exec (.mldm m) s = execMldm m s from rfl⟩
  · exact .inr fun m => ⟨_, fun s => show exec (.mstr m) s = execMstr m s from rfl⟩
  · exact .inr fun m => ⟨_, fun s => show exec (.mzero m) s = execMzero m s from rfl⟩
  · exact .inr fun m => ⟨_, fun s => show exec (.mstacc m) s = execMstacc m s from rfl⟩
  · exact .inr fun m => ⟨_, fun s => show exec (.mldacc m) s = execMldacc m s from rfl⟩

theorem execMend_unsound {m : Micro} {s : State} {f : MxFrame} (hf : s.mxFrame = some f) (hw : f.wordSound = false) :
    execMend m s = .next (f.fail (mxFail 5 0)).marked := by
  rw [execMend, hf]
  dsimp only
  rw [hw]
  rfl

theorem execMend_skips {m : Micro} {s : State} {f : MxFrame} (hf : s.mxFrame = some f) (hw : f.wordSound = true)
    (hc : m.c = true) (hbit : (f.mp m.k.toNat).getLsbD m.cb.toNat = false) : execMend m s = .next (f.move 1).marked := by
  rw [execMend, hf]
  dsimp only
  rw [hw, hc, bit, hbit]
  rfl

theorem foldl_undefine_ctxs {α : Type} (key len : α → Nat) : ∀ (l : List α) (s : State),
    (l.foldl (fun s a => s.undefine (key a) (len a)) s).ctxs = s.ctxs
  | [], _ => rfl
  | a :: l, s => foldl_undefine_ctxs key len l (s.undefine (key a) (len a))

/-- A call that fails without bad data is over, its token carrying the code (R201). -/
theorem MxFrame.fail_ctx {f : MxFrame} (hf : f.s.ctx? f.c.id = some f.c) {e : MxFail} (he : e.code ≠ 5) :
    (f.fail e).ctx? f.c.id = some { f.c with mxe := f.c.mxe.finish f.r.call (errStatus e.code) } := by
  have hctxs : ∀ s' : State, s'.ctxs = f.s.ctxs → (s'.setCtx { f.c with mxe := f.c.mxe.finish f.r.call (errStatus e.code) }).ctx? f.c.id
      = some { f.c with mxe := f.c.mxe.finish f.r.call (errStatus e.code) } := fun s' h =>
    State.ctx?_setCtx ⟨f.c, by rw [State.ctx?, h]; exact hf⟩
  rw [MxFrame.fail]
  dsimp only
  rw [if_neg he]
  exact hctxs _ ((foldl_undefine_ctxs _ _ _ _).trans (foldl_undefine_ctxs _ _ _ _))

/-- Settles O44: the condition is looked at before the body, and the counter's bounds are the routine's. -/
theorem microConditions : Obligations.MicroConditions := by
  refine ⟨?_, ?_⟩
  · intro i hi m s f hf
    rcases hi.body with rfl | hbody
    · exact ⟨execMend_skips hf, execMend_unsound hf⟩
    · obtain ⟨body, h⟩ := hbody m
      rw [h]
      exact ⟨microStep_skips hf, microStep_unsound hf⟩
  · intro s f off hf n lo hi
    obtain ⟨hs, hc⟩ := State.mxFrame_spec hf
    refine ⟨fun h1 h2 => if_pos ⟨h1, h2⟩, fun h => ?_⟩
    have hm : f.move off = f.fail (mxFail 7 0) := if_neg fun h' => by
      obtain ⟨h1, h2⟩ := h'
      rcases h with h | h
      · exact absurd h1 (by omega)
      · exact absurd h2 (by push_cast; omega)
    rw [hm, MxFrame.fail_ctx (by rw [hs]; exact hc) (by decide)]
    exact ⟨_, rfl, rfl, rfl⟩

/-! ### Register micro-operations (R210) -/

theorem MxFrame.variable_eq (f : MxFrame) (m : Micro) : f.variable m = f.operand m := by
  have h : fld m.imm 0 2 = m.imm.toNat % 4 := fld_zero _ _
  have h' : fld m.imm 0 16 = m.imm.toNat % 2 ^ 16 := fld_zero _ _
  rw [MxFrame.variable, MxFrame.operand, h, h', fld_eq]

theorem MxFrame.bank_eq (f : MxFrame) (m : Micro) : f.bank m = f.bankOf m := by
  have h : fld m.imm 0 2 = m.imm.toNat % 4 := fld_zero _ _
  rw [MxFrame.bank, MxFrame.bankOf, h, fld_eq]
  rfl

theorem microOffset_eq (m : Micro) : microOffset m = (m.imm.setWidth 12).toInt := by
  rw [microOffset, sintN, fld_zero, ← BitVec.toNat_setWidth, BitVec.ofNat_toNat, BitVec.setWidth_eq]

section
variable {m : Micro} {f : MxFrame}

theorem MxFrame.setMa_eq {j : Fin 8} (hj : m.j.toNat = j) (x : BitVec 32) :
    f.setMa m x = { f with r := { f.r with ma := f.r.ma.set j x } } := by
  rw [MxFrame.setMa, hj, vset_eq_set]

theorem MxFrame.setMc_eq {j : Fin 4} (hj : m.j.toNat = j) (x : BitVec 16) :
    f.setMc m x = { f with r := { f.r with mc := f.r.mc.set j x } } := by
  rw [MxFrame.setMc, hj, vset_eq_set]

theorem MxFrame.ma_eq {j : Fin 8} (hj : m.j.toNat = j) : f.ma m = f.r.ma[j].toNat := by
  rw [MxFrame.ma, hj, vget_eq_getElem]

theorem MxFrame.mc_eq {j : Fin 4} (hj : m.j.toNat = j) : vget f.r.mc m.j.toNat 0 = f.r.mc[j] := by
  rw [hj, vget_eq_getElem]

end

/-- Settles O45: each operation is one body. -/
theorem microRegisterOps : Obligations.MicroRegisterOps := by
  intro m s f hr v w off
  have hv : f.variable m = v := f.variable_eq m
  have hoff : microOffset m = off := microOffset_eq m
  have step {i : Instr} {body : MxFrame → Except MxFail (MxFrame × Option Int)} {g : MxFrame} {n : Int}
      (e : exec i s = microStep m body s) (h : body f = .ok (g, some n)) : exec i s = .next (g.move n).marked :=
    e.trans (microStep_moves hr h)
  refine ⟨?_, ?_, ?_, ?_, ?_⟩
  · exact step (show exec (.mnop m) s = execMnop m s from rfl) rfl
  · refine step (show exec (.mjmp m) s = execMjmp m s from rfl) ?_
    rw [hoff]
  · intro j hj i x hx
    rcases hx with ⟨rfl, hx⟩ | ⟨rfl, hx⟩
    · refine step (show exec (.mseta m) s = execMseta m s from rfl) ?_
      have h32 : fld (f.mp m.k.toNat) 32 21 = w / 2 ^ 32 % 2 ^ 21 := fld_eq ..
      have h0 : fld (f.mp m.k.toNat) 0 21 = w % 2 ^ 21 := fld_zero _ _
      have e : BitVec.ofNat 32 (if bit m.opx 0 then fld (f.mp m.k.toNat) 32 21 else fld (f.mp m.k.toNat) 0 21) = x := by
        refine BitVec.eq_of_toNat_eq ?_
        rw [BitVec.toNat_ofNat, hx, h32, h0, bit]
        split <;> omega
      dsimp only
      rw [e, MxFrame.setMa_eq hj]
    · refine step (show exec (.madd m) s = execMadd m s from rfl) ?_
      have e : BitVec.ofInt 32 ((f.ma m : Int) + sintN 16 (f.variable m)) = x := by
        refine BitVec.eq_of_toNat_eq ?_
        rw [hx, hv, MxFrame.ma_eq hj, sintN, ← BitVec.toNat_add, BitVec.ofInt_add, BitVec.ofInt_natCast, BitVec.ofNat_toNat,
          BitVec.setWidth_eq, ← BitVec.signExtend]
      dsimp only
      rw [e, MxFrame.setMa_eq hj]
  · intro j hj
    refine ⟨step (show exec (.msetc m) s = execMsetc m s from rfl) ?_, fun h2 => step (show exec (.mloop m) s = execMloop m s from rfl) ?_,
      fun h2 => step (show exec (.mloop m) s = execMloop m s from rfl) ?_⟩
    · dsimp only
      rw [hv, MxFrame.setMc_eq hj]
    · dsimp only
      rw [MxFrame.mc_eq hj, if_pos h2, MxFrame.setMc_eq hj, hoff]
    · dsimp only
      rw [MxFrame.mc_eq hj, if_neg (by omega), MxFrame.setMc_eq hj]
  · obtain ⟨hf, hw, hc⟩ := hr
    have hcond : (m.c && !bit (f.mp m.k.toNat) m.cb.toNat) = false := by
      rw [bit]
      cases h : m.c
      · rfl
      · rw [hc h]; rfl
    have hs := (State.mxFrame_spec hf).1
    refine ⟨⟨f.r.call.serial, engineToken f.r.flags.status (if f.r.call.load.isSome then 2 else 0) f.r.call.routine f.r.call.utag,
      false⟩, ?_, rfl, rfl, rfl⟩
    have e : exec (.mend m) s = execMend m s := rfl
    rw [e, execMend, hf]
    dsimp only
    rw [hw, hcond, hs]
    rfl

/-! ### Staging loads (R210, R217) -/

/-- What a call may read it gets. -/
theorem MxFrame.load_of {f : MxFrame} {a n align : Nat} (h : f.Reads a n align) :
    f.load a n align = .ok (Memory.read f.s.mem (Key.pad f.c.id a) n) := by
  obtain ⟨halign, hpad, hown, hbad⟩ := h
  have hc : f.check a n align = .ok () := by
    rw [MxFrame.check, if_neg (by omega), if_pos (by simpa using hown)]
  rw [MxFrame.load, hc]
  dsimp only
  rw [hbad]
  rfl

theorem MxFrame.loadLines_of {f : MxFrame} {len pitch : Nat} : ∀ (n a : Nat), (∀ i, i < n → f.Reads (a + i * pitch) len 16) →
    f.loadLines len pitch n a = .ok ((List.range n).map fun i => Memory.read f.s.mem (Key.pad f.c.id (a + i * pitch)) len)
  | 0, _, _ => rfl
  | n + 1, a, h => by
    have h0 := h 0 (by omega)
    rw [Nat.zero_mul, Nat.add_zero] at h0
    have hn : ∀ i, i < n → f.Reads (a + pitch + i * pitch) len 16 := fun i hi => by
      have := h (i + 1) (by omega)
      rwa [Nat.add_mul, Nat.one_mul, Nat.add_comm (i * pitch), ← Nat.add_assoc] at this
    rw [MxFrame.loadLines, MxFrame.load_of h0, except_ok_bind, MxFrame.loadLines_of n (a + pitch) hn, except_ok_bind,
      List.range_succ_eq_map, List.map_cons, List.map_map]
    simp only [Nat.zero_mul, Nat.add_zero]
    refine congrArg (fun l => Except.ok (_ :: l)) (List.map_congr_left fun i _ => ?_)
    simp only [Function.comp, Nat.succ_eq_add_one, Nat.add_mul, Nat.one_mul]
    rw [Nat.add_comm (i * pitch), ← Nat.add_assoc]

section
variable {m : Micro} {s : State} {f : MxFrame} {clear : Staging → Staging} {load : Except MxFail (Staging → Staging)}

/-- A staging load that begins makes its item absent. -/
theorem MxFrame.stage_begins (hp : f.r.part = 0) : f.stage m clear load
    = .ok ({ f.setStaging m (clear (f.staging m)) with r := { (f.setStaging m (clear (f.staging m))).r with part := 1 } }, none) := by
  have hpart : ∀ g, (f.setStaging m g).r.part = 0 := fun g => by
    rw [MxFrame.setStaging]
    split <;> exact hp
  unfold MxFrame.stage
  rw [if_pos hp, MxFrame.stay, hpart]

/-- One that goes on puts what it has read there. -/
theorem MxFrame.stage_ends {put : Staging → Staging} (hp : f.r.part ≠ 0) (hl : load = .ok put) : f.stage m clear load
    = .ok (f.setStaging m (put (f.staging m)), some 1) := by
  unfold MxFrame.stage
  rw [if_neg hp, hl]

end

/-- Settles O46: a staging load is made absent first, and read whole when it goes on. -/
theorem microLoads : Obligations.MicroLoads := by
  intro m s f j hr hj at_ d pitch set begun done was bytes lines
  have hs : f.s = s := (State.mxFrame_spec hr.1).1
  have hma : f.ma m = at_ := MxFrame.ma_eq hj
  have hpitch : descPitch (f.mp m.k.toNat) = pitch := fld_eq ..
  have hv : f.variable m = f.operand m := f.variable_eq m
  have hbytes : ∀ {a n align : Nat}, f.Reads a n align → f.load a n align = .ok (bytes a n) := fun h => by
    rw [MxFrame.load_of h, hs]
  have moves {i : Instr} {body : MxFrame → Except MxFail (MxFrame × Option Int)} {g : MxFrame} {n : Int}
      (e : exec i s = microStep m body s) (h : body f = .ok (g, some n)) : exec i s = .next (g.move n).marked :=
    e.trans (microStep_moves hr h)
  have stays {i : Instr} {body : MxFrame → Except MxFail (MxFrame × Option Int)} {g : MxFrame}
      (e : exec i s = microStep m body s) (h : body f = .ok (g, none)) : exec i s = .next g.put.marked :=
    e.trans (microStep_stays hr h)
  have ea : exec (.mlda m) s = execMlda m s := rfl
  have eb : exec (.mldb m) s = execMldb m s := rfl
  have esa : exec (.mldsa m) s = execMldsa m s := rfl
  have esw : exec (.mldsw m) s = execMldsw m s := rfl
  have ee : exec (.mlde m) s = execMlde m s := rfl
  have em : exec (.mldm m) s = execMldm m s := rfl
  refine ⟨fun hp => ⟨?_, ?_, fun hd => ?_, fun hd => ?_, fun hd => ?_, fun hd => ?_⟩,
    fun hp => ⟨fun hread => ⟨?_, ?_⟩, fun hd hread => ?_, fun hd hmax hread => ?_, fun hd hread => ?_, fun hd hread => ?_⟩,
    fun hd => ?_, fun hd => ?_, fun hd => ?_, fun hd => ?_⟩
  · exact stays ea (MxFrame.stage_begins hp)
  · exact stays eb (MxFrame.stage_begins hp)
  · refine stays esa ?_
    rw [hd]
    exact (if_neg (by decide)).trans (MxFrame.stage_begins hp)
  · refine stays esw ?_
    rw [hd]
    exact (if_neg (by decide)).trans (MxFrame.stage_begins hp)
  · refine stays ee ?_
    rw [hd]
    exact (if_neg (by decide)).trans (MxFrame.stage_begins hp)
  · refine stays em ?_
    rw [hd]
    exact (if_neg (by decide)).trans (MxFrame.stage_begins hp)
  · have hl : f.loadLines (lineLength d) (descPitch d) 64 (f.ma m) = .ok lines := by
      rw [hpitch, hma, MxFrame.loadLines_of 64 at_ hread, hs]
    refine moves ea (MxFrame.stage_ends (put := fun g => { g with a := some lines }) hp ?_)
    rw [hl]
    rfl
  · have hl : f.loadLines (lineLength d) (descPitch d) 64 (f.ma m) = .ok lines := by
      rw [hpitch, hma, MxFrame.loadLines_of 64 at_ hread, hs]
    refine moves eb (MxFrame.stage_ends (put := fun g => { g with b := some lines }) hp ?_)
    rw [hl]
    rfl
  · refine moves esa ?_
    rw [hd]
    refine (if_neg (by decide)).trans (MxFrame.stage_ends (put := fun g => { g with sa := some (bytes at_ 1024) }) hp ?_)
    rw [hma, hbytes hread]
    rfl
  · refine moves esw ?_
    rw [hd]
    refine (if_neg (by decide)).trans (MxFrame.stage_ends (put := fun g => { g with sw := some (BitVec.ofNat 64 (Memory.num s.mem (Key.pad f.c.id at_) 8), f.operand m) }) hp ?_)
    rw [hv, if_neg (by omega), hma, hbytes hread]
    rfl
  · refine moves ee ?_
    rw [hd]
    refine (if_neg (by decide)).trans (MxFrame.stage_ends (put := fun g => { g with se := some (bytes at_ 512) }) hp ?_)
    rw [hma, hbytes hread]
    rfl
  · refine moves em ?_
    rw [hd]
    refine (if_neg (by decide)).trans (MxFrame.stage_ends (put := fun g => { g with sm := some (bytes at_ 1024) }) hp ?_)
    rw [hma, hbytes hread]
    rfl
  · refine moves esa ?_
    rw [hd]
    rfl
  · refine moves esw ?_
    rw [hd]
    rfl
  · refine moves ee ?_
    rw [hd]
    rfl
  · refine moves em ?_
    rw [hd]
    rfl

end Sys2Proof.Machine
end

section
/-! PROOF. The MXE's strides and the moves of its banks (R115, R204, R213, R214, R217). -/

namespace Sys2Proof.Machine

/-! ### Numbers written one behind the other -/

theorem Memory.get_write_getD {m : List Host.Cell} (w : Memory.wf m = true) (k : Nat) {bs : List Byte} {i : Nat} (hi : i < bs.length) :
    Memory.get (Memory.write m k bs) (k + i) = bs.getD i 0 := by
  rw [Memory.get_write_inside w hi, List.getD_eq_getElem _ _ hi]

/-- The bytes of a list of numbers. -/
def numberBytes (n : Nat) (l : List Nat) : List Byte := (l.map (bytesLE n)).flatten

theorem numberBytes_map {β : Type} (n : Nat) (l : List (Nat × β)) :
    (l.map fun p => bytesLE n p.1).flatten = numberBytes n (l.map (·.1)) := by
  rw [numberBytes, List.map_map]
  rfl

theorem numberBytes_length (n : Nat) (l : List Nat) : (numberBytes n l).length = n * l.length := by
  simp [numberBytes, bytesLE_length, Function.comp_def, Nat.mul_comm]

/-- Each number written stands at its place. -/
theorem Memory.num_write_numbers {m : List Host.Cell} (w : Memory.wf m = true) (k n : Nat) {l : List Nat} {i : Nat} (hi : i < l.length) :
    Memory.num (Memory.write m k (numberBytes n l)) (k + n * i) n = l.getD i 0 % 2 ^ (8 * n) := by
  have hread : Memory.read (Memory.write m k (numberBytes n l)) (k + n * i) n = bytesLE n (l.getD i 0) := by
    rw [Memory.read_eq_map]
    refine List.ext_getElem (by rw [bytesLE_length]; simp) fun j hj hj' => ?_
    have hjn : j < n := by simpa using hj
    have hlt : n * i + j < (numberBytes n l).length := by
      rw [numberBytes_length]
      calc n * i + j < n * (i + 1) := by rw [Nat.mul_succ]; omega
        _ ≤ n * l.length := Nat.mul_le_mul_left _ hi
    have hbytes : (l.map (bytesLE n)).getD i [] = bytesLE n (l.getD i 0) := by
      simp [List.getD, hi]
    rw [List.getElem_map, List.getElem_range, Nat.add_assoc, Memory.get_write_getD w k hlt, numberBytes,
      getD_flatten 0 n _ i j (by simp [bytesLE_length]) hjn, hbytes, List.getD_eq_getElem _ _ hj']
  rw [Memory.num, hread, numLE_bytesLE]

/-! ### One element of a pass (R115, R204) -/

/-- A word of a bank that has been read whole. -/
theorem f32At_read (m : List Host.Cell) (k n o : Nat) (h : o + 4 ≤ n) : f32At (Memory.read m k n) o = Memory.num m (k + o) 4 := by
  obtain ⟨r, rfl⟩ : ∃ r, n = o + (4 + r) := ⟨n - o - 4, by omega⟩
  have hlen : ∀ k n, (Memory.read m k n).length = n := fun k n => by rw [Memory.read_eq_map]; simp
  rw [f32At, Memory.read_add, List.drop_left' (hlen _ _), Memory.read_add, List.take_left' (hlen _ _), Memory.num]

theorem getD_zipIdx_map {α β : Type} (g : α × Nat → β) (d : α) (e : β) {l : List α} {i : Nat} (hi : i < l.length) :
    (l.zipIdx.map g).getD i e = g (l.getD i d, i) := by
  simp [List.getD, hi]

/-- An element of a pass stands at its row and column. -/
theorem stride_getD (x : StrideScales) (gs : List Nat) (acc : List Byte) {as bs : List (List (List Fl))} (ha : as.length = 64)
    (hb : bs.length = 64) {i e : Nat} (hi : i < 64) (he : e < 64) (d : Nat × CallFlags) :
    (stride x gs acc as bs).getD (64 * i + e) d
      = strideElem x gs i e (f32At acc (256 * i + 4 * e)) (as.getD i []) (bs.getD e []) := by
  rw [stride, getD_flatten d 64 _ i e (fun y hy => by obtain ⟨p, _, rfl⟩ := List.mem_map.1 hy; simp [hb]) he,
    getD_zipIdx_map _ [] _ (by omega), getD_zipIdx_map _ [] _ (by omega)]

theorem stride_length (x : StrideScales) (gs : List Nat) (acc : List Byte) {as bs : List (List (List Fl))} (ha : as.length = 64)
    (hb : bs.length = 64) : (stride x gs acc as bs).length = 4096 := by
  rw [stride, List.length_flatten, List.map_map]
  simp [Function.comp_def, ha, hb]

/-- What a pass writes over its bank. -/
theorem stride_written {s : State} (w : s.Canonical) (x : StrideScales) (gs : List Nat) (k : Nat) {as bs : List (List (List Fl))}
    (ha : as.length = 64) (hb : bs.length = 64) :
    let r := stride x gs (Memory.read s.mem k 16384) as bs
    let t := s.write k (numberBytes 4 (r.map (·.1)))
    s.SameOutside t k 16384
    ∧ ∀ i e, i < 64 → e < 64 → Memory.num t.mem (k + 256 * i + 4 * e) 4
      = (strideElem x gs i e (Memory.num s.mem (k + 256 * i + 4 * e) 4) (as.getD i []) (bs.getD e [])).1 % 2 ^ 32 := by
  intro r t
  have hlen : r.length = 4096 := stride_length x gs _ ha hb
  refine ⟨fun j hj => Memory.get_write_outside w (by rwa [numberBytes_length, List.length_map, hlen]), fun i e hi he => ?_⟩
  have hn : 64 * i + e < (r.map (·.1)).length := by rw [List.length_map, hlen]; omega
  have hget : (r.map (·.1)).getD (64 * i + e) 0
      = (strideElem x gs i e (Memory.num s.mem (k + 256 * i + 4 * e) 4) (as.getD i []) (bs.getD e [])).1 := by
    have h := stride_getD x gs (Memory.read s.mem k 16384) ha hb hi he (0, CallFlags.none)
    rw [f32At_read _ _ _ _ (by omega), ← Nat.add_assoc] at h
    rw [← h, List.getD_eq_getElem _ _ hn, List.getElem_map, List.getD_eq_getElem]
  have h := Memory.num_write_numbers w k 4 hn
  rw [hget] at h
  rw [← h]
  exact congrArg (fun at_ => Memory.num t.mem at_ 4) (by omega)

/-! ### Rows of a bank -/

theorem writeRows_mem (f : MxFrame) (b row : Nat) (bs : List Byte) :
    (f.writeRows b row bs).s.mem = Memory.write f.s.mem (f.bankKey b + 256 * row) bs := rfl

/-- The state that a micro-operation leaves after a part: the counter moves after the last one (R217). -/
def MxFrame.after (g : MxFrame) (n : Nat) (last : Bool) : State :=
  if last then (g.move 1).marked else (MxFrame.put { g with r := { g.r with part := n + 1 } }).marked

section
variable {m : Micro} {s : State} {f g : MxFrame} {body : MxFrame → Except MxFail (MxFrame × Option Int)}

theorem microStep_after (hr : s.MicroRuns m f) {last : Bool} (h : body f = .ok (if last then (g, some 1) else g.stay)) :
    microStep m body s = .next (g.after g.r.part last) := by
  cases last
  · exact microStep_stays hr h
  · exact microStep_moves hr h

/-- After a row comes the next, or after the 64th the next micro-operation. -/
theorem MxFrame.nextRow_eq (h : g.r.part < 64) : g.nextRow = if decide (g.r.part = 63) then (g, some 1) else g.stay := by
  rw [MxFrame.nextRow]
  by_cases h' : g.r.part = 63
  · rw [if_neg (by omega), if_pos (by simpa using h')]
  · rw [if_pos (by omega), if_neg (by simpa using h')]

theorem microStep_nextRow (hr : s.MicroRuns m f) (h : body f = .ok g.nextRow) (hpart : g.r.part < 64) :
    microStep m body s = .next (g.after g.r.part (decide (g.r.part = 63))) :=
  microStep_after hr (h.trans (congrArg Except.ok (MxFrame.nextRow_eq hpart)))

end

/-! ### The operations -/

section
variable {m : Micro} {s : State} {f : MxFrame}

/-- The frame after a pass of a stride. -/
def MxFrame.strode (f : MxFrame) (b : Nat) (r : List (Nat × CallFlags)) : MxFrame :=
  let g := f.writeRows b 0 (numberBytes 4 (r.map (·.1)))
  { g with r := { g.r with flags := r.foldl (fun a p => a.or p.2) g.r.flags } }

/-- MSTR performs a pass over staged tiles. -/
theorem execMstr_of {da db : Word} {at_ bt : List (List Byte)} {x : StrideScales} {sm : List Byte} (hr : s.MicroRuns m f)
    (hst : f.staged (f.staging m) = some (da, db, at_, bt, x, sm)) (hmeta : metaBroken db sm = false)
    (hbad : f.s.bad (f.bankKey (f.bank m)) 16384 = false) :
    let g := f.strode (f.bank m) (stride x (passOf da db f.r.part).1 (Memory.read f.s.mem (f.bankKey (f.bank m)) 16384)
      (at_.map fun l => groupsOf24 (lineValues (descTag da) (bit da 58) 96 l))
      (bt.zipIdx.map fun p => groupsOf24 (columnValues db sm p.2 p.1)))
    execMstr m s = .next (g.after g.r.part (!(passOf da db f.r.part).2)) := by
  intro g
  refine microStep_after hr ?_
  dsimp only
  rw [hst]
  dsimp only
  rw [hmeta, if_neg Bool.false_ne_true, hbad, if_neg Bool.false_ne_true]
  rw [numberBytes_map]
  cases (passOf da db f.r.part).2 <;> rfl

/-- The groups of a pass (R204). -/
theorem passOf_eq (da db : Word) (n : Nat) :
    let wide := decide (mxMode (descTag da) (descTag db) = some .wide)
    passOf da db n = (if wide then (if n = 0 then [0, 1] else [2, 3]) else [0, 1, 2, 3], !decide (wide = false ∨ n ≠ 0)) := by
  intro wide
  rw [passOf]
  by_cases hw : mxMode (descTag da) (descTag db) = some .wide
  · have hwide : wide = true := decide_eq_true hw
    rw [if_pos hw, hwide]
    by_cases hn : n = 0 <;> simp [hn]
  · have hwide : wide = false := decide_eq_false hw
    rw [if_neg hw, hwide]
    simp

/-- The frame after a row of MSTACC. -/
def MxFrame.stored (f : MxFrame) (addr n len : Nat) (es : List (Nat × CallFlags)) : MxFrame :=
  { f with
    s := f.s.write (Key.pad f.c.id addr) (numberBytes n (es.map (·.1)))
    r := { f.r with flags := es.foldl (fun a e => a.or e.2) f.r.flags, wrote := f.r.wrote ++ [(addr, len)] } }

/-- The elements of a row in a target format. -/
def MxFrame.rowElems (f : MxFrame) (b : Nat) (fmt : FpFmt) : List (Nat × CallFlags) :=
  (List.range 64).map fun j => storeElem fmt (Memory.num f.s.mem (f.bankKey b + 256 * f.r.part + 4 * j) 4)

/-- MSTACC stores a row in its target format. -/
theorem execMstacc_of {tag pitch : Nat} {fmt : FpFmt} (hr : s.MicroRuns m f) (hpart : f.r.part < 64)
    (htag : m.opx.toNat % 32 = 31 ∧ tag = descTag (f.mp m.k.toNat) ∧ pitch = descPitch (f.mp m.k.toNat)
      ∨ m.opx.toNat % 32 ≠ 31 ∧ tag = m.opx.toNat % 32 ∧ pitch = m.imm.toNat / 65536)
    (hfmt : accFormat tag = some fmt) (halign : (f.ma m + f.r.part * pitch) % 16 = 0)
    (hpad : f.ma m + f.r.part * pitch + 64 * accBytes tag ≤ 0x200000)
    (hown : ∀ b ∈ blocksOf (f.ma m + f.r.part * pitch) (64 * accBytes tag), b ∈ f.s.ownedBlocks f.c.id)
    (hbad : f.s.bad (f.bankKey m.bk.toNat + 256 * f.r.part) 256 = false) :
    let g := f.stored (f.ma m + f.r.part * pitch) (accBytes tag) (64 * accBytes tag) (f.rowElems m.bk.toNat fmt)
    execMstacc m s = .next (g.after g.r.part (decide (g.r.part = 63))) := by
  intro g
  have hopx : fld m.opx 0 5 = m.opx.toNat % 32 := fld_zero _ _
  have himm : fld m.imm 16 16 = m.imm.toNat / 65536 := by
    rw [fld_eq]
    have := m.imm.isLt
    omega
  have htag' : (if m.opx.toNat % 32 = 31 then descTag (f.mp m.k.toNat) else m.opx.toNat % 32) = tag
      ∧ (if m.opx.toNat % 32 = 31 then descPitch (f.mp m.k.toNat) else m.imm.toNat / 65536) = pitch := by
    rcases htag with ⟨h, rfl, rfl⟩ | ⟨h, rfl, rfl⟩
    · exact ⟨if_pos h, if_pos h⟩
    · exact ⟨if_neg h, if_neg h⟩
  have hcheck : f.check (f.ma m + f.r.part * pitch) (64 * accBytes tag) 16 = .ok () := by
    rw [MxFrame.check, if_neg (by omega), if_pos (by simpa using hown)]
  refine microStep_nextRow (g := g) hr ?_ hpart
  dsimp only
  rw [hopx, himm, htag'.1, htag'.2, hfmt]
  dsimp only
  rw [hcheck]
  dsimp only
  rw [hbad, numberBytes_map]
  rfl

/-- MLDACC loads a row. -/
theorem execMldacc_of (hr : s.MicroRuns m f) (hpart : f.r.part < 64)
    (hread : f.Reads (f.ma m + f.r.part * (m.imm.toNat / 65536)) 256 16) :
    let g := f.writeRows m.bk.toNat f.r.part
      (Memory.read f.s.mem (Key.pad f.c.id (f.ma m + f.r.part * (m.imm.toNat / 65536))) 256)
    execMldacc m s = .next (g.after g.r.part (decide (g.r.part = 63))) := by
  intro g
  have himm : fld m.imm 16 16 = m.imm.toNat / 65536 := by
    rw [fld_eq]
    have := m.imm.isLt
    omega
  refine microStep_nextRow (g := g) hr ?_ hpart
  rw [himm, MxFrame.load_of hread]

end

/-- The bytes that a bank's row takes. -/
theorem writeRows_outside {s : State} (w : s.Canonical) {f : MxFrame} (hs : f.s = s) (b row : Nat) {bs : List Byte} (hlen : bs.length = 256) :
    s.SameOutside (f.writeRows b row bs).s (f.bankKey b + 256 * row) 256 := fun j hj => by
  rw [writeRows_mem, hs]
  exact Memory.get_write_outside w (by rwa [hlen])

theorem writeRows_inside {s : State} (w : s.Canonical) {f : MxFrame} (hs : f.s = s) (b row : Nat) {bs : List Byte} {i : Nat}
    (hi : i < bs.length) : Memory.get (f.writeRows b row bs).s.mem (f.bankKey b + 256 * row + i) = bs.getD i 0 := by
  rw [writeRows_mem, hs]
  exact Memory.get_write_getD w _ hi

theorem execMzero_of {m : Micro} {s : State} {f : MxFrame} (hr : s.MicroRuns m f) (hpart : f.r.part < 64) :
    let g := f.writeRows (f.bank m) f.r.part (List.replicate 256 0)
    execMzero m s = .next (g.after g.r.part (decide (g.r.part = 63))) := by
  intro g
  exact microStep_nextRow (g := g) hr rfl hpart

/-- Settles O47: a pass writes its bank whole, and the moves a row at a time. -/
theorem microBankOps : Obligations.MicroBankOps := by
  intro m s f j hr w hj n at_ acc elem pad after
  have hs : f.s = s := (State.mxFrame_spec hr.1).1
  have hma : f.ma m = (f.r.ma[j]).toNat := MxFrame.ma_eq hj
  have hb : f.bank m = f.bankOf m := f.bank_eq m
  refine ⟨?_, fun hn => ⟨?_, ?_, ?_⟩⟩
  · intro da db as bs x sm hst has hbs hmeta hbad wide groups
    have hrun := execMstr_of hr hst hmeta (by rw [hb, hs]; exact hbad)
    have e : exec (.mstr m) s = execMstr m s := rfl
    have hwritten := stride_written w x groups (acc (f.bankOf m))
      (as := as.map fun l => groupsOf24 (lineValues (descTag da) (bit da 58) 96 l))
      (bs := bs.zipIdx.map fun p => groupsOf24 (columnValues db sm p.2 p.1)) (by simpa using has) (by simpa using hbs)
    obtain ⟨hout, helem⟩ := hwritten
    rw [passOf_eq, Bool.not_not, hb, hs] at hrun
    refine ⟨_, e.trans hrun, rfl, fun k hk => ?_, fun i c hi hc => ?_⟩
    · have h := hout k hk
      rw [← hs] at h ⊢
      exact h
    · have h := helem i c hi hc
      have ha : (as.map fun l => groupsOf24 (lineValues (descTag da) (bit da 58) 96 l)).getD i []
          = groupsOf24 (lineValues (descTag da) (da.getLsbD 58) 96 (as.getD i [])) := by
        simp [List.getD, has, hi, bit]
      have hcol : (bs.zipIdx.map fun p => groupsOf24 (columnValues db sm p.2 p.1)).getD c []
          = groupsOf24 (columnValues db sm c (bs.getD c [])) := getD_zipIdx_map _ [] _ (by omega)
      rw [ha, hcol] at h
      rw [← hs] at h ⊢
      exact h
  · have hrun := execMzero_of hr hn
    have e : exec (.mzero m) s = execMzero m s := rfl
    rw [hb] at hrun
    refine ⟨_, e.trans hrun, rfl, writeRows_outside w hs _ _ List.length_replicate, fun i hi => ?_⟩
    have hi' : i < (List.replicate 256 (0 : Byte)).length := by rwa [List.length_replicate]
    refine (writeRows_inside w hs _ _ hi').trans ?_
    rw [List.getD_eq_getElem _ _ hi', List.getElem_replicate]
  · intro tag pitch fmt htag len hfmt halign hpad hown hbad
    have hrun := execMstacc_of (fmt := fmt) hr hn htag hfmt (by rw [hma]; exact halign) (by rw [hma]; exact hpad)
      (by rw [hma, hs]; exact hown) (by rw [hs]; exact hbad)
    have e : exec (.mstacc m) s = execMstacc m s := rfl
    rw [hma] at hrun
    have hlen : (f.rowElems m.bk.toNat fmt).length = 64 := by simp [MxFrame.rowElems]
    refine ⟨_, e.trans hrun, rfl, fun c hc => ?_, fun k hk => ?_⟩
    · have hi : c < ((f.rowElems m.bk.toNat fmt).map (·.1)).length := by rw [List.length_map, hlen]; exact hc
      have hv : ((f.rowElems m.bk.toNat fmt).map (·.1)).getD c 0 = (storeElem fmt (elem s m.bk.toNat n c)).1 := by
        rw [List.getD_eq_getElem _ _ hi, List.getElem_map]
        simp only [MxFrame.rowElems, List.getElem_map, List.getElem_range, hs]
        rfl
      have h := Memory.num_write_numbers w (pad (at_ pitch)) (accBytes tag) hi
      rw [hv, ← hs] at h
      rw [← hs]
      exact h
    · have h := Memory.get_write_outside (bs := numberBytes (accBytes tag) ((f.rowElems m.bk.toNat fmt).map (·.1))) w
        (by rw [numberBytes_length, List.length_map, hlen, Nat.mul_comm]; exact hk)
      rw [← hs] at h ⊢
      exact h
  · intro pitch hread
    have hrun := execMldacc_of hr hn (by rw [hma]; exact hread)
    have e : exec (.mldacc m) s = execMldacc m s := rfl
    have hlen : ∀ k, (Memory.read f.s.mem k 256).length = 256 := fun k => by rw [Memory.read_eq_map]; simp
    rw [hma] at hrun
    refine ⟨_, e.trans hrun, rfl, writeRows_outside w hs _ _ (hlen _), fun i hi => ?_⟩
    refine (writeRows_inside w hs _ _ (by rw [hlen]; exact hi)).trans ?_
    rw [Memory.read_eq_map, List.getD_eq_getElem _ _ (by simpa using hi), List.getElem_map, List.getElem_range, hs]

end Sys2Proof.Machine
end

section
/-! PROOF. Results that reach the result queue (R73, R93, R104, R148). -/

namespace Sys2Proof.Machine

/-! ### Sorting -/

theorem insertBy_eq {α : Type} (le : α → α → Bool) (x : α) : ∀ l, insertBy le x l = l.orderedInsert (fun a b => le a b = true) x
  | [] => rfl
  | y :: l => by
    rw [insertBy, List.orderedInsert, insertBy_eq le x l]

theorem sortBy_eq {α : Type} (le : α → α → Bool) (l : List α) : sortBy le l = l.insertionSort fun a b => le a b = true := by
  rw [sortBy, List.insertionSort]
  exact congrArg (fun g => l.foldr g []) (funext fun x => funext (insertBy_eq le x))

theorem mem_sortBy {α : Type} {le : α → α → Bool} {l : List α} {x : α} : x ∈ sortBy le l ↔ x ∈ l := by
  rw [sortBy_eq, List.mem_insertionSort]

theorem pairwise_sortBy {α : Type} {le : α → α → Bool} (total : ∀ a b, le a b = true ∨ le b a = true)
    (trans : ∀ a b c, le a b = true → le b c = true → le a c = true) (l : List α) :
    (sortBy le l).Pairwise fun a b => le a b = true := by
  rw [sortBy_eq]
  have : Std.Total fun a b => le a b = true := ⟨total⟩
  have : IsTrans α fun a b => le a b = true := ⟨trans⟩
  exact List.pairwise_insertionSort _ _

theorem Flying.earlier_iff (x y : Flying) : x.earlier y = true ↔ x.due < y.due ∨ x.due = y.due ∧ x.slot ≤ y.slot := by
  simp [Flying.earlier]

theorem earlier_pairwise (l : List Flying) : (sortBy Flying.earlier l).Pairwise fun x y => x.earlier y = true :=
  pairwise_sortBy (fun a b => by simp only [Flying.earlier_iff]; omega) (fun a b c => by simp only [Flying.earlier_iff]; omega) l

/-! ### What the operations that are pushed do to the others (R93, R104) -/

/-- An operation after those of a list are pushed. -/
def Flying.passedAll (y : Flying) (l : List Flying) : Flying := l.foldl Flying.passed y

/-- Whether an operation that waits is pushed before another. -/
def Flying.before (y z : Flying) : Bool := y.earlier z && y.rid != z.rid

theorem Flying.passed_eq (y x : Flying) : y.passed x = { y with
    since := if y.leafed && y.before x then y.since + 1 else y.since
    clear := if y.leafed && y.before x then y.clear &&& ~~~(x.flags.zeroExtend 64) else y.clear } := by
  rw [Flying.passed, Flying.before, ← Bool.and_assoc]
  split <;> rfl

theorem Flying.passedAll_eq : ∀ (l : List Flying) (y : Flying), y.passedAll l = { y with
    since := (y.passedAll l).since
    clear := (y.passedAll l).clear }
  | [], _ => rfl
  | x :: l, y => by
    have h := passedAll_eq l (y.passed x)
    have e : y.passedAll (x :: l) = (y.passed x).passedAll l := rfl
    rw [← e] at h
    rw [h, y.passed_eq]

theorem Flying.passedAll_plain : ∀ (l : List Flying) (y : Flying), y.leafed = false → y.passedAll l = y
  | [], _, _ => rfl
  | x :: l, y, h => by
    have hx : y.passed x = y := by simp [Flying.passed, h]
    exact (congrArg (fun z : Flying => z.passedAll l) hx).trans (passedAll_plain l y h)

theorem Flying.passed_before (y x z : Flying) : (y.passed x).before z = y.before z ∧ (y.passed x).leafed = y.leafed := by
  rw [y.passed_eq]
  exact ⟨rfl, rfl⟩

/-- One that waits counts those pushed after its turn. -/
theorem Flying.passedAll_since : ∀ (l : List Flying) (y : Flying), y.leafed = true →
    (y.passedAll l).since = y.since + (l.filter y.before).length
  | [], _, _ => rfl
  | x :: l, y, h => by
    have e : y.passedAll (x :: l) = (y.passed x).passedAll l := rfl
    have hb : (y.passed x).before = y.before := funext fun z => (y.passed_before x z).1
    rw [e, passedAll_since l _ ((y.passed_before x x).2.trans h), hb, y.passed_eq, h, List.filter_cons]
    cases y.before x
    · rfl
    · simp only [Bool.and_true, if_true, List.length_cons]
      omega

/-- The flags that are raised since are not its to clear. -/
theorem Flying.passedAll_clear (i : Nat) : ∀ (l : List Flying) (y : Flying), y.leafed = true →
    ((y.passedAll l).clear.getLsbD i = true ↔ y.clear.getLsbD i = true ∧ ∀ z ∈ l, y.before z = true → z.flags.getLsbD i = false)
  | [], y, _ => by simp [passedAll]
  | x :: l, y, h => by
    have e : y.passedAll (x :: l) = (y.passed x).passedAll l := rfl
    have hb : (y.passed x).before = y.before := funext fun z => (y.passed_before x z).1
    have hc : (y.passed x).clear.getLsbD i = true ↔ y.clear.getLsbD i = true ∧ (y.before x = true → x.flags.getLsbD i = false) := by
      rw [y.passed_eq, h, Bool.true_and]
      dsimp only
      cases y.before x
      · simp
      · by_cases hi : i < 64
        · simp [hi]
        · have hz : y.clear.getLsbD i = false := BitVec.getLsbD_of_ge _ _ (by omega)
          simp [hz]
    rw [e, passedAll_clear i l _ ((y.passed_before x x).2.trans h), hc, hb]
    simp [and_assoc]

/-! ### A list of pushes -/

/-- The flags that a list of operations raises. -/
def raisedBy (l : List Flying) : Flags := l.foldl (fun r x => if x.ready then r ||| x.flags else r) 0

theorem foldl_raised (l : List Flying) : ∀ r : Flags, l.foldl (fun r x => if x.ready then r ||| x.flags else r) r = r ||| raisedBy l := by
  unfold raisedBy
  induction l with
  | nil => intro r; simp
  | cons x l ih =>
    intro r
    rw [List.foldl_cons, List.foldl_cons, ih, ih (if x.ready = true then 0 ||| x.flags else 0)]
    cases x.ready
    · simp
    · simp [BitVec.or_assoc]

theorem raisedBy_cons (x : Flying) (l : List Flying) : raisedBy (x :: l) = (if x.ready then x.flags else 0) ||| raisedBy l := by
  rw [raisedBy, List.foldl_cons, foldl_raised]
  cases x.ready <;> simp

theorem raisedBy_getLsbD (i : Nat) : ∀ l : List Flying,
    (raisedBy l).getLsbD i = true ↔ ∃ x ∈ l, x.ready = true ∧ x.flags.getLsbD i = true
  | [] => by simp [raisedBy]
  | x :: l => by
    rw [raisedBy_cons, BitVec.getLsbD_or, Bool.or_eq_true, raisedBy_getLsbD i l]
    cases h : x.ready <;> simp [h]

/-- The held operations after flags are raised: an FPSET keeps those that came before it. -/
def raiseHeld (l : List Held) (fl : Flags) : List Held := l.map fun x => if x.isFpset then { x with flags := x.flags ||| fl } else x

theorem raiseHeld_zero (l : List Held) : raiseHeld l 0 = l := by
  rw [raiseHeld, List.map_congr_left (g := id) fun x _ => by simp, List.map_id]

theorem raiseHeld_or (l : List Held) (a b : Flags) : raiseHeld (raiseHeld l a) b = raiseHeld l (a ||| b) := by
  rw [raiseHeld, raiseHeld, raiseHeld, List.map_map]
  refine List.map_congr_left fun x _ => ?_
  have h : ∀ fl, Held.isFpset { x with flags := fl } = x.isFpset := fun _ => rfl
  simp only [Function.comp]
  cases hx : x.isFpset
  · simp [hx]
  · simp [h, hx, BitVec.or_assoc]

theorem fpstOr_zero (w : Word) : fpstOr w 0 = w := by simp [fpstOr]

theorem Ctx.pushFlying_eq (c : Ctx) (x : Flying) : c.pushFlying x = { c with
    fpst := fpstOr c.fpst (if x.ready then x.flags else 0)
    held := raiseHeld c.held (if x.ready then x.flags else 0)
    queue := pushEntry c.queue ⟨x.tag, if x.ready then x.bits else 0, x.ready, x.rid⟩
    flying := c.flying.map (·.passed x)
    bad := pushBad c.bad } := by
  rw [Ctx.pushFlying]
  cases x.ready
  · simp only [Bool.false_eq_true, if_false, raiseHeld_zero, fpstOr_zero]
  · rfl

/-- The queue after a list of pushes. -/
def pushEntries (q : Vector QEntry 16) (l : List Flying) : Vector QEntry 16 :=
  l.foldl (fun q x => pushEntry q ⟨x.tag, if x.ready then x.bits else 0, x.ready, x.rid⟩) q

theorem fpstOr_or (w : Word) (a b : Flags) : fpstOr (fpstOr w a) b = fpstOr w (a ||| b) := by
  rw [fpstOr, fpstOr, fpstOr, BitVec.or_assoc]
  congr 1

theorem foldl_pushFlying : ∀ (l : List Flying) (c : Ctx), l.foldl Ctx.pushFlying c = { c with
    fpst := fpstOr c.fpst (raisedBy l)
    held := raiseHeld c.held (raisedBy l)
    queue := pushEntries c.queue l
    flying := c.flying.map (·.passedAll l)
    bad := pushBad^[l.length] c.bad }
  | [], c => by
    have h : c.flying.map (·.passedAll []) = c.flying := List.map_id _
    rw [h, show raisedBy [] = 0 from rfl, raiseHeld_zero, fpstOr_zero]
    rfl
  | x :: l, c => by
    rw [List.foldl_cons, foldl_pushFlying l, Ctx.pushFlying_eq]
    simp only [raiseHeld_or, fpstOr_or, ← raisedBy_cons, List.map_map, List.length_cons, Function.iterate_succ_apply]
    rfl

theorem mem_pushBad_queue (l : List Sram) (n : Nat) : Sram.queue n ∈ pushBad l ↔ 1 ≤ n ∧ n < 16 ∧ Sram.queue (n - 1) ∈ l := by
  rw [pushBad, List.mem_filterMap]
  constructor
  · rintro ⟨x, hx, hy⟩
    cases x with
    | queue m =>
      dsimp only at hy
      split at hy
      · cases hy
        exact ⟨by omega, by omega, hx⟩
      · cases hy
    | _ => simp at hy
  · rintro ⟨h1, h2, h3⟩
    exact ⟨_, h3, by dsimp only; rw [if_pos (by omega), Nat.sub_add_cancel h1]⟩

theorem mem_pushBad_other {x : Sram} (hx : ∀ n, x ≠ .queue n) (l : List Sram) : x ∈ pushBad l ↔ x ∈ l := by
  rw [pushBad, List.mem_filterMap]
  constructor
  · rintro ⟨y, hy, h⟩
    cases y with
    | queue m =>
      dsimp only at h
      split at h
      · cases h
        exact absurd rfl (hx _)
      · cases h
    | _ => simp at h; subst h; exact hy
  · intro h
    refine ⟨x, h, ?_⟩
    cases x with
    | queue m => exact absurd rfl (hx m)
    | _ => rfl

theorem mem_pushBads_queue : ∀ (m : Nat) (l : List Sram) (n : Nat),
    Sram.queue n ∈ pushBad^[m] l ↔ m ≤ n ∧ (n < 16 ∨ m = 0) ∧ Sram.queue (n - m) ∈ l
  | 0, l, n => by simp
  | m + 1, l, n => by
    rw [Function.iterate_succ_apply, mem_pushBads_queue m, mem_pushBad_queue, show n - m - 1 = n - (m + 1) by omega]
    constructor
    · rintro ⟨h1, h2, h3, h4, h5⟩
      exact ⟨by omega, by omega, h5⟩
    · rintro ⟨h1, h2, h3⟩
      exact ⟨by omega, by omega, by omega, by omega, h3⟩

theorem mem_pushBads_other {x : Sram} (hx : ∀ n, x ≠ .queue n) : ∀ (m : Nat) (l : List Sram), x ∈ pushBad^[m] l ↔ x ∈ l
  | 0, _ => Iff.rfl
  | m + 1, l => by rw [Function.iterate_succ_apply, mem_pushBads_other hx m, mem_pushBad_other hx]

theorem pushEntry_zero (q : Vector QEntry 16) (e : QEntry) : (pushEntry q e)[0] = e := by simp [pushEntry]

theorem pushEntry_succ (q : Vector QEntry 16) (e : QEntry) {i : Nat} (hi : i + 1 < 16) : (pushEntry q e)[i + 1] = q[i] := by
  have h : vget q i QEntry.start = q[i] := vget_eq_getElem q ⟨i, by omega⟩ QEntry.start
  simp [pushEntry, h]

/-- What stood in the queue moves down by the pushes. -/
theorem pushEntries_old : ∀ (l : List Flying) (q : Vector QEntry 16) {j : Nat} (h : j + l.length < 16),
    (pushEntries q l)[j + l.length] = q[j]
  | [], _, _, _ => rfl
  | x :: l, q, j, h => by
    rw [List.length_cons] at h
    have ih := pushEntries_old l (pushEntry q ⟨x.tag, if x.ready then x.bits else 0, x.ready, x.rid⟩) (j := j + 1) (by omega)
    rw [pushEntry_succ _ _ (by omega)] at ih
    rw [← ih]
    simp only [List.length_cons, show j + (l.length + 1) = j + 1 + l.length by omega]
    rfl

/-- The n-th last of those pushed stands at place n. -/
theorem pushEntries_new : ∀ (l : List Flying) (q : Vector QEntry 16) {i : Nat} (hi : i < 16) {x : Flying},
    i < l.length → l[l.length - 1 - i]? = some x → (pushEntries q l)[i] = ⟨x.tag, if x.ready then x.bits else 0, x.ready, x.rid⟩
  | [], _, _, _, _, h, _ => absurd h (Nat.not_lt_zero _)
  | y :: l, q, i, hi, x, h, hx => by
    have e : pushEntries q (y :: l) = pushEntries (pushEntry q ⟨y.tag, if y.ready then y.bits else 0, y.ready, y.rid⟩) l := rfl
    rw [List.length_cons] at h
    by_cases hlast : i = l.length
    · subst hlast
      simp only [List.length_cons, show l.length + 1 - 1 - l.length = 0 by omega, List.getElem?_cons_zero, Option.some.injEq] at hx
      subst hx
      have h0 := pushEntries_old l (pushEntry q ⟨y.tag, if y.ready then y.bits else 0, y.ready, y.rid⟩) (j := 0) (by omega)
      rw [pushEntry_zero] at h0
      rw [← h0]
      simp only [Nat.zero_add]
      rfl
    · simp only [List.length_cons, show l.length + 1 - 1 - i = l.length - 1 - i + 1 by omega, List.getElem?_cons_succ] at hx
      exact (congrArg (fun v : Vector QEntry 16 => v[i]) e).trans (pushEntries_new l _ hi (by omega) hx)

/-! ### RESULT_PUSH -/

theorem State.frameOf_spec {s : State} {sid : Nat} {f : Frame} (h : s.frameOf sid = some f) : f.s = s := by
  simp only [State.frameOf, Option.bind_eq_some_iff, Option.map_eq_some_iff] at h
  obtain ⟨_, _, _, _, rfl⟩ := h
  rfl

theorem Ctx.mem_duePushes (c : Ctx) (x : Flying) : x ∈ c.duePushes ↔ x ∈ c.flying ∧ x.leafed = false ∧ x.due < c.icyc := by
  rw [Ctx.duePushes, mem_sortBy, List.mem_filter]
  simp

theorem Flying.before_iff (y z : Flying) :
    y.before z = true ↔ (y.due < z.due ∨ y.due = z.due ∧ y.slot ≤ z.slot) ∧ y.rid ≠ z.rid := by
  rw [Flying.before, Bool.and_eq_true, Flying.earlier_iff, bne_iff_ne]

/-- The context after its due operations are pushed. -/
def Ctx.pushed (c : Ctx) : Ctx := { c with
  fpst := fpstOr c.fpst (raisedBy c.duePushes)
  held := raiseHeld c.held (raisedBy c.duePushes)
  queue := pushEntries c.queue c.duePushes
  flying := (c.flying.map (·.passedAll c.duePushes)).filter fun x => x.leafed || c.icyc ≤ x.due
  bad := pushBad^[c.duePushes.length] c.bad }

theorem execResultPush_eq {sid : Nat} {s : State} {f : Frame} (hf : s.frameOf sid = some f) : execResultPush sid s
    = .next (Frame.put { f with
        s := { s with late := s.late ++ (f.c.duePushes.filterMap (·.disarm)).map fun k => .counter f.c.id (.disarm k) }
        c := f.c.pushed }) := by
  have hs := State.frameOf_spec hf
  have hmap : (f.c.duePushes.filterMap fun x => x.disarm.map fun k => LateWrite.counter f.c.id (.disarm k))
      = (f.c.duePushes.filterMap (·.disarm)).map fun k => .counter f.c.id (.disarm k) := by
    rw [List.map_filterMap]
  rw [execResultPush, hf]
  dsimp only
  rw [foldl_pushFlying, Frame.disarmLate, ← hmap, ← hs]
  rfl

theorem fpstOr_getLsbD (w : Word) (fl : Flags) {i : Nat} (hi : i < 64) :
    (fpstOr w fl).getLsbD i = (w.getLsbD i || fl.getLsbD i) := by
  rw [fpstOr, BitVec.getLsbD_or]
  simp [hi]

/-- An operation that stays in flight. -/
theorem Ctx.mem_pushed_flying (c : Ctx) (x : Flying) :
    x ∈ c.pushed.flying ↔ ∃ y ∈ c.flying, (y.leafed = true ∨ c.icyc ≤ y.due) ∧ y.passedAll c.duePushes = x := by
  have hkeep : ∀ y : Flying, ((y.passedAll c.duePushes).leafed || decide (c.icyc ≤ (y.passedAll c.duePushes).due)) = true
      ↔ y.leafed = true ∨ c.icyc ≤ y.due := fun y => by
    rw [Flying.passedAll_eq, Bool.or_eq_true, decide_eq_true_eq]
  rw [Ctx.pushed, List.mem_filter, List.mem_map]
  constructor
  · rintro ⟨⟨y, hy, rfl⟩, hk⟩
    exact ⟨y, hy, (hkeep y).1 hk, rfl⟩
  · rintro ⟨y, hy, hk, rfl⟩
    exact ⟨⟨y, hy, rfl⟩, (hkeep y).2 hk⟩

/-- Settles O48, by induction on the operations pushed. -/
theorem resultsReachTheQueue : Obligations.ResultsReachTheQueue := by
  intro sid s f hf hlen due after
  have hafter : ∀ y z : Flying, after y z ↔ y.before z = true := fun y z => (y.before_iff z).symm
  refine ⟨f.c.pushed, execResultPush_eq hf, rfl, ?_, ?_, fun x hx => (f.c.mem_duePushes x).1 hx,
    fun x h1 h2 h3 => (f.c.mem_duePushes x).2 ⟨h1, h2, h3⟩, fun n => ?_, fun x hx => mem_pushBads_other hx _ _,
    ⟨raisedBy due, fun i => raisedBy_getLsbD i due, rfl⟩, ?_, fun i => ⟨?_, ?_⟩, fun i hi => ?_, fun i h6 hi => ?_⟩
  · intro x hx
    obtain ⟨y, hy, hkeep, rfl⟩ := (f.c.mem_pushed_flying x).1 hx
    refine ⟨y, hy, hkeep, Flying.passedAll_eq due y, fun hl => Flying.passedAll_plain due y hl, fun hl => ⟨fun l hsub hall => ?_, fun i => ?_⟩⟩
    · rw [Flying.passedAll_since due y hl]
      have hfilter : l.filter y.before = l := List.filter_eq_self.2 fun z hz => (hafter y z).1 (hall z hz)
      have hle := (hsub.filter y.before).length_le
      rw [hfilter] at hle
      omega
    · rw [Flying.passedAll_clear i due y hl]
      simp only [hafter]
  · intro y hy hkeep
    exact ⟨_, (f.c.mem_pushed_flying _).2 ⟨y, hy, hkeep, rfl⟩, Flying.passedAll_eq due y⟩
  · refine (mem_pushBads_queue due.length f.c.bad n).trans ?_
    rw [List.length_eq_zero_iff]
  · intro i j hij hj
    have hi : i < due.length := hij.trans hj
    refine ⟨due[i], due[j], List.getElem?_eq_getElem hi, List.getElem?_eq_getElem hj, ?_⟩
    exact (Flying.earlier_iff _ _).1 (List.pairwise_iff_getElem.1 (earlier_pairwise _) i j hi hj hij)
  · intro x hi hx
    exact pushEntries_new due f.c.queue i.isLt hi hx
  · intro j hj
    have h := pushEntries_old due f.c.queue (j := j) (by omega)
    simp only [← hj] at h
    exact h
  · refine (Bool.eq_iff_iff.1 (fpstOr_getLsbD _ _ (by omega))).trans ?_
    rw [Bool.or_eq_true, raisedBy_getLsbD]
  · refine (fpstOr_getLsbD _ _ hi).trans ?_
    rw [BitVec.getLsbD_of_ge (raisedBy _) i h6, Bool.or_false]

end Sys2Proof.Machine
end

section
/-! PROOF. Window accesses that reach their banks (R130 to R132, R180, R266). -/

namespace Sys2Proof.Machine

/-! ### Bytes of a window -/

theorem Key.window_add (cl o i : Nat) : Key.window cl (o + i) = Key.window cl o + i := by
  simp only [Key.window]
  omega

/-- A write of a window leaves its bytes there and the rest of memory as it was. -/
theorem State.windowWrite_spec {s : State} (w : s.Canonical) (cl o : Nat) (bs : List Byte) :
    s.SameOutside (s.windowWrite cl o bs) (Key.window cl o) bs.length
    ∧ ∀ i (hi : i < bs.length), (s.windowWrite cl o bs).windowByte cl (o + i) = bs[i] := by
  have hmem : (s.windowWrite cl o bs).mem
      = Memory.write s.mem (Key.window cl o) (bs.zipIdx.map fun p => p.1 ^^^ s.windowMask cl (o + p.2)) := rfl
  refine ⟨fun j hj => ?_, fun i hi => ?_⟩
  · rw [hmem]
    exact Memory.get_write_outside w (by simpa using hj)
  · have hm : (s.windowWrite cl o bs).windowMask cl (o + i) = s.windowMask cl (o + i) := rfl
    rw [State.windowByte, hmem, hm, Key.window_add, Memory.get_write_inside w (by simpa using hi)]
    simp

theorem State.windowSeen_getD (s : State) (cl o n : Nat) (own : List HeldStore) {i : Nat} (hi : i < n) :
    (s.windowSeen cl o n own).getD i 0 = (heldByte own (Key.window cl (o + i))).getD (s.windowByte cl (o + i)) := by
  rw [State.windowSeen, rangeFrom_eq_map, List.map_map, List.getD_eq_getElem _ _ (by simpa using hi), List.getElem_map, List.getElem_range]
  rfl

theorem State.windowBytes_getD (s : State) (cl o n : Nat) {i : Nat} (hi : i < n) :
    (s.windowBytes cl o n).getD i 0 = s.windowByte cl (o + i) := by
  rw [State.windowBytes, rangeFrom_eq_map, List.map_map, List.getD_eq_getElem _ _ (by simpa using hi), List.getElem_map, List.getElem_range]
  rfl

/-! ### What reaches a context -/

/-- A context that differs at most in what atomics could be put back. -/
def Ctx.SameButUndo (x c : Ctx) : Prop :=
  c = { x with flying := c.flying }
    ∧ c.flying.map (fun z => { z with undo := [] }) = x.flying.map fun z : Flying => { z with undo := [] }

theorem Ctx.SameButUndo.trans {x y z : Ctx} (a : x.SameButUndo y) (b : y.SameButUndo z) : x.SameButUndo z := by
  obtain ⟨a1, a2⟩ := a
  obtain ⟨b1, b2⟩ := b
  exact ⟨by rw [a1] at b1; exact b1, b2.trans a2⟩

theorem Ctx.sameButUndo_refl (x : Ctx) : x.SameButUndo x := ⟨rfl, rfl⟩

theorem Ctx.forgetUndo_same (x : Ctx) (k n : Nat) : x.SameButUndo (x.forgetUndo k n) := by
  rw [Ctx.forgetUndo]
  split
  · exact x.sameButUndo_refl
  · exact ⟨rfl, by simp⟩

theorem Ctx.noteUndo_same (x : Ctx) (rid : Nat) (u : List (Nat × Byte × Byte)) : x.SameButUndo (x.noteUndo rid u) := by
  refine ⟨rfl, ?_⟩
  rw [Ctx.noteUndo, updateIf, List.map_map]
  refine List.map_congr_left fun z _ => ?_
  simp only [Function.comp]
  split <;> rfl

/-- What is delivered does not depend on what could be put back. -/
theorem Ctx.SameButUndo.deliver {x c : Ctx} (h : x.SameButUndo c) (rid : Nat) (tag : Tag) (v : Vec) :
    (x.deliver rid tag v).SameButUndo (c.deliver rid tag v) := by
  obtain ⟨h1, h2⟩ := h
  have comm : ∀ l : List Flying, (updateIf l (·.rid == rid) fun y => { y with tag := tag, bits := v }).map (fun z => { z with undo := [] })
      = updateIf (l.map fun z : Flying => { z with undo := [] }) (·.rid == rid) fun y => { y with tag := tag, bits := v } := fun l => by
    rw [updateIf, updateIf, List.map_map, List.map_map]
    refine List.map_congr_left fun z _ => ?_
    simp only [Function.comp]
    split <;> rfl
  refine ⟨?_, (comm _).trans ((congrArg (fun l => updateIf l _ _) h2).trans (comm _).symm)⟩
  rw [h1]
  rfl

theorem State.ctx?_mapCtxs (s : State) (g : Ctx → Ctx) (hg : ∀ c, (g c).id = c.id) (id : Nat) :
    State.ctx? { s with ctxs := s.ctxs.map g } id = (s.ctx? id).map g := by
  have hp : (fun c : Ctx => c.id == id) ∘ g = fun c => c.id == id := funext fun c => by rw [Function.comp, hg]
  rw [State.ctx?, List.find?_map, hp]
  rfl

theorem Ctx.forgetUndo_id (c : Ctx) (k n : Nat) : (c.forgetUndo k n).id = c.id := by
  rw [Ctx.forgetUndo]
  split <;> rfl

theorem State.deliver_ctx {s : State} {id rid : Nat} {tag : Tag} {v : Vec} {x : Ctx} (h : s.ctx? id = some x) :
    (s.deliver id rid tag v).ctx? id = some (x.deliver rid tag v) := by
  have hid : x.id = id := by simpa using List.find?_some h
  have e : s.deliver id rid tag v = State.setCtx { s with strands := updateIf s.strands (·.cur == id) fun t => t.deliver rid tag v }
      (x.deliver rid tag v) := by
    have hs : State.ctx? { s with strands := updateIf s.strands (·.cur == id) fun t => t.deliver rid tag v } id = some x := h
    rw [State.deliver, hs]
  have hput := State.ctx?_setCtx (s := { s with strands := updateIf s.strands (·.cur == id) fun t => t.deliver rid tag v })
    (c := x.deliver rid tag v) ⟨x, by rw [← hid] at h; exact h⟩
  rw [e, ← hid]
  exact hput

theorem State.deliver_rest (s : State) (id rid : Nat) (tag : Tag) (v : Vec) :
    (s.deliver id rid tag v).mem = s.mem ∧ (s.deliver id rid tag v).win = s.win ∧ (s.deliver id rid tag v).winFree = s.winFree := by
  rw [State.deliver]
  split <;> exact ⟨rfl, rfl, rfl⟩

theorem State.noteUndo_ctx {s : State} {id : Nat} (rid : Nat) (u : List (Nat × Byte × Byte)) {x : Ctx} (h : s.ctx? id = some x) :
    ∃ c, (s.noteUndo id rid u).ctx? id = some c ∧ x.SameButUndo c := by
  have e := s.ctx?_mapCtxs (fun c => if c.id == id then c.noteUndo rid u else c) (fun c => by split <;> rfl) id
  have hid : (x.id == id) = true := by simpa using List.find?_some h
  rw [h, Option.map_some, if_pos hid] at e
  exact ⟨_, e, x.noteUndo_same rid u⟩

/-! ### The accesses -/

/-- A window after the bytes that an access writes: what could be put back there is forgotten. -/
def State.forgotten (s : State) (k n : Nat) : State := { s with ctxs := s.ctxs.map fun c => c.forgetUndo k n }

theorem State.forgotten_ctx {s : State} {id : Nat} {x : Ctx} (k n : Nat) (h : s.ctx? id = some x) :
    ∃ c, (s.forgotten k n).ctx? id = some c ∧ x.SameButUndo c := by
  have e := s.ctx?_mapCtxs (fun c => c.forgetUndo k n) (fun c => c.forgetUndo_id k n) id
  rw [h, Option.map_some] at e
  exact ⟨_, e, x.forgetUndo_same k n⟩

section
variable {s : State} {a : WinAcc}

theorem State.performWindow_store {bs : List Byte} (h : a.op = .store bs) :
    s.performWindow a = (s.windowWrite a.cluster a.addr bs).forgotten (Key.window a.cluster a.addr) bs.length := by
  rw [State.performWindow, h]
  rfl

theorem State.performWindow_load {wide : Bool} {rid : Nat} {own : List HeldStore} (h : a.op = .load wide rid own) :
    s.performWindow a = s.deliver a.ctx rid 9
      ((loadedWord true (s.windowSeen a.cluster a.addr (if wide then 8 else 4) own)).zeroExtend 2048) := by
  rw [State.performWindow, h]

theorem State.performWindow_vload {rid : Nat} {tag : Tag} {own : List HeldStore} (h : a.op = .vload rid tag own) :
    s.performWindow a = s.deliver a.ctx rid tag (vecOfBytes (s.windowSeen a.cluster a.addr 256 own)) := by
  rw [State.performWindow, h]

/-- The state in which an atomic has written. -/
def State.atomicWritten (s : State) (a : WinAcc) (new : Word) (rid : Nat) : State :=
  let t := s.windowWrite a.cluster a.addr (wordBytes new)
  if s.killable a.ctx rid then t else t.forgotten (Key.window a.cluster a.addr) 8

theorem State.performWindow_atomic {o : AtomicOp} {b c : Word} {rid : Nat} (h : a.op = .atomic o b c rid) :
    let old := loadedWord false (s.windowBytes a.cluster a.addr 8)
    let k := Key.window a.cluster a.addr
    let t := s.atomicWritten a (atomicNew o old b c) rid
    s.performWindow a = (t.deliver a.ctx rid 9 (old.zeroExtend 2048)).noteUndo a.ctx rid
      (undoBytes k (Memory.read s.mem k 8) (Memory.read t.mem k 8)) := by
  rw [State.performWindow, h]
  rfl

theorem State.atomicWritten_rest (new : Word) (rid : Nat) :
    (s.atomicWritten a new rid).mem = (s.windowWrite a.cluster a.addr (wordBytes new)).mem
    ∧ (s.atomicWritten a new rid).win = s.win ∧ (s.atomicWritten a new rid).winFree = s.winFree := by
  rw [State.atomicWritten]
  split <;> exact ⟨rfl, rfl, rfl⟩

theorem State.atomicWritten_ctx (new : Word) (rid : Nat) {x : Ctx} (h : s.ctx? a.ctx = some x) :
    ∃ c, (s.atomicWritten a new rid).ctx? a.ctx = some c ∧ x.SameButUndo c := by
  rw [State.atomicWritten]
  split
  · exact ⟨x, h, x.sameButUndo_refl⟩
  · exact State.forgotten_ctx (s := s.windowWrite a.cluster a.addr (wordBytes new)) _ _ h

theorem State.performWindow_win (s : State) (a : WinAcc) : (s.performWindow a).win = s.win := by
  cases h : a.op with
  | load wide rid own => rw [State.performWindow_load h]; exact (s.deliver_rest ..).2.1
  | vload rid tag own => rw [State.performWindow_vload h]; exact (s.deliver_rest ..).2.1
  | store bs => rw [State.performWindow_store h]; rfl
  | atomic o b c rid =>
    rw [State.performWindow_atomic h]
    exact (State.deliver_rest ..).2.1.trans (State.atomicWritten_rest ..).2.1

end

theorem State.foldl_performWindow_win : ∀ (l : List WinAcc) (s : State), (l.foldl State.performWindow s).win = s.win
  | [], _ => rfl
  | a :: l, s => (foldl_performWindow_win l (s.performWindow a)).trans (s.performWindow_win a)

theorem State.mem_dueAccesses {s : State} {cl : Nat} {a : WinAcc} (h : a ∈ s.dueAccesses cl) :
    a ∈ s.win ∧ a.cluster = cl ∧ a.due ≤ s.cycle := by
  simp only [State.dueAccesses, List.mem_flatten, List.mem_map] at h
  obtain ⟨_, ⟨p, _, rfl⟩, ha⟩ := h
  obtain ⟨hw, hc⟩ := List.mem_filter.1 (List.mem_filter.1 ha).1
  rw [Bool.and_eq_true, beq_iff_eq, decide_eq_true_eq] at hc
  exact ⟨hw, hc.1, hc.2⟩

/-- What a window reads as depends on memory and on its ways. -/
theorem State.windowByte_congr {s t : State} (hm : t.mem = s.mem) (hw : t.winFree = s.winFree) (cl o : Nat) :
    t.windowByte cl o = s.windowByte cl o := by
  rw [State.windowByte, State.windowMask, hm, hw]
  rfl

theorem wordBytes_getElem (w : Word) {i : Nat} (hi : i < (wordBytes w).length) : (wordBytes w)[i] = byteOf w i :=
  bytesLE_getElem_byteOf w 8 i hi

/-- Settles O49: each access alone, by what it is. -/
theorem windowAccessesPerform : Obligations.WindowAccessesPerform := by
  intro cl s w gets
  have e : exec (.windowAccessPerform cl) s = execWindowAccessPerform cl s := rfl
  refine ⟨_, e, rfl, fun a ha => State.mem_dueAccesses ha, fun a ha hcl => ?_, fun a hdue _ => ?_⟩
  · obtain ⟨_, hc⟩ := List.mem_filter.1 ha
    simp [hcl] at hc
    exact hc
  · have hcl : a.cluster = cl := (State.mem_dueAccesses (by rw [hdue]; exact List.mem_singleton_self a)).2.1
    subst hcl
    rw [hdue, List.foldl_cons, List.foldl_nil]
    set win' := (s.performWindow a).win.filter fun b => !(b.cluster == a.cluster && decide (b.due ≤ s.cycle)) with hwin
    clear_value win'
    refine ⟨fun bs hop _ => ?_, fun o b c rid hop => ?_, fun wide rid own hop => ?_, fun rid tag own hop => ?_⟩
    · obtain ⟨hout, hin⟩ := s.windowWrite_spec w a.cluster a.addr bs
      rw [State.performWindow_store hop]
      exact ⟨hout, fun i => hin i i.isLt⟩
    · set old := loadedWord false (s.windowBytes a.cluster a.addr 8) with hold
      set new := atomicNew o old b c
      have hnew : (wordBytes new).length = 8 := bytesLE_length _ _
      obtain ⟨hout, hin⟩ := s.windowWrite_spec w a.cluster a.addr (wordBytes new)
      obtain ⟨hmem, _, hfree⟩ := State.atomicWritten_rest (s := s) (a := a) new rid
      rw [State.performWindow_atomic hop]
      set t := s.atomicWritten a new rid
      obtain ⟨dmem, _, dfree⟩ := t.deliver_rest a.ctx rid 9 (old.zeroExtend 2048)
      refine ⟨old, new, atomicRule_atomicNew o old b c, fun j hj => ?_, fun i hi => ⟨?_, ?_⟩, fun x hx => ?_⟩
      · have h := hout j (by rw [hnew]; exact hj)
        rw [← hmem, ← dmem] at h
        exact h
      · rw [hold, (loadedWord_bytes (n := 8) (by simp) false (by rw [State.windowBytes, rangeFrom_eq_map]; simp)).1 i hi,
          State.windowBytes_getD _ _ _ _ hi]
      · have h := hin i (by rw [hnew]; exact hi)
        rw [wordBytes_getElem] at h
        rw [← h]
        exact State.windowByte_congr (dmem.trans hmem) (dfree.trans hfree) _ _
      · obtain ⟨y, hy, hsame⟩ := State.atomicWritten_ctx (s := s) (a := a) new rid hx
        obtain ⟨c', hc', hsame'⟩ := State.noteUndo_ctx rid (undoBytes (Key.window a.cluster a.addr)
          (Memory.read s.mem (Key.window a.cluster a.addr) 8) (Memory.read t.mem (Key.window a.cluster a.addr) 8))
          (State.deliver_ctx (rid := rid) (tag := 9) (v := old.zeroExtend 2048) hy)
        exact ⟨c', hc', (hsame.deliver rid 9 _).trans hsame'⟩
    · set n := if wide then 8 else 4 with hn
      have hn4 : n ∈ [1, 2, 4, 8] := by rw [hn]; cases wide <;> simp
      obtain ⟨hbytes, hsign⟩ := loadedWord_bytes hn4 true (bs := s.windowSeen a.cluster a.addr n own)
        (by rw [State.windowSeen, rangeFrom_eq_map]; simp)
      rw [State.performWindow_load hop]
      refine ⟨loadedWord true (s.windowSeen a.cluster a.addr n own), ?_, fun i hi => ?_, fun hw i h32 h64 => ?_, fun x hx => ?_⟩
      · intro k
        exact congrArg (fun m => Memory.get m k) (s.deliver_rest ..).1
      · rw [hbytes i hi, State.windowSeen_getD _ _ _ _ _ hi]
      · have h4 : n = 4 := by rw [hn, hw]; rfl
        have h31 : 8 * n - 1 = 31 := by omega
        rw [hsign (fun _ => by omega) i (by omega) h64, h31, Bool.true_and]
      · exact State.deliver_ctx hx
    · rw [State.performWindow_vload hop]
      refine ⟨vecOfBytes (s.windowSeen a.cluster a.addr 256 own), fun k => ?_, fun i hi => ?_, fun x hx => State.deliver_ctx hx⟩
      · exact congrArg (fun m => Memory.get m k) (s.deliver_rest ..).1
      · rw [vecOfBytes, byteOf_numLE (by omega), State.windowSeen_getD _ _ _ _ _ hi]

end Sys2Proof.Machine
end

section
/-! SUPPORT. What rounds of agreements leave alone, and frames of strands (R136, R355, R375 to R384). -/

namespace Sys2Proof.Machine

/-! ### Memory, contexts and the numbers of the strands -/

/-- What no round of an agreement and no copy changes: graphs, tasks, optical ports, boot code and measurements. -/
def State.device (s : State) : Vector Graph 16 × List Task × Vector OptPort 64 × Word × List (BitVec 256) :=
  (s.graphs, s.tasks, s.optical, s.bootst, s.measure)

/-- `t` has the memory and the contexts of `s`, strands of the same numbers, and the device as it is. -/
def State.Beside (s t : State) : Prop :=
  t.mem = s.mem ∧ t.ctxs = s.ctxs ∧ t.strands.map (·.sid) = s.strands.map (·.sid) ∧ t.device = s.device

theorem State.Beside.refl (s : State) : s.Beside s := ⟨rfl, rfl, rfl, rfl⟩

theorem State.Beside.trans {s t u : State} (a : s.Beside t) (b : t.Beside u) : s.Beside u :=
  ⟨b.1.trans a.1, b.2.1.trans a.2.1, b.2.2.1.trans a.2.2.1, b.2.2.2.trans a.2.2.2⟩

/-- A run over a list whose steps leave them alone. -/
theorem State.foldl_beside {α : Type} {g : State → α → State} (hg : ∀ (s : State) (a : α), s.Beside (g s a)) :
    ∀ (l : List α) (s : State), s.Beside (l.foldl g s)
  | [], s => .refl s
  | a :: l, s => (hg s a).trans (foldl_beside hg l (g s a))

theorem find?_key_isSome {α : Type} {key : α → Nat} {l m : List α} (h : m.map key = l.map key) (n : Nat) :
    (m.find? fun x => key x == n).isSome = (l.find? fun x => key x == n).isSome := by
  have e : ∀ k : List α, (k.find? fun x => key x == n).isSome = (k.map key).contains n := fun k => by
    rw [Bool.eq_iff_iff, List.find?_isSome]
    simp
  rw [e, e, h]

theorem State.Beside.strand {s t : State} (h : s.Beside t) (sid : Nat) : (t.strand? sid).isSome = (s.strand? sid).isSome :=
  find?_key_isSome h.2.2.1 sid

/-! ### Rounds (R375 to R384) -/

theorem State.send_beside (s : State) (m : Nat) (p : Packet) : s.Beside (s.send m p) := by
  rw [State.send]
  split <;> exact ⟨rfl, rfl, rfl, rfl⟩

theorem State.setRoot_beside (s : State) (r : AgRoot) : s.Beside (s.setRoot r) := ⟨rfl, rfl, rfl, rfl⟩

theorem State.discardRoot_beside (s : State) (gid : Nat) : s.Beside (s.discardRoot gid) := ⟨rfl, rfl, rfl, rfl⟩

theorem State.sendAnswer_beside (s : State) (c : Contribution) (v : Bool) (n : Nat) : s.Beside (s.sendAnswer c v n) := by
  rw [State.sendAnswer]
  split
  · exact ⟨rfl, rfl, rfl, rfl⟩
  · exact s.send_beside _ _

theorem State.sendStatus_beside (s : State) (c : Contribution) (n : Nat) : s.Beside (s.sendStatus c n) :=
  s.sendAnswer_beside c _ n

theorem State.answerAll_beside (s : State) (l : List Contribution) (v : Bool) (n : Nat) : s.Beside (s.answerAll l v n) :=
  State.foldl_beside (fun s c => s.sendAnswer_beside c v n) l s

theorem State.tellRound_beside (s : State) (r : AgRoot) : s.Beside (s.tellRound r) :=
  State.foldl_beside (fun s m => s.send_beside m _) _ s

theorem State.setPm_beside (s : State) (gid : Nat) (on : Bool) : s.Beside (s.setPm gid on) :=
  ⟨rfl, rfl, List.map_map .., rfl⟩

theorem State.tellPm_beside (s : State) (r : AgRoot) : s.Beside (s.tellPm r) :=
  (s.setPm_beside r.gid _).trans (State.tellRound_beside _ r)

theorem State.Beside.fresh {s t : State} (h : s.Beside t) (n : Nat) : s.Beside { t with fresh := n } := h

theorem State.answered_beside (s : State) (l : List Contribution) (v : Bool) (n : Nat) (r : AgRoot) :
    s.Beside ((s.answerAll l v n).setRoot r) := (s.answerAll_beside l v n).trans (State.setRoot_beside _ r)

theorem State.resolveRoot_beside (s : State) (r : AgRoot) (forced : Option Nat) : s.Beside (s.resolveRoot r forced).1 := by
  unfold State.resolveRoot
  dsimp only
  split
  · exact (s.answered_beside _ _ _ _).fresh _
  · exact ((s.answered_beside _ _ _ _).trans (State.tellRound_beside _ _)).fresh _

theorem State.countContribution_beside (s : State) (r : AgRoot) (c : Contribution) : s.Beside (s.countContribution r c).1 := by
  rw [State.countContribution]
  dsimp only
  split
  · exact s.sendAnswer_beside c _ _
  · exact .refl s

theorem State.takeOne_beside (s : State) (c : Contribution) : s.Beside (s.takeOne c).1 := by
  rw [State.takeOne]
  dsimp only
  generalize hr : (if ((s.root? c.gid).getD (AgRoot.start c.gid)).first.isSome then _ else _ : AgRoot) = r
  have hcount := (s.countContribution_beside r c).trans (State.setRoot_beside _ (s.countContribution r c).2)
  split
  · exact (s.setRoot_beside r).trans (State.sendStatus_beside _ _ _)
  split
  · exact s.setRoot_beside _
  split
  · exact (s.setRoot_beside r).trans (State.sendStatus_beside _ _ _)
  split
  · exact ⟨rfl, rfl, rfl, rfl⟩
  split
  · exact hcount.trans (State.resolveRoot_beside _ _ _)
  · dsimp only
    split
    · exact hcount.trans (State.tellRound_beside _ _)
    · exact hcount

theorem State.takeContributions_beside : ∀ (n : Nat) (l : List Contribution) (s : State), s.Beside (State.takeContributions n l s)
  | 0, _, _ => ⟨rfl, rfl, rfl, rfl⟩
  | _ + 1, [], s => .refl s
  | n + 1, c :: l, s => ((s.takeOne_beside c).trans (State.discardRoot_beside _ _)).trans
      (takeContributions_beside n (l ++ (s.takeOne c).2) _)

theorem State.settleRoot_beside (s : State) (gid : Nat) : s.Beside (s.settleRoot gid) := by
  rw [State.settleRoot]
  split
  · exact .refl s
  · split
    · exact ((s.resolveRoot_beside _ none).trans (State.discardRoot_beside _ gid)).trans (State.takeContributions_beside _ _ _)
    · exact s.discardRoot_beside gid

theorem State.noteRoot_beside (s : State) (r : AgRoot) (gid : Nat) (told : Bool) :
    s.Beside ((if told then s.setRoot r else (s.setRoot r).tellPm r).settleRoot gid) := by
  refine State.Beside.trans ?_ (State.settleRoot_beside _ gid)
  split
  · exact s.setRoot_beside r
  · exact (s.setRoot_beside r).trans (State.tellPm_beside _ r)

theorem State.rootLeave_beside (s : State) (gid count midx : Nat) (out : Bool) : s.Beside (s.rootLeave gid count midx out) := by
  rw [State.rootLeave]
  exact s.noteRoot_beside _ gid _

theorem State.leaveSlot_beside (s : State) (a : AgSlot) : s.Beside (s.leaveSlot a) := by
  rw [State.leaveSlot]
  split
  · exact s.rootLeave_beside _ _ _ _
  · exact s.send_beside _ _

theorem State.leaveGroups_beside (s : State) (t : Strand) : s.Beside (s.leaveGroups t) :=
  State.foldl_beside State.leaveSlot_beside _ s

end Sys2Proof.Machine
end

section
/-! PROOF. The events of strands, of late elements and of held operations (R44, R64, R136, R137, R146 to R156, R183 to R187, R355, R387). -/

namespace Sys2Proof.Machine

/-! ### Frames by a strand's number -/

theorem State.frameOf_parts {s : State} {sid : Nat} {f : Frame} (h : s.frameOf sid = some f) :
    f.s = s ∧ s.strand? sid = some f.t ∧ f.t.sid = sid ∧ s.ctx? f.t.cur = some f.c ∧ f.c.id = f.t.cur := by
  simp only [State.frameOf, Option.bind_eq_some_iff, Option.map_eq_some_iff] at h
  obtain ⟨t, ht, c, hc, rfl⟩ := h
  exact ⟨rfl, ht, by simpa using List.find?_some ht, hc, by simpa using List.find?_some hc⟩

theorem Frame.put_strand {f : Frame} (h : ∃ t, f.s.strand? f.t.sid = some t) : f.put.strand? f.t.sid = some f.t :=
  State.strand?_setStrand h

theorem State.strand?_sid {s : State} {sid : Nat} {t : Strand} (h : s.strand? sid = some t) : t.sid = sid := by
  simpa using List.find?_some h

theorem State.ctx?_id {s : State} {id : Nat} {c : Ctx} (h : s.ctx? id = some c) : c.id = id := by
  simpa using List.find?_some h

/-- Units that are taken over one by one. -/
theorem Frame.foldl_own_noted : ∀ (us : List TileUnit) (f : Frame), f.Noted (us.foldl Frame.own f)
  | [], f => .refl f
  | u :: us, f => (f.own_noted u).trans (foldl_own_noted us (f.own u))

theorem Frame.own_tiles (f : Frame) (u : TileUnit) : f.own u = { f with s := { f.s with tiles := (f.own u).s.tiles } } := by
  rw [Frame.own]
  split <;> rfl

theorem Frame.foldl_own_tiles : ∀ (us : List TileUnit) (f : Frame),
    us.foldl Frame.own f = { f with s := { f.s with tiles := (us.foldl Frame.own f).s.tiles } }
  | [], _ => rfl
  | u :: us, f => by
    have h := foldl_own_tiles us (f.own u)
    rw [List.foldl_cons, h, f.own_tiles u]

/-! ### The windowed registers (R135 to R137) -/

/-- Words set one behind the other, wrapping round the ring. -/
theorem foldl_vset_ring (base : Nat) : ∀ (ws : List Word) (k : Nat) (r : Vector Word 256), k + ws.length ≤ 256 → ∀ n : Fin 256,
    ((ws.zipIdx k).foldl (fun r p => vset r ((base + p.2) % 256) p.1) r)[n]
      = if k ≤ (n + 256 - base % 256) % 256 ∧ (n + 256 - base % 256) % 256 < k + ws.length
        then ws.getD ((n + 256 - base % 256) % 256 - k) 0 else r[n]
  | [], k, r, _, n => by
    simp only [List.zipIdx_nil, List.foldl_nil, List.length_nil, Nat.add_zero]
    rw [if_neg (by omega)]
  | w :: ws, k, r, h, n => by
    rw [List.length_cons] at h
    have hset : (vset r ((base + k) % 256) w)[n] = if (n + 256 - base % 256) % 256 = k then w else r[n] := by
      have hv : vset r ((base + k) % 256) w = r.set ((base + k) % 256) w (by omega) :=
        vset_eq_set r ⟨(base + k) % 256, by omega⟩ w
      rw [hv, Fin.getElem_fin, Vector.getElem_set]
      have hn := n.isLt
      by_cases hk : (base + k) % 256 = n
      · rw [if_pos hk, if_pos (by omega)]
      · rw [if_neg hk, if_neg (by omega)]
        rfl
    rw [List.zipIdx_cons, List.foldl_cons, foldl_vset_ring base ws (k + 1) _ (by omega) n, hset, List.length_cons]
    by_cases h1 : (n + 256 - base % 256) % 256 = k
    · rw [if_neg (by omega), if_pos h1, if_pos (by omega), h1, Nat.sub_self]
      rfl
    · by_cases h2 : k + 1 ≤ (n + 256 - base % 256) % 256 ∧ (n + 256 - base % 256) % 256 < k + 1 + ws.length
      · rw [if_pos h2, if_pos (by omega), show (n + 256 - base % 256) % 256 - k = (n + 256 - base % 256) % 256 - (k + 1) + 1 by omega]
        rfl
      · rw [if_neg h2, if_neg h1, if_neg (by omega)]

theorem Ctx.setPair_spec (c : Ctx) (e : Nat) {ws : List Word} (hw : ws.length = 16) :
    c.setPair e ws = { c with ring := (c.setPair e ws).ring, bad := (c.setPair e ws).bad }
    ∧ (∀ x, x ∈ (c.setPair e ws).bad ↔ x ∈ c.bad ∧ ∀ n, n < 16 → x ≠ .ring ((16 * e + n) % 256))
    ∧ ∀ n : Fin 256, (c.setPair e ws).ring[n] = if (n + 256 - 16 * e % 256) % 256 < 16
        then ws.getD ((n + 256 - 16 * e % 256) % 256) 0 else c.ring[n] := by
  refine ⟨rfl, fun x => ?_, fun n => ?_⟩
  · rw [Ctx.setPair, Ctx.mend, List.mem_filter, pairPlaces]
    simp only [Bool.not_eq_true', List.contains_eq_mem, decide_eq_false_iff_not, List.mem_map, List.mem_range, not_exists, not_and]
    exact and_congr_right fun _ => forall_congr' fun n => forall_congr' fun _ => ⟨Ne.symm, Ne.symm⟩
  · have h := foldl_vset_ring (16 * e) ws 0 c.ring (by omega) n
    simp only [Nat.zero_le, true_and, Nat.zero_add, Nat.sub_zero, hw] at h
    exact h

theorem wordsOf_length : ∀ (n : Nat) (bs : List Byte), (wordsOf n bs).length = n
  | 0, _ => rfl
  | n + 1, bs => congrArg (· + 1) (wordsOf_length n (bs.drop 8))

/-! ### Retirement (R30, R44) -/

theorem State.foldl_release_strands : ∀ (l : List Nat) (s : State),
    (l.foldl (fun s k => s.release (.counter k)) s).strands = s.strands
  | [], _ => rfl
  | k :: l, s => foldl_release_strands l (s.release (.counter k))

/-- A strand at its retirement. -/
def Strand.atRest (t : Strand) : Strand := { t with
  life := .retired
  k2 := []
  k2wait := []
  k3 := []
  armed := []
  waits := none
  bar := none
  ags := t.ags.map fun a => { a with joined := false, out := false } }

theorem State.retireStrand_strand {s : State} {sid : Nat} {t : Strand} (ht : s.strand? sid = some t) :
    (s.retireStrand t).strand? sid = some t.atRest := by
  have hsid : t.sid = sid := State.strand?_sid ht
  have hkept : ∃ u, (t.armed.foldl (fun s k => s.release (.counter k)) (s.leaveGroups t)).strand? t.atRest.sid = some u := by
    refine Option.isSome_iff_exists.1 ?_
    have h := (s.leaveGroups_beside t).strand sid
    rw [ht] at h
    rw [State.strand?, State.foldl_release_strands]
    change ((s.leaveGroups t).strand? t.sid).isSome = true
    rw [hsid, h]
    rfl
  rw [← hsid]
  exact State.strand?_setStrand hkept

/-- A strand that no barrier holds stays as it is when barriers are released. -/
theorem State.releaseBarriers_idle {s : State} {task sid : Nat} {t : Strand} (ht : s.strand? sid = some t) (hbar : t.bar = none) :
    (s.releaseBarriers task).strand? sid = some t := by
  have step : ∀ (l : List Nat) (s : State), s.strand? sid = some t → (l.foldl (fun s n =>
      if s.barrierFull task n then
        { s with strands := updateIf s.strands (fun t => t.task == task && t.bar == some n) (·.leaveBarrier s.cycle) }
      else s) s).strand? sid = some t := by
    intro l
    induction l with
    | nil => exact fun _ h => h
    | cons n l ih =>
      intro s h
      refine ih _ ?_
      dsimp only
      split
      · have e := State.strand?_map (p := fun t => if t.task == task && t.bar == some n then t.leaveBarrier s.cycle else t)
          (fun t => by split <;> rfl) h
        rw [if_neg (by simp [hbar])] at e
        exact e
      · exact h
  exact step _ s ht

/-! ### Events of a strand -/

section
variable {s : State} {sid : Nat} {t : Strand}

theorem State.delivered_some {n : Nat} : s.delivered (some n) = decide (n = s.cur.toNat) := by
  rw [Bool.eq_iff_iff]
  simp [State.delivered]

theorem State.delivered_of {ver : Option Nat} (h : ∀ n, ver = some n → n = s.cur.toNat) : s.delivered ver = true := by
  cases ver with
  | none => rfl
  | some n => rw [State.delivered_some, h n rfl, decide_eq_true rfl]

theorem execCbxReloadEnd_of (ht : s.strand? sid = some t) (h : t.cbxTill ≠ 0) :
    execCbxReloadEnd sid s = .next (s.setStrand { t with cbank := reloadBank t.const t.cbx, cbxTill := 0 }) := by
  rw [execCbxReloadEnd, ht]
  exact if_neg h

theorem execSpillWriteComplete_of (ht : s.strand? sid = some t) :
    execSpillWriteComplete sid s = .next (s.setStrand { t with spilling := t.spilling.drop 1 }).marked := by
  rw [execSpillWriteComplete, ht]
  rfl

theorem execStallEnd_of {w : WaitOn} (ht : s.strand? sid = some t) (hw : t.waits = some w) (h : w.isStall = true) :
    execStallEnd sid s = .next (s.setStrand { t with waits := none }).marked := by
  rw [execStallEnd, ht]
  dsimp only
  rw [hw]
  exact if_pos h

theorem execTkpostDeliver_of {p : Nat × Nat × Word} {r : Strand} (ht : s.strand? sid = some t) (hp : s.duePost t = some p)
    (hr : (s.setStrand { t with posts := t.posts.erase p }).receiver t.task p.2.1 = some r) :
    execTkpostDeliver sid s = .next (((s.setStrand { t with posts := t.posts.erase p }).setStrand { r with
      k3 := r.k3 ++ [p.2.2] }).progress t.task) := by
  rw [execTkpostDeliver, ht]
  dsimp only
  rw [hp]
  dsimp only
  rw [hr]

theorem execAgexcuseAck_stale {ver : Option Nat} (ht : s.strand? sid = some t) (h : s.delivered ver = false) :
    execAgexcuseAck ⟨sid, ver⟩ s = .next s.marked := by
  rw [execAgexcuseAck]
  dsimp only
  rw [ht]
  dsimp only
  rw [h]
  rfl

theorem execAgexcuseAck_of {ver : Option Nat} {rmod gid midx : Nat} (ht : s.strand? sid = some t) (h : s.delivered ver = true)
    (hreq : t.req = .open (.excuse rmod gid midx)) :
    execAgexcuseAck ⟨sid, ver⟩ s = .next (if rmod = s.modId
      then (s.setStrand { t with req := .done (.excuse rmod gid midx) }).rootExcuse gid midx
      else s.setStrand { t with req := .done (.excuse rmod gid midx) }).marked := by
  rw [execAgexcuseAck]
  dsimp only
  rw [ht]
  dsimp only
  rw [h, hreq]
  dsimp only
  by_cases hm : rmod = s.modId
  · rw [if_pos hm]
    exact if_pos hm
  · rw [if_neg hm]
    exact if_neg hm

theorem execFenceComplete_of {k w : Nat} (ht : s.strand? sid = some t) (hreq : t.req = .open (.fence k w))
    (h : k = 1 ∨ s.acquireReady (dieOf t.ptn) = true) : execFenceComplete sid s
      = .next ((if k = 0 then s else s.releaseDie (dieOf t.ptn)).setStrand { t with req := .done (.fence k w) }).marked := by
  rw [execFenceComplete, ht]
  dsimp only
  rw [hreq]
  refine if_neg fun hn => ?_
  rcases h with h | h
  · exact hn.1 h
  · simp [h] at hn

theorem execK2TokenPost_of {w : Word} {l : List Word} (ht : s.strand? sid = some t) (hw : t.k2wait = w :: l)
    (hlife : t.life = .running) (hroom : t.k2.length + t.poppedHere 2 < 16) : execK2TokenPost sid s
      = .next ((s.setStrand { t with k2 := t.k2 ++ [w], k2wait := l }).progress t.task).marked := by
  rw [execK2TokenPost, ht]
  dsimp only
  rw [hw]
  dsimp only
  rw [if_neg (by simp [hlife])]
  exact if_pos (decide_eq_true hroom)

theorem execRetireComplete_of {k : Task} (ht : s.strand? sid = some t) (hd : s.drained t = true)
    (hk : ((s.retireStrand t).releaseBarriers t.task).task? t.task = some k) : execRetireComplete sid s
      = .next (if (((s.retireStrand t).releaseBarriers t.task).taskStrands k.tid).all (·.life == .retired)
        then ((s.retireStrand t).releaseBarriers t.task).endDone k else (s.retireStrand t).releaseBarriers t.task).marked := by
  rw [execRetireComplete, ht]
  dsimp only
  rw [hd, Bool.not_true, if_neg Bool.false_ne_true, hk]
  dsimp only
  split <;> rfl

end

theorem State.rootExcuse_of_none {s : State} {gid midx : Nat} (h : (s.root? gid).bind AgRoot.members = none) :
    s.rootExcuse gid midx = s := by
  rw [State.rootExcuse, h]

/-! ### Events of a strand and the context that it runs -/

section
variable {s : State} {sid : Nat} {f : Frame}

theorem execSlackExhausted_stalls (hf : s.frameOf sid = some f) (h : f.starved = true)
    (hn : ∀ x ∈ f.c.held, ∀ y ∈ x.args, y.isColumn = false) :
    execSlackExhausted sid s = .next (s.setStrand { f.t with waits := some .element }).marked := by
  have hfind : f.c.held.find? (fun x => x.args.any (·.isColumn)) = none := by
    rw [List.find?_eq_none]
    intro x hx
    rw [Bool.not_eq_true, List.any_eq_false]
    intro y hy
    rw [Bool.not_eq_true]
    exact hn x hx y hy
  rw [execSlackExhausted, hf]
  dsimp only
  rw [h, hfind]
  rfl

theorem execSlackExhausted_traps {x : Held} (hf : s.frameOf sid = some f) (h : f.starved = true)
    (hx : f.c.held.find? (fun x => x.args.any (·.isColumn)) = some x) :
    execSlackExhausted sid s = .next (f.heldTrap x ⟨1, 0, 0, 0, 0, none⟩).marked := by
  rw [execSlackExhausted, hf]
  dsimp only
  rw [h, hx]
  rfl

theorem execFillArrive_of {e : Nat} {l : List (Nat × Nat)} (hf : s.frameOf sid = some f) (hreq : f.t.req = .open (.fill e))
    (hw : s.rangeWaits (f.c.pairAddr e) 128 = false) (hl : s.tileRange f.t.ptn .read (f.c.pairAddr e) 128 = .ok l)
    (hb : s.badPieces l = false) : execFillArrive sid s
      = .next (Frame.put { f with
          s := s.tileHasRead f.t.ptn (f.c.pairAddr e) 128 l
          t := { f.t with req := .done (.fill e) }
          c := f.c.setPair e (wordsOf 16 (s.readPieces l)) }).marked := by
  rw [execFillArrive, hf]
  dsimp only
  rw [hreq]
  dsimp only
  rw [hw, hl]
  dsimp only
  rw [hb]
  rfl

theorem execCsyncSnapshot_of {l : List (Nat × Nat)} (hf : s.frameOf sid = some f) (hreq : f.t.req = .open .csync)
    (hw : s.rangeWaits f.t.cseg (8 * f.t.clen) = false) (hl : s.tileRange f.t.ptn .read f.t.cseg (8 * f.t.clen) = .ok l)
    (hb : s.badPieces l = false) : execCsyncSnapshot sid s
      = .next ((s.tileHasRead f.t.ptn f.t.cseg (8 * f.t.clen) l).setStrand { f.t with
          req := .done .csync
          const := wordsOf f.t.clen (s.readPieces l)
          cbank := reloadBank (wordsOf f.t.clen (s.readPieces l)) f.t.cbx
          cbxTill := 0 }).marked := by
  rw [execCsyncSnapshot, hf]
  dsimp only
  rw [if_neg (by simp [hreq, hw]), hl]
  dsimp only
  rw [hb]
  rfl

end

/-! ### HELD_STORE_DRAIN (R387) -/

/-- A strand behind its oldest confirmed store, its units taken over. -/
def Frame.drainTurn (f : Frame) (x : HeldStore) (l : List HeldStore) : Frame :=
  (x.units f.c.id).foldl Frame.own { f with t := { f.t with
    drainGo := f.s.cycle + 1, drain := l, drainFirst := f.t.drainFirst && !l.isEmpty } }

theorem execHeldStoreDrain_performs {s : State} {sid : Nat} {f : Frame} {x : HeldStore} {l : List HeldStore}
    (hf : s.frameOf sid = some f) (hd : f.t.drain = x :: l) (hu : ∀ u ∈ x.units f.c.id, f.atHand u = true) :
    execHeldStoreDrain sid s = .next ((f.drainTurn x l).drainOne x).takeConfirmed := by
  have hnone : (x.units f.c.id).filter (fun u => !f.atHand u) = [] := by
    rw [List.filter_eq_nil_iff]
    intro u h
    simp [hu u h]
  rw [execHeldStoreDrain, hf]
  dsimp only
  rw [hd]
  dsimp only
  rw [hnone]
  rfl

theorem execHeldStoreDrain_waits {s : State} {sid : Nat} {f : Frame} {x : HeldStore} {l : List HeldStore}
    (hf : s.frameOf sid = some f) (hd : f.t.drain = x :: l) (hu : ∃ u ∈ x.units f.c.id, f.atHand u = false) :
    execHeldStoreDrain sid s = .next (((x.units f.c.id).filter fun u => !f.atHand u).foldl Frame.want
      { f with t := { f.t with drainGo := f.s.cycle + 1 } }).put := by
  obtain ⟨u, hmem, hlate⟩ := hu
  rw [execHeldStoreDrain, hf]
  dsimp only
  rw [hd]
  dsimp only
  split
  next h =>
    rw [List.filter_eq_nil_iff] at h
    exact absurd (by simp [hlate]) (h u hmem)
  next => rfl

/-- Units that are asked for one by one. -/
theorem Frame.foldl_want : ∀ (us : List TileUnit) (f : Frame),
    us.foldl Frame.want f = { f with c := { f.c with wants := (us.foldl Frame.want f).c.wants, seq := (us.foldl Frame.want f).c.seq } }
    ∧ (∀ u, f.c.wants.any (·.2 == u) = true → (us.foldl Frame.want f).c.wants.any (·.2 == u) = true)
    ∧ ∀ u ∈ us, (us.foldl Frame.want f).c.wants.any (·.2 == u) = true
  | [], f => ⟨rfl, fun _ h => h, fun _ h => by cases h⟩
  | v :: us, f => by
    obtain ⟨hrest, hkept, hall⟩ := foldl_want us (f.want v)
    have hgrows : ∀ u, f.c.wants.any (·.2 == u) = true → (f.want v).c.wants.any (·.2 == u) = true := by
      intro u h
      simp only [Frame.want]
      split
      · exact h
      · rw [List.any_append, h, Bool.true_or]
    have hhas : (f.want v).c.wants.any (·.2 == v) = true := by
      simp only [Frame.want]
      split
      next h => exact h
      next => simp
    rw [List.foldl_cons]
    refine ⟨?_, fun u h => hkept u (hgrows u h), fun u h => ?_⟩
    · conv_lhs => rw [hrest]
      rfl
    · rcases List.mem_cons.1 h with rfl | h
      · exact hkept _ hhas
      · exact hall u h

/-- What one byte write of a confirmed store changes. -/
theorem Frame.writeNow_spec (f : Frame) (p : Nat × List Byte) :
    (f.writeNow p).s = f.s.write p.1 p.2
    ∧ (f.writeNow p).t = { f.t with snap := (f.writeNow p).t.snap } := by
  simp only [Frame.writeNow, Frame.keepOld]
  split <;> exact ⟨rfl, rfl⟩

theorem Frame.drainOne_strand (x : HeldStore) (f : Frame) :
    (∀ sid, ((f.drainOne x).s.strand? sid).isSome = (f.s.strand? sid).isSome)
    ∧ (f.drainOne x).t = { f.t with snap := (f.drainOne x).t.snap } := by
  suffices h : ∀ (ps : List (Nat × List Byte)) (f : Frame),
      let g := ps.foldl (fun f p => if x.window then
          let o := p.1 - 2 ^ 40
          { f with s := { f.s with win := f.s.win ++
            [⟨o / 2 ^ 24, f.s.cycle + 6, positionOf f.t.ptn, x.ctx, o % 2 ^ 24, .store p.2, x.rid⟩] } }
        else f.writeNow p) f
      (∀ sid, (g.s.strand? sid).isSome = (f.s.strand? sid).isSome) ∧ g.t = { f.t with snap := g.t.snap } from h x.pieces f
  intro ps
  induction ps with
  | nil => exact fun f => ⟨fun _ => rfl, rfl⟩
  | cons p ps ih =>
    intro f
    rw [List.foldl_cons]
    by_cases hw : x.window = true
    · rw [if_pos hw]
      exact ih { f with s := { f.s with win := f.s.win ++ _ } }
    · rw [if_neg hw]
      obtain ⟨hs, ht⟩ := f.writeNow_spec p
      obtain ⟨ihs, iht⟩ := ih (f.writeNow p)
      refine ⟨fun sid => (ihs sid).trans ?_, iht.trans ?_⟩
      · rw [hs]
        rfl
      · conv_lhs => rw [ht]

theorem Frame.takeConfirmed_of {f : Frame} (h : f.t.drain ≠ [] ∨ f.t.trap = none) : f.takeConfirmed = f.put := by
  unfold Frame.takeConfirmed
  split
  next htrap hdrain =>
    rcases h with h | h
    · exact absurd hdrain h
    · rw [htrap] at h
      cases h
  next => rfl

theorem heldStoreDrain_performed {s : State} {sid : Nat} {f : Frame} {x : HeldStore} {l : List HeldStore}
    (hf : s.frameOf sid = some f) (hd : f.t.drain = x :: l) (hl : l ≠ [] ∨ f.t.trap = none)
    (hu : ∀ u ∈ x.units f.c.id, f.atHand u = true) :
    ∃ (v : State) (r : Strand), execHeldStoreDrain sid s = .next v ∧ v.strand? sid = some r ∧ r.drain = l
      ∧ r.drainGo = s.cycle + 1
      ∧ (x.window = false → ∀ (k : Nat) (bs : List Byte), x.pieces = [(k, bs)] → s.Canonical → s.SameOutside v k bs.length
        ∧ ∀ i : Fin bs.length, Memory.get v.mem (k + i) = bs[i])
      ∧ (x.window = true → ∀ (cl o : Nat) (bs : List Byte), x.pieces = [(2 ^ 40 + 2 ^ 24 * cl + o, bs)] → o < 2 ^ 24 →
        v.win = s.win ++ [⟨cl, s.cycle + 6, positionOf f.t.ptn, x.ctx, o, .store bs, x.rid⟩] ∧ v.SameMemory s) := by
  obtain ⟨hs, hstrand, hsid, _, _⟩ := State.frameOf_parts hf
  subst hs
  have hturn := Frame.foldl_own_tiles (x.units f.c.id) { f with t := { f.t with
    drainGo := f.s.cycle + 1, drain := l, drainFirst := f.t.drainFirst && !l.isEmpty } }
  change f.drainTurn x l = _ at hturn
  obtain ⟨hkept, ht⟩ := Frame.drainOne_strand x (f.drainTurn x l)
  have htd : ((f.drainTurn x l).drainOne x).t = { f.t with
      drainGo := f.s.cycle + 1, drain := l, drainFirst := f.t.drainFirst && !l.isEmpty
      snap := ((f.drainTurn x l).drainOne x).t.snap } := by
    rw [ht, hturn]
  have hput := Frame.takeConfirmed_of (f := (f.drainTurn x l).drainOne x) (by rw [htd]; exact hl)
  refine ⟨_, ((f.drainTurn x l).drainOne x).t, execHeldStoreDrain_performs hf hd hu, ?_, by rw [htd], by rw [htd], ?_, ?_⟩
  · have hid : ((f.drainTurn x l).drainOne x).t.sid = sid := by
      rw [htd]
      exact hsid
    rw [hput, ← hid]
    refine Frame.put_strand (Option.isSome_iff_exists.1 ?_)
    rw [hid, hkept, hturn]
    exact Option.isSome_iff_exists.2 ⟨_, hstrand⟩
  · intro hw k bs hp hcan
    have hmem : ((f.drainTurn x l).drainOne x).takeConfirmed.mem = Memory.write f.s.mem k bs := by
      rw [hput, Frame.drainOne, hp, List.foldl_cons, List.foldl_nil, if_neg (by simp [hw])]
      show (Frame.writeNow _ _).s.mem = _
      rw [(Frame.writeNow_spec _ _).1, hturn]
      rfl
    refine ⟨fun j hj => ?_, fun i => ?_⟩
    · rw [hmem]
      exact Memory.get_write_outside hcan hj
    · rw [hmem]
      exact Memory.get_write_inside hcan i.isLt
  · intro hw cl o bs hp ho
    have he : (f.drainTurn x l).drainOne x = { f.drainTurn x l with s := { (f.drainTurn x l).s with
        win := f.s.win ++ [⟨cl, f.s.cycle + 6, positionOf f.t.ptn, x.ctx, o, .store bs, x.rid⟩] } } := by
      rw [Frame.drainOne, hp, List.foldl_cons, List.foldl_nil, if_pos hw, hturn]
      dsimp only
      rw [show (2 ^ 40 + 2 ^ 24 * cl + o - 2 ^ 40) / 2 ^ 24 = cl by omega,
        show (2 ^ 40 + 2 ^ 24 * cl + o - 2 ^ 40) % 2 ^ 24 = o by omega]
    rw [hput, he]
    refine ⟨rfl, fun k => ?_⟩
    show _ = Memory.get (f.drainTurn x l).s.mem k
    rw [hturn]

theorem heldStoreDrain_waiting {s : State} {sid : Nat} {f : Frame} {x : HeldStore} {l : List HeldStore}
    (hf : s.frameOf sid = some f) (hd : f.t.drain = x :: l) (hu : ∃ u ∈ x.units f.c.id, f.atHand u = false) :
    ∃ c : Ctx, execHeldStoreDrain sid s = .next
        (Frame.put { f with t := { f.t with drainGo := s.cycle + 1 }, c := { f.c with wants := c.wants, seq := c.seq } })
      ∧ ∀ u ∈ x.units f.c.id, f.atHand u = false → c.wants.any (·.2 == u) = true := by
  obtain ⟨rfl, _⟩ := State.frameOf_parts hf
  obtain ⟨hrest, _, hall⟩ := Frame.foldl_want ((x.units f.c.id).filter fun u => !f.atHand u)
    { f with t := { f.t with drainGo := f.s.cycle + 1 } }
  refine ⟨_, (execHeldStoreDrain_waits hf hd hu).trans ?_, fun u hmem hlate => hall u ?_⟩
  · rw [hrest]
  · rw [List.mem_filter]
    exact ⟨hmem, by simp [hlate]⟩

/-! ### UNIT_CLAIM_COMPLETE (R355) -/

/-- What a strand was, found by a test that it passes as it is put back. -/
theorem find?_replaceIf_found {α : Type} {p q : α → Bool} {v t : α} (hq : q v = true) : ∀ {l : List α}, l.find? p = some t →
    l.find? q = some t → (replaceIf l p v).find? q = some v
  | [], h, _ => by cases h
  | y :: l, hp, hq' => by
    by_cases hy : p y = true
    · simp [replaceIf, hy, hq]
    · rw [List.find?_cons_of_neg hy] at hp
      by_cases hqy : q y = true
      · rw [List.find?_cons_of_pos hqy] at hq'
        have : p t = true := List.find?_some hp
        rw [Option.some.inj hq'] at hy
        exact absurd this hy
      · rw [List.find?_cons_of_neg hqy] at hq'
        have ih := find?_replaceIf_found (q := q) hq hp hq'
        have hc : replaceIf (y :: l) p v = y :: replaceIf l p v := by simp [replaceIf, hy]
        rw [hc, List.find?_cons_of_neg hqy]
        exact ih

section
variable {s : State} {t t' : Strand} {u : TileUnit}

/-- A strand that stands in the list. -/
theorem State.owner?_none_of_same {v : Nat} (ht : t ∈ s.strands) (hcur : t'.cur = t.cur) (hsaved : t'.saved = t.saved)
    (h : s.owner? v = none) : (s.setStrand t').owner? v = none := by
  rw [State.owner?, List.find?_eq_none] at h ⊢
  intro y hy
  obtain ⟨z, hz, rfl⟩ := List.mem_map.1 hy
  split
  · rw [hcur, hsaved]
    exact h t ht
  · exact h z hz

theorem State.owner?_setStrand {v : Nat} (hsid : t'.sid = t.sid) (hcur : t'.cur = t.cur) (hsaved : t'.saved = t.saved)
    (hs : s.strand? t.sid = some t) (ht : s.owner? v = some t) : (s.setStrand t').owner? v = some t' := by
  have hv : (t.cur == v || t.saved == some v) = true := List.find?_some (p := fun t : Strand => t.cur == v || t.saved == some v) ht
  unfold State.strand? at hs
  rw [← hsid] at hs
  exact find?_replaceIf_found (q := fun t : Strand => t.cur == v || t.saved == some v) (by rw [hcur, hsaved]; exact hv) hs ht

theorem State.giveUnit_holder (s : State) (ptn id : Nat) (u : TileUnit) :
    (((s.giveUnit ptn u id).tile ptn).owners.find? (·.1 == u)).map (·.2) = some id := by
  have e : (s.giveUnit ptn u id).tile ptn = { s.tile ptn with owners := (u, id) :: (s.tile ptn).owners.filter (·.1 != u) } :=
    State.tile_setTile_of (r := { s.tile ptn with owners := (u, id) :: (s.tile ptn).owners.filter (·.1 != u) }) (State.tile_ptn s ptn)
  rw [e]
  simp

theorem State.victimOf_none_of_same {ptn id : Nat} (ht : t ∈ s.strands) (hcur : t'.cur = t.cur) (hsaved : t'.saved = t.saved)
    (h : s.victimOf ptn u id = none) : (s.setStrand t').victimOf ptn u id = none := by
  unfold State.victimOf at h ⊢
  rw [show (s.setStrand t').tile ptn = s.tile ptn from rfl]
  split
  · rfl
  next v hv =>
    rw [hv] at h
    dsimp only at h
    split
    · rfl
    next hne =>
      rw [if_neg hne] at h
      split
      next x c hx hc =>
        rw [show (s.setStrand t').ctx? v = s.ctx? v from rfl] at hc
        rw [hc] at h
        cases hown : s.owner? v with
        | none =>
          rw [State.owner?_none_of_same ht hcur hsaved hown] at hx
          cases hx
        | some y =>
          rw [hown] at h
          cases h
      · rfl

end

/-- A free unit, which none of a context's saved ones is, is given over. -/
theorem State.takeUnit_free {s : State} {id : Nat} {u : TileUnit} {t : Strand} {c : Ctx} (ht : s.owner? id = some t)
    (hc : s.ctx? id = some c) (hv : s.victimOf t.ptn u id = none) (ha : c.away = []) : s.takeUnit id u = s.giveUnit t.ptn u id := by
  rw [State.takeUnit, ht]
  dsimp only
  rw [hv]
  dsimp only
  rw [ht, hc]
  dsimp only
  rw [if_neg (by simp [Ctx.isAway, ha])]

/-- A state in which a context has been given a free unit. -/
def State.givenUnit (s : State) (ptn id : Nat) (u : TileUnit) : State :=
  { s.giveUnit ptn u id with ctxs := updateIf s.ctxs (·.id == id) (·.got u) }

theorem State.givenUnit_ctx {s : State} {ptn id : Nat} {u : TileUnit} {c : Ctx} (h : s.ctx? id = some c) :
    (s.givenUnit ptn id u).ctx? id = some (c.got u) := by
  have hid : c.id = id := State.ctx?_id h
  unfold State.ctx? at h ⊢
  rw [State.givenUnit, updateIf, List.find?_map]
  have hcomp : ((fun c : Ctx => c.id == id) ∘ fun c => if (c.id == id) = true then c.got u else c) = fun c => c.id == id := by
    funext c
    simp only [Function.comp_apply]
    split <;> rfl
  rw [hcomp, h, Option.map_some, if_pos (by simp [hid])]

theorem State.claimFor_free {s : State} {t : Strand} {u : TileUnit} {c : Ctx} (ht : s.owner? t.cur = some t) (hs : s.strand? t.sid = some t)
    (hc : s.ctx? t.cur = some c) (hv : s.victimOf t.ptn u t.cur = none) (ha : c.away = [])
    (hres : c.lo ≤ c.depth ∧ c.depth + 1 ≤ c.hi) (t' : Strand) (hsid : t'.sid = t.sid) :
    s.claimFor t' t.cur u [] = s.givenUnit t.ptn t.cur u := by
  have htake := State.takeUnit_free ht hc hv ha
  have hframe : (s.givenUnit t.ptn t.cur u).frameOf t.sid = some ⟨s.givenUnit t.ptn t.cur u, t, c.got u⟩ := by
    rw [State.frameOf, show (s.givenUnit t.ptn t.cur u).strand? t.sid = some t from hs, Option.bind_some,
      State.givenUnit_ctx hc, Option.map_some]
  unfold State.claimFor
  rw [List.foldl_nil]
  dsimp only
  rw [htake, hsid]
  change (match u, (s.givenUnit t.ptn t.cur u).frameOf t.sid with
    | .bank _, some g => if g.windowResident then s.givenUnit t.ptn t.cur u else State.fillWindow (s.givenUnit t.ptn t.cur u) t.sid
    | _, _ => s.givenUnit t.ptn t.cur u) = _
  rw [hframe]
  have hwin : (Frame.mk (s.givenUnit t.ptn t.cur u) t (c.got u)).windowResident = true := by
    show (decide (c.lo ≤ c.depth) && decide (c.depth + 1 ≤ c.hi)) = true
    simpa using hres
  split
  next g hg =>
    rw [← Option.some.inj hg, hwin, if_pos rfl]
  · rfl

theorem unitClaimComplete_of {s : State} {sid : Nat} {f : Frame} {u : TileUnit} (hf : s.frameOf sid = some f)
    (hown : s.owner? f.c.id = some f.t) (hreq : f.t.req = .open (.claim u)) (hv : s.victimOf f.t.ptn u f.c.id = none)
    (haway : f.c.away = []) (hres : f.windowResident = true) (hw : s.tileWaits f.t.ptn = false) :
    ∃ v : State, execUnitClaimComplete sid u s = .next v
      ∧ ((v.tile f.t.ptn).owners.find? (·.1 == u)).map (·.2) = some f.c.id ∧ v.SameMemory s
      ∧ (v.strand? sid).map (·.req) = some .none := by
  obtain ⟨_, hstrand, hsid, hctx, hid⟩ := State.frameOf_parts hf
  rw [hid] at hown hv ⊢
  have hmem : f.t ∈ s.strands := List.mem_of_find?_eq_some hstrand
  have hwant : f.t.contexts.find? (fun i => (s.wanted f.t i).contains u) = some f.t.cur := by
    rw [Strand.contexts, List.find?_cons_of_pos]
    simp [State.wanted, hreq]
  have hes : s.enginesWith f.t.ptn f.t.cur u = some [] := by
    unfold State.enginesWith
    rw [hw, hv]
    rfl
  have hown' : (s.setStrand { f.t with req := .none }).owner? f.t.cur = some { f.t with req := .none } :=
    State.owner?_setStrand (t := f.t) rfl rfl rfl (by rw [hsid, hstrand]) hown
  have hstrand' : (s.setStrand { f.t with req := .none }).strand? f.t.sid = some { f.t with req := .none } :=
    State.strand?_setStrand ⟨f.t, by rw [← hstrand, ← hsid]⟩
  have hclaim := State.claimFor_free (s := s.setStrand { f.t with req := .none }) (t := { f.t with req := .none }) (u := u) hown' hstrand' hctx
    (State.victimOf_none_of_same hmem rfl rfl hv) haway (by simpa [Frame.windowResident] using hres) f.t rfl
  refine ⟨((s.setStrand { f.t with req := .none }).givenUnit f.t.ptn f.t.cur u).marked, ?_, ?_, fun _ => rfl, ?_⟩
  · rw [execUnitClaimComplete, hstrand]
    dsimp only
    rw [hwant]
    dsimp only
    rw [hes]
    dsimp only
    rw [if_pos hreq, hclaim]
    rfl
  · exact State.giveUnit_holder (s.setStrand { f.t with req := .none }) f.t.ptn f.t.cur u
  · rw [← hsid]
    change ((s.setStrand { f.t with req := .none }).strand? f.t.sid).map (·.req) = _
    rw [hstrand']
    rfl

/-! ### Elements of feed ports and columns (R183, R187) -/

theorem feedElementArrive_of {id : Nat} {s : State} {c : Ctx} {t : Strand} (p : Fin 8) (hc : s.ctx? id = some c)
    (ht : s.owner? id = some t) (h : s.feedReady c c.feeds[p] = true) :
    ∃ tiles, execFeedElementArrive id p s = .next (State.setCtx { s with tiles := tiles }
      { c with feeds := c.feeds.set p { c.feeds[p] with arrived := c.feeds[p].arrived + 1 } }) := by
  refine ⟨((blockUnits (chunkAddrs c.feeds[p].swz (c.feeds[p].addr c.feeds[p].arrived))).foldl Frame.own ⟨s, t, c⟩).s.tiles, ?_⟩
  rw [execFeedElementArrive, ht, hc]
  dsimp only
  rw [vget_eq_getElem, vset_eq_set, if_pos h, Frame.foldl_own_tiles]

theorem replaceIf_unique {α : Type} {p : α → Bool} {l m : List α} {x v : α} (hx : p x = true) (h : ∀ y ∈ l ++ m, p y = false) :
    replaceIf (l ++ x :: m) p v = l ++ v :: m := by
  have kept : ∀ k : List α, (∀ y ∈ k, p y = false) → replaceIf k p v = k := fun k hk => by
    refine (List.map_congr_left fun y hy => ?_).trans (List.map_id k)
    simp [hk y hy]
  have hl := kept l fun y hy => h y (List.mem_append_left _ hy)
  have hm := kept m fun y hy => h y (List.mem_append_right _ hy)
  rw [replaceIf] at hl hm ⊢
  rw [List.map_append, List.map_cons, hl, hm, if_pos hx]

theorem execColumnPresent_of {id : Nat} {s : State} {c : Ctx} {l m : List TBlock} {b : TBlock} (hc : s.ctx? id = some c)
    (hb : c.blocks = l ++ b :: m) (hl : ∀ y ∈ l, s.columnDue y = false) (hdue : s.columnDue b = true)
    (hser : ∀ y ∈ l ++ m, y.serial ≠ b.serial) : execColumnPresent id s = .next (s.setCtx { c with
      blocks := (l ++ { b with present := b.present + 1 } :: m).filter fun y => !y.spent }) := by
  have hfind : c.blocks.find? s.columnDue = some b := by
    rw [hb, List.find?_append, List.find?_eq_none.2 fun y hy => by simp [hl y hy], List.find?_cons_of_pos hdue]
    rfl
  rw [execColumnPresent, hc]
  dsimp only
  rw [hfind]
  dsimp only
  rw [hb, replaceIf_unique (by simp) fun y hy => by simpa using hser y hy]

/-! ### Held operations (R147, R148) -/

section
variable {id : Nat} {s : State} {c : Ctx} {t : Strand} {u : UnitName} {x : Held}

theorem heldOpRun_done (hc : s.ctx? id = some c) (ht : s.owner? id = some t) (hcur : t.cur = id)
    (hx : c.held.find? (fun y => y.unit == u && y.till.any (· ≤ s.cycle)) = some x) :
    ∃ v : State, execHeldOpRun id u s = .next v ∧ v.SameMemory s
      ∧ v.ctx? id = some (Ctx.fill { c with held := c.held.erase x } x.rid x.result) := by
  refine ⟨(s.setCtx (Ctx.fill { c with held := c.held.erase x } x.rid x.result)).setStrand { t with
    snap := { t.snap with ctx := t.snap.ctx.fill x.rid x.result } }, ?_, fun _ => rfl, ?_⟩
  · rw [execHeldOpRun, ht, hc]
    dsimp only
    rw [if_neg (by simp [hcur]), show c.heldDone u s.cycle = some x from hx]
  · have hid : c.id = id := State.ctx?_id hc
    have hfill : (Ctx.fill { c with held := c.held.erase x } x.rid x.result).id = id := by
      unfold Ctx.fill
      split
      · exact hid
      · split <;> exact hid
    change (s.setCtx _).ctx? id = _
    have h := State.ctx?_setCtx (s := s) (c := Ctx.fill { c with held := c.held.erase x } x.rid x.result) ⟨c, by rw [hfill, hc]⟩
    rwa [hfill] at h

theorem execHeldOpRun_begins (hc : s.ctx? id = some c) (ht : s.owner? id = some t) (hcur : t.cur = id)
    (hdone : c.held.find? (fun y => y.unit == u && y.till.any (· ≤ s.cycle)) = none)
    (hx : c.held.find? (fun y => y.unit == u && y.till.isNone) = some x) (he : c.elementsHere x = true) :
    execHeldOpRun id u s = .next (Frame.runHeld ⟨s, t, c⟩ x) := by
  rw [execHeldOpRun, ht, hc]
  dsimp only
  rw [if_neg (by simp [hcur]), show c.heldDone u s.cycle = none from hdone]
  dsimp only
  rw [show c.heldOldest u = some x from hx]
  dsimp only
  rw [if_pos he]

theorem replaceIf_beq {α : Type} [DecidableEq α] (l : List α) (x y : α) :
    replaceIf l (· == x) y = l.map fun z => if z = x then y else z :=
  List.map_congr_left fun z _ => by simp

theorem Frame.runHeld_trap {f : Frame} {a : Nat} (h : x.fault = some a) : f.runHeld x = f.heldTrap x ⟨5, 0, a, 0, 0, none⟩ := by
  rw [Frame.runHeld, h]
  rfl

theorem Frame.runHeld_value (f : Frame) (h : x.fault = none) (hop : x.op = none) : f.runHeld x
    = f.s.setCtx { f.c with held := f.c.held.map fun z => if z = x then { x with till := some (f.s.cycle + x.lat) } else z } := by
  obtain ⟨unit, rid, feeds, cols, units, op, args, rm, lfsr, tag, bits, flags, fault, pc, lat, till, foot, writes, word⟩ := x
  cases h
  cases hop
  exact congrArg (fun l => f.s.setCtx { f.c with held := l }) (replaceIf_beq _ _ _)

theorem Frame.runHeld_computes (f : Frame) {o : PureOp} {p : Push} (h : x.fault = none) (hop : x.op = some (.compute o))
    (hp : x.compute o = .ok p) : f.runHeld x = f.s.setCtx { f.c with held := f.c.held.map fun z => if z = x
      then { x with op := none, tag := p.tag, bits := p.bits, flags := p.flags, till := some (f.s.cycle + x.lat) } else z } := by
  rw [Frame.runHeld, h]
  dsimp only
  rw [hop]
  dsimp only
  rw [hp]
  dsimp only
  rw [replaceIf_beq]

theorem Frame.runHeld_again (f : Frame) {i : Instr} (h : x.fault = none) (hop : x.op = some (.again i)) :
    f.runHeld x = f.startAgain x := by
  rw [Frame.runHeld, h]
  dsimp only
  rw [hop]

theorem Frame.startAgain_ctx {f : Frame} (h : f.s.ctx? f.c.id = some f.c) (x : Held) :
    ∃ y : Ctx, (f.startAgain x).ctx? f.c.id = some y ∧ y.again = some ⟨x.rid, f.c.seq, f.c.nextRid⟩ ∧ y.nextRid = x.rid
      ∧ y.seq.slot = x.unit.code ∧ y.held = f.c.held :=
  ⟨_, State.ctx?_setCtx (c := { f.c with
    again := some ⟨x.rid, f.c.seq, f.c.nextRid⟩
    seq := { Seq.start with issuing := true, block := f.c.seq.block, slot := x.unit.code, fresh := false }
    nextRid := x.rid }) ⟨f.c, h⟩, rfl, rfl, rfl, rfl⟩

end

/-! ### The statement -/

theorem strandEvents_of (sid : Nat) (s : State) (t : Strand) (ht : s.strand? sid = some t) :
    (t.cbxTill ≠ 0 → ∃ b : Vector Word 16,
      exec (.cbxReloadEnd sid) s = .next (s.setStrand { t with cbank := b, cbxTill := 0 })
      ∧ ∀ i : Fin 16, b[i] = t.const.getD (16 * t.cbx.toNat + i) 0)
    ∧ (s.drained t = true → let u := (s.retireStrand t).releaseBarriers t.task
      (∃ r : Strand, u.strand? sid = some r ∧ r.life = .retired ∧ r.k2 = [] ∧ r.k3 = [] ∧ r.armed = [] ∧ r.bar = none)
      ∧ ∀ k, u.task? t.task = some k → exec (.retireComplete sid) s = .next
        (if (u.taskStrands k.tid).all (·.life == .retired) then u.endDone k else u).marked) := by
  refine ⟨fun h => ⟨_, execCbxReloadEnd_of ht h, fun i => ?_⟩, fun hd => ⟨⟨t.atRest, ?_, rfl, rfl, rfl, rfl, rfl⟩, fun k hk => ?_⟩⟩
  · simp [reloadBank]
  · exact State.releaseBarriers_idle (State.retireStrand_strand ht) rfl
  · exact execRetireComplete_of ht hd hk

theorem excuseEvents_of (sid : Nat) (s : State) (t : Strand) (ht : s.strand? sid = some t) :
    (∀ ver n, ver = some n → n ≠ s.cur.toNat → exec (.agexcuseAck ⟨sid, ver⟩) s = .next s.marked)
    ∧ (∀ rmod gid midx ver, t.req = .open (.excuse rmod gid midx) → (∀ n, ver = some n → n = s.cur.toNat) →
      let u := s.setStrand { t with req := .done (.excuse rmod gid midx) }
      (rmod ≠ s.modId → exec (.agexcuseAck ⟨sid, ver⟩) s = .next u.marked)
      ∧ (rmod = s.modId → exec (.agexcuseAck ⟨sid, ver⟩) s = .next (u.rootExcuse gid midx).marked
        ∧ ((s.root? gid).bind AgRoot.members = none → u.rootExcuse gid midx = u))) := by
  refine ⟨fun ver n hver hn => execAgexcuseAck_stale ht ?_, fun rmod gid midx ver hreq hver => ?_⟩
  · rw [hver, State.delivered_some, decide_eq_false hn]
  · have h := execAgexcuseAck_of ht (State.delivered_of hver) hreq
    refine ⟨fun hne => ?_, fun heq => ⟨?_, fun hm => State.rootExcuse_of_none hm⟩⟩
    · rw [if_neg hne] at h
      exact h
    · rw [if_pos heq] at h
      exact h

/-- Settles O50: each event's rule is a lemma about its own function. -/
theorem strandAndElementEvents : Obligations.StrandAndElementEvents := by
  refine ⟨fun sid s t ht => ?_, fun id s c hc => ?_⟩
  · obtain ⟨hcbx, hretire⟩ := strandEvents_of sid s t ht
    obtain ⟨hstale, hexcuse⟩ := excuseEvents_of sid s t ht
    refine ⟨hcbx, execSpillWriteComplete_of ht, fun w hw h => execStallEnd_of ht hw h,
      fun p r hp hr => execTkpostDeliver_of ht hp hr, hstale, hexcuse, fun k w hreq h => execFenceComplete_of ht hreq h,
      fun w l hw hlife hroom => execK2TokenPost_of ht hw hlife hroom, hretire, fun f hf => ?_⟩
    obtain ⟨hs, hstrand, hsid, hctx, hid⟩ := State.frameOf_parts hf
    have htf : t = f.t := Option.some.inj (ht.symm.trans hstrand)
    subst htf
    refine ⟨fun h => ⟨fun hn => execSlackExhausted_stalls hf h hn, fun x hx => execSlackExhausted_traps hf h hx⟩,
      fun e l hreq hw hl hb => ?_, fun l hreq hw hl hb => execCsyncSnapshot_of hf hreq hw hl hb,
      fun x l hd hl hu => heldStoreDrain_performed hf hd hl hu, fun x l hd hu => heldStoreDrain_waiting hf hd hu,
      fun u hown hreq hv ha hres hw => unitClaimComplete_of hf hown hreq hv ha hres hw⟩
    obtain ⟨hrest, hbad, hring⟩ := Ctx.setPair_spec f.c e (wordsOf_length 16 (s.readPieces l))
    refine ⟨f.c.setPair e (wordsOf 16 (s.readPieces l)), ?_, hbad, hring⟩
    rw [← hrest]
    exact execFillArrive_of hf hreq hw hl hb
  · refine ⟨fun p t ht h => feedElementArrive_of p hc ht h, fun l b m hb hl hclosed hpres hdue hser => ?_,
      fun t u x ht hcur => ⟨fun hx => heldOpRun_done hc ht hcur hx, fun hdone hx he => ?_⟩⟩
    · exact execColumnPresent_of hc hb hl (by simp [State.columnDue, hclosed, hpres, hdue]) hser
    · have hrun : exec (.heldOpRun id u) s = .next (Frame.runHeld ⟨s, t, c⟩ x) := execHeldOpRun_begins hc ht hcur hdone hx he
      refine ⟨fun a ha => ?_, fun ha => ⟨fun hop => ?_, fun o p hop hp => ?_, fun i hop => ?_⟩⟩
      · rw [hrun, Frame.runHeld_trap ha]
      · rw [hrun, Frame.runHeld_value _ ha hop]
      · rw [hrun, Frame.runHeld_computes _ ha hop hp]
      · have hid : c.id = id := State.ctx?_id hc
        rw [Frame.runHeld_again _ ha hop] at hrun
        have hctx := Frame.startAgain_ctx (f := ⟨s, t, c⟩) (by rw [hid]; exact hc) x
        rw [hid] at hctx
        exact ⟨_, hrun, fun _ => rfl, hctx⟩

end Sys2Proof.Machine
end

section
/-! PROOF. The events of the engines (R196, R197, R199, R201, R202, R206, R207, R217, R223, R228, R371). -/

namespace Sys2Proof.Machine

/-! ### Contexts -/

theorem State.setCtx_found {s : State} {id : Nat} {c d : Ctx} (hc : s.ctx? id = some c) (hd : d.id = c.id) :
    (s.setCtx d).ctx? id = some d := by
  have hid : c.id = id := State.ctx?_id hc
  have h := State.ctx?_setCtx (s := s) (c := d) ⟨c, by rw [hd, hid, hc]⟩
  rwa [hd, hid] at h

theorem State.machineCheck_ctxs (s : State) (ctx sub addr : Nat) :
    (s.machineCheck ctx sub addr).ctxs = s.ctxs ∧ (s.machineCheck ctx sub addr).mem = s.mem := by
  unfold State.machineCheck
  split
  · exact ⟨rfl, rfl⟩
  · unfold State.machineCheckOf
    split <;> exact ⟨rfl, rfl⟩

/-! ### Calls of the matrix engine (R196, R207) -/

section
variable {id : Nat} {s : State} {c : Ctx} {x : MxCall} {l : List MxCall}

theorem execHeldCallEnqueue_mxe (hc : s.ctx? id = some c) (hx : c.mxe.held = x :: l) (hroom : c.mxe.taken < 8) :
    execHeldCallEnqueue id .mxe s = .next
      (s.setCtx { c with mxe := { c.mxe with held := l, queue := c.mxe.queue ++ [x] } }).marked := by
  rw [execHeldCallEnqueue, hc]
  dsimp only
  rw [hx]
  exact if_pos hroom

theorem execHeldCallEnqueue_xfu {x : XfuCall} {l : List XfuCall} (hc : s.ctx? id = some c) (hx : c.xfu.held = x :: l)
    (hroom : c.xfu.taken < 8) : execHeldCallEnqueue id .xfu s = .next
      (s.setCtx { c with xfu := { c.xfu with held := l, queue := c.xfu.queue ++ [x] } }).marked := by
  rw [execHeldCallEnqueue, hc]
  dsimp only
  rw [hx]
  exact if_pos hroom

theorem Ctx.sound_eq {c : Ctx} {b : Sram} : c.sound b = !decide (b ∈ c.bad) := by
  rw [Ctx.sound, List.contains_eq_mem]

/-- A context whose call was lost. -/
def Ctx.lost (c : Ctx) (x : MxCall) (l : List MxCall) : Ctx := { c with mxe := { c.mxe with
  queue := l
  run := none
  fin := some ⟨x.serial, engineToken (64 + 5) (if x.load.isSome then 2 else 0) x.routine x.utag, false⟩ } }

theorem State.lostCall_spec (hc : s.ctx? id = some c) (hx : c.mxe.queue = x :: l) :
    (s.lostCall c x).ctx? id = some (c.lost x l) ∧ (s.lostCall c x).mem = s.mem := by
  have e : s.lostCall c x = (s.setCtx (c.lost x l)).machineCheck c.id 1 0 := by
    rw [State.lostCall, hx]
    rfl
  obtain ⟨hctxs, hmem⟩ := (s.setCtx (c.lost x l)).machineCheck_ctxs c.id 1 0
  rw [e]
  refine ⟨?_, hmem⟩
  rw [State.ctx?, hctxs]
  exact State.setCtx_found hc rfl

theorem lostCall_ends (hc : s.ctx? id = some c) (hhead : s.mxeHead c = some x) (hbad : Sram.call x.serial ∈ c.bad) :
    exec (if x.load.isSome then .mxloadRun id else .mxeCallStart id) s = .next (s.lostCall c x).marked := by
  have hsound : (!c.sound (.call x.serial)) = true := by rw [Ctx.sound_eq, decide_eq_true hbad]; rfl
  by_cases hload : x.load.isSome = true
  · obtain ⟨i, hi⟩ := Option.isSome_iff_exists.1 hload
    rw [if_pos hload]
    show execMxloadRun id s = _
    rw [execMxloadRun, hc]
    dsimp only
    rw [hhead]
    dsimp only
    rw [hi]
    dsimp only
    rw [if_pos hsound]
    rfl
  · rw [if_neg hload]
    show execMxeCallStart id s = _
    rw [execMxeCallStart, hc]
    dsimp only
    rw [hhead]
    dsimp only
    rw [if_neg hload, if_pos hsound]
    rfl

theorem execMxeCallStart_of (hc : s.ctx? id = some c) (hx : c.mxe.queue = x :: l) (hhead : s.mxeHead c = some x)
    (hload : x.load = none) (hbad : Sram.call x.serial ∉ c.bad) :
    execMxeCallStart id s = .next (s.setCtx { c with mxe :=
      (if (storeEntry (s.tileOf id) c.mxe x.routine).valid then
        { c.mxe with queue := l, run := some (.start x (storeEntry (s.tileOf id) c.mxe x.routine)) }
      else ({ c.mxe with queue := l } : Mxe).finish x (errStatus 6)) }).marked := by
  have hsound : ¬ (!c.sound (.call x.serial)) = true := by rw [Ctx.sound_eq, decide_eq_false hbad]; simp
  rw [execMxeCallStart, hc]
  dsimp only
  rw [hhead]
  dsimp only
  rw [if_neg (by simp [hload]), if_neg hsound, hx]
  rfl

end

/-! ### Microprogram images (R206) -/

/-- Words inserted at consecutive addresses are found there, and what stands below them as before. -/
theorem lookupD_foldl_insertKey {α : Type} (d : α) (a : Nat) : ∀ (ws : List α) (k : Nat) (m : List (Nat × α)),
    (∀ i (h : i < ws.length), lookupD (((ws.zipIdx k).map fun p => (a + p.2, p.1)).foldl (fun m p => insertKey m p.1 p.2) m)
      (a + k + i) d = ws[i])
    ∧ ∀ n, n < a + k → lookupD (((ws.zipIdx k).map fun p => (a + p.2, p.1)).foldl (fun m p => insertKey m p.1 p.2) m) n d
      = lookupD m n d
  | [], _, _ => ⟨fun _ h => (by cases h), fun _ _ => rfl⟩
  | w :: ws, k, m => by
    obtain ⟨hin, hbelow⟩ := lookupD_foldl_insertKey d a ws (k + 1) (insertKey m (a + k) w)
    rw [List.zipIdx_cons, List.map_cons, List.foldl_cons]
    refine ⟨fun i h => ?_, fun n hn => ?_⟩
    · cases i with
      | zero =>
        rw [hbelow _ (by omega), lookupD_insertKey, if_pos (by omega)]
        rfl
      | succ i =>
        rw [List.length_cons] at h
        rw [show a + k + (i + 1) = a + (k + 1) + i by omega, hin i (by omega)]
        rfl
    · rw [hbelow n (by omega), lookupD_insertKey, if_neg (by omega)]

theorem mxloadRun_of {id : Nat} {s : State} {c : Ctx} {x : MxCall} {q : List MxCall} {l : LoadImage} (hc : s.ctx? id = some c)
    (hx : c.mxe.queue = x :: q) (hhead : s.mxeHead c = some x) (hl : x.load = some l) (hbad : Sram.call x.serial ∉ c.bad)
    (hread : s.bad (Key.pad id l.addr) (8 * l.count) = false)
    (hok : ∀ i : Fin (s.imageWords id l).length, l.refuses (l.start + i) (s.imageWords id l)[i] = false) :
    execMxloadRun id s = .next ((s.setTile { s.tileOf id with
        fw := (s.tileOf id).fw.loaded l (s.imageWords id l) true (l.index < 64) 0 1024 }).setCtx { c with mxe :=
      ({ c.mxe with queue := q, store := c.mxe.store.loaded l (s.imageWords id l) true (64 ≤ l.index) 1024 2048 } : Mxe).finish x 0
      }).marked := by
  have hsound : ¬ (!c.sound (.call x.serial)) = true := by rw [Ctx.sound_eq, decide_eq_false hbad]; simp
  have hall : (!((s.imageWords id l).zipIdx.any fun p => l.refuses (l.start + p.2) p.1)) = true := by
    rw [Bool.not_eq_true', List.any_eq_false]
    rintro ⟨w, i⟩ hp
    obtain ⟨hi, hw⟩ := List.mem_zipIdx' hp
    rw [Bool.not_eq_true]
    have h := hok ⟨i, hi⟩
    simp only [hw]
    exact h
  rw [execMxloadRun, hc]
  dsimp only
  rw [hhead]
  dsimp only
  rw [hl]
  dsimp only
  rw [if_neg hsound, if_neg (by simp [hread]), hall, hx]
  rfl

theorem imageWords_length (s : State) (id : Nat) (l : LoadImage) : (s.imageWords id l).length = l.count := wordsOf_length _ _

/-- What a load leaves in the context's part of the store. -/
theorem MicroStore.loaded_spec (m : MicroStore) (l : LoadImage) (ws : List Word) (hlo : 1024 ≤ l.start)
    (hhi : l.start + ws.length ≤ 2048) :
    (∀ i : Fin ws.length, lookupD (m.loaded l ws true true 1024 2048).words (l.start + i) 0 = ws[i])
    ∧ lookupD (m.loaded l ws true true 1024 2048).table l.index ⟨false, 0, 0, 8, 8⟩
      = ⟨l.count != 0, l.start, l.count, l.adesc, l.bdesc⟩ := by
  have hmine : ((ws.zipIdx.map fun p => (l.start + p.2, p.1)).filter fun p => 1024 ≤ p.1 && p.1 < 2048)
      = ws.zipIdx.map fun p => (l.start + p.2, p.1) := by
    rw [List.filter_eq_self]
    rintro p hp
    obtain ⟨⟨w, i⟩, hi, rfl⟩ := List.mem_map.1 hp
    have hlt := (List.mem_zipIdx' hi).1
    simp only [Bool.and_eq_true, decide_eq_true_eq]
    omega
  refine ⟨fun i => ?_, ?_⟩
  · have h := (lookupD_foldl_insertKey (0 : Word) l.start ws 0 m.words).1 i i.isLt
    unfold MicroStore.loaded
    dsimp only
    rw [hmine]
    exact h
  · exact (lookupD_insertKey _ _ _ _ _).trans (if_pos rfl)

/-! ### Ends of calls (R197, R199, R202) -/

theorem State.release_ctx {s : State} {id : Nat} {c : Ctx} (h : Holder) (hc : s.ctx? id = some c) :
    ∃ d : Ctx, (s.release h).ctx? id = some d ∧ d = { c with wants := d.wants } := by
  refine ⟨_, (List.find?_map (p := fun c : Ctx => c.id == id) ..).trans (congrArg (Option.map _) hc), rfl⟩

theorem execEngineCallComplete_of {id : Nat} {s : State} {c d : Ctx} {e : Engine} {x : Finished} (hc : s.ctx? id = some c)
    (hx : c.finished e = some x) (hp : x.posted = false) (hd : (s.release (.call x.serial)).ctx? id = some d) :
    execEngineCallComplete id e s = .next ((s.release (.call x.serial)).postEngine d e x).marked := by
  rw [execEngineCallComplete, hc]
  dsimp only
  rw [hx]
  dsimp only
  rw [if_neg (by simp [hp]), hd]
  rfl

theorem execEngineTokenPostDeferred_of {id : Nat} {s : State} {c : Ctx} {e : Engine} {x : Finished} (hc : s.ctx? id = some c)
    (hx : c.finished e = some x) (hp : x.posted = true) :
    execEngineTokenPostDeferred id e s = .next (s.postEngine c e x).marked := by
  rw [execEngineTokenPostDeferred, hc]
  dsimp only
  rw [hx]
  exact if_pos hp

theorem State.postEngine_room {s : State} {c : Ctx} {t : Strand} (e : Engine) (x : Finished) (ht : s.owner? c.id = some t)
    (hroom : (c.engineTokens e).length + (if t.cur = c.id then t.poppedHere (tokenPort e) else 0) < 16) :
    s.postEngine c e x = (s.setCtx ((c.setFinished e none).pushToken e x.token)).progress t.task := by
  have h : s.tokenRoom c e = true := by
    rw [State.tokenRoom, ht]
    exact decide_eq_true hroom
  rw [State.postEngine, if_pos h]
  dsimp only
  rw [show (s.setCtx ((c.setFinished e none).pushToken e x.token)).owner? c.id = some t from ht]

/-! ### Transforms (R223, R225 to R228) -/

/-- What a stage or an element changes: memory, at the places of a list of elements. -/
structure XStep.Writes (x y : XStep) (id : Nat) (p : Plan) (dst : List Int) : Prop where
  call : y.r.call = x.r.call
  rest : y.s = { x.s with mem := y.s.mem, ecc := y.s.ecc }
  mem : Memory.wf x.s.mem = true → Memory.wf y.s.mem = true ∧
    ∀ j, (∀ a ∈ dst, j < Key.pad id a.toNat ∨ Key.pad id a.toNat + 2 * p.rsize ≤ j) → Memory.get y.s.mem j = Memory.get x.s.mem j

section
variable {x y z : XStep} {id : Nat} {p : Plan} {dst : List Int}

theorem XStep.Writes.of_same (hc : y.r.call = x.r.call) (hs : y.s = x.s) : x.Writes y id p dst :=
  ⟨hc, by rw [hs], fun h => by rw [hs]; exact ⟨h, fun _ _ => rfl⟩⟩

theorem XStep.Writes.trans (h : x.Writes y id p dst) (h' : y.Writes z id p dst) : x.Writes z id p dst := by
  refine ⟨h'.call.trans h.call, ?_, fun w => ?_⟩
  · rw [h'.rest, h.rest]
  · obtain ⟨wy, hy⟩ := h.mem w
    obtain ⟨wz, hz⟩ := h'.mem wy
    exact ⟨wz, fun j hj => (hz j hj).trans (hy j hj)⟩

/-- Between the same memories and calls. -/
theorem XStep.Writes.between {x' y' : XStep} (h : x'.Writes y' id p dst) (hx : x'.r.call = x.r.call ∧ x'.s = x.s)
    (hy : y.r.call = y'.r.call ∧ y.s = y'.s) : x.Writes y id p dst :=
  (XStep.Writes.of_same hx.1 hx.2).trans (h.trans (.of_same hy.1 hy.2))

theorem XStep.store_writes (p : Plan) : ∀ (l : List (Int × Cx)) (x : XStep), (∀ z ∈ l, z.1 ∈ dst) → x.Writes (x.store id p l) id p dst
  | [], x, _ => .of_same rfl rfl
  | z :: l, x, hl => by
    have hfirst : x.Writes ⟨x.s.write (Key.pad id z.1.toNat) (bytesLE p.rsize z.2.1 ++ bytesLE p.rsize z.2.2),
        { x.r with flags := (x.r.flags.or (xFlags (xfmt p.f32) z.2.1)).or (xFlags (xfmt p.f32) z.2.2) }⟩ id p dst := by
      refine ⟨rfl, rfl, fun w => ⟨Memory.write_wf w, fun j hj => Memory.get_write_outside w ?_⟩⟩
      have h := hj z.1 (hl z (List.mem_cons_self ..))
      rw [List.length_append, bytesLE_length, bytesLE_length]
      omega
    exact hfirst.trans (store_writes p l _ fun a ha => hl a (List.mem_cons_of_mem _ ha))

theorem XStep.read_writes {src : List Int} {work : List Cx → XCalc (List Cx)} (h : x.read id p src work = .ok y) :
    x.Writes y id p dst := by
  unfold XStep.read at h
  split at h
  · cases h
  · cases h
    exact .of_same rfl rfl

/-- The elements of an FFT's input, read before the first stage. -/
def XStep.fftInput (x : XStep) (id : Nat) (p : Plan) (ring : Bool) (src : List Int) : Except Int XStep :=
  if x.r.place = 0 then x.read id p src (fun l => pure (if ring then ringInput p l else l)) else .ok x

/-- One stage on elements that have been read. -/
def XStep.fftTurn (x : XStep) (id : Nat) (p : Plan) (fwd : Bool) (dst : List Int) : XStep :=
  let v := fftStep p fwd x.r.place x.r.buf x.r.flags
  if x.r.place + 1 < p.radix.length then { x with r := { x.r with place := x.r.place + 1, buf := v.1, flags := v.2 } }
  else
    let w := fftScale p fwd v.1 v.2
    (({ x with r := { x.r with flags := w.2 } } : XStep).store id p (dst.zip w.1)).nextPencil

theorem XStep.fftStage_eq (x : XStep) (id : Nat) (p : Plan) (fwd ring : Bool) (src dst : List Int) :
    x.fftStage id p fwd ring src dst = (x.fftInput id p ring src).map (·.fftTurn id p fwd dst) := by
  have hturn : ∀ u : XStep, (let v := fftStep p fwd u.r.place u.r.buf u.r.flags
      if u.r.place + 1 < p.radix.length then
        (pure { u with r := { u.r with place := u.r.place + 1, buf := v.1, flags := v.2 } } : Except Int XStep)
      else
        let w := fftScale p fwd v.1 v.2
        pure ((({ u with r := { u.r with flags := w.2 } } : XStep).store id p (dst.zip w.1)).nextPencil))
      = pure (u.fftTurn id p fwd dst) := by
    intro u
    unfold XStep.fftTurn
    dsimp only
    split <;> rfl
  unfold XStep.fftStage XStep.fftInput
  split
  · cases x.read id p src (fun l => pure (if ring then ringInput p l else l)) with
    | error a => rfl
    | ok u => exact hturn u
  · exact hturn x

theorem XStep.fftTurn_writes (x : XStep) (id : Nat) (p : Plan) (fwd : Bool) (dst : List Int) :
    x.Writes (x.fftTurn id p fwd dst) id p dst := by
  unfold XStep.fftTurn
  dsimp only
  split
  · exact .of_same rfl rfl
  · have hstore := XStep.store_writes (id := id) (dst := dst) p
      (dst.zip (fftScale p fwd (fftStep p fwd x.r.place x.r.buf x.r.flags).1 (fftStep p fwd x.r.place x.r.buf x.r.flags).2).1)
      { x with r := { x.r with
        flags := (fftScale p fwd (fftStep p fwd x.r.place x.r.buf x.r.flags).1 (fftStep p fwd x.r.place x.r.buf x.r.flags).2).2 } }
      fun z hz => (List.of_mem_zip hz).1
    exact hstore.between ⟨rfl, rfl⟩ ⟨rfl, rfl⟩

theorem XStep.fftStage_writes {fwd ring : Bool} {src : List Int} (h : x.fftStage id p fwd ring src dst = .ok y) :
    x.Writes y id p dst := by
  rw [XStep.fftStage_eq] at h
  unfold XStep.fftInput at h
  split at h
  · cases hu : x.read id p src (fun l => pure (if ring then ringInput p l else l)) with
    | error a =>
      rw [hu] at h
      cases h
    | ok u =>
      rw [hu] at h
      cases h
      exact (XStep.read_writes hu).trans (u.fftTurn_writes id p fwd dst)
  · cases h
    exact x.fftTurn_writes id p fwd dst

/-- The elements of a Legendre pass, read before its first output. -/
def XStep.passInput (x : XStep) (id : Nat) (p : Plan) (src reals : List Int) (work : List Cx → XCalc (List Cx)) : Except Int XStep :=
  if x.r.place = 0 then
    match x.s.badAmong id p.rsize reals with
    | some a => .error a
    | none => x.read id p src work
  else .ok x

/-- One output of a pass whose elements have been read. -/
def XStep.elementTurn (x : XStep) (id : Nat) (p : Plan) (dst : List Int) (row : Nat → List Int) : Except Int XStep :=
  match x.s.badAmong id p.rsize (row x.r.place) with
  | some a => .error a
  | none =>
    let v := dotComplex (xfmt p.f32) ((row x.r.place).map fun a => x.s.padNum id a p.rsize) x.r.buf x.r.flags
    let y := XStep.store { x with r := { x.r with flags := v.2, place := x.r.place + 1 } } id p
      ((dst.drop x.r.place).take 1 |>.map fun a => (a, v.1))
    .ok (if x.r.place + 1 < dst.length then y else y.nextPencil)

theorem XStep.element_eq (x : XStep) (id : Nat) (p : Plan) (src dst reals : List Int) (work : List Cx → XCalc (List Cx))
    (row : Nat → List Int) : x.element id p src dst reals work row
      = (x.passInput id p src reals work).bind (·.elementTurn id p dst row) := by
  unfold XStep.element XStep.passInput
  split
  · cases x.s.badAmong id p.rsize reals with
    | some a => rfl
    | none => cases x.read id p src work <;> rfl
  · rfl

theorem XStep.passInput_writes {src reals : List Int} {work : List Cx → XCalc (List Cx)}
    (h : x.passInput id p src reals work = .ok y) : x.Writes y id p dst := by
  unfold XStep.passInput at h
  split at h
  · split at h
    · cases h
    · exact XStep.read_writes h
  · cases h
    exact .of_same rfl rfl

theorem XStep.elementTurn_writes {row : Nat → List Int} (h : x.elementTurn id p dst row = .ok y) : x.Writes y id p dst := by
  unfold XStep.elementTurn at h
  split at h
  · cases h
  · dsimp only at h
    have hstore := XStep.store_writes (id := id) (dst := dst) p
      (((dst.drop x.r.place).take 1).map fun a => (a,
        (dotComplex (xfmt p.f32) ((row x.r.place).map fun a => x.s.padNum id a p.rsize) x.r.buf x.r.flags).1))
      { x with r := { x.r with
        flags := (dotComplex (xfmt p.f32) ((row x.r.place).map fun a => x.s.padNum id a p.rsize) x.r.buf x.r.flags).2
        place := x.r.place + 1 } }
      fun z hz => by
        obtain ⟨a, ha, rfl⟩ := List.mem_map.1 hz
        exact List.mem_of_mem_drop (List.mem_of_mem_take ha)
    cases h
    refine hstore.between ⟨rfl, rfl⟩ ?_
    split <;> exact ⟨rfl, rfl⟩

theorem XStep.element_writes {src reals : List Int} {work : List Cx → XCalc (List Cx)} {row : Nat → List Int}
    (h : x.element id p src dst reals work row = .ok y) : x.Writes y id p dst := by
  rw [XStep.element_eq] at h
  cases hu : x.passInput id p src reals work with
  | error a =>
    rw [hu] at h
    cases h
  | ok u =>
    rw [hu] at h
    exact (XStep.passInput_writes hu).trans (XStep.elementTurn_writes h)

/-- The places that a pencil writes. -/
def Pencil.places : Pencil → List Int
  | .fft _ _ _ d => d
  | .forward _ _ d => d
  | .inverse _ _ d => d

theorem XStep.next_writes (h : x.next id = .ok y) :
    x.Writes y id x.r.call.plan (x.r.call.pencil x.r.pencil).places := by
  unfold XStep.next at h
  dsimp only at h
  split at h
  next hp => rw [hp]; exact XStep.fftStage_writes h
  next hp => rw [hp]; exact XStep.element_writes h
  next hp => rw [hp]; exact XStep.element_writes h

end

theorem execXfuCallStart_of {id : Nat} {s : State} {c : Ctx} {r : XfuRun} {l : List XfuCall} {y : XStep} (hc : s.ctx? id = some c)
    (hfin : c.xfu.fin = none) (hstop : c.xfu.stop = false) (hhere : c.engineHere .xfu = true)
    (hr : c.xfu.run = some r ∧ l = c.xfu.queue
      ∨ c.xfu.run = none ∧ c.xfu.queue = r.call :: l ∧ s.claimLive r.call.serial = true ∧ r = ⟨r.call, 0, 0, [], .none⟩
        ∧ Sram.call r.call.serial ∉ c.bad)
    (hy : XStep.next ⟨s, r⟩ id = .ok y) :
    execXfuCallStart id s = .next (y.s.setCtx { c with xfu := (if y.r.pencil < r.call.pencils
      then { c.xfu with queue := l, run := some y.r }
      else ({ c.xfu with queue := l } : Xfu).finish r.call y.r.flags.status) }).marked := by
  have hhead : s.xfuHead c = some r := by
    rw [State.xfuHead, if_neg (by simp [hfin, hstop, hhere])]
    rcases hr with ⟨hrun, _⟩ | ⟨hrun, hq, hlive, hzero, _⟩
    · rw [hrun]
    · rw [hrun, hq]
      dsimp only
      rw [if_pos hlive, ← hzero]
  have hqueue : (if c.xfu.run.isNone then { c.xfu with queue := c.xfu.queue.drop 1 } else c.xfu) = { c.xfu with queue := l } := by
    rcases hr with ⟨hrun, rfl⟩ | ⟨hrun, hq, _⟩
    · rw [if_neg (by simp [hrun])]
    · rw [if_pos (by simp [hrun]), hq]
      rfl
  have hsound : ¬ (c.xfu.run.isNone && !c.sound (.call r.call.serial)) = true := by
    rcases hr with ⟨hrun, _⟩ | ⟨_, _, _, _, hbad⟩
    · simp [hrun]
    · simp [Ctx.sound_eq, hbad]
  rw [execXfuCallStart, hc]
  dsimp only
  rw [hhead]
  dsimp only
  rw [if_neg hsound, hy, hqueue]
  dsimp only
  split <;> rfl

/-! ### Engines that another strand claims (R217, R228) -/

theorem execMxeQuiesce_of {id : Nat} {s : State} {c : Ctx} (hc : s.ctx? id = some c) (h : s.wantsEngine c .mxe = true) :
    execMxeQuiesce id s = .next (s.setCtx { c with mxe := { c.mxe with
      stop := true, run := c.mxe.run.map fun r => r.quiet (storeWord (s.tileOf id) c.mxe r.upc) } }).marked := by
  rw [execMxeQuiesce, hc]
  exact if_pos h

theorem execXfuQuiesce_of {id : Nat} {s : State} {c : Ctx} (hc : s.ctx? id = some c) (h : s.wantsEngine c .xfu = true) :
    execXfuQuiesce id s = .next (s.setCtx { c with xfu := { c.xfu with stop := true } }).marked := by
  rw [execXfuQuiesce, hc]
  exact if_pos h

theorem MxRun.quiet_eq (r : MxRun) (w : Word) :
    r.quiet w = { r with part := if 7 ≤ w.toNat / 2 ^ 58 ∧ w.toNat / 2 ^ 58 ≤ 12 then 0 else r.part } := by
  have e : fld w 58 6 = w.toNat / 2 ^ 58 := fld_top w (by omega)
  rw [MxRun.quiet, e]
  split <;> rfl

/-! ### The statement -/

section
variable {id : Nat} {s : State} {c : Ctx}

theorem mxeCallStart_results {x : MxCall} {l : List MxCall} (hc : s.ctx? id = some c) (hx : c.mxe.queue = x :: l)
    (hhead : s.mxeHead c = some x) (hload : x.load = none) (hbad : Sram.call x.serial ∉ c.bad) :
    let e := storeEntry (s.tileOf id) c.mxe x.routine
    (e.valid = true → ∃ r : MxRun,
      exec (.mxeCallStart id) s = .next (s.setCtx { c with mxe := { c.mxe with queue := l, run := some r } }).marked
      ∧ r.call = x ∧ r.entry = e ∧ r.upc = e.start ∧ r.ma = Vector.replicate 8 0 ∧ r.mc = Vector.replicate 4 0
      ∧ r.set0 = .empty ∧ r.set1 = .empty ∧ r.flags = .none ∧ r.part = 0)
    ∧ (e.valid = false → exec (.mxeCallStart id) s = .next (s.setCtx { c with mxe := { c.mxe with
      queue := l, run := none, fin := some ⟨x.serial, engineToken (64 + 6) 0 x.routine x.utag, false⟩ } }).marked) := by
  have h := execMxeCallStart_of hc hx hhead hload hbad
  refine ⟨fun hv => ⟨.start x (storeEntry (s.tileOf id) c.mxe x.routine), ?_, rfl, rfl, rfl, rfl, rfl, rfl, rfl, rfl, rfl⟩, fun hv => ?_⟩
  · rw [if_pos hv] at h
    exact h
  · rw [if_neg (by simp [hv]), Mxe.finish, if_neg (by simp [hload])] at h
    exact h

theorem mxloadRun_results {x : MxCall} {q : List MxCall} (hc : s.ctx? id = some c) (hx : c.mxe.queue = x :: q)
    (hhead : s.mxeHead c = some x) (l : LoadImage) (hl : x.load = some l) (hbad : Sram.call x.serial ∉ c.bad)
    (hread : s.bad (Key.pad id l.addr) (8 * l.count) = false) (hindex : 64 ≤ l.index) (hlo : 1024 ≤ l.start)
    (hhi : l.start + l.count ≤ 2048) :
    let words := s.imageWords id l
    (∀ i : Fin words.length, l.refuses (l.start + i) words[i] = false) →
    ∃ (u : State) (d : Ctx), exec (.mxloadRun id) s = .next u.marked ∧ u.ctx? id = some d ∧ d.mxe.queue = q
      ∧ d.mxe.fin = some ⟨x.serial, engineToken 0 2 x.routine x.utag, false⟩
      ∧ (∀ i : Fin words.length, storeWord (u.tileOf id) d.mxe (l.start + i) = words[i])
      ∧ storeEntry (u.tileOf id) d.mxe l.index = ⟨decide (l.count ≠ 0), l.start, l.count, l.adesc, l.bdesc⟩ := by
  intro words hok
  obtain ⟨hwords, hentry⟩ := c.mxe.store.loaded_spec l words hlo (by rw [imageWords_length]; exact hhi)
  refine ⟨_, _, mxloadRun_of hc hx hhead hl hbad hread hok, State.setCtx_found hc rfl, rfl, ?_, fun i => ?_, ?_⟩
  · rw [Mxe.finish, if_pos (by simp [hl])]
  · rw [storeWord, if_neg (by omega), decide_eq_true hindex]
    exact hwords i
  · rw [storeEntry, if_neg (by omega), decide_eq_true hindex]
    refine hentry.trans ?_
    rw [bne, show (l.count == 0) = decide (l.count = 0) from rfl, decide_not]

end

/-- Settles O51: each event's rule is a lemma about its own function; a transform writes nothing but its pencil's places. -/
theorem engineEvents : Obligations.EngineEvents := by
  intro id s c hc
  have hid : c.id = id := State.ctx?_id hc
  refine ⟨fun x l hx h => execHeldCallEnqueue_mxe hc hx h, fun x l hx h => execHeldCallEnqueue_xfu hc hx h,
    fun x l hx hhead hbad => ?_, fun x l hx hhead hload hbad => mxeCallStart_results hc hx hhead hload hbad,
    fun x q hx hhead l hl hbad hread hindex hlo hhi => mxloadRun_results hc hx hhead l hl hbad hread hindex hlo hhi,
    fun e x hx hp => ?_, fun e x hx hp => execEngineTokenPostDeferred_of hc hx hp, fun e x t ht hroom => ?_,
    fun r l y hfin hstop hhere hr hy => ?_, fun h => ⟨_, execMxeQuiesce_of hc h, fun hrun => ?_, fun r hrun => ?_⟩,
    fun h => execXfuQuiesce_of hc h⟩
  · obtain ⟨hctx, hmem⟩ := State.lostCall_spec hc hx
    exact ⟨_, _, lostCall_ends hc hhead hbad, hctx, hmem, rfl⟩
  · obtain ⟨d, hd, hrest⟩ := State.release_ctx (.call x.serial) hc
    refine ⟨d, execEngineCallComplete_of hc hx hp hd, hrest, rfl, fun k => ?_⟩
    change k ∈ s.claims.filter (·.holder != .call x.serial) ↔ _
    simp
  · refine State.postEngine_room e x (by rw [hid, ht]) ?_
    rw [hid]
    cases e <;> exact hroom
  · have h := execXfuCallStart_of hc hfin hstop hhere hr hy
    have hw := XStep.next_writes hy
    refine ⟨fun hlt => ?_, fun hge => ?_, hw.call, ?_, fun dst hdst hcan j hj => (hw.mem hcan).2 j fun a ha => hj a ?_⟩
    · rw [if_pos hlt] at h
      exact h
    · rw [if_neg (by omega)] at h
      exact h
    · rw [hw.rest]
    · change a ∈ (r.call.pencil r.pencil).places at ha
      rw [← hdst]
      cases hp : r.call.pencil r.pencil <;> rw [hp] at ha <;> exact ha
  · rw [hrun, Option.map_none, ← hrun]
  · rw [hrun, Option.map_some, MxRun.quiet_eq]

end Sys2Proof.Machine
end

section
/-! PROOF. The events of tag commands, counters, replicas and clocks (R232, R235, R246, R250, R261, R271, R282, R308, R312, R314). -/

namespace Sys2Proof.Machine

/-! ### Tag commands (R232, R235, R261) -/

theorem State.cmd?_id {s : State} {n : Nat} {k : Cmd} (h : s.cmd? n = some k) : k.id = n := by
  simpa using List.find?_some h

theorem State.cmd?_write (s : State) (a : Nat) (bs : List Byte) (n : Nat) : (s.write a bs).cmd? n = s.cmd? n := rfl

theorem State.cmd?_marked (s : State) (n : Nat) : s.marked.cmd? n = s.cmd? n := rfl

theorem State.cmd?_setCmd {s : State} {n : Nat} {k e : Cmd} (h : s.cmd? n = some k) (he : e.id = n) : (s.setCmd e).cmd? n = some e := by
  subst he
  exact find?_replaceIf_same (p := fun x : Cmd => x.id == e.id) (by simp) (Option.isSome_iff_exists.2 ⟨k, h⟩)

theorem State.cmd?_endCmd {s : State} {n : Nat} {k : Cmd} {code : Nat} (h : s.cmd? n = some k) :
    (s.endCmd k code).cmd? n = some { k with ended := true, status := code } := by
  have h' : (s.release (.cmd k.id)).cmd? n = some k := h
  have hid : k.id = n := State.cmd?_id h
  exact State.cmd?_setCmd h' hid

section
variable {n : Nat} {s : State} {k : Cmd}

theorem execTagCommandAccept_of (hk : s.cmd? n = some k) (ha : k.accepted = false) (hroom : s.activeEntries k.ptn k.engineB < 64) :
    execTagCommandAccept n s = .next (s.setCmd { k with accepted := true }).marked := by
  rw [execTagCommandAccept, hk]
  exact if_pos (by simp [ha, hroom])

theorem execCatalogueDisarmComplete_of {index : Nat} (hk : s.cmd? n = some k) (hkind : k.kind = .catDisarm index) (hpos : k.pos = 1)
    (hend : k.ended = false) (hl : s.launchPending index = false) :
    execCatalogueDisarmComplete n s = .next (s.endCmd k 0).marked := by
  rw [execCatalogueDisarmComplete, hk]
  dsimp only
  rw [hkind]
  exact if_pos (by simp [hpos, hend, hl])

/-- A strand whose tag's command has ended. -/
def Strand.tagDone (t : Strand) (tag status : Nat) : Strand := { t with
  stats := vset t.stats tag (BitVec.ofNat 8 status)
  tags := t.tags ||| (1 : Word) <<< tag
  tagbz := t.tagbz &&& ~~~((1 : Word) <<< tag)
  detach := t.detach &&& ~~~((1 : Word) <<< tag) }

theorem execTagCommandComplete_of {t : Strand} (hk : s.cmd? n = some k) (hend : k.ended = true)
    (ht : ({ s with cmds := s.cmds.filter (·.id != n) } : State).strand? k.sid = some t) :
    execTagCommandComplete n s
      = .next ((({ s with cmds := s.cmds.filter (·.id != n) } : State).setStrand (t.tagDone k.tag k.status)).progress t.task).marked := by
  rw [execTagCommandComplete, hk]
  dsimp only
  rw [if_neg (by simp [hend]), ht]
  rfl

theorem getLsbD_one_shiftLeft (tag : Nat) (i : Fin 64) : ((1 : Word) <<< tag).getLsbD i = decide (i.val = tag) := by
  have hone : ∀ j, (1 : Word).getLsbD j = decide (j = 0) := fun j => by
    rw [show (1 : Word) = 1#64 from rfl, BitVec.getLsbD_one]
    simp
  have hi := i.isLt
  rw [BitVec.getLsbD_shiftLeft, hone]
  by_cases h : i.val = tag
  · rw [h, decide_eq_true (h ▸ hi), decide_eq_false (Nat.lt_irrefl tag), Nat.sub_self]
    simp
  · simp only [h, decide_false, hi, decide_true, Bool.true_and]
    by_cases hlt : i.val < tag
    · simp [hlt]
    · simp [show i.val - tag ≠ 0 by omega]

theorem Strand.tagDone_spec (t : Strand) {tag : Nat} (status : Nat) (h : tag < 64) (i : Fin 64) :
    (t.tagDone tag status).tags.getLsbD i = (decide (i.val = tag) || t.tags.getLsbD i)
    ∧ (t.tagDone tag status).tagbz.getLsbD i = (decide (i.val ≠ tag) && t.tagbz.getLsbD i)
    ∧ (t.tagDone tag status).stats[i] = if i.val = tag then BitVec.ofNat 8 status else t.stats[i] := by
  refine ⟨?_, ?_, ?_⟩
  · change (t.tags ||| (1 : Word) <<< tag).getLsbD i = _
    rw [BitVec.getLsbD_or, getLsbD_one_shiftLeft, Bool.or_comm]
  · change (t.tagbz &&& ~~~((1 : Word) <<< tag)).getLsbD i = _
    rw [BitVec.getLsbD_and, BitVec.getLsbD_not, getLsbD_one_shiftLeft, decide_eq_true i.isLt, Bool.true_and, decide_not, Bool.and_comm]
  · change (vset t.stats tag (BitVec.ofNat 8 status))[i] = _
    rw [show vset t.stats tag (BitVec.ofNat 8 status) = t.stats.set tag (BitVec.ofNat 8 status) from
      vset_eq_set t.stats ⟨tag, h⟩ _, Fin.getElem_fin, Vector.getElem_set]
    by_cases hi : i.val = tag
    · rw [if_pos hi, if_pos hi.symm]
    · rw [if_neg hi, if_neg (Ne.symm hi)]
      rfl

theorem tagCommandComplete_results {t : Strand} (hk : s.cmd? n = some k) (hend : k.ended = true) (htag : k.tag < 64)
    (ht : ({ s with cmds := s.cmds.filter (·.id != n) } : State).strand? k.sid = some t) :
    ∃ (u : State) (r : Strand), exec (.tagCommandComplete n) s = .next u ∧ u.strand? k.sid = some r ∧ u.cmd? n = none
      ∧ ∀ i : Fin 64, r.tags.getLsbD i = (decide (i.val = k.tag) || t.tags.getLsbD i)
        ∧ r.tagbz.getLsbD i = (decide (i.val ≠ k.tag) && t.tagbz.getLsbD i)
        ∧ r.stats[i] = if i.val = k.tag then BitVec.ofNat 8 k.status else t.stats[i] := by
  have hsid' : t.sid = k.sid := State.strand?_sid ht
  have hsid : (t.tagDone k.tag k.status).sid = k.sid := hsid'
  refine ⟨_, t.tagDone k.tag k.status, execTagCommandComplete_of hk hend ht, ?_, ?_, fun i => t.tagDone_spec k.status htag i⟩
  · have h := State.strand?_setStrand (s := { s with cmds := s.cmds.filter (·.id != n) }) (t := t.tagDone k.tag k.status)
      ⟨t, by rw [hsid, ht]⟩
    rw [hsid] at h
    exact h
  · change (s.cmds.filter (·.id != n)).find? (·.id == n) = none
    rw [List.find?_eq_none]
    intro y hy
    simpa using (List.mem_filter.1 hy).2

/-! ### Answers of a multicast store (R246, R308, R312) -/

/-- A command with a member's answer counted. -/
def Cmd.counted (k : Cmd) (i : Nat) (ok : Bool) : Cmd :=
  if k.acks.contains i || k.negs.contains i then k
  else if ok then { k with acks := k.acks ++ [i] } else { k with negs := k.negs ++ [i] }

theorem Cmd.counted_rest (k : Cmd) (i : Nat) (ok : Bool) :
    k.counted i ok = { k with acks := (k.counted i ok).acks, negs := (k.counted i ok).negs } := by
  unfold Cmd.counted
  split
  · rfl
  · split <;> rfl

theorem Cmd.counted_mem (k : Cmd) (i : Nat) (ok : Bool) :
    (∀ j, j ∈ (k.counted i ok).acks ∨ j ∈ (k.counted i ok).negs ↔ j = i ∨ (j ∈ k.acks ∨ j ∈ k.negs))
    ∧ ((k.counted i ok).negs = [] ↔ k.negs = [] ∧ (ok = false → i ∈ k.acks ∨ i ∈ k.negs)) := by
  unfold Cmd.counted
  by_cases h : i ∈ k.acks ∨ i ∈ k.negs
  · rw [if_pos (by simpa using h)]
    refine ⟨fun j => ⟨Or.inr, ?_⟩, by simp [h]⟩
    rintro (rfl | hj)
    · exact h
    · exact hj
  · rw [if_neg (by simpa using h)]
    cases ok with
    | true =>
      rw [if_pos rfl]
      refine ⟨fun j => ?_, by simp⟩
      rw [List.mem_append, List.mem_singleton]
      tauto
    | false =>
      rw [if_neg Bool.false_ne_true]
      refine ⟨fun j => ?_, by simp [h]⟩
      rw [List.mem_append, List.mem_singleton]
      tauto

theorem State.countAnswer_cmd (hk : s.cmd? n = some k) (i : Nat) (ok : Bool) : (s.countAnswer n i ok).cmd? n = some (k.counted i ok) := by
  have hid := State.cmd?_id hk
  unfold State.countAnswer Cmd.counted
  rw [hk]
  dsimp only
  split
  · exact hk
  · cases ok
    · exact State.cmd?_setCmd hk hid
    · exact State.cmd?_setCmd hk hid

theorem State.countAnswer_mem (s : State) (n i : Nat) (ok : Bool) : (s.countAnswer n i ok).mem = s.mem := by
  unfold State.countAnswer
  split
  · rfl
  · split <;> rfl

/-- The answers of some members, one after another. -/
theorem State.foldl_countAnswer (ok : Nat → Bool) : ∀ (l : List Nat) {s : State} {k : Cmd}, s.cmd? n = some k →
    ∃ d : Cmd, (l.foldl (fun s m => s.countAnswer n m (ok m)) s).cmd? n = some d
      ∧ (l.foldl (fun s m => s.countAnswer n m (ok m)) s).mem = s.mem
      ∧ d = { k with acks := d.acks, negs := d.negs }
      ∧ (∀ j, j ∈ d.acks ∨ j ∈ d.negs ↔ j ∈ l ∨ (j ∈ k.acks ∨ j ∈ k.negs))
      ∧ (d.negs = [] ↔ k.negs = [] ∧ ∀ j ∈ l, ok j = false → j ∈ k.acks ∨ j ∈ k.negs)
  | [], s, k, hk => ⟨k, hk, rfl, rfl, by simp, by simp⟩
  | i :: l, s, k, hk => by
    obtain ⟨d, hd, hmem, hrest, htold, hnegs⟩ := foldl_countAnswer ok l (State.countAnswer_cmd hk i (ok i))
    obtain ⟨hone, hfirst⟩ := k.counted_mem i (ok i)
    refine ⟨d, hd, hmem.trans (s.countAnswer_mem n i (ok i)), ?_, fun j => ?_, ?_⟩
    · rw [k.counted_rest i (ok i)] at hrest
      exact hrest
    · rw [htold, hone, List.mem_cons]
      tauto
    · rw [hnegs, hfirst]
      constructor
      · rintro ⟨⟨hk, hi⟩, hl⟩
        refine ⟨hk, fun j hj hok => ?_⟩
        rcases List.mem_cons.1 hj with rfl | hj
        · exact hi hok
        · rcases (hone j).1 (hl j hj hok) with rfl | h
          · exact hi hok
          · exact h
      · rintro ⟨hk, hall⟩
        exact ⟨⟨hk, hall i (List.mem_cons_self ..)⟩, fun j hj hok => (hone j).2 (Or.inr (hall j (List.mem_cons_of_mem _ hj) hok))⟩

/-- The members in other modules, by index. -/
def State.farMembers (s : State) (ms : List Member) : List Nat := (ms.zipIdx.filter fun p => p.1.modu != s.modId).map (·.2)

theorem State.mem_farMembers {ms : List Member} {i : Nat} :
    i ∈ s.farMembers ms ↔ ∃ m, ms[i]? = some m ∧ m.modu ≠ s.modId := by
  simp only [State.farMembers, List.mem_map, List.mem_filter, bne_iff_ne]
  constructor
  · rintro ⟨⟨m, j⟩, ⟨hm, hne⟩, rfl⟩
    exact ⟨m, List.mem_zipIdx_iff_getElem?.1 hm, hne⟩
  · rintro ⟨m, hm, hne⟩
    exact ⟨(m, i), ⟨List.mem_zipIdx_iff_getElem?.2 hm, hne⟩, rfl⟩

/-- The record of a multicast store. -/
def Cmd.answerBytes (k : Cmd) : List Byte :=
  bytesLE 8 (k.acks.length + k.negs.length * 65536) ++ bytesLE 8 0 ++ bytesLE 64 (negBitmap k.negs)

theorem execMcstAckArrive_of {line grp at_ va : Nat} {ms : List Member} {ack : FarAck} {far : List Nat} {d : Cmd} (hk : s.cmd? n = some k)
    (hkind : k.kind = .mcst line grp at_ va) (hms : k.members = some ms)
    (hfar : (if s.delivered (some ack.ver) then s.farMembers ms else []) = far)
    (hd : (far.foldl (fun s m => s.countAnswer n m (!ack.negs.contains m)) s).cmd? n = some d) :
    execMcstAckArrive n ack s = .next (if d.answered && !d.ended then
        ((far.foldl (fun s m => s.countAnswer n m (!ack.negs.contains m)) s).write (Key.pad d.ctx at_) d.answerBytes).endCmd d
          (if d.negs.isEmpty then 0 else 5)
      else far.foldl (fun s m => s.countAnswer n m (!ack.negs.contains m)) s).marked := by
  unfold State.farMembers at hfar
  rw [execMcstAckArrive, hk]
  dsimp only
  rw [hkind, hms]
  dsimp only
  rw [hfar, hd]
  dsimp only
  split <;> rfl

theorem exec_mcstAckArrive (n : Nat) (ack : FarAck) (s : State) : exec (.mcstAckArrive n ack) s = execMcstAckArrive n ack s := rfl

theorem Cmd.answered_iff {d : Cmd} {ms : List Member} (hms : d.members = some ms) :
    d.answered = true ↔ ∀ i m, ms[i]? = some m → i ∈ d.acks ∨ i ∈ d.negs := by
  rw [Cmd.answered, hms]
  simp only [List.all_eq_true, List.mem_range, Bool.or_eq_true, List.contains_eq_mem, decide_eq_true_eq]
  exact ⟨fun h i m hm => h i (List.getElem?_eq_some_iff.1 hm).1, fun h i hi => h i ms[i] (List.getElem?_eq_getElem hi)⟩

theorem isEmpty_code (l : List Nat) : (if l.isEmpty then 0 else 5) = if l = [] then 0 else 5 := by
  cases l <;> rfl

theorem Memory.num_write_answer {m : List Host.Cell} (w : Memory.wf m = true) (a : Nat) (ha : k.acks.length < 65536)
    (hn : k.negs.length < 65536) : Memory.num (Memory.write m a k.answerBytes) a 8 = k.acks.length + 65536 * k.negs.length := by
  have hread := Memory.read_write_same w a k.answerBytes
  have hlen : k.answerBytes.length = 8 + 72 := by simp [Cmd.answerBytes, bytesLE_length]
  rw [hlen, Memory.read_add, Cmd.answerBytes, List.append_assoc] at hread
  obtain ⟨h1, _⟩ := List.append_inj hread (by rw [Memory.read_eq_map, bytesLE_length]; simp)
  unfold Memory.num
  rw [Cmd.answerBytes, List.append_assoc, h1, numLE_bytesLE]
  omega

theorem State.endCmd_write_mem (s : State) (a : Nat) (bs : List Byte) (k : Cmd) (code : Nat) :
    ((s.write a bs).endCmd k code).marked.mem = Memory.write s.mem a bs := rfl

theorem mcstAckArrive_here {line grp at_ va : Nat} {ms : List Member} (hcan : s.Canonical) (hk : s.cmd? n = some k)
    (hkind : k.kind = .mcst line grp at_ va) (hms : k.members = some ms) (hhere : ∀ m ∈ ms, m.modu = s.modId)
    (hans : k.answered = true) (hend : k.ended = false) (ack : FarAck) :
    ∃ (u : State) (d : Cmd), exec (.mcstAckArrive n ack) s = .next u ∧ u.cmd? n = some d
      ∧ d.ended = true ∧ d.status = (if k.negs = [] then 0 else 5)
      ∧ (k.acks.length < 65536 → k.negs.length < 65536 →
        Memory.num u.mem (Key.pad k.ctx at_) 8 = k.acks.length + 65536 * k.negs.length) := by
  have hnone : s.farMembers ms = [] := by
    refine List.eq_nil_iff_forall_not_mem.2 fun i hi => ?_
    obtain ⟨m, hm, hne⟩ := State.mem_farMembers.1 hi
    exact hne (hhere m (List.mem_of_getElem? hm))
  have h := execMcstAckArrive_of (ack := ack) hk hkind hms (by rw [hnone, ite_self]) (far := []) hk
  rw [if_pos (by simp [hans, hend])] at h
  have hk' : (s.write (Key.pad k.ctx at_) k.answerBytes).cmd? n = some k := (s.cmd?_write ..).trans hk
  refine ⟨_, _, (exec_mcstAckArrive ..).trans h, (State.cmd?_marked ..).trans (State.cmd?_endCmd hk'), rfl, isEmpty_code _, fun ha hn => ?_⟩
  rw [State.endCmd_write_mem]
  exact Memory.num_write_answer hcan _ ha hn

theorem mcstAckArrive_far {line grp at_ va : Nat} {ms : List Member} {negs : List Nat} (hk : s.cmd? n = some k)
    (hkind : k.kind = .mcst line grp at_ va) (hms : k.members = some ms) (hend : k.ended = false)
    (hall : ∀ i m, ms[i]? = some m → (i ∈ k.acks ∨ i ∈ k.negs) ∨ m.modu ≠ s.modId) :
    ∃ (u : State) (d : Cmd), exec (.mcstAckArrive n ⟨negs, s.cur.toNat⟩) s = .next u ∧ u.cmd? n = some d ∧ d.ended = true
      ∧ (d.status = 0 ∨ d.status = 5)
      ∧ (d.status = 0 ↔ k.negs = [] ∧ ∀ i m, ms[i]? = some m → ¬(i ∈ k.acks ∨ i ∈ k.negs) → i ∉ negs) := by
  obtain ⟨d, hd, _, hrest, htold, hnegs⟩ := State.foldl_countAnswer (fun m => !negs.contains m) (s.farMembers ms) hk
  have h := execMcstAckArrive_of (ack := ⟨negs, s.cur.toNat⟩) hk hkind hms
    (by rw [State.delivered_of fun n hn => (Option.some.inj hn).symm, if_pos rfl]) hd
  have hdms : d.members = some ms := by rw [hrest, ← hms]
  have hans : d.answered = true := by
    rw [Cmd.answered_iff hdms]
    intro i m hm
    rw [htold]
    rcases hall i m hm with hin | hne
    · exact Or.inr hin
    · exact Or.inl (State.mem_farMembers.2 ⟨m, hm, hne⟩)
  have hdend : d.ended = false := by rw [hrest, ← hend]
  rw [if_pos (by simp [hans, hdend]), isEmpty_code] at h
  have hzero : (if d.negs = [] then 0 else 5) = 0 ↔ d.negs = [] := by
    split
    next h => simp [h]
    next h => simp [h]
  refine ⟨_, _, (exec_mcstAckArrive ..).trans h, (State.cmd?_marked ..).trans (State.cmd?_endCmd ((State.cmd?_write ..).trans hd)), rfl, ?_, ?_⟩
  · dsimp only
    split
    · exact Or.inl rfl
    · exact Or.inr rfl
  · dsimp only
    rw [hzero, hnegs]
    refine and_congr_right fun hk0 => ⟨fun hfar i m hm hnot hin => ?_, fun hfar j hj hok => ?_⟩
    · rcases hall i m hm with h | hne
      · exact hnot h
      · exact hnot (hfar i (State.mem_farMembers.2 ⟨m, hm, hne⟩) (by simpa using hin))
    · obtain ⟨m, hm, _⟩ := State.mem_farMembers.1 hj
      by_contra hnot
      exact hfar j m hm hnot (by simpa using hok)

theorem mcstAckArrive_stale {line grp at_ va : Nat} {ms : List Member} {negs : List Nat} {ver : Nat} (hk : s.cmd? n = some k)
    (hkind : k.kind = .mcst line grp at_ va) (hms : k.members = some ms) (hver : ver ≠ s.cur.toNat) (hans : k.answered = false) :
    exec (.mcstAckArrive n ⟨negs, ver⟩) s = .next s.marked := by
  have h := execMcstAckArrive_of (ack := ⟨negs, ver⟩) (far := []) hk hkind hms
    (by rw [State.delivered_some, decide_eq_false hver]; rfl) hk
  rw [if_neg (by simp [hans])] at h
  exact (exec_mcstAckArrive ..).trans h

end

/-! ### Arrivals at counters (R250) -/

theorem counterArrival_of {ctx bca len : Nat} {s : State} {t : Strand} (hcan : s.Canonical) (ht : s.owner? ctx = some t)
    (harmed : t.armed.contains (Key.pad ctx bca) = true) :
    ∃ u : State, exec (.counterArrival ctx bca len) s = .next u ∧ s.SameOutside u (Key.pad ctx bca) 16
      ∧ (Memory.num u.mem (Key.pad ctx bca) 8 + len) % 2 ^ 64 = Memory.num s.mem (Key.pad ctx bca) 8
      ∧ Memory.num u.mem (Key.pad ctx bca + 8) 8 = Memory.num s.mem (Key.pad ctx bca + 8) 8 % 65536 := by
  have harrive : s.arrive ctx bca len = s.setCounter (Key.pad ctx bca)
      (s.counterBal (Key.pad ctx bca) - BitVec.ofNat 64 len) (s.counterPend (Key.pad ctx bca)) := by
    rw [State.arrive, ht]
    exact if_pos harmed
  obtain ⟨hbal, hpend, hout⟩ := State.setCounter_spec hcan (Key.pad ctx bca)
    (s.counterBal (Key.pad ctx bca) - BitVec.ofNat 64 len) (s.counterPend (Key.pad ctx bca))
  have hlt : Memory.num s.mem (Key.pad ctx bca) 8 < 2 ^ 64 := by
    have h := numLE_lt (Memory.read s.mem (Key.pad ctx bca) 8)
    rwa [Memory.read_eq_map, List.length_map, List.length_range, ← Memory.read_eq_map] at h
  have hexec : exec (.counterArrival ctx bca len) s = execCounterArrival ctx bca len s := rfl
  rw [hexec, execCounterArrival, harrive]
  generalize s.setCounter (Key.pad ctx bca) _ _ = u at hbal hpend hout ⊢
  refine ⟨u.marked, rfl, hout, ?_, hpend.trans (Nat.mod_mod _ _)⟩
  change (Memory.num u.mem (Key.pad ctx bca) 8 + len) % 2 ^ 64 = _
  rw [hbal, State.counterBal, BitVec.toNat_sub, BitVec.toNat_ofNat, BitVec.toNat_ofNat]
  omega

/-! ### Replicas (R246, R308, R312, R314) -/

theorem State.noteWrite_rest (s : State) (d k n : Nat) :
    s.noteWrite d k n = { s with stamps := (s.noteWrite d k n).stamps, clocks := (s.noteWrite d k n).clocks } := by
  have fold : ∀ (c : List Nat) (l : List Nat) (s : State), (l.foldl (fun s e =>
      let g := s.dieClock e
      if g.inv.contains c then s else s.setDieClock e { g with inv := g.inv ++ [c] }) s)
      = { s with clocks := (l.foldl (fun s e =>
          let g := s.dieClock e
          if g.inv.contains c then s else s.setDieClock e { g with inv := g.inv ++ [c] }) s).clocks } := by
    intro c l
    induction l with
    | nil => exact fun _ => rfl
    | cons e l ih =>
      intro s
      rw [List.foldl_cons, ih]
      dsimp only
      split <;> rfl
  unfold State.noteWrite
  dsimp only
  rw [fold]

section
variable {r : Replica} {m : Nat × Nat} {l : List (Nat × Nat)} {s : State}

theorem execMcstReplicaArrive_waits (hver : r.frm = s.modId ∨ r.ver = s.cur.toNat)
    (hw : ({ s with replicas := s.replicas.erase r } : State).rangeWaits r.va 256 = true) :
    execMcstReplicaArrive r s = .next ({ s with replicas := s.replicas.erase r ++ [r] } : State).marked := by
  unfold execMcstReplicaArrive
  dsimp only
  rw [if_neg (by tauto), if_pos hw]
  rfl

/-- A replica behind the member that it has reached. -/
def replicaReached (r : Replica) (m : Nat × Nat) (l : List (Nat × Nat)) (ok : Bool) : Replica :=
  if ok then { r with members := l, acks := r.acks ++ [m.1] } else { r with members := l, negs := r.negs ++ [m.1] }

theorem execMcstReplicaArrive_member (hm : r.members = m :: l) (hver : r.frm = s.modId ∨ r.ver = s.cur.toNat)
    (hw : ({ s with replicas := s.replicas.erase r } : State).rangeWaits r.va 256 = false) {w : State} {ok : Bool}
    (hwrites : ({ s with replicas := s.replicas.erase r } : State).memberWrites r = (w, ok)) :
    execMcstReplicaArrive r s = .next (if l = [] then w.answerReplica (replicaReached r m l ok)
      else { w with replicas := w.replicas ++ [replicaReached r m l ok] }).marked := by
  unfold execMcstReplicaArrive
  dsimp only
  rw [if_neg (by tauto), if_neg (by simp [hw]), hm]
  dsimp only
  rw [hwrites]
  dsimp only
  cases l <;> rfl

/-- What a replica leads to when its next member has answered. -/
def replicaGoes (r : Replica) (l : List (Nat × Nat)) (s w : State) (q : Replica) : Prop :=
  (l ≠ [] → exec (.mcstReplicaArrive r) s = .next ({ w with replicas := w.replicas ++ [q] } : State).marked)
  ∧ (l = [] → r.frm ≠ s.modId → exec (.mcstReplicaArrive r) s = .next (w.send r.frm (.mcAck r.frm r.cmd q.acks q.negs)).marked)
  ∧ (l = [] → r.frm = s.modId → exec (.mcstReplicaArrive r) s = .next (q.negs.foldl (fun s i => s.countAnswer r.cmd i false)
    (q.acks.foldl (fun s i => s.countAnswer r.cmd i true) w)).marked)

theorem exec_mcstReplicaArrive (r : Replica) (s : State) : exec (.mcstReplicaArrive r) s = execMcstReplicaArrive r s := rfl

theorem replicaGoes_of {w : State} {q : Replica} (hw : w.modId = s.modId) (hq : q.frm = r.frm ∧ q.cmd = r.cmd)
    (h : execMcstReplicaArrive r s = .next (if l = [] then w.answerReplica q else { w with replicas := w.replicas ++ [q] }).marked) :
    replicaGoes r l s w q := by
  obtain ⟨hfrm, hcmd⟩ := hq
  rw [← exec_mcstReplicaArrive] at h
  refine ⟨fun hl => ?_, fun hl hne => ?_, fun hl heq => ?_⟩
  · rw [h, if_neg hl]
  · rw [h, if_pos hl, State.answerReplica, hfrm, hw, if_neg hne, hcmd]
  · rw [h, if_pos hl, State.answerReplica, hfrm, hw, if_pos heq, hcmd]

theorem replica_refused (hm : r.members = m :: l) (hver : r.frm = s.modId ∨ r.ver = s.cur.toNat)
    (hw : ({ s with replicas := s.replicas.erase r } : State).rangeWaits r.va 256 = false) {why : CmdFail}
    (hk : ({ s with replicas := s.replicas.erase r } : State).globalKey [] .write r.va = .error why) :
    replicaGoes r l s { s with replicas := s.replicas.erase r } { r with members := l, negs := r.negs ++ [m.1] } := by
  have hwrites : ({ s with replicas := s.replicas.erase r } : State).memberWrites r
      = ({ s with replicas := s.replicas.erase r }, false) := by
    rw [State.memberWrites, hk]
  exact replicaGoes_of rfl ⟨rfl, rfl⟩ (execMcstReplicaArrive_member hm hver hw hwrites)

theorem replica_written (hm : r.members = m :: l) (hver : r.frm = s.modId ∨ r.ver = s.cur.toNat)
    (hw : ({ s with replicas := s.replicas.erase r } : State).rangeWaits r.va 256 = false) {key : Nat}
    (hk : ({ s with replicas := s.replicas.erase r } : State).globalKey [] .write r.va = .ok key) :
    ∃ w : State, replicaGoes r l s w { r with members := l, acks := r.acks ++ [m.1] }
      ∧ w = { ({ s with replicas := s.replicas.erase r } : State) with mem := w.mem, ecc := w.ecc, stamps := w.stamps, clocks := w.clocks }
      ∧ (s.Canonical → s.SameOutside w key r.line.length ∧ ∀ i : Fin r.line.length, Memory.get w.mem (key + i) = r.line[i]) := by
  have hrest := State.noteWrite_rest (({ s with replicas := s.replicas.erase r } : State).write key r.line)
    (({ s with replicas := s.replicas.erase r } : State).replicaDie r) key 256
  have hwrites : ({ s with replicas := s.replicas.erase r } : State).memberWrites r
      = ((({ s with replicas := s.replicas.erase r } : State).write key r.line).noteWrite
        (({ s with replicas := s.replicas.erase r } : State).replicaDie r) key 256, true) := by
    rw [State.memberWrites, hk]
  have hmember := execMcstReplicaArrive_member hm hver hw hwrites
  generalize (({ s with replicas := s.replicas.erase r } : State).write key r.line).noteWrite
    (({ s with replicas := s.replicas.erase r } : State).replicaDie r) key 256 = w at hrest hmember
  have hmem : w.mem = Memory.write s.mem key r.line := by rw [hrest]; rfl
  refine ⟨w, replicaGoes_of (by rw [hrest]; rfl) ⟨rfl, rfl⟩ hmember, ?_, fun hcan => ⟨fun j hj => ?_, fun i => ?_⟩⟩
  · conv_lhs => rw [hrest]
    rw [hmem, show w.ecc = (({ s with replicas := s.replicas.erase r } : State).write key r.line).ecc by rw [hrest]]
    rfl
  · rw [hmem]
    exact Memory.get_write_outside hcan hj
  · rw [hmem]
    exact Memory.get_write_inside hcan i.isLt

theorem replica_stale (hfrm : r.frm ≠ s.modId) (hver : r.ver ≠ s.cur.toNat) :
    ∃ u : State, exec (.mcstReplicaArrive r) s = .next u
      ∧ u = (State.send { s with replicas := s.replicas.erase r } r.frm (.mcAck r.frm r.cmd r.acks (r.negs ++ r.members.map (·.1)))).marked := by
  have hanswer : ({ s with replicas := s.replicas.erase r } : State).answerReplica (refuseRest r)
      = State.send { s with replicas := s.replicas.erase r } r.frm (.mcAck r.frm r.cmd r.acks (r.negs ++ r.members.map (·.1))) :=
    if_neg hfrm
  refine ⟨_, (exec_mcstReplicaArrive r s).trans ?_, rfl⟩
  unfold execMcstReplicaArrive
  dsimp only
  rw [if_pos ⟨hfrm, hver⟩, hanswer]
  rfl

end

/-! ### Clocks and domains (R271, R282) -/

theorem invalidationApply_of {die : Nat} {x : List Nat} {s : State} (h : (s.dieClock die).appliable x = true) :
    exec (.invalidationApply die x) s
      = .next (s.setDieClock die { s.dieClock die with inv := (s.dieClock die).inv.erase x }).marked := by
  have e : exec (.invalidationApply die x) s = execInvalidationApply die x s := rfl
  rw [e, execInvalidationApply]
  exact if_pos h

theorem l2domSwitchDone_of (die : Fin 8) (n : Fin 16) (s : State) : exec (.l2domSwitchDone die n) s = .next (State.marked { s with
    dies := s.dies.set die { s.dies[die] with busy := (s.dies[die]).busy.set n false } }) := by
  have e : exec (.l2domSwitchDone die n) s = execL2domSwitchDone die n s := rfl
  rw [e, execL2domSwitchDone]
  dsimp only
  rw [vget_eq_getElem, vset_eq_set, vset_eq_set]
  rfl

/-- Settles O52: each event's rule is a lemma about its own function. -/
theorem copyEvents : Obligations.CopyEvents := by
  refine ⟨fun n s k hk => ⟨fun ha hroom => execTagCommandAccept_of hk ha hroom, fun t hend htag ht => tagCommandComplete_results hk hend htag ht,
      fun index hkind hpos hend hl => execCatalogueDisarmComplete_of hk hkind hpos hend hl,
      fun line grp at_ va ms hcan hkind hms hhere hans hend ack => mcstAckArrive_here hcan hk hkind hms hhere hans hend ack,
      fun line grp at_ va ms negs hkind hms hend => ?_⟩,
    fun ctx bca len s t hcan ht harmed => counterArrival_of hcan ht harmed, fun n s => rfl,
    fun r m l s hm hver => ⟨fun hw => execMcstReplicaArrive_waits hver hw, fun hw => ⟨fun why hk => ?_, fun key hk => ?_⟩⟩,
    fun r s hfrm hver => replica_stale hfrm hver, fun die x s h => invalidationApply_of h, l2domSwitchDone_of⟩
  · intro told hall
    obtain ⟨u, d, hexec, hd, hdend, hcode, hzero⟩ := mcstAckArrive_far (negs := negs) hk hkind hms hend hall
    exact ⟨u, d, hexec, hd, hdend, hcode, hzero, fun ver hver hans => mcstAckArrive_stale hk hkind hms hver hans⟩
  · exact replica_refused hm hver hw hk
  · exact replica_written hm hver hw hk

end Sys2Proof.Machine
end

section
/-! PROOF. A gather whose destination holds its own index list (R240, R243, R264). -/

namespace Sys2Proof.Machine

/-- The index list of context 2^38 lies where the model keeps the bytes of module 1 from physical address 2^41 on. -/
def selfGather (stride : Int) : CopyDesc := ⟨0, 0, 0, 2 ^ 30, false, 0, 4, [1, 1, 1, 1, 1], [stride, 0, 0, 0, 0], [0, 0, 0, 0, 0], 0, 0⟩

/-- The command of the gather. -/
def selfCmd (stride : Int) : Cmd :=
  ⟨1, 0, 2 ^ 38, 0, false, 0, .copy (selfGather stride) .gather false, true, 0, 0, 0, false, none, [], []⟩

/-- Page tables that map the first GiB to this module, the second to module 1, and four source bytes. -/
def selfMemory (b : Nat) : List Host.Cell :=
  [(0x11000, 0x12001), (0x12000, 0x13001), (0, b), (0x13000, 0xB), (0x13008, 0xB + 2 ^ 41)].foldl
    (fun m p => Memory.write m p.1 (bytesLE 8 p.2)) []

/-- The gather is about to run, its only index zero; the bytes that it copies over that index are those of `b`. -/
def selfState (b : Nat) (stride : Int) : State := { State.reset with
  mem := selfMemory b
  ptroot := 0x11001
  curMin := [(1, 1)]
  optical := State.reset.optical.set 0 { resetPort with state := 0 }
  cmds := [selfCmd stride]
  cycle := 7 }

/-- The one piece of the gather. -/
def selfSegs : List Seg := [⟨some 0, some (2 ^ 30), 4⟩]

/-- The key of the destination, and of the index list. -/
def selfKey : Nat := 2 ^ 60 + 2 ^ 41

/-- What the gather finds before its chunk is written, and what of its destination its source then meets. -/
def selfFinds (b : Nat) (stride : Int) : Bool :=
  let s := selfState b stride
  let k := selfCmd stride
  let d := selfGather stride
  s.chunkReady k && Memory.wf s.mem && decide (s.chunkAt k.ctx d .gather 0 = selfSegs) && s.ecc.isEmpty
    && (List.range 4).all (fun i => (List.range 4).all fun j => s.walkSrc k.ctx d .gather i != s.walkDst k.ctx d .gather j)
    && (match s.readSegs k 0 selfSegs with
      | .error _ => false
      | .ok r => decide (r.1 = [bytesLE 4 b]) && (match r.2.segPlaces k 0 (selfSegs.zip r.1) with
        | .error _ => false
        | .ok l =>
          let t := l.foldl (fun s p => s.writePlace k 0 p.1 p.2.1 p.2.2) r.2
          let rest := t.restGo k.ctx d .gather 4 0
          decide (l = [(2 ^ 30, selfKey, bytesLE 4 b)]) && Memory.wf t.mem && decide (t.fresh = s.fresh)
            && decide ((rest.map fun g => overlapOf g rest).flatten = [(2 ^ 30, 4)])
            && (match t.sidePlace k 0 (2 ^ 30) with | .ok key => decide (key = selfKey) | .error _ => false)))

theorem selfFinds_one : selfFinds 1 (2 ^ 30) = true := by decide +kernel

theorem selfFinds_two : selfFinds 2 (2 ^ 29) = true := by decide +kernel

theorem State.writePlace_global_mem (s : State) (k : Cmd) (a key : Nat) (bs : List Byte) :
    (s.writePlace k 0 a key bs).mem = Memory.write s.mem key bs := by
  have hkeep : (s.keepPage k.tlbs a).mem = s.mem := by
    unfold State.keepPage
    split <;> rfl
  rw [State.writePlace, State.noteWrite_rest]
  change Memory.write (s.keepPage k.tlbs a).mem key bs = _
  rw [hkeep]

/-- The first byte of a global place that becomes undefined. -/
theorem State.undefineSide_get {s : State} {k : Cmd} {a key n : Nat} (w : Memory.wf s.mem = true) (h : s.sidePlace k 0 a = .ok key) :
    Memory.get (s.undefineSide k 0 a (n + 1)).mem key = Config.freeByte s.fresh a := by
  have hside : s.writeSide k 0 a (freeBytes s.fresh a (n + 1)) = .ok (s.writePlace k 0 a key (freeBytes s.fresh a (n + 1))) := by
    rw [State.writeSide, h]
    rfl
  rw [State.undefineSide, hside]
  change Memory.get (s.writePlace k 0 a key (freeBytes s.fresh a (n + 1))).mem key = _
  rw [State.writePlace_global_mem]
  exact Memory.get_write_inside (i := 0) w (by simp [freeBytes])

/-- A copy ends after its last chunk. -/
theorem State.copyChunk_last {s t : State} {k : Cmd} {d : CopyDesc} {w : Walk} {segs : List Seg} (hsegs : s.chunkAt k.ctx d w k.pos = segs)
    (hmove : s.moveChunk k d w segs ((segs.map (·.n)).foldl (· + ·) 0) = .ok t) (hbce : d.bce = false)
    (hlast : d.total ≤ k.pos + (segs.map (·.n)).foldl (· + ·) 0) :
    s.copyChunk k d w = (t.undefineOverlap { k with pos := k.pos + (segs.map (·.n)).foldl (· + ·) 0 } d w).endCmd
      { k with pos := k.pos + (segs.map (·.n)).foldl (· + ·) 0 } 0 := by
  unfold State.copyChunk
  rw [hsegs]
  dsimp only
  rw [hmove]
  dsimp only
  rw [hbce, if_pos hlast]
  rfl

/-- A gather as `selfFinds` tests it. -/
structure SelfFound (b : Nat) (stride : Int) (r t : State) (l : List (Nat × Nat × List Byte)) : Prop where
  ready : (selfState b stride).chunkReady (selfCmd stride) = true
  canonical : (selfState b stride).Canonical
  segs : (selfState b stride).chunkAt (2 ^ 38) (selfGather stride) .gather 0 = selfSegs
  sound : (selfState b stride).ecc = []
  apart : ∀ i j, i < 4 → j < 4 → (selfState b stride).walkSrc (2 ^ 38) (selfGather stride) .gather i
    ≠ (selfState b stride).walkDst (2 ^ 38) (selfGather stride) .gather j
  reads : (selfState b stride).readSegs (selfCmd stride) 0 selfSegs = .ok ([bytesLE 4 b], r)
  places : r.segPlaces (selfCmd stride) 0 (selfSegs.zip [bytesLE 4 b]) = .ok l
  place : l = [(2 ^ 30, selfKey, bytesLE 4 b)]
  written : t = l.foldl (fun s p => s.writePlace (selfCmd stride) 0 p.1 p.2.1 p.2.2) r
  wf : Memory.wf t.mem = true
  fresh : t.fresh = State.reset.fresh
  meets : ((t.restGo (2 ^ 38) (selfGather stride) .gather 4 0).map fun g =>
    overlapOf g (t.restGo (2 ^ 38) (selfGather stride) .gather 4 0)).flatten = [(2 ^ 30, 4)]
  key : t.sidePlace (selfCmd stride) 0 (2 ^ 30) = .ok selfKey

theorem selfFound_of {b : Nat} {stride : Int} (h : selfFinds b stride = true) : ∃ r t l, SelfFound b stride r t l := by
  unfold selfFinds at h
  simp only [Bool.and_eq_true] at h
  obtain ⟨⟨⟨⟨⟨hready, hcan⟩, hsegs⟩, hecc⟩, hapart⟩, hread⟩ := h
  split at hread
  · cases hread
  next r hr =>
    simp only [Bool.and_eq_true] at hread
    obtain ⟨hbytes, hplaces⟩ := hread
    split at hplaces
    · cases hplaces
    next l hl =>
      simp only [Bool.and_eq_true] at hplaces
      obtain ⟨⟨⟨⟨hplace, hwf⟩, hfresh⟩, hmeets⟩, hkey⟩ := hplaces
      split at hkey
      next key hside =>
        obtain ⟨bs, r⟩ := r
        cases of_decide_eq_true hbytes
        refine ⟨r, _, l, ⟨hready, hcan, of_decide_eq_true hsegs, List.isEmpty_iff.1 hecc, fun i j hi hj => ?_, hr, hl,
          of_decide_eq_true hplace, rfl, hwf, of_decide_eq_true hfresh, of_decide_eq_true hmeets, ?_⟩⟩
        · have h := List.all_eq_true.1 (List.all_eq_true.1 hapart i (List.mem_range.2 hi)) j (List.mem_range.2 hj)
          exact bne_iff_ne.1 h
        · rw [← of_decide_eq_true hkey]
          exact hside
      · cases hkey

section
variable {b : Nat} {stride : Int} {r t : State} {l : List (Nat × Nat × List Byte)}

theorem State.placeByte_first {u : State} {k : Cmd} {a key : Nat} {x : Byte} (h : u.placeByte k 0 (a + 0) (key + 0) = x) :
    Memory.get u.mem key = x := h

/-- The command behind the gather's only chunk. -/
def selfDone (stride : Int) : Cmd := { selfCmd stride with pos := 4 }

theorem SelfFound.moves (h : SelfFound b stride r t l) :
    (selfState b stride).moveChunk (selfCmd stride) (selfGather stride) .gather selfSegs 4 = .ok t := by
  have hbad : (selfState b stride).badEntry (selfCmd stride) (selfGather stride) .gather (selfCmd stride).pos 4 = none := by
    unfold State.badEntry State.bad
    rw [h.sound]
    simp
  have hreads : (selfState b stride).readSegs (selfCmd stride) (selfGather stride).ssp selfSegs = .ok ([bytesLE 4 b], r) := h.reads
  have hplaces : r.segPlaces (selfCmd stride) (selfGather stride).dsp (selfSegs.zip [bytesLE 4 b]) = .ok l := h.places
  rw [State.moveChunk, hbad]
  dsimp only
  rw [hreads]
  dsimp only [Except.bind]
  rw [State.writeSegs, hplaces, h.written]
  rfl

/-- What the gather leaves: of its destination, which its source now meets, every byte undefined. -/
theorem SelfFound.ends (h : SelfFound b stride r t l) : exec (.copyChunk 1) (selfState b stride)
    = .next ((t.undefineSide (selfDone stride) 0 (2 ^ 30) 4).endCmd (selfDone stride) 0).marked := by
  have hlast := State.copyChunk_last (k := selfCmd stride) h.segs h.moves rfl (Nat.le_refl 4)
  have hover : t.undefineOverlap (selfDone stride) (selfGather stride) .gather = t.undefineSide (selfDone stride) 0 (2 ^ 30) 4 := by
    unfold State.undefineOverlap
    rw [if_pos ⟨rfl, Or.inl (by decide)⟩]
    change ((((t.restGo (2 ^ 38) (selfGather stride) .gather 4 0).map fun g =>
      overlapOf g (t.restGo (2 ^ 38) (selfGather stride) .gather 4 0)).flatten).foldl _ t) = _
    rw [h.meets]
    rfl
  change (selfState b stride).copyChunk (selfCmd stride) (selfGather stride) .gather
    = (t.undefineOverlap (selfDone stride) (selfGather stride) .gather).endCmd (selfDone stride) 0 at hlast
  have e : exec (.copyChunk 1) (selfState b stride) = execCopyChunk 1 (selfState b stride) := rfl
  have hcmd : (selfState b stride).cmd? 1 = some (selfCmd stride) := rfl
  rw [e, execCopyChunk, hcmd]
  dsimp only
  rw [h.ready]
  change Host.Outcome.next ((selfState b stride).copyChunk (selfCmd stride) (selfGather stride) .gather).marked = _
  rw [hlast, hover]

/-- The clause on a copy's chunk would fix a byte that is the implementation's to choose. -/
theorem SelfFound.freeByte_eq (h : SelfFound b stride r t l) (hall : Obligations.CopyChunks) :
    Config.freeByte State.reset.fresh (2 ^ 30) = BitVec.ofNat 8 b := by
  obtain ⟨_, _, _, hchunk, _⟩ := hall 1 (selfState b stride) (selfCmd stride) rfl h.ready h.canonical
  have hpos : (selfCmd stride).pos = 0 := rfl
  have hsegs : (selfState b stride).chunkAt (selfCmd stride).ctx (selfGather stride) .gather (selfCmd stride).pos = selfSegs := h.segs
  have hput := hchunk (selfGather stride) .gather false [bytesLE 4 b] r l
  rw [hsegs] at hput
  obtain ⟨u, e, hexec, _, _, _, hbytes, _⟩ := hput rfl rfl (Nat.le_add_left 1 3) (Nat.le_add_left 1 3)
    (fun _ i _ _ => by unfold State.bad; rw [h.sound]; rfl) h.reads h.places
    (by rw [h.place]; exact List.pairwise_singleton _ _)
    (Or.inr (Or.inr (Or.inl ⟨rfl, fun i j x y hi hj hx hy hxy => h.apart i j hi hj (hx.trans ((congrArg some hxy).trans hy.symm))⟩)))
  have hmem := hbytes (2 ^ 30, selfKey, bytesLE 4 b) (by rw [h.place]; exact List.mem_singleton.2 rfl) ⟨0, Nat.lt_add_left 3 Nat.one_pos⟩
  have hu := Host.Outcome.next.inj (h.ends.symm.trans hexec)
  have hget : Memory.get u.mem selfKey = Config.freeByte t.fresh (2 ^ 30) := by
    rw [← hu]
    exact State.undefineSide_get h.wf h.key
  rw [← h.fresh, ← hget]
  exact State.placeByte_first (k := selfCmd stride) (a := 2 ^ 30) hmem

end

/-- Refutes O53: a gather writes, in the last of its chunks, over its own index list, which lies where a global address leads.
Its source as the list now stands meets its destination, so that the bytes that it has just written are undefined: the two
gathers of `selfState` would have one free byte be 1 and be 2. -/
theorem not_copyChunks : ¬ Obligations.CopyChunks := by
  intro hall
  obtain ⟨r, t, l, h1⟩ := selfFound_of selfFinds_one
  obtain ⟨r', t', l', h2⟩ := selfFound_of selfFinds_two
  exact absurd ((h1.freeByte_eq hall).symm.trans (h2.freeByte_eq hall)) (by decide)

end Sys2Proof.Machine
end

section
/-! PROOF. The events of the fabric (R250, R253, R258, R295, R297 to R300, R304, R305, R307, R312, R314, R319, R390). -/

namespace Sys2Proof.Machine

/-! ### Notices (R295, R304, R312) -/

section
variable {s : State}

theorem State.stale_eq_false {frm : Member} {ver : Nat} (h : frm.modu = s.modId ∨ ver = s.cur.toNat) : s.stale frm ver = false := by
  rw [State.stale, Bool.and_eq_false_iff]
  rcases h with h | h
  · exact Or.inl (by simp [h])
  · exact Or.inr (by simp [h])

theorem execReadinessNotice_taken {n : Notice} (hdest : n.dest.modu = s.modId) (hver : n.frm.modu = s.modId ∨ n.ver = s.cur.toNat) :
    execReadinessNotice n s = .next (State.takeNotice { s with notices := s.notices.erase n } n).pumped.marked := by
  have hstale : ({ s with notices := s.notices.erase n } : State).stale n.frm n.ver = false := State.stale_eq_false hver
  unfold execReadinessNotice
  dsimp only
  rw [if_neg (by rw [hstale]; simp [hdest])]
  rfl

theorem execReadinessNotice_refused {n : Notice} (h : n.dest.modu ≠ s.modId ∨ n.frm.modu ≠ s.modId ∧ n.ver ≠ s.cur.toNat) :
    execReadinessNotice n s = .next ({ s with notices := s.notices.erase n } : State).marked := by
  have hcond : n.dest.modu ≠ s.modId ∨ ({ s with notices := s.notices.erase n } : State).stale n.frm n.ver = true := by
    refine h.imp id fun hs => ?_
    rw [State.stale, Bool.and_eq_true]
    exact ⟨bne_iff_ne.2 hs.1, bne_iff_ne.2 hs.2⟩
  unfold execReadinessNotice
  dsimp only
  rw [if_pos hcond]
  rfl

theorem State.takeNotice_fire {n : Notice} {e : Entry64} {i peer sender : Nat} (h : n.body = .fire e i peer sender) :
    s.takeNotice n = s.addXfer fun id => fireXfer id n.dest e peer sender n := by
  rw [State.takeNotice, h]

theorem execParkedNoticeRelease_of {p : PostRec} {chan : Fin 16} {c : Coll} (hp : p ∈ s.posts) (hchan : p.chan = chan)
    (hhanded : p.handed = true) (hwork : p.work = .coll c) (hpers : c.pers = true)
    (hone : ∀ q ∈ s.posts, q.sid = p.sid → q.chan = p.chan → q.handed = true → q = p) :
    execParkedNoticeRelease p.sid chan c.grp s = .next (s.actOnArrived p.sid chan p.id).pumped.marked := by
  unfold execParkedNoticeRelease
  split
  next hq =>
    rw [List.find?_eq_none] at hq
    exact absurd (by simp [hchan, hhanded, hwork, hpers]) (hq p hp)
  next q hq =>
    have hprop := List.find?_some hq
    simp only [Bool.and_eq_true, beq_iff_eq] at hprop
    obtain ⟨⟨⟨hsid, hqchan⟩, hqhanded⟩, _⟩ := hprop
    rw [hone q (List.mem_of_find?_eq_some hq) hsid (hqchan.trans hchan.symm) hqhanded]
    rfl

theorem execNoticeResend_of {n : Notice} {p : PostRec} (hp : s.post? n.strand n.chan n.id = some p) (hfrm : n.frm.modu = s.modId)
    (hserved : n.ridx ∉ p.served) : execNoticeResend n s
      = .next (State.sendNotice { s with refused := s.refused.erase n } { n with ver := s.cur.toNat }).marked := by
  have hp' : ({ s with refused := s.refused.erase n } : State).post? n.strand n.chan n.id = some p := hp
  unfold execNoticeResend
  dsimp only
  rw [hp']
  dsimp only
  rw [if_pos ⟨hfrm, by simpa using hserved⟩]
  rfl

/-! ### Pulls (R297, R312, R314, R390) -/

theorem execPullRequest_lost {p : Pull} (hfrm : p.frm.modu = s.modId) (hver : p.dest.modu = s.modId ∨ p.ver = s.cur.toNat)
    (hroute : s.route p.dest.modu = .none) :
    execPullRequest p s = .next (State.lostReceiver { s with pulls := s.pulls.erase p } p).marked := by
  have hstale : ({ s with pulls := s.pulls.erase p } : State).stale p.dest p.ver = false := State.stale_eq_false hver
  unfold execPullRequest
  dsimp only
  rw [if_neg (by rw [hstale]; simp [hfrm]), if_pos (show ({ s with pulls := s.pulls.erase p } : State).route p.dest.modu = .none from hroute)]
  rfl

theorem execPullRequest_waits {p : Pull} (hfrm : p.frm.modu = s.modId) (hver : p.dest.modu = s.modId ∨ p.ver = s.cur.toNat)
    (hroute : s.route p.dest.modu ≠ .none) (hw : ({ s with pulls := s.pulls.erase p } : State).pullWaits p = true) :
    execPullRequest p s = .next (State.marked { s with pulls := s.pulls.erase p ++ [p] }) := by
  have hstale : ({ s with pulls := s.pulls.erase p } : State).stale p.dest p.ver = false := State.stale_eq_false hver
  unfold execPullRequest
  dsimp only
  rw [if_neg (by rw [hstale]; simp [hfrm]),
    if_neg (show ¬ ({ s with pulls := s.pulls.erase p } : State).route p.dest.modu = .none from hroute), if_pos hw]
  rfl

theorem State.pullData_pad {p : Pull} {q : PostRec} (hssp : p.ssp = true) (hpost : s.post? p.strand p.chan p.id = some q)
    (hbad : s.bad (Key.pad p.ctx (p.src + p.pos)) p.len = false) :
    s.pullData p = (s, .data (Memory.read s.mem (Key.pad p.ctx (p.src + p.pos)) p.len)) := by
  unfold State.pullData
  dsimp only
  rw [hpost]
  dsimp only
  rw [if_pos hssp, if_neg (by simp [hbad])]

theorem execPullRequest_sends {p : Pull} {q : PostRec} (hfrm : p.frm.modu = s.modId) (hver : p.dest.modu = s.modId ∨ p.ver = s.cur.toNat)
    (hroute : s.route p.dest.modu ≠ .none) (hw : ({ s with pulls := s.pulls.erase p } : State).pullWaits p = false)
    (hssp : p.ssp = true) (hpost : s.post? p.strand p.chan p.id = some q)
    (hbad : s.bad (Key.pad p.ctx (p.src + p.pos)) p.len = false) :
    let t : State := { s with pulls := s.pulls.erase p }
    let f : Flight := ⟨p.xfer, p.dest, p.pos, p.len, s.cur.toNat, 0, .data (Memory.read s.mem (Key.pad p.ctx (p.src + p.pos)) p.len)⟩
    execPullRequest p s = .next (if p.dest.modu = s.modId then { t with flights := t.flights ++ [f] }
      else t.send p.dest.modu (.flight f)).marked := by
  intro t f
  have hstale : ({ s with pulls := s.pulls.erase p } : State).stale p.dest p.ver = false := State.stale_eq_false hver
  have hdata : ({ s with pulls := s.pulls.erase p } : State).pullData p
    = ({ s with pulls := s.pulls.erase p }, .data (Memory.read s.mem (Key.pad p.ctx (p.src + p.pos)) p.len)) :=
    State.pullData_pad (s := { s with pulls := s.pulls.erase p }) hssp hpost hbad
  unfold execPullRequest
  dsimp only
  rw [if_neg (by rw [hstale]; simp [hfrm]),
    if_neg (show ¬ ({ s with pulls := s.pulls.erase p } : State).route p.dest.modu = .none from hroute), if_neg (by simp [hw]), hdata]
  dsimp only
  by_cases hm : p.dest.modu = s.modId
  · rw [if_pos hm, if_pos hm]
    rfl
  · rw [if_neg hm, if_neg hm]
    rfl

/-! ### Chunks (R295, R298, R312, R314, R319) -/

section
variable {f : Flight} {x : Xfer} {bs : List Byte}

theorem execChunkLand_waits (hx : (s.xfers.find? fun x => x.id == f.xfer && x.out.contains (f.pos, f.len)) = some x)
    (hpark : ∀ k ∈ s.parked, ¬(k.flight.xfer = f.xfer ∧ k.flight.pos = f.pos))
    (hw : ({ s with flights := s.flights.erase f } : State).landWaits x f.pos f.len = true) :
    execChunkLand f s = .next (State.marked { s with flights := s.flights.erase f ++ [f] }) := by
  have hany : ¬ (s.parked.any fun k => k.flight.xfer == f.xfer && k.flight.pos == f.pos) = true := by
    rw [List.any_eq_true]
    rintro ⟨k, hk, h⟩
    exact hpark k hk (by simpa using h)
  unfold execChunkLand
  dsimp only
  rw [hx]
  dsimp only
  rw [if_neg hany, if_pos hw]
  rfl

theorem execChunkLand_arrives (hx : (s.xfers.find? fun x => x.id == f.xfer && x.out.contains (f.pos, f.len)) = some x)
    (hpark : ∀ k ∈ s.parked, ¬(k.flight.xfer = f.xfer ∧ k.flight.pos = f.pos))
    (hver : x.notice.frm.modu = s.modId ∨ f.ver = s.cur.toNat) (hdata : f.data = .data bs)
    (hw : ({ s with flights := s.flights.erase f } : State).landWaits x f.pos f.len = false) :
    execChunkLand f s = .next (State.arriveChunk { s with flights := s.flights.erase f } x f bs).marked := by
  have hany : ¬ (s.parked.any fun k => k.flight.xfer == f.xfer && k.flight.pos == f.pos) = true := by
    rw [List.any_eq_true]
    rintro ⟨k, hk, h⟩
    exact hpark k hk (by simpa using h)
  have hstale : ({ s with flights := s.flights.erase f } : State).stale x.notice.frm f.ver = false := State.stale_eq_false hver
  unfold execChunkLand
  dsimp only
  rw [hx]
  dsimp only
  rw [if_neg hany, if_neg (by simp [hw]), if_neg (by simp [hstale]), hdata]
  rfl

theorem State.arriveChunk_placed {keys : List (Nat × Nat)} (hhow : x.how = .place)
    (hk : s.placeKeys .write (x.places f.pos f.len) = .ok keys) :
    s.arriveChunk x f bs = (s.landChunk x f.pos f.len f.port bs keys).pumped := by
  rw [State.arriveChunk, hk]
  dsimp only
  rw [hhow]

theorem State.arriveChunk_stuck {va : Nat} (hk : s.placeKeys .write (x.places f.pos f.len) = .error (va, 0))
    (hfrm : x.notice.frm.modu = s.modId) : s.arriveChunk x f bs = s.setXfer { x with
      out := x.out.erase (f.pos, f.len)
      redo := x.redo ++ [(f.pos, f.len)]
      stuck := x.stuck.or (some ⟨f.pos, f.len, va, none⟩) } := by
  rw [State.arriveChunk, hk]
  exact if_neg (by simpa using hfrm)

theorem execParkedChunkWrite_of {num : Nat} {k : Parked}
    (hk : (s.parked.find? fun k => k.recorded && k.resolved && k.num == num) = some k) (hdata : k.flight.data = .data bs)
    (hx : ({ s with parked := s.parked.filter (·.id != k.id) } : State).xfers.find? (·.id == k.flight.xfer) = some x) :
    execParkedChunkWrite num s = .next (if s.landWaits x k.flight.pos k.flight.len then s
      else State.arriveChunk { s with parked := s.parked.filter (·.id != k.id) } x k.flight bs).marked := by
  unfold execParkedChunkWrite
  rw [hk]
  dsimp only
  rw [show s.xfers.find? (·.id == k.flight.xfer) = some x from hx, hdata]
  rfl

theorem execLocalPullFault_of {k : Stuck} (hx : s.xfers.find? (·.id == x.id) = some x) (hk : x.stuck = some k) (hnum : k.num = none) :
    execLocalPullFault x.id s = .next (if s.ringRoom = true then State.setXfer
      (s.writeRecord 3 .write 0 k.va x.rx.ptn (s.tileIds x.rx.ptn).1 (s.tileIds x.rx.ptn).2)
      { x with stuck := some { k with num := some s.fltwr.toNat } } else s).marked := by
  rw [execLocalPullFault, hx]
  dsimp only
  rw [State.recordStuck, hk]
  dsimp only
  cases hroom : s.ringRoom with
  | true =>
    rw [if_neg (by simp [hnum]), if_pos rfl]
    rfl
  | false =>
    rw [if_pos (by simp), if_neg Bool.false_ne_true]
    rfl

theorem State.pumped_idle (h : ∀ x ∈ s.xfers, ∀ c, x.next = some c → s.mayAsk x c = false) : s.pumped = s := by
  have hnone : (s.xfers.find? fun x => match x.next with | some c => s.mayAsk x c | none => false) = none := by
    rw [List.find?_eq_none]
    intro x hx
    split
    next c hc => simp [h x hx c hc]
    next => exact Bool.false_ne_true
  rw [State.pumped]
  cases 100000 * (1 + s.xfers.length) with
  | zero => rfl
  | succ n =>
    rw [State.pump]
    split
    · rfl
    next y hy =>
      exfalso
      have hy' : (s.xfers.find? fun x => match x.next with | some c => s.mayAsk x c | none => false) = some y := hy
      rw [hnone] at hy'
      cases hy'

theorem execChunkRedrive_of {c : Nat × Nat} {l : List (Nat × Nat)} (hx : s.xfers.find? (·.id == x.id) = some x) (hl : x.redo = c :: l)
    (hask : s.mayAsk x c = true) : execChunkRedrive x.id s = .next (s.ask x { x with redo := l } c).pumped.marked := by
  rw [execChunkRedrive, hx]
  dsimp only
  rw [hl]
  exact if_pos hask

theorem State.refusedChunk_of {dest : Member} {xfer pos n : Nat} (hdest : dest.modu = s.modId)
    (hx : (s.xfers.find? fun x => x.id == xfer && x.out.contains (pos, n)) = some x) :
    s.refusedChunk dest xfer pos n = s.staleChunk x (pos, n) := by
  rw [State.refusedChunk, beq_iff_eq.2 hdest]
  simp only [Bool.true_and]
  rw [hx]

end

/-! ### Refusals by version (R312) -/

theorem execStaleRefuse_chunk {xfer pos n : Nat} {dest : Member} {x : Xfer} {i : Instr} (hdest : dest.modu = s.modId)
    (hx : (s.xfers.find? fun x => x.id == xfer && x.out.contains (pos, n)) = some x)
    (hi : (∃ f : Flight, i = .staleRefuse (.flight f) ∧ f.dest = dest ∧ f.xfer = xfer ∧ f.pos = pos ∧ f.len = n)
      ∨ ∃ p : Pull, i = .staleRefuse (.pull p) ∧ p.dest = dest ∧ p.xfer = xfer ∧ p.pos = pos ∧ p.len = n) :
    exec i s = .next (s.staleChunk x (pos, n)).marked := by
  rw [← State.refusedChunk_of hdest hx]
  rcases hi with ⟨f, rfl, rfl, rfl, rfl, rfl⟩ | ⟨p, rfl, rfl, rfl, rfl, rfl⟩
  · have e : exec (.staleRefuse (.flight f)) s = execStaleRefuse (.flight f) s := rfl
    rw [e, execStaleRefuse]
    rfl
  · have e : exec (.staleRefuse (.pull p)) s = execStaleRefuse (.pull p) s := rfl
    rw [e, execStaleRefuse]
    rfl

theorem execStaleRefuse_report {dest : Nat} {q q' : Packet} (h : reportAgain s.cur.toNat q = some q') :
    execStaleRefuse (.report dest q) s = .next (if s.outbox.any (·.2 == q) = true then s.send dest q' else s).marked := by
  rw [execStaleRefuse, h]
  rfl

/-! ### The end of a transfer ID (R253, R258, R305, R307) -/

theorem filter_delivered (far : List Served) :
    (far.filter fun r => s.delivered (some r.ver)) = far.filter (fun r => decide (r.ver = s.cur.toNat)) :=
  List.filter_congr fun _ _ => State.delivered_some

theorem execTransferIdComplete_of {sid : Nat} {chan : Fin 16} {id : Nat} {far : List Served} {p : PostRec} {t : Strand}
    (hp : ((far.filter (·.ver = s.cur.toNat)).foldl State.takeServed s).post? sid chan id = some p)
    (ht : ((far.filter (·.ver = s.cur.toNat)).foldl State.takeServed s).strand? sid = some t) :
    execTransferIdComplete sid chan id far s
      = .next (if ((far.filter (·.ver = s.cur.toNat)).foldl State.takeServed s).postDone p = true
        then (((far.filter (·.ver = s.cur.toNat)).foldl State.takeServed s).completeId p t).pumped
        else (far.filter (·.ver = s.cur.toNat)).foldl State.takeServed s).marked := by
  rw [execTransferIdComplete, filter_delivered]
  rw [hp, ht]
  dsimp only
  split <;> rfl

end

theorem PostRec.token_toNat (p : PostRec) (hchan : p.chan < 16) (hutag : p.utag < 2 ^ 32) (hfail : ∀ c, p.fail = some c → c < 64) :
    p.token.toNat = 2 ^ 63 + p.status * 2 ^ 56
      + ((match p.work with | .coll _ => 0x10 | .fire _ => 0x20) + p.chan) * 2 ^ 48 + p.id % 65536 * 2 ^ 32 + p.utag := by
  have hstatus : p.status < 128 := by
    rw [PostRec.status]
    split
    next c hc =>
      have := hfail c hc
      omega
    next => split <;> split <;> split <;> split <;> omega
  have hengine : (match p.work with | .coll _ => 0x10 | .fire _ => 0x20) + p.chan < 48 := by
    split <;> omega
  rw [PostRec.token]
  generalize (match p.work with | .coll _ => 0x10 | .fire _ => 0x20) + p.chan = engine at hengine ⊢
  rw [BitVec.toNat_ofNat]
  omega

theorem State.noteWrites_mem (d : Nat) : ∀ (l : List (Nat × Nat)) (s : State),
    (s.noteWrites d l).mem = s.mem ∧ (s.noteWrites d l).xfers = s.xfers
  | [], _ => ⟨rfl, rfl⟩
  | p :: l, s => by
    obtain ⟨hmem, hxfers⟩ := noteWrites_mem d l (s.noteWrite d p.1 p.2)
    have hrest := s.noteWrite_rest d p.1 p.2
    refine ⟨hmem.trans ?_, hxfers.trans ?_⟩
    · rw [hrest]
    · rw [hrest]

/-- A transfer a chunk of which has landed with no flag. -/
def Xfer.landed (x : Xfer) (pos n : Nat) : Xfer := { x with
  out := x.out.erase (pos, n)
  left := x.left - n
  flags := ⟨x.flags.nan || false, x.flags.inf || false, x.flags.ovf || false⟩ }

/-- A chunk of a transfer that counts nowhere and has more to come, as it lands. -/
theorem State.landChunk_place {s : State} {x : Xfer} {pos n port key : Nat} {bs : List Byte} (hhow : x.how = .place) (hbce : x.bce = false)
    (hpost : x.post = none) (hlen : bs.length = n) (hmore : n < x.left) :
    s.landChunk x pos n port bs [(key, n)] = ((s.write key bs).noteWrites
      (if x.notice.frm.modu = s.modId then dieOf x.rx.ptn else portDie port) [(key, n)]).setXfer (x.landed pos n) := by
  have hpieces : s.writePieces [(key, n)] bs = s.write key bs := by
    rw [State.writePieces, State.writePieces, ← hlen, List.take_length]
  obtain ⟨id, rx, ctx, post, notice, ssp, src, dst, len, how, bce, bca, rr, sender, asked, out, redo, left, stuck, flags, fail⟩ := x
  cases hhow
  cases hbce
  cases hpost
  have hleft : ¬ left - n = 0 := by
    have : n < left := hmore
    omega
  unfold State.landChunk
  dsimp only
  rw [hpieces, if_neg Bool.false_ne_true, State.settleXfer]
  exact if_neg hleft

theorem landChunk_results {s : State} {x : Xfer} {pos n port key : Nat} {bs : List Byte} (hcan : s.Canonical) (hhow : x.how = .place)
    (hbce : x.bce = false) (hpost : x.post = none) (hlen : bs.length = n) (hmore : n < x.left) :
    let u := s.landChunk x pos n port bs [(key, n)]
    (∀ i : Fin bs.length, Memory.get u.mem (key + i) = bs[i]) ∧ s.SameOutside u key n
      ∧ (s.xfers.find? (·.id == x.id) = some x → ∃ y, u.xfers.find? (·.id == x.id) = some y ∧ y.left = x.left - n
        ∧ y.out = x.out.erase (pos, n)) := by
  intro u
  obtain ⟨hmem, hxfers⟩ := (s.write key bs).noteWrites_mem (if x.notice.frm.modu = s.modId then dieOf x.rx.ptn else portDie port) [(key, n)]
  have hu := State.landChunk_place (s := s) (pos := pos) (port := port) (key := key) hhow hbce hpost hlen hmore
  have humem : u.mem = Memory.write s.mem key bs := (congrArg State.mem hu).trans hmem
  refine ⟨fun i => ?_, fun j hj => ?_, fun hx => ⟨x.landed pos n, ?_, rfl, rfl⟩⟩
  · rw [humem]
    exact Memory.get_write_inside hcan i.isLt
  · rw [humem]
    exact Memory.get_write_outside hcan (by rwa [hlen])
  · have huxfers : u.xfers = replaceIf s.xfers (·.id == x.id) (x.landed pos n) := by
      refine (congrArg State.xfers hu).trans ?_
      rw [State.setXfer, hxfers]
      rfl
    rw [huxfers]
    exact find?_replaceIf_same (p := fun y : Xfer => y.id == x.id) (by simp [Xfer.landed]) (Option.isSome_iff_exists.2 ⟨x, hx⟩)

theorem Strand.closeId_open (t : Strand) (p : PostRec) (chan : Fin 16) (hchan : p.chan = chan) :
    (t.closeId p).chans[chan].open_ = (t.chans[chan].open_).erase p.id := by
  rw [Strand.closeId, hchan]
  dsimp only
  rw [vset_eq_set, vget_eq_getElem]
  simp

/-- The strand of an ID that has completed, its token posted where one is due. -/
def Strand.completed (t : Strand) (p : PostRec) : Strand :=
  if p.tok || p.fail.isSome || p.miss then { t.closeId p with k2 := t.k2 ++ [p.token] } else t.closeId p

/-- The state without what a completed ID has left: its claims and its post. -/
def State.withoutPost (s : State) (p : PostRec) : State := { (s.release (.firing p.sid p.chan p.id)) with
  posts := s.posts.filter fun q => !(q.sid == p.sid && q.chan == p.chan && q.id == p.id)
  ended := if p.neverRan then p :: s.ended.filter (fun q => !q.sameInstance p) else s.ended }

/-- The state of an ID that has completed, before a held post of its channel is handed over. -/
def State.completing (s : State) (p : PostRec) (t : Strand) : State :=
  if p.tok || p.fail.isSome || p.miss then ((s.withoutPost p).setStrand (t.closeId p)).postK2 (t.closeId p) p.token
  else (s.withoutPost p).setStrand (t.closeId p)

theorem State.completeId_cases (s : State) (p : PostRec) (t : Strand) : s.completeId p t
    = match (s.completing p t).posts.find? fun q => q.sid == p.sid && q.chan == p.chan && !q.handed with
      | none => s.completing p t
      | some q => (s.completing p t).handPost q.sid q.chan q.id := rfl

theorem State.withoutPost_mem (s : State) (p : PostRec) : (s.withoutPost p).mem = s.mem := by
  dsimp only [State.withoutPost, State.release]

theorem State.completing_spec {s : State} {p : PostRec} {t : Strand} (ht : s.strand? p.sid = some t) (hwait : t.k2wait = [])
    (hroom : t.k2.length + t.poppedHere 2 < 16) :
    (s.completing p t).strand? p.sid = some (t.completed p) ∧ (s.completing p t).posts = (s.withoutPost p).posts
    ∧ (s.completing p t).claims = (s.withoutPost p).claims ∧ (s.completing p t).mem = s.mem := by
  have hsid : t.sid = p.sid := State.strand?_sid ht
  have hclosed : ((s.withoutPost p).setStrand (t.closeId p)).strand? (t.closeId p).sid = some (t.closeId p) :=
    State.strand?_setStrand ⟨t, by rw [show (t.closeId p).sid = p.sid from hsid]; exact ht⟩
  unfold State.completing Strand.completed
  by_cases hdue : (p.tok || p.fail.isSome || p.miss) = true
  · have hk2 : (t.closeId p).k2wait.isEmpty = true ∧ (t.closeId p).k2Room = true :=
      ⟨by rw [show (t.closeId p).k2wait = [] from hwait]; rfl, decide_eq_true hroom⟩
    rw [if_pos hdue, if_pos hdue, State.postK2, if_pos hk2]
    dsimp only [State.progress, State.setStrand]
    refine ⟨?_, rfl, rfl, s.withoutPost_mem p⟩
    have h := State.strand?_setStrand (t := { t.closeId p with k2 := t.k2 ++ [p.token] }) ⟨_, hclosed⟩
    rw [← hsid]
    exact h
  · rw [if_neg hdue, if_neg hdue]
    refine ⟨?_, rfl, rfl, s.withoutPost_mem p⟩
    rw [← hsid]
    exact hclosed

theorem completeId_results {s : State} {p : PostRec} {t : Strand} {chan : Fin 16} (ht : s.strand? p.sid = some t) (hchan : p.chan = chan)
    (hhanded : ∀ q ∈ s.posts, q.sid = p.sid → q.chan = p.chan → q.handed = true) (hnodup : (t.chans[chan].open_).Nodup)
    (hwait : t.k2wait = []) (hroom : t.k2.length + t.poppedHere 2 < 16) :
    ∃ r : Strand, (s.completeId p t).strand? p.sid = some r ∧ p.id ∉ r.chans[chan].open_
      ∧ (s.completeId p t).post? p.sid p.chan p.id = none
      ∧ (∀ k ∈ (s.completeId p t).claims, k.holder ≠ .firing p.sid p.chan p.id) ∧ s.SameMemory (s.completeId p t)
      ∧ r.k2 = if p.tok = true ∨ p.fail ≠ none ∨ p.miss = true then t.k2 ++ [p.token] else t.k2 := by
  obtain ⟨hstrand, hposts, hclaims, hmem⟩ := State.completing_spec ht hwait hroom
  have hnone : ((s.completing p t).posts.find? fun q => q.sid == p.sid && q.chan == p.chan && !q.handed) = none := by
    rw [hposts, List.find?_eq_none]
    intro q hq h
    simp only [Bool.and_eq_true, beq_iff_eq, Bool.not_eq_true'] at h
    obtain ⟨⟨hsid, hqchan⟩, hq'⟩ := h
    have htrue := hhanded q (List.mem_filter.1 hq).1 hsid hqchan
    rw [hq'] at htrue
    cases htrue
  have hend : s.completeId p t = s.completing p t := by rw [State.completeId_cases, hnone]
  rw [hend]
  refine ⟨t.completed p, hstrand, ?_, ?_, fun k hk => ?_, fun j => by rw [hmem], ?_⟩
  · have hopen : (t.completed p).chans = (t.closeId p).chans := by
      unfold Strand.completed
      split <;> rfl
    rw [hopen, t.closeId_open p chan hchan]
    exact fun h => ((hnodup.mem_erase_iff).1 h).1 rfl
  · rw [State.post?, hposts, List.find?_eq_none]
    intro q hq
    have h := (List.mem_filter.1 hq).2
    rw [Bool.not_eq_true'] at h
    rw [h]
    exact Bool.false_ne_true
  · rw [hclaims] at hk
    have h := (List.mem_filter.1 hk).2
    exact bne_iff_ne.1 h
  · have hdue : (p.tok || p.fail.isSome || p.miss) = true ↔ (p.tok = true ∨ p.fail ≠ none ∨ p.miss = true) := by
      rw [Bool.or_eq_true, Bool.or_eq_true, Option.isSome_iff_ne_none, or_assoc]
    unfold Strand.completed
    by_cases h : (p.tok || p.fail.isSome || p.miss) = true
    · rw [if_pos h, if_pos (hdue.1 h)]
    · rw [if_neg h, if_neg (mt hdue.2 h)]
      rfl

/-- Settles O54: each event's rule is a lemma about its own function. -/
theorem fabricEvents : Obligations.FabricEvents := by
  refine ⟨fun s => ⟨fun n => ⟨fun hdest hver => ⟨execReadinessNotice_taken hdest hver, fun e i peer sender hbody => ?_⟩,
      fun h => execReadinessNotice_refused h⟩,
    fun p hfrm hver => ⟨fun hr => execPullRequest_lost hfrm hver hr, fun hr hw => execPullRequest_waits hfrm hver hr hw,
      fun q hr hw hssp hpost hbad => execPullRequest_sends hfrm hver hr hw hssp hpost hbad⟩,
    fun f x bs keys hx hpark hver hdata hhow => ⟨fun hw => execChunkLand_waits hx hpark hw, fun hw hk => ?_, fun va hw hk hfrm => ?_⟩,
    fun num k x bs hk hdata hx => execParkedChunkWrite_of hk hdata hx, fun x k hx hk hnum => ⟨fun hroom => ?_, fun hroom => ?_⟩,
    fun port => rfl, State.pumped_idle,
    fun p chan c hp hchan hhanded hwork hpers hone => execParkedNoticeRelease_of hp hchan hhanded hwork hpers hone,
    fun sid chan id far p t hp ht => ⟨fun hdone => ?_, fun hdone => ?_⟩,
    fun x c l hx hl hask => execChunkRedrive_of hx hl hask, fun n p hp hfrm hserved => execNoticeResend_of hp hfrm hserved,
    fun n hfrm => ?_, fun xfer pos n dest x i hdest hx hi => ⟨fun hrr => ?_, fun hrr => ?_⟩, fun c hfrm => ?_,
    fun dest q q' hq => ⟨fun h => ?_, fun h => ?_⟩⟩,
    fun s x pos n port key bs hcan hhow hbce hpost hlen hmore => landChunk_results hcan hhow hbce hpost hlen hmore,
    fun s p t chan ht hchan hhanded hnodup hwait hroom => completeId_results ht hchan hhanded hnodup hwait hroom, fun p hchan hutag hfail => ?_⟩
  · rw [State.takeNotice_fire hbody]
    exact ⟨_, rfl, rfl, rfl, rfl, rfl, rfl, rfl, rfl, rfl, rfl⟩
  · exact (execChunkLand_arrives hx hpark hver hdata hw).trans (by rw [State.arriveChunk_placed hhow hk])
  · exact (execChunkLand_arrives hx hpark hver hdata hw).trans (by rw [State.arriveChunk_stuck hk hfrm])
  · have h := execLocalPullFault_of hx hk hnum
    rw [if_pos hroom] at h
    exact h
  · have h := execLocalPullFault_of hx hk hnum
    rw [if_neg (by simp [hroom])] at h
    exact h
  · have h := execTransferIdComplete_of hp ht
    rw [if_pos hdone] at h
    exact h
  · have h := execTransferIdComplete_of hp ht
    rw [if_neg (by simp [hdone])] at h
    exact h
  · have e : exec (.staleRefuse (.notice n)) s = execStaleRefuse (.notice n) s := rfl
    rw [e, execStaleRefuse, if_pos hfrm]
    rfl
  · rw [execStaleRefuse_chunk hdest hx (hi.elim fun f h => h.imp (fun h => ⟨f, h⟩) id), State.staleChunk, if_pos hrr]
  · rw [execStaleRefuse_chunk hdest hx (hi.elim fun f h => h.imp (fun h => ⟨f, h⟩) id), State.staleChunk, if_neg (by simp [hrr])]
  · have e : exec (.staleRefuse (.contribution c)) s = execStaleRefuse (.contribution c) s := rfl
    rw [e, execStaleRefuse, if_pos hfrm]
    rfl
  · have hexec := execStaleRefuse_report (s := s) (dest := dest) hq
    rw [if_pos h] at hexec
    exact hexec
  · have hexec := execStaleRefuse_report (s := s) (dest := dest) hq
    rw [if_neg (by simp [h])] at hexec
    exact hexec
  · exact p.token_toNat hchan hutag hfail

end Sys2Proof.Machine
end

section
/-! PROOF. The events of agreements: contributions, timeouts, answers and notices (R312, R375, R379 to R381, R384, R387). -/

namespace Sys2Proof.Machine

/-! ### Packets that leave (R311, R314) -/

/-- A state from which packets have left. -/
def State.sentTo (s : State) (outbox : List (Nat × Packet)) (departing : List (Nat × Packet)) : State :=
  { s with outbox := outbox, departing := departing }

theorem State.send_sent (s : State) (m : Nat) (p : Packet) : ∃ o d, s.send m p = s.sentTo o d := by
  unfold State.send
  split
  · exact ⟨_, s.departing, rfl⟩
  · exact ⟨s.outbox, _, rfl⟩
  · exact ⟨s.outbox, s.departing, rfl⟩

theorem State.foldl_sent {α : Type} {g : State → α → State} (hg : ∀ s a, ∃ o d, g s a = s.sentTo o d) : ∀ (l : List α) (s : State),
    ∃ o d, l.foldl g s = s.sentTo o d
  | [], s => ⟨s.outbox, s.departing, rfl⟩
  | a :: l, s => by
    obtain ⟨o, d, h⟩ := hg s a
    obtain ⟨o', d', h'⟩ := foldl_sent hg l (g s a)
    exact ⟨o', d', by rw [List.foldl_cons, h', h]; rfl⟩

theorem State.tellRound_sent (s : State) (r : AgRoot) : ∃ o d, s.tellRound r = s.sentTo o d :=
  State.foldl_sent (fun s _ => s.send_sent ..) _ s

/-- The answers of a round that stay in this module. -/
def answersHere (m : Nat) (l : List Contribution) (v : Bool) (status : Nat) : List (Nat × Fin 4 × Bool × Nat) :=
  (l.filter (·.frm = m)).map fun d => (d.strand, Fin.ofNat 4 d.slot, v, status)

theorem State.sendAnswer_eq (s : State) (c : Contribution) (v : Bool) (status : Nat) :
    ∃ o d, s.sendAnswer c v status = { s.sentTo o d with answers := s.answers ++ answersHere s.modId [c] v status } := by
  unfold State.sendAnswer answersHere
  by_cases h : c.frm = s.modId
  · rw [if_pos h, List.filter_cons_of_pos (by simpa using h)]
    exact ⟨s.outbox, s.departing, rfl⟩
  · rw [if_neg h, List.filter_cons_of_neg (by simpa using h)]
    obtain ⟨o, d, hs⟩ := s.send_sent c.frm (.answer c.frm c.strand c.slot v status)
    refine ⟨o, d, ?_⟩
    rw [hs]
    simp [State.sentTo]

theorem answersHere_cons (m : Nat) (c : Contribution) (l : List Contribution) (v : Bool) (status : Nat) :
    answersHere m (c :: l) v status = answersHere m [c] v status ++ answersHere m l v status := by
  unfold answersHere
  rw [← List.map_append, ← List.filter_append]
  rfl

theorem State.answerAll_eq (v : Bool) (status : Nat) : ∀ (l : List Contribution) (s : State),
    ∃ o d, s.answerAll l v status = { s.sentTo o d with answers := s.answers ++ answersHere s.modId l v status }
  | [], s => ⟨s.outbox, s.departing, by simp [State.answerAll, answersHere, State.sentTo]⟩
  | c :: l, s => by
    obtain ⟨o, d, h⟩ := s.sendAnswer_eq c v status
    obtain ⟨o', d', h'⟩ := answerAll_eq v status l (s.sendAnswer c v status)
    refine ⟨o', d', ?_⟩
    rw [answersHere_cons, ← List.append_assoc]
    unfold State.answerAll at h' ⊢
    rw [List.foldl_cons, h', h]
    rfl

/-! ### Roots (R375, R379, R381) -/

theorem State.root?_gid {s : State} {gid : Nat} {r : AgRoot} (h : s.root? gid = some r) : r.gid = gid := by
  simpa using List.find?_some h

theorem State.setRoot_roots {s : State} {gid : Nat} {r r' : AgRoot} (h : s.root? gid = some r) (hg : r'.gid = gid) :
    s.setRoot r' = { s with roots := replaceIf s.roots (·.gid == gid) r' } := by
  have hany : s.roots.any (·.gid == r'.gid) = true := by
    rw [hg, List.any_eq_true]
    exact ⟨r, List.mem_of_find?_eq_some h, by simpa using State.root?_gid h⟩
  rw [State.setRoot, if_pos hany, hg]

theorem State.root?_setRoot {s : State} {gid : Nat} {r r' : AgRoot} (h : s.root? gid = some r) (hg : r'.gid = gid) :
    (s.setRoot r').root? gid = some r' := by
  rw [State.setRoot_roots h hg]
  exact find?_replaceIf_same (p := fun r : AgRoot => r.gid == gid) (by simp [hg]) (Option.isSome_iff_exists.2 ⟨r, h⟩)

/-- A root that is not given up is found as before. -/
theorem State.root?_discardRoot {s : State} {gid : Nat} {r : AgRoot} (h : s.root? gid = some r) (hgone : r.gone = false) :
    (s.discardRoot gid).root? gid = some r := by
  unfold State.root? State.discardRoot at *
  dsimp only
  generalize s.roots = roots at h ⊢
  induction roots with
  | nil => cases h
  | cons x l ih =>
    rw [List.filter_cons]
    by_cases hx : (x.gid == gid) = true
    · rw [List.find?_cons_of_pos (p := fun r : AgRoot => r.gid == gid) hx] at h
      cases h
      rw [hgone, Bool.and_false, Bool.not_false, if_pos rfl, List.find?_cons_of_pos (p := fun r : AgRoot => r.gid == gid) hx]
    · rw [List.find?_cons_of_neg (p := fun r : AgRoot => r.gid == gid) hx] at h
      rw [show (x.gid == gid) = false by simpa using hx, Bool.false_and, Bool.not_false, if_pos rfl,
        List.find?_cons_of_neg (p := fun r : AgRoot => r.gid == gid) hx]
      exact ih h

theorem AgRoot.gone_of_busy {r : AgRoot} (h : r.busy = true) : r.gone = false := by
  unfold AgRoot.gone
  split
  · rfl
  · rw [h]
    rfl

/-- A round as it ends: its answers, and the root that has advanced. -/
theorem State.resolveRoot_eq {s : State} {gid : Nat} {r r0 : AgRoot} (hr0 : s.root? gid = some r0) (hg : r.gid = gid) (forced : Option Nat)
    {status : Nat} (hst : (match forced with | some st => st | none => if r.bad then 4 else r.outcome.2) = status) :
    ∃ (o d : List (Nat × Packet)) (n : Nat), (s.resolveRoot r forced).1 = { s.sentTo o d with
        answers := s.answers ++ answersHere s.modId r.got (if status = 1 then r.outcome.1 else freeAgreed (r.agreed.getD s.fresh)) status
        roots := replaceIf s.roots (·.gid == gid) (r.advanced status)
        fresh := n }
      ∧ (s.resolveRoot r forced).2 = r.early := by
  obtain ⟨o, d, h⟩ := State.answerAll_eq (if status = 1 then r.outcome.1 else freeAgreed (r.agreed.getD s.fresh)) status r.got s
  have hroot : (s.answerAll r.got (if status = 1 then r.outcome.1 else freeAgreed (r.agreed.getD s.fresh)) status).root? gid = some r0 := by
    rw [h]
    exact hr0
  have hset := State.setRoot_roots (r' := r.advanced status) hroot hg
  have hroots : (s.answerAll r.got (if status = 1 then r.outcome.1 else freeAgreed (r.agreed.getD s.fresh)) status).roots = s.roots := by
    rw [h]
    rfl
  rw [hroots] at hset
  have hend : s.resolveRoot r forced = ({ (if r.pre.isEmpty then
        (s.answerAll r.got (if status = 1 then r.outcome.1 else freeAgreed (r.agreed.getD s.fresh)) status).setRoot (r.advanced status)
      else State.tellRound
        ((s.answerAll r.got (if status = 1 then r.outcome.1 else freeAgreed (r.agreed.getD s.fresh)) status).setRoot (r.advanced status))
        (r.advanced status)) with
      fresh := if status = 1 || r.agreed.isSome then s.fresh else s.fresh + 1 }, r.early) := by
    cases forced <;> subst hst <;> rfl
  rw [hend]
  dsimp only
  by_cases hpre : r.pre.isEmpty = true
  · rw [if_pos hpre, hset, h]
    exact ⟨o, d, _, rfl, rfl⟩
  · rw [if_neg hpre]
    obtain ⟨o', d', ht⟩ := ((s.answerAll r.got (if status = 1 then r.outcome.1 else freeAgreed (r.agreed.getD s.fresh)) status).setRoot
      (r.advanced status)).tellRound_sent (r.advanced status)
    rw [ht, hset, h]
    exact ⟨o', d', _, rfl, rfl⟩

/-! ### Contributions (R375, R379) -/

/-- A root that has counted a contribution of the round in progress. -/
def AgRoot.counting (r : AgRoot) (modId : Nat) (c : Contribution) : AgRoot := { r with
  busy := true
  mods := if r.mods.contains c.frm then r.mods else r.mods ++ [c.frm]
  tiles := if c.frm = modId ∧ !r.tiles.contains c.tile then r.tiles ++ [c.tile] else r.tiles
  got := r.got ++ [c] }

section
variable {s : State} {c f : Contribution} {r : AgRoot}

theorem State.takeOne_counts (hr : s.root? c.gid = some r) (hf : r.first = some f) (hgroup : sameGroup c f = true) (hround : c.round = r.round)
    (hexc : r.exc.contains c.midx = false) (hmis : r.mis = []) (hbusy : r.busy = true) (hbad : r.bad = false)
    (hgot : r.got.any (·.midx == c.midx) = false) :
    s.takeOne c = if (r.counting s.modId c).full then (s.setRoot (r.counting s.modId c)).resolveRoot (r.counting s.modId c) none
      else (s.setRoot (r.counting s.modId c), []) := by
  have hnext : c.round ≠ (r.round + 1) % 256 := by omega
  have hcount : s.countContribution r c = (s, r.counting s.modId c) := by
    unfold State.countContribution
    dsimp only
    rw [if_neg (by simp [hbad, hf, hgroup, hgot, hmis]), hbusy]
    rfl
  unfold State.takeOne
  dsimp only
  rw [hr, Option.getD_some]
  simp only [hf, Option.isSome_some, ↓reduceIte]
  rw [if_neg (by rw [hexc]; exact Bool.false_ne_true), if_neg hnext, if_neg (by simp [hround]), if_neg (by simp [hbusy]), hcount]
  dsimp only
  rw [hbusy]
  rfl

theorem execContributionArrive_of {s1 : State} (hr : s.root? c.gid = some r) (hearly : r.early = []) (hmod : c.rmod = s.modId)
    (hver : c.frm = s.modId ∨ c.ver = s.cur.toNat)
    (htake : State.takeOne { s with contribs := s.contribs.erase c } c = (s1, [])) :
    exec (.contributionArrive c) s = .next (s1.discardRoot c.gid).marked := by
  have e : exec (.contributionArrive c) s = execContributionArrive c s := rfl
  rw [e]
  unfold execContributionArrive
  dsimp only
  rw [if_neg (by rintro (h | ⟨h1, h2⟩); exacts [h hmod, hver.elim h1 h2]),
    show ({ s with contribs := s.contribs.erase c } : State).root? c.gid = some r from hr, Option.map_some, Option.getD_some, hearly]
  change Host.Outcome.next (State.takeContributions 2 [c] { s with contribs := s.contribs.erase c }).marked = _
  rw [State.takeContributions, htake]
  rfl

theorem contribution_kept (hr : s.root? c.gid = some r) (hf : r.first = some f) (hmod : c.rmod = s.modId)
    (hver : c.frm = s.modId ∨ c.ver = s.cur.toNat) (hgroup : sameGroup c f = true) (hround : c.round = r.round)
    (hexc : r.exc.contains c.midx = false) (hmis : r.mis = []) (hbusy : r.busy = true) (hbad : r.bad = false)
    (hgot : r.got.any (·.midx == c.midx) = false) (hearly : r.early = []) (hfull : AgRoot.full { r with got := r.got ++ [c] } = false) :
    ∃ (u : State) (q : AgRoot), exec (.contributionArrive c) s = .next u
      ∧ u.root? c.gid = some q ∧ q.got = r.got ++ [c] ∧ q.round = r.round ∧ q.busy = true ∧ q.exc = r.exc ∧ q.left = r.left
      ∧ u.answers = s.answers ∧ u.SameMemory s := by
  have htake := State.takeOne_counts (s := { s with contribs := s.contribs.erase c }) hr hf hgroup hround hexc hmis hbusy hbad hgot
  rw [if_neg (by rw [show (r.counting s.modId c).full = false from hfull]; exact Bool.false_ne_true)] at htake
  have hrg : r.gid = c.gid := State.root?_gid hr
  have hgid : (r.counting s.modId c).gid = c.gid := hrg
  have hroot := State.root?_setRoot (s := { s with contribs := s.contribs.erase c }) hr hgid
  refine ⟨_, r.counting s.modId c, execContributionArrive_of hr hearly hmod hver htake,
    State.root?_discardRoot hroot (AgRoot.gone_of_busy rfl), rfl, rfl, rfl, rfl, rfl, rfl, fun _ => rfl⟩

/-- The value of an operation that no round can refuse. -/
theorem AgRoot.outcome_of {q : AgRoot} (hf : q.first = some f) (hop : f.op < 2) :
    q.outcome = (if f.op = 0 then q.got.all (·.value) else q.got.any (·.value), 1) := by
  rw [AgRoot.outcome, hf]
  have hcases : f.op = 0 ∨ f.op = 1 := by omega
  rcases hcases with h | h <;> simp [h]

/-- A round that is full ends with its operation's value. -/
theorem State.resolveRoot_value {gid : Nat} {q r0 : AgRoot} (hr : s.root? gid = some r0) (hg : q.gid = gid) (hf : q.first = some f)
    (hop : f.op < 2) (hbad : q.bad = false) : (s.resolveRoot q none).1.answers
      = s.answers ++ answersHere s.modId q.got (if f.op = 0 then q.got.all (·.value) else q.got.any (·.value)) 1
    ∧ (s.resolveRoot q none).2 = q.early := by
  obtain ⟨o, d, n, heq, hmore⟩ := State.resolveRoot_eq (status := 1) hr hg none
    (by dsimp only; rw [hbad, if_neg Bool.false_ne_true, AgRoot.outcome_of hf hop])
  rw [if_pos rfl, AgRoot.outcome_of hf hop] at heq
  exact ⟨by rw [heq], hmore⟩

theorem contribution_resolves (hr : s.root? c.gid = some r) (hf : r.first = some f) (hmod : c.rmod = s.modId)
    (hver : c.frm = s.modId ∨ c.ver = s.cur.toNat) (hgroup : sameGroup c f = true) (hround : c.round = r.round)
    (hexc : r.exc.contains c.midx = false) (hmis : r.mis = []) (hbusy : r.busy = true) (hbad : r.bad = false)
    (hgot : r.got.any (·.midx == c.midx) = false) (hearly : r.early = []) (hfull : AgRoot.full { r with got := r.got ++ [c] } = true)
    (hop : f.op < 2) : ∃ u : State, exec (.contributionArrive c) s = .next u
      ∧ u.answers = s.answers ++ ((r.got ++ [c]).filter (·.frm = s.modId)).map fun d => (d.strand, Fin.ofNat 4 d.slot,
        (if f.op = 0 then (r.got ++ [c]).all (·.value) else (r.got ++ [c]).any (·.value)), 1) := by
  have htake := State.takeOne_counts (s := { s with contribs := s.contribs.erase c }) hr hf hgroup hround hexc hmis hbusy hbad hgot
  rw [if_pos (show (r.counting s.modId c).full = true from hfull)] at htake
  have hrg : r.gid = c.gid := State.root?_gid hr
  have hgid : (r.counting s.modId c).gid = c.gid := hrg
  have hroot := State.root?_setRoot (s := { s with contribs := s.contribs.erase c }) hr hgid
  obtain ⟨hans, hmore⟩ := State.resolveRoot_value hroot hgid (q := r.counting s.modId c) hf hop hbad
  have hpair : State.takeOne { s with contribs := s.contribs.erase c } c
      = ((({ s with contribs := s.contribs.erase c } : State).setRoot (r.counting s.modId c)).resolveRoot (r.counting s.modId c) none |>.1, []) :=
    htake.trans (Prod.ext rfl (hmore.trans hearly))
  exact ⟨_, execContributionArrive_of hr hearly hmod hver hpair, hans⟩

/-! ### Timeouts (R381) -/

theorem agreementTimeout_of {gid : Nat} (hr : s.root? gid = some r) (hf : r.first = some f) (htmo : f.tmo ≠ 0) (hbusy : r.busy = true)
    (hpre : r.pre = []) (hleft : r.left = 0) (hearly : r.early = []) :
    ∃ (u : State) (v : Bool), exec (.agreementTimeout gid) s = .next u
      ∧ u.answers = s.answers ++ (r.got.filter (·.frm = s.modId)).map (fun d => (d.strand, Fin.ofNat 4 d.slot, v, 2))
      ∧ ∀ q, u.root? gid = some q → q.round = (r.round + 1) % 256 ∧ q.busy = false ∧ q.got = [] := by
  obtain ⟨o, d, n, heq, hmore⟩ := State.resolveRoot_eq (status := 2) hr (State.root?_gid hr) (some 2) rfl
  rw [hearly] at hmore
  have e : exec (.agreementTimeout gid) s = execAgreementTimeout gid s := rfl
  have hexec : exec (.agreementTimeout gid) s = .next ((s.resolveRoot r (some 2)).1.discardRoot gid).marked := by
    rw [e, execAgreementTimeout, hr]
    dsimp only
    rw [if_pos (by simp [hbusy, hpre, hleft, hf, htmo]), hmore]
    rfl
  refine ⟨_, freeAgreed (r.agreed.getD s.fresh), hexec, ?_, fun q hq => ?_⟩
  · change (s.resolveRoot r (some 2)).1.answers = _
    rw [heq]
    rfl
  · have hmem : q ∈ (s.resolveRoot r (some 2)).1.roots := (List.mem_filter.1 (List.mem_of_find?_eq_some hq)).1
    have hqg : q.gid = gid := State.root?_gid hq
    rw [heq] at hmem
    obtain ⟨y, _, hy⟩ := List.mem_map.1 hmem
    by_cases hyg : (y.gid == gid) = true
    · rw [if_pos hyg] at hy
      subst hy
      exact ⟨rfl, rfl, rfl⟩
    · rw [if_neg hyg] at hy
      subst hy
      exact absurd (by simpa using hqg) hyg

/-! ### Leaves (R377, R384) -/

/-- A root whose member has left. -/
def AgRoot.leaving (r : AgRoot) (count midx : Nat) (counted : Bool) : AgRoot :=
  let q := { r with pre := r.pre.filter (· != midx), count := r.count.or (if count = 0 then none else some count) }
  if counted then { q with later := q.later ++ [midx] } else { q with exc := (q.exc ++ [midx]).eraseDups }

/-- A root's members have been told what it notes of them: other modules by packets, and the strands here by PM. -/
theorem State.tellPm_rest (s : State) (q : AgRoot) : (s.tellPm q).roots = s.roots ∧ (s.tellPm q).answers = s.answers
    ∧ (s.tellPm q).modId = s.modId ∧ (s.tellPm q).fresh = s.fresh := by
  obtain ⟨o, d, h⟩ := (s.setPm q.gid (!q.pre.isEmpty)).tellRound_sent q
  rw [State.tellPm, h]
  exact ⟨rfl, rfl, rfl, rfl⟩

/-- A leave up to the end of the round that it may make full. -/
theorem State.rootLeave_eq {gid count midx : Nat} {out counted : Bool} (hr : s.root? gid = some r)
    (hcounted : (out || r.got.any (·.midx == midx) || r.mis.contains midx) = counted) :
    ∃ w : State, s.rootLeave gid count midx out = w.settleRoot gid ∧ w.root? gid = some (r.leaving count midx counted)
      ∧ w.answers = s.answers ∧ w.modId = s.modId := by
  have hgid : (r.leaving count midx counted).gid = gid := by
    rw [← State.root?_gid hr]
    cases counted <;> rfl
  have hroot := State.root?_setRoot hr hgid
  have hset := State.setRoot_roots hr hgid
  have hleave : s.rootLeave gid count midx out = (if r.pre.isEmpty || !(r.leaving count midx counted).pre.isEmpty
      then s.setRoot (r.leaving count midx counted)
      else (s.setRoot (r.leaving count midx counted)).tellPm (r.leaving count midx counted)).settleRoot gid := by
    unfold State.rootLeave
    rw [hr]
    dsimp only [Option.getD_some]
    rw [hcounted]
    rfl
  refine ⟨_, hleave, ?_⟩
  split
  · rw [hset] at hroot ⊢
    exact ⟨hroot, rfl, rfl⟩
  · obtain ⟨hroots, hans, hmod, _⟩ := (s.setRoot (r.leaving count midx counted)).tellPm_rest (r.leaving count midx counted)
    rw [State.root?, hroots, hans, hmod]
    rw [hset] at hroot ⊢
    exact ⟨hroot, rfl, rfl⟩

theorem State.settleRoot_open {gid : Nat} {q : AgRoot} (hq : s.root? gid = some q) (hbusy : q.busy = true) (hfull : q.full = false) :
    (s.settleRoot gid).root? gid = some q ∧ (s.settleRoot gid).answers = s.answers := by
  rw [State.settleRoot, hq]
  dsimp only
  rw [if_neg (by simp [hfull])]
  exact ⟨State.root?_discardRoot hq (AgRoot.gone_of_busy hbusy), rfl⟩

theorem State.settleRoot_full {gid : Nat} {q : AgRoot} (hq : s.root? gid = some q) (hbusy : q.busy = true) (hfull : q.full = true)
    (hf : q.first = some f) (hop : f.op < 2) (hbad : q.bad = false) (hearly : q.early = []) :
    (s.settleRoot gid).answers
      = s.answers ++ answersHere s.modId q.got (if f.op = 0 then q.got.all (·.value) else q.got.any (·.value)) 1 := by
  obtain ⟨hans, hmore⟩ := State.resolveRoot_value hq (State.root?_gid hq) hf hop hbad
  rw [hearly] at hmore
  rw [State.settleRoot, hq]
  dsimp only
  rw [if_pos (by simp [hbusy, hfull]), hmore]
  exact hans

theorem exec_leaveNotice (gid count ver midx : Nat) (out : Bool) (s : State) : exec (.leaveNotice ⟨gid, count, ver⟩ midx out) s
    = .next (if s.delivered (some ver) then s.rootLeave gid count midx out else s).marked := rfl

theorem exec_leaveNotice_now (gid count midx : Nat) (out : Bool) (s : State) :
    exec (.leaveNotice ⟨gid, count, s.cur.toNat⟩ midx out) s = .next (s.rootLeave gid count midx out).marked := by
  rw [exec_leaveNotice, if_pos (State.delivered_of fun n hn => (Option.some.inj hn).symm)]

/-- Whether a leaving member counts in the round in progress. -/
def AgRoot.counts (r : AgRoot) (midx : Nat) (out : Bool) : Bool := out || r.got.any (·.midx == midx) || r.mis.contains midx

theorem AgRoot.counts_iff (r : AgRoot) (midx : Nat) (out : Bool) :
    r.counts midx out = true ↔ out = true ∨ r.got.any (·.midx == midx) = true ∨ r.mis.contains midx = true := by
  rw [AgRoot.counts, Bool.or_eq_true, Bool.or_eq_true, or_assoc]

theorem leave_open {gid count midx : Nat} {out counted : Bool} (hr : s.root? gid = some r) (hbusy : r.busy = true)
    (hcounted : r.counts midx out = counted) (hfull : (r.leaving count midx counted).full = false) :
    ∃ (u : State) (q : AgRoot), exec (.leaveNotice ⟨gid, count, s.cur.toNat⟩ midx out) s = .next u ∧ u.root? gid = some q
      ∧ q = r.leaving count midx counted ∧ u.answers = s.answers := by
  obtain ⟨w, hleave, hroot, hans, _⟩ := State.rootLeave_eq (count := count) hr hcounted
  have hqbusy : (r.leaving count midx counted).busy = true := by cases counted <;> exact hbusy
  obtain ⟨hsettled, hkept⟩ := State.settleRoot_open hroot hqbusy hfull
  refine ⟨_, _, exec_leaveNotice_now .., ?_, rfl, ?_⟩
  · rw [hleave]
    exact hsettled
  · rw [hleave]
    exact hkept.trans hans

theorem leave_resolves {gid count midx : Nat} {out : Bool} (hr : s.root? gid = some r) (hf : r.first = some f) (hbusy : r.busy = true)
    (hcounted : r.counts midx out = false) (hfull : AgRoot.full { r with exc := (r.exc ++ [midx]).eraseDups } = true) (hop : f.op < 2)
    (hbad : r.bad = false) (hearly : r.early = []) :
    ∃ u : State, exec (.leaveNotice ⟨gid, count, s.cur.toNat⟩ midx out) s = .next u
      ∧ u.answers = s.answers ++ (r.got.filter (·.frm = s.modId)).map fun d => (d.strand, Fin.ofNat 4 d.slot,
        (if f.op = 0 then r.got.all (·.value) else r.got.any (·.value)), 1) := by
  obtain ⟨w, hleave, hroot, hans, hmod⟩ := State.rootLeave_eq (count := count) hr hcounted
  have hsettled := State.settleRoot_full (q := r.leaving count midx false) hroot hbusy hfull hf hop hbad hearly
  refine ⟨_, exec_leaveNotice_now .., ?_⟩
  rw [hleave]
  rw [hans, hmod] at hsettled
  exact hsettled

end

/-! ### Notices of pre-emption (R384) -/

theorem State.rootPre_root {s : State} {gid midx : Nat} {on : Bool} {r : AgRoot} (hr : s.root? gid = some r) :
    (s.rootPre gid midx on).root? gid
      = some { r with pre := if on then (r.pre ++ [midx]).eraseDups else r.pre.filter (· != midx) } := by
  have hgid : r.gid = gid := State.root?_gid hr
  have hroot := State.root?_setRoot (r' := { r with pre := if on then (r.pre ++ [midx]).eraseDups else r.pre.filter (· != midx) }) hr hgid
  obtain ⟨hroots, _⟩ := (s.setRoot { r with pre := if on then (r.pre ++ [midx]).eraseDups else r.pre.filter (· != midx) }).tellPm_rest
    { r with pre := if on then (r.pre ++ [midx]).eraseDups else r.pre.filter (· != midx) }
  rw [State.rootPre, hr, Option.getD_some, State.root?, hroots]
  exact hroot

theorem exec_preemptedNotice_now (gid midx : Nat) (busy : Bool) (s : State) :
    exec (.preemptedNotice gid ⟨midx, busy, s.cur.toNat⟩) s = .next (s.preNotice gid midx true busy).marked := by
  have e : exec (.preemptedNotice gid ⟨midx, busy, s.cur.toNat⟩) s = execPreemptedNotice gid ⟨midx, busy, s.cur.toNat⟩ s := rfl
  rw [e, execPreemptedNotice, if_pos (State.delivered_of fun n hn => (Option.some.inj hn).symm)]
  rfl

theorem exec_resumeNotice_now (gid midx : Nat) (busy : Bool) (s : State) :
    exec (.resumeNotice gid ⟨midx, busy, s.cur.toNat⟩) s = .next (s.preNotice gid midx false false).marked := by
  have e : exec (.resumeNotice gid ⟨midx, busy, s.cur.toNat⟩) s = execResumeNotice gid ⟨midx, busy, s.cur.toNat⟩ s := rfl
  rw [e, execResumeNotice, if_pos (State.delivered_of fun n hn => (Option.some.inj hn).symm)]
  rfl

theorem notices_stale (gid midx : Nat) (busy : Bool) {s : State} {old : Nat} (h : old ≠ s.cur.toNat) :
    exec (.preemptedNotice gid ⟨midx, busy, old⟩) s = .next s.marked ∧ exec (.resumeNotice gid ⟨midx, busy, old⟩) s = .next s.marked := by
  have e1 : exec (.preemptedNotice gid ⟨midx, busy, old⟩) s = execPreemptedNotice gid ⟨midx, busy, old⟩ s := rfl
  have e2 : exec (.resumeNotice gid ⟨midx, busy, old⟩) s = execResumeNotice gid ⟨midx, busy, old⟩ s := rfl
  have hd : ¬ s.delivered (some old) = true := by rw [State.delivered_some, decide_eq_false h]; exact Bool.false_ne_true
  rw [e1, e2, execPreemptedNotice, execResumeNotice, if_neg hd, if_neg hd]
  exact ⟨rfl, rfl⟩

/-- A strand with PM set or cleared in its slots of a group. -/
def Strand.pmSet (t : Strand) (gid : Nat) (on : Bool) : Strand :=
  { t with ags := t.ags.map fun a => if a.joined && fld a.agb 0 24 == gid then { a with pm := on } else a }

theorem State.setPm_strand {s : State} {gid sid : Nat} {on : Bool} {t : Strand} (ht : s.strand? sid = some t) :
    (s.setPm gid on).strand? sid = some (t.pmSet gid on) := 
  State.strand?_map (p := fun t => t.pmSet gid on) (fun _ => rfl) ht

theorem Strand.pmSet_pm {t : Strand} {gid : Nat} {on : Bool} {n : Fin 4} (hj : t.ags[n].joined = true)
    (hg : t.ags[n].agb.toNat % 2 ^ 24 = gid) : (t.pmSet gid on).ags[n].pm = on := by
  have hfld : fld t.ags[n].agb 0 24 = gid := by rw [fld_zero, hg]
  have hcond : (t.ags[n].joined && fld t.ags[n].agb 0 24 == gid) = true := by rw [hj, hfld]; simp
  have e : (t.pmSet gid on).ags[n] = { t.ags[n] with pm := on } := by
    rw [Strand.pmSet]
    dsimp only
    rw [Fin.getElem_fin, Vector.getElem_map]
    exact if_pos hcond
  rw [e]

theorem State.preNotice_elsewhere {s : State} {gid : Nat} (midx : Nat) (on busy : Bool) (h : s.rootElsewhere gid = true) :
    (∀ g, g ∈ (s.preNotice gid midx on busy).roundsElsewhere ↔ if g = gid then (on && busy) = true else g ∈ s.roundsElsewhere)
    ∧ ∀ (sid : Nat) (t : Strand) (n : Fin 4), s.strand? sid = some t → t.ags[n].joined = true → t.ags[n].agb.toNat % 2 ^ 24 = gid →
      ((s.preNotice gid midx on busy).strand? sid).map (fun x => x.ags[n].pm) = some on := by
  rw [State.preNotice, if_pos h]
  refine ⟨fun g => ?_, fun sid t n ht hj hg => ?_⟩
  · change g ∈ (if (on && busy) = true then gid :: s.roundsElsewhere.filter (· != gid) else s.roundsElsewhere.filter (· != gid)) ↔ _
    by_cases hg : g = gid
    · subst hg
      cases on && busy <;> simp
    · cases on && busy <;> simp [hg]
  · have hstrand := State.setPm_strand (s := { s with roundsElsewhere :=
        if on && busy then gid :: s.roundsElsewhere.filter (· != gid) else s.roundsElsewhere.filter (· != gid) })
      (gid := gid) (on := on) ht
    dsimp only
    rw [hstrand, Option.map_some, Strand.pmSet_pm hj hg]

/-! ### Answers (R380, R385, R387) -/

/-- Strands as they were, contexts of the same numbers, in one cycle. -/
structure State.SameNumbers (s t : State) : Prop where
  strands : t.strands = s.strands
  ctxs : t.ctxs.map (·.id) = s.ctxs.map (·.id)
  cycle : t.cycle = s.cycle

theorem State.SameNumbers.trans {s t u : State} (a : s.SameNumbers t) (b : t.SameNumbers u) : s.SameNumbers u :=
  ⟨b.strands.trans a.strands, b.ctxs.trans a.ctxs, b.cycle.trans a.cycle⟩

theorem State.foldl_sameNumbers {α : Type} {g : State → α → State} (hg : ∀ (s : State) (a : α), s.SameNumbers (g s a)) : ∀ (l : List α) (s : State),
    s.SameNumbers (l.foldl g s)
  | [], _ => ⟨rfl, rfl, rfl⟩
  | a :: l, s => (hg s a).trans (foldl_sameNumbers hg l (g s a))

theorem State.SameNumbers.ctx {s t : State} (h : s.SameNumbers t) (id : Nat) : (t.ctx? id).isSome = (s.ctx? id).isSome :=
  find?_key_isSome h.ctxs id

theorem State.undoByte_sameNumbers (s : State) (u : Nat × Byte × Byte) : s.SameNumbers (s.undoByte u) := by
  unfold State.undoByte
  split
  · exact ⟨rfl, rfl, rfl⟩
  · refine ⟨rfl, ?_, rfl⟩
    dsimp only
    rw [List.map_map]
    refine List.map_congr_left fun c _ => ?_
    rw [Function.comp_apply]
    split <;> rfl

theorem State.undoKilled_sameNumbers (s : State) (p : Spec) : s.SameNumbers (s.undoKilled p) := by
  unfold State.undoKilled
  induction p.killed with
  | nil => exact ⟨rfl, rfl, rfl⟩
  | cons x l ih => exact ih.trans (State.foldl_sameNumbers State.undoByte_sameNumbers _ _)

theorem State.redoKilled_sameNumbers (s : State) (p : Spec) : s.SameNumbers (s.redoKilled p) := by
  unfold State.redoKilled
  refine State.foldl_sameNumbers (fun s x => State.foldl_sameNumbers (fun s u => ?_) _ _) _ _
  split
  · exact ⟨rfl, rfl, rfl⟩
  · exact ⟨rfl, rfl, rfl⟩

theorem State.setCounter_sameNumbers (s : State) (k : Nat) (bal : Word) (pend : Nat) : s.SameNumbers (s.setCounter k bal pend) := by
  unfold State.setCounter
  generalize wordBytes bal ++ _ = l
  exact ⟨rfl, rfl, rfl⟩

theorem State.rearm_sameNumbers (s : State) (ctx : Nat) (x : Nat × Nat) : s.SameNumbers (s.rearm ctx x) := by
  have h := s.setCounter_sameNumbers x.1 (s.counterBal x.1 - BitVec.ofNat 64 x.2) (s.counterPend x.1)
  unfold State.rearm
  generalize s.setCounter x.1 _ _ = w at h
  exact ⟨h.strands, h.ctxs, h.cycle⟩

section
variable {f : Frame} {p : Spec}

/-- The machine under a strand that is restored. -/
theorem Frame.restore_spec (f : Frame) (p : Spec) : f.s.SameNumbers (f.restore p).s
    ∧ (f.restore p).t.drain = f.t.drain ∧ (f.restore p).t.sid = f.t.sid ∧ (f.restore p).t.spec = none ∧ (f.restore p).t.ags = f.t.ags
    ∧ (f.restore p).t.acq = f.t.acq
    ∧ (f.restore p).c = { p.check with
        mxe := (f.restore p).c.mxe, xfu := (f.restore p).c.xfu
        away := f.c.away, wants := f.c.wants, acsw := f.c.acsw, bad := f.c.bad } := by
  have hrearm := State.foldl_sameNumbers (fun s x => s.rearm_sameNumbers f.c.id x) p.disarmed (f.s.redoKilled p)
  have h := (f.s.redoKilled_sameNumbers p).trans hrearm
  unfold Frame.restore
  dsimp only
  generalize List.foldl _ (f.s.redoKilled p) p.disarmed = w at h
  exact ⟨⟨h.strands, h.ctxs, h.cycle⟩, rfl, rfl, rfl, rfl, rfl, rfl⟩

/-- What a mismatch leaves. -/
theorem Frame.mispredicted_spec (f : Frame) (p : Spec) (v : Bool) (hstrand : ∃ t, f.s.strand? f.t.sid = some t)
    (hctx : ∃ c, f.s.ctx? f.c.id = some c) : ∃ t : Strand, (f.mispredicted p v).strand? f.t.sid = some t
      ∧ t.spec = none ∧ t.ags = f.t.ags ∧ t.acq = f.t.acq ∧ t.drain = f.t.drain
      ∧ (p.check.id = f.c.id → ∃ c, (f.mispredicted p v).ctx? f.c.id = some c ∧ c.low = p.check.low
        ∧ c.ring = p.check.ring ∧ c.vregs = p.check.vregs ∧ c.preds = p.check.preds ∧ (v = true → c.pc = p.taken)) := by
  obtain ⟨hsame, hdrain, hsid, hspec, hags, hacq, hc⟩ := f.restore_spec p
  have hgstrand : ∃ t, (f.restore p).s.strand? (f.restore p).t.sid = some t := by
    rw [hsid, State.strand?, hsame.strands]
    exact hstrand
  have hgctx : p.check.id = f.c.id → ∃ c, (f.restore p).s.ctx? f.c.id = some c := fun _ => by
    refine Option.isSome_iff_exists.1 ?_
    rw [hsame.ctx]
    exact Option.isSome_iff_exists.2 hctx
  have put : ∀ c : Ctx, c.id = p.check.id → ∃ t : Strand,
      (Frame.put { f.restore p with c := c }).strand? f.t.sid = some t ∧ t.spec = none ∧ t.ags = f.t.ags ∧ t.acq = f.t.acq
      ∧ t.drain = f.t.drain ∧ (p.check.id = f.c.id → (Frame.put { f.restore p with c := c }).ctx? f.c.id = some c) := fun c hcid => by
    refine ⟨(f.restore p).t, ?_, hspec, hags, hacq, hdrain, fun hid => ?_⟩
    · rw [← hsid]
      exact Frame.put_strand (f := { f.restore p with c := c }) hgstrand
    · have hset := State.ctx?_setCtx (s := (f.restore p).s.setStrand (f.restore p).t) (c := c) (by rw [hcid, hid]; exact hgctx hid)
      rw [hcid, hid] at hset
      exact hset
  unfold Frame.mispredicted
  dsimp only
  cases v with
  | true =>
    rw [if_pos rfl]
    have hlev := (f.restore p).c.leaveBodies_levels p.taken
    obtain ⟨t, ht, h1, h2, h3, h4, h5⟩ := put (((f.restore p).c.leaveBodies p.taken).goto p.taken) (by rw [hlev, hc]; rfl)
    refine ⟨t, ht, h1, h2, h3, h4, fun hid => ⟨_, h5 hid, ?_, ?_, ?_, ?_, fun _ => rfl⟩⟩
    all_goals rw [hlev, hc]; rfl
  | false =>
    rw [if_neg Bool.false_ne_true]
    have hlev := Ctx.bodyEnd_levels (f.restore p).c.pc p.other 6 (f.restore p).c
    obtain ⟨t, ht, h1, h2, h3, h4, h5⟩ := put ((Ctx.bodyEnd (f.restore p).c.pc p.other 6 (f.restore p).c).1.goto
      (Ctx.bodyEnd (f.restore p).c.pc p.other 6 (f.restore p).c).2) (by rw [hlev, hc]; rfl)
    refine ⟨t, ht, h1, h2, h3, h4, fun hid => ⟨_, h5 hid, ?_, ?_, ?_, ?_, fun h => by cases h⟩⟩
    all_goals rw [hlev, hc]; rfl

/-- What a confirmation leaves. -/
theorem Frame.confirm_spec (f : Frame) (p : Spec) (hstrand : ∃ t, f.s.strand? f.t.sid = some t) (hctx : ∃ c, f.s.ctx? f.c.id = some c)
    (hcycle : p.trap = none ∨ f.t.drain ++ p.stores ≠ []) : ∃ t : Strand, (f.confirm p).strand? f.t.sid = some t
      ∧ t.spec = none ∧ t.ags = f.t.ags ∧ t.acq = f.t.acq ∧ t.drain = f.t.drain ++ p.stores ∧ t.drainGo = f.s.cycle + 1 ∧ t.trap = p.trap
      ∧ t.heart = f.t.heart + BitVec.ofNat 64 p.heart ∧ (f.confirm p).ctx? f.c.id = some f.c := by
  have hbase : f.s.SameNumbers (if f.t.waits = some .agreement
      then { (if p.heart = 0 then f.s else f.s.progress f.t.task) with
        turn := (if p.heart = 0 then f.s else f.s.progress f.t.task).turn.filter (· != f.t.sid) }
      else if p.heart = 0 then f.s else f.s.progress f.t.task) := by
    split <;> split <;> exact ⟨rfl, rfl, rfl⟩
  have hsame := hbase.trans (State.undoKilled_sameNumbers _ p)
  unfold Frame.confirm
  dsimp only
  rw [Frame.takeConfirmed_of hcycle.symm]
  generalize State.undoKilled _ p = w at hsame ⊢
  refine ⟨{ f.t with
    spec := none, drain := f.t.drain ++ p.stores, drainGo := f.s.cycle + 1, trap := p.trap
    heart := f.t.heart + BitVec.ofNat 64 p.heart, waits := none }, ?_, rfl, rfl, rfl, rfl, rfl, rfl, rfl, ?_⟩
  · refine Frame.put_strand (f := ⟨w, { f.t with
      spec := none, drain := f.t.drain ++ p.stores, drainGo := f.s.cycle + 1, trap := p.trap
      heart := f.t.heart + BitVec.ofNat 64 p.heart, waits := none }, f.c⟩) ?_
    dsimp only
    rw [State.strand?, hsame.strands]
    exact hstrand
  · refine State.ctx?_setCtx (s := w.setStrand _) (Option.isSome_iff_exists.1 ?_)
    change (w.ctx? f.c.id).isSome = true
    rw [hsame.ctx]
    exact Option.isSome_iff_exists.2 hctx

end

/-- A strand's frame once an answer has been noted in a slot (R380). -/
def Frame.answered (f : Frame) (slot : Fin 4) (v : Bool) (status : Nat) : Frame :=
  ⟨State.progress { f.s with answers := f.s.answers.erase (f.t.sid, slot, v, status) } f.t.task,
    { f.t with ags := f.t.ags.set slot { f.t.ags[slot] with
        joined := decide (status ≠ 5), out := false, lv := v, lst := status, rnd := f.t.ags[slot].rnd + 1 } }, f.c⟩

section
variable {s : State} {sid : Nat} {n : Fin 4} {status : Nat} {ver : Option Nat} {f : Frame}

theorem answer_stale (v : Bool) (h : ∃ m, ver = some m ∧ m ≠ s.cur.toNat) :
    exec (.answerArrive sid n v ⟨status, ver⟩) s = .next s.marked := by
  obtain ⟨m, rfl, hm⟩ := h
  have e : exec (.answerArrive sid n v ⟨status, some m⟩) s = execAnswerArrive sid n v ⟨status, some m⟩ s := rfl
  rw [e, execAnswerArrive, State.delivered_some, decide_eq_false hm]
  rfl

variable (hf : s.frameOf sid = some f) (hjoined : f.t.ags[n].joined = true) (hout : f.t.ags[n].out = true)
  (hver : ∀ m, ver = some m → m = s.cur.toNat)
include hf hjoined hout hver

/-- An answer that is delivered, by what it does with the strand's speculation. -/
theorem answer_delivered (v : Bool) : exec (.answerArrive sid n v ⟨status, ver⟩) s = match f.t.spec with
    | none => (f.answered n v status).put.event
    | some p =>
      if p.slot ≠ n.val then (f.answered n v status).put.event
      else if status ≠ 1 then ((f.answered n v status).agreementTrap p status).event
      else
        let g : Frame := { f.answered n v status with t := { (f.answered n v status).t with acq := 3 ≤ slotScope f.t.ags[n] } }
        if v = p.pred then (g.confirm p).event else (g.mispredicted p v).event := by
  obtain ⟨hs, hstrand, hsid, hctx, _⟩ := State.frameOf_parts hf
  subst hs hsid
  have e : exec (.answerArrive f.t.sid n v ⟨status, ver⟩) f.s = execAnswerArrive f.t.sid n v ⟨status, ver⟩ f.s := rfl
  have hf' : State.frameOf { f.s with answers := f.s.answers.erase (f.t.sid, n, v, status) } f.t.sid
      = some ⟨{ f.s with answers := f.s.answers.erase (f.t.sid, n, v, status) }, f.t, f.c⟩ := by
    have h1 : State.strand? { f.s with answers := f.s.answers.erase (f.t.sid, n, v, status) } f.t.sid = some f.t := hstrand
    have h2 : State.ctx? { f.s with answers := f.s.answers.erase (f.t.sid, n, v, status) } f.t.cur = some f.c := hctx
    rw [State.frameOf, h1, Option.bind_some, h2, Option.map_some]
  have hslot : f.t.agSlot n = f.t.ags[n] := vget_eq_getElem _ _ _
  have hans : vset f.t.ags n (f.t.ags[n].answered v status) = f.t.ags.set n { f.t.ags[n] with
      joined := decide (status ≠ 5), out := false, lv := v, lst := status, rnd := f.t.ags[n].rnd + 1 } := by
    rw [vset_eq_set, AgSlot.answered, hjoined, Bool.true_and]
    congr 2
    rw [bne, Bool.eq_iff_iff]
    simp
  rw [e, execAnswerArrive, State.delivered_of hver]
  dsimp only
  rw [if_neg (by decide), hf']
  dsimp only
  rw [hslot, hjoined, hout, hans, if_neg (by decide)]
  rfl

theorem answer_without_spec (v : Bool) (hspec : f.t.spec = none ∨ ∃ p, f.t.spec = some p ∧ p.slot ≠ n) :
    exec (.answerArrive sid n v ⟨status, ver⟩) s = .next (f.answered n v status).put.marked := by
  rw [answer_delivered hf hjoined hout hver]
  rcases hspec with hspec | ⟨p, hspec, hp⟩
  · rw [hspec]
    rfl
  · rw [hspec]
    exact if_pos hp

variable {p : Spec} (hspec : f.t.spec = some p) (hslot : p.slot = n)
include hspec hslot

theorem answer_traps (v : Bool) (hstatus : status ≠ 1) : exec (.answerArrive sid n v ⟨status, ver⟩) s
    = .next ((f.answered n v status).agreementTrap p status).marked := by
  rw [answer_delivered hf hjoined hout hver, hspec]
  dsimp only
  rw [if_neg (by simp [hslot]), if_pos hstatus]
  rfl

theorem answer_ok (v : Bool) (hstatus : status = 1) (hfree : p.trap = none ∨ f.t.drain ++ p.stores ≠ []) :
    ∃ (u : State) (t : Strand), exec (.answerArrive sid n v ⟨status, ver⟩) s = .next u ∧ u.strand? sid = some t
      ∧ t.spec = none ∧ t.ags = (f.answered n v status).t.ags ∧ t.acq = decide (3 ≤ f.t.ags[n].agc.toNat / 2 ^ 24 % 8)
      ∧ (v = p.pred → t.drain = f.t.drain ++ p.stores ∧ t.drainGo = s.cycle + 1 ∧ t.trap = p.trap
        ∧ t.heart = f.t.heart + BitVec.ofNat 64 p.heart ∧ (u.ctx? f.c.id) = some f.c)
      ∧ (v ≠ p.pred → t.drain = f.t.drain ∧ (p.check.id = f.c.id → ∃ c, u.ctx? f.c.id = some c ∧ c.low = p.check.low
        ∧ c.ring = p.check.ring ∧ c.vregs = p.check.vregs ∧ c.preds = p.check.preds ∧ (v = true → c.pc = p.taken))) := by
  obtain ⟨hs, hstrand, hsid, hctx, hid⟩ := State.frameOf_parts hf
  have hexec := answer_delivered hf hjoined hout hver v (status := status)
  rw [hspec] at hexec
  dsimp only at hexec
  rw [if_neg (by simp [hslot]), if_neg (by simp [hstatus])] at hexec
  have hacq : decide (3 ≤ slotScope f.t.ags[n]) = decide (3 ≤ f.t.ags[n].agc.toNat / 2 ^ 24 % 8) := by
    rw [slotScope, fld_eq]
    rfl
  subst hs hsid
  have hstrand' : ∃ t, (f.answered n v status).s.strand? f.t.sid = some t := ⟨_, hstrand⟩
  have hctx' : ∃ c, (f.answered n v status).s.ctx? f.c.id = some c := ⟨f.c, by rw [hid]; exact hctx⟩
  by_cases hv : v = p.pred
  · rw [if_pos hv] at hexec
    obtain ⟨t, ht, h1, h2, h3, h4, h5, h6, h7, h8⟩ := Frame.confirm_spec { f.answered n v status with
      t := { (f.answered n v status).t with acq := decide (3 ≤ slotScope f.t.ags[n]) } } p hstrand' hctx' hfree
    exact ⟨_, t, hexec, ht, h1, h2, h3.trans hacq, fun _ => ⟨h4, h5, h6, h7, h8⟩, fun h => absurd hv h⟩
  · rw [if_neg hv] at hexec
    obtain ⟨t, ht, h1, h2, h3, h4, h5⟩ := Frame.mispredicted_spec { f.answered n v status with
      t := { (f.answered n v status).t with acq := decide (3 ≤ slotScope f.t.ags[n]) } } p v hstrand' hctx'
    exact ⟨_, t, hexec, ht, h1, h2, h3.trans hacq, fun h => absurd h hv, fun _ => ⟨h4, h5⟩⟩

end

theorem agtoSub_eq (status : Nat) : agtoSub status = if 2 ≤ status ∧ status ≤ 5 then status - 2 else 4 := by
  unfold agtoSub
  split <;> simp_all
  omega

/-- The context that an AGTO trap finds at its CBR. -/
theorem Frame.atCbr_ctx (f : Frame) (p : Spec) : (f.atCbr p).c.pc = p.check.pc ∧ (f.atCbr p).c.low = p.check.low
    ∧ (f.atCbr p).c.ring = p.check.ring ∧ (f.atCbr p).c.vregs = p.check.vregs ∧ (f.atCbr p).c.preds = p.check.preds
    ∧ (f.atCbr p).c.ports = p.retry.ports ∧ (f.atCbr p).c.feeds = p.retry.feeds ∧ (f.atCbr p).c.blocks = p.retry.blocks := by
  obtain ⟨_, _, _, _, _, _, hc⟩ := f.restore_spec { p with popped := p.retry.popped ++ p.popped }
  unfold Frame.atCbr
  dsimp only
  rw [hc]
  exact ⟨rfl, rfl, rfl, rfl, rfl, rfl, rfl, rfl⟩

/-- Settles O55: each notice, contribution and answer by the rule of its own function. -/
theorem agreementEvents : Obligations.AgreementEvents := by
  refine ⟨fun s c f r hr hf hmod hver hgroup hround hexc hmis hbusy hbad hgot hearly => ⟨
      contribution_kept hr hf hmod hver hgroup hround hexc hmis hbusy hbad hgot hearly,
      contribution_resolves hr hf hmod hver hgroup hround hexc hmis hbusy hbad hgot hearly⟩,
    fun s gid f r hr hf htmo hbusy hpre hleft hearly => agreementTimeout_of hr hf htmo hbusy hpre hleft hearly,
    fun s sid n v status ver f hf hjoined hout => ⟨answer_stale v, fun hver => ?_⟩,
    fun s gid count midx out f r hr hf hbusy => ⟨fun ver hver => ?_, ?_, ?_, ?_⟩,
    fun s gid midx busy => ⟨fun old hold => notices_stale gid midx busy hold, fun r helse hr => ?_, fun helse => ?_⟩⟩
  · obtain ⟨hs, _, hsid, _, _⟩ := State.frameOf_parts hf
    have hans : f.answered n v status = ⟨State.progress { s with answers := s.answers.erase (sid, n, v, status) } f.t.task,
        { f.t with ags := f.t.ags.set n { f.t.ags[n] with
            joined := decide (status ≠ 5), out := false, lv := v, lst := status, rnd := f.t.ags[n].rnd + 1 } }, f.c⟩ := by
      rw [Frame.answered, hs, hsid]
    refine ⟨fun hspec => ?_, fun p hspec hslot => ⟨fun hstatus => ⟨⟨_, ?_, agtoSub_eq status⟩, Frame.atCbr_ctx _ p⟩, fun hstatus hfree => ?_⟩⟩
    · rw [← hans]
      exact answer_without_spec hf hjoined hout hver v hspec
    · rw [← hans]
      exact answer_traps hf hjoined hout hver hspec hslot v hstatus
    · exact answer_ok hf hjoined hout hver hspec hslot v hstatus hfree
  · rw [exec_leaveNotice, State.delivered_some, decide_eq_false hver]
    rfl
  · intro hcounted hfull
    have hc : r.counts midx out = false := Bool.eq_false_iff.2 fun h => hcounted ((r.counts_iff midx out).1 h)
    obtain ⟨u, q, hu, hq, rfl, ha⟩ := leave_open (count := count) hr hbusy hc hfull
    exact ⟨u, _, hu, hq, rfl, rfl, rfl, rfl, ha⟩
  · intro hcounted hfull hop hbad hearly
    have hc : r.counts midx out = false := Bool.eq_false_iff.2 fun h => hcounted ((r.counts_iff midx out).1 h)
    exact leave_resolves hr hf hbusy hc hfull hop hbad hearly
  · intro hcounted hfull
    obtain ⟨u, q, hu, hq, rfl, ha⟩ := leave_open (count := count) hr hbusy ((r.counts_iff midx out).2 hcounted) hfull
    exact ⟨u, _, hu, hq, rfl, rfl, rfl, rfl, ha⟩
  · refine ⟨_, _, exec_preemptedNotice_now .., exec_resumeNotice_now .., ?_, ?_⟩
    · rw [State.preNotice, if_neg (by simp [helse])]
      exact State.rootPre_root hr
    · rw [State.preNotice, if_neg (by simp [helse])]
      exact State.rootPre_root hr
  · obtain ⟨hrounds, hpm⟩ := State.preNotice_elsewhere midx true busy helse
    obtain ⟨hrounds', hpm'⟩ := State.preNotice_elsewhere midx false false helse
    refine ⟨_, _, exec_preemptedNotice_now .., exec_resumeNotice_now .., hrounds, fun g => (hrounds' g).trans ?_,
      fun sid t n ht hj hg => ⟨hpm sid t n ht hj hg, hpm' sid t n ht hj hg⟩⟩
    by_cases hg : g = gid <;> simp [hg]

end Sys2Proof.Machine
end

section
/-! PROOF. Two strands of one number, the second of them of the task that fails (R30, R46). -/

namespace Sys2Proof.Machine

/-- A task that was launched from the catalogue, with no completion due. -/
def twinTask : Task :=
  ⟨1, 0, .catalogue 0 0, 0, none, none, 0, 0, 0, Vector.replicate 4 0, 0, 0, 0, false, 0, .running, 0, 0, [], [], 0, 0, 0⟩

/-- A tag command of strand 5. -/
def twinCmd : Cmd := ⟨1, 5, 0, 0, false, 0, .copy (selfGather 0) .gather false, true, 0, 0, 0, true, none, [], []⟩

/-- Two strands with the number 5: the first is of task 0, the second of task 1. -/
def twinState : State :=
  let s := slotState .va id
  let strand (t : Strand) (task : Nat) : Strand := { t with sid := 5, task := task }
  { s with strands := (s.strands.map fun t => [strand t 0, strand t 1]).flatten, cmds := [twinCmd] }

/-- Writing the first strand back replaces the second, so that no strand of task 1 is left whose command could be abandoned. -/
theorem twinState_keeps : (twinState.endFailed twinTask 0).cmds.any (·.sid == 5) = true := by decide +kernel

theorem twinState_strand : twinState.strands.any (fun t => t.task == 1 && t.sid == 5) = true := by decide +kernel

/-- Refutes O56: where a task ends as Failed, nothing says that its strands have numbers of their own; one that shares its
number with a strand of another task is replaced by that one, and its tag command stays. -/
theorem not_taskEvents : ¬ Obligations.TaskEvents := by
  rintro ⟨-, -, -, hend, -⟩
  obtain ⟨t, ht, hsid⟩ := List.any_eq_true.1 twinState_strand
  rw [Bool.and_eq_true, beq_iff_eq, beq_iff_eq] at hsid
  obtain ⟨x, hx, hxsid⟩ := List.any_eq_true.1 twinState_keeps
  exact (hend twinState twinTask 0).2 t ht hsid.1 x hx ((beq_iff_eq.1 hxsid).trans hsid.2.symm)

end Sys2Proof.Machine
end

section
/-! PROOF. A packet whose page lies behind a port that retrains (R314, R324). -/

namespace Sys2Proof.Machine

/-- Queue 0 holds one packet, at an address that the page tables of `selfMemory` give to module 1; the only port of the route
to module 1 retrains. -/
def farQueueState : State := { selfState 0 0 with
  optical := State.reset.optical.set 0 { resetPort with state := 1 }
  queues := [{ Queue.start 0 with w0 := 0x8000040400000000, w1 := 0x40000000, wridx := 1 }] }

/-- What a queue's next packet is, and that it may start. -/
def State.nextIsNop (s : State) (q : Nat) : Bool :=
  s.mayStart (s.queue q) && (match s.readPacket (s.queue q) with
    | .error _ => false
    | .ok w => s.packetOk w && decide (w[0].toNat / 2 ^ 60 = 0) && !w[0].getLsbD 53 && !w[0].getLsbD 49)
    && (s.queue q).started.isEmpty

theorem farQueueState_nextIsNop : farQueueState.nextIsNop 0 = true := by decide +kernel

theorem farQueueState_waits : (farQueueState.readOne 0).2 = false := by decide +kernel

/-- Refutes O57: nothing says of the NOP that is to start that its address is not behind a port that retrains, and there the
command core does not read it yet. -/
theorem not_queueEvents : ¬ Obligations.QueueEvents := by
  rintro ⟨-, -, -, -, hnop⟩
  have h := farQueueState_nextIsNop
  unfold State.nextIsNop at h
  split at h
  · simp at h
  next w hw =>
    simp only [Bool.and_eq_true, decide_eq_true_eq, Bool.not_eq_eq_eq_not, Bool.not_true, List.isEmpty_iff] at h
    obtain ⟨⟨hmay, ⟨⟨hok, htype⟩, h53⟩, h49⟩, hnone⟩ := h
    have hstarts := (hnop farQueueState 0 w hmay hw hok htype h53 h49 (by simp [hnone])).1
    rw [farQueueState_waits] at hstarts
    cases hstarts

end Sys2Proof.Machine
end

section
/-! PROOF. The graph sequencer's events (R282, R335 to R337). -/

namespace Sys2Proof.Machine

/-- Graphs, queues and completions as they were. -/
structure State.SameWork (s t : State) : Prop where
  graphs : t.graphs = s.graphs
  queues : t.queues = s.queues
  dues : t.dues = s.dues

theorem State.SameWork.refl (s : State) : s.SameWork s := ⟨rfl, rfl, rfl⟩

theorem State.SameWork.trans {s t u : State} (a : s.SameWork t) (b : t.SameWork u) : s.SameWork u :=
  ⟨b.graphs.trans a.graphs, b.queues.trans a.queues, b.dues.trans a.dues⟩

theorem State.SameWork.graph {s t : State} (h : s.SameWork t) (g : Nat) : t.graph g = s.graph g := by
  rw [State.graph, State.graph, h.graphs]

theorem State.SameWork.queue {s t : State} (h : s.SameWork t) (q : Nat) : t.queue q = s.queue q := by
  rw [State.queue, State.queue, h.queues]

theorem State.foldl_sameWork {α : Type} {g : State → α → State} (hg : ∀ (s : State) (a : α), s.SameWork (g s a)) :
    ∀ (l : List α) (s : State), s.SameWork (l.foldl g s)
  | [], s => .refl s
  | a :: l, s => (hg s a).trans (foldl_sameWork hg l (g s a))

theorem State.writePieces_sameWork : ∀ (l : List (Nat × Nat)) (bs : List Byte) (s : State), s.SameWork (s.writePieces l bs)
  | [], _, s => .refl s
  | (k, n) :: l, bs, s =>
    (show s.SameWork (s.write k (bs.take n)) from ⟨rfl, rfl, rfl⟩).trans (writePieces_sameWork l (bs.drop n) (s.write k (bs.take n)))

theorem State.noteWrites_sameWork (s : State) (d : Nat) (l : List (Nat × Nat)) : s.SameWork (s.noteWrites d l) :=
  State.foldl_sameWork (fun s p => by rw [s.noteWrite_rest d p.1 p.2]; exact ⟨rfl, rfl, rfl⟩) l s

theorem State.noteRead_sameWork (s : State) (d k n : Nat) : s.SameWork (s.noteRead d k n) := ⟨rfl, rfl, rfl⟩

theorem State.noteReads_sameWork (s : State) (d : Nat) (l : List (Nat × Nat)) : s.SameWork (s.noteReads d l) := by
  unfold State.noteReads
  exact State.foldl_sameWork (fun s p => s.noteRead_sameWork d p.1 p.2) l s

theorem State.coreHasRead_sameWork (s : State) (va n : Nat) : s.SameWork (s.coreHasRead va n) := by
  unfold State.coreHasRead
  split
  · exact .refl s
  · exact s.noteReads_sameWork _ _

theorem State.releaseDie_sameWork (s : State) (d : Nat) : s.SameWork (s.releaseDie d) := ⟨rfl, rfl, rfl⟩

theorem State.releaseAll_sameWork (s : State) : s.SameWork s.releaseAll := State.foldl_sameWork State.releaseDie_sameWork _ s

theorem State.coreRelease_sameWork (s : State) (scope : Nat) : s.SameWork (s.coreRelease scope) := by
  unfold State.coreRelease
  split
  · exact s.releaseDie_sameWork 8
  · exact .refl s

theorem State.coreWrite_sameWork {s t : State} {va : Nat} {bs : List Byte} (h : s.coreWrite va bs = .ok t) : s.SameWork t := by
  unfold State.coreWrite at h
  split at h
  · cases h
  next l _ =>
    cases h
    exact (s.writePieces_sameWork l bs).trans (State.noteWrites_sameWork _ 8 l)

theorem State.nodeActs_sameWork {s t : State} {nd : Node} (h : s.nodeActs nd = .ok t) : s.SameWork t := by
  unfold State.nodeActs at h
  split at h
  · exact (s.coreRelease_sameWork nd.rel).trans (State.coreWrite_sameWork h)
  · cases h
    exact (s.coreHasRead_sameWork nd.done 8).trans (State.coreRelease_sameWork _ nd.rel)
  · cases h
    exact .refl s

theorem State.graph_setGraph (s : State) (g : Fin 16) (x : Graph) : (s.setGraph g x).graph g = x := by
  exact vget_vset_same _ _ _ _ g.isLt

theorem State.graph_marked (s : State) (g : Nat) : s.marked.graph g = s.graph g := rfl

theorem State.dues_marked (s : State) : s.marked.dues = s.dues := rfl

theorem State.dues_setGraph (s : State) (g : Nat) (x : Graph) : (s.setGraph g x).dues = s.dues := rfl

theorem State.queue_setGraph (s : State) (g : Nat) (x : Graph) (q : Nat) : (s.setGraph g x).queue q = s.queue q := rfl

section
variable {g : Fin 16} {s : State} {r : Replay} {node : Nat}

theorem execGraphStepBegin_of (hrun : (s.graph g).run = some r) (hstands : s.graphStands g = false) (hbegun : r.begun = false)
    (hover : r.over_ = false) (hfailed : r.failed = none) :
    exec (.graphStepBegin g) s = .next (State.settleReplay
      (State.fireNodes (s.setGraph g { s.graph g with run := some { r with
        begun := true, counts := (s.graph g).nodes.map (·.init), fired := [], worked := [], doneN := [] } }) g
        ((List.range (s.graph g).nodes.length).filter fun n => ((s.graph g).node n).init == 0)) g).marked := by
  have e : exec (.graphStepBegin g) s = execGraphStepBegin g s := rfl
  rw [e, execGraphStepBegin]
  dsimp only
  rw [hrun]
  dsimp only
  rw [hbegun, hover, hfailed, hstands]
  rfl

theorem graphEvents_stand (hstands : s.graphStands g = true) : exec (.graphStepBegin g) s = .next s.marked
    ∧ exec (.graphNodeComplete g node) s = .next s.marked ∧ exec (.condNodeRead g node) s = .next s.marked := by
  have e1 : exec (.graphStepBegin g) s = execGraphStepBegin g s := rfl
  have e2 : exec (.graphNodeComplete g node) s = execGraphNodeComplete g node s := rfl
  have e3 : exec (.condNodeRead g node) s = execCondNodeRead g node s := rfl
  rw [e1, e2, e3, execGraphStepBegin, execGraphNodeComplete, execCondNodeRead]
  cases hrun : (s.graph g).run with
  | none => exact ⟨rfl, rfl, rfl⟩
  | some r =>
    dsimp only
    rw [hstands, Bool.or_true, Bool.or_true, Bool.or_true]
    exact ⟨rfl, rfl, rfl⟩

/-- A replay behind a node that has completed, its counts given. -/
def Replay.completed (r : Replay) (node : Nat) (counts : List Nat) : Replay := { r with
  counts := counts, fired := r.fired.erase node, worked := r.worked.erase node, doneN := r.doneN ++ [node] }

/-- The counts once a node's successors have been counted down. -/
def countedDown (succ counts : List Nat) : List Nat := succ.foldl (fun c m => c.set m (c.getD m 0 - 1)) counts

/-- The nodes that become ready as a node completes. -/
def Graph.madeReady (x : Graph) (node : Nat) (counts : List Nat) : List Nat :=
  (List.range x.nodes.length).filter fun n => (x.node node).succ.contains n && counts.getD n 0 == 0

/-- A replay at its next step. -/
def Replay.nextStep (r : Replay) : Replay := { r with begun := false, later := true, step := r.step + 1, left := r.left - 1 }

/-- A replay after its last step. -/
def Replay.finishing (r : Replay) : Replay := { r with over_ := true }

theorem State.updateReplay_setGraph (s : State) (g : Fin 16) (x : Graph) (r : Replay) (h : Replay → Replay) :
    (s.setGraph g { x with run := some r }).updateReplay g h = (s.setGraph g { x with run := some r }).setGraph g { x with run := some (h r) } := by
  rw [State.updateReplay, State.graph_setGraph]
  rfl

theorem State.endSync_none {s : State} {x : Graph} {r : Replay} (h : r.launched = []) : s.endSync x r = s := by
  rw [State.endSync, h]
  rfl

/-- A replay that is over, with none waiting for its slot. -/
theorem State.settleReplay_last {s : State} {g : Fin 16} {x : Graph} {r : Replay} (hover : r.finished = true) (hwaitq : x.waitq = []) :
    (s.setGraph g { x with run := some r }).settleReplay g
      = (((s.setGraph g { x with run := some r }).coreRelease r.rel).endReplayPacket r.queue r.idx r.own (r.failed.getD 0) r.step
        r.tiles).setGraph g { x with run := none } := by
  rw [State.settleReplay, State.graph_setGraph]
  dsimp only
  rw [if_pos hover, State.endReplay, State.graph_setGraph]
  dsimp only
  rw [hwaitq]

/-- A packet without a record that completes. -/
theorem State.completePacket_silent {s : State} {q idx task detail : Nat} {tiles : List Nat} {p : Started}
    (hp : (s.queue q).started.find? (·.idx == idx) = some p) (h49 : p.words[0].getLsbD 49 = false) :
    (s.completePacket q idx 0 task detail tiles).dues = s.dues ++ [(q, none)] := by
  have hbit : bit (vget p.words 0 0) 49 = false := by
    rw [show vget p.words 0 0 = p.words[0] from vget_eq_getElem p.words (0 : Fin 8) 0]
    exact h49
  rw [State.completePacket, hp]
  dsimp only
  rw [hbit, if_neg (by simp)]
  rfl

theorem Graph.madeReady_one {x : Graph} {m : Nat} {counts : List Nat} (hsucc : (x.node node).succ = [m]) (hm : m < x.nodes.length) :
    x.madeReady node (counts.set m (counts.getD m 0 - 1)) = if counts.getD m 0 ≤ 1 then [m] else [] := by
  have hzero : ((counts.set m (counts.getD m 0 - 1)).getD m 0 == 0) = decide (counts.getD m 0 ≤ 1) := by
    rw [Bool.eq_iff_iff, beq_iff_eq, decide_eq_true_eq]
    by_cases hlt : m < counts.length
    · rw [List.getD_eq_getElem _ _ (by rwa [List.length_set]), List.getElem_set_self, List.getD_eq_getElem _ _ hlt]
      omega
    · rw [List.getD_eq_default _ _ (by rw [List.length_set]; omega), List.getD_eq_default _ _ (by omega)]
      omega
  have hfilter : x.madeReady node (counts.set m (counts.getD m 0 - 1))
      = (List.range x.nodes.length).filter fun n => (n == m) && decide (counts.getD m 0 ≤ 1) := by
    unfold Graph.madeReady
    refine List.filter_congr fun n _ => ?_
    rw [hsucc, ← hzero]
    by_cases hn : n = m
    · subst hn
      simp
    · simp [hn]
  rw [hfilter]
  split
  next hle =>
    simp only [hle, decide_true, Bool.and_true]
    rw [List.filter_beq, List.count_eq_one_of_mem List.nodup_range (List.mem_range.2 hm)]
    rfl
  next hle => simp only [decide_eq_false hle, Bool.and_false, List.filter_false]

variable {t : State} (hrun : (s.graph g).run = some r) (hstands : s.graphStands g = false)
  (hready : s.nodeReady (s.graph g) r node = true) (hacts : s.nodeActs ((s.graph g).node node) = .ok t) (hfailed : r.failed = none)
include hrun hstands hready hacts hfailed

/-- A node that completes, by whether it is the last. -/
theorem execGraphNodeComplete_of {counts : List Nat} (hcounts : countedDown ((s.graph g).node node).succ r.counts = counts) :
    exec (.graphNodeComplete g node) s =
      let u := (t.setGraph g { s.graph g with run := some (r.completed node counts) }).fireNodes g ((s.graph g).madeReady node counts)
      if r.doneN.length + 1 = (s.graph g).nodes.length then .next (u.stepEnd g (s.graph g) (r.completed node counts)).marked
      else .next (u.settleReplay g).marked := by
  subst hcounts
  have e : exec (.graphNodeComplete g node) s = execGraphNodeComplete g node s := rfl
  rw [e, execGraphNodeComplete]
  dsimp only
  rw [hrun]
  dsimp only
  rw [hready, hstands, if_neg (by decide), hacts]
  dsimp only
  rw [hfailed, List.length_append, List.length_singleton]
  by_cases hlast : r.doneN.length + 1 = (s.graph g).nodes.length
  · rw [if_pos hlast, if_pos (by simp [hlast]), Replay.completed, hfailed]
    rfl
  · rw [if_neg hlast, if_neg (by simp [hlast]), Replay.completed, hfailed]
    rfl

/-- A node without successors that is not the last. -/
theorem nodeComplete_none (hsucc : ((s.graph g).node node).succ = []) (hmore : r.doneN.length + 1 < (s.graph g).nodes.length)
    (hover : r.over_ = false) : exec (.graphNodeComplete g node) s
      = .next (t.setGraph g { s.graph g with run := some (r.completed node r.counts) }).marked := by
  rw [execGraphNodeComplete_of hrun hstands hready hacts hfailed (counts := r.counts) (by rw [hsucc]; rfl)]
  dsimp only
  have hnone : (s.graph g).madeReady node r.counts = [] := by simp [Graph.madeReady, hsucc]
  have hgoes : (r.completed node r.counts).finished = false := by simp [Replay.completed, Replay.finished, hover, hfailed]
  rw [if_neg (Nat.ne_of_lt hmore), hnone, State.fireNodes, List.foldl_nil, State.settleReplay, State.graph_setGraph]
  dsimp only
  rw [hgoes]
  rfl

/-- A node with one successor that is not the last. -/
theorem nodeComplete_one {m : Nat} (hsucc : ((s.graph g).node node).succ = [m]) (hm : m < (s.graph g).nodes.length)
    (hmore : r.doneN.length + 1 < (s.graph g).nodes.length) : exec (.graphNodeComplete g node) s
      = .next (State.settleReplay (State.fireNodes
        (t.setGraph g { s.graph g with run := some (r.completed node (r.counts.set m (r.counts.getD m 0 - 1))) }) g
        (if r.counts.getD m 0 ≤ 1 then [m] else [])) g).marked := by
  rw [execGraphNodeComplete_of hrun hstands hready hacts hfailed (counts := r.counts.set m (r.counts.getD m 0 - 1)) (by rw [hsucc]; rfl)]
  dsimp only
  rw [if_neg (Nat.ne_of_lt hmore), Graph.madeReady_one hsucc hm]

/-- The last node of a step that another follows. -/
theorem nodeComplete_next (hsucc : ((s.graph g).node node).succ = []) (hlast : r.doneN.length + 1 = (s.graph g).nodes.length)
    (hending : r.ending = false) (hleft : 2 ≤ r.left) : ∃ (u : State) (q : Replay), exec (.graphNodeComplete g node) s = .next u
      ∧ (u.graph g).run = some q ∧ q.begun = false ∧ q.step = r.step + 1 ∧ q.left + 1 = r.left ∧ q.later = true := by
  have hnone : (s.graph g).madeReady node r.counts = [] := by simp [Graph.madeReady, hsucc]
  have hexec := execGraphNodeComplete_of hrun hstands hready hacts hfailed (counts := r.counts) (by rw [hsucc]; rfl)
  dsimp only at hexec
  rw [if_pos hlast, hnone, State.fireNodes, List.foldl_nil, State.stepEnd, if_neg (by
    change ¬ (r.ending = true ∨ r.left ≤ 1)
    rw [hending, not_or]
    exact ⟨Bool.false_ne_true, by omega⟩)] at hexec
  have hgraph : (((t.setGraph g { s.graph g with run := some (r.completed node r.counts) }).releaseAll).graph g).run
      = some (r.completed node r.counts) := by
    rw [(State.releaseAll_sameWork _).graph, State.graph_setGraph]
  refine ⟨_, (r.completed node r.counts).nextStep, hexec, ?_, rfl, rfl, ?_, rfl⟩
  · rw [State.graph_marked, State.updateReplay, State.graph_setGraph]
    dsimp only
    rw [hgraph]
    rfl
  · change r.left - 1 + 1 = r.left
    omega

/-- The last node of the last step, with nothing else under way. -/
theorem nodeComplete_last (hsucc : ((s.graph g).node node).succ = []) (hlast : r.doneN.length + 1 = (s.graph g).nodes.length)
    (hend : r.ending = true ∨ r.left ≤ 1) (hfired : r.fired = [node]) (hpers : r.pers = []) (hlaunched : r.launched = [])
    (hwaitq : (s.graph g).waitq = []) : ∃ u : State, exec (.graphNodeComplete g node) s = .next u ∧ (u.graph g).run = none
      ∧ (u.graph g).nodes = (s.graph g).nodes
      ∧ ∀ p, r.own = true → (s.queue r.queue).started.find? (·.idx == r.idx) = some p → p.words[0].getLsbD 49 = false →
        u.dues = s.dues ++ [(r.queue, none)] := by
  have hnone : (s.graph g).madeReady node r.counts = [] := by simp [Graph.madeReady, hsucc]
  have hexec := execGraphNodeComplete_of hrun hstands hready hacts hfailed (counts := r.counts) (by rw [hsucc]; rfl)
  dsimp only at hexec
  rw [if_pos hlast, hnone, State.fireNodes, List.foldl_nil, State.stepEnd,
    if_pos (show (r.completed node r.counts).ending = true ∨ (r.completed node r.counts).left ≤ 1 from hend),
    show (fun r : Replay => { r with over_ := true }) = Replay.finishing from rfl,
    State.updateReplay_setGraph, State.endSync_none (show (r.completed node r.counts).launched = [] from hlaunched),
    State.settleReplay_last (by simp [Replay.completed, Replay.finishing, Replay.finished, hfired, hpers]) hwaitq] at hexec
  refine ⟨_, hexec, ?_, ?_, fun p hown hp h49 => ?_⟩
  · rw [State.graph_marked, State.graph_setGraph]
  · rw [State.graph_marked, State.graph_setGraph]
  · have hsame := State.nodeActs_sameWork hacts
    have hqueue : (State.coreRelease ((t.setGraph g { s.graph g with run := some (r.completed node r.counts) }).setGraph g
        { s.graph g with run := some (r.completed node r.counts).finishing }) (r.completed node r.counts).finishing.rel).queue r.queue = s.queue r.queue := by
      rw [(State.coreRelease_sameWork _ _).queue, State.queue_setGraph, State.queue_setGraph, hsame.queue]
    have hdues : (State.coreRelease ((t.setGraph g { s.graph g with run := some (r.completed node r.counts) }).setGraph g
        { s.graph g with run := some (r.completed node r.counts).finishing }) (r.completed node r.counts).finishing.rel).dues = s.dues := by
      rw [(State.coreRelease_sameWork _ _).dues, State.dues_setGraph, State.dues_setGraph, hsame.dues]
    have hfield : (r.completed node r.counts).finishing.failed = none ∧ (r.completed node r.counts).finishing.own = true := ⟨hfailed, hown⟩
    rw [State.dues_marked, State.dues_setGraph, hfield.1, hfield.2, State.endReplayPacket, if_pos rfl]
    generalize State.coreRelease _ _ = w at hqueue hdues ⊢
    rw [← hdues]
    exact State.completePacket_silent (hqueue ▸ hp) h49

end

section
variable {g : Fin 16} {s : State} {r : Replay} {node : Nat}

/-- A COND node's word, read. -/
theorem condNodeRead_of {bs : List Byte} (hrun : (s.graph g).run = some r) (hstands : s.graphStands g = false) (hfired : node ∈ r.fired)
    (hkind : ((s.graph g).node node).kind = 2) (hworked : node ∉ r.worked) (hacq : s.gsqAcquires ((s.graph g).node node) r = true)
    (hread : s.coreRead ((s.graph g).node node).addr 8 = .ok bs) :
    ∃ (u : State) (q : Replay), exec (.condNodeRead g node) s = .next u ∧ (u.graph g).run = some q
      ∧ q.worked = r.worked ++ [node] ∧ (q.ending = true ↔ r.ending = true ∨ numLE bs ≠ 0) := by
  have e : exec (.condNodeRead g node) s = execCondNodeRead g node s := rfl
  have hexec : exec (.condNodeRead g node) s = .next (((((s.coreHasRead ((s.graph g).node node).addr 8).coreRelease
      ((s.graph g).node node).rel).updateReplay g fun r => { r with ending := r.ending || numLE bs != 0 }).nodeWorked g node)).marked := by
    rw [e, execCondNodeRead]
    dsimp only
    rw [hrun]
    dsimp only
    rw [hstands, hkind, hacq, hread, if_neg (by simp [hfired, hworked])]
    rfl
  have hgraph : ((s.coreHasRead ((s.graph g).node node).addr 8).coreRelease ((s.graph g).node node).rel).graph g = s.graph g := by
    rw [(State.coreRelease_sameWork _ _).graph, (State.coreHasRead_sameWork _ _ _).graph]
  generalize State.coreRelease _ _ = w at hexec hgraph
  refine ⟨_, { r with ending := r.ending || numLE bs != 0, worked := r.worked ++ [node] }, hexec, ?_, rfl, by simp⟩
  rw [State.graph_marked, State.nodeWorked, State.updateReplay, State.graph_setGraph, State.updateReplay, State.graph_setGraph, hgraph, hrun]
  rfl

/-- After a failure no node fires. -/
theorem State.fireNode_failed (hrun : (s.graph g).run = some r) (hfailed : r.failed ≠ none) (n : Nat) : s.fireNode g n = s := by
  rw [State.fireNode, hrun]
  dsimp only
  rw [if_pos (Option.isSome_iff_ne_none.2 hfailed)]

end

/-- Settles O58: each event of the sequencer by the rule of its own function. -/
theorem graphEvents : Obligations.GraphEvents := by
  intro g s r hrun
  refine ⟨fun hstands => ⟨(graphEvents_stand (node := 0) hstands).1, fun node => (graphEvents_stand hstands).2⟩,
    fun hstands => ⟨execGraphStepBegin_of hrun hstands, fun node t hready hacts hfailed hover => ⟨fun hmore => ⟨fun hsucc => ?_,
        fun m hsucc hm => ?_⟩, fun hlast hsucc => ⟨fun hending hleft => ?_, fun hend hfired hpers hlaunched hwaitq => ?_⟩⟩,
      fun node bs hfired hkind hworked hacq hread => condNodeRead_of hrun hstands hfired hkind hworked hacq hread⟩,
    fun n hfailed => State.fireNode_failed hrun hfailed n⟩
  · exact nodeComplete_none hrun hstands hready hacts hfailed hsucc hmore hover
  · exact nodeComplete_one hrun hstands hready hacts hfailed hsucc hm hmore
  · exact nodeComplete_next hrun hstands hready hacts hfailed hsucc hlast hending hleft
  · exact nodeComplete_last hrun hstands hready hacts hfailed hsucc hlast hend hfired hpers hlaunched hwaitq

end Sys2Proof.Machine
end

section
/-! PROOF. What the host and the management registers do (R18, R289, R290, R311, R320, R321, R339, R341, R361, R365, R389). -/

namespace Sys2Proof.Machine

variable {s : State}

/-! ### Host accesses (R321) -/

theorem exec_hostRead (b : Bar) (o n : Nat) : exec (.hostMemoryAccess ⟨b, o⟩ (.read n)) s
    = .next (if s.hostAccessOk b o n then s.hostRead b o n else s.tellHost .unsupported).marked := rfl

theorem exec_hostWrite (b : Bar) (o : Nat) (bs : List Byte) : exec (.hostMemoryAccess ⟨b, o⟩ (.write bs)) s
    = .next (if s.hostAccessOk b o bs.length then s.hostWrite b o bs else s.tellHost .unsupported).marked := rfl

theorem hostAccessOk_iff (b : Bar) (o n : Nat) : s.hostAccessOk b o n = true ↔ (s.locked = false ∨ b = .bar2)
    ∧ n ∈ [1, 2, 4, 8, 16, 32, 64] ∧ o % 64 + n ≤ 64 ∧ o + n ≤ barSize b := by
  unfold State.hostAccessOk
  rw [Bool.and_eq_true, Bool.and_eq_true, Bool.and_eq_true, Bool.or_eq_true, List.contains_iff_mem]
  simp only [Bool.not_eq_eq_eq_not, Bool.not_true, beq_iff_eq, decide_eq_true_eq, and_assoc]

theorem host_unsupported (b : Bar) {o n : Nat} (h : n ∉ [1, 2, 4, 8, 16, 32, 64] ∨ 64 < o % 64 + n) :
    s.hostAccessOk b o n = false := by
  rw [Bool.eq_false_iff]
  intro hok
  obtain ⟨_, hsize, hblock, _⟩ := (hostAccessOk_iff b o n).1 hok
  rcases h with h | h
  · exact h hsize
  · omega

theorem hostMemory_read {pa n : Nat} (hlocked : s.locked = false) (hsize : n ∈ [1, 2, 4, 8, 16, 32, 64]) (hblock : pa % 64 + n ≤ 64)
    (hfits : pa + n ≤ 2 ^ 40) (hsound : s.bad (Key.hbm pa) n = false) : exec (.hostMemoryAccess ⟨.bar4, pa⟩ (.read n)) s
      = .next (State.marked { s.noteRead 8 (Key.hbm pa) n with hostbox := s.hostbox ++ [.hostData (Memory.read s.mem pa n)] }) := by
  have hpos : 0 < n := Nat.pos_of_ne_zero fun h => by simp [h] at hsize
  have hkey : Key.hbm pa = pa := Nat.mod_eq_of_lt (by omega)
  have hok : s.hostAccessOk .bar4 pa n = true := (hostAccessOk_iff .bar4 pa n).2 ⟨.inl hlocked, hsize, hblock, hfits⟩
  rw [exec_hostRead, hok, State.hostRead, hsound, hkey]
  rfl

theorem hostMemory_write {pa : Nat} {bs : List Byte} (hlocked : s.locked = false) (hsize : bs.length ∈ [1, 2, 4, 8, 16, 32, 64])
    (hblock : pa % 64 + bs.length ≤ 64) (hfits : pa + bs.length ≤ 2 ^ 40) (hcan : s.Canonical) : ∃ u : State,
      exec (.hostMemoryAccess ⟨.bar4, pa⟩ (.write bs)) s = .next u ∧ s.SameOutside u pa bs.length
        ∧ ∀ i : Fin bs.length, Memory.get u.mem (pa + i) = bs[i] := by
  have hpos : 0 < bs.length := Nat.pos_of_ne_zero fun h => by simp [h] at hsize
  have hkey : Key.hbm pa = pa := Nat.mod_eq_of_lt (by omega)
  have hmem : ((s.write (Key.hbm pa) bs).noteWrite 8 (Key.hbm pa) bs.length).mem = Memory.write s.mem pa bs := by
    rw [State.noteWrite_rest, hkey]
    rfl
  have hok : s.hostAccessOk .bar4 pa bs.length = true := (hostAccessOk_iff .bar4 pa bs.length).2 ⟨.inl hlocked, hsize, hblock, hfits⟩
  have hexec : exec (.hostMemoryAccess ⟨.bar4, pa⟩ (.write bs)) s
      = .next ((s.write (Key.hbm pa) bs).noteWrite 8 (Key.hbm pa) bs.length).marked := by
    rw [exec_hostWrite, hok]
    rfl
  generalize (s.write (Key.hbm pa) bs).noteWrite 8 (Key.hbm pa) bs.length = w at hexec hmem
  refine ⟨w.marked, hexec, fun j hj => ?_, fun i => ?_⟩
  · change Memory.get w.mem j = Memory.get s.mem j
    rw [hmem]
    exact Memory.get_write_outside hcan hj
  · change Memory.get w.mem (pa + i) = _
    rw [hmem]
    exact Memory.get_write_inside hcan i.isLt

/-- A 64-bit access meets its own register alone. -/
theorem wordsMet_aligned {o : Nat} (h : o % 8 = 0) : wordsMet o 8 = [o] := by
  unfold wordsMet
  rw [h]
  simp
  omega

theorem wordBytes_length (w : Word) : (wordBytes w).length = 8 := bytesLE_length 8 _

theorem host_readWord {b : Bar} {o : Nat} (hb : b ≠ .bar4) (halign : o % 8 = 0) (hfits : o + 8 ≤ barSize b)
    (hopen : s.locked = false ∨ b = .bar2) : exec (.hostMemoryAccess ⟨b, o⟩ (.read 8)) s
      = .next (State.marked { s with hostbox := s.hostbox ++ [.hostData (wordBytes (s.barWord b o))] }) := by
  rw [exec_hostRead, if_pos ((hostAccessOk_iff ..).2 ⟨hopen, by simp, by omega, hfits⟩)]
  have hread : s.hostRead b o 8
      = s.tellHost (.hostData ((((wordsMet o 8).map fun o => wordBytes (s.barWord b o)).flatten.drop (o % 8)).take 8)) := by
    cases b with
    | bar4 => exact absurd rfl hb
    | bar0 => rfl
    | bar2 => rfl
  rw [hread, wordsMet_aligned halign, halign]
  simp only [List.map_cons, List.map_nil, List.flatten_cons, List.flatten_nil, List.append_nil, List.drop_zero]
  rw [List.take_of_length_le (by rw [wordBytes_length])]
  rfl

theorem State.mergedWord_whole {b : Bar} {o : Nat} {bs : List Byte} (h : bs.length = 8) :
    s.mergedWord b o o bs = BitVec.ofNat 64 (numLE bs) := by
  unfold State.mergedWord
  dsimp only
  congr 2
  refine List.ext_getElem (by simp [h]) fun j hj _ => ?_
  rw [List.length_map, List.length_range] at hj
  rw [List.getElem_map, List.getElem_range, if_pos (by omega), Nat.add_sub_cancel_left, List.getD_eq_getElem _ _ (by omega)]

theorem host_writeWord {b : Bar} {o : Nat} {bs : List Byte} (hb : b ≠ .bar4) (halign : o % 8 = 0) (hfits : o + 8 ≤ barSize b)
    (hopen : s.locked = false ∨ b = .bar2) (h : bs.length = 8) : exec (.hostMemoryAccess ⟨b, o⟩ (.write bs)) s
      = .next (s.writeBarWord b o (BitVec.ofNat 64 (numLE bs))).marked := by
  rw [exec_hostWrite, if_pos ((hostAccessOk_iff ..).2 ⟨hopen, by simp [h], by omega, by omega⟩)]
  have hwrite : s.hostWrite b o bs
      = (wordsMet o bs.length).foldl (fun s a => s.writeBarWord b a (s.mergedWord b a o bs)) s := by
    cases b with
    | bar4 => exact absurd rfl hb
    | bar0 => rfl
    | bar2 => rfl
  rw [hwrite, h, wordsMet_aligned halign, List.foldl_cons, List.foldl_nil, State.mergedWord_whole h]

/-- The doorbells of a queue through BAR0. -/
theorem host_doorbells {q : Nat} (hq : q < 4096) (hlocked : s.locked = false) :
    exec (.hostMemoryAccess ⟨.bar0, 16 * q⟩ (.read 8)) s
        = .next (State.marked { s with hostbox := s.hostbox ++ [.hostData (wordBytes (s.queue q).wridx)] })
      ∧ exec (.hostMemoryAccess ⟨.bar0, 16 * q + 8⟩ (.read 8)) s
        = .next (State.marked { s with hostbox := s.hostbox ++ [.hostData (wordBytes (s.queue q).crdidx)] })
      ∧ ∀ bs : List Byte, bs.length = 8 →
        exec (.hostMemoryAccess ⟨.bar0, 16 * q⟩ (.write bs)) s = exec (.notifyWrite q (BitVec.ofNat 64 (numLE bs))) s
        ∧ exec (.hostMemoryAccess ⟨.bar0, 16 * q + 8⟩ (.write bs)) s = exec (.crdidxWrite q (BitVec.ofNat 64 (numLE bs))) s := by
  have hdiv : 16 * q / 16 = q ∧ (16 * q + 8) / 16 = q ∧ 16 * q % 16 = 0 ∧ (16 * q + 8) % 16 = 8 := by omega
  obtain ⟨h1, h2, h3, h4⟩ := hdiv
  have hsize : barSize .bar0 = 65536 := rfl
  refine ⟨?_, ?_, fun bs h => ⟨?_, ?_⟩⟩
  · rw [host_readWord (by simp) (by omega) (by omega) (.inl hlocked), State.barWord]
    rw [h1, h3, if_pos (by decide)]
  · rw [host_readWord (by simp) (by omega) (by omega) (.inl hlocked), State.barWord]
    rw [h2, h4, if_neg (by decide)]
  · rw [host_writeWord (by simp) (by omega) (by omega) (.inl hlocked) h, State.writeBarWord]
    rw [h1, h3]
    rfl
  · rw [host_writeWord (by simp) (by omega) (by omega) (.inl hlocked) h, State.writeBarWord]
    rw [h2, h4]
    rfl

/-- A register of the management aperture through BAR2. -/
theorem host_register {o : Nat} (halign : o % 8 = 0) (hlt : o < 2 ^ 24) :
    exec (.hostMemoryAccess ⟨.bar2, o⟩ (.read 8)) s
        = .next (State.marked { s with hostbox := s.hostbox ++ [.hostData (wordBytes (s.readRegister o))] })
      ∧ ∀ bs : List Byte, bs.length = 8 →
        exec (.hostMemoryAccess ⟨.bar2, o⟩ (.write bs)) s = exec (.registerWrite o (BitVec.ofNat 64 (numLE bs))) s := by
  have hsize : barSize .bar2 = 16777216 := rfl
  refine ⟨host_readWord (by simp) halign (by omega) (.inr rfl), fun bs h => ?_⟩
  rw [host_writeWord (by simp) halign (by omega) (.inr rfl) h]
  rfl

/-! ### The tables (R289, R290, R311, R389) -/

theorem groupMemberWrite_of {g m : Nat} (v : BitVec 32) (hg : g < 4096) (hm : m < 512) :
    ∃ u : State, exec (.groupMemberWrite g m v) s = .next u ∧ u.stagedMember g m = v
      ∧ ∀ h n, h < 4096 → n < 512 → (h, n) ≠ (g, m) → u.stagedMember h n = s.stagedMember h n := by
  have hexec : exec (.groupMemberWrite g m v) s
      = .next (State.marked { s with grpMem := insertKey s.grpMem (512 * g + m) v }) := by
    have e : exec (.groupMemberWrite g m v) s = .next (s.writeMember g m v).marked := rfl
    rw [e, State.writeMember, if_pos ⟨hg, hm⟩]
  refine ⟨_, hexec, ?_, fun h n _ hn hne => ?_⟩
  · exact (lookupD_insertKey _ _ _ _ _).trans (if_pos rfl)
  · refine (lookupD_insertKey _ _ _ _ _).trans (if_neg fun heq => hne ?_)
    have h1 : h = g := by omega
    have h2 : n = m := by omega
    rw [h1, h2]

theorem groupHeaderWrite_of {g : Nat} (v : Word) (hg : g < 4096) : ∃ u : State, exec (.groupHeaderWrite g v) s = .next u
    ∧ u.groups.find? (·.1 == g) = some (g, v, (List.range 512).map (s.stagedMember g)) := by
  have hexec : exec (.groupHeaderWrite g v) s = .next (State.marked { s with
      groups := (g, v, (List.range 512).map (s.stagedMember g)) :: s.groups.filter (·.1 != g) }) := by
    have e : exec (.groupHeaderWrite g v) s = .next (s.writeGroup g v).marked := rfl
    rw [e, State.writeGroup, if_pos hg]
  exact ⟨_, hexec, List.find?_cons_of_pos (p := fun x : Nat × Word × List (BitVec 32) => x.1 == g) (beq_self_eq_true g)⟩

theorem routingEntryWrite_of {m : Nat} (v : Word) (hm : m < 2304) : ∃ u w : State,
    exec (.routingEntryWrite m false v) s = .next u ∧ lookupD u.stageMin m 0 = v
      ∧ exec (.routingEntryWrite m true v) s = .next w ∧ lookupD w.stageVia m 0 = v := by
  have e (via : Bool) : exec (.routingEntryWrite m via v) s = .next (s.writeRoute m via v).marked := rfl
  have h1 : exec (.routingEntryWrite m false v) s = .next (State.marked { s with stageMin := insertKey s.stageMin m v }) := by
    rw [e, State.writeRoute, if_neg (by omega), if_neg Bool.false_ne_true]
  have h2 : exec (.routingEntryWrite m true v) s = .next (State.marked { s with stageVia := insertKey s.stageVia m v }) := by
    rw [e, State.writeRoute, if_neg (by omega), if_pos rfl]
  exact ⟨_, _, h1, (lookupD_insertKey _ _ _ _ _).trans (if_pos rfl), h2, (lookupD_insertKey _ _ _ _ _).trans (if_pos rfl)⟩

theorem exec_rtctlStage (v : Word) : exec (.rtctlStage v) s
    = .next (if bit v 63 then s.swapTables else s.stageVersion v).marked := rfl

theorem exec_topologySwap (v : Word) : exec (.topologySwap v) s
    = .next (if bit v 63 then s.swapTables else s.stageVersion v).marked := rfl

theorem rtctlStage_of {v : Word} (h : v.getLsbD 63 = false) :
    exec (.rtctlStage v) s = .next (State.marked { s with stg := v.extractLsb' 4 4, swp := true }) := by
  rw [exec_rtctlStage, bit, h, if_neg Bool.false_ne_true]
  rfl

theorem topologySwap_swaps {v : Word} (h : v.getLsbD 63 = true) (hswp : s.swp = true) (hstg : s.stg = s.cur + 1) :
    exec (.topologySwap v) s = .next (State.pumped { s with
      curMin := s.stageMin, curVia := s.stageVia, cur := s.stg, swp := false }).marked := by
  rw [exec_topologySwap, bit, h, if_pos rfl, State.swapTables, if_pos (by simp [hswp, hstg])]

theorem topologySwap_refused {v : Word} (h : v.getLsbD 63 = true) (hno : s.swp = false ∨ s.stg ≠ s.cur + 1) :
    exec (.topologySwap v) s = .next s.marked := by
  rw [exec_topologySwap, bit, h, if_pos rfl, State.swapTables, if_neg]
  rw [Bool.and_eq_true, beq_iff_eq]
  rintro ⟨h1, h2⟩
  rcases hno with hno | hno
  · exact Bool.false_ne_true (hno.symm.trans h1)
  · exact hno h2

/-! ### Translation and the fault ring (R361, R365) -/

theorem ptrootWrite_of (v : Word) : exec (.ptrootWrite v) s = .next (State.marked { s with ptroot := v &&& 0x000FFFFFFFFFF001 }) := by
  have e : exec (.ptrootWrite v) s = .next (State.marked { s with ptroot := keepField v 12 40 ||| keepField v 0 1 }) := rfl
  rw [e, keepField_or]
  rfl

theorem exec_fltbaseWrite (v : Word) : exec (.fltbaseWrite v) s = .next (s.writeFltbase v).marked := rfl

theorem fltbaseOk_iff (v : Word) : s.fltbaseOk v = true ↔ (v.toNat % 32 = 0 ∨ v.toNat % 32 ∈ List.range' 4 13)
    ∧ (v.toNat / 2 ^ 40 % 4096 = 0 ∨ v.toNat / 2 ^ 40 % 4096 = s.modId + 1) := by
  unfold State.fltbaseOk
  rw [fld_eq, fld_eq, Bool.and_eq_true, Bool.or_eq_true, Bool.or_eq_true, Bool.and_eq_true, List.mem_range'_1]
  simp only [beq_iff_eq, decide_eq_true_eq, Nat.pow_zero, Nat.div_one]
  have h : 4 ≤ v.toNat % 2 ^ 5 ∧ v.toNat % 2 ^ 5 ≤ 16 ↔ 4 ≤ v.toNat % 32 ∧ v.toNat % 32 < 4 + 13 := by omega
  rw [h]
  exact Iff.rfl

theorem fltbaseWrite_taken {v : Word} (hsize : v.toNat % 32 = 0 ∨ v.toNat % 32 ∈ List.range' 4 13)
    (hown : v.toNat / 2 ^ 40 % 4096 = 0 ∨ v.toNat / 2 ^ 40 % 4096 = s.modId + 1) :
    exec (.fltbaseWrite v) s = .next (State.recordWaiting { s with fltbase := v &&& 0x000FFFFFFFFFF01F }).marked := by
  rw [exec_fltbaseWrite, State.writeFltbase, if_pos ((fltbaseOk_iff v).2 ⟨hsize, hown⟩), keepField_or]
  rfl

theorem fltbaseWrite_ignored {v : Word} (h : (v.toNat % 32 ≠ 0 ∧ v.toNat % 32 ∉ List.range' 4 13)
    ∨ (v.toNat / 2 ^ 40 % 4096 ≠ 0 ∧ v.toNat / 2 ^ 40 % 4096 ≠ s.modId + 1)) : exec (.fltbaseWrite v) s = .next s.marked := by
  rw [exec_fltbaseWrite, State.writeFltbase, if_neg]
  rw [fltbaseOk_iff]
  rintro ⟨h1, h2⟩
  rcases h with ⟨ha, hb⟩ | ⟨ha, hb⟩
  · exact h1.elim ha hb
  · exact h2.elim ha hb

theorem fltrdWrite_of (v : Word) : exec (.fltrdWrite v) s = .next (State.recordWaiting { s with fltrd := v.setWidth 32 }).marked := by
  have e : exec (.fltrdWrite v) s = .next (State.recordWaiting { s with fltrd := v.extractLsb' 0 32 }).marked := rfl
  have hlow : v.extractLsb' 0 32 = v.setWidth 32 := by
    ext i
    simp
  rw [e, hlow]

theorem exec_fltrespResolve (n : BitVec 32) : exec (.fltrespResolve n) s = .next (s.resolveFault n).marked := rfl

theorem exec_fltrespRefuse (n : BitVec 32) : exec (.fltrespRefuse n) s = .next (s.refuseFault n).marked := rfl

theorem faulted_of_stuck {x : Xfer} (h : x.stuck = none) (n : BitVec 32) : x.faulted n = false := by
  rw [Xfer.faulted, h]
  rfl

theorem updateIf_none {α : Type} {l : List α} {p : α → Bool} (h : ∀ x ∈ l, p x = false) (g : α → α) : updateIf l p g = l := by
  unfold updateIf
  refine (List.map_congr_left fun x hx => ?_).trans (List.map_id l)
  rw [h x hx]
  rfl

/-- A record of a parked chunk is resolved. -/
theorem fltresp_parked_resolved {n : BitVec 32} {k : Parked} (hparked : s.parked = [k]) (hrec : k.recorded = true)
    (hnum : k.num = n.toNat) (hfree : ∀ x ∈ s.xfers, x.stuck = none) : exec (.fltrespResolve n) s
      = .next (State.pumped { s with parked := [{ k with resolved := true }], xfers := s.xfers }).marked := by
  rw [exec_fltrespResolve, State.resolveFault]
  dsimp only
  rw [updateIf_none (p := fun x : Xfer => x.faulted n) (fun x hx => faulted_of_stuck (hfree x hx) n), hparked, updateIf, List.map_cons,
    hrec, hnum, if_pos (by simp)]
  rfl

/-- A record of a parked chunk is refused. -/
theorem fltresp_parked_refused {n : BitVec 32} {k : Parked} {x : Xfer} (hparked : s.parked = [k]) (hrec : k.recorded = true)
    (hnum : k.num = n.toNat) (hx : s.xfers.find? (·.id == k.flight.xfer) = some x)
    (hfree : ∀ y ∈ (State.failChunk { s with parked := [] } x k.flight.pos k.flight.len 2).xfers, y.stuck = none) :
    exec (.fltrespRefuse n) s = .next (State.failChunk { s with parked := [] } x k.flight.pos k.flight.len 2).pumped.marked := by
  have hnone : (State.failChunk { s with parked := [] } x k.flight.pos k.flight.len 2).xfers.find? (fun y : Xfer => y.faulted n) = none := by
    rw [List.find?_eq_none]
    intro y hy
    rw [faulted_of_stuck (hfree y hy) n]
    exact Bool.false_ne_true
  rw [exec_fltrespRefuse, State.refuseFault, hparked, List.find?_cons_of_pos (by simp [hrec, hnum])]
  dsimp only
  rw [List.filter_cons_of_neg (by simp), List.filter_nil, hx]
  dsimp only
  rw [hnone]

/-- A record that a transfer waits for is answered. -/
theorem fltresp_stuck {n : BitVec 32} {x : Xfer} {c : Stuck} (hparked : s.parked = []) (hxfers : s.xfers = [x]) (hstuck : x.stuck = some c)
    (hnum : c.num = some n.toNat) : exec (.fltrespResolve n) s
        = .next (State.pumped { s with parked := [], xfers := [{ x with stuck := none }] }).marked
      ∧ exec (.fltrespRefuse n) s = .next (State.pumped
        (s.failChunk { x with asked := max x.asked (c.pos + c.len), stuck := none } c.pos c.len 2)).marked := by
  have hfault : x.faulted n = true := by
    rw [Xfer.faulted, hstuck, Option.any_some, hnum, beq_self_eq_true]
  constructor
  · rw [exec_fltrespResolve, State.resolveFault, hparked]
    dsimp only
    rw [hxfers, updateIf, updateIf, List.map_nil, List.map_cons, if_pos hfault]
    rfl
  · rw [exec_fltrespRefuse, State.refuseFault, hparked, List.find?_nil]
    dsimp only
    rw [hxfers, List.find?_cons_of_pos (p := fun y : Xfer => y.faulted n) hfault]
    dsimp only
    rw [hstuck]

/-! ### Power, attestation, the PCIe link and the registers (R18, R320, R339, R341) -/

theorem exec_iclampWrite (v : Word) : exec (.iclampWrite v) s = .next (s.writeIclamp v).marked := rfl

theorem fld_low16 (v : Word) : fld v 0 16 = v.toNat % 65536 := by
  rw [fld_eq, Nat.pow_zero, Nat.div_one]
  exact rfl

theorem iclampWrite_of (v : Word) : (500 ≤ v.toNat % 65536 → v.toNat % 65536 ≤ 4000 → ∃ w : Word, w.toNat = v.toNat % 65536
      ∧ exec (.iclampWrite v) s = .next (State.marked { s with iclamp := w }))
    ∧ (v.toNat % 65536 < 500 ∨ 4000 < v.toNat % 65536 → exec (.iclampWrite v) s = .next s.marked) := by
  rw [exec_iclampWrite, State.writeIclamp, fld_low16]
  refine ⟨fun hlo hhi => ⟨keepField v 0 16, ?_, by rw [if_pos ⟨hlo, hhi⟩]⟩, fun h => by rw [if_neg (by omega)]⟩
  have hmask : keepField v 0 16 = v &&& 65535#64 := rfl
  rw [hmask, BitVec.toNat_and]
  exact Nat.and_two_pow_sub_one_eq_mod v.toNat 16

theorem clocks_of : ∃ a b : Vector Nat 64, exec .currentClampReached s = .next (State.marked { s with clamped := true, clockStep := a })
    ∧ exec .clockRecoverStep s = .next (State.marked { s with clamped := false, clockStep := b })
    ∧ ∀ n : Fin 64, a[n] = min 12 (s.clockStep[n] + 1) ∧ b[n] = s.clockStep[n] - 1 := by
  have e1 : exec .currentClampReached s
      = .next (State.marked { s with clamped := true, clockStep := s.clockStep.map fun n => min 12 (n + 1) }) := rfl
  have e2 : exec .clockRecoverStep s = .next (State.marked { s with clamped := false, clockStep := s.clockStep.map fun n => n - 1 }) := rfl
  exact ⟨_, _, e1, e2, fun n => ⟨Vector.getElem_map _ _, Vector.getElem_map _ _⟩⟩

theorem attestNonceWrite_of (n : BitVec 256) : exec (.attestNonceWrite n) s = .next (State.marked { s with
    nonce := n, report := some ⟨s.measure, n, Config.identityKey, Config.signature s.measure n Config.identityKey⟩ }) := rfl

theorem pcieLinkTrain_of {rate width : Nat} (hrate : rate ∈ [25, 50, 80, 160, 320, 640, 1280]) (hwidth : width ∈ [1, 2, 4, 8, 16]) :
    exec (.pcieLinkTrain rate width) s = .next (State.marked { s with pcie := (rate, width) }) := by
  have e : exec (.pcieLinkTrain rate width) s
      = .next (if pcieRates.contains rate && pcieWidths.contains width then { s with pcie := (rate, width) } else s).marked := rfl
  rw [e, if_pos]
  rw [Bool.and_eq_true, List.contains_iff_mem, List.contains_iff_mem]
  exact ⟨hrate, hwidth⟩

theorem exec_registerWrite (o : Nat) (v : Word) : exec (.registerWrite o v) s = .next (s.writeRegister o v).marked := rfl

theorem registerWrite_fltvec (v : Word) : exec (.registerWrite 0x40020 v) s = .next (State.marked { s with fltvec := v &&& 127 }) := rfl

/-- A read-only or unlisted register is left. -/
theorem registerWrite_ignored (v : Word) : ∀ o ∈ [0x40010, 0x40030, 0x980000, 0xA00000, 0xB00000, 0xB08000, 0xC00000, 0xD00008],
    exec (.registerWrite o v) s = .next s.marked := by
  intro o ho
  simp only [List.mem_cons, List.not_mem_nil, or_false] at ho
  rcases ho with rfl | rfl | rfl | rfl | rfl | rfl | rfl | rfl
  all_goals rfl

theorem readRegister_of : s.readRegister 0x40000 = s.ptroot ∧ s.readRegister 0x40008 = s.fltbase ∧ s.readRegister 0x40028 = 0
    ∧ s.readRegister 0xC00000 = s.bootst ∧ s.readRegister 0xD00000 = s.iclamp ∧ s.readRegister 0xD00008 = 0 :=
  ⟨rfl, rfl, rfl, rfl, rfl, rfl⟩

theorem writeRegister_group {g : Nat} (v : Word) (hg : g < 4096) : s.writeRegister (0x80000 + 8 * g) v = s.writeGroup g v := by
  unfold State.writeRegister
  rw [if_neg (by omega), if_neg (by omega), if_neg (by omega), if_pos (by omega)]
  congr 1
  omega

theorem writeRegister_queue {q : Nat} (w : Fin 8) (v : Word) (hq : q < 4096) :
    s.writeRegister (64 * q + 8 * w) v = s.writeQueueWord q w v := by
  have hw := w.isLt
  unfold State.writeRegister
  rw [if_neg (by omega), if_pos (by omega)]
  congr 1
  · omega
  · omega

/-- Each listed register is written as its own instruction writes it. -/
theorem registerWrite_same (v : Word) : exec (.registerWrite 0x40000 v) s = exec (.ptrootWrite v) s
    ∧ exec (.registerWrite 0x40008 v) s = exec (.fltbaseWrite v) s ∧ exec (.registerWrite 0x40018 v) s = exec (.fltrdWrite v) s
    ∧ exec (.registerWrite 0x900000 v) s = exec (.rtctlStage v) s ∧ exec (.registerWrite 0xD00000 v) s = exec (.iclampWrite v) s
    ∧ (∀ g, g < 4096 → exec (.registerWrite (0x80000 + 8 * g) v) s = exec (.groupHeaderWrite g v) s)
    ∧ ∀ (q : Nat) (w : Fin 8), q < 4096 → exec (.registerWrite (64 * q + 8 * w) v) s = exec (.queueRegister q w v) s := by
  refine ⟨rfl, rfl, rfl, rfl, rfl, fun g hg => ?_, fun q w hq => ?_⟩
  · rw [exec_registerWrite, writeRegister_group v hg]
    rfl
  · have e : exec (.queueRegister q w v) s = .next (if q < 4096 then s.writeQueueWord q w v else s).marked := rfl
    rw [exec_registerWrite, writeRegister_queue w v hq, e, if_pos hq]

/-- Settles O60: each access and each register by the rule of its own function. -/
theorem hostEvents : Obligations.HostEvents := by
  intro s
  refine ⟨fun pa n hlocked hsize hblock hfits => ⟨hostMemory_read hlocked hsize hblock hfits, fun bs hn hcan => ?_⟩,
    fun b o n h => ⟨?_, fun bs hn => ?_⟩, fun q hq hlocked => host_doorbells hq hlocked, fun o halign hlt => host_register halign hlt,
    fun g m v hg hm => groupMemberWrite_of v hg hm, fun g v hg => groupHeaderWrite_of v hg, fun m v hm => routingEntryWrite_of v hm,
    fun v h => rtctlStage_of h, fun v h hswp hstg => topologySwap_swaps h hswp hstg, fun v h hno => topologySwap_refused h hno,
    ptrootWrite_of, fun v hsize hown => fltbaseWrite_taken hsize hown, fun v h => fltbaseWrite_ignored h, fltrdWrite_of,
    fun n k hparked hrec hnum hfree => ⟨fltresp_parked_resolved hparked hrec hnum hfree,
      fun x hx hafter => fltresp_parked_refused hparked hrec hnum hx hafter⟩,
    fun n x c hparked hxfers hstuck hnum => fltresp_stuck hparked hxfers hstuck hnum, iclampWrite_of, clocks_of, attestNonceWrite_of,
    fun rate width hrate hwidth => pcieLinkTrain_of hrate hwidth, fun v => ⟨registerWrite_fltvec v, registerWrite_ignored v⟩,
    readRegister_of, registerWrite_same⟩
  · subst hn
    exact hostMemory_write hlocked hsize hblock hfits hcan
  · rw [exec_hostRead, host_unsupported b h]
    rfl
  · subst hn
    rw [exec_hostWrite, host_unsupported b h]
    rfl

end Sys2Proof.Machine
end

section
/-! PROOF. Optical ports (R314 to R317). -/

namespace Sys2Proof.Machine

variable {s : State} {n : Fin 64}

/-- A state with one of its ports changed. -/
def State.withPort (s : State) (n : Fin 64) (q : OptPort) : State := { s with optical := s.optical.set n q }

theorem State.updatePort_eq (s : State) (n : Fin 64) (h : OptPort → OptPort) : s.updatePort n h = s.withPort n (h s.optical[n]) := by
  rw [State.updatePort, vget_eq_getElem, vset_eq_set]
  rfl

theorem State.withPort_self (s : State) (n : Fin 64) : s.withPort n s.optical[n] = s := by
  unfold State.withPort
  rw [show s.optical.set n s.optical[n] = s.optical from Vector.set_getElem_self _]

theorem exec_circuitChange : exec (.circuitChange n) s
    = .next (s.withPort n { s.optical[n] with state := 1, rtc := s.optical[n].rtc + 1 }).marked := by
  have e : exec (.circuitChange n) s = .next (s.updatePort n fun p => { p with state := 1, rtc := p.rtc + 1 }).marked := rfl
  rw [e, State.updatePort_eq]

theorem exec_linkRetrained (h : s.optical[n].state = 1) : exec (.linkRetrained n) s
    = .next (s.withPort n { s.optical[n] with state := 0, ver := s.cur.toNat }).handWaiting.pumped.marked := by
  have e : exec (.linkRetrained n) s = .next (s.updatePort n fun p =>
      if p.state = 1 then { p with state := 0, ver := s.cur.toNat } else p).handWaiting.pumped.marked := rfl
  rw [e, State.updatePort_eq, if_pos h]

theorem exec_retrainTimeout (h : s.optical[n].state = 1) : exec (.retrainTimeout n) s
    = .next (s.withPort n { s.optical[n] with state := 2 }).handWaiting.pumped.marked := by
  have e : exec (.retrainTimeout n) s = .next (s.updatePort n fun p =>
      if p.state = 1 then { p with state := 2 } else p).handWaiting.pumped.marked := rfl
  rw [e, State.updatePort_eq, if_pos h]

theorem exec_linkFail (h : s.optical[n].state ≤ 1) : exec (.linkFail n) s
    = .next (s.withPort n { s.optical[n] with state := 2 }).handWaiting.pumped.marked := by
  have e : exec (.linkFail n) s = .next (s.updatePort n fun p =>
      if p.state ≤ 1 then { p with state := 2 } else p).handWaiting.pumped.marked := rfl
  rw [e, State.updatePort_eq, if_pos h]

theorem exec_portDisable : exec (.portDisable n) s
    = .next (s.withPort n { s.optical[n] with state := 3 }).handWaiting.pumped.marked := by
  have e : exec (.portDisable n) s = .next (s.updatePort n fun p => { p with state := 3 }).handWaiting.pumped.marked := rfl
  rw [e, State.updatePort_eq]

/-- A train starts on an Up port while it keeps the laser within its limit. -/
theorem exec_packetTrainStart (d : BitVec 8) : exec (.packetTrainStart n d) s = .next (s.withPort n
    (if s.optical[n].state = 0 ∧ (s.optical[n].dutyAt s.cycle + d.toNat) * 10 ≤ 9 * 255 then
      { s.optical[n] with trains := s.optical[n].recent s.cycle ++ [(s.cycle, d.toNat)] } else s.optical[n])).marked := by
  have e : exec (.packetTrainStart n d) s = .next (s.updatePort n fun p =>
      if p.state = 0 ∧ (p.dutyAt s.cycle + d.toNat) * 10 ≤ 9 * 255 then
        { p with trains := p.recent s.cycle ++ [(s.cycle, d.toNat)] } else p).marked := rfl
  rw [e, State.updatePort_eq]

theorem packetTrain_starts {d : BitVec 8} (hup : s.optical[n].state = 0) (hduty : s.optical[n].dutyAt s.cycle + d.toNat ≤ 229) :
    exec (.packetTrainStart n d) s = .next (s.withPort n { s.optical[n] with
      trains := (s.optical[n].trains.filter fun x => s.cycle < x.1 + 2000) ++ [(s.cycle, d.toNat)] }).marked := by
  rw [exec_packetTrainStart, if_pos ⟨hup, by omega⟩]
  rfl

theorem packetTrain_waits {d : BitVec 8} (hduty : 229 < s.optical[n].dutyAt s.cycle + d.toNat) :
    exec (.packetTrainStart n d) s = .next s.marked := by
  rw [exec_packetTrainStart, if_neg (by omega), State.withPort_self]

theorem exec_errorMonitorRaise {l : BitVec 8} (h : s.optical[n].actual.toNat < l.toNat) : exec (.errorMonitorRaise n l) s
    = .next (s.withPort n { s.optical[n] with actual := l, holdTill := s.cycle + 20000000 }).marked := by
  have e : exec (.errorMonitorRaise n l) s = .next (s.updatePort n fun p =>
      if p.actual.toNat < l.toNat then { p with actual := l, holdTill := s.cycle + 20000000 } else p).marked := rfl
  rw [e, State.updatePort_eq, if_pos h]

theorem OptPort.holdMs_eq_zero (p : OptPort) (cycle : Nat) : p.holdMs cycle = 0 ↔ p.holdTill ≤ cycle := by
  unfold OptPort.holdMs msCycles
  omega

theorem OptPort.holdOver_iff (p : OptPort) (cycle : Nat) : p.holdOver cycle = true ↔ p.holdTill ≠ 0 ∧ p.holdTill ≤ cycle := by
  rw [OptPort.holdOver, Bool.and_eq_true, bne_iff_ne, beq_iff_eq, OptPort.holdMs_eq_zero]

theorem exec_holdExpire (l : BitVec 8) : exec (.holdExpire n l) s = .next (s.withPort n
    (if !s.optical[n].holdOver s.cycle then s.optical[n] else { s.optical[n] with
      holdTill := 0
      actual := BitVec.ofNat 8 (min s.optical[n].actual.toNat (min s.optical[n].budget.toNat l.toNat)) })).marked := by
  have e : exec (.holdExpire n l) s = .next (s.updatePort n fun p => if !p.holdOver s.cycle then p else { p with
      holdTill := 0, actual := BitVec.ofNat 8 (min p.actual.toNat (min p.budget.toNat l.toNat)) }).marked := rfl
  rw [e, State.updatePort_eq]

theorem holdExpire_falls (l : BitVec 8) (h0 : s.optical[n].holdTill ≠ 0) (h : s.optical[n].holdTill ≤ s.cycle) : ∃ a : BitVec 8,
    exec (.holdExpire n l) s = .next (s.withPort n { s.optical[n] with holdTill := 0, actual := a }).marked
      ∧ a.toNat = min s.optical[n].actual.toNat (min s.optical[n].budget.toNat l.toNat) := by
  refine ⟨BitVec.ofNat 8 (min s.optical[n].actual.toNat (min s.optical[n].budget.toNat l.toNat)), (exec_holdExpire l).trans ?_, ?_⟩
  · rw [(OptPort.holdOver_iff ..).2 ⟨h0, h⟩, if_neg (by decide)]
  · have := s.optical[n].actual.isLt
    rw [BitVec.toNat_ofNat]
    omega

theorem holdExpire_early (l : BitVec 8) (h : s.cycle < s.optical[n].holdTill) : exec (.holdExpire n l) s = .next s.marked := by
  have hnot : s.optical[n].holdOver s.cycle = false := by
    rw [Bool.eq_false_iff]
    intro hover
    obtain ⟨_, hle⟩ := (OptPort.holdOver_iff ..).1 hover
    omega
  rw [exec_holdExpire, hnot, Bool.not_false, if_pos rfl, State.withPort_self]

theorem holdExpire_due (h0 : s.optical[n].holdTill ≠ 0) (h : s.optical[n].holdTill ≤ s.cycle) :
    Act.holdExpire n (Config.monitorNeed n s.cycle) ∈ s.dueActs := by
  rw [State.dueActs, List.mem_flatten]
  refine ⟨_, List.mem_cons_of_mem _ <| List.mem_cons_of_mem _ <| List.mem_cons_of_mem _ <| List.mem_cons_of_mem _ <|
    List.mem_cons_of_mem _ <| List.mem_cons_of_mem _ <| List.mem_cons_of_mem _ <| List.mem_cons_of_mem _ List.mem_cons_self,
    List.mem_map.2 ⟨n, List.mem_filter.2 ⟨List.mem_finRange n, ?_⟩, rfl⟩⟩
  rw [vget_eq_getElem, OptPort.holdOver_iff]
  exact ⟨h0, h⟩

theorem exec_opticalBudgetChange (b : BitVec 8) : exec (.opticalBudgetChange n b) s = .next (s.withPort n { s.optical[n] with
    budget := b
    actual := if s.optical[n].holdTill ≤ s.cycle ∧ b.toNat < s.optical[n].actual.toNat then b else s.optical[n].actual }).marked := by
  have e : exec (.opticalBudgetChange n b) s = .next (s.updatePort n fun p => { p with
      budget := b, actual := if p.holdMs s.cycle = 0 ∧ b.toNat < p.actual.toNat then b else p.actual }).marked := rfl
  rw [e, State.updatePort_eq]
  simp only [OptPort.holdMs_eq_zero]

theorem readRegister_port (n : Fin 64) : s.readRegister (0xA00000 + 8 * n) = s.optical[n].word s.cycle := by
  have hn := n.isLt
  unfold State.readRegister
  rw [if_neg (by omega), if_neg (by omega), if_neg (by omega), if_neg (by omega), if_neg (by omega), if_neg (by omega),
    if_neg (by omega), if_neg (by omega), if_neg (by omega), if_neg (by omega), if_neg (by omega), if_neg (by omega), if_neg (by omega),
    if_pos (by omega), show (0xA00000 + 8 * n.val - 0xA00000) / 8 = n.val by omega, vget_eq_getElem]

/-- Fields side by side, each within its place. -/
theorem fields_of_sum {a b c d e f g w : Nat} (hw : w = a * 2 ^ 62 + b * 2 ^ 58 + c * 2 ^ 32 + d * 2 ^ 24 + e * 2 ^ 16 + f * 2 ^ 8 + g)
    (hb : b < 16) (hc : c < 65536) (hd : d < 256) (he : e < 256) (hf : f < 256) (hg : g < 256) :
    (w / 2 ^ 62 = a ∧ w / 2 ^ 58 % 16 = (a * 16 + b) % 16 ∧ w / 2 ^ 48 % 1024 = 0 ∧ w / 2 ^ 32 % 65536 = c)
      ∧ w / 2 ^ 24 % 256 = d ∧ w / 2 ^ 16 % 256 = e ∧ w / 2 ^ 8 % 256 = f ∧ w % 256 = g := by
  subst hw
  exact ⟨⟨by omega, by omega, by omega, by omega⟩, by omega, by omega, by omega, by omega⟩

/-- PORTST's fields. -/
theorem OptPort.word_fields (p : OptPort) (cycle : Nat) : let w := (p.word cycle).toNat
    w / 2 ^ 62 = p.state % 4 ∧ w / 2 ^ 58 % 16 = p.ver % 16 ∧ w / 2 ^ 48 % 1024 = 0 ∧ w / 2 ^ 32 % 65536 = p.rtc.toNat
      ∧ w / 2 ^ 24 % 256 = p.budget.toNat ∧ w / 2 ^ 16 % 256 = p.actual.toNat
      ∧ w / 2 ^ 8 % 256 = (p.holdTill - cycle + 1999999) / 2000000 % 256 ∧ w % 256 = p.dutyAt cycle % 256 := by
  have hms : p.holdMs cycle = (p.holdTill - cycle + 1999999) / 2000000 := by
    rw [OptPort.holdMs, msCycles, Nat.add_sub_assoc (by decide)]
  have hrtc := p.rtc.isLt
  have hbudget := p.budget.isLt
  have hactual := p.actual.isLt
  have hstate : p.state % 4 < 4 := Nat.mod_lt _ (by decide)
  have hver : p.ver % 16 < 16 := Nat.mod_lt _ (by decide)
  have hhold : p.holdMs cycle % 256 < 256 := Nat.mod_lt _ (by decide)
  have hduty : p.dutyAt cycle % 256 < 256 := Nat.mod_lt _ (by decide)
  have hw : (p.word cycle).toNat = p.state % 4 * 2 ^ 62 + p.ver % 16 * 2 ^ 58 + p.rtc.toNat * 2 ^ 32 + p.budget.toNat * 2 ^ 24
      + p.actual.toNat * 2 ^ 16 + p.holdMs cycle % 256 * 2 ^ 8 + p.dutyAt cycle % 256 := by
    rw [OptPort.word, BitVec.toNat_ofNat]
    exact Nat.mod_eq_of_lt (by omega)
  obtain ⟨⟨h1, h2, h3, h4⟩, h5, h6, h7, h8⟩ := fields_of_sum hw hver hrtc hbudget hactual hhold hduty
  have hver' : (p.state % 4 * 16 + p.ver % 16) % 16 = p.ver % 16 := by omega
  rw [← hms]
  exact ⟨h1, h2.trans hver', h3, h4, h5, h6, h7, h8⟩

end Sys2Proof.Machine
end

section
/-! PROOF. Function-level and module reset (R10, R18, R329, R341, R342). -/

namespace Sys2Proof.Machine

/-! ### What leaves the device as it is -/

theorem State.foldl_device {α : Type} {g : State → α → State} (hg : ∀ (s : State) (a : α), (g s a).device = s.device) :
    ∀ (l : List α) (s : State), (l.foldl g s).device = s.device
  | [], _ => rfl
  | a :: l, s => (foldl_device hg l (g s a)).trans (hg s a)

theorem State.write_device (s : State) (k : Nat) (bs : List Byte) : (s.write k bs).device = s.device := rfl

theorem State.noteWrite_device (s : State) (d k n : Nat) : (s.noteWrite d k n).device = s.device := by
  rw [State.noteWrite_rest]
  rfl

theorem State.noteWrites_device (s : State) (d : Nat) (l : List (Nat × Nat)) : (s.noteWrites d l).device = s.device := by
  unfold State.noteWrites
  exact State.foldl_device (fun s p => s.noteWrite_device d p.1 p.2) l s

theorem State.writePieces_device : ∀ (l : List (Nat × Nat)) (bs : List Byte) (s : State), (s.writePieces l bs).device = s.device
  | [], _, _ => rfl
  | (k, n) :: l, bs, s => (writePieces_device l (bs.drop n) (s.write k (bs.take n))).trans (s.write_device k _)

theorem State.coreWrite_device {s t : State} {va : Nat} {bs : List Byte} (h : s.coreWrite va bs = .ok t) : t.device = s.device := by
  unfold State.coreWrite at h
  split at h
  · cases h
  next l _ =>
    cases h
    exact (State.noteWrites_device _ 8 l).trans (s.writePieces_device l bs)

theorem State.writeVirt_device {s t : State} {va : Nat} {bs : List Byte} (h : s.writeVirt va bs = .ok t) : t.device = s.device := by
  unfold State.writeVirt at h
  cases hl : s.range .write va bs.length with
  | error e =>
    rw [hl] at h
    cases h
  | ok l =>
    rw [hl] at h
    cases h
    exact (State.noteWrites_device _ 8 l).trans (State.writePieces_device l bs s)

theorem State.endSync_device (s : State) (x : Graph) (r : Replay) : (s.endSync x r).device = s.device := by
  unfold State.endSync
  refine State.foldl_device (fun s n => ?_) _ s
  split
  next h => exact State.coreWrite_device h
  next => rfl

theorem Frame.foldl_device {α : Type} {g : Frame → α → Frame} (hg : ∀ (f : Frame) (a : α), (g f a).s.device = f.s.device) :
    ∀ (l : List α) (f : Frame), (l.foldl g f).s.device = f.s.device
  | [], _ => rfl
  | a :: l, f => (foldl_device hg l (g f a)).trans (hg f a)

theorem Frame.keepOld_state (f : Frame) (k n : Nat) : (f.keepOld k n).s = f.s := by
  unfold Frame.keepOld
  split <;> rfl

theorem Frame.writeNow_device (f : Frame) (p : Nat × List Byte) : (f.writeNow p).s.device = f.s.device := by
  have h : (f.writeNow p).s = (f.keepOld p.1 p.2.length).s.write p.1 p.2 := rfl
  rw [h, State.write_device, Frame.keepOld_state]

theorem Frame.drainOne_device (f : Frame) (x : HeldStore) : (f.drainOne x).s.device = f.s.device := by
  unfold Frame.drainOne
  refine Frame.foldl_device (fun f p => ?_) _ f
  split
  · rfl
  · exact f.writeNow_device p

theorem State.performDrain_device (s : State) (sid : Nat) : (s.performDrain sid).device = s.device := by
  unfold State.performDrain
  split
  · rfl
  next f hf =>
    have hs := State.frameOf_spec hf
    have h := Frame.foldl_device Frame.drainOne_device f.t.drain { f with t := { f.t with drain := [] } }
    exact (show (Frame.put _).device = _ from h).trans (congrArg State.device hs)

theorem State.undefine_device (s : State) (k n : Nat) : (s.undefine k n).device = s.device := rfl

theorem State.undefineGlobal_device (s : State) (l : List (Nat × Nat)) : (s.undefineGlobal l).device = s.device := by
  unfold State.undefineGlobal
  refine State.foldl_device (fun s p => ?_) l s
  split
  next l _ => exact State.foldl_device (fun s k => s.undefine_device k.1 k.2) l s
  next => rfl

theorem State.keepPage_device (s : State) (hs : List TlbHolder) (va : Nat) : (s.keepPage hs va).device = s.device := by
  unfold State.keepPage
  split <;> rfl

theorem State.writePlace_device (s : State) (k : Cmd) (sp a key : Nat) (bs : List Byte) : (s.writePlace k sp a key bs).device = s.device := by
  unfold State.writePlace
  split
  · exact (State.noteWrite_device _ _ _ _).trans ((State.write_device _ _ _).trans (s.keepPage_device _ _))
  · rfl
  · rfl
  · rfl

theorem State.undefineSide_device (s : State) (k : Cmd) (sp a n : Nat) : (s.undefineSide k sp a n).device = s.device := by
  unfold State.undefineSide State.writeSide
  cases s.sidePlace k sp a with
  | error e => rfl
  | ok key => exact s.writePlace_device k sp a key _

theorem State.abandonCmd_device (s : State) (k : Cmd) : (s.abandonCmd k).device = s.device := by
  unfold State.abandonCmd
  split
  · rfl
  · split
    · split
      · rfl
      · unfold State.abandonCopy
        refine State.foldl_device (fun s g => ?_) _ s
        split
        · exact s.undefineSide_device k _ _ _
        · rfl
    · exact s.undefineGlobal_device _
    · split
      · exact s.undefineGlobal_device _
      · rfl
    · rfl

theorem State.abandonTask_device (s : State) (tid : Nat) : (s.abandonTask tid).device = s.device := by
  have h1 := State.foldl_device State.abandonCmd_device (s.cmds.filter fun k => ((s.taskStrands tid).map (·.sid)).contains k.sid) s
  have h2 := fun (l : List Xfer) (s : State) => State.foldl_device (g := fun s (x : Xfer) => s.undefinePlaces x 0 x.len)
    (fun s x => s.undefineGlobal_device _) l s
  unfold State.abandonTask
  exact (h2 _ _).trans h1

theorem State.leaveAll_device (s : State) (tid : Nat) : (s.leaveAll tid).device = s.device := by
  unfold State.leaveAll
  exact State.foldl_device (fun s t => (s.leaveGroups_beside t).2.2.2) _ s

theorem State.setQueue_device (s : State) (x : Queue) : (s.setQueue x).device = s.device := rfl

theorem State.msix_device (s : State) (v : Nat) : (s.msix v).device = s.device := rfl

theorem State.writeRecord_device (s : State) (kind : Nat) (acc : Access) (why va ptn queue task : Nat) :
    (s.writeRecord kind acc why va ptn queue task).device = s.device := by
  unfold State.writeRecord
  dsimp only
  generalize hw : State.noteWrite _ _ _ _ = w
  have hcount (n : BitVec 32) : State.device { w with fltwr := n } = s.device :=
    (show State.device { w with fltwr := n } = w.device from rfl).trans (by rw [← hw, State.noteWrite_device, State.write_device])
  split
  · exact (State.msix_device _ _).trans (hcount _)
  · exact hcount _

theorem State.inform_device (s : State) (kind : Nat) (acc : Access) (why va ptn queue task : Nat) :
    (s.inform kind acc why va ptn queue task).device = s.device := by
  unfold State.inform
  split
  · exact s.writeRecord_device _ _ _ _ _ _ _
  · rfl

theorem State.putRecord_device (s : State) (q : Nat) (r : Record) : (s.putRecord q r).device = s.device := by
  unfold State.putRecord
  dsimp only
  split
  · rfl
  · split
    next => exact s.inform_device _ _ _ _ _ _ _
    next h =>
      split
      · exact (State.msix_device _ _).trans ((State.setQueue_device _ _).trans (State.writeVirt_device h))
      · exact (State.setQueue_device _ _).trans (State.writeVirt_device h)

theorem State.endQueue_device (s : State) (q : Nat) (tids : List (Nat × Nat)) : (s.endQueue q tids).device = s.device := by
  unfold State.endQueue
  exact State.foldl_device (fun s r => s.putRecord_device q r) _ _

/-! ### Function-level reset (R342) -/

/-- Graphs, ports, boot code and measurements, without the tasks. -/
def State.fixed (s : State) : Vector Graph 16 × Vector OptPort 64 × Word × List (BitVec 256) := (s.graphs, s.optical, s.bootst, s.measure)

theorem State.fixed_of_device {s t : State} (h : t.device = s.device) : t.fixed = s.fixed ∧ t.tasks = s.tasks := by
  simp only [State.device, Prod.mk.injEq] at h
  obtain ⟨h1, h2, h3, h4, h5⟩ := h
  exact ⟨by simp only [State.fixed, h1, h3, h4, h5], h2⟩

/-- A task ends with the reset. -/
def State.resetTask (s : State) (tid : Nat) : State := ((s.abandonTask tid).leaveAll tid).removeTask tid

theorem State.resetTask_spec (s : State) (tid : Nat) : (s.resetTask tid).fixed = s.fixed
    ∧ (s.resetTask tid).tasks = s.tasks.filter (·.tid != tid) := by
  obtain ⟨hfixed, htasks⟩ := State.fixed_of_device ((State.leaveAll_device _ tid).trans (s.abandonTask_device tid))
  refine ⟨(show (State.removeTask _ tid).fixed = _ from rfl).trans hfixed, ?_⟩
  rw [← htasks]
  rfl

theorem State.foldl_resetTask : ∀ (l : List Nat) (s : State), (l.foldl State.resetTask s).fixed = s.fixed
    ∧ (l.foldl State.resetTask s).tasks = s.tasks.filter fun k => !l.contains k.tid
  | [], s => ⟨rfl, by simp⟩
  | i :: l, s => by
    obtain ⟨hfixed, htasks⟩ := foldl_resetTask l (s.resetTask i)
    obtain ⟨hf, ht⟩ := s.resetTask_spec i
    refine ⟨hfixed.trans hf, htasks.trans ?_⟩
    rw [ht, List.filter_filter]
    refine List.filter_congr fun k _ => ?_
    rw [List.contains_cons, Bool.not_or, Bool.and_comm]
    rfl

/-- A module's replays end where they are. -/
def State.endSyncs (s : State) : State :=
  (List.range 16).foldl (fun s g => match (s.graph g).run with
    | some r => s.endSync (s.graph g) r
    | none => s) s

theorem State.endSyncs_device (s : State) : s.endSyncs.device = s.device := by
  unfold State.endSyncs
  refine State.foldl_device (fun s g => ?_) _ s
  split
  · exact s.endSync_device _ _
  · rfl

/-- Function-level reset before the queue table is cleared. -/
def State.resetWork (s : State) : State :=
  let w := (s.endSyncs.strands.map (·.sid)).foldl State.performDrain s.endSyncs
  (s.queues.map fun x => (x.q, x.started.map fun p => (p.idx, s.packetTid x.q p.idx))).foldl (fun s p => s.endQueue p.1 p.2)
    ((w.tasks.map (·.tid)).foldl State.resetTask w)

theorem State.resetWork_spec (s : State) : s.resetWork.fixed = s.fixed ∧ s.resetWork.tasks = [] := by
  unfold State.resetWork
  dsimp only
  generalize hw : (s.endSyncs.strands.map (·.sid)).foldl State.performDrain s.endSyncs = w
  have hdevice : w.device = s.device := by
    rw [← hw]
    exact (State.foldl_device State.performDrain_device _ _).trans s.endSyncs_device
  obtain ⟨hf, ht⟩ := State.foldl_resetTask (w.tasks.map (·.tid)) w
  have hend := fun (l : List (Nat × List (Nat × Nat))) (s : State) =>
    State.fixed_of_device (State.foldl_device (g := fun s p => s.endQueue p.1 p.2) (fun s p => s.endQueue_device p.1 p.2) l s)
  refine ⟨(hend _ _).1.trans (hf.trans (State.fixed_of_device hdevice).1), (hend _ _).2.trans (ht.trans ?_)⟩
  rw [List.filter_eq_nil_iff]
  intro k hk
  simpa using ⟨k, hk, rfl⟩

theorem exec_functionLevelReset (s : State) : exec .functionLevelReset s = .next (State.marked { s.resetWork with
    queues := [], dues := [], rotor := 0, rotated := []
    graphs := s.resetWork.graphs.map fun x => { x with run := none, waitq := [] } }) := rfl

theorem functionLevelReset_of (s : State) : ∃ u : State, exec .functionLevelReset s = .next u ∧ u.queues = [] ∧ u.dues = []
    ∧ u.tasks = [] ∧ u.rotor = 0 ∧ u.optical = s.optical ∧ u.bootst = s.bootst ∧ u.measure = s.measure
    ∧ ∀ g : Fin 16, u.graphs[g].run = none ∧ u.graphs[g].waitq = [] ∧ u.graphs[g].nodes = s.graphs[g].nodes := by
  obtain ⟨hfixed, htasks⟩ := s.resetWork_spec
  have hexec := exec_functionLevelReset s
  generalize s.resetWork = w at hfixed htasks hexec
  simp only [State.fixed, Prod.mk.injEq] at hfixed
  obtain ⟨h1, h2, h3, h4⟩ := hfixed
  refine ⟨_, hexec, rfl, rfl, htasks, rfl, h2, h3, h4, fun g => ?_⟩
  have hg : (w.graphs.map fun x : Graph => { x with run := none, waitq := [] })[g] = { s.graphs[g] with run := none, waitq := [] } := by
    rw [← h1]
    exact Vector.getElem_map _ _
  refine ⟨?_, ?_, ?_⟩
  · exact congrArg Graph.run hg
  · exact congrArg Graph.waitq hg
  · have hnodes := congrArg Graph.nodes hg
    exact hnodes

/-! ### The records of a function-level reset (R329, R342) -/

theorem Record.ended_begun {r : Record} (h : r.begun = true) : r.ended.w0.toNat / 2 ^ 56 = 7 ∧ r.ended.begun = true := by
  rw [Record.ended, if_pos h]
  refine ⟨?_, h⟩
  have hlow : (r.w0.extractLsb' 0 56).toNat < 2 ^ 56 := BitVec.isLt _
  have hor : ((r.w0.extractLsb' 0 56).zeroExtend 64 ||| BitVec.ofNat 64 (7 * 2 ^ 56)).toNat
      = 2 ^ 56 * 7 + (r.w0.extractLsb' 0 56).toNat := by
    rw [Nat.two_pow_add_eq_or_of_lt hlow, BitVec.toNat_or, BitVec.toNat_setWidth, Nat.or_comm, Nat.mod_eq_of_lt (by omega)]
    rfl
  rw [hor]
  omega

theorem Record.ended_other {r : Record} (h : r.begun = false) : r.ended = r := by
  rw [Record.ended, h]
  rfl

/-- The record of a started packet. -/
theorem Started.record_spec (p : Started) (tid step : Nat) :
    ((p.record 7 tid step).done = true ∧ (p.record 7 tid step).begun = true ∧ (p.record 7 tid step).w1 = BitVec.ofNat 64 p.idx
      ∧ (p.record 7 tid step).w2 = BitVec.ofNat 64 step)
    ∧ (p.record 7 tid step).w0.toNat / 2 ^ 56 = 7 ∧ (p.record 7 tid step).w0.toNat % 2 ^ 32 = p.words[0].toNat % 2 ^ 32
    ∧ (p.record 7 tid step).w0.toNat / 2 ^ 52 % 16 = p.words[0].toNat / 2 ^ 60 := by
  refine ⟨⟨rfl, rfl, rfl, rfl⟩, ?_⟩
  have hword : vget p.words 0 0 = p.words[0] := vget_eq_getElem p.words (0 : Fin 8) 0
  have hlt := p.words[0].isLt
  have hw0 : (p.record 7 tid step).w0 = BitVec.ofNat 64 (7 * 2 ^ 56 + p.words[0].toNat / 2 ^ 60 % 2 ^ 4 * 2 ^ 52 + tid % 2 ^ 20 * 2 ^ 32
      + p.words[0].toNat % 2 ^ 32) := by
    rw [Started.record]
    dsimp only
    rw [hword, recordOf, packetType, fld_eq, fld_eq, Nat.pow_zero, Nat.div_one]
  rw [hw0, BitVec.toNat_ofNat, Nat.mod_eq_of_lt (by omega)]
  refine ⟨by omega, by omega, by omega⟩

section
variable {s : State} {q : Nat} {tids : List (Nat × Nat)}

theorem mem_endedRecords {r : Record} : r ∈ s.endedRecords q tids ↔ (∃ x, (x ∈ (s.queue q).held ∨ (q, some x) ∈ s.dues) ∧ x.ended = r)
    ∨ ∃ p ∈ (s.queue q).started, p.record 7 (lookupD tids p.idx 0) (s.endedStep q p.idx) = r := by
  have hdue (x : Record) : x ∈ (s.dues.filter (·.1 == q)).filterMap (·.2) ↔ (q, some x) ∈ s.dues := by
    simp only [List.mem_filterMap, List.mem_filter, beq_iff_eq, Prod.exists]
    exact ⟨fun ⟨_, _, ⟨hmem, hq⟩, hx⟩ => hq ▸ hx ▸ hmem, fun hmem => ⟨q, some x, ⟨hmem, rfl⟩, rfl⟩⟩
  rw [State.endedRecords, List.mem_append, List.mem_map, List.mem_map]
  simp only [List.mem_append, hdue]

theorem endedRecords_status {r : Record} (h : r ∈ s.endedRecords q tids) (hbegun : r.begun = true) : r.w0.toNat / 2 ^ 56 = 7 := by
  rcases mem_endedRecords.1 h with ⟨x, _, rfl⟩ | ⟨p, _, rfl⟩
  · by_cases hx : x.begun = true
    · exact (Record.ended_begun hx).1
    · rw [Record.ended_other (Bool.eq_false_iff.2 hx)] at hbegun
      exact absurd hbegun hx
  · exact (p.record_spec _ _).2.1

theorem endedRecords_other {r : Record} (h : r ∈ (s.queue q).held ∨ (q, some r) ∈ s.dues) (hbegun : r.begun = false) :
    r ∈ s.endedRecords q tids :=
  mem_endedRecords.2 (.inl ⟨r, h, Record.ended_other hbegun⟩)

/-- The step that the only replay of a packet has reached. -/
theorem State.endedStep_of {idx : Nat} {y : Replay} (hy : ∃ g : Fin 16, s.graphs[g].run = some y)
    (hown : y.own = true ∧ y.queue = q ∧ y.idx = idx)
    (hall : ∀ z : Replay, (∃ g : Fin 16, s.graphs[g].run = some z) → z.own = true ∧ z.queue = q ∧ z.idx = idx → z = y) :
    s.endedStep q idx = y.step := by
  have hmem (z : Replay) : z ∈ s.graphs.toList.filterMap (·.run) ↔ ∃ g : Fin 16, s.graphs[g].run = some z := by
    rw [List.mem_filterMap]
    constructor
    · rintro ⟨x, hx, hz⟩
      obtain ⟨i, hi, rfl⟩ := List.getElem_of_mem hx
      exact ⟨⟨i, by simpa using hi⟩, by simpa using hz⟩
    · rintro ⟨g, hz⟩
      exact ⟨s.graphs[g], by simp, hz⟩
  have htest (z : Replay) : (z.own && z.queue == q && z.idx == idx) = true ↔ z.own = true ∧ z.queue = q ∧ z.idx = idx := by
    simp only [Bool.and_eq_true, beq_iff_eq, and_assoc]
  unfold State.endedStep
  cases hfind : (s.graphs.toList.filterMap (·.run)).find? fun r => r.own && r.queue == q && r.idx == idx with
  | none => exact absurd ((htest y).2 hown) (List.find?_eq_none.1 hfind y ((hmem y).2 hy))
  | some z =>
    rw [hall z ((hmem z).1 (List.mem_of_find?_eq_some hfind)) ((htest z).1 (List.find?_some (p := fun r : Replay => r.own && r.queue == q && r.idx == idx) hfind))]
    rfl

theorem endedRecords_started {p : Started} (hp : p ∈ (s.queue q).started) : ∃ r ∈ s.endedRecords q tids, r.done = true ∧ r.begun = true
    ∧ r.w1 = BitVec.ofNat 64 p.idx ∧ r.w0.toNat % 2 ^ 32 = p.words[0].toNat % 2 ^ 32
    ∧ r.w0.toNat / 2 ^ 52 % 16 = p.words[0].toNat / 2 ^ 60
    ∧ (∀ y : Replay, (∃ g : Fin 16, s.graphs[g].run = some y) → y.own = true ∧ y.queue = q ∧ y.idx = p.idx →
      (∀ z : Replay, (∃ g : Fin 16, s.graphs[g].run = some z) → z.own = true ∧ z.queue = q ∧ z.idx = p.idx → z = y) →
      r.w2 = BitVec.ofNat 64 y.step) := by
  obtain ⟨⟨hdone, hbegun, hw1, hw2⟩, _, hlow, htype⟩ := p.record_spec (lookupD tids p.idx 0) (s.endedStep q p.idx)
  exact ⟨_, mem_endedRecords.2 (.inr ⟨p, hp, rfl⟩), hdone, hbegun, hw1, hlow, htype, fun y hy hown hall => by
    rw [hw2, State.endedStep_of hy hown hall]⟩

end

/-! ### Module reset (R10, R18, R341) -/

theorem moduleReset_of (s : State) (ok : Bool) (code : Word) (m : List (BitVec 256)) :
    exec (.moduleReset ok code m) s = .next (State.marked { State.reset with
      agenda := s.agenda
      fresh := s.fresh
      modId := s.modId
      mem := s.mem.filter fun c => c.1 < 2 ^ 40 ∨ 2 ^ 60 ≤ c.1
      ecc := s.ecc.filter fun k => k < 2 ^ 40 ∨ 2 ^ 60 ≤ k
      struck := s.struck
      outbox := s.outbox
      hostbox := s.hostbox
      bootst := code
      measure := m
      locked := !ok }) := by
  have houtlasts : outlastsReset = fun k => decide (k < 2 ^ 40 ∨ 2 ^ 60 ≤ k) := by
    funext k
    rw [Bool.decide_or]
    rfl
  have e : exec (.moduleReset ok code m) s = execModuleReset ok code m s := rfl
  rw [e, execModuleReset, houtlasts]
  rfl

/-- Settles O59: each port's event by the rule of its own function, and the two resets by what they leave. -/
theorem linksAndResets : Obligations.LinksAndResets := by
  refine ⟨fun n s => ⟨exec_circuitChange, fun h => ⟨exec_linkRetrained h, exec_retrainTimeout h⟩, exec_linkFail, exec_portDisable,
    fun d => ⟨packetTrain_starts, packetTrain_waits⟩, fun l => ⟨exec_errorMonitorRaise, holdExpire_falls l, holdExpire_due, holdExpire_early l⟩,
    exec_opticalBudgetChange, ?_⟩, fun s => ⟨functionLevelReset_of s, fun q tids => ⟨fun r => endedRecords_status,
      fun r => endedRecords_other, fun p => endedRecords_started⟩, moduleReset_of s⟩⟩
  rw [readRegister_port]
  exact OptPort.word_fields s.optical[n] s.cycle

end Sys2Proof.Machine
end

section
/-! SUPPORT. What the fabric sequencer leaves alone: the bundles that issue, and memory's canonical form (R254, R290 to R309). -/

namespace Sys2Proof.Machine

/-- `t` has, for each context, the bundle at which `s` has it, and canonical memory if `s` has. -/
structure State.Calm (s t : State) : Prop where
  seqs : ∀ id, (t.ctx? id).map (·.seq) = (s.ctx? id).map (·.seq)
  canonical : s.Canonical → t.Canonical

theorem State.Calm.refl (s : State) : s.Calm s := ⟨fun _ => rfl, id⟩

theorem State.Calm.trans {s t u : State} (a : s.Calm t) (b : t.Calm u) : s.Calm u :=
  ⟨fun id => (b.seqs id).trans (a.seqs id), fun w => b.canonical (a.canonical w)⟩

theorem State.calm_of_same {s t : State} (hctxs : t.ctxs = s.ctxs) (hmem : t.mem = s.mem) : s.Calm t :=
  ⟨fun id => by rw [State.ctx?, State.ctx?, hctxs], fun w => by rw [State.Canonical, hmem]; exact w⟩

theorem State.foldl_calm {α : Type} {g : State → α → State} (hg : ∀ (s : State) (a : α), s.Calm (g s a)) :
    ∀ (l : List α) (s : State), s.Calm (l.foldl g s)
  | [], s => .refl s
  | a :: l, s => (hg s a).trans (foldl_calm hg l (g s a))

/-! ### Memory -/

theorem State.write_calm (s : State) (k : Nat) (bs : List Byte) : s.Calm (s.write k bs) := ⟨fun _ => rfl, Memory.write_wf⟩

theorem State.undefine_calm (s : State) (k n : Nat) : s.Calm (s.undefine k n) := by
  unfold State.undefine
  exact (s.write_calm k _).trans (State.calm_of_same rfl rfl)

theorem State.noteWrite_calm (s : State) (d k n : Nat) : s.Calm (s.noteWrite d k n) := by
  rw [State.noteWrite_rest]
  exact State.calm_of_same rfl rfl

theorem State.noteWrites_calm (s : State) (d : Nat) (l : List (Nat × Nat)) : s.Calm (s.noteWrites d l) := by
  unfold State.noteWrites
  exact State.foldl_calm (fun s p => s.noteWrite_calm d p.1 p.2) l s

theorem State.noteRead_calm (s : State) (d k n : Nat) : s.Calm (s.noteRead d k n) := State.calm_of_same rfl rfl

theorem State.noteReads_calm (s : State) (d : Nat) (l : List (Nat × Nat)) : s.Calm (s.noteReads d l) := by
  unfold State.noteReads
  exact State.foldl_calm (fun s p => s.noteRead_calm d p.1 p.2) l s

theorem State.writePieces_calm : ∀ (l : List (Nat × Nat)) (bs : List Byte) (s : State), s.Calm (s.writePieces l bs)
  | [], _, s => .refl s
  | (k, n) :: l, bs, s => (s.write_calm k (bs.take n)).trans (writePieces_calm l (bs.drop n) (s.write k (bs.take n)))

theorem State.undefineGlobal_calm (s : State) (l : List (Nat × Nat)) : s.Calm (s.undefineGlobal l) := by
  unfold State.undefineGlobal
  refine State.foldl_calm (fun s p => ?_) l s
  split
  next l _ => exact State.foldl_calm (fun s k => s.undefine_calm k.1 k.2) l s
  next => exact .refl s

theorem State.undefinePlaces_calm (s : State) (x : Xfer) (pos n : Nat) : s.Calm (s.undefinePlaces x pos n) := s.undefineGlobal_calm _

/-! ### Records, packets and tasks -/

theorem State.setQueue_calm (s : State) (x : Queue) : s.Calm (s.setQueue x) := State.calm_of_same rfl rfl

theorem State.setGraph_calm (s : State) (g : Nat) (x : Graph) : s.Calm (s.setGraph g x) := State.calm_of_same rfl rfl

theorem State.setStrand_calm (s : State) (t : Strand) : s.Calm (s.setStrand t) := State.calm_of_same rfl rfl

theorem State.msix_calm (s : State) (v : Nat) : s.Calm (s.msix v) := State.calm_of_same rfl rfl

theorem State.writeRecord_calm (s : State) (kind : Nat) (acc : Access) (why va ptn queue task : Nat) :
    s.Calm (s.writeRecord kind acc why va ptn queue task) := by
  unfold State.writeRecord
  dsimp only
  generalize hw : State.noteWrite _ _ _ _ = w
  have hcount (n : BitVec 32) : s.Calm { w with fltwr := n } := by
    refine State.Calm.trans ?_ (State.calm_of_same (s := w) rfl rfl)
    rw [← hw]
    exact (s.write_calm _ _).trans (State.noteWrite_calm _ _ _ _)
  split
  · exact (hcount _).trans (State.msix_calm _ _)
  · exact hcount _

theorem State.inform_calm (s : State) (kind : Nat) (acc : Access) (why va ptn queue task : Nat) :
    s.Calm (s.inform kind acc why va ptn queue task) := by
  unfold State.inform
  split
  · exact s.writeRecord_calm _ _ _ _ _ _ _
  · exact State.calm_of_same rfl rfl

theorem State.coreFault_calm (s : State) (acc : Access) (va n q : Nat) : s.Calm (s.coreFault acc va n q) := by
  unfold State.coreFault
  split
  · exact s.inform_calm _ _ _ _ _ _ _
  · exact .refl s

theorem State.coreHasRead_calm (s : State) (va n : Nat) : s.Calm (s.coreHasRead va n) := by
  unfold State.coreHasRead
  split
  · exact .refl s
  · exact s.noteReads_calm _ _

theorem State.coreRelease_calm (s : State) (scope : Nat) : s.Calm (s.coreRelease scope) := by
  unfold State.coreRelease
  split
  · exact State.calm_of_same rfl rfl
  · exact .refl s

theorem State.coreWrite_calm {s t : State} {va : Nat} {bs : List Byte} (h : s.coreWrite va bs = .ok t) : s.Calm t := by
  unfold State.coreWrite at h
  split at h
  · cases h
  next l _ =>
    cases h
    exact (s.writePieces_calm l bs).trans (State.noteWrites_calm _ 8 l)

theorem State.signal_calm {s t : State} {add : Bool} {va : Nat} {v : Word} (h : s.signal add va v = .ok t) : s.Calm t := by
  unfold State.signal at h
  cases add with
  | true =>
    obtain ⟨old, -, hwrite⟩ := except_bind_ok h
    exact (s.coreHasRead_calm va 8).trans (State.coreWrite_calm hwrite)
  | false =>
    obtain ⟨old, -, hwrite⟩ := except_bind_ok h
    exact State.coreWrite_calm hwrite

theorem State.due_calm (s : State) (q : Nat) (r : Option Record) : s.Calm (s.due q r) := State.calm_of_same rfl rfl

theorem State.unstart_calm (s : State) (q idx : Nat) : s.Calm (s.unstart q idx) := s.setQueue_calm _

theorem State.haltQueue_calm (s : State) (q : Nat) : s.Calm (s.haltQueue q) := by
  unfold State.haltQueue
  refine (s.setQueue_calm ((s.queue q).setHalt true)).trans (State.foldl_calm (fun s (p : Started) => ?_) _ _)
  exact (s.unstart_calm q p.idx).trans (State.due_calm _ q _)

theorem State.settleRecord_calm (s : State) (q status : Nat) (r : Record) : s.Calm (s.settleRecord q status r) := by
  unfold State.settleRecord
  dsimp only
  split
  · exact (s.due_calm _ _).trans (State.haltQueue_calm _ _)
  · exact s.due_calm _ _

theorem State.completePacket_calm (s : State) (q idx status task detail : Nat) (tiles : List Nat) :
    s.Calm (s.completePacket q idx status task detail tiles) := by
  unfold State.completePacket
  split
  · exact .refl s
  · dsimp only
    split
    · exact (s.unstart_calm q idx).trans (State.settleRecord_calm _ _ _ _)
    · exact (s.unstart_calm q idx).trans (State.due_calm _ _ _)

theorem State.endReplayPacket_calm (s : State) (q idx : Nat) (own : Bool) (status step : Nat) (tiles : List Nat) :
    s.Calm (s.endReplayPacket q idx own status step tiles) := by
  unfold State.endReplayPacket
  split
  · exact s.completePacket_calm _ _ _ _ _ _
  split
  · exact .refl s
  · exact s.settleRecord_calm _ _ _

theorem State.packetTask_calm (s : State) (q : Nat) (src : TaskSrc) (w : Vector Word 8) (arg : Word) (cmpl : Option Word) :
    s.Calm (s.packetTask q src w arg cmpl) := State.calm_of_same rfl rfl

theorem State.graphHasRead_calm (s : State) (va : Nat) (l : List Node) : s.Calm (s.graphHasRead va l) := by
  unfold State.graphHasRead
  dsimp only
  split
  · exact s.coreHasRead_calm _ _
  · exact (s.coreHasRead_calm _ _).trans (State.coreHasRead_calm _ _ _)

theorem State.startGraph_calm (s : State) (q idx : Nat) (own : Bool) (w : Vector Word 8) : s.Calm (s.startGraph q idx own w) := by
  unfold State.startGraph
  dsimp only
  split
  · split
    · exact s.endReplayPacket_calm _ _ _ _ _ _
    · split
      · refine State.Calm.trans ?_ (State.endReplayPacket_calm _ _ _ _ _ _ _)
        split
        · exact s.coreFault_calm _ _ _ _
        · exact .refl s
      · exact (s.graphHasRead_calm _ _).trans (State.setGraph_calm _ _ _)
  · split
    · exact s.endReplayPacket_calm _ _ _ _ _ _
    · split
      · exact s.setGraph_calm _ _
      · exact s.setGraph_calm _ _

/-! ### Catalogue launches (R309) -/

theorem State.spendEntry_calm (s : State) (e : CatEntry) : s.Calm (s.spendEntry e) := by
  unfold State.spendEntry
  split
  · exact .refl s
  · split
    · exact State.calm_of_same rfl rfl
    · exact State.calm_of_same rfl rfl

theorem State.catRecord_calm (s : State) (e : CatEntry) (status : Nat) (w : Vector Word 8) : s.Calm (s.catRecord e status w) :=
  s.settleRecord_calm _ _ _

theorem State.catPerform_calm (s : State) (e : CatEntry) (va : Nat) (w : Vector Word 8) : s.Calm (s.catPerform e va w) := by
  unfold State.catPerform
  split
  · exact s.catRecord_calm _ _ _
  · split
    · exact s.packetTask_calm _ _ _ _ _
    · exact s.startGraph_calm _ _ _ _
    · split
      · exact (s.coreFault_calm _ _ _ _).trans (State.catRecord_calm _ _ _ _)
      next t h =>
        have hsignal := (s.coreRelease_calm _).trans (State.signal_calm h)
        split
        · exact hsignal.trans (State.catRecord_calm _ _ _ _)
        · exact hsignal

theorem State.catLaunch_calm (s : State) (index va : Nat) : s.Calm (s.catLaunch index va).1 := by
  unfold State.catLaunch
  split
  · split
    · exact .refl s
    · split
      · have hfresh : s.Calm { s with fresh := s.fresh + 1 } := State.calm_of_same rfl rfl
        exact hfresh.trans ((State.coreFault_calm _ _ _ _ _).trans (State.catRecord_calm _ _ _ _))
      · dsimp only
        split
        · exact s.coreHasRead_calm _ _
        · exact (s.coreHasRead_calm _ _).trans ((State.spendEntry_calm _ _).trans (State.catPerform_calm _ _ _ _))
  · exact .refl s

/-! ### Posts, reports and transfers (R295 to R306) -/

theorem State.send_calm (s : State) (m : Nat) (p : Packet) : s.Calm (s.send m p) := by
  unfold State.send
  split
  · exact State.calm_of_same rfl rfl
  · exact State.calm_of_same rfl rfl
  · exact .refl s

theorem State.setPost_calm (s : State) (p : PostRec) : s.Calm (s.setPost p) := State.calm_of_same rfl rfl

theorem State.setXfer_calm (s : State) (x : Xfer) : s.Calm (s.setXfer x) := State.calm_of_same rfl rfl

theorem State.takeServed_calm (s : State) (r : Served) : s.Calm (s.takeServed r) := by
  unfold State.takeServed
  split
  · exact .refl s
  · exact s.setPost_calm _

theorem State.report_calm (s : State) (r : Served) : s.Calm (s.report_ r) := by
  unfold State.report_
  split
  · exact s.takeServed_calm r
  · exact s.send_calm _ _

theorem State.sendNotice_calm (s : State) (n : Notice) : s.Calm (s.sendNotice n) := by
  unfold State.sendNotice
  split
  · exact State.calm_of_same rfl rfl
  split
  · exact s.takeServed_calm _
  · exact s.send_calm _ _

theorem State.countFold_calm (s : State) (ptn index daddr sender : Nat) : s.Calm (s.countFold ptn index daddr sender) :=
  State.calm_of_same rfl rfl

theorem State.finishXfer_calm (s : State) (x : Xfer) : s.Calm (s.finishXfer x) := by
  unfold State.finishXfer
  dsimp only
  refine State.Calm.trans ?_ (State.report_calm _ _)
  have hgone : s.Calm { s with xfers := s.xfers.filter (·.id != x.id) } := State.calm_of_same rfl rfl
  have launch (w : State) : w.Calm (match x.fail, launchOf x.notice with
      | none, some i => w.catLaunch i x.dst
      | _, _ => (w, true)).1 := by
    split
    · exact w.catLaunch_calm _ _
    · exact .refl w
  cases x.notice.body with
  | coll c => exact hgone.trans (launch _)
  | fire e index peer sender =>
    dsimp only
    by_cases hopr : (decide (1 ≤ e.opr) && decide (e.opr ≤ 3)) = true
    · rw [if_pos hopr]
      exact hgone.trans ((State.countFold_calm _ _ _ _ _).trans (launch _))
    · rw [if_neg hopr]
      exact hgone.trans (launch _)

theorem State.settleXfer_calm (s : State) (x : Xfer) : s.Calm (s.settleXfer x) := by
  unfold State.settleXfer
  split
  · exact s.finishXfer_calm x
  · exact s.setXfer_calm x

theorem State.failPost_calm (s : State) (key : Option (Nat × Nat × Nat)) (code : Nat) : s.Calm (s.failPost key code) := by
  unfold State.failPost
  split
  · exact .refl s
  · exact s.setPost_calm _

theorem State.failChunk_calm (s : State) (x : Xfer) (pos n code : Nat) : s.Calm (s.failChunk x pos n code) := by
  unfold State.failChunk
  exact (s.undefinePlaces_calm x pos n).trans ((State.failPost_calm _ _ _).trans (State.settleXfer_calm _ _))

theorem State.sendPull_calm (s : State) (x : Xfer) (c : Nat × Nat) : s.Calm (s.sendPull x c) := by
  unfold State.sendPull
  have hset := s.setXfer_calm { x with out := x.out ++ [c] }
  generalize s.setXfer { x with out := x.out ++ [c] } = w at hset
  dsimp only
  split
  · refine hset.trans ?_
    exact State.calm_of_same rfl rfl
  split
  · exact s.failChunk_calm _ _ _ _
  · exact hset.trans (w.send_calm _ _)

theorem State.ask_calm (s : State) (x y : Xfer) (c : Nat × Nat) : s.Calm (s.ask x y c) := by
  unfold State.ask
  split
  · exact s.sendPull_calm _ _
  · split
    · exact s.sendPull_calm _ _
    · exact s.setXfer_calm _
    · exact s.failChunk_calm _ _ _ _

theorem State.pump_calm : ∀ (n : Nat) (s : State), s.Calm (State.pump n s)
  | 0, s => .refl s
  | n + 1, s => by
    unfold State.pump
    split
    · exact .refl s
    · split
      · exact .refl s
      · exact (s.ask_calm _ _ _).trans (pump_calm n _)

theorem State.pumped_calm (s : State) : s.Calm s.pumped := State.pump_calm _ s

theorem State.addXfer_calm (s : State) (mk : Nat → Xfer) : s.Calm (s.addXfer mk) := State.calm_of_same rfl rfl

theorem State.actOn_calm (s : State) (p : PostRec) (n : Notice) : s.Calm (s.actOn p n) := by
  unfold State.actOn
  have htaken : s.Calm { s with arrived := s.arrived.erase n } := State.calm_of_same rfl rfl
  split
  · dsimp only
    split
    · exact htaken.trans ((State.setPost_calm _ _).trans (State.report_calm _ _))
    split
    · refine htaken.trans (State.Calm.trans ?_ ((State.setPost_calm _ _).trans (State.report_calm _ _)))
      split
      · exact State.undefinePlaces_calm _ _ _ _
      · exact .refl _
    · exact htaken.trans ((State.setPost_calm _ _).trans (State.addXfer_calm _ _))
  · exact .refl s

theorem State.actOnArrived_calm (s : State) (sid chan id : Nat) : s.Calm (s.actOnArrived sid chan id) := by
  unfold State.actOnArrived
  refine State.foldl_calm (fun s n => ?_) _ s
  split
  · exact .refl s
  · split
    · exact s.actOn_calm _ _
    · exact .refl s

/-! ### Handing a post over (R254, R300) -/

theorem State.failColl_calm (s : State) (p : PostRec) (c : Coll) (n : Nat) (rooted : Bool) (code : Nat) :
    s.Calm (s.failColl p c n rooted code) := (s.undefineGlobal_calm _).trans (State.setPost_calm _ _)

theorem State.handColl_calm (s : State) (p : PostRec) (c : Coll) : s.Calm (s.handColl p c) := by
  unfold State.handColl
  dsimp only
  split
  · exact s.failColl_calm _ _ _ _ _
  · split
    · exact s.failColl_calm _ _ _ _ _
    · exact (s.setPost_calm _).trans (State.foldl_calm (fun s m => s.sendNotice_calm _) _ _)

theorem State.machineCheckOf_calm (s : State) (sid sub addr : Nat) : s.Calm (s.machineCheckOf sid sub addr) := by
  unfold State.machineCheckOf
  split
  · exact .refl s
  · exact s.setStrand_calm _

theorem State.hasReadEntry_calm (s : State) (l : List (Nat × Nat)) (e : Entry64) : s.Calm (s.hasReadEntry l e) := by
  unfold State.hasReadEntry
  dsimp only
  split
  · exact s.noteReads_calm 8 l
  · split
    · exact (s.noteReads_calm 8 l).trans (State.noteReads_calm _ 8 _)
    · exact s.noteReads_calm 8 l

/-- Owning units changes no context and no byte. -/
theorem Frame.foldl_own_rest (p : Frame → TileUnit → Bool) : ∀ (us : List TileUnit) (f : Frame),
    (us.foldl (fun (f : Frame) u => if p f u then f.own u else f) f).c = f.c
      ∧ (us.foldl (fun (f : Frame) u => if p f u then f.own u else f) f).s.ctxs = f.s.ctxs
      ∧ (us.foldl (fun (f : Frame) u => if p f u then f.own u else f) f).s.mem = f.s.mem
  | [], f => ⟨rfl, rfl, rfl⟩
  | u :: us, f => by
    have hown : (f.own u).c = f.c ∧ (f.own u).s.ctxs = f.s.ctxs ∧ (f.own u).s.mem = f.s.mem := by
      unfold Frame.own
      dsimp only
      split <;> exact ⟨rfl, rfl, rfl⟩
    have ih := foldl_own_rest p us (if p f u then f.own u else f)
    rw [List.foldl_cons]
    by_cases h : p f u
    · rw [if_pos h] at ih ⊢
      exact ⟨ih.1.trans hown.1, ih.2.1.trans hown.2.1, ih.2.2.trans hown.2.2⟩
    · rw [if_neg h] at ih ⊢
      exact ih

/-- A context written back with its bundle unchanged. -/
theorem State.setCtx_seqs {s : State} {c d : Ctx} (hc : s.ctx? d.id = some c) (hseq : d.seq = c.seq) (id : Nat) :
    ((s.setCtx d).ctx? id).map (·.seq) = (s.ctx? id).map (·.seq) := by
  by_cases h : d.id = id
  · subst h
    rw [State.ctx?_setCtx ⟨c, hc⟩, hc, Option.map_some, Option.map_some, hseq]
  · rw [State.ctx?_setCtx_of_ne (Ne.symm h)]

theorem State.claimSource_calm (s : State) (p : PostRec) (t : Strand) (bs : List Nat) : s.Calm (s.claimSource p t bs) := by
  unfold State.claimSource
  split
  · exact .refl s
  next c hc =>
    dsimp only
    obtain ⟨hctx, hctxs, hmem⟩ := Frame.foldl_own_rest (fun f u => f.atHand u) (bs.map fun b => TileUnit.block (Fin.ofNat 512 b)) ⟨s, t, c⟩
    generalize List.foldl _ _ _ = f at hctx hctxs hmem ⊢
    have hid : c.id = p.ctx := State.ctx?_id hc
    have hfind : f.s.ctx? f.c.id = some c := by
      rw [State.ctx?, hctxs, hctx, hid]
      exact hc
    refine ⟨fun id => ?_, fun w => ?_⟩
    · refine (State.setCtx_seqs (d := { f.c with wants := f.c.wants ++ _ }) hfind (by rw [hctx]) id).trans ?_
      rw [State.ctx?, hctxs]
      rfl
    · show Memory.wf f.s.mem = true
      rw [hmem]
      exact w

theorem State.handFire_calm (s : State) (p : PostRec) (t : Strand) (index : Nat) : s.Calm (s.handFire p t index) := by
  unfold State.handFire
  dsimp only
  split
  · exact s.setPost_calm _
  · split
    · exact (s.machineCheckOf_calm _ _ _).trans (State.setPost_calm _ _)
    split
    · exact (s.noteReads_calm _ _).trans (State.setPost_calm _ _)
    · split
      · refine State.Calm.trans ?_ (State.setPost_calm _ _)
        split
        · exact s.machineCheckOf_calm _ _ _
        · exact s.hasReadEntry_calm _ _
      · split
        · exact (s.hasReadEntry_calm _ _).trans (State.setPost_calm _ _)
        · refine State.Calm.trans ?_ (State.foldl_calm (fun s m => s.sendNotice_calm _) _ _)
          have handed := fun l e q => (s.hasReadEntry_calm l e).trans (State.setPost_calm _ q)
          split
          · exact (handed _ _ _).trans (State.claimSource_calm _ _ _ _)
          · exact handed _ _ _

theorem State.handPost_calm (s : State) (sid chan id : Nat) : s.Calm (s.handPost sid chan id) := by
  unfold State.handPost
  split
  next p t _ _ =>
    refine State.Calm.trans ?_ ((State.actOnArrived_calm _ _ _ _).trans (State.pumped_calm _))
    split
    · exact s.handColl_calm _ _
    · split
      · exact .refl s
      · exact s.handFire_calm _ _ _
  · exact .refl s

end Sys2Proof.Machine
end

section
/-! PROOF. XCOLL, TTREADY and WAITID (R253 to R260). -/

namespace Sys2Proof.Machine

/-! ### The frame behind the touches of a trigger -/

/-- `g` is a later frame of the same strand and context, which differs from `f` only in the tiles, what the slot waits for and what
the group has read. -/
structure Frame.Reached (f g : Frame) : Prop where
  strand : g.t = f.t
  id : g.c.id = f.c.id
  posts : g.s.ctxs = f.s.ctxs

theorem Frame.Reached.trans {f g h : Frame} (a : f.Reached g) (b : g.Reached h) : f.Reached h :=
  ⟨b.strand.trans a.strand, b.id.trans a.id, b.posts.trans a.posts⟩

theorem Frame.Noted.reached {f g : Frame} (h : f.Noted g) : f.Reached g := ⟨h.2.1, h.id, by rw [h.1]⟩

theorem Frame.reach_reached {f g : Frame} {u : TileUnit} (h : f.reach u = .ok g) : f.Reached g := by
  unfold Frame.reach at h
  split at h
  · cases h
    exact (f.own_noted u).reached
  · split at h <;> cases h
    exact ⟨rfl, rfl, rfl⟩

theorem Frame.reachAll_reached : ∀ {us : List TileUnit} {f g : Frame}, f.reachAll us = .ok g → f.Reached g
  | [], f, g, h => by
    cases h
    exact ⟨rfl, rfl, rfl⟩
  | u :: us, f, g, h => by
    unfold Frame.reachAll at h
    split at h
    · exact (reach_reached ‹_›).trans (reachAll_reached h)
    · cases h

theorem Frame.access_reached {f g : Frame} {keys : List (Nat × Nat)} {w : Bool} (h : f.access keys w = .ok g) : f.Reached g := by
  unfold Frame.access at h
  dsimp only at h
  split at h <;> cases h
  exact ⟨rfl, rfl, rfl⟩

theorem Frame.padWords_reached {f g : Frame} {a n : Nat} {w : List Word} (h : f.padWords a n = .ok (w, g)) : f.Reached g := by
  obtain ⟨u, hu, h⟩ := except_bind_ok h
  obtain ⟨v, hv, h⟩ := except_bind_ok h
  obtain ⟨bs, _, h⟩ := except_bind_ok h
  cases h
  exact (reachAll_reached hu).trans (access_reached hv)

/-- The context of a slot that runs is one of the state's, and stays so behind its delivery. -/
theorem State.Runs.ctx {s : State} {h : Slot} {f : Frame} (r : s.Runs h f) : ∃ c, f.s.ctx? f.c.id = some c := by
  obtain ⟨f0, hf, _, _, _, ht⟩ := r
  obtain ⟨sid, _, hf⟩ := Option.bind_eq_some_iff.1 hf
  obtain ⟨hs, _, _, hc, hid⟩ := State.frameOf_parts hf
  have n := (Frame.touchAll_noted ht).reached
  refine ⟨f0.c, ?_⟩
  rw [State.ctx?, n.posts, n.id]
  show (f0.s.ctx? f0.c.id) = some f0.c
  rw [hs, hid]
  exact hc

theorem Frame.Delivered.ctx {f g : Frame} (d : f.Delivered g) (h : ∃ c, f.s.ctx? f.c.id = some c) :
    ∃ c, g.s.ctx? g.c.id = some c := by
  have e : g.s.ctx? g.c.id = f.s.ctx? f.c.id := by rw [d.1, d.2.2]; rfl
  rwa [e]

theorem Frame.Reached.ctx {f g : Frame} (d : f.Reached g) (h : ∃ c, f.s.ctx? f.c.id = some c) :
    ∃ c, g.s.ctx? g.c.id = some c := by
  rwa [State.ctx?, d.posts, d.id]

/-! ### Posting -/

/-- The frame with work posted on a channel, its transfer ID taken (R254). -/
def Frame.withPost (f : Frame) (chan inst : Nat) (work : Work) (tok : Bool) (utag : Nat) (mark : Strand → Nat → Strand) : Frame :=
  let c := vget f.t.chans chan Chan.start
  let p : PostRec := ⟨f.unit, f.t.sid, f.c.id, f.t.ptn, chan, c.next, inst, work, false, none, [], 0, [], [], none,
    ⟨false, false, false⟩, false, tok, utag⟩
  { f with
    s := { f.s with posts := f.s.posts ++ [p], ended := f.s.ended.filter p.recalls }
    t := mark { f.t with chans := vset f.t.chans chan ⟨(c.next + 1) % 2 ^ 48, c.open_ ++ [c.next]⟩ } c.next }

/-- The frame behind the handing over of a post, if its channel has room. -/
def Frame.handed (p : Frame) (now : Bool) (chan id : Nat) : Frame :=
  if now then p.at_ (p.put.handPost p.t.sid chan id) else p

theorem Frame.post_of {f : Frame} {chan inst utag : Nat} {work : Work} {tok now : Bool} {mark : Strand → Nat → Strand}
    (h : f.postPlace chan = .ok now) : f.post chan inst work tok utag mark
      = .ok ((f.withPost chan inst work tok utag mark).handed now chan (vget f.t.chans chan Chan.start).next,
        .result 2 (pushWord 9 (BitVec.ofNat 64 (chan * 2 ^ 48 + (vget f.t.chans chan Chan.start).next)) 0)) := by
  rw [Frame.post, except_bind_of h]
  rfl

/-- Two posts that differ only in which collective they stand for and in their mark. -/
theorem Frame.post_ite {f : Frame} {q : Bool} {chan i j utag : Nat} {work : Work} {tok : Bool} {m n : Strand → Nat → Strand} :
    (if q then f.post chan i work tok utag m else f.post chan j work tok utag n)
      = f.post chan (if q then i else j) work tok utag fun t id => if q then m t id else n t id := by
  cases q <;> rfl

/-- What is handed over changes nothing of the bundle that its context runs. -/
theorem Frame.handed_late {p : Frame} (now : Bool) (chan id : Nat) (h : ∃ c, p.s.ctx? p.c.id = some c) :
    (p.handed now chan id).c.seq.late = p.c.seq.late := by
  unfold Frame.handed
  split
  · have hput : p.put.ctx? p.c.id = some p.c := State.ctx?_setCtx h
    have hseq := (State.handPost_calm p.put p.t.sid chan id).seqs p.c.id
    rw [hput] at hseq
    obtain ⟨d, hd, e⟩ := Option.map_eq_some_iff.1 hseq
    rw [Frame.at_, hd]
    exact congrArg (·.late) e
  · rfl

section
variable {h : Slot} {a : Src} {s : State} {f : Frame} {x : Args} {k : Fetch} {held now b : Bool}

/-- A posting operation that comes to its post leaves its work posted. -/
theorem postOp_leaves {act : Frame → Word → Word → Except Stop (Frame × Effect)} {v : Frame} {chan inst utag : Nat} {work : Work}
    {tok : Bool} {mark : Strand → Nat → Strand}
    (hr : s.Runs h f) (ht : f.Takes (copyTrig f.unit a b false false (some 2)) x k held) (hspec : (k.ready f.unit).Agreed)
    (hact : act (k.ready f.unit) x.a.value.low x.b.value.low = v.post chan inst work tok utag mark)
    (hnow : v.postPlace chan = .ok now) (hv : (k.ready f.unit).Reached v) (hlate : v.c.seq.late = [])
    (hsid : ∀ t i, (mark t i).sid = t.sid) (hchans : ∀ t i, (mark t i).chans = t.chans) :
    ∃ p r : Frame, postOp b h a act s = .next (r.leaves { h with kill := false } (copyTrig f.unit a b false false (some 2)) k x held
        (.result 2 ⟨9, (BitVec.ofNat 64 (chan * 2 ^ 48 + (vget v.t.chans chan Chan.start).next)).setWidth 2048, 0⟩))
      ∧ p.s.posts = v.s.posts ++ [⟨v.unit, v.t.sid, v.c.id, v.t.ptn, chan, (vget v.t.chans chan Chan.start).next, inst, work, false,
          none, [], 0, [], [], none, ⟨false, false, false⟩, false, tok, utag⟩]
      ∧ p.t.chans = vset v.t.chans chan ⟨((vget v.t.chans chan Chan.start).next + 1) % 2 ^ 48,
          (vget v.t.chans chan Chan.start).open_ ++ [(vget v.t.chans chan Chan.start).next]⟩
      ∧ r = if now then p.at_ (p.put.handPost v.t.sid chan (vget v.t.chans chan Chan.start).next) else p := by
  have hctx : ∃ c, v.s.ctx? v.c.id = some c :=
    hv.ctx (f := k.ready f.unit) (ht.ready_delivered.ctx hr.ctx)
  refine ⟨v.withPost chan inst work tok utag mark, _, copyOp_leaves (h := { h with kill := false }) hr ht
    ((except_bind_of (Frame.settled_of hspec)).trans (hact.trans (Frame.post_of hnow))) ?_, rfl, hchans _ _, ?_⟩
  · exact (Frame.handed_late (p := v.withPost chan inst work tok utag mark) _ _ _ hctx).trans
      (hlate.trans (ht.ready_late _).symm)
  · rw [Frame.handed, show (v.withPost chan inst work tok utag mark).t.sid = v.t.sid from hsid _ _]

end

/-! ### Settled -/

/-- Settles O43. -/
theorem fabricPosts : Obligations.FabricPosts := by
  refine ⟨?_, ?_⟩
  · intro h a s f v x k held now chan inst w words tok utag i b trig hr ht _ g A at_ c hspec hnow hform ch
    obtain ⟨rfl, rfl, rfl, rfl, rfl, rfl, rfl, hal, hlow, hown, hwords, hlate, hA, hresv, hlegal, harmed, hround, hetag, hs, hd, hdp, hsp,
      hinc⟩ | ⟨rfl, rfl, rfl, rfl, rfl, rfl, rfl, hA, hbit, hlt, hready⟩ := hform
    · have hv := Frame.padWords_reached hwords
      have e : exec (.xcoll h a) s = execXcoll h a s := rfl
      rw [e, execXcoll]
      refine postOp_leaves (mark := fun t id => if c.pers then t.noteRound c (A.toNat % 16) id
        else { t with insts := insertKey t.insts c.grp (lookupD v.t.insts c.grp 0 + 1) }) hr ht hspec ?_ hnow hv hlate ?_ ?_
      · have ht : v.t = g.t := hv.strand
        have harm : v.armedAt c.bca = g.armedAt c.bca := by rw [Frame.armedAt, Frame.counterKey, ht, hv.id]; rfl
        rw [fld_zero]
        refine (need_true_bind (by rw [fld_eq, beq_iff_eq, show x.a.value.low.toNat / 2 ^ 5 = 0 from hA]; rfl)).trans ?_
        refine (need_true_bind (by rw [hal, decide_eq_true hlow]; rfl)).trans ?_
        refine (except_bind_of (Frame.needUnowned_of hown)).trans ?_
        refine (except_bind_of hwords).trans ?_
        refine (need_true_bind ?_).trans ?_
        · rw [hresv, hlegal, harm, ht]
          simp only [Bool.true_and, Bool.and_eq_true, Bool.or_eq_true, Bool.not_eq_true']
          exact ⟨(Bool.eq_false_or_eq_true c.bce).elim (fun h => .inr (harmed h)) .inl,
            (Bool.eq_false_or_eq_true c.pers).elim (fun h => .inr (hround h)) .inl⟩
        refine (need_true_bind ?_).trans ?_
        · by_cases hr : c.rop = 0
          · exact Bool.or_eq_true_iff.2 (.inl (beq_iff_eq.2 hr))
          · exact Bool.or_eq_true_iff.2 (.inr (bne_iff_ne.2 (hetag hr)))
        refine (need_true_bind (beq_iff_eq.2 hs)).trans ((need_true_bind (beq_iff_eq.2 hd)).trans ?_)
        refine (need_true_bind (Bool.and_eq_true_iff.2 ⟨beq_iff_eq.2 hdp, beq_iff_eq.2 hsp⟩)).trans ?_
        refine (need_true_bind ?_).trans ?_
        · rw [ht]
          exact Bool.or_eq_true_iff.2 ((Bool.eq_false_or_eq_true c.pers).elim (fun h => .inr (decide_eq_true (hinc h)))
            fun h => .inl (congrArg Bool.not h))
        rw [ht]
        exact Frame.post_ite
      · intro t i
        split <;> rfl
      · intro t i
        split <;> rfl
    · have e : exec (.ttready h a) s = execTtready h a s := rfl
      rw [e, execTtready]
      refine postOp_leaves (mark := fun t _ => t) hr ht hspec ?_ hnow (Frame.touchAll_noted hready).reached ?_ (fun _ _ => rfl) (fun _ _ => rfl)
      · rw [fld_zero, fld_eq, fld_eq, fld_eq]
        have hzero : x.a.value.low.toNat / 2 ^ 20 % 2 ^ 44 = 0 := by rw [show x.a.value.low.toNat / 2 ^ 20 = 0 from hA]; rfl
        refine (need_true_bind ?_).trans (except_bind_of (Frame.reachAll_of_touchAll hready))
        rw [hzero, show bit (k.ready f.unit).t.ttb 63 = true from hbit]
        exact decide_eq_true hlt
      · exact (Frame.touchAll_noted hready).late.trans (ht.ready_late _)
  · intro h a s f x k held trig hr ht _ g c id hid hdone
    have e : exec (.waitid h a) s = execWaitid h a s := rfl
    rw [e, execWaitid]
    refine copyOp_leaves hr ht ?_ rfl
    rw [fld_zero, fld_zero]
    exact (need_true_bind (decide_eq_true hid)).trans (need_true_bind (decide_eq_true hdone))

end Sys2Proof.Machine
end

section
/-! PROOF. Rounding: whole units, and the encoding of a rounded magnitude (R95, R103, R105 to R107). -/

namespace Sys2Proof.Machine

/-! ### Magnitudes -/

/-- `x` is `m * 2 ^ e`, with something below its last bit when `sticky`. -/
structure Approx (m : ℕ) (e : ℤ) (sticky : Bool) (x : ℝ) : Prop where
  low : (m : ℝ) * (2 : ℝ) ^ e ≤ x
  high : x < ((m : ℝ) + 1) * (2 : ℝ) ^ e
  rest : sticky = true ↔ x ≠ (m : ℝ) * (2 : ℝ) ^ e

theorem two_zpow_pos (e : ℤ) : (0 : ℝ) < (2 : ℝ) ^ e := zpow_pos (by norm_num) e

theorem Approx.exact (m : ℕ) (e : ℤ) : Approx m e false ((m : ℝ) * (2 : ℝ) ^ e) :=
  ⟨le_rfl, mul_lt_mul_of_pos_right (by linarith) (two_zpow_pos e), by simp⟩

/-- The power of two between two exponents, as a natural number. -/
theorem two_zpow_sub {e q : ℤ} (h : e ≤ q) : (2 : ℝ) ^ q = (2 : ℝ) ^ e * ((2 ^ (q - e).toNat : ℕ) : ℝ) := by
  rw [Nat.cast_pow, ← zpow_natCast, Int.toNat_of_nonneg (by omega), Nat.cast_ofNat, ← zpow_add₀ (by norm_num)]
  congr 1
  omega

/-- A whole number is rounded to itself. -/
theorem RoundsTo.self (rm : BitVec 2) (neg : Bool) (k : ℕ) : RoundsTo rm neg (k : ℝ) k := by
  unfold RoundsTo
  split_ifs
  · exact ⟨by linarith, by linarith, fun h => by rcases h with h | h <;> linarith⟩
  · exact ⟨le_rfl, by linarith⟩
  · exact ⟨le_rfl, by linarith⟩

theorem rm_cases (rm : BitVec 2) : rm = 0 ∨ rm = 1 ∨ rm = 2 ∨ rm = 3 := by
  revert rm
  decide

/-- To nearest, ties to even. -/
theorem RoundsTo.nearest {neg : Bool} {y : ℝ} {r : ℕ} {above tie : Bool} (hr : (r : ℝ) ≤ y) (hr1 : y < r + 1)
    (habove : above = true ↔ 2 * (r : ℝ) + 1 < 2 * y) (htie : tie = true ↔ 2 * y = 2 * r + 1) :
    RoundsTo 0 neg y (if above || (tie && r % 2 == 1) then r + 1 else r) := by
  rw [RoundsTo, if_pos rfl]
  split
  next hup =>
    rw [Bool.or_eq_true, Bool.and_eq_true, habove, htie, beq_iff_eq] at hup
    push_cast
    rcases hup with h | ⟨h, hodd⟩
    · exact ⟨by linarith, by linarith, fun h => by rcases h with h | h <;> linarith⟩
    · exact ⟨by linarith, by linarith, fun _ => by omega⟩
  next hup =>
    rw [Bool.or_eq_true, Bool.and_eq_true, habove, htie, beq_iff_eq, not_or, not_and] at hup
    obtain ⟨h, hodd⟩ := hup
    refine ⟨by linarith, by linarith, fun h' => ?_⟩
    have := hodd (by rcases h' with h' | h' <;> linarith)
    omega

/-- Down to the magnitude below. -/
theorem RoundsTo.down {rm : BitVec 2} {neg : Bool} {y : ℝ} {r : ℕ} (hrm : rm = 1 ∨ rm = 2 ∧ neg = true ∨ rm = 3 ∧ neg = false)
    (hr : (r : ℝ) ≤ y) (hr1 : y < r + 1) : RoundsTo rm neg y r := by
  have h0 : rm ≠ 0 := by
    rcases hrm with rfl | ⟨rfl, _⟩ | ⟨rfl, _⟩ <;> decide
  rw [RoundsTo, if_neg h0, if_pos hrm]
  exact ⟨hr, hr1⟩

/-- Up to the magnitude above. -/
theorem RoundsTo.up {rm : BitVec 2} {neg : Bool} {y : ℝ} {r : ℕ} {inexact : Bool} (hrm : rm = 2 ∧ neg = false ∨ rm = 3 ∧ neg = true)
    (hr : (r : ℝ) ≤ y) (hr1 : y < r + 1) (hinexact : inexact = true ↔ y ≠ r) :
    RoundsTo rm neg y (if inexact then r + 1 else r) := by
  have h0 : rm ≠ 0 ∧ ¬(rm = 1 ∨ rm = 2 ∧ neg = true ∨ rm = 3 ∧ neg = false) := by
    rcases hrm with ⟨rfl, rfl⟩ | ⟨rfl, rfl⟩ <;> decide
  rw [RoundsTo, if_neg h0.1, if_neg h0.2]
  split
  next h =>
    have hne := hinexact.1 h
    have hlt : (r : ℝ) < y := lt_of_le_of_ne hr (Ne.symm hne)
    push_cast
    exact ⟨by linarith, by linarith⟩
  next h =>
    have he : y = r := by
      by_contra hne
      exact h (hinexact.2 hne)
    rw [he]
    exact ⟨le_rfl, by linarith⟩

/-- The quotient `r` of a number `y` between `r` and `r + 1`, and one more where the rounding mode says so. -/
theorem RoundsTo.of_up {rm : BitVec 2} {neg : Bool} {y : ℝ} {r : ℕ} {above tie inexact up : Bool} (hr : (r : ℝ) ≤ y)
    (hr1 : y < r + 1) (habove : above = true ↔ 2 * (r : ℝ) + 1 < 2 * y) (htie : tie = true ↔ 2 * y = 2 * r + 1)
    (hinexact : inexact = true ↔ y ≠ r) (h0 : rm = 0 → up = (above || (tie && r % 2 == 1))) (h1 : rm = 1 → up = false)
    (h2 : rm = 2 → up = (!neg && inexact)) (h3 : rm = 3 → up = (neg && inexact)) :
    RoundsTo rm neg y (if up then r + 1 else r) := by
  rcases rm_cases rm with rfl | rfl | rfl | rfl
  · rw [h0 rfl]
    exact .nearest hr hr1 habove htie
  · rw [h1 rfl]
    exact .down (.inl rfl) hr hr1
  · rw [h2 rfl]
    cases neg with
    | false => exact .up (.inl ⟨rfl, rfl⟩) hr hr1 hinexact
    | true => exact .down (.inr (.inl ⟨rfl, rfl⟩)) hr hr1
  · rw [h3 rfl]
    cases neg with
    | false => exact .down (.inr (.inr ⟨rfl, rfl⟩)) hr hr1
    | true => exact .up (.inr ⟨rfl, rfl⟩) hr hr1 hinexact

/-- A magnitude between two whole numbers is rounded to itself only where it is the lower one. -/
theorem RoundsTo.exact_iff {rm : BitVec 2} {neg : Bool} {y : ℝ} {r k : ℕ} (h : RoundsTo rm neg y k) (hr : (r : ℝ) ≤ y)
    (hr1 : y < r + 1) : (k : ℝ) = y ↔ y = r := by
  constructor
  · rintro rfl
    have h1 : r ≤ k := by exact_mod_cast hr
    have h2 : k < r + 1 := by exact_mod_cast hr1
    rw [show k = r by omega]
  · rintro rfl
    unfold RoundsTo at h
    split_ifs at h
    · obtain ⟨h1, h2, _⟩ := h
      have h1 : 2 * k ≤ 2 * r + 1 := by exact_mod_cast h1
      have h2 : 2 * r ≤ 2 * k + 1 := by exact_mod_cast h2
      rw [show k = r by omega]
    · have h1 : k ≤ r := by exact_mod_cast h.1
      have h2 : r < k + 1 := by exact_mod_cast h.2
      rw [show k = r by omega]
    · have h1 : r ≤ k := by exact_mod_cast h.1
      have h2 : k < r + 1 := by exact_mod_cast h.2
      rw [show k = r by omega]

/-! ### Rounding to whole units (R103, R105) -/

/-- Units no coarser than the last bit keep every magnitude. -/
theorem roundUnits_fine {rm : BitVec 2} {neg sticky : Bool} {m : ℕ} {e q : ℤ} (h : q ≤ e) :
    roundUnits rm neg m e sticky q = (m * 2 ^ (e - q).toNat, sticky) := by
  rw [roundUnits, if_pos h]

/-- What is rounded away, against half a unit. -/
theorem Approx.parts {m : ℕ} {e q : ℤ} {sticky : Bool} {x : ℝ} (h : Approx m e sticky x) (hq : e < q) :
    let k := (q - e).toNat
    let r := m / 2 ^ k
    let d := m % 2 ^ k
    let y := x / (2 : ℝ) ^ q
    (r : ℝ) ≤ y ∧ y < r + 1
      ∧ ((decide (d > 2 ^ (k - 1)) || (d == 2 ^ (k - 1) && sticky)) = true ↔ 2 * (r : ℝ) + 1 < 2 * y)
      ∧ ((d == 2 ^ (k - 1) && !sticky) = true ↔ 2 * y = 2 * r + 1) ∧ ((d != 0 || sticky) = true ↔ y ≠ r) := by
  intro k r d y
  obtain ⟨n, hk⟩ : ∃ n, k = n + 1 := ⟨(q - e).toNat - 1, by simp only [k]; omega⟩
  have hhalf : (2 : ℕ) ^ k = 2 * 2 ^ (k - 1) := by rw [hk, Nat.pow_succ, Nat.mul_comm, Nat.add_sub_cancel]
  have hm : 2 * 2 ^ (k - 1) * r + d = m := by rw [← hhalf]; exact Nat.div_add_mod m (2 ^ k)
  have hd : d < 2 * 2 ^ (k - 1) := by rw [← hhalf]; exact Nat.mod_lt _ (Nat.two_pow_pos k)
  have hx : x / (2 : ℝ) ^ e = 2 * ((2 ^ (k - 1) : ℕ) : ℝ) * y := by
    have hpos := two_zpow_pos e
    have hU : (0 : ℝ) < ((2 ^ k : ℕ) : ℝ) := by exact_mod_cast Nat.two_pow_pos k
    have e1 : y = x / ((2 : ℝ) ^ e * ((2 ^ k : ℕ) : ℝ)) := by simp only [y, k]; rw [two_zpow_sub (le_of_lt hq)]
    have e2 : (2 * ((2 ^ (k - 1) : ℕ) : ℝ)) = ((2 ^ k : ℕ) : ℝ) := by rw [hhalf]; push_cast; rfl
    rw [e2, e1]
    field_simp
  have hH : (0 : ℝ) < ((2 ^ (k - 1) : ℕ) : ℝ) := by exact_mod_cast Nat.two_pow_pos (k - 1)
  have hlow : (m : ℝ) ≤ x / (2 : ℝ) ^ e := (le_div_iff₀ (two_zpow_pos e)).2 h.low
  have hhigh : x / (2 : ℝ) ^ e < m + 1 := (div_lt_iff₀ (two_zpow_pos e)).2 h.high
  have hrest : sticky = true ↔ x / (2 : ℝ) ^ e ≠ m := by
    rw [h.rest, ne_eq, ne_eq, div_eq_iff (ne_of_gt (two_zpow_pos e))]
  rw [hx] at hlow hhigh hrest
  generalize 2 ^ (k - 1) = H at hm hd hH hlow hhigh hrest ⊢
  have hmr : (m : ℝ) = 2 * H * r + d := by rw [← hm]; push_cast; ring
  rw [hmr] at hlow hhigh hrest
  have hw : 2 * (H : ℝ) * y - 2 * H * r = 2 * H * (y - r) := by ring
  have hdH : (d : ℝ) + 1 ≤ 2 * H := by exact_mod_cast hd
  have hdlow : (d : ℝ) ≤ 2 * H * (y - r) := by linarith
  have hdhigh : 2 * H * (y - r) < (d : ℝ) + 1 := by linarith
  have hsticky : sticky = true ↔ 2 * H * (y - r) ≠ d := by
    rw [hrest, ← hw, ne_eq, ne_eq, sub_eq_iff_eq_add']
  have h0 : (0 : ℝ) ≤ d := Nat.cast_nonneg d
  have hone : (1 : ℝ) < 2 * (y - r) ↔ (H : ℝ) < 2 * H * (y - r) := by
    rw [show 2 * (H : ℝ) * (y - r) = H * (2 * (y - r)) by ring, lt_mul_iff_one_lt_right hH]
  have honeEq : 2 * (y - r) = (1 : ℝ) ↔ 2 * H * (y - r) = (H : ℝ) := by
    rw [show 2 * (H : ℝ) * (y - r) = H * (2 * (y - r)) by ring, mul_eq_left₀ (ne_of_gt hH)]
  have hgt : H + 1 ≤ d ∨ d = H ∨ d + 1 ≤ H := by omega
  refine ⟨?_, ?_, ?_, ?_, ?_⟩
  · nlinarith
  · nlinarith
  · rw [show 2 * (r : ℝ) + 1 < 2 * y ↔ 1 < 2 * (y - r) by constructor <;> intro h <;> linarith, hone, Bool.or_eq_true, Bool.and_eq_true,
      decide_eq_true_iff, beq_iff_eq, hsticky]
    rcases hgt with hc | hc | hc
    · have : (H : ℝ) + 1 ≤ d := by exact_mod_cast hc
      exact ⟨fun _ => by linarith, fun _ => .inl (by omega)⟩
    · subst hc
      exact ⟨fun h => lt_of_le_of_ne hdlow (Ne.symm ((h.resolve_left (lt_irrefl d)).2)), fun h => .inr ⟨rfl, ne_of_gt h⟩⟩
    · have : (d : ℝ) + 1 ≤ H := by exact_mod_cast hc
      exact ⟨fun h => absurd h (by omega), fun h => by linarith⟩
  · rw [show 2 * y = 2 * (r : ℝ) + 1 ↔ 2 * (y - r) = 1 by constructor <;> intro h <;> linarith, honeEq, Bool.and_eq_true,
      beq_iff_eq, Bool.not_eq_true', ← Bool.not_eq_true, hsticky, not_not]
    rcases hgt with hc | hc | hc
    · have : (H : ℝ) + 1 ≤ d := by exact_mod_cast hc
      exact ⟨fun h => absurd h.1 (by omega), fun h => by linarith⟩
    · subst hc
      exact ⟨fun h => h.2, fun h => ⟨rfl, h⟩⟩
    · have : (d : ℝ) + 1 ≤ H := by exact_mod_cast hc
      exact ⟨fun h => absurd h.1 (by omega), fun h => by linarith⟩
  · rw [Bool.or_eq_true, bne_iff_ne, hsticky]
    have hyr : y = r ↔ 2 * H * (y - r) = 0 := by
      rw [mul_eq_zero, sub_eq_zero]
      exact ⟨.inr, fun h => h.resolve_left (by positivity)⟩
    refine Iff.trans ?_ (not_congr hyr).symm
    by_cases hd0 : d = 0
    · rw [hd0]
      simp
    · have : (1 : ℝ) ≤ d := by exact_mod_cast Nat.one_le_iff_ne_zero.2 hd0
      exact ⟨fun _ h => by linarith, fun _ => .inl hd0⟩

/-- Rounding to whole units: the number of units is the magnitude rounded, and it is inexact when the magnitude is another. -/
theorem roundUnits_spec {rm : BitVec 2} {neg sticky : Bool} {m : ℕ} {e q : ℤ} {x : ℝ} (h : Approx m e sticky x)
    (hq : sticky = true → e < q) : RoundsTo rm neg (x / (2 : ℝ) ^ q) (roundUnits rm neg m e sticky q).1
      ∧ ((roundUnits rm neg m e sticky q).2 = true ↔ ((roundUnits rm neg m e sticky q).1 : ℝ) * (2 : ℝ) ^ q ≠ x) := by
  by_cases hqe : q ≤ e
  · have hs : sticky = false := Bool.eq_false_iff.2 fun hs => by have := hq hs; omega
    subst hs
    have hx : x = (m : ℝ) * (2 : ℝ) ^ e := by
      by_contra hne
      exact absurd (h.rest.2 hne) (by decide)
    have e1 : x = ((m * 2 ^ (e - q).toNat : ℕ) : ℝ) * (2 : ℝ) ^ q := by
      rw [hx, two_zpow_sub hqe, Nat.cast_mul]
      ring
    rw [roundUnits_fine hqe]
    refine ⟨?_, ⟨fun h => absurd h Bool.false_ne_true, fun h => absurd e1.symm h⟩⟩
    rw [e1, mul_div_assoc, div_self (ne_of_gt (two_zpow_pos q)), mul_one]
    exact .self rm neg _
  · obtain ⟨hr, hr1, habove, htie, hinexact⟩ := h.parts (not_le.1 hqe)
    have hrounds : RoundsTo rm neg (x / (2 : ℝ) ^ q) (roundUnits rm neg m e sticky q).1 := by
      rw [roundUnits, if_neg hqe]
      refine RoundsTo.of_up hr hr1 habove htie hinexact ?_ ?_ ?_ ?_
      · rintro rfl
        cases sticky <;> cases decide (m % 2 ^ (q - e).toNat > 2 ^ ((q - e).toNat - 1))
          <;> cases m % 2 ^ (q - e).toNat == 2 ^ ((q - e).toNat - 1) <;> rfl
      · rintro rfl
        rfl
      · rintro rfl
        rfl
      · rintro rfl
        rfl
    have hflag : (roundUnits rm neg m e sticky q).2 = (m % 2 ^ (q - e).toNat != 0 || sticky) := by
      rw [roundUnits, if_neg hqe]
    refine ⟨hrounds, ?_⟩
    rw [hflag, hinexact, ne_eq, ne_eq, ← eq_div_iff (ne_of_gt (two_zpow_pos q))]
    exact not_congr (hrounds.exact_iff hr hr1).symm

end Sys2Proof.Machine
end

section
/-! PROOF. The encoding of a rounded magnitude (R95, R103, R105 to R107). -/

namespace Sys2Proof.Machine

theorem two_zpow_le {a b : ℤ} (h : a ≤ b) : (2 : ℝ) ^ a ≤ (2 : ℝ) ^ b := zpow_le_zpow_right₀ (by norm_num) h

theorem two_zpow_add (a b : ℤ) : (2 : ℝ) ^ (a + b) = (2 : ℝ) ^ a * (2 : ℝ) ^ b := zpow_add₀ (by norm_num) a b

theorem aboveUnits_iff {r m : ℕ} {q e : ℤ} : aboveUnits r q m e = true ↔ (m : ℝ) * (2 : ℝ) ^ e < r * (2 : ℝ) ^ q := by
  have hpos := two_zpow_pos (min q e)
  rw [aboveUnits, decide_eq_true_iff, two_zpow_sub (min_le_right q e), two_zpow_sub (min_le_left q e), mul_left_comm, mul_left_comm (r : ℝ),
    mul_lt_mul_iff_right₀ hpos]
  norm_cast

/-- A magnitude with its first digits lies in the binade that they give. -/
theorem Approx.binade {m : ℕ} {e : ℤ} {sticky : Bool} {x : ℝ} (h : Approx m e sticky x) (hm : m ≠ 0) :
    (2 : ℝ) ^ ((m.log2 : ℤ) + e) ≤ x ∧ x < (2 : ℝ) ^ ((m.log2 : ℤ) + e + 1) := by
  have hlow : 2 ^ m.log2 ≤ m := Nat.log2_self_le hm
  have hhigh : m + 1 ≤ 2 ^ (m.log2 + 1) := Nat.lt_log2_self
  have hlow : (2 : ℝ) ^ (m.log2 : ℤ) ≤ m := by rw [zpow_natCast]; exact_mod_cast hlow
  have hhigh : (m : ℝ) + 1 ≤ (2 : ℝ) ^ ((m.log2 : ℤ) + 1) := by
    rw [show (m.log2 : ℤ) + 1 = ((m.log2 + 1 : ℕ) : ℤ) by push_cast; rfl, zpow_natCast]
    exact_mod_cast hhigh
  constructor
  · rw [two_zpow_add]
    exact (mul_le_mul_of_nonneg_right hlow (two_zpow_pos e).le).trans h.low
  · rw [show (m.log2 : ℤ) + e + 1 = (m.log2 : ℤ) + 1 + e by ring, two_zpow_add]
    exact h.high.trans_le (mul_le_mul_of_nonneg_right hhigh (two_zpow_pos e).le)

/-- A rounded number stays within whole bounds. -/
theorem RoundsTo.le_of_le {rm : BitVec 2} {neg : Bool} {y : ℝ} {k b : ℕ} (h : RoundsTo rm neg y k) (hy : y ≤ b) : k ≤ b := by
  unfold RoundsTo at h
  split_ifs at h
  · have h2 : (2 * k : ℝ) ≤ 2 * b + 1 := h.1.trans (by linarith)
    have h2 : 2 * k ≤ 2 * b + 1 := by exact_mod_cast h2
    omega
  · exact_mod_cast h.1.trans hy
  · have h2 : (k : ℝ) < b + 1 := h.2.trans_le (by linarith)
    have h2 : k < b + 1 := by exact_mod_cast h2
    omega

theorem RoundsTo.ge_of_ge {rm : BitVec 2} {neg : Bool} {y : ℝ} {k b : ℕ} (h : RoundsTo rm neg y k) (hy : (b : ℝ) ≤ y) : b ≤ k := by
  unfold RoundsTo at h
  split_ifs at h
  · have h2 : (2 * b : ℝ) ≤ 2 * k + 1 := (by linarith : (2 * b : ℝ) ≤ 2 * y).trans h.2.1
    have h2 : 2 * b ≤ 2 * k + 1 := by exact_mod_cast h2
    omega
  · have h2 : (b : ℝ) < k + 1 := hy.trans_lt h.2
    have h2 : b < k + 1 := by exact_mod_cast h2
    omega
  · exact_mod_cast hy.trans h.1

/-! ### Encodings of finite magnitudes (R95, R96) -/

/-- The sign bit stands above exponent and mantissa. -/
theorem signBit_add_mod {f : FpFmt} {neg : Bool} {c n : ℕ} (h : n ≤ (fmtSpec f).ebits + (fmtSpec f).mbits) :
    (signBit f neg + c) % 2 ^ n = c % 2 ^ n := by
  unfold signBit
  split
  · rw [Nat.add_mod, Nat.mod_eq_zero_of_dvd (Nat.pow_dvd_pow 2 h), Nat.zero_add, Nat.mod_mod]
  · rw [Nat.zero_add]

theorem signBit_add_testBit {f : FpFmt} {neg : Bool} {c : ℕ} (h : c < 2 ^ ((fmtSpec f).ebits + (fmtSpec f).mbits)) :
    (signBit f neg + c) / 2 ^ ((fmtSpec f).ebits + (fmtSpec f).mbits) % 2 = if neg then 1 else 0 := by
  unfold signBit
  have hp := Nat.two_pow_pos ((fmtSpec f).ebits + (fmtSpec f).mbits)
  split
  · rw [Nat.add_div_left _ hp, Nat.div_eq_of_lt h]
  · rw [Nat.zero_add, Nat.div_eq_of_lt h]

/-- The exponent and the mantissa of an encoding. -/
theorem signBit_add_mantissa {f : FpFmt} {neg : Bool} {c : ℕ} :
    (signBit f neg + c) % 2 ^ (fmtSpec f).mbits = c % 2 ^ (fmtSpec f).mbits := signBit_add_mod (by omega)

theorem signBit_add_exponent {f : FpFmt} {neg : Bool} {c : ℕ} (h : c < 2 ^ ((fmtSpec f).ebits + (fmtSpec f).mbits)) :
    (signBit f neg + c) / 2 ^ (fmtSpec f).mbits % 2 ^ (fmtSpec f).ebits = c / 2 ^ (fmtSpec f).mbits := by
  rw [← Nat.mod_mul_right_div_self, ← Nat.pow_add, Nat.add_comm (fmtSpec f).mbits, signBit_add_mod le_rfl, Nat.mod_eq_of_lt h]

theorem maxFiniteCode_lt (f : FpFmt) : maxFiniteCode f < 2 ^ ((fmtSpec f).ebits + (fmtSpec f).mbits) := by
  cases f <;> decide

/-- No finite encoding has the exponent of the infinities and NaNs. -/
theorem finite_exponent {f : FpFmt} {c : ℕ} (h : c ≤ maxFiniteCode f) :
    (hasInf f && c / 2 ^ (fmtSpec f).mbits == 2 ^ (fmtSpec f).ebits - 1) = false := by
  have hlt (hi : hasInf f = true) : c / 2 ^ (fmtSpec f).mbits < 2 ^ (fmtSpec f).ebits - 1 := by
    rw [Nat.div_lt_iff_lt_mul (Nat.two_pow_pos _)]
    have hpos : 0 < (2 ^ (fmtSpec f).ebits - 1) * 2 ^ (fmtSpec f).mbits := by cases f <;> decide
    rw [maxFiniteCode, if_pos hi] at h
    omega
  cases hi : hasInf f
  · rfl
  · rw [Bool.true_and, beq_eq_false_iff_ne]
    exact ne_of_lt (hlt hi)

/-- Nor is it the NaN of E4M3. -/
theorem finite_e4m3 {f : FpFmt} {c : ℕ} (h : c ≤ maxFiniteCode f) :
    (decide (f = .e4m3) && c / 2 ^ (fmtSpec f).mbits == 15 && c % 2 ^ (fmtSpec f).mbits == 7) = false := by
  by_cases hf : f = .e4m3
  · subst hf
    have h : c ≤ 126 := h
    rw [Bool.and_eq_false_iff, Bool.and_eq_false_iff, beq_eq_false_iff_ne, beq_eq_false_iff_ne]
    show (_ ∨ c / 8 ≠ 15) ∨ c % 8 ≠ 7
    omega
  · rw [decide_eq_false hf]
    rfl

/-- The finite encodings of a format end at the largest one. -/
theorem decodeFl_signBit_add {f : FpFmt} {neg : Bool} {c : ℕ} (h : c ≤ maxFiniteCode f) :
    decodeFl f (signBit f neg + c) = if c / 2 ^ (fmtSpec f).mbits = 0
      then .fin neg (c % 2 ^ (fmtSpec f).mbits) (1 - ((fmtSpec f).bias : ℤ) - (fmtSpec f).mbits)
      else .fin neg (2 ^ (fmtSpec f).mbits + c % 2 ^ (fmtSpec f).mbits)
        ((c / 2 ^ (fmtSpec f).mbits : ℕ) - ((fmtSpec f).bias : ℤ) - (fmtSpec f).mbits) := by
  have hlt := h.trans_lt (maxFiniteCode_lt f)
  have hsign : decide ((if neg = true then 1 else 0) = 1) = neg := by cases neg <;> rfl
  rw [decodeFl, signBit_add_mantissa, signBit_add_exponent hlt, signBit_add_testBit hlt]
  rw [finite_exponent h, finite_e4m3 h, hsign]
  simp only [Bool.false_eq_true, if_false]

/-! ### The encoding of a number of last places (R95) -/

/-- The exponent of a format's subnormals' last place. -/
def bottomExp (f : FpFmt) : ℤ := 1 - ((fmtSpec f).bias : ℤ) - (fmtSpec f).mbits

/-- `r` last places, each of the `n`-th power of two above the lowest, encoded. -/
def placesCode (f : FpFmt) (n r : ℕ) : ℕ := n * 2 ^ (fmtSpec f).mbits + r

/-- The number that a magnitude's encoding stands for. -/
noncomputable def codeMag (f : FpFmt) (c : ℕ) : ℝ :=
  if c / 2 ^ (fmtSpec f).mbits = 0 then (c % 2 ^ (fmtSpec f).mbits : ℕ) * (2 : ℝ) ^ bottomExp f
  else (2 ^ (fmtSpec f).mbits + c % 2 ^ (fmtSpec f).mbits : ℕ) * (2 : ℝ) ^ ((c / 2 ^ (fmtSpec f).mbits : ℕ) - 1 + bottomExp f : ℤ)

theorem decodeFl_codeMag {f : FpFmt} {neg : Bool} {c : ℕ} (h : c ≤ maxFiniteCode f) :
    ∃ m j, decodeFl f (signBit f neg + c) = .fin neg m j ∧ (m : ℝ) * (2 : ℝ) ^ j = codeMag f c := by
  rw [decodeFl_signBit_add h, codeMag]
  split
  · exact ⟨_, _, rfl, rfl⟩
  · refine ⟨_, _, rfl, ?_⟩
    congr 2
    unfold bottomExp
    ring

/-- The encoding of a number of last places stands for it. -/
theorem codeMag_placesCode {f : FpFmt} {n r : ℕ} (hr : r ≤ 2 ^ ((fmtSpec f).mbits + 1))
    (hn : n ≠ 0 → 2 ^ (fmtSpec f).mbits ≤ r) : codeMag f (placesCode f n r) = r * (2 : ℝ) ^ (n + bottomExp f : ℤ) := by
  have hp := Nat.two_pow_pos (fmtSpec f).mbits
  have hdiv : placesCode f n r / 2 ^ (fmtSpec f).mbits = n + r / 2 ^ (fmtSpec f).mbits := by
    rw [placesCode, Nat.add_comm, Nat.add_mul_div_right _ _ hp, Nat.add_comm]
  have hmod : placesCode f n r % 2 ^ (fmtSpec f).mbits = r % 2 ^ (fmtSpec f).mbits := by
    rw [placesCode, Nat.add_comm, Nat.add_mul_mod_self_right]
  rw [codeMag, hdiv, hmod]
  rw [Nat.pow_succ] at hr
  generalize 2 ^ (fmtSpec f).mbits = p at hr hn hp ⊢
  by_cases hlow : r < p
  · have hn0 : n = 0 := by
      by_contra h
      have := hn h
      omega
    rw [Nat.div_eq_of_lt hlow, Nat.mod_eq_of_lt hlow, hn0]
    simp
  · by_cases hmid : r < 2 * p
    · have hd : r / p = 1 := by rw [Nat.div_eq_iff hp]; omega
      have hm : p + r % p = r := by have := Nat.div_add_mod r p; rw [hd] at this; omega
      rw [hd, if_neg (by omega), hm]
      push_cast
      ring_nf
    · have hrp : r = 2 * p := by omega
      have hd : r / p = 2 := by rw [hrp, Nat.mul_div_cancel _ hp]
      have hm : r % p = 0 := by rw [hrp, Nat.mul_mod_left]
      rw [hd, if_neg (by omega), hm, hrp, Nat.add_zero, show ((n + 2 : ℕ) - 1 + bottomExp f : ℤ) = 1 + (n + bottomExp f) by push_cast; ring,
        two_zpow_add]
      push_cast
      ring

/-- An encoding as a number of last places. -/
theorem placesCode_of (f : FpFmt) (c : ℕ) : ∃ n r, c = placesCode f n r ∧ r + 1 ≤ 2 ^ ((fmtSpec f).mbits + 1)
    ∧ (n ≠ 0 → 2 ^ (fmtSpec f).mbits ≤ r) := by
  have hp := Nat.two_pow_pos (fmtSpec f).mbits
  simp only [placesCode, Nat.pow_succ]
  generalize 2 ^ (fmtSpec f).mbits = p at hp ⊢
  have hdm := Nat.div_add_mod c p
  have hm := Nat.mod_lt c hp
  by_cases h0 : c / p = 0
  · rw [h0] at hdm
    exact ⟨0, c, by omega, by omega, by omega⟩
  · refine ⟨c / p - 1, p + c % p, ?_, by omega, by omega⟩
    obtain ⟨d, hd⟩ := Nat.exists_eq_succ_of_ne_zero h0
    rw [hd, Nat.mul_succ] at hdm
    rw [hd, Nat.succ_sub_one, Nat.mul_comm d]
    omega

/-- A larger encoding stands for a larger magnitude. -/
theorem codeMag_strictMono (f : FpFmt) : StrictMono (codeMag f) := by
  refine strictMono_nat_of_lt_succ fun c => ?_
  obtain ⟨n, r, rfl, hr, hn⟩ := placesCode_of f c
  have e : placesCode f n r + 1 = placesCode f n (r + 1) := by rw [placesCode, placesCode, Nat.add_assoc]
  rw [e, codeMag_placesCode (by omega) hn, codeMag_placesCode hr fun h => (hn h).trans (Nat.le_succ r)]
  refine mul_lt_mul_of_pos_right ?_ (two_zpow_pos _)
  push_cast
  linarith

theorem codeMag_maxFiniteCode (f : FpFmt) : codeMag f (maxFiniteCode f) = (maxFinite f).1 * (2 : ℝ) ^ (maxFinite f).2 := by
  have h0 : maxFiniteCode f / 2 ^ (fmtSpec f).mbits ≠ 0 := by cases f <;> decide
  have hm : 2 ^ (fmtSpec f).mbits + maxFiniteCode f % 2 ^ (fmtSpec f).mbits = (maxFinite f).1 := by cases f <;> decide
  have he : ((maxFiniteCode f / 2 ^ (fmtSpec f).mbits : ℕ) - 1 + bottomExp f : ℤ) = (maxFinite f).2 := by cases f <;> decide
  rw [codeMag, if_neg h0, hm, he]

/-! ### One rounding (R105 to R107) -/

theorem packOverflow_eq (f : FpFmt) (rm : BitVec 2) (neg : Bool) : packOverflow f rm neg = (signBit f neg
    + (if hasInf f = true ∧ (rm = 0 ∨ rm = 2 ∧ neg = false ∨ rm = 3 ∧ neg = true)
        then (2 ^ (fmtSpec f).ebits - 1) * 2 ^ (fmtSpec f).mbits else maxFiniteCode f), 0x14) := by
  unfold packOverflow
  cases hasInf f <;> rcases rm_cases rm with rfl | rfl | rfl | rfl <;> cases neg <;> rfl

theorem signBit_add_lt {f : FpFmt} {neg : Bool} {c : ℕ} (h : c ≤ maxFiniteCode f) : signBit f neg + c < 2 ^ codeBits f := by
  have hlt := h.trans_lt (maxFiniteCode_lt f)
  have e : 2 ^ codeBits f = 2 * 2 ^ ((fmtSpec f).ebits + (fmtSpec f).mbits) := by
    rw [codeBits, Nat.add_assoc, Nat.add_comm 1, Nat.pow_succ, Nat.mul_comm]
  have hs : signBit f neg ≤ 2 ^ ((fmtSpec f).ebits + (fmtSpec f).mbits) := by
    unfold signBit
    split
    · exact le_rfl
    · exact Nat.zero_le _
  omega

/-- The flags of a rounding that does not overflow. -/
theorem roundFlags (inexact tiny : Bool) : let fl := flagIf inexact flagNX ||| flagIf (tiny && inexact) flagUF
    (fl.getLsbD 4 = true ↔ inexact = true) ∧ (fl.getLsbD 3 = true ↔ inexact = true ∧ tiny = true) ∧ fl &&& 0x27 = 0 := by
  cases inexact <;> cases tiny <;> decide

/-- What is encoded of a magnitude rounded to units `q`, and to `free` if the format's exponents had no lower end. -/
def packRounded (f : FpFmt) (rm : BitVec 2) (neg : Bool) (q free : ℤ) (r : ℕ × Bool) (r0 : ℕ) : ℕ × Flags :=
  if aboveUnits r.1 q (maxFinite f).1 (maxFinite f).2 then packOverflow f rm neg
  else (signBit f neg + (q - bottomExp f).toNat * 2 ^ (fmtSpec f).mbits + r.1,
    flagIf r.2 flagNX ||| flagIf (aboveUnits 1 (1 - ((fmtSpec f).bias : ℤ)) r0 free && r.2) flagUF)

theorem packRounded_spec {f : FpFmt} {rm : BitVec 2} {neg : Bool} {x : ℝ} {t : ℤ} {r : ℕ × Bool} {r0 : ℕ}
    (hr : RoundsTo rm neg (x / (2 : ℝ) ^ max (t - (fmtSpec f).mbits) (bottomExp f)) r.1)
    (hin : r.2 = true ↔ (r.1 : ℝ) * (2 : ℝ) ^ max (t - (fmtSpec f).mbits) (bottomExp f) ≠ x) (hhigh : x < (2 : ℝ) ^ (t + 1))
    (hlow : (2 : ℝ) ^ t ≤ x) : let q := max (t - (fmtSpec f).mbits) (bottomExp f)
    let p := packRounded f rm neg q (t - (fmtSpec f).mbits) r r0
    if ((maxFinite f).1 : ℝ) * (2 : ℝ) ^ (maxFinite f).2 < r.1 * (2 : ℝ) ^ q then
        p.2 = 0x14 ∧ p.1 = signBit f neg
          + (if hasInf f = true ∧ (rm = 0 ∨ rm = 2 ∧ neg = false ∨ rm = 3 ∧ neg = true)
              then (2 ^ (fmtSpec f).ebits - 1) * 2 ^ (fmtSpec f).mbits else maxFiniteCode f)
      else (∃ (m : ℕ) (j : ℤ), decodeFl f p.1 = .fin neg m j ∧ (m : ℝ) * (2 : ℝ) ^ j = r.1 * (2 : ℝ) ^ q) ∧ p.1 < 2 ^ codeBits f
        ∧ (p.2.getLsbD 4 = true ↔ (r.1 : ℝ) * (2 : ℝ) ^ q ≠ x)
        ∧ (p.2.getLsbD 3 = true ↔ (r.1 : ℝ) * (2 : ℝ) ^ q ≠ x
          ∧ (r0 : ℝ) * (2 : ℝ) ^ (t - (fmtSpec f).mbits) < (2 : ℝ) ^ (1 - ((fmtSpec f).bias : ℤ)))
        ∧ p.2 &&& 0x27 = 0 := by
  intro q p
  by_cases habove : aboveUnits r.1 q (maxFinite f).1 (maxFinite f).2 = true
  · have hp : p = packOverflow f rm neg := if_pos habove
    rw [if_pos (aboveUnits_iff.1 habove), hp, packOverflow_eq]
    exact ⟨rfl, rfl⟩
  · have hle := mt aboveUnits_iff.2 habove
    have hp : p = _ := if_neg habove
    obtain ⟨n, hn⟩ : ∃ n : ℕ, q = n + bottomExp f := ⟨(q - bottomExp f).toNat, by omega⟩
    have hy : x / (2 : ℝ) ^ q < ((2 ^ ((fmtSpec f).mbits + 1) : ℕ) : ℝ) := by
      rw [div_lt_iff₀ (two_zpow_pos q), Nat.cast_pow, Nat.cast_ofNat, ← zpow_natCast, ← two_zpow_add]
      exact hhigh.trans_le (two_zpow_le (by push_cast; omega))
    have hrle : r.1 ≤ 2 ^ ((fmtSpec f).mbits + 1) := hr.le_of_le hy.le
    have hrge (h0 : n ≠ 0) : 2 ^ (fmtSpec f).mbits ≤ r.1 := by
      refine hr.ge_of_ge ?_
      rw [le_div_iff₀ (two_zpow_pos _), Nat.cast_pow, Nat.cast_ofNat, ← zpow_natCast, ← two_zpow_add]
      exact (two_zpow_le (by omega)).trans hlow
    have hmag : codeMag f (placesCode f n r.1) = r.1 * (2 : ℝ) ^ q := by rw [codeMag_placesCode hrle hrge, hn]
    have hcode : placesCode f n r.1 ≤ maxFiniteCode f := by
      rw [← (codeMag_strictMono f).le_iff_le, hmag, codeMag_maxFiniteCode]
      exact not_lt.1 hle
    have hp1 : p.1 = signBit f neg + placesCode f n r.1 := by
      rw [hp, placesCode, ← Nat.add_assoc, show (q - bottomExp f).toNat = n by omega]
    obtain ⟨hnx, huf, hrest⟩ := roundFlags r.2 (aboveUnits 1 (1 - ((fmtSpec f).bias : ℤ)) r0 (t - (fmtSpec f).mbits))
    rw [if_neg hle, hp1]
    refine ⟨?_, signBit_add_lt hcode, ?_, ?_, ?_⟩
    · obtain ⟨m, j, hdec, hval⟩ := decodeFl_codeMag (neg := neg) hcode
      exact ⟨m, j, hdec, hval.trans hmag⟩
    · rw [hp]
      exact hnx.trans hin
    · rw [hp]
      refine huf.trans (and_congr hin ?_)
      rw [aboveUnits_iff, Nat.cast_one, one_mul]
    · rw [hp]
      exact hrest

theorem packFin_eq {f : FpFmt} {rm : BitVec 2} {neg : Bool} {m : ℕ} {e : ℤ} {sticky : Bool} (h0 : m ≠ 0) : packFin f rm neg m e sticky
    = packRounded f rm neg (max ((m.log2 : ℤ) + e - (fmtSpec f).mbits) (bottomExp f)) ((m.log2 : ℤ) + e - (fmtSpec f).mbits)
      (roundUnits rm neg m e sticky (max ((m.log2 : ℤ) + e - (fmtSpec f).mbits) (bottomExp f)))
      (roundUnits rm neg m e sticky ((m.log2 : ℤ) + e - (fmtSpec f).mbits)).1 := by
  unfold packFin packRounded bottomExp
  rw [if_neg (by simp [h0])]

/-- A magnitude is rounded once, with its flags. -/
theorem packFin_rounded {f : FpFmt} {rm : BitVec 2} {neg : Bool} {m : ℕ} {e : ℤ} {sticky : Bool} {x : ℝ} (h : Approx m e sticky x)
    (hm : sticky = true → 2 ^ ((fmtSpec f).mbits + 2) ≤ m) :
    Rounded f rm neg x (packFin f rm neg m e sticky).1 (packFin f rm neg m e sticky).2 := by
  by_cases h0 : m = 0
  · have hs : sticky = false := Bool.eq_false_iff.2 fun hs => by
      have := hm hs
      have := Nat.two_pow_pos ((fmtSpec f).mbits + 2)
      omega
    have hx : x = 0 := by
      by_contra hne
      refine absurd (h.rest.2 ?_) (by rw [hs]; decide)
      rw [h0]
      simpa using hne
    rw [packFin, h0, hs, Rounded, if_pos hx]
    exact ⟨rfl, rfl⟩
  · obtain ⟨hlow, hhigh⟩ := h.binade h0
    have hx : x ≠ 0 := ne_of_gt ((two_zpow_pos _).trans_le hlow)
    have hfree : sticky = true → e < (m.log2 : ℤ) + e - (fmtSpec f).mbits := fun hs => by
      have : (fmtSpec f).mbits + 2 ≤ m.log2 := (Nat.le_log2 h0).2 (hm hs)
      omega
    have hq (hs : sticky = true) : e < max ((m.log2 : ℤ) + e - (fmtSpec f).mbits) (bottomExp f) := (hfree hs).trans_le (le_max_left _ _)
    obtain ⟨hr, hin⟩ := roundUnits_spec (rm := rm) (neg := neg) h hq
    obtain ⟨hr0, _⟩ := roundUnits_spec (rm := rm) (neg := neg) h hfree
    rw [packFin_eq h0, Rounded, if_neg hx]
    refine ⟨(m.log2 : ℤ) + e, max ((m.log2 : ℤ) + e - (fmtSpec f).mbits) (bottomExp f), _, _, hlow, hhigh, ?_, hr, hr0, ?_⟩
    · unfold bottomExp
      omega
    · exact packRounded_spec hr hin hhigh hlow

end Sys2Proof.Machine
end

section
/-! PROOF. What an encoding stands for, and a conversion to the source's own format (R95, R96, R107). -/

namespace Sys2Proof.Machine

/-! ### Sign and magnitude of an encoding -/

theorem codeBits_sub_one (f : FpFmt) : codeBits f - 1 = (fmtSpec f).ebits + (fmtSpec f).mbits := by
  rw [codeBits]
  omega

theorem two_pow_codeBits (f : FpFmt) : 2 ^ codeBits f = 2 * 2 ^ (codeBits f - 1) := by
  rw [codeBits_sub_one, codeBits, Nat.add_assoc, Nat.add_comm 1, Nat.pow_succ, Nat.mul_comm]

theorem fpMag_lt (f : FpFmt) (n : ℕ) : fpMag f n < 2 ^ ((fmtSpec f).ebits + (fmtSpec f).mbits) := by
  rw [fpMag, codeBits_sub_one]
  exact Nat.mod_lt _ (Nat.two_pow_pos _)

theorem fpNeg_eq (f : FpFmt) (n : ℕ) : fpNeg f n = decide (n / 2 ^ ((fmtSpec f).ebits + (fmtSpec f).mbits) % 2 = 1) := by
  rw [fpNeg, codeBits_sub_one, Nat.testBit_eq_decide_div_mod_eq]

/-- An encoding is its sign bit and its magnitude. -/
theorem signBit_add_fpMag {f : FpFmt} {n : ℕ} (h : n < 2 ^ codeBits f) : signBit f (fpNeg f n) + fpMag f n = n := by
  rw [two_pow_codeBits, codeBits_sub_one] at h
  rw [signBit, fpNeg_eq, fpMag, codeBits_sub_one]
  have hp := Nat.two_pow_pos ((fmtSpec f).ebits + (fmtSpec f).mbits)
  generalize 2 ^ ((fmtSpec f).ebits + (fmtSpec f).mbits) = p at h hp ⊢
  have hd : n / p < 2 := Nat.div_lt_of_lt_mul (by omega)
  have hdm := Nat.div_add_mod n p
  obtain h0 | h1 := Nat.le_one_iff_eq_zero_or_eq_one.1 (Nat.le_of_lt_succ hd)
  · rw [h0] at hdm ⊢
    simpa using hdm
  · rw [h1] at hdm ⊢
    simpa using hdm

theorem fpNeg_signBit_add {f : FpFmt} {neg : Bool} {c : ℕ} (h : c < 2 ^ ((fmtSpec f).ebits + (fmtSpec f).mbits)) :
    fpNeg f (signBit f neg + c) = neg := by
  rw [fpNeg_eq, signBit_add_testBit h]
  cases neg <;> rfl

theorem fpMag_signBit_add {f : FpFmt} {neg : Bool} {c : ℕ} (h : c < 2 ^ ((fmtSpec f).ebits + (fmtSpec f).mbits)) :
    fpMag f (signBit f neg + c) = c := by
  rw [fpMag, codeBits_sub_one, signBit_add_mod le_rfl, Nat.mod_eq_of_lt h]

/-- The fields of an encoding are those of its magnitude. -/
theorem fpMag_mantissa (f : FpFmt) (n : ℕ) : n % 2 ^ (fmtSpec f).mbits = fpMag f n % 2 ^ (fmtSpec f).mbits := by
  rw [fpMag, codeBits_sub_one, Nat.mod_mod_of_dvd _ (Nat.pow_dvd_pow 2 (Nat.le_add_left _ _))]

theorem fpMag_exponent (f : FpFmt) (n : ℕ) :
    n / 2 ^ (fmtSpec f).mbits % 2 ^ (fmtSpec f).ebits = fpMag f n / 2 ^ (fmtSpec f).mbits := by
  rw [fpMag, codeBits_sub_one, ← Nat.mod_mul_right_div_self, ← Nat.pow_add, Nat.add_comm (fmtSpec f).mbits]

theorem decodeFl_eq (f : FpFmt) (n : ℕ) : decodeFl f n = decodeFl f (signBit f (fpNeg f n) + fpMag f n) := by
  have hlt := fpMag_lt f n
  have hsign : decide ((if fpNeg f n then 1 else 0) = 1) = decide (n / 2 ^ ((fmtSpec f).ebits + (fmtSpec f).mbits) % 2 = 1) := by
    rw [← fpNeg_eq]
    cases fpNeg f n <;> rfl
  rw [decodeFl, decodeFl, signBit_add_mantissa, signBit_add_exponent hlt, signBit_add_testBit hlt, fpMag_mantissa, fpMag_exponent,
    hsign]

/-! ### NaNs, infinities and numbers -/

/-- Every encoding is a NaN, an infinity or one of a number. -/
theorem fp_trichotomy (f : FpFmt) (n : ℕ) : IsNaN f n ∧ ¬IsInf f n ∧ maxFiniteCode f < fpMag f n
    ∨ ¬IsNaN f n ∧ IsInf f n ∧ hasInf f = true ∧ fpMag f n = fpInfMag f ∨ ¬IsNaN f n ∧ ¬IsInf f n ∧ fpMag f n ≤ maxFiniteCode f := by
  have hlt := fpMag_lt f n
  unfold IsInf
  generalize hc : fpMag f n = c at hlt
  cases f <;> simp only [IsNaN, hc, hasInf, maxFiniteCode, fpInfMag, fmtSpec, reduceCtorEq, if_false, if_true, Bool.false_eq_true] at hlt ⊢
    <;> norm_num at hlt ⊢ <;> omega

/-- What the decoder gives for an encoding, in terms of the rules: a NaN, signalling or not; an infinity; a number with its
magnitude. -/
def Fl.Of (f : FpFmt) (n : ℕ) : Fl → Prop
  | .nan s => IsNaN f n ∧ ¬IsInf f n ∧ (s = true ↔ IsSig f n)
  | .inf g => ¬IsNaN f n ∧ IsInf f n ∧ hasInf f = true ∧ fpMag f n = fpInfMag f ∧ g = fpNeg f n
  | .fin g m e => ¬IsNaN f n ∧ ¬IsInf f n ∧ g = fpNeg f n ∧ fpMag f n ≤ maxFiniteCode f ∧ (m : ℝ) * (2 : ℝ) ^ e = codeMag f (fpMag f n)
      ∧ m < 2 ^ ((fmtSpec f).mbits + 1) ∧ bottomExp f ≤ e

theorem isSig_iff {f : FpFmt} {n : ℕ} (h : IsNaN f n) : IsSig f n ↔ hasSignalling f = true ∧ n.testBit ((fmtSpec f).mbits - 1) = false := by
  unfold IsSig
  refine and_congr ?_ (and_iff_right h)
  cases f <;> decide

/-- The quiet bit is the highest of the mantissa. -/
theorem quietBit (f : FpFmt) (n : ℕ) : n % 2 ^ (fmtSpec f).mbits / 2 ^ ((fmtSpec f).mbits - 1) == 0
    ↔ n.testBit ((fmtSpec f).mbits - 1) = false := by
  obtain ⟨b, hb⟩ : ∃ b, (fmtSpec f).mbits = b + 1 := by cases f <;> exact ⟨_, rfl⟩
  rw [hb, Nat.add_sub_cancel, Nat.pow_succ, Nat.mod_mul_right_div_self, beq_iff_eq, Nat.testBit_eq_decide_div_mod_eq, decide_eq_false_iff_not]
  omega

/-- The exponent of the infinities and the NaNs. -/
theorem exponent_of_top {f : FpFmt} {n : ℕ} (h : fpInfMag f ≤ fpMag f n) : n / 2 ^ (fmtSpec f).mbits % 2 ^ (fmtSpec f).ebits
    = 2 ^ (fmtSpec f).ebits - 1 := by
  have hlt := fpMag_lt f n
  rw [Nat.pow_add] at hlt
  have hE := Nat.two_pow_pos (fmtSpec f).ebits
  rw [fpMag_exponent]
  refine Nat.div_eq_of_lt_le h ?_
  rwa [Nat.sub_add_cancel hE]

theorem isNaN_of_hasInf {f : FpFmt} {n : ℕ} (hi : hasInf f = true) : IsNaN f n ↔ fpInfMag f < fpMag f n := by
  cases f <;> simp_all [hasInf, IsNaN]

/-- A format without infinities that has a NaN is E4M3. -/
theorem isNaN_of_noInf {f : FpFmt} {n : ℕ} (hi : hasInf f = false) (h : IsNaN f n) : f = .e4m3 ∧ fpMag f n = 0x7F := by
  cases f <;> simp_all [hasInf, IsNaN]

theorem decodeFl_nan {f : FpFmt} {n : ℕ} (hn : IsNaN f n) : decodeFl f n
    = .nan (hasSignalling f && n % 2 ^ (fmtSpec f).mbits / 2 ^ ((fmtSpec f).mbits - 1) == 0) := by
  cases hi : hasInf f
  · obtain ⟨rfl, hm⟩ := isNaN_of_noInf hi hn
    have hman : n % 2 ^ (fmtSpec .e4m3).mbits = 7 := by rw [fpMag_mantissa, hm]; rfl
    have hexp : n / 2 ^ (fmtSpec .e4m3).mbits % 2 ^ (fmtSpec .e4m3).ebits = 15 := by rw [fpMag_exponent, hm]; rfl
    rw [decodeFl, hman, hexp]
    rfl
  · have hgt := (isNaN_of_hasInf hi).1 hn
    have hman : n % 2 ^ (fmtSpec f).mbits ≠ 0 := by
      have hexp := exponent_of_top hgt.le
      rw [fpMag_exponent] at hexp
      have := Nat.div_add_mod (fpMag f n) (2 ^ (fmtSpec f).mbits)
      rw [hexp, Nat.mul_comm] at this
      rw [fpMag_mantissa]
      unfold fpInfMag at hgt
      omega
    rw [decodeFl, exponent_of_top hgt.le, hi]
    simp only [Bool.true_and, beq_self_eq_true, if_true, if_neg hman]

theorem decodeFl_inf {f : FpFmt} {n : ℕ} (hi : hasInf f = true) (hm : fpMag f n = fpInfMag f) : decodeFl f n = .inf (fpNeg f n) := by
  have hman : n % 2 ^ (fmtSpec f).mbits = 0 := by rw [fpMag_mantissa, hm, fpInfMag, Nat.mul_mod_left]
  rw [decodeFl, exponent_of_top hm.ge, hi, hman, fpNeg_eq]
  simp only [Bool.true_and, beq_self_eq_true, if_true]

theorem decodeFl_of (f : FpFmt) (n : ℕ) : (decodeFl f n).Of f n := by
  obtain ⟨hn, hi, _⟩ | ⟨hn, hi, hinf, hm⟩ | ⟨hn, hi, hm⟩ := fp_trichotomy f n
  · rw [decodeFl_nan hn]
    refine ⟨hn, hi, ?_⟩
    rw [isSig_iff hn, Bool.and_eq_true, quietBit]
  · rw [decodeFl_inf hinf hm]
    exact ⟨hn, hi, hinf, hm, rfl⟩
  · have hlt : fpMag f n % 2 ^ (fmtSpec f).mbits < 2 ^ (fmtSpec f).mbits := Nat.mod_lt _ (Nat.two_pow_pos _)
    obtain ⟨m, j, hdec, hval⟩ := decodeFl_codeMag (neg := fpNeg f n) hm
    rw [decodeFl_eq, hdec]
    rw [decodeFl_signBit_add hm] at hdec
    refine ⟨hn, hi, rfl, hm, hval, ?_⟩
    rw [Nat.pow_succ]
    unfold bottomExp
    split at hdec
    next =>
      cases hdec
      omega
    next h0 =>
      cases hdec
      have := Nat.pos_of_ne_zero h0
      generalize fpMag f n / 2 ^ (fmtSpec f).mbits = d at this ⊢
      omega

/-! ### The value of a number -/

theorem fpValue_eq {f : FpFmt} {n : ℕ} : ((fpValue f n : ℚ) : ℝ) = if fpNeg f n then -codeMag f (fpMag f n) else codeMag f (fpMag f n) := by
  have hval : ((((if n / 2 ^ (fmtSpec f).mbits % 2 ^ (fmtSpec f).ebits = 0 then n % 2 ^ (fmtSpec f).mbits
      else 2 ^ (fmtSpec f).mbits + n % 2 ^ (fmtSpec f).mbits : ℕ) : ℚ)
      * (2 : ℚ) ^ ((if n / 2 ^ (fmtSpec f).mbits % 2 ^ (fmtSpec f).ebits = 0 then 1
        else ((n / 2 ^ (fmtSpec f).mbits % 2 ^ (fmtSpec f).ebits : ℕ) : ℤ)) - ((fmtSpec f).bias : ℤ) - (fmtSpec f).mbits) : ℚ) : ℝ)
      = codeMag f (fpMag f n) := by
    rw [codeMag, fpMag_mantissa, fpMag_exponent]
    unfold bottomExp
    split
    · push_cast
      rfl
    · push_cast
      congr 2
      ring
  unfold fpValue
  dsimp only
  split
  · rw [Rat.cast_neg, hval]
  · exact hval

/-! ### The source's own format -/

/-- A magnitude with no more digits than the format has, in units no finer than its lowest, is encoded as it is. -/
theorem packFin_exact {f : FpFmt} {rm : BitVec 2} {neg : Bool} {c m : ℕ} {e : ℤ} (hc : c ≤ maxFiniteCode f)
    (hval : (m : ℝ) * (2 : ℝ) ^ e = codeMag f c) (hm : m < 2 ^ ((fmtSpec f).mbits + 1)) (he : bottomExp f ≤ e) :
    packFin f rm neg m e false = (signBit f neg + c, 0) := by
  have hzero : codeMag f 0 = 0 := by rw [codeMag, if_pos (Nat.zero_div _), Nat.zero_mod, Nat.cast_zero, zero_mul]
  by_cases h0 : m = 0
  · rw [h0, Nat.cast_zero, zero_mul, ← hzero] at hval
    rw [← (codeMag_strictMono f).injective hval, h0]
    rfl
  · have hlog : m.log2 < (fmtSpec f).mbits + 1 := (Nat.log2_lt h0).2 hm
    rw [packFin_eq h0]
    generalize hfree : (m.log2 : ℤ) + e - (fmtSpec f).mbits = free
    obtain ⟨n, hn⟩ : ∃ n : ℕ, max free (bottomExp f) = n + bottomExp f := ⟨(max free (bottomExp f) - bottomExp f).toNat, by omega⟩
    have hqe : max free (bottomExp f) ≤ e := by omega
    rw [roundUnits_fine hqe, hn]
    rw [hn] at hqe
    generalize hr : m * 2 ^ (e - (n + bottomExp f)).toNat = r
    have hmag : (r : ℝ) * (2 : ℝ) ^ (n + bottomExp f : ℤ) = codeMag f c := by
      rw [← hval, two_zpow_sub hqe, ← hr]
      push_cast
      ring
    have hbinade := (Approx.exact m e).binade h0
    rw [hval, ← hmag] at hbinade
    have hrle : r ≤ 2 ^ ((fmtSpec f).mbits + 1) := by
      have hle := hbinade.2.le.trans (two_zpow_le (show _ ≤ (((fmtSpec f).mbits + 1 : ℕ) : ℤ) + (n + bottomExp f) by push_cast; omega))
      rw [two_zpow_add (((fmtSpec f).mbits + 1 : ℕ) : ℤ), zpow_natCast, mul_le_mul_iff_left₀ (two_zpow_pos _)] at hle
      exact_mod_cast hle
    have hrge (hn0 : n ≠ 0) : 2 ^ (fmtSpec f).mbits ≤ r := by
      have hle := (two_zpow_le (show (((fmtSpec f).mbits : ℕ) : ℤ) + (n + bottomExp f) ≤ _ by omega)).trans hbinade.1
      rw [two_zpow_add (((fmtSpec f).mbits : ℕ) : ℤ), zpow_natCast, mul_le_mul_iff_left₀ (two_zpow_pos _)] at hle
      exact_mod_cast hle
    have hle : ¬(aboveUnits r (n + bottomExp f) (maxFinite f).1 (maxFinite f).2 = true) := by
      rw [aboveUnits_iff, not_lt, hmag, ← codeMag_maxFiniteCode]
      exact (codeMag_strictMono f).monotone hc
    have hcode : placesCode f n r = c := (codeMag_strictMono f).injective ((codeMag_placesCode hrle hrge).trans hmag)
    rw [packRounded, if_neg hle, ← hcode, placesCode, ← Nat.add_assoc, Int.add_sub_cancel, Int.toNat_natCast, Bool.and_false]
    exact congrArg (Prod.mk _) (show flagIf false flagNX ||| flagIf false flagUF = 0 by decide)

/-- A conversion to the source's own format returns every encoding but a NaN. -/
theorem flToFp_self {f : FpFmt} {rm : BitVec 2} {n : ℕ} (h : n < 2 ^ codeBits f) (hn : (decodeFl f n).isNaN = false) :
    flToFp f rm (decodeFl f n) = (n, 0) := by
  have hof := decodeFl_of f n
  generalize decodeFl f n = v at hof hn
  cases v with
  | nan s => exact absurd hn (Ne.symm Bool.false_ne_true)
  | inf g =>
    obtain ⟨_, _, hi, hm, rfl⟩ := hof
    rw [flToFp, packInf, if_pos hi]
    rw [fpInfMag] at hm
    rw [← hm, signBit_add_fpMag h]
  | fin g m e =>
    obtain ⟨_, _, rfl, hc, hval, hm, he⟩ := hof
    rw [flToFp, packFin_exact hc hval hm he, signBit_add_fpMag h]

/-! ### Settled -/

/-- A magnitude in units of `u`, rounded. -/
theorem RoundsTo.units {rm : BitVec 2} {neg : Bool} {m u k : ℕ} (hu : 0 < u) (h : RoundsTo rm neg ((m : ℝ) / u) k) :
    (rm = 0 → 2 * (k * u) ≤ 2 * m + u ∧ 2 * m ≤ 2 * (k * u) + u
        ∧ (2 * (k * u) = 2 * m + u ∨ 2 * m = 2 * (k * u) + u → k % 2 = 0))
      ∧ (rm = 1 → k * u ≤ m) ∧ (rm = 2 → if neg then k * u ≤ m else m ≤ k * u) ∧ (rm = 3 → if neg then m ≤ k * u else k * u ≤ m) := by
  have hu' : (0 : ℝ) < u := by exact_mod_cast hu
  have hdown (h : (k : ℝ) ≤ (m : ℝ) / u) : k * u ≤ m := by
    rw [le_div_iff₀ hu'] at h
    exact_mod_cast h
  have hup (h : (m : ℝ) / u ≤ k) : m ≤ k * u := by
    rw [div_le_iff₀ hu'] at h
    exact_mod_cast h
  refine ⟨?_, ?_, ?_, ?_⟩
  · rintro rfl
    obtain ⟨h1, h2, h3⟩ : _ ∧ _ ∧ _ := by rwa [RoundsTo, if_pos rfl] at h
    have e1 : (m : ℝ) = m / u * u := by field_simp
    have l1 : 2 * ((k : ℝ) * u) ≤ 2 * m + u := by rw [e1]; nlinarith
    have l2 : 2 * (m : ℝ) ≤ 2 * (k * u) + u := by rw [e1]; nlinarith
    refine ⟨by exact_mod_cast l1, by exact_mod_cast l2, fun h => h3 ?_⟩
    refine h.imp (fun h => ?_) fun h => ?_
    · have h : 2 * ((k : ℝ) * u) = 2 * m + u := by exact_mod_cast h
      field_simp
      linarith
    · have h : 2 * (m : ℝ) = 2 * (k * u) + u := by exact_mod_cast h
      field_simp
      linarith
  · rintro rfl
    exact hdown h.1
  · rintro rfl
    cases neg
    · exact hup h.1
    · exact hdown h.1
  · rintro rfl
    cases neg
    · exact hdown h.1
    · exact hup h.1

/-- Settles O16. -/
theorem conversionRounding : Obligations.ConversionRounding := by
  refine ⟨?_, fun f rm n => flToFp_self, fun f rm neg m e sticky x h1 h2 h3 h4 => packFin_rounded ⟨h1, h2, h3⟩ h4⟩
  intro rm neg m e q hq u r
  have hu : 0 < u := Nat.two_pow_pos _
  have hu' : (0 : ℝ) < u := by exact_mod_cast hu
  have he := two_zpow_pos e
  obtain ⟨hr, hin⟩ := roundUnits_spec (rm := rm) (neg := neg) (q := q) (Approx.exact m e) fun h => absurd h Bool.false_ne_true
  have hy : (m : ℝ) * (2 : ℝ) ^ e / (2 : ℝ) ^ q = (m : ℝ) / u := by
    rw [two_zpow_sub hq]
    field_simp
    rfl
  have hexact : (r.1 : ℝ) * (2 : ℝ) ^ q = (m : ℝ) * (2 : ℝ) ^ e ↔ r.1 * u = m := by
    rw [← eq_div_iff (ne_of_gt (two_zpow_pos q)), hy, eq_div_iff (ne_of_gt hu')]
    norm_cast
  rw [hy] at hr
  have hfloor : r.1 * u = m ↔ u ∣ m := by
    constructor
    · intro h
      exact ⟨r.1, by rw [← h, Nat.mul_comm]⟩
    · rintro ⟨c, rfl⟩
      have hyc : ((u * c : ℕ) : ℝ) / u = c := by
        push_cast
        field_simp
      rw [hyc] at hr
      have hrc : (r.1 : ℝ) = c := (hr.exact_iff le_rfl (by linarith)).2 rfl
      rw [Nat.mul_comm, Nat.cast_inj.1 hrc]
  refine ⟨?_, hin.trans (not_congr (hexact.trans hfloor)), hfloor.2, hr.units hu⟩
  have h1 : m / u ≤ r.1 := hr.ge_of_ge Nat.cast_div_le
  have h2 : r.1 ≤ m / u + 1 := hr.le_of_le (by
    rw [div_le_iff₀ hu']
    exact_mod_cast (Nat.lt_mul_div_succ m hu).le.trans_eq (Nat.mul_comm _ _))
  omega

end Sys2Proof.Machine
end

section
/-! SUPPORT. The values of floating encodings, and the three kinds of result (R95, R96, R105 to R107). -/

namespace Sys2Proof.Machine

/-! ### Values -/

/-- The number that a finite value stands for. -/
noncomputable def Fl.val : Fl → ℝ
  | .fin g m e => if g then -((m : ℝ) * (2 : ℝ) ^ e) else (m : ℝ) * (2 : ℝ) ^ e
  | _ => 0

def Fl.isInf : Fl → Bool
  | .inf _ => true
  | _ => false

def Fl.isZero : Fl → Bool
  | .fin _ m _ => m == 0
  | _ => false

@[simp] theorem codeMag_zero (f : FpFmt) : codeMag f 0 = 0 := by
  rw [codeMag, if_pos (Nat.zero_div _), Nat.zero_mod, Nat.cast_zero, zero_mul]

theorem codeMag_eq_zero {f : FpFmt} {c : ℕ} : codeMag f c = 0 ↔ c = 0 := by
  rw [← codeMag_zero f]
  exact (codeMag_strictMono f).injective.eq_iff

section
variable {f : FpFmt} {n : ℕ} {v : Fl}

theorem Fl.Of.isNaN_iff (h : v.Of f n) : v.isNaN = true ↔ IsNaN f n := by
  cases v with
  | nan s => exact iff_of_true rfl h.1
  | inf g => exact iff_of_false Bool.false_ne_true h.1
  | fin g m e => exact iff_of_false Bool.false_ne_true h.1

theorem Fl.Of.sig_iff (h : v.Of f n) : v.sig = true ↔ IsSig f n := by
  cases v with
  | nan s => exact h.2.2
  | inf g => exact iff_of_false Bool.false_ne_true fun hs => h.1 hs.2.1
  | fin g m e => exact iff_of_false Bool.false_ne_true fun hs => h.1 hs.2.1

theorem Fl.Of.isInf_iff (h : v.Of f n) : v.isInf = true ↔ IsInf f n := by
  cases v with
  | nan s => exact iff_of_false Bool.false_ne_true h.2.1
  | inf g => exact iff_of_true rfl h.2.1
  | fin g m e => exact iff_of_false Bool.false_ne_true h.2.1

theorem Fl.Of.isNeg_eq (h : v.Of f n) (hn : ¬IsNaN f n) : v.isNeg = fpNeg f n := by
  cases v with
  | nan s => exact absurd h.1 hn
  | inf g => exact h.2.2.2.2
  | fin g m e => exact h.2.2.1

theorem Fl.Of.isZero_iff (h : v.Of f n) : v.isZero = true ↔ IsZero f n := by
  have hpos : 0 < maxFiniteCode f := by cases f <;> decide
  cases v with
  | nan s =>
    refine iff_of_false Bool.false_ne_true fun hz => ?_
    obtain ⟨_, _, hm⟩ | ⟨hn, _⟩ | ⟨hn, _⟩ := fp_trichotomy f n
    · rw [hz] at hm
      omega
    · exact hn h.1
    · exact hn h.1
  | inf g =>
    obtain ⟨_, _, hi, hm, _⟩ := h
    refine iff_of_false Bool.false_ne_true fun hz => ?_
    have hz : fpMag f n = 0 := hz
    rw [hz] at hm
    have : 0 < fpInfMag f := by cases f <;> decide
    omega
  | fin g m e =>
    obtain ⟨_, _, _, _, hval, _⟩ := h
    rw [IsZero, ← codeMag_eq_zero, ← hval, mul_eq_zero, or_iff_left (ne_of_gt (two_zpow_pos e)), Nat.cast_eq_zero]
    exact beq_iff_eq

/-- A number has the value of its encoding. -/
theorem Fl.Of.val_eq (h : v.Of f n) (hn : ¬IsNaN f n) (hi : ¬IsInf f n) : v.val = ((fpValue f n : ℚ) : ℝ) := by
  cases v with
  | nan s => exact absurd h.1 hn
  | inf g => exact absurd h.2.1 hi
  | fin g m e =>
    obtain ⟨_, _, hg, _, hval, _⟩ := h
    rw [fpValue_eq, ← hg, Fl.val, hval]

end

/-! ### The three kinds of result -/

theorem exists_isNaN_iff (f : FpFmt) : (∃ n, IsNaN f n) ↔ canonicalNaN f ≠ 0 := by
  cases f with
  | e3m2 => exact iff_of_false (fun ⟨_, h⟩ => h) (by decide)
  | e2m3 => exact iff_of_false (fun ⟨_, h⟩ => h) (by decide)
  | e2m1 => exact iff_of_false (fun ⟨_, h⟩ => h) (by decide)
  | e4m3 => exact iff_of_true ⟨0x7F, by unfold IsNaN; decide⟩ (by decide)
  | f64 => exact iff_of_true ⟨canonicalNaN .f64, by unfold IsNaN; decide⟩ (by decide)
  | f32 => exact iff_of_true ⟨canonicalNaN .f32, by unfold IsNaN; decide⟩ (by decide)
  | f16 => exact iff_of_true ⟨canonicalNaN .f16, by unfold IsNaN; decide⟩ (by decide)
  | bf16 => exact iff_of_true ⟨canonicalNaN .bf16, by unfold IsNaN; decide⟩ (by decide)
  | e5m2 => exact iff_of_true ⟨canonicalNaN .e5m2, by unfold IsNaN; decide⟩ (by decide)

theorem packNaN_result {f : FpFmt} {b : Bool} {nv : Prop} (h : b = true ↔ nv) : NaNResult f nv (packNaN f b).1 (packNaN f b).2 := by
  rw [NaNResult, exists_isNaN_iff, ← h]
  refine ⟨rfl, fun h => ?_, fun h hn => ?_⟩
  · rw [packNaN, show (b || canonicalNaN f == 0) = true by simpa [not_not] using h]
    rfl
  · rw [packNaN, show (b || canonicalNaN f == 0) = false by simp_all]
    rfl

theorem NaNResult.congr {f : FpFmt} {p q : Prop} {r : ℕ} {fl : Flags} (h : p ↔ q) (hr : NaNResult f p r fl) : NaNResult f q r fl := by
  rwa [NaNResult, ← h]

theorem packExact_nan {f : FpFmt} {rm : BitVec 2} {b : Bool} {nv : Prop} (h : b = true ↔ nv) :
    NaNResult f nv (packExact f rm (flagIf b flagNV) .nan).1 (packExact f rm (flagIf b flagNV) .nan).2 := by
  have e : (packExact f rm (flagIf b flagNV) .nan) = packNaN f b := by
    unfold packExact packNaN
    refine Prod.ext rfl ?_
    show flagIf (false || canonicalNaN f == 0) flagNV ||| flagIf b flagNV = flagIf (b || canonicalNaN f == 0) flagNV
    cases b <;> cases canonicalNaN f == 0 <;> decide
  rw [e]
  exact packNaN_result h

theorem packInf_result (f : FpFmt) (g : Bool) : InfResult f g (packInf f g).1 (packInf f g).2 := by
  unfold InfResult packInf
  split <;> exact ⟨rfl, rfl⟩

theorem packExact_zero {f : FpFmt} {rm : BitVec 2} (e : Exact) : packExact f rm 0 e = match e with
    | .nan => packNaN f false
    | .inf n => packInf f n
    | .num n m e st => packFin f rm n m e st := by
  cases e <;> exact Prod.ext rfl (BitVec.or_zero)

/-- An exact number of sign `g` rounded once. -/
theorem packFin_roundsIn {f : FpFmt} {rm : BitVec 2} {g zneg sticky : Bool} {m : ℕ} {e : ℤ} {x X : ℝ} (h : Approx m e sticky x)
    (hm : sticky = true → 2 ^ ((fmtSpec f).mbits + 2) ≤ m) (hX : X = if g then -x else x) (hz : X = 0 → g = zneg) :
    RoundsIn f rm X zneg (packFin f rm g m e sticky).1 (packFin f rm g m e sticky).2 := by
  have hr := packFin_rounded (rm := rm) (neg := g) h hm
  have hx : 0 ≤ x := (mul_nonneg (Nat.cast_nonneg m) (two_zpow_pos e).le).trans h.low
  refine ⟨fun hp => ?_, fun hp => ?_, fun h0 => ?_⟩
  · cases g
    · rwa [hX]
    · rw [hX, if_pos rfl] at hp
      linarith
  · cases g
    · rw [hX, if_neg Bool.false_ne_true] at hp
      linarith
    · rwa [hX, if_pos rfl, neg_neg]
  · have hx0 : x = 0 := by
      cases g
      · exact hX.symm.trans h0
      · exact neg_eq_zero.1 (hX.symm.trans h0)
    rw [Rounded, if_pos hx0] at hr
    rwa [← hz h0]

end Sys2Proof.Machine
end

section
/-! PROOF. Exact sums, products, quotients and roots, and their one rounding (R105, R127, R163). -/

namespace Sys2Proof.Machine

/-! ### isqrt -/

/-- The binary digits of a root from the highest down. -/
theorem isqrtGo_spec (n : ℕ) : ∀ k r, r * r ≤ n → n < (r + 2 ^ k) * (r + 2 ^ k) →
    isqrtGo n k r * isqrtGo n k r ≤ n ∧ n < (isqrtGo n k r + 1) * (isqrtGo n k r + 1)
  | 0, r, h, hn => ⟨h, hn⟩
  | k + 1, r, h, hn => by
    rw [isqrtGo]
    split
    next ht =>
      refine isqrtGo_spec n k _ ht ?_
      rwa [Nat.add_assoc, ← Nat.two_mul, Nat.mul_comm 2, ← Nat.pow_succ]
    next ht => exact isqrtGo_spec n k r h (not_le.1 ht)

theorem isqrt_eq (n : ℕ) : isqrt n = Nat.sqrt n := by
  have hlog : n < 2 ^ (n.log2 + 1) := Nat.lt_log2_self
  have hpow : 2 ^ (n.log2 + 1) ≤ (0 + 2 ^ (n.log2 / 2 + 1)) * (0 + 2 ^ (n.log2 / 2 + 1)) := by
    rw [Nat.zero_add, ← Nat.pow_add]
    exact Nat.pow_le_pow_right (by decide) (by omega)
  have h := isqrtGo_spec n (n.log2 / 2 + 1) 0 (Nat.zero_le _) (hlog.trans_le hpow)
  exact Nat.eq_sqrt.2 h

/-! ### Sums -/

/-- A number in units no coarser than its own. -/
theorem units_val {g : Bool} {m : ℕ} {e b : ℤ} (h : b ≤ e) : ((units g m e b : ℤ) : ℝ) * (2 : ℝ) ^ b = (Fl.fin g m e).val := by
  rw [Fl.val, two_zpow_sub h, units]
  split
  · push_cast
    ring
  · push_cast
    ring

theorem sumFin_spec (rm : BitVec 2) (n1 : Bool) (m1 : ℕ) (e1 : ℤ) (n2 : Bool) (m2 : ℕ) (e2 : ℤ) : ∃ g m e,
    sumFin rm n1 m1 e1 n2 m2 e2 = .num g m e false ∧ (Fl.fin n1 m1 e1).val + (Fl.fin n2 m2 e2).val = (Fl.fin g m e).val
      ∧ (m = 0 → g = if n1 = n2 then n1 else decide (rm = 3)) := by
  have hzero (g : Bool) (e : ℤ) : (Fl.fin g 0 e).val = 0 := by simp [Fl.val]
  rw [sumFin]
  by_cases h1 : m1 = 0 ∧ m2 = 0
  · rw [if_pos h1]
    obtain ⟨rfl, rfl⟩ := h1
    exact ⟨_, 0, 0, rfl, by simp only [hzero, add_zero], fun _ => rfl⟩
  rw [if_neg h1]
  by_cases h2 : m1 = 0
  · rw [if_pos h2]
    subst h2
    exact ⟨n2, m2, e2, rfl, by rw [hzero, zero_add], fun h => absurd ⟨rfl, h⟩ h1⟩
  rw [if_neg h2]
  by_cases h3 : m2 = 0
  · rw [if_pos h3]
    subst h3
    exact ⟨n1, m1, e1, rfl, by rw [hzero, add_zero], fun h => absurd ⟨h, rfl⟩ h1⟩
  · rw [if_neg h3]
    have hsum : ((units n1 m1 e1 (min e1 e2) + units n2 m2 e2 (min e1 e2) : ℤ) : ℝ) * (2 : ℝ) ^ min e1 e2
        = (Fl.fin n1 m1 e1).val + (Fl.fin n2 m2 e2).val := by
      rw [Int.cast_add, add_mul, units_val (min_le_left _ _), units_val (min_le_right _ _)]
    have hsame (h : n1 = n2) : units n1 m1 e1 (min e1 e2) + units n2 m2 e2 (min e1 e2) ≠ 0 := by
      subst h
      have p1 : (0 : ℤ) < m1 * 2 ^ (e1 - min e1 e2).toNat := by positivity
      have p2 : (0 : ℤ) < m2 * 2 ^ (e2 - min e1 e2).toNat := by positivity
      cases n1 <;> simp only [units, Bool.false_eq_true, if_false, if_true] <;> omega
    dsimp only
    generalize units n1 m1 e1 (min e1 e2) + units n2 m2 e2 (min e1 e2) = t at hsum hsame ⊢
    split
    next ht =>
      refine ⟨_, 0, 0, rfl, ?_, fun _ => ?_⟩
      · rw [← hsum, ht, hzero, Int.cast_zero, zero_mul]
      · rw [if_neg fun h => hsame h ht]
    next ht =>
      refine ⟨_, _, _, rfl, ?_, fun h => absurd (Int.natAbs_eq_zero.1 h) ht⟩
      rw [← hsum, Fl.val]
      by_cases hneg : t < 0
      · rw [if_pos (decide_eq_true hneg), Nat.cast_natAbs, abs_of_neg hneg]
        push_cast
        ring
      · rw [if_neg (by simpa using hneg), Nat.cast_natAbs, abs_of_nonneg (not_lt.1 hneg)]

/-- An exact number with no digits below its last rounded once. -/
theorem packFin_val {f : FpFmt} {rm : BitVec 2} {g zneg : Bool} {m : ℕ} {e : ℤ} {X : ℝ} (hX : X = (Fl.fin g m e).val)
    (hz : m = 0 → g = zneg) : RoundsIn f rm X zneg (packFin f rm g m e false).1 (packFin f rm g m e false).2 := by
  refine packFin_roundsIn (.exact m e) (fun h => absurd h Bool.false_ne_true) hX fun h => hz ?_
  rw [hX, Fl.val] at h
  have h0 : (m : ℝ) * (2 : ℝ) ^ e = 0 := by
    cases g
    · exact h
    · exact neg_eq_zero.1 h
  exact_mod_cast (mul_eq_zero.1 h0).resolve_right (ne_of_gt (two_zpow_pos e))

/-- The result of exact arithmetic, rounded. -/
def finish (f : FpFmt) (rm : BitVec 2) (r : Exact × Flags) : ℕ × Flags := packExact f rm r.2 r.1

/-- The sum of two values that are no NaNs. -/
theorem addFl_sumIn {f : FpFmt} {rm : BitVec 2} {a b : Fl} (ha : a.isNaN = false) (hb : b.isNaN = false) :
    SumIn f rm a.isNeg (a.isInf = true) a.val b.isNeg (b.isInf = true) b.val (finish f rm (addFl rm a b)).1
      (finish f rm (addFl rm a b)).2 := by
  have ninf (g : Bool) (m : ℕ) (e : ℤ) : ¬(Fl.fin g m e).isInf = true := Bool.false_ne_true
  cases a with
  | nan s => exact absurd ha (Ne.symm Bool.false_ne_true)
  | inf n =>
    cases b with
    | nan s => exact absurd hb (Ne.symm Bool.false_ne_true)
    | inf k =>
      refine ⟨fun _ _ => ?_, fun _ h => absurd rfl h, fun h => absurd rfl h, fun h => absurd rfl h⟩
      show if n = k then _ else _
      by_cases h : n = k
      · rw [if_pos h, addFl, if_pos h, finish, packExact_zero]
        exact packInf_result f n
      · rw [if_neg h, addFl, if_neg h]
        exact packExact_nan (b := true) (iff_of_true rfl trivial)
    | fin k m e =>
      refine ⟨fun _ h => absurd h (ninf _ _ _), fun _ _ => ?_, fun h => absurd rfl h, fun h => absurd rfl h⟩
      rw [addFl, finish, packExact_zero]
      exact packInf_result f n
  | fin n m e =>
    cases b with
    | nan s => exact absurd hb (Ne.symm Bool.false_ne_true)
    | inf k =>
      refine ⟨fun h => absurd h (ninf _ _ _), fun h => absurd h (ninf _ _ _), fun _ _ => ?_, fun _ h => absurd rfl h⟩
      rw [addFl, finish, packExact_zero]
      exact packInf_result f k
    | fin k m2 e2 =>
      refine ⟨fun h => absurd h (ninf _ _ _), fun h => absurd h (ninf _ _ _), fun _ h => absurd h (ninf _ _ _), fun _ _ => ?_⟩
      obtain ⟨g, m', e', hsum, hval, hz⟩ := sumFin_spec rm n m e k m2 e2
      rw [addFl, finish, packExact_zero, hsum]
      exact packFin_val hval hz

/-- A sum with a NaN. -/
theorem addFl_nan {f : FpFmt} {rm : BitVec 2} {a b : Fl} (h : a.isNaN = true ∨ b.isNaN = true) :
    NaNResult f (a.sig = true ∨ b.sig = true) (finish f rm (addFl rm a b)).1 (finish f rm (addFl rm a b)).2 := by
  cases a with
  | nan s => cases b <;> exact packExact_nan Bool.or_eq_true_iff
  | inf n =>
    cases b with
    | nan s => exact packExact_nan (b := s || false) (by rw [Bool.or_eq_true_iff, or_comm]; rfl)
    | _ => exact absurd (h.resolve_left Bool.false_ne_true) Bool.false_ne_true
  | fin n m e =>
    cases b with
    | nan s => exact packExact_nan (b := s || false) (by rw [Bool.or_eq_true_iff, or_comm]; rfl)
    | _ => exact absurd (h.resolve_left Bool.false_ne_true) Bool.false_ne_true

/-! ### Products -/

/-- What the exact product of two values that are no NaNs is. -/
theorem prodFl_spec {a b : Fl} (ha : a.isNaN = false) (hb : b.isNaN = false) :
    (prodFl a b = none ∧ (a.isInf = true ∧ b.isZero = true ∨ a.isZero = true ∧ b.isInf = true))
    ∨ ∃ p, prodFl a b = some p ∧ p.isNaN = false ∧ ¬(a.isInf = true ∧ b.isZero = true ∨ a.isZero = true ∧ b.isInf = true)
      ∧ p.isNeg = (a.isNeg != b.isNeg) ∧ (p.isInf = true ↔ a.isInf = true ∨ b.isInf = true)
      ∧ (p.isInf = false → p.val = a.val * b.val) := by
  cases a with
  | nan s => exact absurd ha (Ne.symm Bool.false_ne_true)
  | inf n =>
    cases b with
    | nan s => exact absurd hb (Ne.symm Bool.false_ne_true)
    | inf k => exact .inr ⟨_, rfl, rfl, by simp [Fl.isZero], rfl, by simp [Fl.isInf], fun h => absurd h (Ne.symm Bool.false_ne_true)⟩
    | fin k m e =>
      by_cases h : m = 0
      · exact .inl ⟨if_pos h, .inl ⟨rfl, beq_iff_eq.2 h⟩⟩
      · exact .inr ⟨_, if_neg h, rfl, by simp [Fl.isZero, Fl.isInf, h], rfl, by simp [Fl.isInf], fun h => absurd h (Ne.symm Bool.false_ne_true)⟩
  | fin n m e =>
    cases b with
    | nan s => exact absurd hb (Ne.symm Bool.false_ne_true)
    | inf k =>
      by_cases h : m = 0
      · exact .inl ⟨if_pos h, .inr ⟨beq_iff_eq.2 h, rfl⟩⟩
      · exact .inr ⟨_, if_neg h, rfl, by simp [Fl.isZero, Fl.isInf, h], by cases n <;> cases k <;> rfl, by simp [Fl.isInf],
          fun h => absurd h (Ne.symm Bool.false_ne_true)⟩
    | fin k m2 e2 =>
      refine .inr ⟨_, rfl, rfl, by simp [Fl.isInf], rfl, by simp [Fl.isInf], fun _ => ?_⟩
      rw [Fl.val, Fl.val, Fl.val, two_zpow_add]
      cases n <;> cases k <;> push_cast <;> simp only [bne_self_eq_false, Bool.false_eq_true, if_false, if_true, Bool.bne_true,
        Bool.bne_false, Bool.not_false] <;> ring

/-- A product with a NaN. -/
theorem prodFl_nan {a b : Fl} (h : a.isNaN = true ∨ b.isNaN = true) : prodFl a b = some (.nan (a.sig || b.sig)) := by
  cases a with
  | nan s => cases b <;> rfl
  | inf n =>
    cases b with
    | nan s => exact congrArg (fun x => some (Fl.nan x)) (Bool.or_comm ..)
    | _ => exact absurd (h.resolve_left Bool.false_ne_true) Bool.false_ne_true
  | fin n m e =>
    cases b with
    | nan s => exact congrArg (fun x => some (Fl.nan x)) (Bool.or_comm ..)
    | _ => exact absurd (h.resolve_left Bool.false_ne_true) Bool.false_ne_true

/-! ### Quotients and roots -/

/-- A quotient with a remainder noted. -/
theorem Approx.quotient {m1 m2 sh : ℕ} {e1 e2 : ℤ} (h2 : m2 ≠ 0) : Approx (m1 * 2 ^ sh / m2) (e1 - e2 - sh) (m1 * 2 ^ sh % m2 != 0)
    (((m1 : ℝ) * (2 : ℝ) ^ e1) / ((m2 : ℝ) * (2 : ℝ) ^ e2)) := by
  have hm2 : (0 : ℝ) < m2 := by exact_mod_cast Nat.pos_of_ne_zero h2
  have hu := two_zpow_pos (e1 - e2 - sh)
  have hx : ((m1 : ℝ) * (2 : ℝ) ^ e1) / ((m2 : ℝ) * (2 : ℝ) ^ e2) = ((m1 * 2 ^ sh : ℕ) : ℝ) / m2 * (2 : ℝ) ^ (e1 - e2 - sh) := by
    have h2p := ne_of_gt (two_zpow_pos e2)
    have hs : (2 : ℝ) ^ sh ≠ 0 := by positivity
    rw [zpow_sub₀ (by norm_num), zpow_sub₀ (by norm_num), zpow_natCast]
    push_cast
    field_simp
  rw [hx]
  generalize m1 * 2 ^ sh = x
  have hdm : (m2 : ℝ) * (x / m2 : ℕ) + (x % m2 : ℕ) = x := by exact_mod_cast Nat.div_add_mod x m2
  have hlt : ((x % m2 : ℕ) : ℝ) < m2 := by exact_mod_cast Nat.mod_lt x (Nat.pos_of_ne_zero h2)
  refine ⟨?_, ?_, ?_⟩
  · refine mul_le_mul_of_nonneg_right ?_ hu.le
    rw [le_div_iff₀ hm2, ← hdm, mul_comm]
    exact le_add_of_nonneg_right (Nat.cast_nonneg _)
  · refine mul_lt_mul_of_pos_right ?_ hu
    rw [div_lt_iff₀ hm2, ← hdm, add_mul, one_mul, mul_comm]
    linarith
  · rw [bne_iff_ne, ne_eq, ne_eq, mul_left_inj' (ne_of_gt hu), div_eq_iff (ne_of_gt hm2), ← hdm, mul_comm, add_eq_left, Nat.cast_eq_zero]

/-- A quotient has as many digits as were asked for. -/
theorem quotient_digits {k m1 m2 : ℕ} (h1 : m1 ≠ 0) (h2 : m2 ≠ 0) : 2 ^ k ≤ m1 * 2 ^ (k + m2.log2 + 1) / m2 := by
  have hlog : m2 < 2 ^ (m2.log2 + 1) := Nat.lt_log2_self
  rw [Nat.le_div_iff_mul_le (Nat.pos_of_ne_zero h2), Nat.add_assoc, Nat.pow_add]
  calc 2 ^ k * m2 ≤ 2 ^ k * 2 ^ (m2.log2 + 1) := Nat.mul_le_mul_left _ hlog.le
    _ ≤ m1 * (2 ^ k * 2 ^ (m2.log2 + 1)) := Nat.le_mul_of_pos_left _ (Nat.pos_of_ne_zero h1)

/-- A root with what it leaves noted. -/
theorem Approx.root {m sh : ℕ} {e : ℤ} (he : (e - sh) % 2 = 0) : Approx (isqrt (m * 2 ^ sh)) ((e - sh) / 2)
    (isqrt (m * 2 ^ sh) * isqrt (m * 2 ^ sh) != m * 2 ^ sh) (Real.sqrt ((m : ℝ) * (2 : ℝ) ^ e)) := by
  have hu := two_zpow_pos ((e - sh) / 2)
  have hx : Real.sqrt ((m : ℝ) * (2 : ℝ) ^ e) = Real.sqrt ((m * 2 ^ sh : ℕ) : ℝ) * (2 : ℝ) ^ ((e - sh) / 2) := by
    have hsq : (2 : ℝ) ^ (e - sh) = (2 : ℝ) ^ ((e - sh) / 2) * (2 : ℝ) ^ ((e - sh) / 2) := by
      rw [← two_zpow_add]
      congr 1
      omega
    have he2 : (m : ℝ) * (2 : ℝ) ^ e = ((m * 2 ^ sh : ℕ) : ℝ) * (2 : ℝ) ^ (e - sh) := by
      rw [zpow_sub₀ (by norm_num), zpow_natCast]
      push_cast
      field_simp
    rw [he2, Real.sqrt_mul (Nat.cast_nonneg _), hsq, Real.sqrt_mul_self hu.le]
  rw [hx, isqrt_eq]
  generalize m * 2 ^ sh = x
  have hlow : Nat.sqrt x * Nat.sqrt x ≤ x := Nat.sqrt_le x
  have hhigh : x < (Nat.sqrt x + 1) * (Nat.sqrt x + 1) := Nat.lt_succ_sqrt x
  have hlow : ((Nat.sqrt x : ℕ) : ℝ) * (Nat.sqrt x : ℕ) ≤ x := by exact_mod_cast hlow
  have hhigh : (x : ℝ) < ((Nat.sqrt x : ℕ) + 1) * ((Nat.sqrt x : ℕ) + 1) := by exact_mod_cast hhigh
  have hr0 : (0 : ℝ) ≤ (Nat.sqrt x : ℕ) := Nat.cast_nonneg _
  refine ⟨mul_le_mul_of_nonneg_right (Real.le_sqrt_of_sq_le (by rwa [pow_two])) hu.le,
    mul_lt_mul_of_pos_right ((Real.sqrt_lt' (by linarith)).2 (by rwa [pow_two])) hu, ?_⟩
  rw [bne_iff_ne, ne_eq, ne_eq, mul_left_inj' (ne_of_gt hu), Real.sqrt_eq_iff_mul_self_eq (Nat.cast_nonneg _) hr0]
  exact not_congr ⟨fun h => by exact_mod_cast h.symm, fun h => by exact_mod_cast h.symm⟩

/-- A root has as many digits as were asked for. -/
theorem root_digits {k m sh : ℕ} (hm : m ≠ 0) (hsh : 2 * k ≤ sh) : 2 ^ k ≤ isqrt (m * 2 ^ sh) := by
  rw [isqrt_eq, Nat.le_sqrt, ← Nat.pow_add, ← Nat.two_mul]
  exact (Nat.pow_le_pow_right (by decide) hsh).trans (Nat.le_mul_of_pos_left _ (Nat.pos_of_ne_zero hm))

/-- The quotient of two finite values, the divisor not zero. -/
theorem divFl_fin {f : FpFmt} {rm : BitVec 2} {n1 n2 : Bool} {m1 m2 : ℕ} {e1 e2 : ℤ} (h2 : m2 ≠ 0) :
    RoundsIn f rm ((Fl.fin n1 m1 e1).val / (Fl.fin n2 m2 e2).val) (n1 != n2)
      (finish f rm (divFl ((fmtSpec f).mbits + 4) (.fin n1 m1 e1) (.fin n2 m2 e2))).1
      (finish f rm (divFl ((fmtSpec f).mbits + 4) (.fin n1 m1 e1) (.fin n2 m2 e2))).2 := by
  rw [divFl, if_neg h2, finish, packExact_zero]
  refine packFin_roundsIn (Approx.quotient h2) (fun hs => ?_) ?_ fun _ => rfl
  · have h1 : m1 ≠ 0 := by
      rintro rfl
      rw [Nat.zero_mul, Nat.zero_mod] at hs
      exact absurd hs (by decide)
    exact (Nat.pow_le_pow_right (by decide) (by omega)).trans (quotient_digits h1 h2)
  · rw [Fl.val, Fl.val]
    cases n1 <;> cases n2 <;> simp only [bne_self_eq_false, Bool.false_eq_true, if_false, if_true, Bool.bne_true, Bool.bne_false,
      Bool.not_false, neg_div, div_neg, neg_neg]

/-- The root of a finite value that is positive. -/
theorem sqrtFl_fin {f : FpFmt} {rm : BitVec 2} {m : ℕ} {e : ℤ} (hm : m ≠ 0) :
    RoundsIn f rm (Real.sqrt (Fl.fin false m e).val) false (finish f rm (sqrtFl ((fmtSpec f).mbits + 4) (.fin false m e))).1
      (finish f rm (sqrtFl ((fmtSpec f).mbits + 4) (.fin false m e))).2 := by
  rw [sqrtFl, if_neg hm, if_neg Bool.false_ne_true, finish, packExact_zero]
  refine packFin_roundsIn (Approx.root ?_) (fun _ => ?_) rfl fun _ => rfl
  · split <;> push_cast <;> omega
  · exact (Nat.pow_le_pow_right (by decide) (by omega)).trans (root_digits (k := (fmtSpec f).mbits + 4) hm (Nat.le_add_right _ _))

/-! ### Order -/

/-- The place of an encoding that is no NaN among the numbers, an infinity behind the largest. -/
noncomputable def place (f : FpFmt) (n : ℕ) : ℝ := if fpNeg f n then -codeMag f (fpMag f n) else codeMag f (fpMag f n)

theorem codeMag_nonneg (f : FpFmt) (c : ℕ) : 0 ≤ codeMag f c := by
  rw [← codeMag_zero f]
  exact (codeMag_strictMono f).monotone (Nat.zero_le c)

/-- The order of the places is that of the ranks, but that the two zeros have one place. -/
theorem place_lt_iff {f : FpFmt} {x y : ℕ} : place f x < place f y ↔ fpRank f x < fpRank f y ∧ ¬(IsZero f x ∧ IsZero f y) := by
  have hx := codeMag_nonneg f (fpMag f x)
  have hy := codeMag_nonneg f (fpMag f y)
  have hlt : codeMag f (fpMag f x) < codeMag f (fpMag f y) ↔ fpMag f x < fpMag f y := (codeMag_strictMono f).lt_iff_lt
  have hgt : codeMag f (fpMag f y) < codeMag f (fpMag f x) ↔ fpMag f y < fpMag f x := (codeMag_strictMono f).lt_iff_lt
  have hx0 : codeMag f (fpMag f x) = 0 ↔ fpMag f x = 0 := codeMag_eq_zero
  have hy0 : codeMag f (fpMag f y) = 0 ↔ fpMag f y = 0 := codeMag_eq_zero
  unfold place fpRank IsZero
  generalize codeMag f (fpMag f x) = cx at *
  generalize codeMag f (fpMag f y) = cy at *
  cases fpNeg f x <;> cases fpNeg f y <;> simp only [Bool.false_eq_true, if_false, if_true]
  · rw [hlt]
    omega
  · refine iff_of_false (by linarith) (by omega)
  · rw [← hx0, ← hy0]
    refine ⟨fun h => ⟨by omega, fun h0 => by linarith⟩, fun h => ?_⟩
    by_contra hle
    exact h.2 ⟨by linarith, by linarith⟩
  · rw [neg_lt_neg_iff, hgt]
    omega

theorem Fl.Of.place_fin {f : FpFmt} {n : ℕ} {g : Bool} {m : ℕ} {e : ℤ} (h : (Fl.fin g m e).Of f n) : (Fl.fin g m e).val = place f n := by
  obtain ⟨_, _, hg, _, hval, _⟩ := h
  rw [place, ← hg, Fl.val, hval]

/-- An infinity stands behind every number. -/
theorem Fl.Of.place_inf {f : FpFmt} {n : ℕ} {g : Bool} (h : (Fl.inf g).Of f n) :
    place f n = if g then -codeMag f (fpInfMag f) else codeMag f (fpInfMag f) := by
  obtain ⟨_, _, _, hm, hg⟩ := h
  rw [place, ← hg, hm]

theorem Fl.Of.place_bound {f : FpFmt} {n : ℕ} {g k : Bool} {m : ℕ} {e : ℤ} {y : ℕ} (h : (Fl.fin g m e).Of f n)
    (hy : (Fl.inf k).Of f y) : -codeMag f (fpInfMag f) < place f n ∧ place f n < codeMag f (fpInfMag f) := by
  obtain ⟨_, _, _, hm, _⟩ := h
  obtain ⟨_, _, hi, _⟩ := hy
  have htop : maxFiniteCode f < fpInfMag f := by cases f <;> simp_all [hasInf] <;> decide
  have hlt := codeMag_strictMono f (hm.trans_lt htop)
  have h0 := codeMag_nonneg f (fpMag f n)
  unfold place
  cases fpNeg f n
  · exact ⟨by simpa using (by linarith), hlt⟩
  · exact ⟨by simpa using hlt, by simp only [if_true]; linarith⟩

/-- The order of two values that are no NaNs. -/
theorem ltFl_place {f : FpFmt} {x y : ℕ} {a b : Fl} (ha : a.Of f x) (hb : b.Of f y) (hx : ¬IsNaN f x) (hy : ¬IsNaN f y) :
    ltFl a b = true ↔ place f x < place f y := by
  have hpos : 0 < codeMag f (fpInfMag f) := by
    rw [← codeMag_zero f]
    exact codeMag_strictMono f (by cases f <;> decide)
  cases a with
  | nan s => exact absurd ha.1 hx
  | inf n =>
    cases b with
    | nan s => exact absurd hb.1 hy
    | inf k =>
      rw [ha.place_inf, hb.place_inf]
      cases n <;> cases k <;> simp [ltFl] <;> linarith
    | fin k m e =>
      obtain ⟨h1, h2⟩ := hb.place_bound ha
      rw [ha.place_inf]
      cases n <;> simp [ltFl] <;> linarith
  | fin n m e =>
    cases b with
    | nan s => exact absurd hb.1 hy
    | inf k =>
      obtain ⟨h1, h2⟩ := ha.place_bound hb
      rw [hb.place_inf]
      cases k <;> simp [ltFl] <;> linarith
    | fin k m2 e2 =>
      rw [← ha.place_fin, ← hb.place_fin, ← units_val (min_le_left e e2), ← units_val (min_le_right e e2),
        mul_lt_mul_iff_left₀ (two_zpow_pos _), Int.cast_lt]
      exact decide_eq_true_iff

/-- The compare of two encodings that are no NaNs. -/
theorem ltFl_iff {f : FpFmt} {x y : ℕ} (hx : ¬IsNaN f x) (hy : ¬IsNaN f y) :
    ltFl (decodeFl f x) (decodeFl f y) = true ↔ place f x < place f y :=
  ltFl_place (decodeFl_of f x) (decodeFl_of f y) hx hy

theorem decodeFl_isNaN_iff {f : FpFmt} {x : ℕ} : (decodeFl f x).isNaN = true ↔ IsNaN f x := (decodeFl_of f x).isNaN_iff

theorem decodeFl_isNaN_false {f : FpFmt} {x : ℕ} (h : ¬IsNaN f x) : (decodeFl f x).isNaN = false :=
  Bool.eq_false_iff.2 (mt decodeFl_isNaN_iff.1 h)

theorem eqFl_iff {f : FpFmt} {x y : ℕ} : eqFl (decodeFl f x) (decodeFl f y) = true ↔ ¬IsNaN f x ∧ ¬IsNaN f y ∧ place f x = place f y := by
  by_cases hx : IsNaN f x
  · exact iff_of_false (by simp [eqFl, decodeFl_isNaN_iff.2 hx]) fun h => h.1 hx
  by_cases hy : IsNaN f y
  · exact iff_of_false (by simp [eqFl, decodeFl_isNaN_iff.2 hy]) fun h => h.2.1 hy
  · have h1 := ltFl_iff hx hy
    have h2 := ltFl_iff hy hx
    simp only [eqFl, decodeFl_isNaN_false hx, decodeFl_isNaN_false hy, Bool.not_false, Bool.true_and, Bool.and_eq_true, Bool.not_eq_true',
      ← Bool.not_eq_true, h1, h2, hx, hy, not_false_eq_true, true_and, not_lt]
    exact ⟨fun h => le_antisymm h.2 h.1, fun h => ⟨h.ge, h.le⟩⟩

/-- The order of MIN and MAX is that of the ranks. -/
theorem beforeFl_iff {f : FpFmt} {x y : ℕ} (hx : ¬IsNaN f x) (hy : ¬IsNaN f y) :
    beforeFl (decodeFl f x) (decodeFl f y) = true ↔ fpRank f x < fpRank f y := by
  have h1 := place_lt_iff (f := f) (x := x) (y := y)
  have h2 := place_lt_iff (f := f) (x := y) (y := x)
  rw [beforeFl, Bool.or_eq_true, Bool.and_eq_true, Bool.and_eq_true, ltFl_iff hx hy, eqFl_iff, (decodeFl_of f x).isNeg_eq hx,
    (decodeFl_of f y).isNeg_eq hy, Bool.not_eq_true', show place f x = place f y ↔ ¬place f x < place f y ∧ ¬place f y < place f x by
      rw [not_lt, not_lt]; exact ⟨fun h => ⟨h.ge, h.le⟩, fun h => le_antisymm h.2 h.1⟩, h1, h2]
  simp only [hx, hy, not_false_eq_true, true_and]
  unfold fpRank IsZero
  cases fpNeg f x <;> cases fpNeg f y <;> simp only [Bool.false_eq_true, if_false, if_true, and_false, or_false, and_true, reduceCtorEq] <;> omega

end Sys2Proof.Machine
end

section
/-! PROOF. The elements of the floating operations (R105, R106, R107, R126, R163, R164). -/

namespace Sys2Proof.Machine

/-! ### Sums, products and fused sums -/

theorem SumIn.congr {f : FpFmt} {rm : BitVec 2} {an an' bn bn' : Bool} {ai ai' bi bi' : Prop} {av av' bv bv' : ℝ} {r : ℕ} {fl : Flags}
    (h : SumIn f rm an ai av bn bi bv r fl) (han : an = an') (hai : ai ↔ ai') (hav : ¬ai' → av = av') (hbn : bn = bn') (hbi : bi ↔ bi')
    (hbv : ¬bi' → bv = bv') : SumIn f rm an' ai' av' bn' bi' bv' r fl := by
  subst han hbn
  obtain ⟨h1, h2, h3, h4⟩ := h
  refine ⟨fun ha hb => h1 (hai.2 ha) (hbi.2 hb), fun ha hb => h2 (hai.2 ha) (mt hbi.1 hb), fun ha hb => h3 (mt hai.1 ha) (hbi.2 hb),
    fun ha hb => ?_⟩
  rw [← hav ha, ← hbv hb]
  exact h4 (mt hai.1 ha) (mt hbi.1 hb)

theorem Fl.neg_isNaN (v : Fl) : v.neg.isNaN = v.isNaN := by cases v <;> rfl
theorem Fl.neg_sig (v : Fl) : v.neg.sig = v.sig := by cases v <;> rfl
theorem Fl.neg_isInf (v : Fl) : v.neg.isInf = v.isInf := by cases v <;> rfl
theorem Fl.neg_isZero (v : Fl) : v.neg.isZero = v.isZero := by cases v <;> rfl

theorem Fl.neg_isNeg {v : Fl} (h : v.isNaN = false) : v.neg.isNeg = !v.isNeg := by
  cases v with
  | nan s => exact absurd h (Ne.symm Bool.false_ne_true)
  | _ => rfl

theorem Fl.neg_val (v : Fl) : v.neg.val = -v.val := by
  cases v with
  | fin g m e => cases g <;> simp [Fl.neg, Fl.val]
  | _ => simp [Fl.neg, Fl.val]

/-- A value with its sign turned where `b` says so. -/
def Fl.turned (b : Bool) (v : Fl) : Fl := if b then v.neg else v

section
variable {f : FpFmt} {rm : BitVec 2} {b c : Bool} {x y z : ℕ}

theorem turned_isNaN {v : Fl} : (v.turned b).isNaN = v.isNaN := by
  cases b
  · rfl
  · exact v.neg_isNaN

theorem turned_sig {v : Fl} : (v.turned b).sig = v.sig := by
  cases b
  · rfl
  · exact v.neg_sig

theorem turned_isInf {v : Fl} : (v.turned b).isInf = v.isInf := by
  cases b
  · rfl
  · exact v.neg_isInf

theorem turned_isZero {v : Fl} : (v.turned b).isZero = v.isZero := by
  cases b
  · rfl
  · exact v.neg_isZero

theorem turned_isNeg {v : Fl} (h : v.isNaN = false) : (v.turned b).isNeg = (v.isNeg != b) := by
  cases b
  · exact (Bool.bne_false _).symm
  · rw [Fl.turned, if_pos rfl, Fl.neg_isNeg h, Bool.bne_true]

theorem turned_val {v : Fl} : (v.turned b).val = if b then -v.val else v.val := by
  cases b
  · rfl
  · exact v.neg_val

/-- The sum of two encodings that are no NaNs, the second's sign turned where `b` says so. -/
theorem sum_sumIn (hx : ¬IsNaN f x) (hy : ¬IsNaN f y) :
    SumIn f rm (fpNeg f x) (IsInf f x) ((fpValue f x : ℚ) : ℝ) (fpNeg f y != b) (IsInf f y) (if b then -((fpValue f y : ℚ) : ℝ) else ((fpValue f y : ℚ) : ℝ))
      (finish f rm (addFl rm (decodeFl f x) ((decodeFl f y).turned b))).1
      (finish f rm (addFl rm (decodeFl f x) ((decodeFl f y).turned b))).2 := by
  have ax := decodeFl_of f x
  have ay := decodeFl_of f y
  refine (addFl_sumIn (decodeFl_isNaN_false hx) (turned_isNaN.trans (decodeFl_isNaN_false hy))).congr (ax.isNeg_eq hx) ax.isInf_iff
    (fun h => ax.val_eq hx h) ?_ ?_ fun h => ?_
  · rw [turned_isNeg (decodeFl_isNaN_false hy), ay.isNeg_eq hy]
  · rw [turned_isInf]
    exact ay.isInf_iff
  · rw [turned_val, ay.val_eq hy h]

/-- One with a NaN. -/
theorem sum_nan (h : IsNaN f x ∨ IsNaN f y) : NaNResult f (IsSig f x ∨ IsSig f y)
    (finish f rm (addFl rm (decodeFl f x) ((decodeFl f y).turned b))).1 (finish f rm (addFl rm (decodeFl f x) ((decodeFl f y).turned b))).2 := by
  refine (addFl_nan ?_).congr ?_
  · rw [turned_isNaN, decodeFl_isNaN_iff, decodeFl_isNaN_iff]
    exact h
  · rw [turned_sig, (decodeFl_of f x).sig_iff, (decodeFl_of f y).sig_iff]

/-- A product that no rule makes invalid. -/
def Invalid (f : FpFmt) (x y : ℕ) : Prop := IsInf f x ∧ IsZero f y ∨ IsZero f x ∧ IsInf f y

theorem product_cases (hx : ¬IsNaN f x) (hy : ¬IsNaN f y) :
    (prodFl ((decodeFl f x).turned b) (decodeFl f y) = none ∧ Invalid f x y)
    ∨ ∃ p, prodFl ((decodeFl f x).turned b) (decodeFl f y) = some p ∧ p.isNaN = false ∧ ¬Invalid f x y
      ∧ p.isNeg = ((fpNeg f x != fpNeg f y) != b) ∧ (p.isInf = true ↔ IsInf f x ∨ IsInf f y)
      ∧ (¬(IsInf f x ∨ IsInf f y) → p.val = if b then -((fpValue f x * fpValue f y : ℚ) : ℝ) else ((fpValue f x * fpValue f y : ℚ) : ℝ)) := by
  have ax := decodeFl_of f x
  have ay := decodeFl_of f y
  have nx := decodeFl_isNaN_false hx
  have hinv : ((decodeFl f x).turned b).isInf = true ∧ (decodeFl f y).isZero = true
      ∨ ((decodeFl f x).turned b).isZero = true ∧ (decodeFl f y).isInf = true ↔ Invalid f x y := by
    rw [turned_isInf, turned_isZero, ax.isInf_iff, ay.isZero_iff, ax.isZero_iff, ay.isInf_iff, Invalid]
  rcases prodFl_spec (turned_isNaN.trans nx) (decodeFl_isNaN_false hy) with ⟨h, hi⟩ | ⟨p, h, hn, hi, hneg, hinf, hval⟩
  · exact .inl ⟨h, hinv.1 hi⟩
  · refine .inr ⟨p, h, hn, mt hinv.2 hi, ?_, ?_, fun hni => ?_⟩
    · rw [hneg, turned_isNeg nx, ax.isNeg_eq hx, ay.isNeg_eq hy]
      cases fpNeg f x <;> cases fpNeg f y <;> cases b <;> rfl
    · rw [hinf, turned_isInf, ax.isInf_iff, ay.isInf_iff]
    · have hpi : p.isInf = false := Bool.eq_false_iff.2 fun hp => hni (by
        rw [← ax.isInf_iff, ← ay.isInf_iff, ← turned_isInf (b := b)]
        exact hinf.1 hp)
      rw [hval hpi, turned_val, ax.val_eq hx fun h => hni (.inl h), ay.val_eq hy fun h => hni (.inr h)]
      cases b <;> push_cast <;> simp

theorem product_nan (h : IsNaN f x ∨ IsNaN f y) : ∃ s, prodFl ((decodeFl f x).turned b) (decodeFl f y) = some (.nan s)
    ∧ (s = true ↔ IsSig f x ∨ IsSig f y) := by
  refine ⟨_, prodFl_nan (by rw [turned_isNaN, decodeFl_isNaN_iff, decodeFl_isNaN_iff]; exact h), ?_⟩
  rw [Bool.or_eq_true, turned_sig, (decodeFl_of f x).sig_iff, (decodeFl_of f y).sig_iff]

/-- No operand of an invalid product is a NaN. -/
theorem Invalid.not_nan (h : Invalid f x y) : ¬IsNaN f x ∧ ¬IsNaN f y := by
  have inf_not {n : ℕ} (hi : IsInf f n) (hn : IsNaN f n) : False := by
    obtain ⟨_, h, _⟩ | ⟨h, _⟩ | ⟨h, _⟩ := fp_trichotomy f n
    · exact h hi
    · exact h hn
    · exact h hn
  have zero_not {n : ℕ} (hz : IsZero f n) (hn : IsNaN f n) : False := by
    obtain ⟨_, _, h⟩ | ⟨h, _⟩ | ⟨h, _⟩ := fp_trichotomy f n
    · rw [show fpMag f n = 0 from hz] at h
      omega
    · exact h hn
    · exact h hn
  rcases h with ⟨h1, h2⟩ | ⟨h1, h2⟩
  · exact ⟨inf_not h1, zero_not h2⟩
  · exact ⟨zero_not h1, inf_not h2⟩

/-- The fused product and sum. -/
theorem fused_spec : FusedIn f rm b c x y z
    (finish f rm (fmaFl rm ((decodeFl f x).turned b) (decodeFl f y) ((decodeFl f z).turned c))).1
    (finish f rm (fmaFl rm ((decodeFl f x).turned b) (decodeFl f y) ((decodeFl f z).turned c))).2 := by
  have az := decodeFl_of f z
  refine ⟨fun h => ?_, fun hx hy hz hv => ?_⟩
  · by_cases hxy : IsNaN f x ∨ IsNaN f y
    · obtain ⟨s, hp, hs⟩ := product_nan (b := b) hxy
      have hni : ¬Invalid f x y := fun h => hxy.elim h.not_nan.1 h.not_nan.2
      rw [fmaFl, hp]
      refine (addFl_nan (.inl rfl)).congr ?_
      rw [turned_sig, az.sig_iff]
      show s = true ∨ _ ↔ _
      rw [hs, ← Invalid, or_iff_left hni, or_assoc]
    · obtain ⟨hx, hy⟩ := not_or.1 hxy
      rcases product_cases (b := b) hx hy with ⟨hp, hi⟩ | ⟨p, hp, hn, hi, _⟩
      · rw [fmaFl, hp]
        exact packExact_nan (b := true) (iff_of_true rfl (.inr (.inr (.inr hi))))
      · have hz : IsNaN f z := ((h.resolve_left hx).resolve_left hy).resolve_right hi
        rw [fmaFl, hp]
        refine (addFl_nan (.inr (turned_isNaN.trans (decodeFl_isNaN_iff.2 hz)))).congr ?_
        have hps : p.sig = false := by cases p <;> first | rfl | exact absurd hn (Ne.symm Bool.false_ne_true)
        rw [hps, turned_sig, az.sig_iff, ← Invalid]
        simp only [Bool.false_eq_true, false_or, hi, or_false]
        refine ⟨fun h => .inr (.inr h), fun h => ?_⟩
        exact (h.resolve_left fun h => hx h.2.1).resolve_left fun h => hy h.2.1
  · rcases product_cases (b := b) hx hy with ⟨hp, hi⟩ | ⟨p, hp, hn, hi, hneg, hinf, hval⟩
    · exact absurd hi hv
    · rw [fmaFl, hp]
      refine (addFl_sumIn hn (turned_isNaN.trans (decodeFl_isNaN_false hz))).congr hneg hinf (fun h => ?_) ?_ ?_ fun h => ?_
      · rw [hval h]
        cases b <;> simp
      · rw [turned_isNeg (decodeFl_isNaN_false hz), az.isNeg_eq hz]
      · rw [turned_isInf]
        exact az.isInf_iff
      · rw [turned_val, az.val_eq hz h]
        cases c <;> simp

/-- The product of two encodings. -/
theorem product_spec : let r := finish f rm (mulFl (decodeFl f x) (decodeFl f y))
    (((IsNaN f x ∨ IsNaN f y) ∨ Invalid f x y → NaNResult f ((IsSig f x ∨ IsSig f y) ∨ Invalid f x y) r.1 r.2)
      ∧ (¬(IsNaN f x ∨ IsNaN f y) → ¬Invalid f x y → IsInf f x ∨ IsInf f y → InfResult f (fpNeg f x != fpNeg f y) r.1 r.2)
      ∧ (¬(IsNaN f x ∨ IsNaN f y) → ¬IsInf f x → ¬IsInf f y →
        RoundsIn f rm ((fpValue f x * fpValue f y : ℚ) : ℝ) (fpNeg f x != fpNeg f y) r.1 r.2)) := by
  intro r
  by_cases hxy : IsNaN f x ∨ IsNaN f y
  · obtain ⟨s, hp, hs⟩ := product_nan (b := false) hxy
    have hni : ¬Invalid f x y := fun h => hxy.elim h.not_nan.1 h.not_nan.2
    refine ⟨fun _ => ?_, fun h => absurd hxy h, fun h => absurd hxy h⟩
    have e : r = packExact f rm (flagIf s flagNV) .nan := by
      show finish f rm (mulFl ((decodeFl f x).turned false) _) = _
      rw [mulFl, hp]
      rfl
    rw [e]
    exact packExact_nan (by rw [hs, or_iff_left hni])
  · obtain ⟨hx, hy⟩ := not_or.1 hxy
    rcases product_cases (b := false) hx hy with ⟨hp, hi⟩ | ⟨p, hp, hn, hi, hneg, hinf, hval⟩
    · have e : r = packExact f rm (flagIf true flagNV) .nan := by
        show finish f rm (mulFl ((decodeFl f x).turned false) _) = _
        rw [mulFl, hp]
        rfl
      rw [e]
      refine ⟨fun _ => packExact_nan (iff_of_true rfl (.inr hi)), fun _ h => absurd hi h, fun _ h1 h2 => ?_⟩
      exact absurd hi (by rintro (⟨h, _⟩ | ⟨_, h⟩); exacts [h1 h, h2 h])
    · rw [Bool.bne_false] at hneg
      refine ⟨fun h => absurd h (not_or.2 ⟨hxy, hi⟩), fun _ _ h => ?_, fun _ h1 h2 => ?_⟩
      · cases p with
        | nan s => exact absurd hn (Ne.symm Bool.false_ne_true)
        | fin g m e => exact absurd (hinf.2 h) Bool.false_ne_true
        | inf g =>
          have e : r = packInf f g := by
            show finish f rm (mulFl ((decodeFl f x).turned false) _) = _
            rw [mulFl, hp, finish, packExact_zero]
          rw [e, ← hneg]
          exact packInf_result f g
      · cases p with
        | nan s => exact absurd hn (Ne.symm Bool.false_ne_true)
        | inf g => exact absurd (hinf.1 rfl) (not_or.2 ⟨h1, h2⟩)
        | fin g m e =>
          have e : r = packFin f rm g m e false := by
            show finish f rm (mulFl ((decodeFl f x).turned false) _) = _
            rw [mulFl, hp, finish, packExact_zero]
          rw [e, ← hneg]
          exact packFin_val (hval (not_or.2 ⟨h1, h2⟩)).symm fun _ => rfl

/-! ### Quotients and roots -/

theorem divFl_nan {k : ℕ} {a b : Fl} (h : a.isNaN = true ∨ b.isNaN = true) : divFl k a b = (.nan, flagIf (a.sig || b.sig) flagNV) := by
  cases a with
  | nan s => cases b <;> rfl
  | inf n =>
    cases b with
    | nan s => exact congrArg (fun x => (Exact.nan, flagIf x flagNV)) (Bool.or_comm ..)
    | _ => exact absurd (h.resolve_left Bool.false_ne_true) Bool.false_ne_true
  | fin n m e =>
    cases b with
    | nan s => exact congrArg (fun x => (Exact.nan, flagIf x flagNV)) (Bool.or_comm ..)
    | _ => exact absurd (h.resolve_left Bool.false_ne_true) Bool.false_ne_true

/-- The quotient of two encodings of a format with infinities. -/
theorem quotient_spec (hf : hasInf f = true) : let r := finish f rm (divFl ((fmtSpec f).mbits + 4) (decodeFl f x) (decodeFl f y))
    let nan := IsNaN f x ∨ IsNaN f y
    let opposite := fpNeg f x != fpNeg f y
    (nan ∨ IsZero f x ∧ IsZero f y ∨ IsInf f x ∧ IsInf f y → NaNResult f ((IsSig f x ∨ IsSig f y) ∨ ¬nan) r.1 r.2)
      ∧ (¬nan → IsInf f x → ¬IsInf f y → InfResult f opposite r.1 r.2)
      ∧ (¬nan → ¬IsInf f x → ¬IsZero f x → IsZero f y → r.1 = signBit f opposite + fpInfMag f ∧ r.2 = 2)
      ∧ (¬nan → ¬IsInf f x → IsInf f y → r.1 = signBit f opposite ∧ r.2 = 0)
      ∧ (¬nan → ¬IsInf f x → ¬IsInf f y → ¬IsZero f y →
        RoundsIn f rm ((fpValue f x / fpValue f y : ℚ) : ℝ) opposite r.1 r.2) := by
  intro r nan opposite
  have ax := decodeFl_of f x
  have ay := decodeFl_of f y
  have hnx := ax.isNaN_iff
  have hny := ay.isNaN_iff
  have hsx := ax.sig_iff
  have hsy := ay.sig_iff
  have hix := ax.isInf_iff
  have hiy := ay.isInf_iff
  have hzx := ax.isZero_iff
  have hzy := ay.isZero_iff
  by_cases hn : nan
  · refine ⟨fun _ => ?_, fun h => absurd hn h, fun h => absurd hn h, fun h => absurd hn h, fun h => absurd hn h⟩
    have hr : r = packExact f rm (flagIf ((decodeFl f x).sig || (decodeFl f y).sig) flagNV) .nan := by
      show finish f rm (divFl _ (decodeFl f x) (decodeFl f y)) = _
      rw [divFl_nan (by rw [hnx, hny]; exact hn)]
      rfl
    rw [hr]
    exact packExact_nan (by rw [Bool.or_eq_true, hsx, hsy, or_iff_left (not_not.2 hn)])
  · have hx : ¬IsNaN f x := fun h => hn (.inl h)
    have hy : ¬IsNaN f y := fun h => hn (.inr h)
    have hsg : ((decodeFl f x).isNeg != (decodeFl f y).isNeg) = opposite := by rw [ax.isNeg_eq hx, ay.isNeg_eq hy]
    have hvx := ax.val_eq hx
    have hvy := ay.val_eq hy
    have hr : r = finish f rm (divFl ((fmtSpec f).mbits + 4) (decodeFl f x) (decodeFl f y)) := rfl
    have hax := decodeFl_isNaN_false hx
    have hay := decodeFl_isNaN_false hy
    generalize decodeFl f x = a at hr hix hzx hvx hsg hax
    generalize decodeFl f y = b at hr hiy hzy hvy hsg hay
    cases a with
    | nan s => exact absurd hax (Ne.symm Bool.false_ne_true)
    | inf n =>
      have ix : IsInf f x := hix.1 rfl
      cases b with
      | nan s => exact absurd hay (Ne.symm Bool.false_ne_true)
      | inf k =>
        have iy : IsInf f y := hiy.1 rfl
        refine ⟨fun _ => ?_, fun _ _ h => absurd iy h, fun _ h => absurd ix h, fun _ h => absurd ix h, fun _ h => absurd ix h⟩
        rw [hr]
        exact packExact_nan (b := true) (iff_of_true rfl (.inr hn))
      | fin k m e =>
        have iy : ¬IsInf f y := mt hiy.2 Bool.false_ne_true
        have zx : ¬IsZero f x := mt hzx.2 Bool.false_ne_true
        refine ⟨fun h => ?_, fun _ _ _ => ?_, fun _ h => absurd ix h, fun _ h => absurd ix h, fun _ h => absurd ix h⟩
        · exact absurd h (not_or.2 ⟨hn, not_or.2 ⟨fun h => zx h.1, fun h => iy h.2⟩⟩)
        · rw [hr, divFl, finish, packExact_zero, ← hsg]
          exact packInf_result f _
    | fin n m e =>
      have ix : ¬IsInf f x := mt hix.2 Bool.false_ne_true
      cases b with
      | nan s => exact absurd hay (Ne.symm Bool.false_ne_true)
      | inf k =>
        have iy : IsInf f y := hiy.1 rfl
        have zy : ¬IsZero f y := mt hzy.2 Bool.false_ne_true
        refine ⟨fun h => ?_, fun _ h => absurd h ix, fun _ _ _ h => absurd h zy, fun _ _ _ => ?_, fun _ _ h => absurd iy h⟩
        · exact absurd h (not_or.2 ⟨hn, not_or.2 ⟨fun h => zy h.2, fun h => ix h.1⟩⟩)
        · rw [hr, divFl, finish, packExact_zero, ← hsg]
          exact ⟨rfl, rfl⟩
      | fin k m2 e2 =>
        have iy : ¬IsInf f y := mt hiy.2 Bool.false_ne_true
        by_cases h2 : m2 = 0
        · have zy : IsZero f y := hzy.1 (beq_iff_eq.2 h2)
          by_cases h1 : m = 0
          · have zx : IsZero f x := hzx.1 (beq_iff_eq.2 h1)
            refine ⟨fun _ => ?_, fun _ h => absurd h ix, fun _ _ h => absurd zx h, fun _ _ h => absurd h iy, fun _ _ _ h => absurd zy h⟩
            rw [hr, divFl, if_pos h2, if_pos h1]
            exact packExact_nan (b := true) (iff_of_true rfl (.inr hn))
          · have zx : ¬IsZero f x := fun h => h1 (beq_iff_eq.1 (hzx.2 h))
            refine ⟨fun h => ?_, fun _ h => absurd h ix, fun _ _ _ _ => ?_, fun _ _ h => absurd h iy, fun _ _ _ h => absurd zy h⟩
            · exact absurd h (not_or.2 ⟨hn, not_or.2 ⟨fun h => zx h.1, fun h => ix h.1⟩⟩)
            · rw [hr, divFl, if_pos h2, if_neg h1, ← hsg, finish, packExact, packInf, if_pos hf]
              exact ⟨rfl, show (0 : Flags) ||| flagDZ = 2 by decide⟩
        · have zy : ¬IsZero f y := fun h => h2 (beq_iff_eq.1 (hzy.2 h))
          refine ⟨fun h => ?_, fun _ h => absurd h ix, fun _ _ _ h => absurd h zy, fun _ _ h => absurd h iy, fun _ _ _ _ => ?_⟩
          · exact absurd h (not_or.2 ⟨hn, not_or.2 ⟨fun h => zy h.2, fun h => ix h.1⟩⟩)
          · rw [hr, Rat.cast_div, ← hvx ix, ← hvy iy, ← hsg]
            exact divFl_fin h2

theorem root_spec (hf : hasInf f = true) : let r := finish f rm (sqrtFl ((fmtSpec f).mbits + 4) (decodeFl f x))
    (IsNaN f x → NaNResult f (IsSig f x) r.1 r.2)
      ∧ (¬IsNaN f x → ¬IsZero f x → fpNeg f x = true → NaNResult f True r.1 r.2)
      ∧ (IsZero f x → r.1 = signBit f (fpNeg f x) ∧ r.2 = 0)
      ∧ (IsInf f x → fpNeg f x = false → r.1 = signBit f false + fpInfMag f ∧ r.2 = 0)
      ∧ (¬IsNaN f x → ¬IsInf f x → ¬IsZero f x → fpNeg f x = false →
        RoundsIn f rm (Real.sqrt ((fpValue f x : ℚ) : ℝ)) false r.1 r.2) := by
  intro r
  have ax := decodeFl_of f x
  have hnx := ax.isNaN_iff
  have hsx := ax.sig_iff
  have hix := ax.isInf_iff
  have hzx := ax.isZero_iff
  have hneg := ax.isNeg_eq
  have hval := ax.val_eq
  have hr : r = finish f rm (sqrtFl ((fmtSpec f).mbits + 4) (decodeFl f x)) := rfl
  generalize decodeFl f x = a at hr hnx hsx hix hzx hneg hval
  cases a with
  | nan s =>
    have nx : IsNaN f x := hnx.1 rfl
    refine ⟨fun _ => ?_, fun h => absurd nx h, fun h => absurd (hzx.2 h) Bool.false_ne_true, fun h => absurd (hix.2 h) Bool.false_ne_true,
      fun h => absurd nx h⟩
    rw [hr]
    exact packExact_nan hsx
  | inf n =>
    have nx : ¬IsNaN f x := mt hnx.2 Bool.false_ne_true
    have ix : IsInf f x := hix.1 rfl
    have hn : n = fpNeg f x := hneg nx
    refine ⟨fun h => absurd h nx, fun _ _ h => ?_, fun h => absurd (hzx.2 h) Bool.false_ne_true, fun _ h => ?_, fun _ h => absurd ix h⟩
    · rw [hr, hn, h]
      exact packExact_nan (b := true) (iff_of_true rfl trivial)
    · have e : r = packInf f false := by
        rw [hr, hn, h]
        exact packExact_zero _
      rw [e, packInf, if_pos hf]
      exact ⟨rfl, rfl⟩
  | fin n m e =>
    have nx : ¬IsNaN f x := mt hnx.2 Bool.false_ne_true
    have ix : ¬IsInf f x := mt hix.2 Bool.false_ne_true
    have hn : n = fpNeg f x := hneg nx
    by_cases h0 : m = 0
    · have zx : IsZero f x := hzx.1 (beq_iff_eq.2 h0)
      refine ⟨fun h => absurd h nx, fun _ h => absurd zx h, fun _ => ?_, fun h => absurd h ix, fun _ _ h => absurd zx h⟩
      rw [hr, sqrtFl, if_pos h0, finish, packExact_zero, ← hn]
      exact ⟨rfl, rfl⟩
    · have zx : ¬IsZero f x := fun h => h0 (beq_iff_eq.1 (hzx.2 h))
      refine ⟨fun h => absurd h nx, fun _ _ h => ?_, fun h => absurd h zx, fun h => absurd h ix, fun _ _ _ h => ?_⟩
      · rw [hr, sqrtFl, if_neg h0, if_pos (hn.trans h)]
        exact packExact_nan (b := true) (iff_of_true rfl trivial)
      · rw [hr, ← hval nx ix, hn, h]
        exact sqrtFl_fin h0

/-! ### Order, compares and signs -/

theorem flagIf_result {b : Bool} {nv : Prop} (h : b = true ↔ nv) : (nv → flagIf b flagNV = 1) ∧ (¬nv → flagIf b flagNV = 0) := by
  rw [← h]
  cases b <;> decide

theorem sig_or_iff : ((decodeFl f x).sig || (decodeFl f y).sig) = true ↔ IsSig f x ∨ IsSig f y := by
  rw [Bool.or_eq_true, (decodeFl_of f x).sig_iff, (decodeFl_of f y).sig_iff]

theorem nan_or_iff : ((decodeFl f x).isNaN || (decodeFl f y).isNaN) = true ↔ IsNaN f x ∨ IsNaN f y := by
  rw [Bool.or_eq_true, decodeFl_isNaN_iff, decodeFl_isNaN_iff]

/-- minimumNumber and maximumNumber. -/
theorem extreme_spec (top : Bool) : ExtremeIn f top x y (minMaxCode f top x y).1 (minMaxCode f top x y).2 := by
  have hflag : (minMaxCode f top x y).2 = flagIf ((decodeFl f x).sig || (decodeFl f y).sig) flagNV := by
    unfold minMaxCode
    dsimp only
    split_ifs <;> rfl
  refine ⟨fun hx hy => ?_, fun hx hy => ?_, fun hx hy => ?_, fun hx hy => ?_, ?_⟩
  · rw [minMaxCode, decodeFl_isNaN_iff.2 hx, decodeFl_isNaN_iff.2 hy]
    rfl
  · rw [minMaxCode, decodeFl_isNaN_iff.2 hx, decodeFl_isNaN_false hy]
    rfl
  · rw [minMaxCode, decodeFl_isNaN_false hx, decodeFl_isNaN_iff.2 hy]
    rfl
  · have hb := beforeFl_iff hx hy
    have hb' := beforeFl_iff hy hx
    have e : (minMaxCode f top x y).1 = if (if top then beforeFl (decodeFl f x) (decodeFl f y) else beforeFl (decodeFl f y) (decodeFl f x)) then y else x := by
      rw [minMaxCode, decodeFl_isNaN_false hx, decodeFl_isNaN_false hy]
      cases top <;> rfl
    rw [e]
    cases top <;> simp only [Bool.false_eq_true, if_false, if_true, hb, hb']
    · split
      · exact ⟨.inr rfl, by omega⟩
      · exact ⟨.inl rfl, by omega⟩
    · split
      · exact ⟨.inr rfl, by omega⟩
      · exact ⟨.inl rfl, by omega⟩
  · rw [hflag]
    obtain ⟨h1, h2⟩ := flagIf_result (sig_or_iff (f := f) (x := x) (y := y))
    exact ⟨h1, fun hx hy => h2 (not_or.2 ⟨hx, hy⟩)⟩

/-- What a compare gives. -/
theorem truth_spec {t n : Prop} {p b : Bool} (ht : p = true ↔ t) (hn : b = true ↔ n) :
    (t → (if p then 1 else 0 : ℕ) = 1) ∧ (¬t → (if p then 1 else 0 : ℕ) = 0) ∧ (n → flagIf b flagNV = 1) ∧ (¬n → flagIf b flagNV = 0) := by
  refine ⟨fun h => if_pos (ht.2 h), fun h => if_neg (mt ht.1 h), flagIf_result hn⟩

theorem place_eq_iff (hx : x < 2 ^ codeBits f) (hy : y < 2 ^ codeBits f) (nx : ¬IsNaN f x) (ny : ¬IsNaN f y) : place f x = place f y
    ↔ (IsInf f x ∨ IsInf f y) ∧ x = y ∨ ¬IsInf f x ∧ ¬IsInf f y ∧ fpValue f x = fpValue f y := by
  have hval : fpValue f x = fpValue f y ↔ place f x = place f y := by
    rw [place, place, ← fpValue_eq, ← fpValue_eq, Rat.cast_inj]
  by_cases hi : IsInf f x ∨ IsInf f y
  · have hno : ¬(¬IsInf f x ∧ ¬IsInf f y ∧ fpValue f x = fpValue f y) := fun h => hi.elim h.1 h.2.1
    rw [or_iff_left hno, and_iff_right hi]
    refine ⟨fun h => ?_, fun h => by rw [h]⟩
    have hmag : codeMag f (fpMag f x) ≠ 0 ∨ codeMag f (fpMag f y) ≠ 0 := by
      have hpos : fpInfMag f ≠ 0 := by cases f <;> decide
      refine hi.imp (fun h => ?_) fun h => ?_
      · rw [ne_eq, codeMag_eq_zero, h.2]
        exact hpos
      · rw [ne_eq, codeMag_eq_zero, h.2]
        exact hpos
    have h0 := codeMag_nonneg f (fpMag f x)
    have h0' := codeMag_nonneg f (fpMag f y)
    have hsame : fpNeg f x = fpNeg f y ∧ codeMag f (fpMag f x) = codeMag f (fpMag f y) := by
      unfold place at h
      cases hnx : fpNeg f x <;> cases hny : fpNeg f y <;> simp only [hnx, hny, Bool.false_eq_true, if_false, if_true] at h
      · exact ⟨rfl, h⟩
      · exact absurd hmag (not_or.2 ⟨not_not.2 (by linarith), not_not.2 (by linarith)⟩)
      · exact absurd hmag (not_or.2 ⟨not_not.2 (by linarith), not_not.2 (by linarith)⟩)
      · exact ⟨rfl, neg_inj.1 h⟩
    rw [← signBit_add_fpMag hx, ← signBit_add_fpMag hy, hsame.1, (codeMag_strictMono f).injective hsame.2]
  · obtain ⟨ix, iy⟩ := not_or.1 hi
    rw [← hval]
    simp only [ix, iy, false_and, false_or, not_false_eq_true, true_and]

theorem lt_spec : ltFl (decodeFl f x) (decodeFl f y) = true ↔ ¬IsNaN f x ∧ ¬IsNaN f y ∧ place f x < place f y := by
  have hx := (decodeFl_isNaN_iff (f := f) (x := x))
  have hy := (decodeFl_isNaN_iff (f := f) (x := y))
  by_cases nx : IsNaN f x
  · refine iff_of_false ?_ fun h => h.1 nx
    rw [← hx] at nx
    cases hd : decodeFl f x <;> simp_all [Fl.isNaN, ltFl]
  by_cases ny : IsNaN f y
  · refine iff_of_false ?_ fun h => h.2.1 ny
    rw [← hy] at ny
    cases hd : decodeFl f x <;> cases hd' : decodeFl f y <;> simp_all [Fl.isNaN, ltFl]
  · rw [ltFl_iff nx ny, and_iff_right nx, and_iff_right ny]

/-- NEG turns the sign bit. -/
theorem neg_spec (hx : x < 2 ^ codeBits f) :
    let r := if x / 2 ^ (codeBits f - 1) = 1 then x - 2 ^ (codeBits f - 1) else x + 2 ^ (codeBits f - 1)
    fpMag f r = fpMag f x ∧ fpNeg f r = !fpNeg f x ∧ r < 2 ^ codeBits f ∧ (0 : Flags) = 0 := by
  intro r
  have hlt := fpMag_lt f x
  have hr : r = signBit f (!fpNeg f x) + fpMag f x := by
    have e := signBit_add_fpMag hx
    simp only [r]
    conv_lhs => rw [← e, codeBits_sub_one]
    unfold signBit
    have hp := Nat.two_pow_pos ((fmtSpec f).ebits + (fmtSpec f).mbits)
    cases fpNeg f x <;> simp only [Bool.not_false, Bool.not_true, Bool.false_eq_true, if_false, if_true, Nat.zero_add]
    · rw [Nat.div_eq_of_lt hlt, if_neg (by decide), Nat.add_comm]
    · rw [Nat.add_div_left _ hp, Nat.div_eq_of_lt hlt, if_pos rfl, Nat.add_sub_cancel_left]
  rw [hr, fpMag_signBit_add hlt, fpNeg_signBit_add hlt]
  refine ⟨rfl, rfl, ?_, rfl⟩
  have hs : signBit f (!fpNeg f x) ≤ 2 ^ ((fmtSpec f).ebits + (fmtSpec f).mbits) := by
    unfold signBit
    split
    · exact le_rfl
    · exact Nat.zero_le _
  rw [two_pow_codeBits, codeBits_sub_one]
  omega

end

/-! ### The elements -/

/-- R105, R106, R107, R163, R164: an element's result is the rule's. -/
theorem elementRule_fpElem (f : FpFmt) (o : FpOp) (rm : BitVec 2) (x y z : ℕ) : ElementRule f o rm (x % 2 ^ codeBits f) (y % 2 ^ codeBits f)
    (z % 2 ^ codeBits f) (fpElem f o rm x y z).1 (fpElem f o rm x y z).2 := by
  have hx : x % 2 ^ codeBits f < 2 ^ codeBits f := Nat.mod_lt _ (Nat.two_pow_pos _)
  have hy : y % 2 ^ codeBits f < 2 ^ codeBits f := Nat.mod_lt _ (Nat.two_pow_pos _)
  unfold fpElem
  dsimp only
  generalize x % 2 ^ codeBits f = x at hx ⊢
  generalize y % 2 ^ codeBits f = y at hy ⊢
  generalize z % 2 ^ codeBits f = z
  cases o with
  | add => exact ⟨fun h => sum_nan (b := false) h, fun h => (sum_sumIn (b := false) (not_or.1 h).1 (not_or.1 h).2).congr rfl Iff.rfl (fun _ => rfl)
      (Bool.bne_false _) Iff.rfl fun _ => rfl⟩
  | sub => exact ⟨fun h => sum_nan (b := true) h, fun h => (sum_sumIn (b := true) (not_or.1 h).1 (not_or.1 h).2).congr rfl Iff.rfl (fun _ => rfl)
      (Bool.bne_true _) Iff.rfl fun _ => (Rat.cast_neg _).symm⟩
  | mul => exact product_spec
  | fma => exact fused_spec (b := false) (c := false)
  | fms => exact fused_spec (b := false) (c := true)
  | fnma => exact fused_spec (b := true) (c := false)
  | min => exact extreme_spec false
  | max => exact extreme_spec true
  | div => exact quotient_spec
  | sqrt =>
    intro hf
    obtain ⟨h1, h2, h3, h4, h5⟩ := root_spec (f := f) (rm := rm) (x := x) hf
    refine ⟨h1, h2, fun h => ?_, fun hi hn => ?_, h5⟩
    · have e := signBit_add_fpMag hx
      rw [show fpMag f x = 0 from h, Nat.add_zero] at e
      exact ⟨(h3 h).1.trans e, (h3 h).2⟩
    · have e := signBit_add_fpMag hx
      rw [hi.2, hn] at e
      exact ⟨(h4 hi hn).1.trans e, (h4 hi hn).2⟩
  | abs => exact ⟨rfl, rfl⟩
  | neg => exact neg_spec hx
  | cmpeq =>
    refine truth_spec ?_ sig_or_iff
    refine eqFl_iff.trans ⟨fun ⟨nx, ny, h⟩ => ⟨not_or.2 ⟨nx, ny⟩, (place_eq_iff hx hy nx ny).1 h⟩, fun ⟨h, he⟩ => ?_⟩
    obtain ⟨nx, ny⟩ := not_or.1 h
    exact ⟨nx, ny, (place_eq_iff hx hy nx ny).2 he⟩
  | cmplt =>
    refine truth_spec ?_ nan_or_iff
    refine lt_spec.trans ?_
    rw [place_lt_iff, not_or, and_assoc]
  | cmple =>
    refine truth_spec ?_ nan_or_iff
    have hnan : (!((decodeFl f x).isNaN || (decodeFl f y).isNaN)) = true ↔ ¬(IsNaN f x ∨ IsNaN f y) := by
      rw [Bool.not_eq_true', ← Bool.not_eq_true, nan_or_iff]
    have hlt : (!ltFl (decodeFl f y) (decodeFl f x)) = true ↔ ¬(¬IsNaN f y ∧ ¬IsNaN f x ∧ place f y < place f x) := by
      rw [Bool.not_eq_true', ← Bool.not_eq_true, lt_spec]
    refine (Bool.and_eq_true_iff.trans (and_congr hnan hlt)).trans (and_congr_right fun h => ?_)
    obtain ⟨nx, ny⟩ := not_or.1 h
    rw [and_iff_right ny, and_iff_right nx, place_lt_iff, not_and_or, not_lt, not_not, and_comm (a := IsZero f y)]
  | cmpun => exact truth_spec nan_or_iff sig_or_iff

end Sys2Proof.Machine
end

section
/-! PROOF. The floating operations of the vector unit (R161, R163, R164). -/

namespace Sys2Proof.Machine

/-! ### Encodings keep to their bits -/

theorem signBit_le (f : FpFmt) (g : Bool) : signBit f g ≤ 2 ^ (codeBits f - 1) := by
  rw [codeBits_sub_one]
  unfold signBit
  split
  · exact le_rfl
  · exact Nat.zero_le _

theorem signBit_add_lt_codeBits {f : FpFmt} {g : Bool} {c : ℕ} (h : c < 2 ^ (codeBits f - 1)) : signBit f g + c < 2 ^ codeBits f := by
  have := signBit_le f g
  rw [two_pow_codeBits]
  omega

theorem maxFiniteCode_lt_sign (f : FpFmt) : maxFiniteCode f < 2 ^ (codeBits f - 1) := by
  rw [codeBits_sub_one]
  exact maxFiniteCode_lt f

theorem fpInfMag_lt (f : FpFmt) : (2 ^ (fmtSpec f).ebits - 1) * 2 ^ (fmtSpec f).mbits < 2 ^ (codeBits f - 1) := by
  cases f <;> decide

theorem canonicalNaN_lt (f : FpFmt) : canonicalNaN f < 2 ^ codeBits f := by cases f <;> decide

theorem codeBits_le_elemBits (f : FpFmt) : codeBits f ≤ elemBits f := by cases f <;> decide

theorem Rounded.lt {f : FpFmt} {rm : BitVec 2} {g : Bool} {x : ℝ} {r : ℕ} {fl : Flags} (h : Rounded f rm g x r fl) : r < 2 ^ codeBits f := by
  unfold Rounded at h
  dsimp only at h
  split at h
  · rw [h.1]
    exact signBit_add_lt_codeBits (c := 0) (Nat.two_pow_pos _)
  · obtain ⟨e, q, k, k0, _, _, _, _, _, h⟩ := h
    split at h
    · rw [h.2]
      split
      · exact signBit_add_lt_codeBits (fpInfMag_lt f)
      · exact signBit_add_lt_codeBits (maxFiniteCode_lt_sign f)
    · exact h.2.1

/-- Something below the last bit, or nothing. -/
theorem Approx.exists (m : ℕ) (e : ℤ) (sticky : Bool) : ∃ x, Approx m e sticky x := by
  cases sticky
  · exact ⟨_, .exact m e⟩
  · have h := two_zpow_pos e
    exact ⟨((m : ℝ) + 1 / 2) * (2 : ℝ) ^ e, by nlinarith, by nlinarith, iff_of_true rfl (by nlinarith)⟩

theorem packFin_lt {f : FpFmt} {rm : BitVec 2} {g sticky : Bool} {m : ℕ} {e : ℤ} (h : sticky = true → 2 ^ ((fmtSpec f).mbits + 2) ≤ m) :
    (packFin f rm g m e sticky).1 < 2 ^ codeBits f := by
  obtain ⟨x, hx⟩ := Approx.exists m e sticky
  exact (packFin_rounded hx h).lt

theorem packInf_lt (f : FpFmt) (g : Bool) : (packInf f g).1 < 2 ^ codeBits f := by
  unfold packInf
  split
  · exact signBit_add_lt_codeBits (fpInfMag_lt f)
  · exact signBit_add_lt_codeBits (maxFiniteCode_lt_sign f)

/-- An exact result has digits enough for its one rounding. -/
def Exact.Fits (f : FpFmt) : Exact → Prop
  | .num _ m _ sticky => sticky = true → 2 ^ ((fmtSpec f).mbits + 2) ≤ m
  | _ => True

theorem finish_lt {f : FpFmt} {rm : BitVec 2} {r : Exact × Flags} (h : r.1.Fits f) : (finish f rm r).1 < 2 ^ codeBits f := by
  obtain ⟨e, fl⟩ := r
  cases e with
  | nan => exact canonicalNaN_lt f
  | inf g => exact packInf_lt f g
  | num g m e st => exact packFin_lt h

section
variable (f : FpFmt) (rm : BitVec 2) (a b c : Fl)

theorem sumFin_fits (n1 : Bool) (m1 : ℕ) (e1 : ℤ) (n2 : Bool) (m2 : ℕ) (e2 : ℤ) : (sumFin rm n1 m1 e1 n2 m2 e2).Fits f := by
  obtain ⟨g, m, e, h, _⟩ := sumFin_spec rm n1 m1 e1 n2 m2 e2
  rw [h]
  exact fun h => absurd h Bool.false_ne_true

theorem addFl_fits : (addFl rm a b).1.Fits f := by
  cases a with
  | nan s => cases b <;> trivial
  | inf n =>
    cases b with
    | inf k =>
      unfold addFl
      dsimp only
      split <;> trivial
    | _ => trivial
  | fin n m e =>
    cases b with
    | fin k m2 e2 => exact sumFin_fits ..
    | _ => trivial

theorem mulFl_fits : (mulFl a b).1.Fits f := by
  unfold mulFl
  split
  · trivial
  · trivial
  · trivial
  · exact fun h => absurd h Bool.false_ne_true

theorem fmaFl_fits : (fmaFl rm a b c).1.Fits f := by
  unfold fmaFl
  split
  · trivial
  · exact addFl_fits ..

theorem divFl_fits : (divFl ((fmtSpec f).mbits + 4) a b).1.Fits f := by
  cases a with
  | nan s => cases b <;> trivial
  | inf n => cases b <;> trivial
  | fin n m e =>
    cases b with
    | nan s => trivial
    | inf k => exact fun h => absurd h Bool.false_ne_true
    | fin k m2 e2 =>
      unfold divFl
      dsimp only
      split
      · split <;> trivial
      next h2 =>
        intro hs
        have h1 : m ≠ 0 := by
          rintro rfl
          rw [Nat.zero_mul, Nat.zero_mod] at hs
          exact absurd hs (by decide)
        exact (Nat.pow_le_pow_right (by decide) (by omega)).trans (quotient_digits h1 h2)

theorem sqrtFl_fits : (sqrtFl ((fmtSpec f).mbits + 4) a).1.Fits f := by
  cases a with
  | nan s => trivial
  | inf n => cases n <;> trivial
  | fin n m e =>
    unfold sqrtFl
    dsimp only
    split
    · exact fun h => absurd h Bool.false_ne_true
    next h0 =>
      split
      · trivial
      · exact fun _ => (Nat.pow_le_pow_right (by decide) (by omega)).trans
          (root_digits (k := (fmtSpec f).mbits + 4) h0 (Nat.le_add_right _ _))

end

theorem minMaxCode_lt {f : FpFmt} {top : Bool} {x y : ℕ} (hx : x < 2 ^ codeBits f) (hy : y < 2 ^ codeBits f) :
    (minMaxCode f top x y).1 < 2 ^ codeBits f := by
  have hn := canonicalNaN_lt f
  unfold minMaxCode
  dsimp only
  split_ifs <;> assumption

/-- An element keeps to the bits of its format. -/
theorem fpElem_lt (f : FpFmt) (o : FpOp) (rm : BitVec 2) (x y z : ℕ) : (fpElem f o rm x y z).1 < 2 ^ codeBits f := by
  have hx : x % 2 ^ codeBits f < 2 ^ codeBits f := Nat.mod_lt _ (Nat.two_pow_pos _)
  have hy : y % 2 ^ codeBits f < 2 ^ codeBits f := Nat.mod_lt _ (Nat.two_pow_pos _)
  have htruth (b : Bool) : (if b then 1 else 0 : ℕ) < 2 ^ codeBits f := by
    have : 2 ≤ 2 ^ codeBits f := by cases f <;> decide
    split <;> omega
  cases o with
  | add => exact finish_lt (addFl_fits ..)
  | sub => exact finish_lt (addFl_fits ..)
  | mul => exact finish_lt (mulFl_fits ..)
  | fma => exact finish_lt (fmaFl_fits ..)
  | fms => exact finish_lt (fmaFl_fits ..)
  | fnma => exact finish_lt (fmaFl_fits ..)
  | min => exact minMaxCode_lt hx hy
  | max => exact minMaxCode_lt hx hy
  | div => exact finish_lt (divFl_fits ..)
  | sqrt => exact finish_lt (sqrtFl_fits ..)
  | abs => exact (Nat.mod_le _ _).trans_lt hx
  | neg => exact (neg_spec hx).2.2.1
  | _ => exact htruth _

/-! ### The lanes -/

theorem zipLanes_lanes (w : Nat) (u v x : Vec) : zipLanes (lanes w u) (lanes w v) (lanes w x)
    = (List.range (2048 / w)).map fun i => ((lane w u i).toNat, (lane w v i).toNat, (lane w x i).toNat) := by
  rw [zipLanes, lanes_zip_lanes]
  exact List.zip_map' ..

/-- The flags of lanes ORed. -/
theorem foldl_or_getLsbD (j : ℕ) : ∀ (l : List (Nat × Flags)) (fl : Flags),
    (l.foldl (fun fl r => fl ||| r.2) fl).getLsbD j = true ↔ fl.getLsbD j = true ∨ ∃ r ∈ l, r.2.getLsbD j = true
  | [], fl => by simp
  | r :: l, fl => by
    rw [List.foldl_cons, foldl_or_getLsbD j l, BitVec.getLsbD_or, Bool.or_eq_true, List.exists_mem_cons_iff, or_assoc]

theorem gatherLanes_getLsbD {w j : ℕ} (r : ℕ → ℕ × Flags) : (gatherLanes w ((List.range (2048 / w)).map r)).2.getLsbD j = true
    ↔ ∃ i, i < 2048 / w ∧ (r i).2.getLsbD j = true := by
  rw [gatherLanes, foldl_or_getLsbD]
  simp

theorem flags_eq_zero {fl : Flags} (h : ∀ j, fl.getLsbD j = false) : fl = 0 :=
  BitVec.eq_of_getLsbD_eq fun j _ => (h j).trans BitVec.getLsbD_zero.symm

/-- What a floating operation leaves in a lane: its element, or all ones or zeros for a compare (R164). -/
def fpLane (o : FpOp) (w : ℕ) (x : ℕ × Flags) : ℕ × Flags := if fpCompares o then (if x.1 = 1 then 2 ^ w - 1 else 0, x.2) else x

/-- What a floating operation pushes: each lane by itself, and the ORed flags. -/
theorem vectorFp_eq (o : FpOp) (e : FpFmt) (rm : BitVec 2) (a b c : Val) : vectorFp o e rm a b c =
    let w := elemBits e
    let g := gatherLanes w ((List.range (2048 / w)).map fun i => fpLane o w (fpElem e o rm (lane w (a.lanes w) i).toNat
      (lane w (b.lanes w) i).toNat (lane w (c.lanes w) i).toNat))
    ⟨BitVec.ofNat 5 (if fpCompares o then uintTag w else e.code), g.1, g.2⟩ := by
  simp only [vectorFp, zipLanes_lanes, List.map_map, Function.comp_def]
  rfl

section
variable {o : FpOp} {w : ℕ} {elem : ℕ → ℕ × Flags}

theorem fpLanes_compare {i : ℕ} (ho : fpCompares o = true) (hi : i < 2048 / w) :
    lane w (gatherLanes w ((List.range (2048 / w)).map fun i => fpLane o w (elem i))).1 i
      = if (elem i).1 = 1 then BitVec.allOnes w else 0 := by
  rw [lane_gatherLanes _ hi, fpLane, if_pos ho]
  exact ofNat_ones_ite _

theorem fpLanes_plain {i : ℕ} (ho : fpCompares o = false) (hi : i < 2048 / w) (hlt : (elem i).1 < 2 ^ w) :
    (lane w (gatherLanes w ((List.range (2048 / w)).map fun i => fpLane o w (elem i))).1 i).toNat = (elem i).1 := by
  rw [lane_gatherLanes _ hi, fpLane, ho, if_neg Bool.false_ne_true, BitVec.toNat_ofNat, Nat.mod_eq_of_lt hlt]

theorem fpLanes_flags {j : ℕ} : (gatherLanes w ((List.range (2048 / w)).map fun i => fpLane o w (elem i))).2.getLsbD j = true
    ↔ ∃ i, i < 2048 / w ∧ (elem i).2.getLsbD j = true := by
  have hflag (x : ℕ × Flags) : (fpLane o w x).2 = x.2 := by
    unfold fpLane
    split <;> rfl
  simp only [gatherLanes_getLsbD, hflag]

theorem fpLanes_no_flags (h : ∀ i, (elem i).2 = 0) : (gatherLanes w ((List.range (2048 / w)).map fun i => fpLane o w (elem i))).2 = 0 := by
  refine flags_eq_zero fun j => Bool.eq_false_iff.2 fun hj => ?_
  obtain ⟨i, _, hi⟩ := fpLanes_flags.1 hj
  rw [h i] at hi
  exact absurd (hi.symm.trans BitVec.getLsbD_zero) (Ne.symm Bool.false_ne_true)

end

/-- Settles O18. -/
theorem vectorFloatingResults : Obligations.VectorFloatingResults := by
  intro o h e a s f x k held hr ht hw hf w elem compares
  have hexec := exec_vectorInstr_of_takes (p := vectorFp o e (fpstRm f.t.snap.ctx.fpst) x.a.value x.b.value x.c.value) hr ht hw hf (fun _ => rfl)
    fun _ => rfl
  have hcomp : compares = fpCompares o := by cases o <;> rfl
  have hlat : vectorLatency (.fp o e) = if o = .div ∨ o = .sqrt then (if e = .f64 then 20 else 12) else 4 := by
    cases o <;> cases e <;> rfl
  have htag : (BitVec.ofNat 5 (if fpCompares o then uintTag w else e.code)).toNat = if fpCompares o then uintTag w else e.code := by
    have h1 : uintTag w < 2 ^ 5 := by cases e <;> decide
    have h2 : e.code < 2 ^ 5 := by cases e <;> decide
    rw [BitVec.toNat_ofNat]
    split
    · exact Nat.mod_eq_of_lt h1
    · exact Nat.mod_eq_of_lt h2
  have hrule (i : ℕ) := elementRule_fpElem e o (fpstRm f.t.snap.ctx.fpst) (lane w (x.a.value.lanes w) i).toNat
    (lane w (x.b.value.lanes w) i).toNat (lane w (x.c.value.lanes w) i).toNat
  have hw : codeBits e ≤ w := codeBits_le_elemBits e
  have hlt (i : ℕ) : (elem i).1 < 2 ^ w := (fpElem_lt e o _ _ _ _).trans_le (Nat.pow_le_pow_right (by decide) hw)
  rw [hlat, vectorFp_eq] at hexec
  rw [hcomp]
  refine ⟨_, _, _, hexec, htag, fun i hi => ?_, fun j => fpLanes_flags, fun i _ => hrule i, ?_, ?_⟩
  · split
    next ho => exact fpLanes_compare ho hi
    next ho => exact fpLanes_plain (Bool.eq_false_iff.2 ho) hi (hlt i)
  · rintro rfl
    refine ⟨fpLanes_no_flags fun i => rfl, fun i hi => (fpLanes_plain rfl hi (hlt i)).trans ?_⟩
    exact Nat.mod_mod_of_dvd _ (Nat.pow_dvd_pow 2 (Nat.sub_le _ 1))
  · rintro rfl
    refine ⟨fpLanes_no_flags fun i => rfl, fun i hi => ?_⟩
    obtain ⟨hmag, hneg, _⟩ := hrule i
    have hplain := fpLanes_plain (o := .neg) rfl hi (hlt i)
    have hpos : codeBits e - 1 < codeBits e := by rw [codeBits_sub_one, codeBits]; omega
    rw [BitVec.getLsbD, BitVec.getLsbD, hplain]
    refine ⟨hmag.trans (Nat.mod_mod_of_dvd _ (Nat.pow_dvd_pow 2 (Nat.sub_le _ 1))), hneg.trans (congrArg Bool.not ?_)⟩
    rw [fpNeg, Nat.testBit_mod_two_pow, decide_eq_true hpos, Bool.true_and]

end Sys2Proof.Machine
end

section
/-! PROOF. The FP64 operations of the scalar unit (R105, R109, R122, R126, R127). -/

namespace Sys2Proof.Machine

/-! ### FP64 words as encodings of the format -/

theorem fpMag_f64 (n : ℕ) : fpMag .f64 n = n % 2 ^ 63 := rfl

theorem fpNeg_f64 (w : Word) : fpNeg .f64 w.toNat = w.getLsbD 63 := rfl

theorem isInf64_iff (w : Word) : IsInf64 w ↔ IsInf .f64 w.toNat := ⟨fun h => ⟨rfl, h⟩, fun h => h.2⟩

theorem isSig64_iff (w : Word) : IsSig64 w ↔ IsSig .f64 w.toNat := ⟨fun h => ⟨by decide, h.1, h.2⟩, fun h => ⟨h.2.1, h.2.2⟩⟩

theorem value64_eq (w : Word) : value64 w = fpValue .f64 w.toNat := by
  unfold value64 fpValue
  dsimp only
  rw [fpNeg_f64]
  have e : (if w.toNat / 2 ^ 52 % 2 ^ 11 = 0 then (-1074 : ℤ) else ((w.toNat / 2 ^ 52 % 2 ^ 11 : ℕ) : ℤ) - 1075)
      = (if w.toNat / 2 ^ 52 % 2 ^ 11 = 0 then 1 else ((w.toNat / 2 ^ 52 % 2 ^ 11 : ℕ) : ℤ)) - (1023 : ℕ) - (52 : ℕ) := by
    split <;> omega
  rw [e]
  rfl

theorem order64_eq (w : Word) : order64 w = if fpNeg .f64 w.toNat then -(fpMag .f64 w.toNat : ℤ) else fpMag .f64 w.toNat := by
  rw [order64, fpNeg_f64, fpMag_f64]

/-- The numbers' places are ordered as the numbers are. -/
theorem place64_lt (a b : Word) : place .f64 a.toNat < place .f64 b.toNat ↔ order64 a < order64 b := by
  rw [place_lt_iff, order64_eq, order64_eq]
  unfold fpRank IsZero
  cases fpNeg .f64 a.toNat <;> cases fpNeg .f64 b.toNat <;> simp only [Bool.false_eq_true, if_false, if_true] <;> omega

theorem place64_eq (a b : Word) : place .f64 a.toNat = place .f64 b.toNat ↔ order64 a = order64 b := by
  have h1 := place64_lt a b
  have h2 := place64_lt b a
  constructor
  · intro h
    rw [h, lt_self_iff_false, false_iff] at h1
    rw [h, lt_self_iff_false, false_iff] at h2
    omega
  · intro h
    rw [h, lt_self_iff_false, iff_false, not_lt] at h1
    rw [h, lt_self_iff_false, iff_false, not_lt] at h2
    exact le_antisymm h2 h1

theorem word_of_parts {r : Word} {g : Bool} {c : ℕ} (hc : c < 2 ^ 63) (h : r.toNat = signBit .f64 g + c) :
    r.toNat % 2 ^ 63 = c ∧ r.getLsbD 63 = g := by
  rw [← fpMag_f64, ← fpNeg_f64, h]
  exact ⟨fpMag_signBit_add hc, fpNeg_signBit_add hc⟩

theorem word_eq_of_parts {r a : Word} (hm : r.toNat % 2 ^ 63 = a.toNat % 2 ^ 63) (hn : r.getLsbD 63 = a.getLsbD 63) : r = a := by
  refine BitVec.eq_of_toNat_eq ?_
  rw [← signBit_add_fpMag (f := .f64) r.isLt, ← signBit_add_fpMag (f := .f64) a.isLt, fpNeg_f64, fpNeg_f64, fpMag_f64, fpMag_f64, hm, hn]

/-! ### The kinds of result -/

section
variable {r a b c : Word} {fl : Flags} {rm : BitVec 2}

theorem nan64 {p q : Prop} [Decidable q] (h : NaNResult .f64 p r.toNat fl) (hpq : p ↔ q) : r = canonical64 ∧ fl = if q then 1 else 0 := by
  obtain ⟨h1, h2, h3⟩ := h
  refine ⟨BitVec.eq_of_toNat_eq h1, ?_⟩
  split
  next hq => exact h2 (.inl (hpq.2 hq))
  next hq => exact h3 (mt hpq.1 hq) ((exists_isNaN_iff .f64).2 (by decide))

theorem inf64 {g : Bool} (h : InfResult .f64 g r.toNat fl) : IsInf64 r ∧ r.getLsbD 63 = g ∧ fl = 0 := by
  have h : r.toNat = signBit .f64 g + fpInfMag .f64 ∧ fl = 0 := h
  obtain ⟨hm, hn⟩ := word_of_parts (by decide) h.1
  exact ⟨hm, hn, h.2⟩

/-- An infinity of an operand's sign is that operand. -/
theorem inf64_self (h : InfResult .f64 (a.getLsbD 63) r.toNat fl) (ha : IsInf64 a) : r = a ∧ fl = 0 := by
  obtain ⟨hi, hn, hfl⟩ := inf64 h
  exact ⟨word_eq_of_parts (hi.trans ha.symm) hn, hfl⟩

theorem rounds64 {x y : ℝ} {z z' : Bool} (h : RoundsIn .f64 rm x z r.toNat fl) (hx : x = y) (hz : z = z') : Rounds64 rm y z' r fl := by
  subst hx hz
  obtain ⟨h1, h2, h3⟩ := h
  refine ⟨h1, h2, fun h0 => ?_⟩
  obtain ⟨hr, hfl⟩ := h3 h0
  obtain ⟨hm, hn⟩ := word_of_parts (c := 0) (by decide) (hr.trans (Nat.add_zero _).symm)
  exact ⟨hm, hn, hfl⟩

theorem sum64 {minus : Bool} {v : ℝ} (h : SumIn .f64 rm (a.getLsbD 63) (IsInf64 a) ((value64 a : ℚ) : ℝ) (b.getLsbD 63 != minus) (IsInf64 b) v r.toNat fl)
    (hv : v = (((if minus then -value64 b else value64 b) : ℚ) : ℝ)) : Sum64 rm minus a b r fl := by
  obtain ⟨h1, h2, h3, h4⟩ := h
  refine ⟨fun ha hb => ?_, fun ha hb => inf64_self (h2 ha hb) ha, fun ha hb => inf64 (h3 ha hb), fun ha hb => ?_⟩
  · have h := h1 ha hb
    split at h
    next hs =>
      rw [if_pos hs]
      exact inf64_self h ha
    next hs =>
      rw [if_neg hs]
      exact nan64 h (iff_of_true trivial trivial)
  · refine rounds64 (h4 ha hb) (by rw [hv, ← Rat.cast_add]) ?_
    split
    next hs => exact hs
    next hs => rfl

theorem sig_or64 : IsSig .f64 a.toNat ∨ IsSig .f64 b.toNat ↔ IsSig64 a ∨ IsSig64 b := by
  rw [isSig64_iff, isSig64_iff]

theorem invalid64 : Invalid .f64 a.toNat b.toNat ↔ IsInf64 a ∧ IsZero64 b ∨ IsZero64 a ∧ IsInf64 b := by
  rw [Invalid, isInf64_iff, isInf64_iff]
  rfl

/-! ### The operations of the format -/

/-- Sums and differences. -/
theorem sum64_rule {n minus : Bool} (hn : n = (b.getLsbD 63 != minus)) (h : (IsNaN .f64 a.toNat ∨ IsNaN .f64 b.toNat →
      NaNResult .f64 (IsSig .f64 a.toNat ∨ IsSig .f64 b.toNat) r.toNat fl) ∧ (¬(IsNaN .f64 a.toNat ∨ IsNaN .f64 b.toNat) →
      SumIn .f64 rm (fpNeg .f64 a.toNat) (IsInf .f64 a.toNat) ((fpValue .f64 a.toNat : ℚ) : ℝ) n (IsInf .f64 b.toNat)
        (((if minus then -fpValue .f64 b.toNat else fpValue .f64 b.toNat) : ℚ) : ℝ) r.toNat fl)) :
    (IsNaN64 a ∨ IsNaN64 b → r = canonical64 ∧ fl = if IsSig64 a ∨ IsSig64 b then 1 else 0)
      ∧ (¬IsNaN64 a → ¬IsNaN64 b → Sum64 rm minus a b r fl) := by
  obtain ⟨h1, h2⟩ := h
  refine ⟨fun h => nan64 (h1 h) sig_or64, fun ha hb => sum64 ((h2 (not_or.2 ⟨ha, hb⟩)).congr rfl (isInf64_iff a).symm (fun _ => ?_) hn
    (isInf64_iff b).symm fun _ => rfl) ?_⟩
  · rw [value64_eq]
  · rw [value64_eq]

theorem fmul64_rule (h : ElementRule .f64 .mul rm a.toNat b.toNat c.toNat r.toNat fl) : Fp64Rule .fmul rm a b c r fl := by
  obtain ⟨h1, h2, h3⟩ := h
  have hno (h : IsInf64 a ∧ IsZero64 b ∨ IsZero64 a ∧ IsInf64 b) : ¬(IsNaN64 a ∨ IsNaN64 b) := fun hn =>
    hn.elim (invalid64.2 h).not_nan.1 (invalid64.2 h).not_nan.2
  refine ⟨fun hn => nan64 (h1 (.inl hn)) ?_, fun hi => ?_, fun ha hb hi za zb => inf64 (h2 (not_or.2 ⟨ha, hb⟩) ?_ ?_), fun ha hb ia ib => ?_⟩
  · rw [sig_or64]
    exact or_iff_left fun h => hno (invalid64.1 h) hn
  · exact nan64 (q := True) (h1 (.inr (invalid64.2 hi))) (iff_of_true (.inr (invalid64.2 hi)) trivial)
  · rintro (⟨_, h⟩ | ⟨h, _⟩)
    · exact zb h
    · exact za h
  · rw [← isInf64_iff, ← isInf64_iff]
    exact hi
  · refine rounds64 (h3 (not_or.2 ⟨ha, hb⟩) (mt (isInf64_iff a).2 ia) (mt (isInf64_iff b).2 ib)) ?_ rfl
    rw [value64_eq, value64_eq]

theorem fdiv64_rule (h : ElementRule .f64 .div rm a.toNat b.toNat c.toNat r.toNat fl) : Fp64Rule .fdiv rm a b c r fl := by
  obtain ⟨h1, h2, h3, h4, h5⟩ := h rfl
  rw [← isInf64_iff, ← isInf64_iff] at h1 h2
  rw [← isInf64_iff] at h3
  rw [← isInf64_iff, ← isInf64_iff] at h4 h5
  refine ⟨fun hn => nan64 (h1 (.inl hn)) ?_, fun na ia za zb => ?_, fun hi => ?_, fun ia nb ib => ?_, fun na ia ib => ?_,
    fun na nb ia ib zb => ?_⟩
  · rw [sig_or64]
    exact or_iff_left (not_not.2 hn)
  · have nb : ¬IsNaN64 b := fun h => by
      have hb : b.toNat % 2 ^ 63 = 0 := zb
      rw [IsNaN64, hb] at h
      exact absurd h (by decide)
    obtain ⟨hr, hfl⟩ := h3 (not_or.2 ⟨na, nb⟩) ia za zb
    obtain ⟨hm, hs⟩ := word_of_parts (by decide) hr
    exact ⟨hm, hs, hfl⟩
  · have hn : ¬(IsNaN64 a ∨ IsNaN64 b) := by
      unfold IsNaN64
      unfold IsZero64 IsInf64 at hi
      omega
    exact nan64 (q := True) (h1 (.inr hi)) (iff_of_true (.inr hn) trivial)
  · have na : ¬IsNaN64 a := by
      unfold IsNaN64
      unfold IsInf64 at ia
      omega
    exact inf64 (h2 (not_or.2 ⟨na, nb⟩) ia ib)
  · have nb : ¬IsNaN64 b := by
      unfold IsNaN64
      unfold IsInf64 at ib
      omega
    obtain ⟨hr, hfl⟩ := h4 (not_or.2 ⟨na, nb⟩) ia ib
    obtain ⟨hm, hs⟩ := word_of_parts (c := 0) (by decide) hr
    exact ⟨hm, hs, hfl⟩
  · refine rounds64 (h5 (not_or.2 ⟨na, nb⟩) ia ib zb) ?_ rfl
    rw [value64_eq, value64_eq]

theorem ffma64_rule (h : ElementRule .f64 .fma rm a.toNat b.toNat c.toNat r.toNat fl) : Fp64Rule .ffma rm a b c r fl := by
  obtain ⟨h1, h2⟩ := h
  have hinv : IsInf64 a ∧ IsZero64 b ∨ IsZero64 a ∧ IsInf64 b → Invalid .f64 a.toNat b.toNat := invalid64.2
  have hsum (na : ¬IsNaN64 a) (nb : ¬IsNaN64 b) (nc : ¬IsNaN64 c) (ni : ¬Invalid .f64 a.toNat b.toNat) :
      SumIn .f64 rm (a.getLsbD 63 != b.getLsbD 63) (IsInf64 a ∨ IsInf64 b) ((value64 a * value64 b : ℚ) : ℝ) (c.getLsbD 63) (IsInf64 c)
        ((value64 c : ℚ) : ℝ) r.toNat fl := by
    rw [value64_eq, value64_eq, value64_eq]
    exact (h2 na nb nc ni).congr (Bool.bne_false _) (or_congr (isInf64_iff a).symm (isInf64_iff b).symm) (fun _ => rfl) (Bool.bne_false _)
      (isInf64_iff c).symm fun _ => rfl
  refine ⟨fun hn => nan64 (h1 ?_) ?_, fun hi => ?_, fun na nb nc hi za zb => ?_, fun na nb ia ib ic => ?_, fun na nb nc ia ib ic => ?_⟩
  · rcases hn with hn | hn | hn
    · exact .inl hn
    · exact .inr (.inl hn)
    · exact .inr (.inr (.inl hn))
  · rw [isSig64_iff, isSig64_iff, isSig64_iff, isInf64_iff, isInf64_iff]
    rfl
  · exact nan64 (q := True) (h1 (.inr (.inr (.inr (hinv hi))))) (iff_of_true (.inr (.inr (.inr (hinv hi)))) trivial)
  · have ni : ¬Invalid .f64 a.toNat b.toNat := by
      rintro (⟨_, h⟩ | ⟨h, _⟩)
      · exact zb h
      · exact za h
    obtain ⟨s1, s2, _, _⟩ := hsum na nb nc ni
    split
    next h =>
      have s := s1 hi h.1
      rw [if_neg (Ne.symm h.2)] at s
      exact nan64 (q := True) s Iff.rfl
    next h =>
      by_cases ic : IsInf64 c
      · have s := s1 hi ic
        rw [if_pos (by by_contra hne; exact h ⟨ic, Ne.symm hne⟩)] at s
        exact inf64 s
      · exact inf64 (s2 hi ic)
  · have nc : ¬IsNaN64 c := by
      unfold IsNaN64
      unfold IsInf64 at ic
      omega
    have ni : ¬Invalid .f64 a.toNat b.toNat := fun h => (invalid64.1 h).elim (fun h => ia h.1) fun h => ib h.2
    obtain ⟨_, _, s3, _⟩ := hsum na nb nc ni
    exact inf64_self (s3 (not_or.2 ⟨ia, ib⟩) ic) ic
  · have ni : ¬Invalid .f64 a.toNat b.toNat := fun h => (invalid64.1 h).elim (fun h => ia h.1) fun h => ib h.2
    obtain ⟨_, _, _, s4⟩ := hsum na nb nc ni
    exact rounds64 (s4 (not_or.2 ⟨ia, ib⟩) ic) (Rat.cast_add ..).symm rfl

theorem fsqrt64_rule (h : ElementRule .f64 .sqrt rm a.toNat b.toNat c.toNat r.toNat fl) : Fp64Rule .fsqrt rm a b c r fl := by
  obtain ⟨h1, h2, h3, h4, h5⟩ := h rfl
  rw [← isInf64_iff] at h4 h5
  refine ⟨fun hn => nan64 (h1 hn) (isSig64_iff a).symm, fun na za hs => nan64 (q := True) (h2 na za hs) Iff.rfl, fun za => ?_,
    fun ia hs => ?_, fun na ia za hs => ?_⟩
  · exact ⟨BitVec.eq_of_toNat_eq (h3 za).1, (h3 za).2⟩
  · exact ⟨BitVec.eq_of_toNat_eq (h4 ia hs).1, (h4 ia hs).2⟩
  · refine rounds64 (h5 na ia za hs) ?_ rfl
    rw [value64_eq]

/-- The order of the numbers follows the ranks. -/
theorem order64_rank (w : Word) : order64 w = if fpRank .f64 w.toNat < 0 then fpRank .f64 w.toNat + 1 else fpRank .f64 w.toNat := by
  rw [order64_eq]
  unfold fpRank
  cases fpNeg .f64 w.toNat <;> simp only [Bool.false_eq_true, if_false, if_true] <;> split <;> omega

theorem zero64_rank (h : IsZero64 a) : a.getLsbD 63 = decide (fpRank .f64 a.toNat < 0) := by
  have hm : fpMag .f64 a.toNat = 0 := h
  unfold fpRank
  rw [hm, fpNeg_f64]
  cases a.getLsbD 63 <;> rfl

theorem fminmax64_rule {top : Bool} (h : ExtremeIn .f64 top a.toNat b.toNat r.toNat fl) : (IsNaN64 a → IsNaN64 b → r = canonical64)
    ∧ (IsNaN64 a → ¬IsNaN64 b → r = b) ∧ (¬IsNaN64 a → IsNaN64 b → r = a) ∧ (fl = if IsSig64 a ∨ IsSig64 b then 1 else 0)
    ∧ (¬IsNaN64 a → ¬IsNaN64 b → (r = a ∨ r = b)
      ∧ order64 r = (if top then max (order64 a) (order64 b) else min (order64 a) (order64 b))
      ∧ (IsZero64 a → IsZero64 b → r.getLsbD 63 = if top then a.getLsbD 63 && b.getLsbD 63 else a.getLsbD 63 || b.getLsbD 63)) := by
  obtain ⟨h1, h2, h3, h4, h5, h6⟩ := h
  refine ⟨fun ha hb => BitVec.eq_of_toNat_eq (h1 ha hb), fun ha hb => BitVec.eq_of_toNat_eq (h2 ha hb),
    fun ha hb => BitVec.eq_of_toNat_eq (h3 ha hb), ?_, fun ha hb => ?_⟩
  · split
    next h => exact h5 (sig_or64.2 h)
    next h => exact h6 (fun h' => h (sig_or64.1 (.inl h'))) fun h' => h (sig_or64.1 (.inr h'))
  · obtain ⟨hr, hrank⟩ := h4 ha hb
    refine ⟨hr.imp BitVec.eq_of_toNat_eq BitVec.eq_of_toNat_eq, ?_, fun za zb => ?_⟩
    · rw [order64_rank, order64_rank a, order64_rank b, hrank]
      cases top <;> simp only [Bool.false_eq_true, if_false, if_true] <;> omega
    · have zr : IsZero64 r := by
        rcases hr with hr | hr
        · rw [BitVec.eq_of_toNat_eq hr]
          exact za
        · rw [BitVec.eq_of_toNat_eq hr]
          exact zb
      rw [zero64_rank zr, zero64_rank za, zero64_rank zb, hrank]
      cases top <;> simp only [Bool.false_eq_true, if_false, if_true, ← Bool.decide_or, ← Bool.decide_and, decide_eq_decide] <;> omega

/-! ### Signs -/

theorem fabs64_rule (h : ElementRule .f64 .abs rm a.toNat b.toNat c.toNat r.toNat fl) : Fp64Rule .fabs rm a b c r fl := by
  obtain ⟨hr, hfl⟩ := h
  refine ⟨BitVec.eq_of_toNat_eq ?_, hfl⟩
  rw [hr, BitVec.toNat_and]
  exact (Nat.and_two_pow_sub_one_eq_mod a.toNat 63).symm

theorem fneg64_rule (h : ElementRule .f64 .neg rm a.toNat b.toNat c.toNat r.toNat fl) : Fp64Rule .fneg rm a b c r fl := by
  obtain ⟨hm, hn, _, hfl⟩ := h
  refine ⟨word_eq_of_parts ?_ ?_, hfl⟩
  · rw [BitVec.toNat_xor, Nat.xor_mod_two_pow]
    exact hm.trans (Nat.xor_zero _).symm
  · rw [BitVec.getLsbD_xor]
    exact hn.trans (Bool.xor_true _).symm

/-! ### Compares (R126) -/

theorem truth_eq_ite {q : Bool} {p : Prop} [Decidable p] (h : q = true ↔ p) : truth q = if p then 1 else 0 := by
  obtain ⟨h1, h2⟩ := truth_of_iff h
  split
  next hp => exact h1 hp
  next hp => exact h2 hp

theorem flagIf_eq_ite {q : Bool} {p : Prop} [Decidable p] (h : q = true ↔ p) : flagIf q flagNV = if p then 1 else 0 := by
  obtain ⟨h1, h2⟩ := flagIf_result h
  split
  next hp => exact h1 hp
  next hp => exact h2 hp

theorem fcmpeq64_rule : Fp64Rule .fcmpeq rm a b c (truth (compareCode .f64 .eq a.toNat b.toNat).1) (compareCode .f64 .eq a.toNat b.toNat).2 :=
  ⟨truth_eq_ite (eqFl_iff.trans (and_congr Iff.rfl (and_congr Iff.rfl (place64_eq a b)))), flagIf_eq_ite (sig_or_iff.trans sig_or64)⟩

theorem fcmplt64_rule : Fp64Rule .fcmplt rm a b c (truth (compareCode .f64 .lt a.toNat b.toNat).1) (compareCode .f64 .lt a.toNat b.toNat).2 :=
  ⟨truth_eq_ite (lt_spec.trans (and_congr Iff.rfl (and_congr Iff.rfl (place64_lt a b)))), flagIf_eq_ite nan_or_iff⟩

theorem fcmple64_rule : Fp64Rule .fcmple rm a b c (truth (compareCode .f64 .le a.toNat b.toNat).1) (compareCode .f64 .le a.toNat b.toNat).2 := by
  refine ⟨truth_eq_ite ?_, flagIf_eq_ite nan_or_iff⟩
  have hnan : (!((decodeFl .f64 a.toNat).isNaN || (decodeFl .f64 b.toNat).isNaN)) = true ↔ ¬IsNaN64 a ∧ ¬IsNaN64 b := by
    rw [Bool.not_eq_true', ← Bool.not_eq_true, nan_or_iff, not_or]
    rfl
  refine (Bool.and_eq_true_iff.trans (and_congr_left' hnan)).trans ?_
  rw [and_assoc]
  refine and_congr_right fun na => and_congr_right fun nb => ?_
  have hlt : ltFl (decodeFl .f64 b.toNat) (decodeFl .f64 a.toNat) = true ↔ order64 b < order64 a :=
    (ltFl_iff (f := .f64) (x := b.toNat) (y := a.toNat) nb na).trans (place64_lt b a)
  rw [Bool.not_eq_true', ← Bool.not_eq_true, hlt, not_lt]

theorem fcmpun64_rule : Fp64Rule .fcmpun rm a b c (truth (compareCode .f64 .un a.toNat b.toNat).1) (compareCode .f64 .un a.toNat b.toNat).2 :=
  ⟨truth_eq_ite nan_or_iff, flagIf_eq_ite (sig_or_iff.trans sig_or64)⟩

end

/-! ### Conversions (R109) -/

/-- A finite value as an integer: rounded to a whole number and clipped. -/
theorem flToInt_fin (w : ℕ) (lo hi : ℤ) (rm : BitVec 2) (g : Bool) (m : ℕ) (e : ℤ) : ∃ k : ℕ, RoundsTo rm g ((m : ℝ) * (2 : ℝ) ^ e) k
    ∧ ∃ inexact : Bool, (inexact = true ↔ (k : ℝ) ≠ (m : ℝ) * (2 : ℝ) ^ e)
      ∧ flToInt w lo hi rm (.fin g m e) = ((BitVec.ofInt w (clip lo hi (if g then -(k : ℤ) else k)).1).toNat,
        if (clip lo hi (if g then -(k : ℤ) else k)).2 then flagNV else flagIf inexact flagNX) := by
  obtain ⟨hr, hin⟩ := roundUnits_spec (rm := rm) (neg := g) (q := 0) (Approx.exact m e) fun h => absurd h Bool.false_ne_true
  rw [zpow_zero, div_one] at hr
  rw [zpow_zero, mul_one] at hin
  exact ⟨_, hr, _, hin, rfl⟩

section
variable {a b c : Word} {rm : BitVec 2}

theorem fcvtI64_rule : Fp64Rule .fcvtI64 rm a b c (BitVec.ofNat 64 (flToInt 64 (-2 ^ 63) (2 ^ 63 - 1) rm (decodeFl .f64 a.toNat)).1)
    (flToInt 64 (-2 ^ 63) (2 ^ 63 - 1) rm (decodeFl .f64 a.toNat)).2 := by
  have ha := decodeFl_of .f64 a.toNat
  have hn := ha.isNaN_iff
  have hi := ha.isInf_iff
  generalize decodeFl .f64 a.toNat = v at ha hn hi ⊢
  cases v with
  | nan s => exact ⟨fun _ => ⟨rfl, rfl⟩, fun h => absurd (hi.2 ((isInf64_iff a).1 h)) Bool.false_ne_true, fun h => absurd (hn.1 rfl) h⟩
  | inf g =>
    obtain ⟨na, ia, _, _, hg⟩ := ha
    refine ⟨fun h => absurd h na, fun _ => ?_, fun _ h => absurd ((isInf64_iff a).2 ia) h⟩
    rw [show a.getLsbD 63 = g from hg.symm]
    refine ⟨?_, rfl⟩
    show BitVec.ofNat 64 (BitVec.ofInt 64 (if g then -2 ^ 63 else 2 ^ 63 - 1)).toNat = _
    cases g <;> decide
  | fin g m e =>
    obtain ⟨na, ia, hg, _, hval, _⟩ := ha
    refine ⟨fun h => absurd h na, fun h => absurd ((isInf64_iff a).1 h) ia, fun _ _ => ?_⟩
    obtain ⟨k, hk, inexact, hin, hr⟩ := flToInt_fin 64 (-2 ^ 63) (2 ^ 63 - 1) rm g m e
    have habs : ((|value64 a| : ℚ) : ℝ) = (m : ℝ) * (2 : ℝ) ^ e := by
      have h0 := codeMag_nonneg .f64 (fpMag .f64 a.toNat)
      rw [value64_eq, Rat.cast_abs, fpValue_eq, hval]
      split
      · rw [abs_neg, abs_of_nonneg h0]
      · rw [abs_of_nonneg h0]
    rw [show a.getLsbD 63 = g from hg.symm, hr, habs]
    have hflag : flagIf inexact flagNX = if (k : ℚ) = |value64 a| then 0 else 16 := by
      have hin : inexact = true ↔ ¬(k : ℚ) = |value64 a| := by
        rw [hin, ← habs, ne_eq, ← Rat.cast_natCast, Rat.cast_inj]
      split
      next h => rw [Bool.eq_false_iff.2 fun hi => hin.1 hi h, flagIf, if_neg Bool.false_ne_true]
      next h => rw [hin.2 h, flagIf, if_pos rfl]; rfl
    refine ⟨k, hk, ?_⟩
    intro i
    dsimp only
    rw [BitVec.ofNat_toNat, BitVec.setWidth_eq, show (if g = true then -(k : ℤ) else (k : ℤ)) = i from rfl, hflag]
    unfold clip
    refine ⟨fun h => ?_, fun h => ?_, fun h1 h2 => ?_⟩
    · rw [if_neg (by omega), if_pos (by omega)]
      exact ⟨by decide, rfl⟩
    · rw [if_pos h]
      exact ⟨by decide, rfl⟩
    · rw [if_neg (by omega), if_neg (by omega)]
      exact ⟨BitVec.toInt_ofInt_eq_self (by decide) h1 h2, rfl⟩

theorem fcvtF64_rule : Fp64Rule .fcvtF64 rm a b c (BitVec.ofNat 64 (flToFp .f64 rm (intToFl a.toInt)).1) (flToFp .f64 rm (intToFl a.toInt)).2 := by
  have hval : ((a.toInt : ℚ) : ℝ) = (intToFl a.toInt).val := by
    rw [intToFl, Fl.val, zpow_zero, mul_one, Nat.cast_natAbs]
    by_cases h : a.toInt < 0
    · rw [if_pos (decide_eq_true h), abs_of_neg h]
      push_cast
      ring
    · rw [if_neg (by simpa using h), abs_of_nonneg (not_lt.1 h)]
      push_cast
      rfl
  have hlt : (flToFp .f64 rm (intToFl a.toInt)).1 < 2 ^ 64 := packFin_lt fun h => absurd h Bool.false_ne_true
  have hr : RoundsIn .f64 rm ((a.toInt : ℚ) : ℝ) false (flToFp .f64 rm (intToFl a.toInt)).1 (flToFp .f64 rm (intToFl a.toInt)).2 :=
    packFin_val hval fun h => by rw [decide_eq_false]; rw [Int.natAbs_eq_zero.1 h]; decide
  rw [← Nat.mod_eq_of_lt hlt, ← BitVec.toNat_ofNat] at hr
  exact rounds64 hr rfl rfl

end

/-! ### Settled -/

/-- The FP64 operations (R126, R127). -/
def fp64Ops : List ScalarOp :=
  [.fcmpeq, .fcmplt, .fcmple, .fcmpun, .fadd, .fsub, .fmul, .ffma, .fdiv, .fsqrt, .fmin, .fmax, .fabs, .fneg, .fcvtI64, .fcvtF64]

theorem scalarLatency_fp64 : ∀ o ∈ fp64Ops, scalarLatency o = if o = .fdiv ∨ o = .fsqrt then 24 else 4 := by decide

/-- An element of the format as a word of the scalar unit. -/
theorem fp64Elem_rule (p : FpOp) (rm : BitVec 2) (a b c : Word) :
    ElementRule .f64 p rm a.toNat b.toNat c.toNat (BitVec.ofNat 64 (fpElem .f64 p rm a.toNat b.toNat c.toNat).1).toNat
      (fpElem .f64 p rm a.toNat b.toNat c.toNat).2 := by
  have h := elementRule_fpElem .f64 p rm a.toNat b.toNat c.toNat
  have hlt : (fpElem .f64 p rm a.toNat b.toNat c.toNat).1 < 2 ^ 64 := fpElem_lt ..
  have hw (w : Word) : w.toNat % 2 ^ codeBits .f64 = w.toNat := Nat.mod_eq_of_lt w.isLt
  rwa [hw, hw, hw, ← Nat.mod_eq_of_lt hlt, ← BitVec.toNat_ofNat] at h

/-- What an FP64 operation computes obeys its rule. -/
theorem scalarCompute_fp64 {o : ScalarOp} (ho : o ∈ fp64Ops) (rm : BitVec 2) (a b c d : Word) : ∃ (r : Word) (fl : Flags),
    scalarCompute o rm a b c d = ⟨if o ∈ [ScalarOp.fcmpeq, .fcmplt, .fcmple, .fcmpun, .fcvtI64] then 9 else 0, r.setWidth 2048, fl⟩
      ∧ Fp64Rule o rm a b c r fl := by
  have hsum (p : FpOp) := fp64Elem_rule p rm a b c
  unfold fp64Ops at ho
  fin_cases ho
  · exact ⟨_, _, rfl, fcmpeq64_rule⟩
  · exact ⟨_, _, rfl, fcmplt64_rule⟩
  · exact ⟨_, _, rfl, fcmple64_rule⟩
  · exact ⟨_, _, rfl, fcmpun64_rule⟩
  · exact ⟨_, _, rfl, sum64_rule (minus := false) (Bool.bne_false _).symm (hsum .add)⟩
  · exact ⟨_, _, rfl, sum64_rule (minus := true) (Bool.bne_true _).symm (hsum .sub)⟩
  · exact ⟨_, _, rfl, fmul64_rule (hsum .mul)⟩
  · exact ⟨_, _, rfl, ffma64_rule (hsum .fma)⟩
  · exact ⟨_, _, rfl, fdiv64_rule (hsum .div)⟩
  · exact ⟨_, _, rfl, fsqrt64_rule (hsum .sqrt)⟩
  · exact ⟨_, _, rfl, fminmax64_rule (top := false) (hsum .min)⟩
  · exact ⟨_, _, rfl, fminmax64_rule (top := true) (hsum .max)⟩
  · exact ⟨_, _, rfl, fabs64_rule (hsum .abs)⟩
  · exact ⟨_, _, rfl, fneg64_rule (hsum .neg)⟩
  · exact ⟨_, _, rfl, fcvtI64_rule⟩
  · exact ⟨_, _, rfl, fcvtF64_rule⟩

/-- Settles O15: each operation leaves in flight what it computes, of which its rule holds. -/
theorem fp64Results : Obligations.Fp64Results := by
  intro o h a s f x k held ho hr ht hw hf
  have hsnap : (k.ready .sc).t.snap = f.t.snap := (Frame.gather_delivered ht.1).snap
  obtain ⟨r, fl, hc, hrule⟩ := scalarCompute_fp64 ho (fpstRm f.t.snap.ctx.fpst) x.a.value.low x.b.value.low x.c.value.low x.d.value.low
  refine ⟨r, fl, ?_, hrule⟩
  rw [exec_scalarInstr_of_takes hr ht hw hf, scalarLatency_fp64 o ho, hsnap, hc]

end Sys2Proof.Machine
end

section
/-! PROOF. A column whose block is not as the group found it (R68, R171, R187). -/

namespace Sys2Proof.Machine

/-- A closed block of the transposer with this tag. -/
def columnBlock (tag : Tag) : TBlock := ⟨0, tag, 64, [], true, 0, 32, 0⟩

/-- A vector operation is to read the head of the column port: the group has found the block with tag i64, and it now stands with the
reserved tag 31. -/
def retaggedState : State :=
  let s := slotState .va fun c => { c with blocks := [columnBlock 31], seq := { c.seq with fresh := false } }
  { s with strands := s.strands.map fun t => { t with snap := { t.snap with ctx := { t.snap.ctx with blocks := [columnBlock 9] } } } }

/-- The column source, peeked at. -/
def sourceColumn : Src := ⟨.peek, .col⟩

/-- What REDMAX takes at `retaggedState`. -/
def retaggedFinds (f : Frame) (x : Args) (_ : Fetch) : Bool :=
  !x.wait && !f.c.fpsetWaits && decide (x.a.value.tagOr 14 = 31)

theorem retaggedState_finds :
    retaggedState.takingMeets plainSlot (fun f => pureTrig (.vector .redmax) f.unit sourceColumn) retaggedFinds = true := by
  decide +kernel

/-- Refutes O20: the statement speaks of states in which a column of the block that the group found has by now another tag; of a
reserved tag there are no lanes, and so no greatest one. -/
theorem not_reductionAndPermuteResults : ¬ Obligations.ReductionAndPermuteResults := by
  rintro ⟨hred, -⟩
  obtain ⟨f, x, k, held, hr, ht, hfinds⟩ := State.takingMeets_spec retaggedState_finds
  simp only [retaggedFinds, Bool.and_eq_true, Bool.not_eq_eq_eq_not, Bool.not_true, decide_eq_true_eq] at hfinds
  obtain ⟨⟨hw, hf⟩, htag⟩ := hfinds
  obtain ⟨tag, bits, fl, -, -, hint, -⟩ := hred .redmax plainSlot sourceColumn retaggedState f x k held (by decide) hr ht hw hf
  rw [htag] at hint
  obtain ⟨-, -, hmax, -⟩ := hint (by decide)
  obtain ⟨-, r, ⟨hlt, -⟩, -⟩ := hmax (.inl rfl)
  have hw : tagWidth 31 = 0 := rfl
  rw [hw, Nat.div_zero] at hlt
  split at hlt <;> omega

end Sys2Proof.Machine
end

section
/-! PROOF. The elements of the conversions (R107, R109, R110, R112, R168). -/

namespace Sys2Proof.Machine

/-! ### Numbers before a conversion -/

/-- What a value is as a number. -/
def Number.Is : Number → Fl → Prop
  | .nan p, .nan b => b = true ↔ p
  | .inf n, .inf g => g = n
  | .real n q, .fin g m e => g = n ∧ (Fl.fin g m e).val = ((q : ℚ) : ℝ)
  | _, _ => False

theorem decodeFl_mod (f : FpFmt) (n : ℕ) : decodeFl f (n % 2 ^ codeBits f) = decodeFl f n := by
  have hlt : codeBits f - 1 < codeBits f := by rw [codeBits_sub_one, codeBits]; omega
  have hm : fpMag f (n % 2 ^ codeBits f) = fpMag f n := Nat.mod_mod_of_dvd _ (Nat.pow_dvd_pow 2 (Nat.sub_le _ 1))
  have hn : fpNeg f (n % 2 ^ codeBits f) = fpNeg f n := by
    rw [fpNeg, fpNeg, Nat.testBit_mod_two_pow, decide_eq_true hlt, Bool.true_and]
  rw [decodeFl_eq, hm, hn, ← decodeFl_eq]

/-- A floating element is the number that the format says. -/
theorem number_decodeFl {f : FpFmt} {n : ℕ} {v : Number} (h1 : IsNaN f n → v = .nan (IsSig f n)) (h2 : IsInf f n → v = .inf (fpNeg f n))
    (h3 : ¬IsNaN f n → ¬IsInf f n → v = .real (fpNeg f n) (fpValue f n)) : v.Is (decodeFl f n) := by
  have h := decodeFl_of f n
  have hval := h.val_eq
  generalize decodeFl f n = d at h hval
  cases d with
  | nan s =>
    rw [h1 h.1]
    exact h.2.2
  | inf g =>
    rw [h2 h.2.1]
    exact h.2.2.2.2
  | fin g m e =>
    rw [h3 h.1 h.2.1]
    exact ⟨h.2.2.1, hval h.1 h.2.1⟩

/-- An integer is a number of its own sign. -/
theorem number_intToFl (i : ℤ) : (Number.real (decide (i < 0)) i).Is (intToFl i) := by
  refine ⟨rfl, ?_⟩
  rw [Fl.val, zpow_zero, mul_one, Nat.cast_natAbs]
  by_cases h : i < 0
  · rw [if_pos (decide_eq_true h), abs_of_neg h]
    push_cast
    ring
  · rw [if_neg (by simpa using h), abs_of_nonneg (not_lt.1 h)]
    push_cast
    rfl

/-- An element of a source is the number that it stands for (R94 to R97). -/
theorem number_elemValue {t x : ℕ} {v : Number} (h : IsNumber t x v) : v.Is (elemValue t x) := by
  unfold IsNumber at h
  unfold elemValue
  cases hf : FpFmt.ofCode? t with
  | some f =>
    rw [hf] at h
    obtain ⟨h1, h2, h3⟩ := h
    dsimp only
    rw [← decodeFl_mod]
    exact number_decodeFl h1 h2 h3
  | none =>
    rw [hf] at h
    dsimp only at h ⊢
    by_cases h21 : t = 21
    · rw [if_pos h21] at h ⊢
      unfold decodeE8M0
      split at h
      next hx =>
        rw [h, if_pos hx]
        exact iff_of_false Bool.false_ne_true id
      next hx =>
        rw [h, if_neg hx]
        refine ⟨rfl, ?_⟩
        rw [Fl.val, if_neg Bool.false_ne_true, Nat.cast_one, one_mul]
        push_cast
        rfl
    · rw [if_neg h21] at h ⊢
      have h9 : 9 ≤ t := by
        by_contra hlt
        interval_cases t <;> cases hf
      have hi : isIntTag t = decide (t < 14) := by
        rw [isIntTag, decide_eq_true h9, Bool.true_and]
      rw [h, hi]
      simp only [decide_eq_true_eq]
      exact number_intToFl _

/-! ### Integer targets (R109) -/

theorem isIntTag_eq {t : ℕ} (h : 9 ≤ t) : isIntTag t = decide (t < 14) := by
  rw [isIntTag, decide_eq_true h, Bool.true_and]

/-- The range of an integer format. -/
theorem inRange_iff {t : ℕ} {i : ℤ} (h : 9 ≤ t) : InRange t i ↔ (intRange t).1 ≤ i ∧ i ≤ (intRange t).2 := by
  rw [InRange, intRange, isIntTag_eq h]
  by_cases ht : t < 14
  · rw [if_pos ht, if_pos (decide_eq_true ht)]
    dsimp only
    omega
  · rw [if_neg ht, if_neg (by simpa using ht)]
    dsimp only
    omega

/-- Zero lies in the range of an integer format. -/
theorem intRange_zero (t : ℕ) : (intRange t).1 ≤ 0 ∧ 0 ≤ (intRange t).2 := by
  have h1 : (0 : ℤ) < 2 ^ (tagWidth t - 1) := by positivity
  have h2 : (0 : ℤ) < 2 ^ tagWidth t := by positivity
  unfold intRange
  dsimp only
  split <;> constructor <;> dsimp only <;> omega

theorem nearestEnd_iff {t : ℕ} {g : Bool} {j : ℤ} (h : 9 ≤ t) : NearestEnd t g j ↔ j = if g then (intRange t).1 else (intRange t).2 := by
  rw [NearestEnd, intRange, isIntTag_eq h]
  by_cases ht : t < 14
  · rw [if_pos ht, if_pos ht, if_pos (decide_eq_true ht)]
  · rw [if_neg ht, if_neg ht, decide_eq_false ht, if_neg Bool.false_ne_true]

theorem encodes_ofInt (t : ℕ) (j : ℤ) : Encodes t j (BitVec.ofInt (tagWidth t) j).toNat := by
  refine ⟨BitVec.isLt _, ?_⟩
  have hp : (0 : ℤ) < ((2 ^ tagWidth t : ℕ) : ℤ) := by positivity
  rw [BitVec.toNat_ofInt, Int.toNat_of_nonneg (Int.emod_nonneg _ (ne_of_gt hp))]
  push_cast
  rfl

/-- A number clipped to an integer format: itself in its range, else the end on its side. -/
theorem clip_result {t : ℕ} {g : Bool} {k : ℕ} (h : 9 ≤ t) : let i : ℤ := if g then -k else k
    let c := clip (intRange t).1 (intRange t).2 i
    (¬InRange t i → NearestEnd t g c.1 ∧ c.2 = true) ∧ (InRange t i → c.1 = i ∧ c.2 = false) := by
  intro i c
  have h0 := intRange_zero t
  have hsign : (g = true → i ≤ 0) ∧ (g = false → 0 ≤ i) := by
    constructor
    · rintro rfl
      exact neg_nonpos.2 (Int.natCast_nonneg k)
    · rintro rfl
      exact Int.natCast_nonneg k
  rw [inRange_iff h, nearestEnd_iff h]
  simp only [c]
  unfold clip
  refine ⟨fun hr => ?_, fun hr => ?_⟩
  · by_cases hlow : i < (intRange t).1
    · have hg : g = true := by
        by_contra hg
        have := hsign.2 (Bool.eq_false_iff.2 hg)
        omega
      rw [if_pos hlow, hg]
      exact ⟨rfl, rfl⟩
    · have hg : g = false := by
        by_contra hg
        have := hsign.1 (by simpa using hg)
        omega
      rw [if_neg hlow, if_pos (by omega), hg]
      exact ⟨rfl, rfl⟩
  · rw [if_neg (by omega), if_neg (by omega)]
    exact ⟨rfl, rfl⟩

/-! ### Conversions of a number (R107, R109) -/

theorem val_abs {g : Bool} {m : ℕ} {e : ℤ} {q : ℚ} (h : (Fl.fin g m e).val = ((q : ℚ) : ℝ)) : ((|q| : ℚ) : ℝ) = (m : ℝ) * (2 : ℝ) ^ e := by
  have h0 : (0 : ℝ) ≤ (m : ℝ) * (2 : ℝ) ^ e := mul_nonneg (Nat.cast_nonneg m) (two_zpow_pos e).le
  rw [Rat.cast_abs, ← h, Fl.val]
  split
  · rw [abs_neg, abs_of_nonneg h0]
  · rw [abs_of_nonneg h0]

theorem ofCode_none {t : ℕ} (h : FpFmt.ofCode? t = none) : 9 ≤ t := by
  by_contra hlt
  interval_cases t <;> cases h

/-- A number converted once. -/
theorem convertRule_valueTo {t : ℕ} {rm : BitVec 2} {v : Number} {x : Fl} (h : v.Is x) :
    ConvertRule t rm v (valueTo t rm x).1 (valueTo t rm x).2 := by
  unfold ConvertRule valueTo
  cases hf : FpFmt.ofCode? t with
  | some f =>
    cases v with
    | nan p =>
      cases x with
      | nan b => exact packNaN_result h
      | inf _ => exact h.elim
      | fin _ _ _ => exact h.elim
    | inf n =>
      cases x with
      | inf g =>
        obtain rfl : g = n := h
        exact packInf_result f g
      | nan _ => exact h.elim
      | fin _ _ _ => exact h.elim
    | real n q =>
      cases x with
      | fin g m e =>
        obtain ⟨rfl, hval⟩ := h
        exact packFin_val hval.symm fun _ => rfl
      | nan _ => exact h.elim
      | inf _ => exact h.elim
  | none =>
    have h9 := ofCode_none hf
    cases v with
    | nan p =>
      cases x with
      | nan b => exact ⟨rfl, rfl⟩
      | inf _ => exact h.elim
      | fin _ _ _ => exact h.elim
    | inf n =>
      cases x with
      | inf g =>
        obtain rfl : g = n := h
        exact ⟨_, (nearestEnd_iff h9).2 rfl, encodes_ofInt t _, rfl⟩
      | nan _ => exact h.elim
      | fin _ _ _ => exact h.elim
    | real n q =>
      cases x with
      | fin g m e =>
        obtain ⟨rfl, hval⟩ := h
        obtain ⟨k, hk, inexact, hin, hr⟩ := flToInt_fin (tagWidth t) (intRange t).1 (intRange t).2 rm g m e
        obtain ⟨hout, hins⟩ := clip_result (g := g) (k := k) h9
        refine ⟨k, by rwa [val_abs hval], ?_⟩
        dsimp only
        rw [hr]
        refine ⟨fun hno => ?_, fun hyes => ?_⟩
        · obtain ⟨hend, hc⟩ := hout hno
          exact ⟨_, hend, encodes_ofInt t _, by rw [hc]; rfl⟩
        · obtain ⟨hc1, hc2⟩ := hins hyes
          rw [hc2, hc1]
          refine ⟨encodes_ofInt t _, ?_⟩
          have hin : inexact = true ↔ ¬(k : ℚ) = |q| := by
            rw [hin, ← val_abs hval, ne_eq, ← Rat.cast_natCast, Rat.cast_inj]
          show flagIf inexact flagNX = _
          split
          next he => rw [Bool.eq_false_iff.2 fun hi => hin.1 hi he, flagIf, if_neg Bool.false_ne_true]
          next he => rw [hin.2 he, flagIf, if_pos rfl]; rfl
      | nan _ => exact h.elim
      | inf _ => exact h.elim

/-! ### The elements of CVT and CVTSC -/

/-- R107, R109, R168: an element of CVT. -/
theorem cvtRule_cvtElem {s t x : ℕ} (ht : t < 19) (hx : x < 256 ∨ s ≠ 21) (rm : BitVec 2) :
    CvtRule s t rm x (cvtElem s t rm x).1 (cvtElem s t rm x).2 := by
  intro v hv
  have hnum := number_elemValue hv
  have hconv := convertRule_valueTo (t := t) (rm := rm) hnum
  have hboth : ((isIntTag s || isUintTag s) && (isIntTag t || isUintTag t)) = true ↔ (9 ≤ s ∧ s < 19) ∧ 9 ≤ t := by
    simp only [isIntTag, isUintTag, Bool.and_eq_true, Bool.or_eq_true, decide_eq_true_eq]
    omega
  unfold cvtElem
  by_cases hb : (9 ≤ s ∧ s < 19) ∧ 9 ≤ t
  · rw [if_pos hb, if_pos (hboth.2 hb)]
    obtain ⟨⟨h9, h19⟩, ht9⟩ := hb
    have hs : FpFmt.ofCode? s = none := by interval_cases s <;> rfl
    obtain ⟨i0, hi0⟩ : ∃ i0 : ℤ, (if isIntTag s then sintN (tagWidth s) x else (x : ℤ)) = i0 := ⟨_, rfl⟩
    have hval : v = .real (decide (i0 < 0)) i0 := by
      unfold IsNumber at hv
      rw [hs] at hv
      dsimp only at hv
      rw [if_neg (by omega)] at hv
      rw [hv, ← hi0, isIntTag_eq h9]
      simp only [decide_eq_true_eq]
      rfl
    rw [hi0]
    intro n q hq
    rw [hval] at hq
    cases hq
    have h0 := intRange_zero t
    refine ⟨fun i hi hr => ?_, fun i hi hr => ?_⟩
    · have hi : i0 = i := by exact_mod_cast hi
      rw [inRange_iff ht9] at hr
      rw [hi, clip, if_neg (by omega), if_neg (by omega)]
      exact ⟨encodes_ofInt t i, rfl⟩
    · have hi : i0 = i := by exact_mod_cast hi
      rw [inRange_iff ht9] at hr
      rw [hi, clip]
      by_cases hlow : i < (intRange t).1
      · rw [if_pos hlow]
        exact ⟨_, (nearestEnd_iff ht9).2 (by rw [if_pos (decide_eq_true (by omega))]), encodes_ofInt t _, rfl⟩
      · rw [if_neg hlow, if_pos (by omega)]
        exact ⟨_, (nearestEnd_iff ht9).2 (by rw [if_neg (by simp; omega)]), encodes_ofInt t _, rfl⟩
  · rw [if_neg hb, if_neg (mt hboth.1 hb)]
    by_cases hnan : s = 21 ∧ x % 256 = 255
    · rw [if_pos hnan]
      obtain ⟨rfl, hx255⟩ := hnan
      have hx255' : x = 255 := by omega
      intro f hf
      have hv : elemValue 21 x = .nan false := by
        rw [hx255']
        rfl
      rw [hv, valueTo, hf, hx255']
      show canonicalNaN f = canonicalNaN f ∧ flagIf (false || canonicalNaN f == 0) flagNV ||| flagNV = 1
      refine ⟨rfl, ?_⟩
      cases canonicalNaN f == 0 <;> decide
    · rw [if_neg hnan]
      have hno : (decide (s = 21) && x == 255) = false := by
        rw [Bool.eq_false_iff]
        intro h
        simp only [Bool.and_eq_true, decide_eq_true_eq, beq_iff_eq] at h
        exact hnan ⟨h.1, by omega⟩
      have hfl : (valueTo t rm (elemValue s x)).2 ||| flagIf (decide (s = 21) && x == 255) flagNV = (valueTo t rm (elemValue s x)).2 := by
        rw [hno]
        exact BitVec.or_zero
      dsimp only
      rw [hfl]
      exact hconv

theorem val_eq_zero {g : Bool} {m : ℕ} {e : ℤ} {q : ℚ} (h : (Fl.fin g m e).val = ((q : ℚ) : ℝ)) : q = 0 ↔ m = 0 := by
  rw [← abs_eq_zero, ← Rat.cast_inj (α := ℝ), val_abs h, Rat.cast_zero, mul_eq_zero, or_iff_left (ne_of_gt (two_zpow_pos e)), Nat.cast_eq_zero]

/-- What R110's cases ask of the number that the exact product is. -/
def Scaled (R : Number → Prop) (v w : Number) : Prop :=
  match v, w with
  | .nan p, .nan q => R (.nan (p ∨ q))
  | .nan p, _ => R (.nan p)
  | _, .nan q => R (.nan q)
  | .inf g, .inf k => R (.inf (g != k))
  | .inf g, .real k y => if y = 0 then R (.nan True) else R (.inf (g != k))
  | .real g y, .inf k => if y = 0 then R (.nan True) else R (.inf (g != k))
  | .real g y, .real k z => R (.real (g != k) (y * z))

/-- The cases of an exact product, by what its operands are. -/
theorem scaled_cases {v w : Number} {a b : Fl} {R : Number → Prop} (av : v.Is a) (aw : w.Is b)
    (conv : ∀ {u : Number} {p : Fl}, prodFl a b = some p → u.Is p → R u) (invalid : prodFl a b = none → R (.nan True)) : Scaled R v w := by
  cases v with
  | nan p =>
    cases a with
    | nan s =>
      have hs : s = true ↔ p := av
      cases w with
      | nan q =>
        cases b with
        | nan u =>
          have hu : u = true ↔ q := aw
          exact conv rfl (show (s || u) = true ↔ p ∨ q by rw [Bool.or_eq_true, hs, hu])
        | _ => exact aw.elim
      | inf k =>
        cases b with
        | inf g => exact conv rfl (show (s || false) = true ↔ p by rw [Bool.or_false, hs])
        | _ => exact aw.elim
      | real k z =>
        cases b with
        | fin g m e => exact conv rfl (show (s || false) = true ↔ p by rw [Bool.or_false, hs])
        | _ => exact aw.elim
    | _ => exact av.elim
  | inf n =>
    cases a with
    | inf g =>
      obtain rfl : g = n := av
      cases w with
      | nan q =>
        cases b with
        | nan u =>
          have hu : u = true ↔ q := aw
          exact conv rfl (show (u || false) = true ↔ q by rw [Bool.or_false, hu])
        | _ => exact aw.elim
      | inf k =>
        cases b with
        | inf j =>
          obtain rfl : j = k := aw
          exact conv rfl rfl
        | _ => exact aw.elim
      | real k z =>
        cases b with
        | fin j m e =>
          obtain ⟨rfl, hval⟩ := aw
          show if z = 0 then R (.nan True) else R (.inf (g != j))
          split
          next h0 => exact invalid (if_pos ((val_eq_zero hval).1 h0))
          next h0 => exact conv (if_neg (mt (val_eq_zero hval).2 h0)) rfl
        | _ => exact aw.elim
    | _ => exact av.elim
  | real n y =>
    cases a with
    | fin g m e =>
      obtain ⟨rfl, hval⟩ := av
      cases w with
      | nan q =>
        cases b with
        | nan u =>
          have hu : u = true ↔ q := aw
          exact conv rfl (show (u || false) = true ↔ q by rw [Bool.or_false, hu])
        | _ => exact aw.elim
      | inf k =>
        cases b with
        | inf j =>
          obtain rfl : j = k := aw
          show if y = 0 then R (.nan True) else R (.inf (g != j))
          split
          next h0 => exact invalid (if_pos ((val_eq_zero hval).1 h0))
          next h0 =>
            refine conv (if_neg (mt (val_eq_zero hval).2 h0)) ?_
            show (j != g) = (g != j)
            cases g <;> cases j <;> rfl
        | _ => exact aw.elim
      | real k z =>
        cases b with
        | fin j m2 e2 =>
          obtain ⟨rfl, hval2⟩ := aw
          refine conv rfl ⟨rfl, ?_⟩
          rw [Rat.cast_mul, ← hval, ← hval2, Fl.val, Fl.val, Fl.val, two_zpow_add]
          cases g <;> cases j <;> push_cast <;> simp only [bne_self_eq_false, Bool.false_eq_true, if_false, if_true, Bool.bne_true,
            Bool.bne_false, Bool.not_false] <;> ring
        | _ => exact aw.elim
    | _ => exact av.elim

/-- R110: an element of CVTSC. -/
theorem scaledRule_cvtscElem (s t : ℕ) (rm : BitVec 2) (x m : ℕ) :
    ScaledRule s t rm x m (cvtscElem s t rm x m).1 (cvtscElem s t rm x m).2 := by
  intro v w hv hw
  have av := number_elemValue hv
  have aw : w.Is (decodeFl .f32 m) := number_elemValue hw
  have conv {u : Number} {p : Fl} (hp : prodFl (elemValue s x) (decodeFl .f32 m) = some p) (hu : u.Is p) :
      ConvertRule t rm u (cvtscElem s t rm x m).1 (cvtscElem s t rm x m).2 := by
    rw [cvtscElem, hp]
    exact convertRule_valueTo hu
  have invalid (hp : prodFl (elemValue s x) (decodeFl .f32 m) = none) :
      ConvertRule t rm (.nan True) (cvtscElem s t rm x m).1 (cvtscElem s t rm x m).2 := by
    rw [cvtscElem, hp]
    dsimp only
    unfold ConvertRule valueTo
    cases FpFmt.ofCode? t with
    | some f =>
      have e : (packNaN f false).2 ||| flagNV = (packNaN f true).2 := by
        show flagIf (false || canonicalNaN f == 0) flagNV ||| flagNV = flagIf (true || canonicalNaN f == 0) flagNV
        cases canonicalNaN f == 0 <;> decide
      show NaNResult f True (packNaN f true).1 ((packNaN f false).2 ||| flagNV)
      rw [e]
      exact packNaN_result (iff_of_true rfl trivial)
    | none => exact ⟨rfl, show flagNV ||| flagNV = 1 by decide⟩
  generalize elemValue s x = a at av conv invalid
  generalize decodeFl .f32 m = b at aw conv invalid
  have h := scaled_cases av aw conv invalid
  cases v <;> cases w <;> exact h

end Sys2Proof.Machine
end

section
/-! PROOF. Stochastic rounding (R111, R112). -/

namespace Sys2Proof.Machine

theorem maxFiniteCode_lt_fpInfMag {f : FpFmt} (hi : hasInf f = true) : maxFiniteCode f < fpInfMag f := by
  cases f <;> simp_all [hasInf] <;> decide

/-- A finite encoding, by its sign and its magnitude. -/
theorem finite_code {f : FpFmt} {g : Bool} {c : ℕ} (hc : c ≤ maxFiniteCode f) : let r := signBit f g + c
    r < 2 ^ codeBits f ∧ fpNeg f r = g ∧ ¬IsNaN f r ∧ ¬IsInf f r ∧ ((|fpValue f r| : ℚ) : ℝ) = codeMag f c := by
  intro r
  have hlt := hc.trans_lt (maxFiniteCode_lt f)
  have hmag : fpMag f r = c := fpMag_signBit_add hlt
  have h0 := codeMag_nonneg f c
  refine ⟨signBit_add_lt hc, fpNeg_signBit_add hlt, ?_, ?_, ?_⟩
  · intro hn
    obtain ⟨_, _, h⟩ | ⟨h, _⟩ | ⟨h, _⟩ := fp_trichotomy f r
    · rw [hmag] at h
      omega
    · exact h hn
    · exact h hn
  · intro hi
    obtain ⟨_, h, _⟩ | ⟨_, _, hinf, h⟩ | ⟨_, h, _⟩ := fp_trichotomy f r
    · exact h hi
    · have htop := maxFiniteCode_lt_fpInfMag hinf
      rw [hmag] at h
      omega
    · exact h hi
  · rw [Rat.cast_abs, fpValue_eq, hmag]
    split
    · rw [abs_neg, abs_of_nonneg h0]
    · rw [abs_of_nonneg h0]

theorem RoundsTo.floor {neg : Bool} {y : ℝ} {k : ℕ} (h : RoundsTo 1 neg y k) : (k : ℝ) ≤ y ∧ y < k + 1 := h

/-- The digits below the last place, as sixteen bits. -/
theorem sixteen_digits {y : ℝ} {t u : ℕ} (ht : (t : ℝ) ≤ y) (hu : (u : ℝ) ≤ y * 2 ^ 16 ∧ y * 2 ^ 16 < u + 1) :
    ((u - t * 2 ^ 16 : ℕ) : ℝ) ≤ (y - t) * 2 ^ 16 ∧ (y - t) * 2 ^ 16 < ((u - t * 2 ^ 16 : ℕ) : ℝ) + 1 := by
  have hle : t * 2 ^ 16 ≤ u := by
    have h : ((t * 2 ^ 16 : ℕ) : ℝ) < u + 1 := by
      push_cast
      nlinarith
    have h : t * 2 ^ 16 < u + 1 := by exact_mod_cast h
    omega
  rw [Nat.cast_sub hle]
  push_cast
  constructor <;> nlinarith

/-- The magnitude that random bits carry up or leave is another than the exact one where its last place is not all of it. -/
theorem carried_ne {y : ℝ} {t d rnd : ℕ} (hrnd : rnd < 2 ^ 16) (ht1 : y < t + 1) (hd : (d : ℝ) ≤ (y - t) * 2 ^ 16) :
    ((if 2 ^ 16 ≤ d + rnd then t + 1 else t : ℕ) : ℝ) = y ↔ (t : ℝ) = y := by
  by_cases hy : (t : ℝ) = y
  · have hd0 : d = 0 := by
      rw [hy, sub_self, zero_mul] at hd
      exact_mod_cast le_antisymm hd (Nat.cast_nonneg d)
    rw [hd0, Nat.zero_add, if_neg (by omega)]
  · refine iff_of_false (fun h => ?_) hy
    split at h
    · push_cast at h
      linarith
    · exact hy h

/-- R112: a nonzero magnitude rounded with random bits. -/
theorem stochasticRule_fin {f : FpFmt} {rnd : ℕ} {g : Bool} {m : ℕ} {e : ℤ} (hm : m ≠ 0) (hrnd : rnd < 2 ^ 16) :
    StochasticRule f rnd g ((m : ℝ) * (2 : ℝ) ^ e) (stochasticFp f rnd (.fin g m e)).1 (stochasticFp f rnd (.fin g m e)).2 := by
  obtain ⟨hlow, hhigh⟩ := (Approx.exact m e).binade hm
  obtain ⟨q, hq⟩ : ∃ q, max ((m.log2 : ℤ) + e - (fmtSpec f).mbits) (bottomExp f) = q := ⟨_, rfl⟩
  obtain ⟨n, hn⟩ : ∃ n : ℕ, q = n + bottomExp f := ⟨(q - bottomExp f).toNat, by omega⟩
  obtain ⟨ht, hin⟩ := roundUnits_spec (rm := 1) (neg := false) (q := q) (Approx.exact m e) fun h => absurd h Bool.false_ne_true
  obtain ⟨hu, _⟩ := roundUnits_spec (rm := 1) (neg := false) (q := q - 16) (Approx.exact m e) fun h => absurd h Bool.false_ne_true
  have hsplit : stochasticFp f rnd (.fin g m e) = (let t := roundUnits 1 false m e false q
      let r := if 2 ^ 16 ≤ (roundUnits 1 false m e false (q - 16)).1 - t.1 * 2 ^ 16 + rnd then t.1 + 1 else t.1
      if aboveUnits r q (maxFinite f).1 (maxFinite f).2 then packOverflow f 0 g
      else (signBit f g + (q - bottomExp f).toNat * 2 ^ (fmtSpec f).mbits + r,
        flagIf t.2 flagNX ||| flagIf (t.2 && aboveUnits 1 (1 - ((fmtSpec f).bias : ℤ)) r q) flagUF)) := by
    rw [stochasticFp, if_neg hm]
    dsimp only
    rw [show (1 - ((fmtSpec f).bias : ℤ) - (fmtSpec f).mbits) = bottomExp f from rfl, hq, Bool.not_not]
  rw [hsplit]
  generalize roundUnits 1 false m e false q = tt at ht hin ⊢
  generalize (roundUnits 1 false m e false (q - 16)).1 = u at hu ⊢
  obtain ⟨t, inexact⟩ := tt
  dsimp only at ht hin ⊢
  generalize (m : ℝ) * (2 : ℝ) ^ e = a at hlow hhigh ht hu hin ⊢
  have hqp := two_zpow_pos q
  obtain ⟨ht0, ht1⟩ := ht.floor
  have hu' : a / (2 : ℝ) ^ (q - 16) = a / (2 : ℝ) ^ q * 2 ^ 16 := by
    rw [zpow_sub₀ (by norm_num)]
    norm_num
    field_simp
  obtain ⟨hd0, hd1⟩ := sixteen_digits ht0 (by rw [← hu']; exact hu.floor)
  have hk := carried_ne hrnd ht1 hd0
  rw [eq_div_iff hqp.ne', eq_div_iff hqp.ne'] at hk
  have hkeep : t ≤ (if 2 ^ 16 ≤ u - t * 2 ^ 16 + rnd then t + 1 else t) ∧ (if 2 ^ 16 ≤ u - t * 2 ^ 16 + rnd then t + 1 else t) ≤ t + 1 := by
    split <;> omega
  refine ⟨(m.log2 : ℤ) + e, q, t, u - t * 2 ^ 16, _, hlow, hhigh, ?_, ht0, ht1, hd0, hd1, rfl, ?_⟩
  · rw [← hq]
    unfold bottomExp
    omega
  generalize (if 2 ^ 16 ≤ u - t * 2 ^ 16 + rnd then t + 1 else t) = k at hk hkeep ⊢
  have hy : a / (2 : ℝ) ^ q < ((2 ^ ((fmtSpec f).mbits + 1) : ℕ) : ℝ) := by
    rw [div_lt_iff₀ hqp, Nat.cast_pow, Nat.cast_ofNat, ← zpow_natCast, ← two_zpow_add]
    exact hhigh.trans_le (two_zpow_le (by push_cast; omega))
  have htlt : t < 2 ^ ((fmtSpec f).mbits + 1) := by exact_mod_cast ht0.trans_lt hy
  have hkle : k ≤ 2 ^ ((fmtSpec f).mbits + 1) := by omega
  have hkge (h0 : n ≠ 0) : 2 ^ (fmtSpec f).mbits ≤ k := by
    refine le_trans (ht.ge_of_ge ?_) hkeep.1
    rw [le_div_iff₀ hqp, Nat.cast_pow, Nat.cast_ofNat, ← zpow_natCast, ← two_zpow_add]
    exact (two_zpow_le (by omega)).trans hlow
  have hmag : codeMag f (placesCode f n k) = k * (2 : ℝ) ^ q := by rw [codeMag_placesCode hkle hkge, hn]
  by_cases habove : aboveUnits k q (maxFinite f).1 (maxFinite f).2 = true
  · rw [if_pos (aboveUnits_iff.1 habove), if_pos habove, packOverflow_eq]
    refine ⟨rfl, ?_⟩
    cases hasInf f <;> rfl
  · have hle := mt aboveUnits_iff.2 habove
    have hcode : placesCode f n k ≤ maxFiniteCode f := by
      rw [← (codeMag_strictMono f).le_iff_le, hmag, codeMag_maxFiniteCode]
      exact not_lt.1 hle
    obtain ⟨hr, hneg, hnan, hinf, hval⟩ := finite_code (g := g) hcode
    have hp1 : signBit f g + (q - bottomExp f).toNat * 2 ^ (fmtSpec f).mbits + k = signBit f g + placesCode f n k := by
      rw [placesCode, ← Nat.add_assoc, show (q - bottomExp f).toNat = n by omega]
    obtain ⟨hnx, huf, hrest⟩ := roundFlags inexact (aboveUnits 1 (1 - ((fmtSpec f).bias : ℤ)) k q)
    rw [if_neg hle, if_neg habove, hp1, Bool.and_comm]
    have hne : inexact = true ↔ (k : ℝ) * (2 : ℝ) ^ q ≠ a := hin.trans (not_congr hk).symm
    refine ⟨hr, hneg, hnan, hinf, hval.trans hmag, hnx.trans hne, huf.trans (and_congr hne ?_), hrest⟩
    rw [aboveUnits_iff, Nat.cast_one, one_mul]

/-- R107, R112: an element of CVTSR. -/
theorem randomRule_stochasticFp {s : ℕ} {f : FpFmt} {rnd x : ℕ} (hrnd : rnd < 2 ^ 16) :
    RandomRule s f rnd x (stochasticFp f rnd (elemValue s x)).1 (stochasticFp f rnd (elemValue s x)).2 := by
  intro v hv
  have hnum := number_elemValue hv
  generalize elemValue s x = a at hnum
  cases v with
  | nan p =>
    cases a with
    | nan b => exact packNaN_result hnum
    | _ => exact hnum.elim
  | inf n =>
    cases a with
    | inf g =>
      obtain rfl : g = n := hnum
      exact packInf_result f g
    | _ => exact hnum.elim
  | real n q =>
    cases a with
    | fin g m e =>
      obtain ⟨rfl, hval⟩ := hnum
      refine ⟨fun h0 => ?_, fun h0 => ?_⟩
      · rw [stochasticFp, if_pos ((val_eq_zero hval).1 h0)]
        exact ⟨rfl, rfl⟩
      · rw [val_abs hval]
        exact stochasticRule_fin (mt (val_eq_zero hval).2 h0) hrnd
    | _ => exact hnum.elim

end Sys2Proof.Machine
end

section
/-! PROOF. The conversions of the vector unit: their elements, the lanes of their part, and their flags (R110, R112, R167 to R170). -/

namespace Sys2Proof.Machine

/-! ### Elements keep to their lanes -/

theorem flToFp_lt (f : FpFmt) (rm : BitVec 2) (x : Fl) : (flToFp f rm x).1 < 2 ^ codeBits f := by
  cases x with
  | nan b => exact canonicalNaN_lt f
  | inf g => exact packInf_lt f g
  | fin g m e => exact packFin_lt fun h => absurd h Bool.false_ne_true

theorem flToInt_lt (w : ℕ) (lo hi : ℤ) (rm : BitVec 2) (x : Fl) : (flToInt w lo hi rm x).1 < 2 ^ w := by
  cases x with
  | nan b => exact Nat.two_pow_pos w
  | inf g => exact BitVec.isLt _
  | fin g m e => exact BitVec.isLt _

theorem codeBits_le_tagWidth {t : ℕ} {f : FpFmt} (h : FpFmt.ofCode? t = some f) : codeBits f ≤ tagWidth t := by
  obtain rfl := FpFmt.code_of_ofCode? h
  cases f <;> decide

theorem valueTo_lt (t : ℕ) (rm : BitVec 2) (x : Fl) : (valueTo t rm x).1 < 2 ^ tagWidth t := by
  unfold valueTo
  split
  case h_1 f hf => exact (flToFp_lt f rm x).trans_le (Nat.pow_le_pow_right two_pos (codeBits_le_tagWidth hf))
  case h_2 => exact flToInt_lt ..

theorem cvtElem_lt (s t : ℕ) (rm : BitVec 2) (x : ℕ) : (cvtElem s t rm x).1 < 2 ^ tagWidth t := by
  unfold cvtElem
  split
  · exact BitVec.isLt _
  · exact valueTo_lt ..

theorem cvtscElem_lt (s t : ℕ) (rm : BitVec 2) (x m : ℕ) : (cvtscElem s t rm x m).1 < 2 ^ tagWidth t := by
  unfold cvtscElem
  split <;> exact valueTo_lt ..

theorem StochasticRule.lt {f : FpFmt} {rnd : ℕ} {g : Bool} {a : ℝ} {r : ℕ} {fl : Flags} (h : StochasticRule f rnd g a r fl) :
    r < 2 ^ codeBits f := by
  obtain ⟨e, q, t, d, k, _, _, _, _, _, _, _, _, h⟩ := h
  split at h
  · rw [h.2]
    split
    · exact signBit_add_lt_codeBits (fpInfMag_lt f)
    · exact signBit_add_lt_codeBits (maxFiniteCode_lt_sign f)
  · exact h.1

theorem stochasticFp_lt {f : FpFmt} {rnd : ℕ} (h : rnd < 2 ^ 16) (x : Fl) : (stochasticFp f rnd x).1 < 2 ^ codeBits f := by
  cases x with
  | nan b => exact canonicalNaN_lt f
  | inf g => exact packInf_lt f g
  | fin g m e =>
    by_cases hm : m = 0
    · rw [stochasticFp, if_pos hm]
      exact signBit_add_lt_codeBits (c := 0) (Nat.two_pow_pos _)
    · exact (stochasticRule_fin hm h).lt

/-! ### Lists of lanes -/

theorem getD_lanes {w i : ℕ} (v : Vec) (hi : i < 2048 / w) : (lanes w v).getD i 0 = (lane w v i).toNat := by
  simp [lanes, List.getD, hi, lane, fld]

/-- The source element that is element `j` of a conversion (R167). -/
def cvtPlace (s t p j : ℕ) : ℕ := if tagWidth t > tagWidth s then p * cvtCount s t + j else j

/-- The lane at which element `j` of a conversion stands (R167). -/
def cvtLane (s t p j : ℕ) : ℕ := if tagWidth t < tagWidth s then p * cvtCount s t + j else j

/-- A part in range leaves its elements within the lanes of the wider count. -/
theorem part_le {s t p : ℕ} (h : p < cvtParts s t) : p * cvtCount s t + cvtCount s t ≤ max (2048 / tagWidth s) (2048 / tagWidth t) := by
  rw [← Nat.succ_mul]
  exact (Nat.mul_le_mul_right _ h).trans (Nat.div_mul_le_self _ _)

theorem lanes_length (w : ℕ) (v : Vec) : (lanes w v).length = 2048 / w := by simp [lanes]

theorem cvtCount_le (s t : ℕ) : cvtCount s t ≤ 2048 / tagWidth s ∧ cvtCount s t ≤ 2048 / tagWidth t := by
  unfold cvtCount
  omega

/-- A list of lanes from one place on, by its places. -/
theorem lanes_drop_take {w a n : ℕ} (v : Vec) (h : a + n ≤ 2048 / w) :
    ((lanes w v).drop a).take n = (List.range n).map fun j => (lane w v (a + j)).toNat := by
  refine List.ext_getElem (by simp only [List.length_take, List.length_drop, lanes_length, List.length_map, List.length_range]; omega) fun j h1 _ => ?_
  simp [lanes, lane, fld]

/-- The elements of a conversion, by their places. -/
theorem cvtSource_eq {s t p : ℕ} (hs : 0 < tagWidth s) (h : p < cvtParts s t) (v : Vec) : cvtSource s t p v =
    (List.range (cvtCount s t)).map fun j => (lane (tagWidth s) v (cvtPlace s t p j)).toNat := by
  have hpart := part_le h
  have htake := lanes_drop_take (w := tagWidth s) (a := 0) (n := cvtCount s t) v (by rw [Nat.zero_add]; exact (cvtCount_le s t).1)
  simp only [List.drop_zero, Nat.zero_add] at htake
  unfold cvtSource cvtPlace
  dsimp only
  by_cases hw : tagWidth s < tagWidth t
  · have hmax : max (2048 / tagWidth s) (2048 / tagWidth t) = 2048 / tagWidth s := max_eq_left (Nat.div_le_div_left hw.le hs)
    simp only [gt_iff_lt, hw, and_true, if_true]
    split
    · exact lanes_drop_take v (hpart.trans_eq hmax)
    · have h0 : p = 0 := by omega
      simp only [htake, h0, Nat.zero_mul, Nat.zero_add]
  · rw [if_neg fun h => hw h.2, htake]
    simp only [if_neg hw]

/-- A list with a part of it replaced, at one of its places. -/
theorem getD_replaced {l r : List ℕ} {a n : ℕ} (hr : r.length = n) (h : a + n ≤ l.length) (i : ℕ) :
    (l.take a ++ r ++ l.drop (a + n)).getD i 0 = if a ≤ i ∧ i < a + n then r.getD (i - a) 0 else l.getD i 0 := by
  have ha : (l.take a).length = a := by rw [List.length_take]; omega
  have har : (l.take a ++ r).length = a + n := by rw [List.length_append, ha, hr]
  by_cases h1 : i < a
  · rw [if_neg (by omega), List.getD_append _ _ _ _ (by omega), List.getD_append _ _ _ _ (by omega)]
    simp [List.getD, h1]
  by_cases h2 : i < a + n
  · rw [if_pos (by omega), List.getD_append _ _ _ _ (by omega), List.getD_append_right _ _ _ _ (by omega), ha]
  · rw [if_neg (by omega), List.getD_append_right _ _ _ _ (by omega), har]
    simp only [List.getD, List.getElem?_drop, Nat.add_sub_cancel' (Nat.not_lt.1 h2)]

/-- A conversion's lanes: its elements, and about those of a narrowing one the merge operand's. -/
theorem lane_cvtMerge {s t p : ℕ} (ht : 0 < tagWidth t) (h : p < cvtParts s t) (e : ℕ → ℕ) (he : ∀ j, e j < 2 ^ tagWidth t) (merge : Vec) :
    let bits := cvtMerge s t p ((List.range (cvtCount s t)).map e) merge
    (∀ j, j < cvtCount s t → (lane (tagWidth t) bits (cvtLane s t p j)).toNat = e j)
      ∧ (tagWidth t < tagWidth s → ∀ i, i < 2048 / tagWidth t → (i < p * cvtCount s t ∨ p * cvtCount s t + cvtCount s t ≤ i) →
        lane (tagWidth t) bits i = lane (tagWidth t) merge i) := by
  intro bits
  have hpart := part_le h
  have hn := (cvtCount_le s t).2
  have hlen : ((List.range (cvtCount s t)).map e).length = cvtCount s t := by simp
  have hget {j : ℕ} (hj : j < cvtCount s t) : ((List.range (cvtCount s t)).map e).getD j 0 % 2 ^ tagWidth t = e j := by
    simp [List.getD, hj, Nat.mod_eq_of_lt (he j)]
  by_cases hw : tagWidth t < tagWidth s
  · have hmax : max (2048 / tagWidth s) (2048 / tagWidth t) = 2048 / tagWidth t := max_eq_right (Nat.div_le_div_left hw.le ht)
    have hbits : bits = ofLanes (tagWidth t) ((lanes (tagWidth t) merge).take (p * cvtCount s t) ++ (List.range (cvtCount s t)).map e
        ++ (lanes (tagWidth t) merge).drop (p * cvtCount s t + cvtCount s t)) := if_pos hw
    rw [hbits]
    have hr := getD_replaced (l := lanes (tagWidth t) merge) hlen (hpart.trans_eq (hmax.trans (lanes_length ..).symm))
    refine ⟨fun j hj => ?_, fun _ i hi hout => BitVec.eq_of_toNat_eq ?_⟩
    · rw [cvtLane, if_pos hw, lane_ofLanes _ (by omega), hr, if_pos (by omega), Nat.add_sub_cancel_left, hget hj]
    · rw [lane_ofLanes _ hi, hr, if_neg (by omega), getD_lanes _ hi, Nat.mod_eq_of_lt (BitVec.isLt _)]
  · have hbits : bits = ofLanes (tagWidth t) ((List.range (cvtCount s t)).map e) := if_neg hw
    refine ⟨fun j hj => ?_, fun h => absurd h hw⟩
    rw [hbits, cvtLane, if_neg hw, lane_ofLanes _ (by omega), hget hj]

/-! ### The elements of a conversion (R167 to R170) -/

/-- What a conversion computes of the elements `xs`, with B's multipliers `ms`. -/
def cvtResults (o : CvtOp) (s t : ℕ) (rm : BitVec 2) (lfsr : BitVec 32) (origin : ℕ) (xs ms : List ℕ) : List (ℕ × Flags) :=
  match o with
  | .cvt => xs.map (cvtElem s t rm)
  | .cvtsc => xs.zipIdx.map fun x => cvtscElem s t rm x.1 (ms.getD ((x.2 + origin) / 24) 0)
  | .cvtsr => match FpFmt.ofCode? t with
    | some f => cvtsrElems s f xs lfsr
    | none => []

/-- A legal conversion. -/
theorem vectorCvt_legal {o : CvtOp} {t : CvtT} {rm : BitVec 2} {lfsr : BitVec 32} {a b c d : Val}
    (h : ¬(cvtParts (cvtSourceTag o a) t.code ≤ (cvtPart o b c d).1 ∨ o = .cvtsc ∧ 23 < fld c.low 0 5)) :
    vectorCvt o t rm lfsr a b c d =
      let s := cvtSourceTag o a
      let p := cvtPart o b c d
      let r := cvtResults o s t.code rm lfsr (fld c.low 0 5) (cvtSource s t.code p.1 (a.lanes (tagWidth s))) (lanes 32 (b.lanes 32))
      .ok ⟨BitVec.ofNat 5 t.code, cvtMerge s t.code p.1 (r.map (·.1)) p.2.wide, r.foldl (fun fl x => fl ||| x.2) 0⟩ := by
  rw [vectorCvt, if_neg h]
  cases o with
  | cvt => rfl
  | cvtsc => rfl
  | cvtsr => rfl

/-- Element `j` of a conversion; of one with random bits, those that the LFSR gives after `j` elements (R112). -/
def cvtElemAt (o : CvtOp) (s t : ℕ) (rm : BitVec 2) (lfsr : BitVec 32) (src mult : ℕ → ℕ) (j : ℕ) : ℕ × Flags :=
  match o with
  | .cvt => cvtElem s t rm (src j)
  | .cvtsc => cvtscElem s t rm (src j) (mult j)
  | .cvtsr => stochasticFp ((FpFmt.ofCode? t).getD .f64) ((lfsrSteps (16 * j) lfsr).toNat % 2 ^ 16) (elemValue s (src j))

/-- The elements of CVTSR, by their places. -/
theorem cvtsrElems_eq (s : ℕ) (f : FpFmt) : ∀ (n : ℕ) (src : ℕ → ℕ) (l : BitVec 32), cvtsrElems s f ((List.range n).map src) l =
    (List.range n).map fun j => stochasticFp f ((lfsrSteps (16 * j) l).toNat % 2 ^ 16) (elemValue s (src j))
  | 0, _, _ => rfl
  | n + 1, src, l => by
    rw [List.range_succ_eq_map, List.map_cons, List.map_map, cvtsrElems, cvtsrElems_eq s f n (src ∘ Nat.succ), List.map_cons, List.map_map]
    rfl

/-- The results of a conversion, by their places. -/
theorem cvtResults_eq {o : CvtOp} {s t n origin : ℕ} {rm : BitVec 2} {lfsr : BitVec 32} (src : ℕ → ℕ) (b : Vec)
    (hn : n ≤ 512) (ho : origin < 32) (hfp : o = .cvtsr → ∃ f, FpFmt.ofCode? t = some f) :
    cvtResults o s t rm lfsr origin ((List.range n).map src) (lanes 32 b) = (List.range n).map
      (cvtElemAt o s t rm lfsr src fun j => (lane 32 b ((j + origin) / 24)).toNat) := by
  cases o with
  | cvt => exact List.map_map ..
  | cvtsc =>
    refine List.ext_getElem (by simp [cvtResults]) fun j h1 h2 => ?_
    have hj : j < n := by simpa using h2
    simp only [cvtResults, List.getElem_map, List.getElem_zipIdx, List.getElem_range, Nat.zero_add, cvtElemAt]
    rw [getD_lanes _ (by omega)]
  | cvtsr =>
    obtain ⟨f, hf⟩ := hfp rfl
    simp only [cvtResults, hf, cvtsrElems_eq]
    refine List.map_congr_left fun j _ => ?_
    simp only [cvtElemAt, hf, Option.getD_some]

theorem cvtElemAt_lt {o : CvtOp} {s t : ℕ} (rm : BitVec 2) (lfsr : BitVec 32) (src mult : ℕ → ℕ)
    (hfp : o = .cvtsr → ∃ f, FpFmt.ofCode? t = some f) (j : ℕ) : (cvtElemAt o s t rm lfsr src mult j).1 < 2 ^ tagWidth t := by
  cases o with
  | cvt => exact cvtElem_lt ..
  | cvtsc => exact cvtscElem_lt ..
  | cvtsr =>
    obtain ⟨f, hf⟩ := hfp rfl
    simp only [cvtElemAt, hf, Option.getD_some]
    exact (stochasticFp_lt (Nat.mod_lt _ (by norm_num)) _).trans_le (Nat.pow_le_pow_right two_pos (codeBits_le_tagWidth hf))

/-! ### A conversion runs -/

/-- The frame after the LFSR's steps of a conversion. -/
def Frame.stepped (o : CvtOp) (n : ℕ) (f : Frame) : Frame :=
  if o = .cvtsr then { f with c := { f.c with
    fpst := fpstSetLfsr f.c.fpst (lfsrSteps (16 * n) (fpstLfsr f.c.fpst)), cvtsrs := f.c.cvtsrs + 1 } } else f

/-- What a conversion that does not wait pushes, and the LFSR's steps. -/
theorem pureRun_cvt {o : CvtOp} {t : CvtT} {f : Frame} {x : Args} {p : Push} (hw : x.wait = false) (hf : f.c.fpsetWaits = false)
    (hn : o = .cvtsr → cvtCount (cvtSourceTag o x.a.value) t.code ≠ 0)
    (hp : vectorCvt o t (fpstRm f.t.snap.ctx.fpst) (fpstLfsr f.c.fpst) x.a.value x.b.value x.c.value x.d.value = .ok p) :
    pureRun (.vector (.cvt o t)) f x = .ok (f.stepped o (cvtCount (cvtSourceTag o x.a.value) t.code),
      ⟨some (4, p), none, if o = .cvtsr then some (fpstLfsr f.c.fpst, f.c.cvtsrs, f.c.writes) else none, [], 0, none⟩) := by
  have hwait := hw
  simp only [Args.wait, Bool.or_eq_false_iff] at hw
  obtain ⟨⟨⟨ha, hb⟩, hc⟩, hd⟩ := hw
  have hcomp : pureCompute (.vector (.cvt o t)) (fpstRm f.t.snap.ctx.fpst) (fpstLfsr f.c.fpst) (f.guessArgs x).a.value
      (f.guessArgs x).b.value (f.guessArgs x).c.value (f.guessArgs x).d.value = .ok p := by
    simpa [pureCompute, vectorCompute, Frame.guessArgs, Frame.guess_value, ha, hb, hc, hd] using hp
  have hlat : pureLatency (.vector (.cvt o t)) = 4 := rfl
  have hrand : pureRandoms (.vector (.cvt o t)) f x = if o = .cvtsr then cvtCount (cvtSourceTag o x.a.value) t.code else 0 := by
    cases o with
    | cvtsr => simp only [pureRandoms, Frame.argTag, Frame.guess_value f ha, cvtSourceTag, if_true]
    | _ => rfl
  by_cases ho : o = .cvtsr
  · rw [if_pos ho] at hrand
    simp only [pureRun, hf, Bool.false_eq_true, if_false, hrand, if_neg (hn ho), hcomp, hwait, hlat, if_pos ho, Frame.stepped]
  · rw [if_neg ho] at hrand
    simp only [pureRun, hf, Bool.false_eq_true, if_false, hrand, if_true, hcomp, hwait, hlat, if_neg ho, Frame.stepped]

theorem eq_true_of_need {b : Bool} {e : Stop} {u : Unit} (h : need b e = .ok u) : b = true := by
  cases b with
  | true => rfl
  | false => cases h

theorem CvtT.code_lt (t : CvtT) : t.code < 19 := by
  cases t with
  | fp e => cases e <;> decide
  | _ => decide

/-- A conversion with random bits whose operands are taken has a floating target (R108). -/
theorem target_of_takes {o : CvtOp} {t : CvtT} {f : Frame} {a : Src} {x : Args} {k : Fetch} {held : Bool}
    (h : f.Takes (pureTrig (.vector (.cvt o t)) f.unit a) x k held) (ho : o = .cvtsr) : ∃ e, FpFmt.ofCode? t.code = some e := by
  obtain ⟨ka, _, h⟩ := except_bind_ok h.1
  obtain ⟨kb, _, h⟩ := except_bind_ok h
  obtain ⟨kc, _, h⟩ := except_bind_ok h
  obtain ⟨kd, _, h⟩ := except_bind_ok h
  obtain ⟨_, hneed, _⟩ := except_bind_ok h
  have hk : vectorKinds (.cvt o t) ka kb kc = true := eq_true_of_need hneed
  subst ho
  simp only [vectorKinds, Bool.and_true, cvtLegal] at hk
  cases he : FpFmt.ofCode? t.code with
  | some e => exact ⟨e, rfl⟩
  | none => simp [he] at hk

/-- Settles O19: the elements of a conversion, where they stand, and their flags. -/
theorem conversionResults : Obligations.ConversionResults := by
  intro o h t a s f x k held hr ht hw hf st ws wt n p origin merge hp horigin src lfsr mult rnd fmt elem
  have hpart : p < cvtParts st t.code := hp
  have hn0 : n ≠ 0 := fun h0 => by rw [h0, Nat.div_zero] at hp; omega
  have hws : 0 < tagWidth st := Nat.pos_of_ne_zero fun h0 => hn0 (by simp only [n, ws, h0, Nat.div_zero, Nat.zero_min])
  have hwt : 0 < tagWidth t.code := Nat.pos_of_ne_zero fun h0 => hn0 (by simp only [n, wt, h0, Nat.div_zero, Nat.min_zero])
  have hn : n ≤ 512 := by
    have hw4 : 4 ≤ tagWidth t.code := by cases t with
      | fp e => cases e <;> decide
      | _ => decide
    exact (cvtCount_le st t.code).2.trans (Nat.div_le_div_left hw4 (by norm_num))
  have hfp := target_of_takes ht
  have hpartEq : (cvtPart o x.b.value x.c.value x.d.value).1 = p := cvtPart_eq ..
  have hmergeEq : (cvtPart o x.b.value x.c.value x.d.value).2.wide = merge := by cases o <;> rfl
  have horiginEq : fld x.c.value.low 0 5 = origin := by simp [fld, BitVec.extractLsb'_toNat, origin]
  have hlegal : ¬(cvtParts st t.code ≤ (cvtPart o x.b.value x.c.value x.d.value).1 ∨ o = .cvtsc ∧ 23 < fld x.c.value.low 0 5) := by
    rw [hpartEq, horiginEq]
    rintro (h | ⟨ho, h⟩)
    · omega
    · have := horigin ho
      omega
  have hdel := ht.ready_delivered
  have hready : (k.ready f.unit).c.fpsetWaits = false := by
    rw [← hf]
    exact congrArg (List.any · Held.isFpset) hdel.held
  have hsnap : (k.ready f.unit).t.snap = f.t.snap := hdel.snap
  have hcvt := vectorCvt_legal (t := t) (rm := fpstRm f.t.snap.ctx.fpst) (lfsr := lfsr) hlegal
  have helem : elem = cvtElemAt o st t.code (fpstRm f.t.snap.ctx.fpst) lfsr src mult := by
    funext j
    cases o <;> rfl
  have hcount : cvtCount st t.code = n := rfl
  have hsource : cvtSource st t.code p (x.a.value.lanes (tagWidth st)) = (List.range n).map src := by
    rw [cvtSource_eq hws hpart]
    rfl
  have hresults := cvtResults_eq (o := o) (s := st) (rm := fpstRm f.t.snap.ctx.fpst) (lfsr := lfsr) src (x.b.value.lanes 32) hn
    (Nat.mod_lt x.c.value.low.toNat (by norm_num) : origin < 32) hfp
  dsimp only at hcvt
  rw [hpartEq, hmergeEq, horiginEq, hsource, hresults, ← helem, List.map_map] at hcvt
  have hrun := pureRun_cvt hw hready (fun _ => hn0) (by rw [hsnap]; exact hcvt)
  obtain ⟨hin, hout⟩ := lane_cvtMerge hwt hpart (fun j => (elem j).1) (by rw [helem]; exact cvtElemAt_lt _ _ _ _ hfp) merge
  refine ⟨_, ((List.range n).map elem).foldl (fun fl r => fl ||| r.2) 0, (k.ready f.unit).stepped o n, ?_, fun ho => if_neg ho, fun ho => if_pos ho, hin, fun b => ?_, fun j _ => ?_, hout⟩
  · rw [exec_vectorInstr]
    refine runSlot_of_ok hr (trigger_of_takes hr.again ht hrun ?_)
    unfold Frame.stepped
    split <;> exact ht.ready_late f.unit
  · rw [foldl_or_getLsbD]
    simp
  · refine ⟨fun ho => ?_, fun ho => ?_, fun ho => ?_⟩
    · subst ho
      refine cvtRule_cvtElem (CvtT.code_lt t) ?_ _
      by_cases h21 : st = 21
      · have h8 : ws = 8 := by rw [show ws = tagWidth st from rfl, h21]; rfl
        exact .inl ((BitVec.isLt _).trans_eq (by rw [h8]))
      · exact .inr h21
    · subst ho
      exact scaledRule_cvtscElem st t.code _ (src j) (mult j)
    · subst ho
      exact randomRule_stochasticFp (s := st) (f := fmt) (x := src j) (Nat.mod_lt _ (by norm_num))

end Sys2Proof.Machine
end

section
/-! PROOF. The opening of a bundle (R50 to R58, R67, R139, R382). -/

namespace Sys2Proof.Machine

/-- Fetching blocks touches translations and clocks alone. -/
theorem Frame.hasFetched_readIn (f : Frame) (va : ℕ) : ∃ g, f.s.ReadIn g ∧ f.hasFetched va = { f with s := g } := by
  unfold Frame.hasFetched
  split
  · exact ⟨_, State.tileHasRead_readIn .., rfl⟩
  · exact ⟨f.s, .refl _, rfl⟩

theorem Frame.foldl_hasFetched {α : Type} (va : α → ℕ) : ∀ (l : List α) (f : Frame),
    ∃ g, f.s.ReadIn g ∧ l.foldl (fun f x => f.hasFetched (va x)) f = { f with s := g }
  | [], f => ⟨f.s, .refl _, rfl⟩
  | x :: l, f => by
    obtain ⟨g, hg, hf⟩ := f.hasFetched_readIn (va x)
    obtain ⟨g', hg', hl⟩ := Frame.foldl_hasFetched va l { f with s := g }
    exact ⟨g', hg.trans hg', by rw [List.foldl_cons, hf, hl]⟩

/-! ### What a bundle's header gives (R51 to R54, R58) -/

theorem testValue_eq (b : Block) (p : BitVec 8) {j : ℕ} (hj : j < 4) :
    testValue p (hdrTest b j) = (p.getLsbD (b.toNat / 2 ^ (247 - 4 * j) % 8) != b.getLsbD (250 - 4 * j)) := by
  unfold testValue hdrTest
  have h8 : b.toNat / 2 ^ (247 - 4 * j) % 2 ^ 4 % 8 = b.toNat / 2 ^ (247 - 4 * j) % 8 := by omega
  have hbit : (b.toNat / 2 ^ (247 - 4 * j) % 2 ^ 4 / 8 % 2 == 1) = b.getLsbD (250 - 4 * j) := by
    rw [BitVec.getLsbD, Nat.testBit_eq_decide_div_mod_eq, show 250 - 4 * j = 247 - 4 * j + 3 by omega, pow_add, ← Nat.div_div_eq_div_mul]
    rw [show b.toNat / 2 ^ (247 - 4 * j) % 2 ^ 4 / 8 % 2 = b.toNat / 2 ^ (247 - 4 * j) / 2 ^ 3 % 2 by omega]
    exact Bool.beq_eq_decide_eq _ _
  rw [fld_eq, h8, hbit]

theorem literalsOf_getElem? : ∀ (ls : List Block) (j m : ℕ) (hj : j < ls.length), m < 7 →
    (literalsOf ls)[7 * j + m]? = some (ls[j].extractLsb' (32 * m) 32)
  | [], j, _, hj, _ => absurd hj (Nat.not_lt_zero j)
  | l :: ls, 0, m, _, hm => by
    rw [literalsOf, List.map_cons, List.flatten_cons, List.getElem?_append_left (by simp only [List.length_map, List.length_range]; omega)]
    simp [hm]
  | l :: ls, j + 1, m, hj, hm => by
    have ih := literalsOf_getElem? ls j m (Nat.lt_of_succ_lt_succ hj) hm
    rw [literalsOf, List.map_cons, List.flatten_cons, List.getElem?_append_right (by simp only [List.length_map, List.length_range]; omega)]
    rw [List.length_map, List.length_range, show 7 * (j + 1) + m - 7 = 7 * j + m by omega]
    exact ih

/-- A level keeps a bundle's blocks where it is active, its body holds the bundle and its buffer does not. -/
theorem Level.buffered_eq (l : Level) (pc : ℕ) (bs : List (ℕ × Block)) :
    (if l.active && l.start ≤ pc && pc ≤ l.fin && !(l.code.any (·.1 == pc)) then { l with code := l.code ++ bs } else l)
      = { l with code := if l.active = true ∧ l.start ≤ pc ∧ pc ≤ l.fin ∧ ∀ x ∈ l.code, x.1 ≠ pc then l.code ++ bs else l.code } := by
  have hiff : (l.active && l.start ≤ pc && pc ≤ l.fin && !(l.code.any (·.1 == pc))) = true
      ↔ l.active = true ∧ l.start ≤ pc ∧ pc ≤ l.fin ∧ ∀ x ∈ l.code, x.1 ≠ pc := by
    simp [and_assoc]
  by_cases h : l.active = true ∧ l.start ≤ pc ∧ pc ≤ l.fin ∧ ∀ x ∈ l.code, x.1 ≠ pc
  · rw [if_pos h, if_pos (hiff.2 h)]
  · rw [if_neg h, if_neg (mt hiff.1 h)]

/-- The frame of a bundle that opens, with its literal blocks. -/
def Frame.opened (f : Frame) (g : State) (b : Block) (ls : List Block) : Frame :=
  let l := vget f.c.levels (hdrGl b) Level.idle
  let c := f.c.bufferBlocks f.c.pc ((f.c.pc, b) :: ls.zipIdx.map fun p => ((f.c.pc + 32 * (p.2 + 1)) % 2 ^ 64, p.1))
  { f with
    s := g
    t := { f.t with waits := none, spec := f.t.spec.map fun p => { p with bundles := p.bundles + 1 } }
    c := { c with seq := { Seq.start with
      issuing := true
      block := b
      lits := literalsOf ls
      leaf := treeLeaf b f.c.preds
      first := l.atFirst
      last := l.atLast
      reached := f.c.seq.reached } } }

/-- Settles O2: what opening a bundle leaves, and what refuses it. -/
theorem bundleOpens : Obligations.BundleOpens := by
  intro s f hs
  have hexec : exec .bundleIssue s = execBundleIssue s := rfl
  refine ⟨fun p hp h256 => ?_, fun hspec => ?_⟩
  · rw [hexec, execBundleIssue, hs]
    dsimp only
    rw [if_pos (by rw [hp]; exact h256)]
  have hopen : exec .bundleIssue s = .next f.openBundle := by
    rw [hexec, execBundleIssue, hs]
    dsimp only
    refine if_neg (Nat.not_le.2 ?_)
    cases hp : f.t.spec with
    | none => exact Nat.zero_lt_succ _
    | some p => exact hspec p hp
  rw [hopen]
  intro pc refused Seen
  refine ⟨fun va why (hf : f.fetchBlock f.c.pc = _) => ?_, fun va (hf : f.fetchBlock f.c.pc = _) => ?_,
    fun b (hb : f.fetchBlock f.c.pc = _) => ?_⟩
  · unfold Frame.openBundle
    dsimp only
    rw [hf]
    rfl
  · unfold Frame.openBundle
    dsimp only
    rw [hf]
    rfl
  obtain ⟨g, hg, hfetched⟩ := f.hasFetched_readIn f.c.pc
  refine ⟨g, hg, fun hbit => ?_, fun hbit => ⟨fun va why (hl : Frame.fetchLiterals _ f.c.pc _ = _) => ?_,
    fun ls (hl : Frame.fetchLiterals _ f.c.pc _ = _) => ?_⟩⟩
  · unfold Frame.openBundle
    dsimp only
    rw [hb]
    dsimp only
    rw [hfetched, if_pos (by rw [show bit b 255 = false from hbit]; rfl)]
    rfl
  · unfold Frame.openBundle
    dsimp only
    rw [hb]
    dsimp only
    rw [hfetched, if_neg (by rw [show bit b 255 = true from hbit]; decide)]
    rw [show hdrLb b = b.toNat / 2 ^ 253 % 4 from fld_eq .., hl]
    rfl
  obtain ⟨g', hg', hall⟩ := Frame.foldl_hasFetched (fun i => (f.c.pc + 32 * i) % 2 ^ 64) (rangeFrom 1 ls.length) { f with s := g }
  have hstep : f.openBundle = if illegalEncoding b ls then Frame.refuseBundle { f with s := g' } .illenc 0 0 b
      else if illegalDependence b ls then Frame.refuseBundle { f with s := g' } .illdep 0 0 b else (f.opened g' b ls).put := by
    unfold Frame.openBundle
    dsimp only
    rw [hb]
    dsimp only
    rw [hfetched, if_neg (by rw [show bit b 255 = true from hbit]; decide), show hdrLb b = b.toNat / 2 ^ 253 % 4 from fld_eq .., hl]
    dsimp only
    rw [hall]
    rfl
  refine ⟨g', hg.trans hg', fun he => ?_, fun he hd => ?_, fun he hd => ?_⟩
  · rw [hstep, if_pos he]
    rfl
  · rw [hstep, if_neg (by simp [he]), if_pos hd]
    rfl
  rw [hstep, if_neg (by simp [he]), if_neg (by simp [hd])]
  intro test leaf
  refine ⟨f.opened g' b ls, rfl, rfl, rfl, rfl, fun n => ?_, rfl, rfl, rfl, rfl, ?_, rfl, rfl, rfl,
    fun j m => literalsOf_getElem? ls j m j.isLt m.isLt, fun lv hlv => ?_⟩
  · show (f.opened g' b ls).c.levels[n] = _
    simp only [Frame.opened, Ctx.bufferBlocks, Fin.getElem_fin, Vector.getElem_map]
    exact Level.buffered_eq ..
  · show treeLeaf b f.c.preds = leaf
    unfold treeLeaf hdrTs
    rw [fld_eq]
    simp only [testValue_eq b f.c.preds (show 0 < 4 by decide), testValue_eq b f.c.preds (show 1 < 4 by decide),
      testValue_eq b f.c.preds (show 2 < 4 by decide), testValue_eq b f.c.preds (show 3 < 4 by decide)]
    rfl
  · have hgl : vget f.c.levels (hdrGl b) Level.idle = f.c.levels[lv] := by
      rw [hdrGl, fld_eq, show b.toNat / 2 ^ 200 % 2 ^ 3 = lv.val from hlv, vget_eq_getElem]
    constructor
    · show (vget f.c.levels (hdrGl b) Level.idle).atFirst = true ↔ _
      rw [hgl]
      simp [Level.atFirst]
    · show (vget f.c.levels (hdrGl b) Level.idle).atLast = true ↔ _
      rw [hgl]
      simp [Level.atLast]

end Sys2Proof.Machine
end

section
/-! SUPPORT. What it is for an operation to leave memory canonical: the rules that every operation's proof is put together from. -/

namespace Sys2Proof.Machine

/-- What stops a slot holds canonical memory. -/
def Stop.Wf : Stop → Prop
  | .stall _ g => Memory.wf g.s.mem
  | .behind g => Memory.wf g.s.mem
  | _ => True

/-- What an operation answers, or what stops it, is as `P` or `E` says. -/
inductive Keeps {ε α : Type} (E : ε → Prop) (P : α → Prop) : Except ε α → Prop
  | ok {a : α} (h : P a) : Keeps E P (.ok a)
  | error {e : ε} (h : E e) : Keeps E P (.error e)

/-- What an instruction leaves has canonical memory. -/
inductive Leaves : Host.Outcome State Fault Refusal → Prop
  | next {s : State} (h : Memory.wf s.mem) : Leaves (.next s)
  | fault {e : Fault} : Leaves (.fault e)
  | refused {e : Refusal} : Leaves (.refused e)

namespace Keeps
variable {ε α β : Type} {E : ε → Prop} {P : α → Prop} {Q : β → Prop} {x : Except ε α}

theorem of_ok {a : α} (h : Keeps E P x) (hx : x = .ok a) : P a := by
  cases h with
  | ok h => cases hx; exact h
  | error h => cases hx

theorem of_error {e : ε} (h : Keeps E P x) (hx : x = .error e) : E e := by
  cases h with
  | ok h => cases hx
  | error h => cases hx; exact h

theorem bind {g : α → Except ε β} (h : Keeps E P x) (hg : ∀ a, P a → Keeps E Q (g a)) : Keeps E Q (x >>= g) := by
  cases h with
  | ok h => exact hg _ h
  | error h => exact .error h

theorem map {g : α → β} (h : Keeps E P x) (hg : ∀ a, P a → Q (g a)) : Keeps E Q (x.map g) := by
  cases h with
  | ok h => exact .ok (hg _ h)
  | error h => exact .error h

theorem any : Keeps (fun _ => True) (fun _ => True) x := by
  cases x with
  | ok a => exact .ok trivial
  | error e => exact .error trivial

theorem pure {a : α} (h : P a) : Keeps E P (Pure.pure a : Except ε α) := .ok h

end Keeps

theorem Leaves.of_next {x : Host.Outcome State Fault Refusal} {s : State} (h : Leaves x) (hx : x = .next s) : Memory.wf s.mem := by
  cases h with
  | next h => cases hx; exact h
  | fault => cases hx
  | refused => cases hx

/-- A fold keeps what each of its steps keeps. -/
theorem foldl_keeps {α β : Type} {P : β → Prop} {g : β → α → β} (hg : ∀ b a, P b → P (g b a)) : ∀ (l : List α) {b : β}, P b → P (l.foldl g b)
  | [], _, h => h
  | a :: l, _, h => foldl_keeps hg l (hg _ a h)

theorem State.foldl_wf {α : Type} {g : State → α → State} {l : List α} {s : State} (hg : ∀ (s : State) a, Memory.wf s.mem → Memory.wf (g s a).mem)
    (h : Memory.wf s.mem) : Memory.wf (l.foldl g s).mem := foldl_keeps (P := fun s : State => Memory.wf s.mem) hg l h

theorem State.foldr_wf {α : Type} {g : α → State → State} {s : State} (hg : ∀ a (s : State), Memory.wf s.mem → Memory.wf (g a s).mem)
    (h : Memory.wf s.mem) : ∀ l : List α, Memory.wf (l.foldr g s).mem
  | [] => h
  | a :: l => hg a _ (foldr_wf hg h l)

theorem Frame.foldl_wf {α : Type} {g : Frame → α → Frame} {l : List α} {f : Frame} (hg : ∀ (f : Frame) a, Memory.wf f.s.mem → Memory.wf (g f a).s.mem)
    (h : Memory.wf f.s.mem) : Memory.wf (l.foldl g f).s.mem := foldl_keeps (P := fun f : Frame => Memory.wf f.s.mem) hg l h

/-! ### Memory itself -/

theorem Memory.filter_wfFrom (p : Host.Cell → Bool) : ∀ {m : List Host.Cell} {lo : ℕ}, Memory.wfFrom lo m → Memory.wfFrom lo (m.filter p)
  | [], _, w => w
  | (k, b) :: m, lo, w => by
    obtain ⟨hlo, hb, hm⟩ := Memory.wfFrom_cons.1 w
    have ih := filter_wfFrom p hm
    rw [List.filter_cons]
    split
    · exact Memory.wfFrom_cons.2 ⟨hlo, hb, ih⟩
    · exact Memory.wfFrom_mono (hlo.trans (Nat.le_succ k)) ih

theorem Memory.filter_wf {m : List Host.Cell} (p : Host.Cell → Bool) (w : Memory.wf m) : Memory.wf (m.filter p) := Memory.filter_wfFrom p w

theorem State.write_wf {s : State} {k : ℕ} {bs : List Byte} (h : Memory.wf s.mem) : Memory.wf (s.write k bs).mem := Memory.write_wf h

end Sys2Proof.Machine
end

section
/-! SUPPORT. Memory stays canonical: the state of one LZD-2304 module. -/

namespace Sys2Proof.Machine

end Sys2Proof.Machine
end

section
/-! SUPPORT. Memory stays canonical: the named operations over memory, strands and contexts. -/

namespace Sys2Proof.Machine

theorem State.undefine_wf {s : State} {k n} (w : Memory.wf s.mem) : Memory.wf (State.undefine s k n).mem := by
  unfold State.undefine
  exact State.write_wf w

theorem State.setStrand_wf {s : State} {t} (w : Memory.wf s.mem) : Memory.wf (State.setStrand s t).mem := by
  unfold State.setStrand
  exact w

theorem State.setCtx_wf {s : State} {c} (w : Memory.wf s.mem) : Memory.wf (State.setCtx s c).mem := by
  unfold State.setCtx
  exact w

theorem State.frameOf_wf {s : State} {sid} (w : Memory.wf s.mem) : ∀ r, State.frameOf s sid = some r → Memory.wf r.s.mem := by
  intro r hr
  obtain ⟨t, _, ht⟩ := Option.bind_eq_some_iff.1 hr
  obtain ⟨c, _, rfl⟩ := Option.map_eq_some_iff.1 ht
  exact w

theorem State.frame_wf {s : State} (w : Memory.wf s.mem) : ∀ r, State.frame s = some r → Memory.wf r.s.mem := by
  intro r hr
  obtain ⟨sid, _, hf⟩ := Option.bind_eq_some_iff.1 hr
  exact State.frameOf_wf w _ hf

theorem Frame.put_wf {f : Frame} (w : Memory.wf f.s.mem) : Memory.wf (Frame.put f).mem := by
  unfold Frame.put
  exact State.setCtx_wf (State.setStrand_wf w)

theorem State.setTask_wf {s : State} {k} (w : Memory.wf s.mem) : Memory.wf (State.setTask s k).mem := by
  unfold State.setTask
  exact w

theorem State.setTile_wf {s : State} {r} (w : Memory.wf s.mem) : Memory.wf (State.setTile s r).mem := by
  unfold State.setTile
  exact w

theorem State.standClaims_wf {s : State} {ctx next} (w : Memory.wf s.mem) : Memory.wf (State.standClaims s ctx next).mem := by
  unfold State.standClaims
  exact w

theorem State.claim_wf {s : State} {ctx h before bs} (w : Memory.wf s.mem) : Memory.wf (State.claim s ctx h before bs).mem := by
  unfold State.claim
  exact w

theorem State.release_wf {s : State} {h} (w : Memory.wf s.mem) : Memory.wf (State.release s h).mem := by
  unfold State.release
  exact w

theorem State.event_wf {s : State} (w : Memory.wf s.mem) : Leaves (State.event s) := by
  unfold State.event
  exact .next w

end Sys2Proof.Machine
end

section
/-! SUPPORT. Memory stays canonical: the dies' vector clocks, the stamps of global writes and their invalidations, and the watchdog's progress. -/

namespace Sys2Proof.Machine

theorem State.setDieClock_wf {s : State} {d k} (w : Memory.wf s.mem) : Memory.wf (State.setDieClock s d k).mem := by
  unfold State.setDieClock
  exact w

theorem State.noteWrite_wf {s : State} {d k n} (w : Memory.wf s.mem) : Memory.wf (State.noteWrite s d k n).mem := by
  unfold State.noteWrite
  refine State.foldl_wf (fun s1 a1 h1 => ?_) w
  dsimp only
  split
  · exact h1
  · exact State.setDieClock_wf h1

theorem State.noteRead_wf {s : State} {d k n} (w : Memory.wf s.mem) : Memory.wf (State.noteRead s d k n).mem := by
  unfold State.noteRead
  exact State.setDieClock_wf w

theorem State.noteWrites_wf {s : State} {d l} (w : Memory.wf s.mem) : Memory.wf (State.noteWrites s d l).mem := by
  unfold State.noteWrites
  exact State.foldl_wf (fun _ _ h12 => State.noteWrite_wf h12) w

theorem State.noteReads_wf {s : State} {d l} (w : Memory.wf s.mem) : Memory.wf (State.noteReads s d l).mem := by
  unfold State.noteReads
  exact State.foldl_wf (fun _ _ h12 => State.noteRead_wf h12) w

theorem State.releaseDie_wf {s : State} {d} (w : Memory.wf s.mem) : Memory.wf (State.releaseDie s d).mem := by
  unfold State.releaseDie
  exact State.setDieClock_wf w

theorem execInvalidationApply_wf {die stamp} {s : State} (w : Memory.wf s.mem) : Leaves (execInvalidationApply die stamp s) := by
  unfold execInvalidationApply
  dsimp only
  split
  · exact State.event_wf (State.setDieClock_wf w)
  · exact State.event_wf w

theorem State.progress_wf {s : State} {tid} (w : Memory.wf s.mem) : Memory.wf (State.progress s tid).mem := by
  unfold State.progress
  exact w

end Sys2Proof.Machine
end

section
/-! SUPPORT. Memory stays canonical: how a slot reads: claimable units first touched, sources and streams, operand ports, and what stops a slot. -/

namespace Sys2Proof.Machine

theorem need_wf {b} {e : Stop} (w : Stop.Wf e) : Keeps Stop.Wf (fun _ => True) (need b e) := by
  unfold need
  split
  · exact .ok trivial
  · exact .error w

theorem Frame.own_wf {f : Frame} {u} (w : Memory.wf f.s.mem) : Memory.wf (Frame.own f u).s.mem := by
  unfold Frame.own
  dsimp only
  split
  · exact w
  · exact State.setTile_wf w

theorem Frame.touch_wf {f : Frame} {u} (w : Memory.wf f.s.mem) : Keeps Stop.Wf (fun r => Memory.wf r.s.mem) (Frame.touch f u) := by
  unfold Frame.touch
  split
  · exact .ok (Frame.own_wf w)
  · exact .error trivial

theorem Frame.touchAll_wf {f : Frame} {us} (w : Memory.wf f.s.mem) : Keeps Stop.Wf (fun r => Memory.wf r.s.mem) (Frame.touchAll f us) := by
  induction us generalizing f with
  | nil => exact .ok w
  | cons u us ih =>
    unfold Frame.touchAll
    split
    · rename_i e
      have h1 := Keeps.of_ok (Frame.touch_wf w) e
      exact ih h1
    · rename_i e
      exact .error (Keeps.of_error (Frame.touch_wf w) e)

theorem Frame.want_wf {f : Frame} {u} (w : Memory.wf f.s.mem) : Memory.wf (Frame.want f u).s.mem := by
  unfold Frame.want
  exact w

theorem Frame.reach_wf {f : Frame} {u} (w : Memory.wf f.s.mem) : Keeps Stop.Wf (fun r => Memory.wf r.s.mem) (Frame.reach f u) := by
  unfold Frame.reach
  split
  · exact .ok (Frame.own_wf w)
  · split
    · exact .ok (Frame.want_wf w)
    · exact .error trivial

theorem Frame.reachAll_wf {f : Frame} {us} (w : Memory.wf f.s.mem) : Keeps Stop.Wf (fun r => Memory.wf r.s.mem) (Frame.reachAll f us) := by
  induction us generalizing f with
  | nil => exact .ok w
  | cons u us ih =>
    unfold Frame.reachAll
    split
    · rename_i e
      have h1 := Keeps.of_ok (Frame.reach_wf w) e
      exact ih h1
    · rename_i e
      exact .error (Keeps.of_error (Frame.reach_wf w) e)

theorem Frame.access_wf {f : Frame} {keys writes} (m : Memory.wf f.s.mem) : Keeps Stop.Wf (fun r => Memory.wf r.s.mem) (Frame.access f keys
    writes) := by
  unfold Frame.access
  dsimp only
  split
  · exact .error m
  · exact .ok m

theorem Frame.kind_wf {f : Frame} {y1} (w : Memory.wf f.s.mem) : Keeps Stop.Wf (fun _ => True) (Frame.kind f y1) := by
  unfold Frame.kind
  split
  · exact .ok trivial
  · exact .ok trivial
  · dsimp only
    split
    · exact .error w
    · split
      · exact .error trivial
      · split
        · exact .ok trivial
        · exact .ok trivial
  · split
    · exact .error trivial
    · exact .ok trivial
  · exact .ok trivial
  · exact .ok trivial

theorem Frame.setTokens_wf {f : Frame} {n l} (w : Memory.wf f.s.mem) : Memory.wf (Frame.setTokens f n l).s.mem := by
  unfold Frame.setTokens
  split
  · exact w
  · exact w
  · exact w
  · exact w

theorem Frame.notePop_wf {f : Frame} {n w} (m : Memory.wf f.s.mem) : Memory.wf (Frame.notePop f n w).s.mem := by
  unfold Frame.notePop
  split
  · exact m
  · exact m

theorem Frame.popOnce_wf {f : Frame} {x bound} (w : Memory.wf f.s.mem) : Keeps Stop.Wf (fun r => Memory.wf r.s.mem) (Frame.popOnce f x bound) := by
  unfold Frame.popOnce
  dsimp only
  split
  · exact .error trivial
  · exact .ok w

theorem Frame.soundValue_wf {f : Frame} {x v} : Keeps Stop.Wf (fun _ => True) (Frame.soundValue f x v) := by
  unfold Frame.soundValue
  split
  · exact .ok trivial
  · exact .error trivial

theorem Frame.readValue_wf {f : Frame} {y1} (w : Memory.wf f.s.mem) : Keeps Stop.Wf (fun _ => True) (Frame.readValue f y1) := by
  unfold Frame.readValue
  split
  · dsimp only
    split
    · exact Frame.soundValue_wf
    · exact .error w
  · exact Frame.soundValue_wf
  · exact Frame.soundValue_wf
  · split
    · exact .ok trivial
    · split
      · exact .error w
      · exact .ok trivial
  · exact .ok trivial
  · exact .ok trivial
  · exact .ok trivial
  · exact .ok trivial
  · exact .ok trivial
  · exact .ok trivial
  · exact .ok trivial
  · exact .ok trivial
  · exact .ok trivial
  · exact .ok trivial
  · exact .ok trivial

theorem Fetch.token_wf {k : Fetch} {n pop bound} (w : Memory.wf k.f.s.mem) : Keeps Stop.Wf (fun r => Memory.wf r.2.f.s.mem) (Fetch.token k n pop
    bound) := by
  unfold Fetch.token
  split
  · split
    · exact .error w
    · split
      · rename_i e1
        have h1 := Keeps.of_error (Frame.popOnce_wf w) e1
        exact .error h1
      · rename_i e2
        have h2 := Keeps.of_ok (Frame.popOnce_wf w) e2
        exact .ok (Frame.notePop_wf (Frame.setTokens_wf h2))
  · exact .ok w

theorem Fetch.feed_wf {k : Fetch} {n pop bound} (w : Memory.wf k.f.s.mem) : Keeps Stop.Wf (fun r => Memory.wf r.2.f.s.mem) (Fetch.feed k n pop
    bound) := by
  unfold Fetch.feed
  dsimp only
  split
  · exact .error trivial
  · split
    · exact .ok w
    · split
      · exact .ok w
      · refine Keeps.bind (need_wf trivial) fun r1 h1 => ?_
        refine Keeps.bind (Frame.reachAll_wf w) fun r2 h2 => ?_
        split
        · split
          · rename_i e3
            have h3 := Keeps.of_error (Frame.popOnce_wf h2) e3
            exact .error h3
          · rename_i e4
            have h4 := Keeps.of_ok (Frame.popOnce_wf h2) e4
            exact .ok h4
        · exact .ok h2

theorem Fetch.column_wf {k : Fetch} {pop bound} (w : Memory.wf k.f.s.mem) : Keeps Stop.Wf (fun r => Memory.wf r.2.f.s.mem) (Fetch.column k pop
    bound) := by
  unfold Fetch.column
  split
  · exact .error trivial
  · dsimp only
    split
    · split
      · rename_i e1
        have h1 := Keeps.of_error (Frame.popOnce_wf w) e1
        exact .error h1
      · rename_i e2
        have h2 := Keeps.of_ok (Frame.popOnce_wf w) e2
        exact .ok h2
    · exact .ok w

theorem Fetch.source_wf {k : Fetch} {x pop bound} (w : Memory.wf k.f.s.mem) : Keeps Stop.Wf (fun r => Memory.wf r.2.f.s.mem) (Fetch.source k x
    pop bound) := by
  unfold Fetch.source
  split
  · exact Fetch.token_wf w
  · exact Fetch.feed_wf w
  · exact Fetch.column_wf w
  · split
    · exact .ok w
    · rename_i e1
      have h1 := Keeps.of_error (Frame.readValue_wf w) e1
      exact .error h1

theorem Frame.portKind_wf {f : Frame} {u p} (w : Memory.wf f.s.mem) : Keeps Stop.Wf (fun _ => True) (Frame.portKind f u p) := by
  unfold Frame.portKind
  dsimp only
  split
  · exact .ok trivial
  · split
    · exact .ok trivial
    · exact Frame.kind_wf w
    · exact .ok trivial

theorem Fetch.portValue_wf {k : Fetch} {u p used} (w : Memory.wf k.f.s.mem) : Keeps Stop.Wf (fun r => Memory.wf r.2.f.s.mem) (Fetch.portValue k u
    p used) := by
  unfold Fetch.portValue
  dsimp only
  split
  · exact .ok w
  · split
    · exact .ok w
    · split
      · exact Fetch.source_wf w
      · exact .ok w
    · exact .ok w

theorem Frame.settled_wf {f : Frame} (w : Memory.wf f.s.mem) : Keeps Stop.Wf (fun _ => True) (Frame.settled f) := by
  unfold Frame.settled
  split
  · exact .error w
  · exact .ok trivial

theorem Frame.drained_wf {f : Frame} (w : Memory.wf f.s.mem) : Keeps Stop.Wf (fun _ => True) (Frame.drained f) := by
  unfold Frame.drained
  split
  · exact .ok trivial
  · exact .error w

end Sys2Proof.Machine
end

section
/-! SUPPORT. Memory stays canonical: what the scalar and vector units compute from their operands alone. -/

namespace Sys2Proof.Machine

theorem vectorCvt_wf {o t rm lfsr a b c d} : Keeps Stop.Wf (fun _ => True) (vectorCvt o t rm lfsr a b c d) := by
  unfold vectorCvt
  dsimp only
  split
  · exact .error trivial
  · exact .ok trivial

theorem vectorCompute_wf {o rm lfsr a b c d} : Keeps Stop.Wf (fun _ => True) (vectorCompute o rm lfsr a b c d) := by
  unfold vectorCompute
  split
  · exact .ok trivial
  · exact .ok trivial
  · exact vectorCvt_wf
  · exact .ok trivial
  · exact .ok trivial
  · exact .ok trivial
  · exact .ok trivial
  · exact .ok trivial
  · exact .ok trivial
  · exact .ok trivial
  · exact .ok trivial

theorem pureCompute_wf {o rm lfsr a b c d} : Keeps Stop.Wf (fun _ => True) (pureCompute o rm lfsr a b c d) := by
  unfold pureCompute
  split
  · exact .ok trivial
  · exact vectorCompute_wf

end Sys2Proof.Machine
end

section
/-! SUPPORT. Memory stays canonical: physical addresses, routes, the page-table walk, and the fault ring. -/

namespace Sys2Proof.Machine

theorem State.send_wf {s : State} {dest p} (w : Memory.wf s.mem) : Memory.wf (State.send s dest p).mem := by
  unfold State.send
  split
  · exact w
  · exact w
  · exact w

theorem State.tellHost_wf {s : State} {m} (w : Memory.wf s.mem) : Memory.wf (State.tellHost s m).mem := by
  unfold State.tellHost
  exact w

theorem State.keepPage_wf {s : State} {hs va} (w : Memory.wf s.mem) : Memory.wf (State.keepPage s hs va).mem := by
  unfold State.keepPage
  split
  · exact w
  · exact w

theorem State.keepRange_wf {s : State} {hs va n} (w : Memory.wf s.mem) : Memory.wf (State.keepRange s hs va n).mem := by
  unfold State.keepRange
  split
  · exact w
  · exact State.foldl_wf (fun _ _ h12 => State.keepPage_wf h12) w

theorem State.dropRange_wf {s : State} {va n} (w : Memory.wf s.mem) : Memory.wf (State.dropRange s va n).mem := by
  unfold State.dropRange
  exact w

theorem State.writePieces_wf {s : State} {l bs} (w : Memory.wf s.mem) : Memory.wf (State.writePieces s l bs).mem := by
  induction l generalizing s bs with
  | nil => exact w
  | cons p l ih => exact ih (State.write_wf w)

theorem State.writeVirt_wf {s : State} {va bs} (w : Memory.wf s.mem) : Keeps (fun _ => True) (fun r => Memory.wf r.mem) (State.writeVirt s va bs)
    := by
  unfold State.writeVirt
  exact Keeps.map .any fun _ h12 => State.noteWrites_wf (State.writePieces_wf w)

theorem State.tileWrite_wf {s : State} {ptn va bs} (w : Memory.wf s.mem) : Keeps (fun _ => True) (fun r => Memory.wf r.mem) (State.tileWrite s
    ptn va bs) := by
  unfold State.tileWrite
  exact Keeps.map .any fun _ h12 => State.noteWrites_wf (State.writePieces_wf (State.keepRange_wf w))

theorem State.tileHasRead_wf {s : State} {ptn va n l} (w : Memory.wf s.mem) : Memory.wf (State.tileHasRead s ptn va n l).mem := by
  unfold State.tileHasRead
  exact State.noteReads_wf (State.keepRange_wf w)

theorem State.saveImage_wf {s : State} {ptn va n} (w : Memory.wf s.mem) : Keeps (fun _ => True) (fun r => Memory.wf r.mem) (State.saveImage s ptn
    va n) := by
  unfold State.saveImage
  exact Keeps.map .any fun _ h12 => State.noteWrites_wf (State.foldl_wf (fun _ _ h10 => State.undefine_wf h10) (State.keepRange_wf w))

theorem State.msix_wf {s : State} {vec} (w : Memory.wf s.mem) : Memory.wf (State.msix s vec).mem := by
  unfold State.msix
  exact State.tellHost_wf w

theorem State.writeRecord_wf {s : State} {kind acc why va ptn queue task} (m : Memory.wf s.mem) : Memory.wf (State.writeRecord s kind acc why va
    ptn queue task).mem := by
  unfold State.writeRecord
  dsimp only
  split
  · refine State.msix_wf ?_
    dsimp only
    exact State.noteWrite_wf (State.write_wf m)
  · dsimp only
    exact State.noteWrite_wf (State.write_wf m)

theorem State.inform_wf {s : State} {kind acc why va ptn queue task} (m : Memory.wf s.mem) : Memory.wf (State.inform s kind acc why va ptn queue
    task).mem := by
  unfold State.inform
  split
  · exact State.writeRecord_wf m
  · exact m

theorem State.informStrand_wf {s : State} {t kind acc why va} (m : Memory.wf s.mem) : Memory.wf (State.informStrand s t kind acc why va).mem := by
  unfold State.informStrand
  exact State.inform_wf m

end Sys2Proof.Machine
end

section
/-! SUPPORT. Memory stays canonical: how a bundle issues. -/

namespace Sys2Proof.Machine

theorem Frame.enterHandler_wf {f : Frame} {ws} (m : Memory.wf f.s.mem) : Memory.wf (Frame.enterHandler f ws).mem := by
  unfold Frame.enterHandler
  exact Frame.put_wf m

theorem State.failSave_wf {s : State} {t acc why va} (m : Memory.wf s.mem) : Memory.wf (State.failSave s t acc why va).mem := by
  unfold State.failSave
  exact State.setStrand_wf (State.informStrand_wf m)

theorem State.failCheck_wf {s : State} {t va} (w : Memory.wf s.mem) : Memory.wf (State.failCheck s t va).mem := by
  unfold State.failCheck
  exact State.setStrand_wf w

theorem State.readArea_wf {s : State} {t o n} (w : Memory.wf s.mem) : Keeps (fun e => Memory.wf e.mem) (fun r => Memory.wf r.1.mem)
    (State.readArea s t o n) := by
  unfold State.readArea
  split
  · exact .error (State.failSave_wf w)
  · split
    · exact .error (State.failCheck_wf w)
    · exact .ok (State.tileHasRead_wf w)

theorem State.readBack_wf {s : State} {c u l} (w : Memory.wf s.mem) : Memory.wf (State.readBack s c u l).1.mem := by
  unfold State.readBack
  split
  · exact w
  · dsimp only
    split
    · exact State.undefine_wf w
    · exact State.undefine_wf w
    · exact w

theorem State.restoreUnit_wf {s : State} {t c u} (w : Memory.wf s.mem) : Memory.wf (State.restoreUnit s t c u).mem := by
  unfold State.restoreUnit
  split
  · exact w
  · rename_i o n _
    split
    · exact w
    · split
      · exact State.failSave_wf w
      · rename_i l _
        split
        · exact State.failCheck_wf w
        · have hback := State.readBack_wf (c := c) (u := u) (l := l) (State.tileHasRead_wf (ptn := t.ptn) (va := csaBase t.csa + o) (n := n) (l
            := l) w)
          generalize State.readBack _ c u l = p at hback ⊢
          exact State.setCtx_wf (State.setTile_wf hback)

theorem Frame.saveAndEnter_wf {f : Frame} {ws} (m : Memory.wf f.s.mem) : Memory.wf (Frame.saveAndEnter f ws).mem := by
  unfold Frame.saveAndEnter
  split
  · exact State.failCheck_wf (Frame.put_wf m)
  · split
    · rename_i e1
      have h1 := Keeps.of_ok (State.saveImage_wf m) e1
      exact Frame.enterHandler_wf h1
    · exact State.failSave_wf (Frame.put_wf m)

theorem State.setCounter_wf {s : State} {k bal pend} (w : Memory.wf s.mem) : Memory.wf (State.setCounter s k bal pend).mem := by
  unfold State.setCounter
  exact State.write_wf w

theorem Frame.disarm_wf {f : Frame} {k} (w : Memory.wf f.s.mem) : Memory.wf (Frame.disarm f k).s.mem := by
  unfold Frame.disarm
  exact State.release_wf w

theorem Frame.endCounter_wf {f : Frame} {y1} (w : Memory.wf f.s.mem) : Memory.wf (Frame.endCounter f y1).s.mem := by
  unfold Frame.endCounter
  split
  · dsimp only
    split
    · exact State.setCounter_wf w
    · dsimp only
      exact State.setCounter_wf w
  · exact State.setCounter_wf w
  · exact Frame.disarm_wf w

theorem Frame.endCounters_wf {f : Frame} (w : Memory.wf f.s.mem) : Memory.wf (Frame.endCounters f).s.mem := by
  unfold Frame.endCounters
  exact w

theorem takeWords_wf {f : Frame} {r ws} (m : Memory.wf f.s.mem) : Memory.wf (takeWords f r ws).mem := by
  unfold takeWords
  dsimp only
  split
  · exact Frame.put_wf (State.standClaims_wf (Frame.endCounters_wf m))
  · split
    · exact Frame.saveAndEnter_wf (State.standClaims_wf (Frame.endCounters_wf m))
    · exact Frame.put_wf (State.standClaims_wf (Frame.endCounters_wf m))

theorem takeTrap_wf {f : Frame} {r pre} (w : Memory.wf f.s.mem) : Memory.wf (takeTrap f r pre).mem := by
  unfold takeTrap
  exact takeWords_wf w

theorem Frame.hasFetched_wf {f : Frame} {va} (w : Memory.wf f.s.mem) : Memory.wf (Frame.hasFetched f va).s.mem := by
  unfold Frame.hasFetched
  split
  · exact State.tileHasRead_wf w
  · exact w

theorem State.undoByte_wf {s : State} {u} (w : Memory.wf s.mem) : Memory.wf (State.undoByte s u).mem := by
  unfold State.undoByte
  split
  · exact State.write_wf w
  · exact w

theorem State.undoAtomic_wf {s : State} {x} (w : Memory.wf s.mem) : Memory.wf (State.undoAtomic s x).mem := by
  unfold State.undoAtomic
  exact State.foldl_wf (fun _ _ h12 => State.undoByte_wf h12) w

theorem Frame.squash_wf {f : Frame} (w : Memory.wf f.s.mem) : Memory.wf (Frame.squash f).s.mem := by
  unfold Frame.squash
  exact State.foldr_wf (fun _ _ h => State.undoAtomic_wf h) w _

theorem Frame.endWrites_wf {f : Frame} (w : Memory.wf f.s.mem) : Memory.wf (Frame.endWrites f).s.mem := by
  unfold Frame.endWrites
  exact Frame.endCounters_wf w

theorem Frame.endGroup_wf {f : Frame} (w : Memory.wf f.s.mem) : Memory.wf (Frame.endGroup f).s.mem := by
  unfold Frame.endGroup
  exact State.standClaims_wf (Frame.endWrites_wf w)

theorem Frame.endBundle_wf {f : Frame} (w : Memory.wf f.s.mem) : Memory.wf (Frame.endBundle f).s.mem := by
  unfold Frame.endBundle
  dsimp only
  split
  · exact Frame.squash_wf w
  · split
    · exact w
    · exact Frame.squash_wf w
    · exact Frame.squash_wf w
    · exact Frame.squash_wf w
    · exact Frame.squash_wf w
    · split
      · exact Frame.squash_wf w
      · exact w

theorem Frame.endAgain_wf {f : Frame} {r} (w : Memory.wf f.s.mem) : Memory.wf (Frame.endAgain f r).s.mem := by
  unfold Frame.endAgain
  exact w

theorem Frame.advance_wf {f : Frame} {stop} (w : Memory.wf f.s.mem) : Memory.wf (Frame.advance f stop).mem := by
  unfold Frame.advance
  dsimp only
  split
  · exact Frame.put_wf (Frame.endAgain_wf (Frame.endWrites_wf w))
  · split
    · exact Frame.put_wf (Frame.endBundle_wf (Frame.endGroup_wf w))
    · refine Frame.put_wf ?_
      dsimp only
      split
      · exact Frame.endGroup_wf w
      · exact w

theorem Frame.begin_wf {f : Frame} (w : Memory.wf f.s.mem) : Memory.wf (Frame.begin f).s.mem := by
  unfold Frame.begin
  exact w

theorem Frame.atBlock_wf {f : Frame} (w : Memory.wf f.s.mem) : Memory.wf (Frame.atBlock f).s.mem := by
  unfold Frame.atBlock
  exact w

theorem Frame.heldTrap_wf {f : Frame} {x r} (w : Memory.wf f.s.mem) : Memory.wf (Frame.heldTrap f x r).mem := by
  unfold Frame.heldTrap
  exact takeTrap_wf (Frame.atBlock_wf w)

theorem Frame.runAgain_wf {f : Frame} {r} {body : Frame → Except Stop State} (w : Memory.wf f.s.mem) (w2 : ∀ a0, Memory.wf a0.s.mem → Keeps
    Stop.Wf (fun r => Memory.wf r.mem) (body a0)) : Memory.wf (Frame.runAgain f r body).mem := by
  unfold Frame.runAgain
  split
  · rename_i e1
    have h1 := Keeps.of_ok (w2 _ w) e1
    exact h1
  · rename_i e2
    have h2 := Keeps.of_error (w2 _ w) e2
    split
    · exact Frame.heldTrap_wf (Frame.endAgain_wf w)
    · exact Frame.put_wf (Frame.endAgain_wf w)
  · rename_i e3
    have h3 := Keeps.of_error (w2 _ w) e3
    split
    · exact Frame.heldTrap_wf (Frame.endAgain_wf w)
    · exact Frame.put_wf (Frame.endAgain_wf w)
  · exact Frame.put_wf (Frame.endAgain_wf w)

theorem Frame.stopAt_wf {f : Frame} {y1 : Stop} (w : Memory.wf f.s.mem) (w2 : Stop.Wf y1) : Memory.wf (Frame.stopAt f y1).mem := by
  unfold Frame.stopAt
  split
  · exact Frame.put_wf w2
  · exact takeTrap_wf w
  · exact takeTrap_wf (State.informStrand_wf w)
  · exact Frame.put_wf w
  · exact Frame.put_wf w2

theorem runSlotTo_wf {h} {body : Frame → Except Stop State} {s : State} (w : ∀ a0, Memory.wf a0.s.mem → Keeps Stop.Wf (fun r => Memory.wf r.mem)
    (body a0)) (w2 : Memory.wf s.mem) : Leaves (runSlotTo h body s) := by
  unfold runSlotTo
  split
  · exact .fault
  · rename_i e1
    have h1 := State.frame_wf w2 _ e1
    dsimp only
    split
    · exact .next (Frame.runAgain_wf h1 (fun _ h10 => w _ h10))
    · split
      · exact .next (Frame.advance_wf (Frame.begin_wf h1))
      · split
        · rename_i e2
          have h2 := Keeps.of_ok (Keeps.bind (Frame.touchAll_wf (Frame.begin_wf h1)) fun _ h12 => w _ h12) e2
          exact .next h2
        · rename_i e3
          have h3 := Keeps.of_error (Keeps.bind (Frame.touchAll_wf (Frame.begin_wf h1)) fun _ h12 => w _ h12) e3
          exact .next (Frame.stopAt_wf (Frame.begin_wf h1) h3)

theorem runSlot_wf {h} {body : Frame → Except Stop Frame} {s : State} (w : ∀ a0, Memory.wf a0.s.mem → Keeps Stop.Wf (fun r => Memory.wf r.s.mem)
    (body a0)) (w2 : Memory.wf s.mem) : Leaves (runSlot h body s) := by
  unfold runSlot
  exact runSlotTo_wf (fun _ h11 => Keeps.map (w _ h11) fun _ h10 => Frame.advance_wf h10) w2

theorem Frame.refuseBundle_wf {f : Frame} {c sub addr b} (w : Memory.wf f.s.mem) : Memory.wf (Frame.refuseBundle f c sub addr b).mem := by
  unfold Frame.refuseBundle
  exact takeTrap_wf w

theorem Frame.openBundle_wf {f : Frame} (w : Memory.wf f.s.mem) : Memory.wf (Frame.openBundle f).mem := by
  unfold Frame.openBundle
  dsimp only
  split
  · split
    · exact Frame.refuseBundle_wf (State.informStrand_wf w)
    · exact Frame.refuseBundle_wf w
  · split
    · exact Frame.refuseBundle_wf (Frame.hasFetched_wf w)
    · split
      · split
        · exact Frame.refuseBundle_wf (State.informStrand_wf (Frame.hasFetched_wf w))
        · exact Frame.refuseBundle_wf (Frame.hasFetched_wf w)
      · split
        · exact Frame.refuseBundle_wf (Frame.foldl_wf (fun _ _ h11 => Frame.hasFetched_wf h11) (Frame.hasFetched_wf w))
        · split
          · exact Frame.refuseBundle_wf (Frame.foldl_wf (fun _ _ h11 => Frame.hasFetched_wf h11) (Frame.hasFetched_wf w))
          · exact Frame.put_wf (Frame.foldl_wf (fun _ _ h11 => Frame.hasFetched_wf h11) (Frame.hasFetched_wf w))

theorem execBundleIssue_wf {s : State} (w : Memory.wf s.mem) : Leaves (execBundleIssue s) := by
  unfold execBundleIssue
  split
  · exact .fault
  · rename_i e1
    have h1 := State.frame_wf w _ e1
    dsimp only
    split
    · exact .next (Frame.put_wf h1)
    · exact .next (Frame.openBundle_wf h1)

end Sys2Proof.Machine
end

section
/-! SUPPORT. Memory stays canonical: how a trigger gathers its operands, is held for a late element, and settles its result; and how a move fetches its value. -/

namespace Sys2Proof.Machine

theorem Frame.argKind_wf {f : Frame} {a} (w : Memory.wf f.s.mem) : Keeps Stop.Wf (fun _ => True) (Frame.argKind f a) := by
  unfold Frame.argKind
  split
  · exact .ok trivial
  · exact Frame.kind_wf w

theorem Frame.usedKind_wf {f : Frame} {u p used} (w : Memory.wf f.s.mem) : Keeps Stop.Wf (fun _ => True) (Frame.usedKind f u p used) := by
  unfold Frame.usedKind
  split
  · exact Frame.portKind_wf w
  · exact .ok trivial

theorem Frame.argReady_wf {f : Frame} {a} (w : Memory.wf f.s.mem) : Keeps Stop.Wf (fun _ => True) (Frame.argReady f a) := by
  unfold Frame.argReady
  split
  · exact .ok trivial
  · split
    · exact .ok trivial
    · exact Keeps.map (Frame.readValue_wf w) fun _ h12 => trivial

theorem Fetch.arg_wf {k : Fetch} {a} (w : Memory.wf k.f.s.mem) : Keeps Stop.Wf (fun r => Memory.wf r.2.f.s.mem) (Fetch.arg k a) := by
  unfold Fetch.arg
  split
  · exact .ok w
  · exact Fetch.source_wf w

theorem Frame.gather_wf {f : Frame} {g} (w : Memory.wf f.s.mem) : Keeps Stop.Wf (fun r => Memory.wf r.2.f.s.mem) (Frame.gather f g) := by
  unfold Frame.gather
  refine Keeps.bind (Frame.argKind_wf w) fun r1 h1 => ?_
  exact Keeps.bind (Frame.usedKind_wf w) fun _ h12 => Keeps.bind (Frame.usedKind_wf w) fun _ h11 => Keeps.bind (Frame.usedKind_wf w) fun _ h10 =>
    Keeps.bind (need_wf trivial) fun _ h9 => Keeps.bind (Frame.reachAll_wf w) fun _ h8 => Keeps.bind (Frame.argReady_wf h8) fun _ h7 =>
      Keeps.bind (Fetch.arg_wf h8) fun _ h6 => Keeps.bind (Fetch.portValue_wf h6) fun _ h5 => Keeps.bind (Fetch.portValue_wf h5) fun _ h4 =>
        Keeps.bind (Fetch.portValue_wf h4) fun _ h3 => .pure h3

theorem Frame.timing_wf {f : Frame} {g} {k : Fetch} {x} (w : Memory.wf f.s.mem) : Keeps Stop.Wf (fun _ => True)
    (Frame.timing f g k x) := by
  unfold Frame.timing
  dsimp only
  split
  · exact .ok trivial
  · split
    · refine .error ?_
      split
      · exact trivial
      · exact w
    · split
      · exact .error w
      · exact .ok trivial

theorem Stop.within_wf {e : Stop} {f : Frame} {x} (w : Stop.Wf e) (w2 : Memory.wf f.s.mem) : Stop.Wf (Stop.within e f x) := by
  unfold Stop.within
  split
  · exact w2
  · exact trivial
  · exact trivial
  · exact trivial
  · exact w2

theorem Frame.settle_wf {f : Frame} {h g} {k : Fetch} {x held e} (w : Memory.wf f.s.mem) : Memory.wf (Frame.settle f h
    g k x held e).s.mem := by
  unfold Frame.settle
  exact w

theorem Frame.postpone_wf {f : Frame} {h g} {k : Fetch} {x foot writes} (m : Memory.wf f.s.mem) (m2 : Memory.wf k.f.s.mem) : Keeps Stop.Wf (fun r
    => Memory.wf r.s.mem) (Frame.postpone f h g k x foot writes) := by
  unfold Frame.postpone
  refine Keeps.bind (need_wf m) fun r1 h1 => ?_
  refine Keeps.bind (need_wf m) fun r2 h2 => ?_
  refine .pure ?_
  dsimp only
  exact Frame.settle_wf m

theorem Frame.checked_wf {f : Frame} {g : Frame} (w : Memory.wf f.s.mem) : Memory.wf (Frame.checked f g).s.mem := by
  unfold Frame.checked
  exact w

theorem Frame.cannotWait_wf {f : Frame} {x} (w : Memory.wf f.s.mem) : Stop.Wf (Frame.cannotWait f x) := by
  unfold Frame.cannotWait
  split
  · exact w
  · split
    · exact trivial
    · exact w

theorem Frame.later_wf {f : Frame} {h g} {k : Fetch} {x} {run : Frame → Args → Except Stop (Frame × Effect)} (w : Memory.wf f.s.mem) (w2 :
    Memory.wf k.f.s.mem) (w3 : ∀ a0 a1, Memory.wf a0.s.mem → Keeps Stop.Wf (fun r => Memory.wf r.1.s.mem) (run a0 a1)) : Keeps Stop.Wf (fun r =>
      Memory.wf r.s.mem) (Frame.later f h g k x run) := by
  unfold Frame.later
  split
  · exact .error (Frame.cannotWait_wf w)
  · exact .error (Frame.cannotWait_wf w)
  · exact Frame.postpone_wf w w2
  · split
    · exact Frame.postpone_wf w w2
    · split
      · rename_i e1
        have h1 := Keeps.of_ok (w3 _ _ w) e1
        exact Frame.postpone_wf (Frame.checked_wf w) w2
      · rename_i e2
        have h2 := Keeps.of_error (w3 _ _ w) e2
        exact Frame.postpone_wf (Frame.checked_wf w) w2
      · rename_i e3
        have h3 := Keeps.of_error (w3 _ _ w) e3
        exact .error h3

theorem Frame.fire_wf {f : Frame} {h g} {k : Fetch} {x held} {run : Frame → Args → Except Stop (Frame × Effect)} (w : Memory.wf f.s.mem) (w2 :
    Memory.wf k.f.s.mem) (w3 : ∀ a0 a1, Memory.wf a0.s.mem → Keeps Stop.Wf (fun r => Memory.wf r.1.s.mem) (run a0 a1)) : Keeps Stop.Wf (fun r =>
      Memory.wf r.s.mem) (Frame.fire f h g k x held run) := by
  unfold Frame.fire
  split
  · exact Frame.later_wf w w2 (fun _ _ h11 => w3 _ _ h11)
  · split
    · rename_i e1
      have h1 := Keeps.of_error (w3 _ _ w) e1
      exact Frame.postpone_wf (Frame.checked_wf w) w2
    · rename_i e2
      have h2 := Keeps.of_error (w3 _ _ w) e2
      exact .error h2
    · rename_i e3
      have h3 := Keeps.of_ok (w3 _ _ w) e3
      exact .ok (Frame.settle_wf h3)

theorem Frame.resolveElements_wf {f : Frame} (w : Memory.wf f.s.mem) : Memory.wf (Frame.resolveElements f).s.mem := by
  unfold Frame.resolveElements
  exact w

theorem Frame.acted_wf {f : Frame} {x e} (w : Memory.wf f.s.mem) : Memory.wf (Frame.acted f x e).s.mem := by
  unfold Frame.acted
  exact Frame.resolveElements_wf w

theorem Frame.actNow_wf {f : Frame} {r} {run : Frame → Args → Except Stop (Frame × Effect)} (w : Memory.wf f.s.mem) (w2 : ∀ a0 a1, Memory.wf
    a0.s.mem → Keeps Stop.Wf (fun r => Memory.wf r.1.s.mem) (run a0 a1)) : Keeps Stop.Wf (fun r => Memory.wf r.s.mem) (Frame.actNow f r run) := by
  unfold Frame.actNow
  split
  · exact .ok w
  · dsimp only
    split
    · rename_i e1
      have h1 := Keeps.of_error (w2 _ _ w) e1
      exact .error h1
    · rename_i e2
      have h2 := Keeps.of_ok (w2 _ _ w) e2
      exact .ok (Frame.acted_wf h2)

theorem trigger_wf {h g} {run : Frame → Args → Except Stop (Frame × Effect)} {f : Frame}
    (w : ∀ a0 a1, Memory.wf a0.s.mem → Keeps Stop.Wf (fun r => Memory.wf r.1.s.mem) (run a0 a1)) (w2 : Memory.wf f.s.mem) :
    Keeps Stop.Wf (fun r => Memory.wf r.s.mem) (trigger h g run f) := by
  unfold trigger
  split
  · exact Frame.actNow_wf w2 w
  · split
    · rename_i e
      exact .error (Stop.within_wf (Keeps.of_error (Frame.gather_wf w2) e) w2)
    · rename_i x k e
      have hk := Keeps.of_ok (Frame.gather_wf w2) e
      dsimp only
      split
      · rename_i e2
        exact .error (Stop.within_wf (Keeps.of_error (Frame.timing_wf w2) e2) w2)
      · rename_i held e2
        have hfire := Frame.fire_wf (f := { k.f with c := k.f.c.consume g.u }) (h := h) (g := g) (k := k) (x := x)
          (held := held || !(k.f.c.consume g.u).seq.late.isEmpty) hk hk w
        split
        · split
          · exact .ok (Frame.settle_wf hk)
          · exact .error trivial
        · split
          · rename_i e3
            exact .error (Stop.within_wf (hfire.of_error e3) w2)
          · rename_i e3
            exact .ok (hfire.of_ok e3)

theorem direct_wf {run : Frame → Val → Val → Val → Val → Except Stop (Frame × Effect)} {f : Frame} {x} (w : ∀ a0 a1 a2 a3 a4, Memory.wf a0.s.mem
    → Keeps Stop.Wf (fun r => Memory.wf r.1.s.mem) (run a0 a1 a2 a3 a4)) (w2 : Memory.wf f.s.mem) : Keeps Stop.Wf (fun r => Memory.wf r.1.s.mem)
      (direct run f x) := by
  unfold direct
  exact w _ _ _ _ _ w2

theorem pureRun_wf {o} {f : Frame} {x} (w : Memory.wf f.s.mem) : Keeps Stop.Wf (fun r => Memory.wf r.1.s.mem) (pureRun o f x) := by
  unfold pureRun
  split
  · exact .error w
  · dsimp only
    split
    · rename_i e1
      have h1 := Keeps.of_error pureCompute_wf e1
      exact .error h1
    · refine .ok ?_
      dsimp only
      split
      · exact w
      · exact w

theorem scalarOp_wf {o h a} {s : State} (w : Memory.wf s.mem) : Leaves (scalarOp o h a s) := by
  unfold scalarOp
  exact runSlot_wf (fun _ h11 => trigger_wf (fun _ _ h9 => pureRun_wf h9) h11) w

theorem vectorOp_wf {o h a} {s : State} (w : Memory.wf s.mem) : Leaves (vectorOp o h a s) := by
  unfold vectorOp
  exact runSlot_wf (fun _ h11 => trigger_wf (fun _ _ h9 => pureRun_wf h9) h11) w

theorem Frame.moveValue_wf {f : Frame} {a} (w : Memory.wf f.s.mem) : Keeps Stop.Wf (fun r => Memory.wf r.2.s.mem) (Frame.moveValue f a) := by
  unfold Frame.moveValue
  refine Keeps.bind (Frame.touchAll_wf w) fun r1 h1 => ?_
  refine Keeps.bind (Frame.kind_wf h1) fun r2 h2 => ?_
  refine Keeps.bind (Fetch.arg_wf h1) fun ⟨r3a, r3b⟩ h3 => ?_
  refine Keeps.bind (need_wf trivial) fun r4 h4 => ?_
  refine Keeps.bind (need_wf trivial) fun r5 h5 => ?_
  refine Keeps.bind (P := fun _ => True) ?_ fun r6 h6 => ?_
  · refine need_wf ?_
    split
    · exact trivial
    · exact w
  · exact .pure h3

theorem moveSlot_wf {h units a} {put : Frame → Val → Frame} {s : State} (w : ∀ f v, Memory.wf f.s.mem → Memory.wf (put f v).s.mem)
    (w2 : Memory.wf s.mem) : Leaves (moveSlot h units a put s) := by
  unfold moveSlot
  refine runSlot_wf (fun f hf => ?_) w2
  have hbind : Keeps Stop.Wf (fun r : Frame => Memory.wf r.s.mem)
      (f.moveValue a >>= fun p => p.2.touchAll (units p.2) >>= fun g => pure (put g p.1)) :=
    Keeps.bind (Frame.moveValue_wf hf) fun _ h1 => Keeps.bind (Frame.touchAll_wf h1) fun _ h2 => .pure (w _ _ h2)
  dsimp only
  split
  · rename_i e
    exact .error (Stop.within_wf (hbind.of_error e) hf)
  · rename_i e
    exact .ok (hbind.of_ok e)

end Sys2Proof.Machine
end

section
/-! SUPPORT. Memory stays canonical: the scratchpad and the cluster-shared window as the scalar unit reaches them, atomics, and constant loads. -/

namespace Sys2Proof.Machine

theorem State.windowWrite_wf {s : State} {cluster o bs} (w : Memory.wf s.mem) : Memory.wf (State.windowWrite s cluster o bs).mem := by
  unfold State.windowWrite
  exact State.write_wf w

theorem Frame.accessWindow_wf {f : Frame} {addr op} (w : Memory.wf f.s.mem) : Memory.wf (Frame.accessWindow f addr op).s.mem := by
  unfold Frame.accessWindow
  exact w

theorem Frame.noteChunks_wf {f : Frame} {l} (w : Memory.wf f.s.mem) : Memory.wf (Frame.noteChunks f l).s.mem := by
  unfold Frame.noteChunks
  exact w

theorem Frame.padPlace_wf {f : Frame} {addr width writes} (m : Memory.wf f.s.mem) : Keeps Stop.Wf (fun r => Memory.wf r.s.mem) (Frame.padPlace f
    addr width writes) := by
  unfold Frame.padPlace
  exact Keeps.bind (need_wf trivial) fun _ h12 => Keeps.bind (need_wf trivial) fun _ h11 => Keeps.bind (Frame.reach_wf m) fun _ h10 =>
    Frame.access_wf h10

theorem Frame.padWord_wf {f : Frame} {addr width writes} (m : Memory.wf f.s.mem) : Keeps Stop.Wf (fun r => Memory.wf r.s.mem) (Frame.padWord f
    addr width writes) := by
  unfold Frame.padWord
  exact Frame.padPlace_wf (Frame.noteChunks_wf m)

theorem Frame.padRead_wf {f : Frame} {addr n} : Keeps Stop.Wf (fun _ => True) (Frame.padRead f addr n) := by
  unfold Frame.padRead
  dsimp only
  split
  · exact .error trivial
  · exact .ok trivial

theorem Frame.keepOld_wf {f : Frame} {k n} (w : Memory.wf f.s.mem) : Memory.wf (Frame.keepOld f k n).s.mem := by
  unfold Frame.keepOld
  split
  · exact w
  · exact w

theorem Frame.noteHeld_wf {f : Frame} {x} (w : Memory.wf f.s.mem) : Memory.wf (Frame.noteHeld f x).s.mem := by
  unfold Frame.noteHeld
  split
  · exact w
  · exact w

theorem Frame.holdStore_wf {f : Frame} {x} (w : Memory.wf f.s.mem) : Keeps Stop.Wf (fun r => Memory.wf r.s.mem) (Frame.holdStore f x) := by
  unfold Frame.holdStore
  dsimp only
  split
  · split
    · exact .error (Frame.noteHeld_wf w)
    · exact .ok (Frame.noteHeld_wf w)
  · exact .ok (Frame.noteHeld_wf w)

theorem Frame.writeNow_wf {f : Frame} {p} (w : Memory.wf f.s.mem) : Memory.wf (Frame.writeNow f p).s.mem := by
  unfold Frame.writeNow
  exact State.write_wf (Frame.keepOld_wf w)

theorem Frame.writeAtomic_wf {f : Frame} {h p} (w : Memory.wf f.s.mem) : Memory.wf (Frame.writeAtomic f h p).s.mem := by
  unfold Frame.writeAtomic
  dsimp only
  split
  · split
    · exact Frame.writeNow_wf w
    · exact Frame.writeNow_wf w
  · split
    · exact Frame.writeNow_wf w
    · exact Frame.writeNow_wf w

theorem Frame.storePieces_wf {f : Frame} {l} (w : Memory.wf f.s.mem) : Keeps Stop.Wf (fun r => Memory.wf r.s.mem) (Frame.storePieces f l) := by
  unfold Frame.storePieces
  dsimp only
  split
  · exact Frame.holdStore_wf w
  · exact .ok (Frame.foldl_wf (fun _ _ h11 => Frame.writeNow_wf h11) w)

theorem Frame.padStore_wf {f : Frame} {addr bs} (w : Memory.wf f.s.mem) : Keeps Stop.Wf (fun r => Memory.wf r.s.mem) (Frame.padStore f addr bs) := by
  unfold Frame.padStore
  exact Frame.storePieces_wf w

theorem padLoad_wf {width signed h a} {s : State} (m : Memory.wf s.mem) : Leaves (padLoad width signed h a s) := by
  unfold padLoad
  exact runSlot_wf (fun _ h11 => trigger_wf (fun _ _ h9 => direct_wf (fun _ _ _ _ _ h7 => Keeps.bind (Frame.padWord_wf h7) fun _ h6 => Keeps.bind
    Frame.padRead_wf fun _ h5 => .pure h6) h9) h11) m

theorem padStoreOp_wf {width h a} {s : State} (m : Memory.wf s.mem) : Leaves (padStoreOp width h a s) := by
  unfold padStoreOp
  exact runSlot_wf (fun _ h11 => trigger_wf (fun _ _ h9 => direct_wf (fun _ _ _ _ _ h7 => Keeps.bind (Frame.padWord_wf h7) fun _ h6 => Keeps.bind
    (Frame.padStore_wf h6) fun _ h5 => .pure h5) h9) h11) m

theorem Frame.windowCheck_wf {f : Frame} {addr n align reads writes} (m : Memory.wf f.s.mem) : Keeps Stop.Wf (fun r => Memory.wf r.s.mem)
    (Frame.windowCheck f addr n align reads writes) := by
  unfold Frame.windowCheck
  exact Keeps.bind (need_wf trivial) fun _ h12 => Keeps.bind (need_wf trivial) fun _ h11 => Frame.access_wf m

theorem windowLoad_wf {wide h a} {s : State} (m : Memory.wf s.mem) : Leaves (windowLoad wide h a s) := by
  unfold windowLoad
  exact runSlot_wf (fun _ h11 => trigger_wf (fun _ _ h9 => direct_wf (fun _ _ _ _ _ h7 => Keeps.bind (Frame.windowCheck_wf h7) fun _ h6 => .pure
    (Frame.accessWindow_wf h6)) h9) h11) m

theorem Frame.windowStore_wf {f : Frame} {addr bs} (w : Memory.wf f.s.mem) : Keeps Stop.Wf (fun r => Memory.wf r.s.mem) (Frame.windowStore f addr
    bs) := by
  unfold Frame.windowStore
  split
  · exact Frame.holdStore_wf w
  · exact .ok (Frame.accessWindow_wf w)

theorem windowStoreOp_wf {width h a} {s : State} (m : Memory.wf s.mem) : Leaves (windowStoreOp width h a s) := by
  unfold windowStoreOp
  exact runSlot_wf (fun _ h11 => trigger_wf (fun _ _ h9 => direct_wf (fun _ _ _ _ _ h7 => Keeps.bind (Frame.windowCheck_wf h7) fun _ h6 =>
    Keeps.bind (Frame.windowStore_wf h6) fun _ h5 => .pure h5) h9) h11) m

theorem padAtomic_wf {o h a} {s : State} (w : Memory.wf s.mem) : Leaves (padAtomic o h a s) := by
  unfold padAtomic
  refine runSlot_wf (fun _ h1 => trigger_wf (fun _ _ h2 => direct_wf (fun f _ _ _ _ h3 => ?_) h2) h1) w
  refine Keeps.bind (Frame.settled_wf h3) fun _ _ => Keeps.bind (Frame.drained_wf h3) fun _ _ => ?_
  refine Keeps.bind (Frame.padWord_wf h3) fun g h4 => Keeps.bind Frame.padRead_wf fun _ _ => .pure ?_
  exact Frame.writeAtomic_wf h4

theorem windowAtomic_wf {o h a} {s : State} (w : Memory.wf s.mem) : Leaves (windowAtomic o h a s) := by
  unfold windowAtomic
  exact runSlot_wf (fun _ h11 => trigger_wf (fun _ _ h9 => direct_wf (fun _ _ _ _ _ h7 => Keeps.bind (Frame.settled_wf h7) fun _ h6 => Keeps.bind
    (Frame.drained_wf h7) fun _ h5 => Keeps.bind (Frame.windowCheck_wf h7) fun _ h4 => .pure (Frame.accessWindow_wf h4)) h9) h11) w

theorem execCld_wf {h a} {s : State} (w : Memory.wf s.mem) : Leaves (execCld h a s) := by
  unfold execCld
  exact runSlot_wf (fun _ h11 => trigger_wf (fun _ _ h9 => direct_wf (fun _ _ _ _ _ h7 => .ok h7) h9) h11) w

theorem State.machineCheckOf_wf {s : State} {sid sub addr} (w : Memory.wf s.mem) : Memory.wf (State.machineCheckOf s sid sub addr).mem := by
  unfold State.machineCheckOf
  split
  · exact w
  · exact State.setStrand_wf w

theorem State.machineCheck_wf {s : State} {ctx sub addr} (w : Memory.wf s.mem) : Memory.wf (State.machineCheck s ctx sub addr).mem := by
  unfold State.machineCheck
  split
  · exact w
  · exact State.machineCheckOf_wf w

theorem State.deliver_wf {s : State} {ctx rid tag v} (w : Memory.wf s.mem) : Memory.wf (State.deliver s ctx rid tag v).mem := by
  unfold State.deliver
  dsimp only
  split
  · exact w
  · exact State.setCtx_wf w

theorem State.noteUndo_wf {s : State} {ctx rid u} (w : Memory.wf s.mem) : Memory.wf (State.noteUndo s ctx rid u).mem := by
  unfold State.noteUndo
  exact w

theorem State.performWindow_wf {s : State} {a} (w : Memory.wf s.mem) : Memory.wf (State.performWindow s a).mem := by
  unfold State.performWindow
  dsimp only
  split
  · exact State.deliver_wf w
  · exact State.windowWrite_wf w
  · refine State.noteUndo_wf ?_
    refine State.deliver_wf ?_
    split
    · exact State.windowWrite_wf w
    · exact State.windowWrite_wf w
  · exact State.deliver_wf w

theorem execWindowAccessPerform_wf {cluster} {s : State} (w : Memory.wf s.mem) : Leaves (execWindowAccessPerform cluster s) := by
  unfold execWindowAccessPerform
  exact .next (State.foldl_wf (fun _ _ h11 => State.performWindow_wf h11) w)

end Sys2Proof.Machine
end

section
/-! SUPPORT. Memory stays canonical: nOP, the moves and the immediates. -/

namespace Sys2Proof.Machine

theorem Frame.putPort_wf {f : Frame} {u p g} (w : Memory.wf f.s.mem) : Memory.wf (Frame.putPort f u p g).s.mem := by
  unfold Frame.putPort
  exact w

theorem Frame.supply_wf {f : Frame} {u p v} (w : Memory.wf f.s.mem) : Memory.wf (Frame.supply f u p v).s.mem := by
  unfold Frame.supply
  exact Frame.putPort_wf w

theorem Frame.bind_wf {f : Frame} {u p l} (w : Memory.wf f.s.mem) : Memory.wf (Frame.bind f u p l).s.mem := by
  unfold Frame.bind
  exact Frame.putPort_wf w

theorem Frame.putScalar_wf {f : Frame} {n v} (w : Memory.wf f.s.mem) : Memory.wf (Frame.putScalar f n v).s.mem := by
  unfold Frame.putScalar
  exact w

theorem Frame.putVector_wf {f : Frame} {n v} (w : Memory.wf f.s.mem) : Memory.wf (Frame.putVector f n v).s.mem := by
  unfold Frame.putVector
  exact w

theorem Frame.putPredicate_wf {f : Frame} {n v} (w : Memory.wf f.s.mem) : Memory.wf (Frame.putPredicate f n v).s.mem := by
  unfold Frame.putPredicate
  exact w

theorem Frame.putLevel_wf {f : Frame} {n g} (w : Memory.wf f.s.mem) : Memory.wf (Frame.putLevel f n g).s.mem := by
  unfold Frame.putLevel
  exact w

theorem Frame.putLc_wf {f : Frame} {n v} (w : Memory.wf f.s.mem) : Memory.wf (Frame.putLc f n v).s.mem := by
  unfold Frame.putLc
  exact Frame.putLevel_wf w

theorem Frame.putLb_wf {f : Frame} {n v} (w : Memory.wf f.s.mem) : Memory.wf (Frame.putLb f n v).s.mem := by
  unfold Frame.putLb
  exact Frame.putLevel_wf w

theorem Frame.putSlack_wf {f : Frame} {w} (m : Memory.wf f.s.mem) : Memory.wf (Frame.putSlack f w).s.mem := by
  unfold Frame.putSlack
  exact m

theorem Frame.putCbx_wf {f : Frame} {v} (w : Memory.wf f.s.mem) : Memory.wf (Frame.putCbx f v).s.mem := by
  unfold Frame.putCbx
  exact w

theorem execNop_wf {h} {s : State} (w : Memory.wf s.mem) : Leaves (execNop h s) := by
  unfold execNop
  exact runSlot_wf (fun _ h11 => .ok h11) w

theorem bindSlot_wf {h u p a} {s : State} (w : Memory.wf s.mem) : Leaves (bindSlot h u p a s) := by
  unfold bindSlot
  split
  · exact runSlot_wf (fun _ h11 => Keeps.map (Frame.touchAll_wf h11) fun _ h10 => Frame.bind_wf h10) w
  · exact moveSlot_wf (fun _ _ h11 => Frame.bind_wf h11) w

theorem execMoveOperandPort_wf {h u p a} {s : State} (w : Memory.wf s.mem) : Leaves (execMoveOperandPort h u p a s) := by
  unfold execMoveOperandPort
  split
  · exact moveSlot_wf (fun _ _ h11 => Frame.supply_wf h11) w
  · exact moveSlot_wf (fun _ _ h11 => Frame.supply_wf h11) w
  · exact bindSlot_wf w
  · exact bindSlot_wf w

theorem execMoveScalar_wf {h n a} {s : State} (w : Memory.wf s.mem) : Leaves (execMoveScalar h n a s) := by
  unfold execMoveScalar
  exact moveSlot_wf (fun _ _ h11 => Frame.putScalar_wf h11) w

theorem execMoveVector_wf {h n a} {s : State} (w : Memory.wf s.mem) : Leaves (execMoveVector h n a s) := by
  unfold execMoveVector
  exact moveSlot_wf (fun _ _ h11 => Frame.putVector_wf h11) w

theorem execMovePredicate_wf {h n a} {s : State} (w : Memory.wf s.mem) : Leaves (execMovePredicate h n a s) := by
  unfold execMovePredicate
  exact moveSlot_wf (fun _ _ h11 => Frame.putPredicate_wf h11) w

theorem execMoveLc_wf {h n a} {s : State} (w : Memory.wf s.mem) : Leaves (execMoveLc h n a s) := by
  unfold execMoveLc
  exact moveSlot_wf (fun _ _ h11 => Frame.putLc_wf h11) w

theorem execMoveLb_wf {h n a} {s : State} (w : Memory.wf s.mem) : Leaves (execMoveLb h n a s) := by
  unfold execMoveLb
  exact moveSlot_wf (fun _ _ h11 => Frame.putLb_wf h11) w

theorem execMoveSlk_wf {h a} {s : State} (w : Memory.wf s.mem) : Leaves (execMoveSlk h a s) := by
  unfold execMoveSlk
  exact moveSlot_wf (fun _ _ h11 => Frame.putSlack_wf h11) w

theorem execMoveCbx_wf {h a} {s : State} (w : Memory.wf s.mem) : Leaves (execMoveCbx h a s) := by
  unfold execMoveCbx
  exact moveSlot_wf (fun _ _ h11 => Frame.putCbx_wf h11) w

theorem immSlot_wf {stop} {body : Frame → Except Stop Frame} {s : State} (w : ∀ a0, Memory.wf a0.s.mem → Keeps Stop.Wf (fun r => Memory.wf
    r.s.mem) (body a0)) (w2 : Memory.wf s.mem) : Leaves (immSlot stop body s) := by
  unfold immSlot
  exact runSlot_wf (fun _ h11 => w _ h11) w2

theorem immBind_wf {stop p v} {s : State} (w : Memory.wf s.mem) : Leaves (immBind stop p v s) := by
  unfold immBind
  exact immSlot_wf (fun _ h11 => .ok (Frame.bind_wf h11)) w

theorem execImmSetLb_wf {stop imm} {s : State} (w : Memory.wf s.mem) : Leaves (execImmSetLb stop imm s) := by
  unfold execImmSetLb
  exact immSlot_wf (fun _ h11 => Keeps.map (Frame.touchAll_wf h11) fun _ h10 => Frame.putLevel_wf h10) w

end Sys2Proof.Machine
end

section
/-! SUPPORT. Memory stays canonical: vector loads and stores, feed ports, and the transposer. -/

namespace Sys2Proof.Machine

theorem accessCheck_wf {w ok} : Keeps Stop.Wf (fun _ => True) (accessCheck w ok) := by
  unfold accessCheck
  exact Keeps.bind (need_wf trivial) fun _ h12 => need_wf trivial

theorem refuseFirst_wf {c l} : Keeps Stop.Wf (fun _ => True) (refuseFirst c l) := by
  unfold refuseFirst
  split
  · exact .error trivial
  · exact .ok trivial

theorem Frame.padVector_wf {f : Frame} {phys n aligned base writes} (m : Memory.wf f.s.mem) : Keeps Stop.Wf (fun r => Memory.wf r.s.mem)
    (Frame.padVector f phys n aligned base writes) := by
  unfold Frame.padVector
  exact Keeps.bind refuseFirst_wf fun _ h12 => Keeps.bind (need_wf trivial) fun _ h11 => Keeps.bind refuseFirst_wf fun _ h10 => Keeps.bind
    (Frame.reachAll_wf m) fun _ h9 => Frame.access_wf (Frame.noteChunks_wf h9)

theorem Frame.gatherBytes_wf {f : Frame} {n l} (w : Memory.wf f.s.mem) : Keeps Stop.Wf (fun _ => True) (Frame.gatherBytes f n l) := by
  induction l with
  | nil => exact .ok trivial
  | cons a l ih =>
    unfold Frame.gatherBytes
    exact Keeps.bind Frame.padRead_wf fun _ _ => Keeps.bind ih fun _ _ => .pure trivial

theorem execVld_wf {h a} {s : State} (w : Memory.wf s.mem) : Leaves (execVld h a s) := by
  unfold execVld
  exact runSlot_wf (fun _ h11 => trigger_wf (fun _ _ h9 => direct_wf (fun _ _ _ _ _ h7 => Keeps.bind accessCheck_wf fun _ h6 => Keeps.bind
    (Frame.padVector_wf h7) fun _ h5 => Keeps.bind (Frame.gatherBytes_wf h5) fun _ h4 => .pure h5) h9) h11) w

theorem Frame.storePlace_wf {f : Frame} {a c} (w : Memory.wf f.s.mem) : Keeps Stop.Wf (fun r => Memory.wf r.f.s.mem) (Frame.storePlace f a c) := by
  unfold Frame.storePlace
  split
  · exact Keeps.bind (need_wf trivial) fun _ h12 => Keeps.bind (need_wf w) fun _ h11 => Keeps.bind (need_wf trivial) fun _ h10 => Keeps.bind
      (Frame.reach_wf w) fun _ h9 => .pure h9
  · exact Keeps.bind accessCheck_wf fun _ h12 => .pure w

theorem StorePlace.noted_wf {p : StorePlace} (w : Memory.wf p.f.s.mem) : Memory.wf (StorePlace.noted p).s.mem := by
  unfold StorePlace.noted
  exact w

theorem execVst_wf {h a} {s : State} (w : Memory.wf s.mem) : Leaves (execVst h a s) := by
  unfold execVst
  exact runSlot_wf (fun _ h11 => trigger_wf (fun _ _ h9 => direct_wf (fun _ _ _ _ _ h7 => Keeps.bind (Frame.storePlace_wf h7) fun _ h6 =>
    Keeps.bind (Frame.padVector_wf (StorePlace.noted_wf h6)) fun _ h5 => Keeps.bind (Frame.storePieces_wf h5) fun _ h4 => .pure h4) h9) h11) w

theorem execVldt_wf {h a} {s : State} (w : Memory.wf s.mem) : Leaves (execVldt h a s) := by
  unfold execVldt
  exact runSlot_wf (fun _ h11 => trigger_wf (fun _ _ h9 => direct_wf (fun _ _ _ _ _ h7 => Keeps.bind accessCheck_wf fun _ h6 => Keeps.bind
    (Frame.padVector_wf h7) fun _ h5 => Keeps.bind (Frame.gatherBytes_wf h5) fun _ h4 => .pure h5) h9) h11) w

theorem Frame.gatherLanesAt_wf {f : Frame} {n l} (w : Memory.wf f.s.mem) : Keeps Stop.Wf (fun _ => True) (Frame.gatherLanesAt f n l) := by
  induction l with
  | nil => exact .ok trivial
  | cons a l ih =>
    cases a with
    | none =>
      unfold Frame.gatherLanesAt
      exact Keeps.bind ih fun _ _ => .pure trivial
    | some a =>
      unfold Frame.gatherLanesAt
      exact Keeps.bind Frame.padRead_wf fun _ _ => Keeps.bind ih fun _ _ => .pure trivial

theorem execGath_wf {h a} {s : State} (w : Memory.wf s.mem) : Leaves (execGath h a s) := by
  unfold execGath
  exact runSlot_wf (fun _ h11 => trigger_wf (fun _ _ h9 => direct_wf (fun _ _ _ _ _ h7 => Keeps.bind accessCheck_wf fun _ h6 => Keeps.bind
    (Frame.padVector_wf h7) fun _ h5 => Keeps.bind (Frame.gatherLanesAt_wf h5) fun _ h4 => .pure h5) h9) h11) w

theorem execScat_wf {h a} {s : State} (w : Memory.wf s.mem) : Leaves (execScat h a s) := by
  unfold execScat
  exact runSlot_wf (fun _ h11 => trigger_wf (fun _ _ h9 => direct_wf (fun _ _ _ _ _ h7 => Keeps.bind accessCheck_wf fun _ h6 => Keeps.bind
    (Frame.padVector_wf h7) fun _ h5 => Keeps.bind (Frame.storePieces_wf h5) fun _ h4 => .pure h4) h9) h11) w

theorem execVldCl_wf {h a} {s : State} (w : Memory.wf s.mem) : Leaves (execVldCl h a s) := by
  unfold execVldCl
  exact runSlot_wf (fun _ h11 => trigger_wf (fun _ _ h9 => direct_wf (fun _ _ _ _ _ h7 => Keeps.bind (need_wf trivial) fun _ h6 => Keeps.bind
    (Frame.windowCheck_wf h7) fun _ h5 => .pure (Frame.accessWindow_wf h5)) h9) h11) w

theorem execVstCl_wf {h a} {s : State} (w : Memory.wf s.mem) : Leaves (execVstCl h a s) := by
  unfold execVstCl
  exact runSlot_wf (fun _ h11 => trigger_wf (fun _ _ h9 => direct_wf (fun _ _ _ _ _ h7 => Keeps.bind (Frame.windowCheck_wf h7) fun _ h6 =>
    Keeps.bind (Frame.windowStore_wf h6) fun _ h5 => .pure h5) h9) h11) w

theorem Frame.writeFpst_wf {f : Frame} {h lasts mask v} (w : Memory.wf f.s.mem) : Memory.wf (Frame.writeFpst f h lasts mask v).s.mem := by
  unfold Frame.writeFpst
  exact w

theorem execFpset_wf {h a} {s : State} (w : Memory.wf s.mem) : Leaves (execFpset h a s) := by
  unfold execFpset
  refine runSlot_wf (fun x7 h8 => ?_) w
  refine trigger_wf (fun x10 x11 h12 => ?_) h8
  refine direct_wf (fun x16 x17 x18 x19 x20 h21 => ?_) h12
  refine Keeps.bind (need_wf h21) fun r1 h1 => ?_
  refine .pure ?_
  dsimp only
  split
  · exact Frame.writeFpst_wf h21
  · exact Frame.writeFpst_wf (Frame.writeFpst_wf h21)

theorem execFpflush_wf {h a} {s : State} (w : Memory.wf s.mem) : Leaves (execFpflush h a s) := by
  unfold execFpflush
  refine runSlot_wf (fun x7 h8 => ?_) w
  refine trigger_wf (fun x10 x11 h12 => ?_) h8
  refine direct_wf (fun x16 x17 x18 x19 x20 h21 => ?_) h12
  refine Keeps.bind (need_wf h21) fun r1 h1 => ?_
  dsimp only
  split
  · exact .pure h21
  · exact .pure (Frame.writeFpst_wf h21)

theorem nestCheck_wf {ws write addr} : Keeps Stop.Wf (fun _ => True) (nestCheck ws write addr) := by
  unfold nestCheck
  exact Keeps.bind (need_wf trivial) fun _ h12 => Keeps.bind (need_wf trivial) fun _ h11 => need_wf trivial

theorem Frame.bindFeed_wf {f : Frame} {n write ws} (m : Memory.wf f.s.mem) : Memory.wf (Frame.bindFeed f n write ws).s.mem := by
  unfold Frame.bindFeed
  exact m

theorem execNest_wf {h a} {s : State} (w : Memory.wf s.mem) : Leaves (execNest h a s) := by
  unfold execNest
  exact runSlot_wf (fun _ h11 => trigger_wf (fun _ _ h9 => direct_wf (fun _ _ _ _ _ h7 => Keeps.bind (Frame.padPlace_wf h7) fun _ h6 =>
    Keeps.bind Frame.padRead_wf fun _ h5 => Keeps.bind nestCheck_wf fun _ h4 => .pure (Frame.bindFeed_wf h6)) h9) h11) w

theorem execFeedElementArrive_wf {ctx port} {s : State} (w : Memory.wf s.mem) : Leaves (execFeedElementArrive ctx port s) := by
  unfold execFeedElementArrive
  split
  · dsimp only
    split
    · exact .next (State.setCtx_wf (Frame.foldl_wf (fun _ _ h10 => Frame.own_wf h10) w))
    · exact .next w
  · exact State.event_wf w

theorem trowOp_wf {w h a} {s : State} (m : Memory.wf s.mem) : Leaves (trowOp w h a s) := by
  unfold trowOp
  refine runSlot_wf (fun x8 h9 => ?_) m
  refine trigger_wf (fun x11 x12 h13 => ?_) h9
  refine direct_wf (fun x17 x18 x19 x20 x21 h22 => ?_) h13
  refine Keeps.bind (need_wf trivial) fun r1 h1 => ?_
  split
  · exact .pure h22
  · exact Keeps.bind (need_wf h22) fun _ h12 => .pure h22

theorem execTdrain_wf {h} {s : State} (w : Memory.wf s.mem) : Leaves (execTdrain h s) := by
  unfold execTdrain
  exact runSlot_wf (fun _ h11 => trigger_wf (fun _ _ h9 => direct_wf (fun _ _ _ _ _ h7 => .ok h7) h9) h11) w

theorem execTclr_wf {h} {s : State} (w : Memory.wf s.mem) : Leaves (execTclr h s) := by
  unfold execTclr
  exact runSlot_wf (fun _ h11 => trigger_wf (fun _ _ h9 => direct_wf (fun _ _ _ _ _ h7 => .ok h7) h9) h11) w

theorem execColumnPresent_wf {ctx} {s : State} (w : Memory.wf s.mem) : Leaves (execColumnPresent ctx s) := by
  unfold execColumnPresent
  split
  · exact State.event_wf w
  · split
    · exact State.event_wf w
    · exact .next (State.setCtx_wf w)

end Sys2Proof.Machine
end

section
/-! SUPPORT. Memory stays canonical: the control unit but agreements, system registers and TRET. -/

namespace Sys2Proof.Machine

theorem controlOp_wf {h g} {act : Frame → Word → Word → Word → Except Stop Frame} {s : State} (w : ∀ a0 a1 a2 a3, Memory.wf a0.s.mem → Keeps
    Stop.Wf (fun r => Memory.wf r.s.mem) (act a0 a1 a2 a3)) (w2 : Memory.wf s.mem) : Leaves (controlOp h g act s) := by
  unfold controlOp
  exact runSlot_wf (fun _ h11 => trigger_wf (fun _ _ h9 => direct_wf (fun _ _ _ _ _ h7 => Keeps.map (w _ _ _ _ h7) fun _ h6 => h6) h9) h11) w2

theorem Frame.transfer_wf {f : Frame} {t} (w : Memory.wf f.s.mem) : Memory.wf (Frame.transfer f t).s.mem := by
  unfold Frame.transfer
  exact w

theorem absoluteTarget_wf {a} : Keeps Stop.Wf (fun _ => True) (absoluteTarget a) := by
  unfold absoluteTarget
  split
  · exact .ok trivial
  · exact .error trivial

theorem execJmp_wf {h a} {s : State} (w : Memory.wf s.mem) : Leaves (execJmp h a s) := by
  unfold execJmp
  exact controlOp_wf (fun _ _ _ _ h11 => Keeps.map absoluteTarget_wf fun _ h10 => Frame.transfer_wf h11) w

theorem execJmpr_wf {h a} {s : State} (w : Memory.wf s.mem) : Leaves (execJmpr h a s) := by
  unfold execJmpr
  exact controlOp_wf (fun _ _ _ _ h11 => .ok (Frame.transfer_wf h11)) w

theorem Frame.spillLowest_wf {f : Frame} (w : Memory.wf f.s.mem) : Keeps Stop.Wf (fun r => Memory.wf r.s.mem) (Frame.spillLowest f) := by
  unfold Frame.spillLowest
  refine Keeps.bind (Frame.settled_wf w) fun r1 h1 => ?_
  refine Keeps.bind (need_wf w) fun r2 h2 => ?_
  refine Keeps.bind (Frame.touch_wf w) fun r3 h3 => ?_
  refine Keeps.bind (need_wf trivial) fun r4 h4 => ?_
  split
  · exact .error trivial
  · rename_i e5
    have h5 := Keeps.of_ok (State.tileWrite_wf h3) e5
    exact .ok h5

theorem Frame.callTo_wf {f : Frame} {target} (w : Memory.wf f.s.mem) : Keeps Stop.Wf (fun r => Memory.wf r.s.mem) (Frame.callTo f target) := by
  unfold Frame.callTo
  refine Keeps.bind (need_wf trivial) fun r1 h1 => ?_
  refine Keeps.bind (need_wf trivial) fun r2 h2 => ?_
  refine Keeps.bind (Frame.touch_wf w) fun r3 h3 => ?_
  dsimp only
  split
  · exact Keeps.bind (Frame.spillLowest_wf h3) fun _ h12 => .pure (Frame.transfer_wf h12)
  · exact Keeps.bind (P := fun r => Memory.wf r.s.mem) (.ok h3) fun _ h12 => .pure (Frame.transfer_wf h12)

theorem execCall_wf {h a} {s : State} (w : Memory.wf s.mem) : Leaves (execCall h a s) := by
  unfold execCall
  exact controlOp_wf (fun _ _ _ _ h11 => Keeps.bind absoluteTarget_wf fun _ h10 => Frame.callTo_wf h11) w

theorem execCallr_wf {h a} {s : State} (w : Memory.wf s.mem) : Leaves (execCallr h a s) := by
  unfold execCallr
  exact controlOp_wf (fun _ _ _ _ h11 => Frame.callTo_wf h11) w

theorem Frame.await_wf {f : Frame} {w} (m : Memory.wf f.s.mem) : Keeps Stop.Wf (fun r => Memory.wf r.s.mem) (Frame.await f w) := by
  unfold Frame.await
  split
  · exact .ok m
  · exact .error m

theorem Frame.awaitData_wf {f : Frame} {w} {refused : ℕ → Stop} (m : Memory.wf f.s.mem) (m2 : ∀ a0, Stop.Wf (refused a0)) : Keeps Stop.Wf (fun r
    => Memory.wf r.s.mem) (Frame.awaitData f w refused) := by
  unfold Frame.awaitData
  split
  · split
    · exact .error (m2 _)
    · exact Frame.await_wf m
  · split
    · exact .error trivial
    · exact Frame.await_wf m
  · exact Frame.await_wf m

theorem Frame.returnTo_wf {f : Frame} {target} (w : Memory.wf f.s.mem) : Keeps Stop.Wf (fun r => Memory.wf r.s.mem) (Frame.returnTo f target) := by
  unfold Frame.returnTo
  refine Keeps.bind (need_wf trivial) fun r1 h1 => ?_
  refine Keeps.bind (Frame.touch_wf w) fun r2 h2 => ?_
  split
  · exact Keeps.bind (Frame.settled_wf h2) fun _ h12 => Keeps.bind (Frame.awaitData_wf h2 (fun _ => trivial)) fun _ h11 => .pure
      (Frame.transfer_wf h11)
  · exact .pure (Frame.transfer_wf h2)

theorem execRet_wf {h a} {s : State} (w : Memory.wf s.mem) : Leaves (execRet h a s) := by
  unfold execRet
  exact controlOp_wf (fun _ _ _ _ h11 => Keeps.bind absoluteTarget_wf fun _ h10 => Frame.returnTo_wf h11) w

theorem execSpillWriteComplete_wf {sid} {s : State} (w : Memory.wf s.mem) : Leaves (execSpillWriteComplete sid s) := by
  unfold execSpillWriteComplete
  split
  · exact State.event_wf w
  · exact State.event_wf (State.setStrand_wf w)

theorem execFillArrive_wf {sid} {s : State} (w : Memory.wf s.mem) : Leaves (execFillArrive sid s) := by
  unfold execFillArrive
  split
  · exact State.event_wf w
  · rename_i e1
    have h1 := State.frameOf_wf w _ e1
    dsimp only
    split
    · split
      · exact State.event_wf w
      · split
        · exact State.event_wf (Frame.put_wf (State.informStrand_wf w))
        · split
          · exact State.event_wf (State.setStrand_wf w)
          · exact State.event_wf (Frame.put_wf (State.tileHasRead_wf w))
    · exact State.event_wf w

theorem Frame.openLoop_wf {f : Frame} {a exit} (w : Memory.wf f.s.mem) : Keeps Stop.Wf (fun r => Memory.wf r.s.mem) (Frame.openLoop f a exit) := by
  unfold Frame.openLoop
  refine Keeps.bind (need_wf trivial) fun r1 h1 => ?_
  split
  · exact .pure (Frame.transfer_wf w)
  · exact .pure (Frame.putLevel_wf w)

theorem execLoop_wf {h a} {s : State} (w : Memory.wf s.mem) : Leaves (execLoop h a s) := by
  unfold execLoop
  exact controlOp_wf (fun _ _ _ _ h11 => Frame.openLoop_wf h11) w

theorem execLoopx_wf {h a} {s : State} (w : Memory.wf s.mem) : Leaves (execLoopx h a s) := by
  unfold execLoopx
  exact controlOp_wf (fun _ _ _ _ h11 => Frame.openLoop_wf h11) w

theorem execSlack_wf {h a} {s : State} (w : Memory.wf s.mem) : Leaves (execSlack h a s) := by
  unfold execSlack
  exact controlOp_wf (fun _ _ _ _ h11 => .ok (Frame.putSlack_wf h11)) w

theorem Frame.storesOut_wf {f : Frame} (w : Memory.wf f.s.mem) : Keeps Stop.Wf (fun _ => True) (Frame.storesOut f) := by
  unfold Frame.storesOut
  exact need_wf w

theorem State.releaseBarriers_wf {s : State} {task} (w : Memory.wf s.mem) : Memory.wf (State.releaseBarriers s task).mem := by
  unfold State.releaseBarriers
  refine State.foldl_wf (fun s1 a1 h1 => ?_) w
  split
  · exact h1
  · exact h1

theorem execBar_wf {h a} {s : State} (w : Memory.wf s.mem) : Leaves (execBar h a s) := by
  unfold execBar
  refine controlOp_wf (fun x10 x11 x12 x13 h14 => ?_) w
  refine Keeps.bind (Frame.settled_wf h14) fun r1 h1 => ?_
  refine Keeps.bind (Frame.storesOut_wf h14) fun r2 h2 => ?_
  refine .pure ?_
  dsimp only
  exact State.releaseBarriers_wf (State.setStrand_wf h14)

theorem execTkpost_wf {h a} {s : State} (w : Memory.wf s.mem) : Leaves (execTkpost h a s) := by
  unfold execTkpost
  exact controlOp_wf (fun _ _ _ _ h11 => Keeps.bind (Frame.settled_wf h11) fun _ h10 => Keeps.bind (Frame.storesOut_wf h11) fun _ h9 =>
    Keeps.bind (need_wf h11) fun _ h8 => .pure h11) w

theorem execTkpostDeliver_wf {sid} {s : State} (w : Memory.wf s.mem) : Leaves (execTkpostDeliver sid s) := by
  unfold execTkpostDeliver
  split
  · exact State.event_wf w
  · split
    · exact State.event_wf w
    · dsimp only
      split
      · exact .next (State.setStrand_wf w)
      · exact .next (State.progress_wf (State.setStrand_wf (State.setStrand_wf w)))

theorem execHeart_wf {h} {s : State} (w : Memory.wf s.mem) : Leaves (execHeart h s) := by
  unfold execHeart
  refine controlOp_wf (fun x9 x10 x11 x12 h13 => ?_) w
  split
  · exact .ok h13
  · exact .ok (State.progress_wf h13)

theorem execRetire_wf {h} {s : State} (w : Memory.wf s.mem) : Leaves (execRetire h s) := by
  unfold execRetire
  exact controlOp_wf (fun _ _ _ _ h11 => Keeps.bind (need_wf h11) fun _ h10 => .pure h11) w

theorem execCbxReloadEnd_wf {sid} {s : State} (w : Memory.wf s.mem) : Leaves (execCbxReloadEnd sid s) := by
  unfold execCbxReloadEnd
  split
  · exact State.event_wf w
  · split
    · exact .next w
    · exact .next (State.setStrand_wf w)

theorem execCsync_wf {h} {s : State} (w : Memory.wf s.mem) : Leaves (execCsync h s) := by
  unfold execCsync
  exact controlOp_wf (fun _ _ _ _ h11 => Keeps.bind (Frame.settled_wf h11) fun _ h10 => Frame.awaitData_wf h11 (fun _ => trivial)) w

theorem execCsyncSnapshot_wf {sid} {s : State} (w : Memory.wf s.mem) : Leaves (execCsyncSnapshot sid s) := by
  unfold execCsyncSnapshot
  split
  · exact State.event_wf w
  · rename_i e1
    have h1 := State.frameOf_wf w _ e1
    dsimp only
    split
    · exact State.event_wf w
    · split
      · exact State.event_wf (Frame.put_wf (State.informStrand_wf w))
      · split
        · exact State.event_wf (State.setStrand_wf w)
        · exact State.event_wf (State.setStrand_wf (State.tileHasRead_wf w))

theorem fenceOp_wf {k sc h} {s : State} (w : Memory.wf s.mem) : Leaves (fenceOp k sc h s) := by
  unfold fenceOp
  refine controlOp_wf (fun x11 x12 x13 x14 h15 => ?_) w
  split
  · exact .ok h15
  · exact Keeps.bind (Frame.settled_wf h15) fun _ h12 => Keeps.bind (need_wf h15) fun _ h11 => .pure h15
  · exact Keeps.bind (Frame.settled_wf h15) fun _ h12 => Keeps.bind (need_wf h15) fun _ h11 => Frame.await_wf h15

theorem execFenceComplete_wf {sid} {s : State} (w : Memory.wf s.mem) : Leaves (execFenceComplete sid s) := by
  unfold execFenceComplete
  split
  · exact State.event_wf w
  · split
    · dsimp only
      split
      · exact State.event_wf w
      · refine State.event_wf ?_
        refine State.setStrand_wf ?_
        split
        · exact w
        · exact State.releaseDie_wf w
    · exact State.event_wf w

theorem Frame.disarmLate_wf {f : Frame} {l} (w : Memory.wf f.s.mem) : Memory.wf (Frame.disarmLate f l).s.mem := by
  unfold Frame.disarmLate
  exact w

theorem execResultPush_wf {sid} {s : State} (w : Memory.wf s.mem) : Leaves (execResultPush sid s) := by
  unfold execResultPush
  split
  · exact State.event_wf w
  · rename_i e1
    have h1 := State.frameOf_wf w _ e1
    exact .next (Frame.put_wf (Frame.disarmLate_wf h1))

theorem Frame.releaseLeafed_wf {f : Frame} (w : Memory.wf f.s.mem) : Memory.wf (Frame.releaseLeafed f).s.mem := by
  unfold Frame.releaseLeafed
  exact Frame.disarmLate_wf w

theorem Frame.startAgain_wf {f : Frame} {x} (w : Memory.wf f.s.mem) : Memory.wf (Frame.startAgain f x).mem := by
  unfold Frame.startAgain
  exact State.setCtx_wf w

theorem Frame.runHeld_wf {f : Frame} {x} (w : Memory.wf f.s.mem) : Memory.wf (Frame.runHeld f x).mem := by
  unfold Frame.runHeld
  dsimp only
  split
  · exact Frame.heldTrap_wf w
  · split
    · exact Frame.startAgain_wf w
    · split
      · exact State.setCtx_wf w
      · exact Frame.heldTrap_wf w
      · exact State.setCtx_wf w
    · exact State.setCtx_wf w

theorem execHeldOpRun_wf {ctx u} {s : State} (w : Memory.wf s.mem) : Leaves (execHeldOpRun ctx u s) := by
  unfold execHeldOpRun
  split
  · split
    · exact .next w
    · split
      · exact .next (State.setStrand_wf (State.setCtx_wf w))
      · split
        · split
          · exact .next (Frame.runHeld_wf w)
          · exact .next w
        · exact .next w
  · exact .next w

theorem execSlackExhausted_wf {sid} {s : State} (w : Memory.wf s.mem) : Leaves (execSlackExhausted sid s) := by
  unfold execSlackExhausted
  split
  · exact State.event_wf w
  · rename_i e1
    have h1 := State.frameOf_wf w _ e1
    dsimp only
    split
    · exact State.event_wf w
    · split
      · exact State.event_wf (Frame.heldTrap_wf h1)
      · exact State.event_wf (State.setStrand_wf w)

theorem execStallEnd_wf {sid} {s : State} (w : Memory.wf s.mem) : Leaves (execStallEnd sid s) := by
  unfold execStallEnd
  split
  · exact State.event_wf w
  · split
    · split
      · exact State.event_wf (State.setStrand_wf w)
      · exact State.event_wf w
    · exact State.event_wf w

end Sys2Proof.Machine
end

section
/-! SUPPORT. Memory stays canonical: tag commands of the copy engines. -/

namespace Sys2Proof.Machine

theorem copyOp_wf {b c d lat h a} {act : Frame → Word → Word → Word → Word → Except Stop (Frame × Effect)} {s : State} (w : ∀ a0 a1 a2 a3 a4,
    Memory.wf a0.s.mem → Keeps Stop.Wf (fun r => Memory.wf r.1.s.mem) (act a0 a1 a2 a3 a4)) (w2 : Memory.wf s.mem) : Leaves (copyOp b c d lat h a
      act s) := by
  unfold copyOp
  exact runSlot_wf (fun _ h11 => trigger_wf (fun _ _ h9 => direct_wf (fun _ _ _ _ _ h7 => w _ _ _ _ _ h7) h9) h11) w2

theorem settledOp_wf {b c d h a} {act : Frame → Word → Word → Word → Word → Except Stop Frame} {s : State} (w : ∀ a0 a1 a2 a3 a4, Memory.wf
    a0.s.mem → Keeps Stop.Wf (fun r => Memory.wf r.s.mem) (act a0 a1 a2 a3 a4)) (w2 : Memory.wf s.mem) : Leaves (settledOp b c d h a act s) := by
  unfold settledOp
  exact copyOp_wf (fun _ _ _ _ _ h11 => Keeps.bind (Frame.settled_wf h11) fun _ h10 => Keeps.bind (w _ _ _ _ _ h11) fun _ h9 => .pure h9) w2

theorem Frame.entryPlace_wf {f : Frame} (w : Memory.wf f.s.mem) : Keeps Stop.Wf (fun _ => True) (Frame.entryPlace f) := by
  unfold Frame.entryPlace
  dsimp only
  split
  · exact .ok trivial
  · split
    · exact .ok trivial
    · exact .error w

theorem Frame.issueTag_wf {f : Frame} {tag blocks kind} (w : Memory.wf f.s.mem) : Keeps Stop.Wf (fun r => Memory.wf r.s.mem) (Frame.issueTag f
    tag blocks kind) := by
  unfold Frame.issueTag
  refine Keeps.bind (need_wf trivial) fun r1 h1 => ?_
  refine Keeps.bind (Frame.entryPlace_wf w) fun r2 h2 => ?_
  refine Keeps.bind (Frame.reachAll_wf w) fun r3 h3 => ?_
  refine .pure ?_
  dsimp only
  exact State.claim_wf h3

theorem Frame.needUnowned_wf {f : Frame} {a n} : Keeps Stop.Wf (fun _ => True) (Frame.needUnowned f a n) := by
  unfold Frame.needUnowned
  split
  · exact .error trivial
  · exact .ok trivial

theorem Frame.padWords_wf {f : Frame} {a n} (w : Memory.wf f.s.mem) : Keeps Stop.Wf (fun r => Memory.wf r.2.s.mem) (Frame.padWords f a n) := by
  unfold Frame.padWords
  exact Keeps.bind (Frame.reachAll_wf w) fun _ h12 => Keeps.bind (Frame.access_wf h12) fun _ h11 => Keeps.bind Frame.padRead_wf fun _ h10
    => .pure h11

theorem Frame.atEnd_wf {f : Frame} {x} (w : Memory.wf f.s.mem) : Memory.wf (Frame.atEnd f x).s.mem := by
  unfold Frame.atEnd
  exact w

theorem Frame.checkDesc_wf {f : Frame} {u a b} (w : Memory.wf f.s.mem) : Keeps Stop.Wf (fun r => Memory.wf r.2.s.mem) (Frame.checkDesc f u a b) := by
  unfold Frame.checkDesc
  refine Keeps.bind (need_wf trivial) fun r1 h1 => ?_
  refine Keeps.bind Frame.needUnowned_wf fun r2 h2 => ?_
  refine Keeps.bind (Frame.padWords_wf w) fun ⟨r3a, r3b⟩ h3 => ?_
  refine Keeps.bind (need_wf trivial) fun r4 h4 => ?_
  refine Keeps.bind (need_wf trivial) fun r5 h5 => ?_
  refine Keeps.bind (need_wf trivial) fun r6 h6 => ?_
  refine Keeps.bind (need_wf trivial) fun r7 h7 => ?_
  dsimp only
  split
  · exact Keeps.bind Frame.needUnowned_wf fun _ h12 => .pure h3
  · exact Keeps.bind (P := fun _ => True) (.ok trivial) fun _ h12 => .pure h3

theorem descOp_wf {u w h a} {s : State} (m : Memory.wf s.mem) : Leaves (descOp u w h a s) := by
  unfold descOp
  exact settledOp_wf (fun _ _ _ _ _ h11 => Keeps.bind (Frame.checkDesc_wf h11) fun _ h10 => Keeps.bind (need_wf trivial) fun _ h9 => Keeps.bind
    (Frame.reachAll_wf h10) fun _ h8 => Frame.issueTag_wf h8) m

theorem globalAtomic_wf {o h a} {s : State} (w : Memory.wf s.mem) : Leaves (globalAtomic o h a s) := by
  unfold globalAtomic
  refine settledOp_wf (fun x12 x13 x14 x15 x16 h17 => ?_) w
  refine Keeps.bind (need_wf trivial) fun r1 h1 => ?_
  refine Keeps.bind (need_wf trivial) fun r2 h2 => ?_
  refine Keeps.bind (need_wf trivial) fun r3 h3 => ?_
  dsimp only
  split
  · exact Keeps.bind (P := fun _ => True) (.ok trivial) fun _ h12 => Frame.issueTag_wf h17
  · exact Keeps.bind Frame.needUnowned_wf fun _ h12 => Frame.issueTag_wf h17

theorem execMcst_wf {h a} {s : State} (w : Memory.wf s.mem) : Leaves (execMcst h a s) := by
  unfold execMcst
  exact settledOp_wf (fun _ _ _ _ _ h11 => Keeps.bind (need_wf trivial) fun _ h10 => Keeps.bind (need_wf trivial) fun _ h9 => Keeps.bind (need_wf
    trivial) fun _ h8 => Keeps.bind (need_wf trivial) fun _ h7 => Keeps.bind Frame.needUnowned_wf fun _ h6 => Keeps.bind
      Frame.needUnowned_wf fun _ h5 => Frame.issueTag_wf h11) w

theorem rangeOp_wf {o h a} {s : State} (w : Memory.wf s.mem) : Leaves (rangeOp o h a s) := by
  unfold rangeOp
  exact settledOp_wf (fun _ _ _ _ _ h11 => Keeps.bind (need_wf trivial) fun _ h10 => Frame.issueTag_wf h11) w

theorem execCatArm_wf {h a} {s : State} (w : Memory.wf s.mem) : Leaves (execCatArm h a s) := by
  unfold execCatArm
  exact settledOp_wf (fun _ _ _ _ _ h11 => Keeps.bind (need_wf trivial) fun _ h10 => Keeps.bind (need_wf trivial) fun _ h9 => Frame.issueTag_wf h11) w

theorem execCatDisarm_wf {h a} {s : State} (w : Memory.wf s.mem) : Leaves (execCatDisarm h a s) := by
  unfold execCatDisarm
  exact settledOp_wf (fun _ _ _ _ _ h11 => Keeps.bind (need_wf trivial) fun _ h10 => Frame.issueTag_wf h11) w

theorem tagWait_wf {any cond h a} {s : State} (w : Memory.wf s.mem) : Leaves (tagWait any cond h a s) := by
  unfold tagWait
  exact copyOp_wf (fun _ _ _ _ _ h11 => Keeps.bind (need_wf h11) fun _ h10 => .pure h11) w

theorem execFfr_wf {h a} {s : State} (w : Memory.wf s.mem) : Leaves (execFfr h a s) := by
  unfold execFfr
  exact copyOp_wf (fun _ _ _ _ _ h11 => .ok h11) w

theorem execClrtag_wf {h a} {s : State} (w : Memory.wf s.mem) : Leaves (execClrtag h a s) := by
  unfold execClrtag
  exact settledOp_wf (fun _ _ _ _ _ h11 => .ok h11) w

theorem execBcInit_wf {h a} {s : State} (w : Memory.wf s.mem) : Leaves (execBcInit h a s) := by
  unfold execBcInit
  exact settledOp_wf (fun _ _ _ _ _ h11 => Keeps.bind (need_wf trivial) fun _ h10 => Keeps.bind (need_wf trivial) fun _ h9 => Keeps.bind (need_wf
    trivial) fun _ h8 => Keeps.bind (Frame.reach_wf h11) fun _ h7 => Keeps.bind (Frame.access_wf h7) fun _ h6 => .pure (Frame.atEnd_wf h6)) w

theorem counterOp_wf {pend sign h a} {s : State} (w : Memory.wf s.mem) : Leaves (counterOp pend sign h a s) := by
  unfold counterOp
  exact settledOp_wf (fun _ _ _ _ _ h11 => Keeps.bind (need_wf trivial) fun _ h10 => .pure (Frame.atEnd_wf h11)) w

theorem execBcWait_wf {h a} {s : State} (w : Memory.wf s.mem) : Leaves (execBcWait h a s) := by
  unfold execBcWait
  refine runSlot_wf (fun x7 h8 => ?_) w
  refine trigger_wf (fun x10 x11 h12 => ?_) h8
  refine direct_wf (fun x16 x17 x18 x19 x20 h21 => ?_) h12
  refine Keeps.bind (need_wf trivial) fun r1 h1 => ?_
  dsimp only
  split
  · refine Keeps.bind (Frame.reach_wf h21) fun r2 h2 => ?_
    split
    · exact .pure h2
    · refine .pure ?_
      dsimp only
      split
      · exact Frame.atEnd_wf h2
      · exact h2
  · refine Keeps.bind (need_wf h21) fun r3 h3 => ?_
    refine .pure ?_
    dsimp only
    split
    · exact Frame.atEnd_wf h21
    · exact h21

theorem State.arrive_wf {s : State} {ctx bca len} (w : Memory.wf s.mem) : Memory.wf (State.arrive s ctx bca len).mem := by
  unfold State.arrive
  dsimp only
  split
  · exact w
  · split
    · exact State.setCounter_wf w
    · exact State.setStrand_wf w

theorem execCounterArrival_wf {ctx bca len} {s : State} (w : Memory.wf s.mem) : Leaves (execCounterArrival ctx bca len s) := by
  unfold execCounterArrival
  exact State.event_wf (State.arrive_wf w)

theorem State.setCmd_wf {s : State} {k} (w : Memory.wf s.mem) : Memory.wf (State.setCmd s k).mem := by
  unfold State.setCmd
  exact w

theorem execTagCommandAccept_wf {cmd} {s : State} (w : Memory.wf s.mem) : Leaves (execTagCommandAccept cmd s) := by
  unfold execTagCommandAccept
  split
  · exact State.event_wf w
  · split
    · exact State.event_wf (State.setCmd_wf w)
    · exact State.event_wf w

theorem State.endCmd_wf {s : State} {k code} (w : Memory.wf s.mem) : Memory.wf (State.endCmd s k code).mem := by
  unfold State.endCmd
  exact State.setCmd_wf (State.release_wf w)

theorem execTagCommandComplete_wf {cmd} {s : State} (w : Memory.wf s.mem) : Leaves (execTagCommandComplete cmd s) := by
  unfold execTagCommandComplete
  split
  · exact State.event_wf w
  · split
    · exact State.event_wf w
    · dsimp only
      split
      · exact State.event_wf w
      · exact State.event_wf (State.progress_wf (State.setStrand_wf w))

theorem State.readSide_wf {s : State} {k sp a n} (w : Memory.wf s.mem) : Keeps (fun _ => True) (fun r => Memory.wf r.2.mem) (State.readSide s k
    sp a n) := by
  unfold State.readSide
  split
  · refine Keeps.bind .any fun r1 h1 => ?_
    split
    · exact .error trivial
    · exact .pure (State.noteRead_wf (State.keepPage_wf w))
  · split
    · exact .error trivial
    · exact .ok w
  · split
    · exact .error trivial
    · exact .ok w
  · split
    · exact .error trivial
    · exact .ok w

theorem State.writePlace_wf {s : State} {k sp a key bs} (w : Memory.wf s.mem) : Memory.wf (State.writePlace s k sp a key bs).mem := by
  unfold State.writePlace
  split
  · exact State.noteWrite_wf (State.write_wf (State.keepPage_wf w))
  · exact State.write_wf w
  · exact State.windowWrite_wf w
  · exact State.write_wf w

theorem State.writeSide_wf {s : State} {k sp a bs} (w : Memory.wf s.mem) : Keeps (fun _ => True) (fun r => Memory.wf r.mem) (State.writeSide s k
    sp a bs) := by
  unfold State.writeSide
  exact Keeps.map .any fun _ h12 => State.writePlace_wf w

theorem State.readSegs_wf {s : State} {k sp l} (w : Memory.wf s.mem) : Keeps (fun _ => True) (fun r => Memory.wf r.2.mem) (State.readSegs s k sp
    l) := by
  induction l generalizing s with
  | nil => exact .ok w
  | cons g l ih =>
    unfold State.readSegs
    dsimp only
    split
    · exact Keeps.bind (P := fun r => Memory.wf r.2.mem) (.ok w) fun _ h1 => Keeps.bind (ih h1) fun _ h2 => .pure h2
    · exact Keeps.bind (State.readSide_wf w) fun _ h1 => Keeps.bind (ih h1) fun _ h2 => .pure h2

theorem State.writeSegs_wf {s : State} {k sp l} (w : Memory.wf s.mem) : Keeps (fun _ => True) (fun r => Memory.wf r.mem) (State.writeSegs s k sp
    l) := by
  unfold State.writeSegs
  exact Keeps.map .any fun _ h12 => State.foldl_wf (fun _ _ h11 => State.writePlace_wf h11) w

theorem State.undefineSide_wf {s : State} {k sp a n} (w : Memory.wf s.mem) : Memory.wf (State.undefineSide s k sp a n).mem := by
  unfold State.undefineSide
  split
  · rename_i e1
    have h1 := Keeps.of_ok (State.writeSide_wf w) e1
    exact h1
  · exact w

theorem State.abandonCopy_wf {s : State} {k d w pos} (m : Memory.wf s.mem) : Memory.wf (State.abandonCopy s k d w pos).mem := by
  unfold State.abandonCopy
  refine State.foldl_wf (fun s1 a1 h1 => ?_) m
  split
  · exact State.undefineSide_wf h1
  · exact h1

theorem State.undefineOverlap_wf {s : State} {k d w} (m : Memory.wf s.mem) : Memory.wf (State.undefineOverlap s k d w).mem := by
  unfold State.undefineOverlap
  dsimp only
  split
  · exact State.foldl_wf (fun _ _ h12 => State.undefineSide_wf h12) m
  · exact m

theorem State.failCmd_wf {s : State} {k e} (w : Memory.wf s.mem) : Memory.wf (State.failCmd s k e).mem := by
  unfold State.failCmd
  refine State.endCmd_wf ?_
  split
  · split
    · exact State.informStrand_wf w
    · exact State.inform_wf w
  · exact State.machineCheckOf_wf w

theorem State.moveChunk_wf {s : State} {k d w segs n} (m : Memory.wf s.mem) : Keeps (fun _ => True) (fun r => Memory.wf r.mem) (State.moveChunk s
    k d w segs n) := by
  unfold State.moveChunk
  split
  · exact .error trivial
  · exact Keeps.bind (State.readSegs_wf m) fun _ h12 => State.writeSegs_wf h12

theorem State.copyChunk_wf {s : State} {k d w} (m : Memory.wf s.mem) : Memory.wf (State.copyChunk s k d w).mem := by
  unfold State.copyChunk
  dsimp only
  split
  · exact State.failCmd_wf (State.abandonCopy_wf m)
  · rename_i e1
    have h1 := Keeps.of_ok (State.moveChunk_wf m) e1
    split
    · refine State.endCmd_wf ?_
      refine State.undefineOverlap_wf ?_
      split
      · exact State.arrive_wf h1
      · exact h1
    · refine State.setCmd_wf ?_
      split
      · exact State.arrive_wf h1
      · exact h1

theorem State.atomicChunk_wf {s : State} {k o narrow va res c d} (w : Memory.wf s.mem) : Memory.wf (State.atomicChunk s k o narrow va res c
    d).mem := by
  unfold State.atomicChunk
  dsimp only
  split
  · exact State.failCmd_wf w
  · split
    · split
      · exact State.failCmd_wf w
      · refine State.endCmd_wf ?_
        split
        · split
          · exact State.noteRead_wf (State.keepPage_wf w)
          · exact State.noteWrite_wf (State.write_wf (State.noteRead_wf (State.keepPage_wf w)))
        · refine State.write_wf ?_
          split
          · exact State.noteRead_wf (State.keepPage_wf w)
          · exact State.noteWrite_wf (State.write_wf (State.noteRead_wf (State.keepPage_wf w)))
    · split
      · exact State.failCmd_wf w
      · refine State.endCmd_wf ?_
        split
        · split
          · exact State.noteRead_wf (State.keepPage_wf w)
          · exact State.noteWrite_wf (State.write_wf (State.noteRead_wf (State.keepPage_wf w)))
        · refine State.write_wf ?_
          split
          · exact State.noteRead_wf (State.keepPage_wf w)
          · exact State.noteWrite_wf (State.write_wf (State.noteRead_wf (State.keepPage_wf w)))

theorem State.rangeChunk_wf {s : State} {k o base len} (w : Memory.wf s.mem) : Memory.wf (State.rangeChunk s k o base len).mem := by
  unfold State.rangeChunk
  dsimp only
  split
  · split
    · exact State.endCmd_wf (State.keepPage_wf w)
    · exact State.setCmd_wf (State.keepPage_wf w)
  · split
    · exact State.endCmd_wf (State.keepPage_wf w)
    · exact State.setCmd_wf (State.keepPage_wf w)
  · exact State.failCmd_wf w

theorem State.countAnswer_wf {s : State} {cmd idx ok} (w : Memory.wf s.mem) : Memory.wf (State.countAnswer s cmd idx ok).mem := by
  unfold State.countAnswer
  split
  · exact w
  · split
    · exact w
    · exact State.setCmd_wf w

theorem State.sendReplica_wf {s : State} {r} (w : Memory.wf s.mem) : Memory.wf (State.sendReplica s r).mem := by
  unfold State.sendReplica
  split
  · exact w
  · split
    · exact State.foldl_wf (fun _ _ h12 => State.countAnswer_wf h12) w
    · exact State.send_wf w

theorem State.mcstSend_wf {s : State} {k line grp va} (w : Memory.wf s.mem) : Memory.wf (State.mcstSend s k line grp va).mem := by
  unfold State.mcstSend
  split
  · exact State.endCmd_wf w
  · split
    · exact State.endCmd_wf w
    · split
      · exact State.failCmd_wf w
      · exact State.foldl_wf (fun _ _ h12 => State.sendReplica_wf h12) (State.setCmd_wf w)

theorem State.answerReplica_wf {s : State} {r} (w : Memory.wf s.mem) : Memory.wf (State.answerReplica s r).mem := by
  unfold State.answerReplica
  split
  · exact State.foldl_wf (fun _ _ h12 => State.countAnswer_wf h12) (State.foldl_wf (fun _ _ h11 => State.countAnswer_wf h11) w)
  · exact State.send_wf w

theorem State.memberWrites_wf {s : State} {r} (w : Memory.wf s.mem) : Memory.wf (State.memberWrites s r).1.mem := by
  unfold State.memberWrites
  split
  · exact w
  · exact State.noteWrite_wf (State.write_wf w)

theorem execMcstReplicaArrive_wf {r} {s : State} (w : Memory.wf s.mem) : Leaves (execMcstReplicaArrive r s) := by
  unfold execMcstReplicaArrive
  dsimp only
  split
  · exact State.event_wf (State.answerReplica_wf w)
  · split
    · exact State.event_wf w
    · split
      · exact State.event_wf (State.answerReplica_wf w)
      · refine State.event_wf ?_
        split
        · exact State.answerReplica_wf (State.memberWrites_wf w)
        · exact State.memberWrites_wf w

theorem execMcstAckArrive_wf {cmd ack} {s : State} (w : Memory.wf s.mem) : Leaves (execMcstAckArrive cmd ack s) := by
  unfold execMcstAckArrive
  split
  · exact State.event_wf w
  · split
    · dsimp only
      split
      · exact State.event_wf (State.foldl_wf (fun _ _ h11 => State.countAnswer_wf h11) w)
      · split
        · exact State.event_wf (State.endCmd_wf (State.write_wf (State.foldl_wf (fun _ _ h9 => State.countAnswer_wf h9) w)))
        · exact State.event_wf (State.foldl_wf (fun _ _ h11 => State.countAnswer_wf h11) w)
    · exact State.event_wf w

theorem State.armEntry_wf {s : State} {k index va budget} (w : Memory.wf s.mem) : Memory.wf (State.armEntry s k index va budget).mem := by
  unfold State.armEntry
  split
  · exact State.endCmd_wf w
  · split
    · exact State.failCmd_wf w
    · rename_i e1
      have h1 := Keeps.of_ok (Keeps.bind (State.readSide_wf w) fun _ h12 => State.writeSide_wf h12) e1
      exact State.endCmd_wf h1

theorem State.disarmEntry_wf {s : State} {k index} (w : Memory.wf s.mem) : Memory.wf (State.disarmEntry s k index).mem := by
  unfold State.disarmEntry
  split
  · exact State.endCmd_wf w
  · split
    · exact State.endCmd_wf w
    · exact State.setCmd_wf w

theorem execCatalogueDisarmComplete_wf {cmd} {s : State} (w : Memory.wf s.mem) : Leaves (execCatalogueDisarmComplete cmd s) := by
  unfold execCatalogueDisarmComplete
  split
  · exact State.event_wf w
  · split
    · split
      · exact State.event_wf (State.endCmd_wf w)
      · exact State.event_wf w
    · exact State.event_wf w

theorem execCopyChunk_wf {cmd} {s : State} (w : Memory.wf s.mem) : Leaves (execCopyChunk cmd s) := by
  unfold execCopyChunk
  split
  · exact State.event_wf w
  · split
    · exact State.event_wf w
    · split
      · exact State.event_wf (State.copyChunk_wf w)
      · exact State.event_wf (State.atomicChunk_wf w)
      · exact State.event_wf (State.mcstSend_wf w)
      · exact State.event_wf (State.rangeChunk_wf w)
      · exact State.event_wf (State.armEntry_wf w)
      · exact State.event_wf (State.disarmEntry_wf w)

end Sys2Proof.Machine
end

section
/-! SUPPORT. Memory stays canonical: system registers, interleave domains and the return from a trap handler. -/

namespace Sys2Proof.Machine

theorem execRdsr_wf {h a} {s : State} (w : Memory.wf s.mem) : Leaves (execRdsr h a s) := by
  unfold execRdsr
  exact runSlot_wf (fun _ h11 => trigger_wf (fun _ _ h9 => direct_wf (fun _ _ _ _ _ h7 => Keeps.bind (need_wf trivial) fun _ h6 => Keeps.bind
    (need_wf h7) fun _ h5 => .pure h7) h9) h11) w

theorem State.writeDomain_wf {s : State} {die n w} (m : Memory.wf s.mem) : Memory.wf (State.writeDomain s die n w).mem := by
  unfold State.writeDomain
  dsimp only
  split
  · split
    · exact m
    · exact m
  · exact m

theorem State.endCounter_wf {s : State} {ctx x} (w : Memory.wf s.mem) : Memory.wf (State.endCounter s ctx x).mem := by
  unfold State.endCounter
  split
  · exact Frame.put_wf (Frame.endCounter_wf w)
  · exact w

theorem State.endLate_wf {s : State} {y1} (w : Memory.wf s.mem) : Memory.wf (State.endLate s y1).mem := by
  unfold State.endLate
  split
  · exact State.writeDomain_wf w
  · exact w
  · exact State.endCounter_wf w

theorem State.endLates_wf {s : State} (w : Memory.wf s.mem) : Memory.wf (State.endLates s).mem := by
  unfold State.endLates
  exact State.foldl_wf (fun _ _ h12 => State.endLate_wf h12) w

theorem execL2domSwitchDone_wf {die dom} {s : State} (w : Memory.wf s.mem) : Leaves (execL2domSwitchDone die dom s) := by
  unfold execL2domSwitchDone
  exact State.event_wf w

theorem Frame.writeWdt_wf {f : Frame} {w} (m : Memory.wf f.s.mem) : Memory.wf (Frame.writeWdt f w).s.mem := by
  unfold Frame.writeWdt
  dsimp only
  split
  · exact m
  · exact m

theorem Frame.writeLate_wf {f : Frame} {w} (m : Memory.wf f.s.mem) : Memory.wf (Frame.writeLate f w).s.mem := by
  unfold Frame.writeLate
  exact m

theorem Frame.writeSystem_wf {f : Frame} {n w} (m : Memory.wf f.s.mem) : Memory.wf (Frame.writeSystem f n w).s.mem := by
  unfold Frame.writeSystem
  split
  · exact m
  · exact Frame.putSlack_wf m
  · exact m
  · exact m
  · exact m
  · exact Frame.writeWdt_wf m
  · exact m
  · exact Frame.writeLate_wf m
  · exact m
  · exact m
  · split
    · exact Frame.writeLate_wf m
    · exact m

theorem execWrsr_wf {h a} {s : State} (w : Memory.wf s.mem) : Leaves (execWrsr h a s) := by
  unfold execWrsr
  refine runSlot_wf (fun x7 h8 => ?_) w
  refine trigger_wf (fun x10 x11 h12 => ?_) h8
  refine direct_wf (fun x16 x17 x18 x19 x20 h21 => ?_) h12
  dsimp only
  split
  · exact Keeps.bind (P := fun _ => True) (.ok trivial) fun _ h12 => Keeps.bind (need_wf trivial) fun _ h11 => Keeps.bind (need_wf trivial) fun _
      h10 => Keeps.bind (need_wf h21) fun _ h9 => .pure (Frame.writeSystem_wf h21)
  · exact Keeps.bind (Frame.settled_wf h21) fun _ h12 => Keeps.bind (need_wf trivial) fun _ h11 => Keeps.bind (need_wf trivial) fun _ h10 =>
      Keeps.bind (need_wf h21) fun _ h9 => .pure (Frame.writeSystem_wf h21)

theorem State.dropCtx_wf {s : State} {ptn id} (w : Memory.wf s.mem) : Memory.wf (State.dropCtx s ptn id).mem := by
  unfold State.dropCtx
  dsimp only
  split
  · exact State.setTile_wf w
  · exact w

theorem Frame.redirected_wf {f : Frame} {target} (w : Memory.wf f.s.mem) : Memory.wf (Frame.redirected f target).s.mem := by
  unfold Frame.redirected
  dsimp only
  refine Frame.releaseLeafed_wf ?_
  split
  · exact Frame.endGroup_wf w
  · exact w

theorem Frame.leaveHandler_wf {f : Frame} {c} (w : Memory.wf f.s.mem) : Memory.wf (Frame.leaveHandler f c).mem := by
  unfold Frame.leaveHandler
  dsimp only
  split
  · exact Frame.put_wf (State.dropCtx_wf w)
  · split
    · exact Frame.put_wf (State.dropCtx_wf w)
    · exact Frame.put_wf (Frame.redirected_wf (State.dropCtx_wf w))
  · exact Frame.put_wf (State.dropCtx_wf w)

theorem Frame.restoreAndLeave_wf {f : Frame} {c} (w : Memory.wf f.s.mem) : Memory.wf (Frame.restoreAndLeave f c).mem := by
  unfold Frame.restoreAndLeave
  split
  · exact Frame.leaveHandler_wf w
  · have hput := Frame.put_wf (f := { f with s := { f.s with turn := f.s.turn.filter (· != f.t.sid) } }) w
    dsimp only
    generalize Frame.put _ = s at hput ⊢
    split
    · rename_i e
      have hread := Keeps.of_error (State.readArea_wf hput) e
      exact hread
    · rename_i e
      have hread := Keeps.of_ok (State.readArea_wf hput) e
      exact Frame.leaveHandler_wf hread
    · rename_i e
      have hread := Keeps.of_ok (State.readArea_wf hput) e
      exact Frame.leaveHandler_wf hread

theorem execTret_wf {h} {s : State} (w : Memory.wf s.mem) : Leaves (execTret h s) := by
  unfold execTret
  refine runSlotTo_wf (fun x6 h7 => ?_) w
  refine Keeps.bind (Frame.settled_wf h7) fun r1 h1 => ?_
  refine Keeps.bind (need_wf trivial) fun r2 h2 => ?_
  split
  · exact .pure (Frame.advance_wf h7)
  · exact .pure (Frame.restoreAndLeave_wf h7)

end Sys2Proof.Machine
end

section
/-! SUPPORT. Memory stays canonical: agreed branches. -/

namespace Sys2Proof.Machine

theorem State.setRoot_wf {s : State} {r} (w : Memory.wf s.mem) : Memory.wf (State.setRoot s r).mem := by
  unfold State.setRoot
  exact w

theorem State.sendAnswer_wf {s : State} {c v status} (w : Memory.wf s.mem) : Memory.wf (State.sendAnswer s c v status).mem := by
  unfold State.sendAnswer
  split
  · exact w
  · exact State.send_wf w

theorem State.sendStatus_wf {s : State} {c status} (w : Memory.wf s.mem) : Memory.wf (State.sendStatus s c status).mem := by
  unfold State.sendStatus
  exact State.sendAnswer_wf w

theorem State.discardRoot_wf {s : State} {gid} (w : Memory.wf s.mem) : Memory.wf (State.discardRoot s gid).mem := by
  unfold State.discardRoot
  exact w

theorem State.answerAll_wf {s : State} {l v status} (w : Memory.wf s.mem) : Memory.wf (State.answerAll s l v status).mem := by
  unfold State.answerAll
  exact State.foldl_wf (fun _ _ h12 => State.sendAnswer_wf h12) w

theorem State.tellRound_wf {s : State} {r} (w : Memory.wf s.mem) : Memory.wf (State.tellRound s r).mem := by
  unfold State.tellRound
  exact State.foldl_wf (fun _ _ h12 => State.send_wf h12) w

theorem State.resolveRoot_wf {s : State} {r forced} (w : Memory.wf s.mem) : Memory.wf (State.resolveRoot s r forced).1.mem := by
  unfold State.resolveRoot
  dsimp only
  split
  · exact State.setRoot_wf (State.answerAll_wf w)
  · exact State.tellRound_wf (State.setRoot_wf (State.answerAll_wf w))

theorem State.countContribution_wf {s : State} {r c} (w : Memory.wf s.mem) : Memory.wf (State.countContribution s r c).1.mem := by
  unfold State.countContribution
  dsimp only
  split
  · exact State.sendAnswer_wf w
  · exact w

theorem State.takeOne_wf {s : State} {c} (w : Memory.wf s.mem) : Memory.wf (State.takeOne s c).1.mem := by
  unfold State.takeOne
  dsimp only
  split
  · split
    · exact State.sendStatus_wf (State.setRoot_wf w)
    · split
      · exact State.setRoot_wf w
      · split
        · exact State.sendStatus_wf (State.setRoot_wf w)
        · split
          · exact w
          · split
            · exact State.resolveRoot_wf (State.setRoot_wf (State.countContribution_wf w))
            · dsimp only
              split
              · exact State.tellRound_wf (State.setRoot_wf (State.countContribution_wf w))
              · exact State.setRoot_wf (State.countContribution_wf w)
  · split
    · exact State.sendStatus_wf (State.setRoot_wf w)
    · split
      · exact State.setRoot_wf w
      · split
        · exact State.sendStatus_wf (State.setRoot_wf w)
        · split
          · exact w
          · split
            · exact State.resolveRoot_wf (State.setRoot_wf (State.countContribution_wf w))
            · dsimp only
              split
              · exact State.tellRound_wf (State.setRoot_wf (State.countContribution_wf w))
              · exact State.setRoot_wf (State.countContribution_wf w)

theorem State.takeContributions_wf {n l} {s : State} (w : Memory.wf s.mem) : Memory.wf (State.takeContributions n l s).mem := by
  induction n generalizing l s with
  | zero => exact w
  | succ n ih =>
    cases l with
    | nil => exact w
    | cons c l =>
      unfold State.takeContributions
      have hone := State.takeOne_wf (c := c) w
      generalize s.takeOne c = p at hone ⊢
      exact ih (State.discardRoot_wf hone)

theorem execContributionArrive_wf {c} {s : State} (w : Memory.wf s.mem) : Leaves (execContributionArrive c s) := by
  unfold execContributionArrive
  dsimp only
  split
  · exact State.event_wf w
  · exact State.event_wf (State.takeContributions_wf w)

theorem State.settleRoot_wf {s : State} {gid} (w : Memory.wf s.mem) : Memory.wf (State.settleRoot s gid).mem := by
  unfold State.settleRoot
  split
  · exact w
  · split
    · refine State.takeContributions_wf ?_
      refine State.discardRoot_wf ?_
      dsimp only
      split
      · exact State.setRoot_wf (State.answerAll_wf w)
      · exact State.tellRound_wf (State.setRoot_wf (State.answerAll_wf w))
    · exact State.discardRoot_wf w

theorem execAgreementTimeout_wf {gid} {s : State} (w : Memory.wf s.mem) : Leaves (execAgreementTimeout gid s) := by
  unfold execAgreementTimeout
  split
  · exact State.event_wf w
  · split
    · refine State.event_wf ?_
      refine State.takeContributions_wf ?_
      refine State.discardRoot_wf ?_
      dsimp only
      split
      · exact State.setRoot_wf (State.answerAll_wf w)
      · exact State.tellRound_wf (State.setRoot_wf (State.answerAll_wf w))
    · exact State.event_wf w

theorem State.setPm_wf {s : State} {gid on} (w : Memory.wf s.mem) : Memory.wf (State.setPm s gid on).mem := by
  unfold State.setPm
  exact w

theorem State.tellPm_wf {s : State} {r} (w : Memory.wf s.mem) : Memory.wf (State.tellPm s r).mem := by
  unfold State.tellPm
  exact State.tellRound_wf (State.setPm_wf w)

theorem State.rootLeave_wf {s : State} {gid count midx out} (w : Memory.wf s.mem) : Memory.wf (State.rootLeave s gid count midx out).mem := by
  unfold State.rootLeave
  refine State.settleRoot_wf ?_
  split
  · split
    · split
      · exact State.setRoot_wf w
      · exact State.tellPm_wf (State.setRoot_wf w)
    · split
      · exact State.setRoot_wf w
      · exact State.tellPm_wf (State.setRoot_wf w)
  · split
    · split
      · exact State.setRoot_wf w
      · exact State.tellPm_wf (State.setRoot_wf w)
    · split
      · exact State.setRoot_wf w
      · exact State.tellPm_wf (State.setRoot_wf w)

theorem execLeaveNotice_wf {group midx out} {s : State} (w : Memory.wf s.mem) : Leaves (execLeaveNotice group midx out s) := by
  unfold execLeaveNotice
  refine State.event_wf ?_
  split
  · exact State.rootLeave_wf w
  · exact w

theorem State.rootPre_wf {s : State} {gid midx on} (w : Memory.wf s.mem) : Memory.wf (State.rootPre s gid midx on).mem := by
  unfold State.rootPre
  exact State.tellPm_wf (State.setRoot_wf w)

theorem State.preNotice_wf {s : State} {gid midx on busy} (w : Memory.wf s.mem) : Memory.wf (State.preNotice s gid midx on busy).mem := by
  unfold State.preNotice
  split
  · exact State.setPm_wf w
  · exact State.rootPre_wf w

theorem execPreemptedNotice_wf {gid member} {s : State} (w : Memory.wf s.mem) : Leaves (execPreemptedNotice gid member s) := by
  unfold execPreemptedNotice
  refine State.event_wf ?_
  split
  · exact State.preNotice_wf w
  · exact w

theorem execResumeNotice_wf {gid member} {s : State} (w : Memory.wf s.mem) : Leaves (execResumeNotice gid member s) := by
  unfold execResumeNotice
  refine State.event_wf ?_
  split
  · exact State.preNotice_wf w
  · exact w

theorem State.leaveSlot_wf {s : State} {a} (w : Memory.wf s.mem) : Memory.wf (State.leaveSlot s a).mem := by
  unfold State.leaveSlot
  split
  · exact State.rootLeave_wf w
  · exact State.send_wf w

theorem State.leaveGroups_wf {s : State} {t} (w : Memory.wf s.mem) : Memory.wf (State.leaveGroups s t).mem := by
  unfold State.leaveGroups
  exact State.foldl_wf (fun _ _ h12 => State.leaveSlot_wf h12) w

theorem State.noticeGroups_wf {s : State} {t on} (w : Memory.wf s.mem) : Memory.wf (State.noticeGroups s t on).mem := by
  unfold State.noticeGroups
  refine State.foldl_wf (fun s1 a1 h1 => ?_) w
  split
  · exact State.rootPre_wf h1
  · exact State.send_wf h1

theorem execAgjoin_wf {h a} {s : State} (w : Memory.wf s.mem) : Leaves (execAgjoin h a s) := by
  unfold execAgjoin
  exact controlOp_wf (fun _ _ _ _ h11 => Keeps.bind (Frame.settled_wf h11) fun _ h10 => Keeps.bind (need_wf trivial) fun _ h9 => .pure h11) w

theorem execAgleave_wf {h a} {s : State} (w : Memory.wf s.mem) : Leaves (execAgleave h a s) := by
  unfold execAgleave
  exact controlOp_wf (fun _ _ _ _ h11 => Keeps.bind (Frame.settled_wf h11) fun _ h10 => Keeps.bind (need_wf trivial) fun _ h9 => .pure
    (State.leaveSlot_wf h11)) w

theorem Frame.askExcuse_wf {f : Frame} {rmod gid midx} (w : Memory.wf f.s.mem) : Keeps Stop.Wf (fun r => Memory.wf r.s.mem) (Frame.askExcuse f
    rmod gid midx) := by
  unfold Frame.askExcuse
  split
  · exact .error (State.send_wf w)
  · exact Frame.await_wf w

theorem execAgexcuse_wf {h a} {s : State} (w : Memory.wf s.mem) : Leaves (execAgexcuse h a s) := by
  unfold execAgexcuse
  exact controlOp_wf (fun _ _ _ _ h11 => Keeps.bind (Frame.settled_wf h11) fun _ h10 => Keeps.bind (need_wf trivial) fun _ h9 => Keeps.bind
    (need_wf trivial) fun _ h8 => Frame.askExcuse_wf h11) w

theorem State.rootExcuse_wf {s : State} {gid midx} (w : Memory.wf s.mem) : Memory.wf (State.rootExcuse s gid midx).mem := by
  unfold State.rootExcuse
  split
  · exact w
  · split
    · exact State.rootLeave_wf w
    · exact w

theorem execAgexcuseAck_wf {x} {s : State} (w : Memory.wf s.mem) : Leaves (execAgexcuseAck x s) := by
  unfold execAgexcuseAck
  split
  · exact State.event_wf w
  · split
    · exact State.event_wf w
    · split
      · dsimp only
        split
        · exact State.event_wf (State.rootExcuse_wf (State.setStrand_wf w))
        · exact State.event_wf (State.setStrand_wf w)
      · exact State.event_wf w

theorem Frame.releaseAt_wf {f : Frame} {scope} (w : Memory.wf f.s.mem) : Keeps Stop.Wf (fun r => Memory.wf r.s.mem) (Frame.releaseAt f scope) := by
  unfold Frame.releaseAt
  split
  · exact .ok w
  · exact .ok w
  · exact Keeps.bind (Frame.settled_wf w) fun _ h12 => Keeps.bind (need_wf w) fun _ h11 => .pure w
  · exact Keeps.bind (Frame.settled_wf w) fun _ h12 => Keeps.bind (need_wf w) fun _ h11 => Frame.await_wf w

theorem State.contribute_wf {s : State} {c} (w : Memory.wf s.mem) : Memory.wf (State.contribute s c).mem := by
  unfold State.contribute
  split
  · exact w
  · split
    · exact State.sendAnswer_wf w
    · exact State.send_wf w

theorem execCbr_wf {h a} {s : State} (w : Memory.wf s.mem) : Leaves (execCbr h a s) := by
  unfold execCbr
  refine runSlot_wf (fun x7 h8 => ?_) w
  exact trigger_wf (fun _ _ h11 => direct_wf (fun _ _ _ _ _ h9 => Keeps.bind (need_wf trivial) fun _ h8 => Keeps.bind (need_wf h9) fun _ h7 =>
    Keeps.bind (Frame.releaseAt_wf h9) fun _ h6 => .pure (Frame.transfer_wf (State.contribute_wf h6))) h11) h8

theorem State.undoKilled_wf {s : State} {p} (w : Memory.wf s.mem) : Memory.wf (State.undoKilled s p).mem := by
  unfold State.undoKilled
  exact State.foldr_wf (fun _ _ h => State.undoAtomic_wf h) w _

theorem State.redoKilled_wf {s : State} {p} (w : Memory.wf s.mem) : Memory.wf (State.redoKilled s p).mem := by
  unfold State.redoKilled
  refine State.foldl_wf (fun s1 a1 h1 => ?_) w
  refine State.foldl_wf (fun s2 a2 h2 => ?_) h1
  split
  · exact State.write_wf h2
  · exact h2

theorem Frame.takeConfirmed_wf {f : Frame} (w : Memory.wf f.s.mem) : Memory.wf (Frame.takeConfirmed f).mem := by
  unfold Frame.takeConfirmed
  split
  · exact takeWords_wf w
  · exact Frame.put_wf w

theorem Frame.confirm_wf {f : Frame} {p} (w : Memory.wf f.s.mem) : Memory.wf (Frame.confirm f p).mem := by
  unfold Frame.confirm
  refine Frame.takeConfirmed_wf ?_
  dsimp only
  refine State.undoKilled_wf ?_
  split
  · dsimp only
    split
    · exact w
    · exact State.progress_wf w
  · split
    · exact w
    · exact State.progress_wf w

theorem State.rearm_wf {s : State} {ctx x} (w : Memory.wf s.mem) : Memory.wf (State.rearm s ctx x).mem := by
  unfold State.rearm
  dsimp only
  exact State.setCounter_wf w

theorem Frame.restore_wf {f : Frame} {p} (w : Memory.wf f.s.mem) : Memory.wf (Frame.restore f p).s.mem := by
  unfold Frame.restore
  exact State.foldl_wf (fun _ _ h12 => State.rearm_wf h12) (State.redoKilled_wf w)

theorem Frame.mispredicted_wf {f : Frame} {p v} (w : Memory.wf f.s.mem) : Memory.wf (Frame.mispredicted f p v).mem := by
  unfold Frame.mispredicted
  dsimp only
  split
  · exact Frame.put_wf (Frame.restore_wf w)
  · exact Frame.put_wf (Frame.restore_wf w)

theorem Frame.atCbr_wf {f : Frame} {p} (w : Memory.wf f.s.mem) : Memory.wf (Frame.atCbr f p).s.mem := by
  unfold Frame.atCbr
  exact Frame.restore_wf w

theorem Frame.agreementTrap_wf {f : Frame} {p status} (w : Memory.wf f.s.mem) : Memory.wf (Frame.agreementTrap f p status).mem := by
  unfold Frame.agreementTrap
  exact takeTrap_wf (Frame.atCbr_wf w)

theorem execAnswerArrive_wf {sid slot v st} {s : State} (w : Memory.wf s.mem) : Leaves (execAnswerArrive sid slot v st s) := by
  unfold execAnswerArrive
  split
  · exact State.event_wf w
  · dsimp only
    split
    · exact State.event_wf w
    · rename_i f e
      have hf := State.progress_wf (tid := f.t.task) (State.frameOf_wf (s := { s with answers := s.answers.erase (sid, slot, v, st.status) }) w _ e)
      split
      · exact State.event_wf w
      · split
        · exact State.event_wf (Frame.put_wf hf)
        · split
          · exact State.event_wf (Frame.put_wf hf)
          · split
            · exact State.event_wf (Frame.agreementTrap_wf hf)
            · split
              · exact State.event_wf (Frame.confirm_wf hf)
              · exact State.event_wf (Frame.mispredicted_wf hf)

theorem Frame.drainOne_wf {f : Frame} {x} (w : Memory.wf f.s.mem) : Memory.wf (Frame.drainOne f x).s.mem := by
  unfold Frame.drainOne
  refine Frame.foldl_wf (fun s1 a1 h1 => ?_) w
  split
  · exact h1
  · exact Frame.writeNow_wf h1

theorem execHeldStoreDrain_wf {sid} {s : State} (w : Memory.wf s.mem) : Leaves (execHeldStoreDrain sid s) := by
  unfold execHeldStoreDrain
  split
  · exact State.event_wf w
  · rename_i e1
    have h1 := State.frameOf_wf w _ e1
    dsimp only
    split
    · exact State.event_wf w
    · split
      · exact .next (Frame.takeConfirmed_wf (Frame.drainOne_wf (Frame.foldl_wf (fun _ _ h9 => Frame.own_wf h9) h1)))
      · exact .next (Frame.put_wf (Frame.foldl_wf (fun _ _ h10 => Frame.want_wf h10) h1))

end Sys2Proof.Machine
end

section
/-! SUPPORT. Memory stays canonical: the queue table, completion records, halting, and the packets' own checks. -/

namespace Sys2Proof.Machine

theorem State.setQueue_wf {s : State} {x} (w : Memory.wf s.mem) : Memory.wf (State.setQueue s x).mem := by
  unfold State.setQueue
  exact w

theorem State.due_wf {s : State} {q r} (w : Memory.wf s.mem) : Memory.wf (State.due s q r).mem := by
  unfold State.due
  exact w

theorem State.putRecord_wf {s : State} {q r} (w : Memory.wf s.mem) : Memory.wf (State.putRecord s q r).mem := by
  unfold State.putRecord
  dsimp only
  split
  · exact State.setQueue_wf w
  · split
    · exact State.setQueue_wf (State.inform_wf w)
    · rename_i e1
      have h1 := Keeps.of_ok (State.writeVirt_wf w) e1
      split
      · exact State.msix_wf (State.setQueue_wf h1)
      · exact State.setQueue_wf h1

theorem State.unstart_wf {s : State} {q idx} (w : Memory.wf s.mem) : Memory.wf (State.unstart s q idx).mem := by
  unfold State.unstart
  exact State.setQueue_wf w

theorem State.haltQueue_wf {s : State} {q} (w : Memory.wf s.mem) : Memory.wf (State.haltQueue s q).mem := by
  unfold State.haltQueue
  exact State.foldl_wf (fun _ _ h12 => State.due_wf (State.unstart_wf h12)) (State.setQueue_wf w)

theorem State.settleRecord_wf {s : State} {q status r} (w : Memory.wf s.mem) : Memory.wf (State.settleRecord s q status r).mem := by
  unfold State.settleRecord
  dsimp only
  split
  · exact State.haltQueue_wf (State.due_wf w)
  · exact State.due_wf w

theorem State.completePacket_wf {s : State} {q idx status task detail tiles} (w : Memory.wf s.mem) : Memory.wf (State.completePacket s q idx
    status task detail tiles).mem := by
  unfold State.completePacket
  split
  · exact w
  · dsimp only
    split
    · exact State.settleRecord_wf (State.unstart_wf w)
    · exact State.due_wf (State.unstart_wf w)

theorem State.writeDue_wf {s : State} {d} (w : Memory.wf s.mem) : Memory.wf (State.writeDue s d).mem := by
  unfold State.writeDue
  split
  · exact State.setQueue_wf w
  · dsimp only
    split
    · exact State.haltQueue_wf (State.putRecord_wf w)
    · exact State.putRecord_wf w

theorem State.writeDues_wf {s : State} (w : Memory.wf s.mem) : Memory.wf (State.writeDues s).mem := by
  unfold State.writeDues
  refine State.foldl_wf (fun s1 a1 h1 => ?_) w
  split
  · exact State.writeDue_wf h1
  · exact h1

theorem State.coreHasRead_wf {s : State} {va n} (w : Memory.wf s.mem) : Memory.wf (State.coreHasRead s va n).mem := by
  unfold State.coreHasRead
  split
  · exact w
  · exact State.noteReads_wf w

theorem State.coreFault_wf {s : State} {acc va n q} (w : Memory.wf s.mem) : Memory.wf (State.coreFault s acc va n q).mem := by
  unfold State.coreFault
  split
  · exact State.inform_wf w
  · exact w

theorem State.coreWrite_wf {s : State} {va bs} (w : Memory.wf s.mem) : Keeps (fun _ => True) (fun r => Memory.wf r.mem) (State.coreWrite s va bs)
    := by
  unfold State.coreWrite
  split
  · exact .error trivial
  · exact .ok (State.noteWrites_wf (State.writePieces_wf w))

theorem State.coreRelease_wf {s : State} {scope} (w : Memory.wf s.mem) : Memory.wf (State.coreRelease s scope).mem := by
  unfold State.coreRelease
  split
  · exact State.releaseDie_wf w
  · exact w

theorem State.signal_wf {s : State} {add va v} (w : Memory.wf s.mem) : Keeps (fun _ => True) (fun r => Memory.wf r.mem) (State.signal s add va v)
    := by
  unfold State.signal
  dsimp only
  split
  · exact Keeps.bind .any fun _ h12 => State.coreWrite_wf (State.coreHasRead_wf w)
  · exact Keeps.bind (P := fun _ => True) .any fun _ h12 => State.coreWrite_wf w

theorem State.putHeld_wf {s : State} {q} (w : Memory.wf s.mem) : Memory.wf (State.putHeld s q).mem := by
  unfold State.putHeld
  exact State.foldl_wf (fun _ _ h12 => State.putRecord_wf h12) (State.setQueue_wf w)

theorem State.resumeQueue_wf {s : State} {q} (w : Memory.wf s.mem) : Memory.wf (State.resumeQueue s q).mem := by
  unfold State.resumeQueue
  exact State.putHeld_wf (State.setQueue_wf w)

theorem State.writeQueueHead_wf {s : State} {q v} (w : Memory.wf s.mem) : Memory.wf (State.writeQueueHead s q v).mem := by
  unfold State.writeQueueHead
  dsimp only
  split
  · split
    · exact w
    · split
      · exact State.putHeld_wf (State.setQueue_wf w)
      · exact State.setQueue_wf w
  · split
    · split
      · exact w
      · exact State.setQueue_wf w
    · split
      · exact w
      · split
        · exact State.haltQueue_wf (State.setQueue_wf w)
        · split
          · exact State.resumeQueue_wf (State.setQueue_wf w)
          · exact State.setQueue_wf w

theorem State.writeQueueWord_wf {s : State} {q w v} (m : Memory.wf s.mem) : Memory.wf (State.writeQueueWord s q w v).mem := by
  unfold State.writeQueueWord
  dsimp only
  split
  · exact State.writeQueueHead_wf m
  · split
    · exact m
    · exact State.setQueue_wf m
  · split
    · exact m
    · exact State.setQueue_wf m
  · split
    · exact State.setQueue_wf m
    · exact m
  · exact m

theorem execQueueRegister_wf {q w v} {s : State} (m : Memory.wf s.mem) : Leaves (execQueueRegister q w v s) := by
  unfold execQueueRegister
  refine State.event_wf ?_
  split
  · exact State.writeQueueWord_wf m
  · exact m

theorem execQueueUnregister_wf {q v} {s : State} (w : Memory.wf s.mem) : Leaves (execQueueUnregister q v s) := by
  unfold execQueueUnregister
  refine State.event_wf ?_
  split
  · exact State.writeQueueWord_wf w
  · exact w

theorem execQueueHalt_wf {q v} {s : State} (w : Memory.wf s.mem) : Leaves (execQueueHalt q v s) := by
  unfold execQueueHalt
  refine State.event_wf ?_
  split
  · exact State.writeQueueWord_wf w
  · exact w

theorem execQueueResume_wf {q v} {s : State} (w : Memory.wf s.mem) : Leaves (execQueueResume q v s) := by
  unfold execQueueResume
  refine State.event_wf ?_
  split
  · exact State.writeQueueWord_wf w
  · exact w

theorem execRdidxWrite_wf {q v} {s : State} (w : Memory.wf s.mem) : Leaves (execRdidxWrite q v s) := by
  unfold execRdidxWrite
  refine State.event_wf ?_
  split
  · exact State.writeQueueWord_wf w
  · exact w

theorem State.writeDoorbell_wf {s : State} {q credit v} (w : Memory.wf s.mem) : Memory.wf (State.writeDoorbell s q credit v).mem := by
  unfold State.writeDoorbell
  dsimp only
  split
  · exact State.setQueue_wf w
  · exact w

theorem execNotifyWrite_wf {q v} {s : State} (w : Memory.wf s.mem) : Leaves (execNotifyWrite q v s) := by
  unfold execNotifyWrite
  exact State.event_wf (State.writeDoorbell_wf w)

theorem execCrdidxWrite_wf {q v} {s : State} (w : Memory.wf s.mem) : Leaves (execCrdidxWrite q v s) := by
  unfold execCrdidxWrite
  exact State.event_wf (State.writeDoorbell_wf w)

end Sys2Proof.Machine
end

section
/-! SUPPORT. Memory stays canonical: how tasks are handed to the distributor, and the graph sequencer: descriptors, replays, steps and nodes. -/

namespace Sys2Proof.Machine

theorem State.newTask_wf {s : State} {q src at_ cmpl arg s9 s10 lctx prio acq rel pers wdti} (m : Memory.wf s.mem) : Memory.wf (State.newTask s q
    src at_ cmpl arg s9 s10 lctx prio acq rel pers wdti).1.mem := by
  unfold State.newTask
  exact m

theorem State.packetTask_wf {s : State} {q src w arg cmpl} (m : Memory.wf s.mem) : Memory.wf (State.packetTask s q src w arg cmpl).mem := by
  unfold State.packetTask
  exact State.newTask_wf m

theorem State.graphHasRead_wf {s : State} {va l} (w : Memory.wf s.mem) : Memory.wf (State.graphHasRead s va l).mem := by
  unfold State.graphHasRead
  dsimp only
  split
  · exact State.coreHasRead_wf w
  · exact State.coreHasRead_wf (State.coreHasRead_wf w)

theorem State.setGraph_wf {s : State} {g x} (w : Memory.wf s.mem) : Memory.wf (State.setGraph s g x).mem := by
  unfold State.setGraph
  exact w

theorem State.endReplayPacket_wf {s : State} {q idx own status step tiles} (w : Memory.wf s.mem) : Memory.wf (State.endReplayPacket s q idx own
    status step tiles).mem := by
  unfold State.endReplayPacket
  split
  · exact State.completePacket_wf w
  · split
    · exact w
    · exact State.settleRecord_wf w

theorem State.startGraph_wf {s : State} {q idx own w} (m : Memory.wf s.mem) : Memory.wf (State.startGraph s q idx own w).mem := by
  unfold State.startGraph
  dsimp only
  split
  · split
    · exact State.endReplayPacket_wf m
    · split
      · refine State.endReplayPacket_wf ?_
        split
        · exact State.coreFault_wf m
        · exact m
      · exact State.setGraph_wf (State.graphHasRead_wf m)
  · split
    · exact State.endReplayPacket_wf m
    · split
      · exact State.setGraph_wf m
      · exact State.setGraph_wf m

theorem State.endSync_wf {s : State} {x r} (w : Memory.wf s.mem) : Memory.wf (State.endSync s x r).mem := by
  unfold State.endSync
  refine State.foldl_wf (fun s1 a1 h1 => ?_) w
  split
  · rename_i e2
    have h2 := Keeps.of_ok (State.coreWrite_wf h1) e2
    exact h2
  · exact h1

theorem State.failNode_wf {s : State} {g status} (w : Memory.wf s.mem) : Memory.wf (State.failNode s g status).mem := by
  unfold State.failNode
  dsimp only
  split
  · exact w
  · split
    · exact w
    · exact State.endSync_wf (State.setGraph_wf w)

theorem State.updateReplay_wf {s : State} {g h} (w : Memory.wf s.mem) : Memory.wf (State.updateReplay s g h).mem := by
  unfold State.updateReplay
  exact State.setGraph_wf w

theorem State.nodeWorked_wf {s : State} {g n} (w : Memory.wf s.mem) : Memory.wf (State.nodeWorked s g n).mem := by
  unfold State.nodeWorked
  exact State.updateReplay_wf w

theorem State.nodeStopped_wf {s : State} {g n} (w : Memory.wf s.mem) : Memory.wf (State.nodeStopped s g n).mem := by
  unfold State.nodeStopped
  exact State.updateReplay_wf w

theorem State.launchNode_wf {s : State} {g n x r} (w : Memory.wf s.mem) : Memory.wf (State.launchNode s g n x r).1.mem := by
  unfold State.launchNode
  exact State.newTask_wf w

theorem State.fireNode_wf {s : State} {g n} (w : Memory.wf s.mem) : Memory.wf (State.fireNode s g n).mem := by
  unfold State.fireNode
  dsimp only
  split
  · exact w
  · rename_i r0 _
    split
    · exact w
    · have hfired := State.updateReplay_wf (g := g) (h := fun r => { r with fired := r.fired ++ [n] }) w
      generalize State.updateReplay s g _ = t at hfired ⊢
      split
      · exact State.launchNode_wf hfired
      · exact hfired
      · exact hfired
      · have hlaunched (r : Replay) (x : Graph) : Memory.wf (if r.launched.contains n then t else ((t.launchNode g n x r).1.updateReplay g fun q =>
            { q with pers := q.pers ++ [(n, (t.launchNode g n x r).2)], launched := q.launched ++ [n] })).mem := by
          split
          · exact hfired
          · exact State.updateReplay_wf (State.launchNode_wf hfired)
        split
        · rename_i e
          have hwrite := Keeps.of_ok (State.coreWrite_wf (hlaunched _ _)) e
          exact hwrite
        · exact State.failNode_wf (State.nodeStopped_wf (State.coreFault_wf (hlaunched _ _)))

theorem State.fireNodes_wf {s : State} {g l} (w : Memory.wf s.mem) : Memory.wf (State.fireNodes s g l).mem := by
  unfold State.fireNodes
  exact State.foldl_wf (fun _ _ h12 => State.fireNode_wf h12) w

theorem State.endReplay_wf {s : State} {g r} (w : Memory.wf s.mem) : Memory.wf (State.endReplay s g r).mem := by
  unfold State.endReplay
  dsimp only
  split
  · exact State.setGraph_wf (State.endReplayPacket_wf (State.coreRelease_wf w))
  · exact State.setGraph_wf (State.endReplayPacket_wf (State.coreRelease_wf w))

theorem State.settleReplay_wf {s : State} {g} (w : Memory.wf s.mem) : Memory.wf (State.settleReplay s g).mem := by
  unfold State.settleReplay
  split
  · exact w
  · split
    · exact State.endReplay_wf w
    · exact w

theorem execGraphStepBegin_wf {g} {s : State} (w : Memory.wf s.mem) : Leaves (execGraphStepBegin g s) := by
  unfold execGraphStepBegin
  dsimp only
  split
  · exact State.event_wf w
  · split
    · exact State.event_wf w
    · exact State.event_wf (State.settleReplay_wf (State.fireNodes_wf (State.setGraph_wf w)))

theorem State.releaseAll_wf {s : State} (w : Memory.wf s.mem) : Memory.wf (State.releaseAll s).mem := by
  unfold State.releaseAll
  exact State.foldl_wf (fun _ _ h12 => State.releaseDie_wf h12) w

theorem State.stepEnd_wf {s : State} {g x r} (w : Memory.wf s.mem) : Memory.wf (State.stepEnd s g x r).mem := by
  unfold State.stepEnd
  split
  · exact State.settleReplay_wf (State.endSync_wf (State.updateReplay_wf w))
  · exact State.updateReplay_wf (State.releaseAll_wf w)

theorem State.nodeActs_wf {s : State} {nd} (w : Memory.wf s.mem) : Keeps (fun _ => True) (fun r => Memory.wf r.mem) (State.nodeActs s nd) := by
  unfold State.nodeActs
  split
  · exact State.coreWrite_wf (State.coreRelease_wf w)
  · exact .ok (State.coreRelease_wf (State.coreHasRead_wf w))
  · exact .ok w

theorem execGraphNodeComplete_wf {g node} {s : State} (w : Memory.wf s.mem) : Leaves (execGraphNodeComplete g node s) := by
  unfold execGraphNodeComplete
  dsimp only
  split
  · exact State.event_wf w
  · split
    · exact State.event_wf w
    · split
      · exact State.event_wf (State.settleReplay_wf (State.failNode_wf (State.nodeStopped_wf (State.coreFault_wf w))))
      · rename_i e1
        have h1 := Keeps.of_ok (State.nodeActs_wf w) e1
        split
        · exact State.event_wf (State.stepEnd_wf (State.fireNodes_wf (State.setGraph_wf h1)))
        · exact State.event_wf (State.settleReplay_wf (State.fireNodes_wf (State.setGraph_wf h1)))

theorem execCondNodeRead_wf {g node} {s : State} (w : Memory.wf s.mem) : Leaves (execCondNodeRead g node s) := by
  unfold execCondNodeRead
  dsimp only
  split
  · exact State.event_wf w
  · split
    · exact State.event_wf w
    · split
      · exact State.event_wf (State.settleReplay_wf (State.failNode_wf (State.nodeStopped_wf (State.coreFault_wf w))))
      · exact State.event_wf (State.nodeWorked_wf (State.updateReplay_wf (State.coreRelease_wf (State.coreHasRead_wf w))))

theorem State.nodeTaskEnded_wf {s : State} {g n tid status tiles} (w : Memory.wf s.mem) : Memory.wf (State.nodeTaskEnded s g n tid status
    tiles).mem := by
  unfold State.nodeTaskEnded
  refine State.settleReplay_wf ?_
  split
  · exact State.failNode_wf (State.nodeStopped_wf (State.updateReplay_wf w))
  · split
    · exact State.updateReplay_wf w
    · exact State.nodeWorked_wf (State.updateReplay_wf w)

theorem State.taskReport_wf {s : State} {k status detail tiles} (w : Memory.wf s.mem) : Memory.wf (State.taskReport s k status detail tiles).mem := by
  unfold State.taskReport
  dsimp only
  split
  · exact State.completePacket_wf w
  · exact State.nodeTaskEnded_wf w
  · split
    · exact State.settleRecord_wf w
    · exact w

end Sys2Proof.Machine
end

section
/-! SUPPORT. Memory stays canonical: the fabric sequencer. -/

namespace Sys2Proof.Machine

theorem State.setPost_wf {s : State} {p} (w : Memory.wf s.mem) : Memory.wf (State.setPost s p).mem := by
  unfold State.setPost
  exact w

theorem State.takeServed_wf {s : State} {r} (w : Memory.wf s.mem) : Memory.wf (State.takeServed s r).mem := by
  unfold State.takeServed
  split
  · exact w
  · exact State.setPost_wf w

theorem State.report_wf {s : State} {r} (w : Memory.wf s.mem) : Memory.wf (State.report_ s r).mem := by
  unfold State.report_
  split
  · exact State.takeServed_wf w
  · exact State.send_wf w

theorem State.sendNotice_wf {s : State} {n} (w : Memory.wf s.mem) : Memory.wf (State.sendNotice s n).mem := by
  unfold State.sendNotice
  split
  · exact w
  · split
    · exact State.takeServed_wf w
    · exact State.send_wf w

theorem State.arriveAt_wf {s : State} {ptn ctx bca n} (w : Memory.wf s.mem) : Memory.wf (State.arriveAt s ptn ctx bca n).mem := by
  unfold State.arriveAt
  split
  · exact State.arrive_wf w
  · dsimp only
    split
    · exact w
    · exact State.arrive_wf w

theorem State.setXfer_wf {s : State} {x} (w : Memory.wf s.mem) : Memory.wf (State.setXfer s x).mem := by
  unfold State.setXfer
  exact w

theorem State.fabricCheck_wf {s : State} {ptn post addr} (w : Memory.wf s.mem) : Memory.wf (State.fabricCheck s ptn post addr).mem := by
  unfold State.fabricCheck
  split
  · exact w
  · exact State.machineCheckOf_wf w

theorem State.countFold_wf {s : State} {ptn index daddr sender} (w : Memory.wf s.mem) : Memory.wf (State.countFold s ptn index daddr sender).mem := by
  unfold State.countFold
  exact w

theorem State.spendEntry_wf {s : State} {e} (w : Memory.wf s.mem) : Memory.wf (State.spendEntry s e).mem := by
  unfold State.spendEntry
  split
  · exact w
  · split
    · exact w
    · exact w

theorem State.catRecord_wf {s : State} {e status w} (m : Memory.wf s.mem) : Memory.wf (State.catRecord s e status w).mem := by
  unfold State.catRecord
  exact State.settleRecord_wf m

theorem State.catPerform_wf {s : State} {e va w} (m : Memory.wf s.mem) : Memory.wf (State.catPerform s e va w).mem := by
  unfold State.catPerform
  split
  · exact State.catRecord_wf m
  · split
    · exact State.packetTask_wf m
    · exact State.startGraph_wf m
    · split
      · exact State.catRecord_wf (State.coreFault_wf m)
      · rename_i e1
        have h1 := Keeps.of_ok (State.signal_wf (State.coreRelease_wf m)) e1
        split
        · exact State.catRecord_wf h1
        · exact h1

theorem State.catLaunch_wf {s : State} {index va} (w : Memory.wf s.mem) : Memory.wf (State.catLaunch s index va).1.mem := by
  unfold State.catLaunch
  split
  · split
    · exact w
    · split
      · exact State.catRecord_wf (State.coreFault_wf w)
      · dsimp only
        split
        · exact State.coreHasRead_wf w
        · exact State.catPerform_wf (State.spendEntry_wf (State.coreHasRead_wf w))
  · exact w

theorem State.finishXfer_wf {s : State} {x} (w : Memory.wf s.mem) : Memory.wf (State.finishXfer s x).mem := by
  unfold State.finishXfer
  refine State.report_wf ?_
  split
  · refine State.catLaunch_wf ?_
    split
    · split
      · exact State.countFold_wf w
      · exact w
    · exact w
  · dsimp only
    split
    · split
      · exact State.countFold_wf w
      · exact w
    · exact w

theorem State.settleXfer_wf {s : State} {x} (w : Memory.wf s.mem) : Memory.wf (State.settleXfer s x).mem := by
  unfold State.settleXfer
  split
  · exact State.finishXfer_wf w
  · exact State.setXfer_wf w

theorem State.failPost_wf {s : State} {key code} (w : Memory.wf s.mem) : Memory.wf (State.failPost s key code).mem := by
  unfold State.failPost
  split
  · exact w
  · exact State.setPost_wf w

theorem State.flagPost_wf {s : State} {key fl} (w : Memory.wf s.mem) : Memory.wf (State.flagPost s key fl).mem := by
  unfold State.flagPost
  split
  · exact w
  · exact State.setPost_wf w

theorem State.undefineGlobal_wf {s : State} {l} (w : Memory.wf s.mem) : Memory.wf (State.undefineGlobal s l).mem := by
  unfold State.undefineGlobal
  refine State.foldl_wf (fun s1 a1 h1 => ?_) w
  split
  · exact State.foldl_wf (fun _ _ h12 => State.undefine_wf h12) h1
  · exact h1

theorem State.undefinePlaces_wf {s : State} {x pos n} (w : Memory.wf s.mem) : Memory.wf (State.undefinePlaces s x pos n).mem := by
  unfold State.undefinePlaces
  exact State.undefineGlobal_wf w

theorem State.failChunk_wf {s : State} {x pos n code} (w : Memory.wf s.mem) : Memory.wf (State.failChunk s x pos n code).mem := by
  unfold State.failChunk
  exact State.settleXfer_wf (State.failPost_wf (State.undefinePlaces_wf w))

theorem State.landChunk_wf {s : State} {x pos n port bs keys} (w : Memory.wf s.mem) : Memory.wf (State.landChunk s x pos n port bs keys).mem := by
  unfold State.landChunk
  refine State.settleXfer_wf ?_
  refine State.flagPost_wf ?_
  split
  · refine State.arriveAt_wf ?_
    refine State.noteWrites_wf ?_
    refine State.writePieces_wf ?_
    split
    · exact State.noteReads_wf w
    · exact w
  · refine State.noteWrites_wf ?_
    refine State.writePieces_wf ?_
    split
    · exact State.noteReads_wf w
    · exact w

theorem State.sendPull_wf {s : State} {x c} (w : Memory.wf s.mem) : Memory.wf (State.sendPull s x c).mem := by
  unfold State.sendPull
  dsimp only
  split
  · dsimp only
    exact State.setXfer_wf w
  · split
    · exact State.failChunk_wf w
    · exact State.send_wf (State.setXfer_wf w)

theorem State.ask_wf {s : State} {x y c} (w : Memory.wf s.mem) : Memory.wf (State.ask s x y c).mem := by
  unfold State.ask
  split
  · exact State.sendPull_wf w
  · split
    · exact State.sendPull_wf w
    · exact State.setXfer_wf w
    · exact State.failChunk_wf w

theorem State.pump_wf {n} {s : State} (w : Memory.wf s.mem) : Memory.wf (State.pump n s).mem := by
  induction n generalizing s with
  | zero => exact w
  | succ n ih =>
    unfold State.pump
    split
    · exact w
    · split
      · exact w
      · exact ih (State.ask_wf w)

theorem State.pumped_wf {s : State} (w : Memory.wf s.mem) : Memory.wf (State.pumped s).mem := by
  unfold State.pumped
  exact State.pump_wf w

theorem State.addXfer_wf {s : State} {mk} (w : Memory.wf s.mem) : Memory.wf (State.addXfer s mk).mem := by
  unfold State.addXfer
  exact w

theorem State.actOn_wf {s : State} {p n} (w : Memory.wf s.mem) : Memory.wf (State.actOn s p n).mem := by
  unfold State.actOn
  split
  · dsimp only
    split
    · exact State.report_wf (State.setPost_wf w)
    · split
      · refine State.report_wf ?_
        refine State.setPost_wf ?_
        split
        · exact State.undefinePlaces_wf w
        · exact w
      · exact State.addXfer_wf (State.setPost_wf w)
  · exact w

theorem State.actOnArrived_wf {s : State} {sid chan id} (w : Memory.wf s.mem) : Memory.wf (State.actOnArrived s sid chan id).mem := by
  unfold State.actOnArrived
  refine State.foldl_wf (fun s1 a1 h1 => ?_) w
  split
  · exact h1
  · split
    · exact State.actOn_wf h1
    · exact h1

theorem State.answerEnded_wf {s : State} {n} (w : Memory.wf s.mem) : Memory.wf (State.answerEnded s n).mem := by
  unfold State.answerEnded
  split
  · exact w
  · exact State.report_wf w

theorem State.takeNotice_wf {s : State} {n} (w : Memory.wf s.mem) : Memory.wf (State.takeNotice s n).mem := by
  unfold State.takeNotice
  split
  · exact State.addXfer_wf w
  · dsimp only
    split
    · exact State.answerEnded_wf w
    · split
      · exact w
      · exact State.actOn_wf w

theorem State.failColl_wf {s : State} {p c n rooted code} (w : Memory.wf s.mem) : Memory.wf (State.failColl s p c n rooted code).mem := by
  unfold State.failColl
  exact State.setPost_wf (State.undefineGlobal_wf w)

theorem State.handColl_wf {s : State} {p c} (w : Memory.wf s.mem) : Memory.wf (State.handColl s p c).mem := by
  unfold State.handColl
  dsimp only
  split
  · exact State.failColl_wf w
  · split
    · exact State.failColl_wf w
    · exact State.foldl_wf (fun _ _ h12 => State.sendNotice_wf h12) (State.setPost_wf w)

theorem State.hasReadEntry_wf {s : State} {l e} (w : Memory.wf s.mem) : Memory.wf (State.hasReadEntry s l e).mem := by
  unfold State.hasReadEntry
  dsimp only
  split
  · exact State.noteReads_wf w
  · split
    · exact State.noteReads_wf (State.noteReads_wf w)
    · exact State.noteReads_wf w

theorem State.claimSource_wf {s : State} {p t bs} (w : Memory.wf s.mem) : Memory.wf (State.claimSource s p t bs).mem := by
  unfold State.claimSource
  split
  · exact w
  · dsimp only
    refine State.setCtx_wf ?_
    refine Frame.foldl_wf (fun s1 a1 h1 => ?_) w
    split
    · exact Frame.own_wf h1
    · exact h1

theorem State.handFire_wf {s : State} {p t index} (w : Memory.wf s.mem) : Memory.wf (State.handFire s p t index).mem := by
  unfold State.handFire
  dsimp only
  split
  · exact State.setPost_wf w
  · split
    · exact State.setPost_wf (State.machineCheckOf_wf w)
    · split
      · exact State.setPost_wf (State.noteReads_wf w)
      · split
        · refine State.setPost_wf ?_
          split
          · exact State.machineCheckOf_wf w
          · exact State.hasReadEntry_wf w
        · split
          · exact State.setPost_wf (State.hasReadEntry_wf w)
          · refine State.foldl_wf (fun s1 a1 h1 => ?_) ?_
            · exact State.sendNotice_wf h1
            · split
              · exact State.claimSource_wf (State.setPost_wf (State.hasReadEntry_wf w))
              · exact State.setPost_wf (State.hasReadEntry_wf w)

theorem State.handPost_wf {s : State} {sid chan id} (w : Memory.wf s.mem) : Memory.wf (State.handPost s sid chan id).mem := by
  unfold State.handPost
  split
  · refine State.pumped_wf ?_
    refine State.actOnArrived_wf ?_
    split
    · exact State.handColl_wf w
    · split
      · exact w
      · exact State.handFire_wf w
  · exact w

theorem State.postK2_wf {s : State} {t w} (m : Memory.wf s.mem) : Memory.wf (State.postK2 s t w).mem := by
  unfold State.postK2
  split
  · exact State.progress_wf (State.setStrand_wf m)
  · split
    · exact m
    · exact State.setStrand_wf m

theorem State.completeId_wf {s : State} {p t} (w : Memory.wf s.mem) : Memory.wf (State.completeId s p t).mem := by
  unfold State.completeId
  dsimp only
  split
  · split
    · refine State.postK2_wf ?_
      refine State.setStrand_wf ?_
      dsimp only
      exact State.release_wf w
    · refine State.setStrand_wf ?_
      dsimp only
      exact State.release_wf w
  · refine State.handPost_wf ?_
    split
    · refine State.postK2_wf ?_
      refine State.setStrand_wf ?_
      dsimp only
      exact State.release_wf w
    · refine State.setStrand_wf ?_
      dsimp only
      exact State.release_wf w

theorem State.handWaiting_wf {s : State} (w : Memory.wf s.mem) : Memory.wf (State.handWaiting s).mem := by
  unfold State.handWaiting
  refine State.foldl_wf (fun s1 a1 h1 => ?_) w
  split
  · exact State.handPost_wf h1
  · exact h1

end Sys2Proof.Machine
end

section
/-! SUPPORT. Memory stays canonical: xCOLL, TTREADY and WAITID, and the fabric's events. -/

namespace Sys2Proof.Machine

theorem postOp_wf {b h a} {act : Frame → Word → Word → Except Stop (Frame × Effect)} {s : State} (w : ∀ a0 a1 a2, Memory.wf a0.s.mem → Keeps
    Stop.Wf (fun r => Memory.wf r.1.s.mem) (act a0 a1 a2)) (w2 : Memory.wf s.mem) : Leaves (postOp b h a act s) := by
  unfold postOp
  exact copyOp_wf (fun _ _ _ _ _ h11 => Keeps.bind (Frame.settled_wf h11) fun _ h10 => w _ _ _ h11) w2

theorem Frame.postPlace_wf {f : Frame} {chan} (w : Memory.wf f.s.mem) : Keeps Stop.Wf (fun _ => True) (Frame.postPlace f chan) := by
  unfold Frame.postPlace
  split
  · exact .ok trivial
  · split
    · exact .ok trivial
    · exact .error w

theorem Frame.at_wf {f : Frame} {s : State} (w : Memory.wf s.mem) : Memory.wf (Frame.at_ f s).s.mem := by
  unfold Frame.at_
  exact w

theorem Frame.post_wf {f : Frame} {chan inst work tok utag mark} (hw : Memory.wf f.s.mem) : Keeps Stop.Wf (fun r => Memory.wf r.1.s.mem)
    (Frame.post f chan inst work tok utag mark) := by
  unfold Frame.post
  refine Keeps.bind (Frame.postPlace_wf hw) fun r1 h1 => ?_
  refine .pure ?_
  dsimp only
  split
  · exact Frame.at_wf (State.handPost_wf (Frame.put_wf hw))
  · exact hw

theorem execXcoll_wf {h a} {s : State} (w : Memory.wf s.mem) : Leaves (execXcoll h a s) := by
  unfold execXcoll
  refine postOp_wf (fun x9 x10 x11 h12 => ?_) w
  refine Keeps.bind (need_wf trivial) fun r1 h1 => ?_
  refine Keeps.bind (need_wf trivial) fun r2 h2 => ?_
  refine Keeps.bind Frame.needUnowned_wf fun r3 h3 => ?_
  refine Keeps.bind (Frame.padWords_wf h12) fun ⟨r4a, r4b⟩ h4 => ?_
  refine Keeps.bind (need_wf trivial) fun r5 h5 => ?_
  refine Keeps.bind (need_wf trivial) fun r6 h6 => ?_
  refine Keeps.bind (need_wf trivial) fun r7 h7 => ?_
  refine Keeps.bind (need_wf trivial) fun r8 h8 => ?_
  refine Keeps.bind (need_wf trivial) fun r9 h9 => ?_
  refine Keeps.bind (need_wf trivial) fun r10 h10 => ?_
  dsimp only
  split
  · exact Frame.post_wf h4
  · exact Frame.post_wf h4

theorem execTtready_wf {h a} {s : State} (w : Memory.wf s.mem) : Leaves (execTtready h a s) := by
  unfold execTtready
  exact postOp_wf (fun _ _ _ h11 => Keeps.bind (need_wf trivial) fun _ h10 => Keeps.bind (Frame.reachAll_wf h11) fun _ h9 => Frame.post_wf h9) w

theorem execWaitid_wf {h a} {s : State} (w : Memory.wf s.mem) : Leaves (execWaitid h a s) := by
  unfold execWaitid
  exact copyOp_wf (fun _ _ _ _ _ h11 => Keeps.bind (need_wf trivial) fun _ h10 => Keeps.bind (need_wf h11) fun _ h9 => .pure h11) w

theorem execReadinessNotice_wf {n} {s : State} (w : Memory.wf s.mem) : Leaves (execReadinessNotice n s) := by
  unfold execReadinessNotice
  dsimp only
  split
  · exact State.event_wf w
  · exact State.event_wf (State.pumped_wf (State.takeNotice_wf w))

theorem execParkedNoticeRelease_wf {sid chan grp} {s : State} (w : Memory.wf s.mem) : Leaves (execParkedNoticeRelease sid chan grp s) := by
  unfold execParkedNoticeRelease
  split
  · exact State.event_wf w
  · exact State.event_wf (State.pumped_wf (State.actOnArrived_wf w))

theorem execNoticeResend_wf {n} {s : State} (w : Memory.wf s.mem) : Leaves (execNoticeResend n s) := by
  unfold execNoticeResend
  dsimp only
  split
  · exact State.event_wf w
  · split
    · exact State.event_wf (State.sendNotice_wf w)
    · exact State.event_wf w

theorem State.pullData_wf {s : State} {p} (w : Memory.wf s.mem) : Memory.wf (State.pullData s p).1.mem := by
  unfold State.pullData
  dsimp only
  split
  · exact w
  · split
    · split
      · exact State.machineCheckOf_wf (State.setPost_wf w)
      · exact w
    · split
      · exact State.setPost_wf (State.inform_wf w)
      · split
        · exact State.machineCheckOf_wf (State.setPost_wf w)
        · exact State.noteReads_wf w

theorem State.lostReceiver_wf {s : State} {p} (w : Memory.wf s.mem) : Memory.wf (State.lostReceiver s p).mem := by
  unfold State.lostReceiver
  split
  · exact w
  · dsimp only
    split
    · exact State.setPost_wf w
    · exact State.takeServed_wf w

theorem execPullRequest_wf {p} {s : State} (w : Memory.wf s.mem) : Leaves (execPullRequest p s) := by
  unfold execPullRequest
  dsimp only
  split
  · exact State.event_wf w
  · split
    · exact State.event_wf (State.lostReceiver_wf w)
    · split
      · exact State.event_wf w
      · split
        · exact State.event_wf (State.pullData_wf w)
        · exact State.event_wf (State.send_wf (State.pullData_wf w))

theorem State.staleChunk_wf {s : State} {x c} (w : Memory.wf s.mem) : Memory.wf (State.staleChunk s x c).mem := by
  unfold State.staleChunk
  split
  · exact State.setXfer_wf w
  · exact State.pumped_wf (State.failChunk_wf w)

theorem State.recordParked_wf {s : State} {k} (w : Memory.wf s.mem) : Memory.wf (State.recordParked s k).mem := by
  unfold State.recordParked
  split
  · exact w
  · split
    · exact w
    · exact State.writeRecord_wf w

theorem State.park_wf {s : State} {f va} (w : Memory.wf s.mem) : Memory.wf (State.park s f va).mem := by
  unfold State.park
  exact State.recordParked_wf w

theorem State.arriveChunk_wf {s : State} {x f bs} (w : Memory.wf s.mem) : Memory.wf (State.arriveChunk s x f bs).mem := by
  unfold State.arriveChunk
  split
  · refine State.pumped_wf ?_
    split
    · split
      · exact State.failChunk_wf (State.fabricCheck_wf w)
      · exact State.landChunk_wf w
    · exact State.landChunk_wf w
  · split
    · exact State.park_wf w
    · exact State.setXfer_wf w
  · exact State.pumped_wf (State.failChunk_wf w)

theorem execChunkLand_wf {f} {s : State} (w : Memory.wf s.mem) : Leaves (execChunkLand f s) := by
  unfold execChunkLand
  dsimp only
  split
  · exact State.event_wf w
  · split
    · exact State.event_wf w
    · split
      · exact State.event_wf w
      · split
        · exact State.event_wf (State.staleChunk_wf w)
        · split
          · refine State.event_wf ?_
            refine State.pumped_wf ?_
            refine State.failChunk_wf ?_
            split
            · exact State.fabricCheck_wf w
            · exact w
          · exact State.event_wf (State.arriveChunk_wf w)

theorem execParkedChunkWrite_wf {num} {s : State} (w : Memory.wf s.mem) : Leaves (execParkedChunkWrite num s) := by
  unfold execParkedChunkWrite
  split
  · exact State.event_wf w
  · dsimp only
    split
    · refine State.event_wf ?_
      split
      · exact w
      · exact State.arriveChunk_wf w
    · exact State.event_wf w

theorem State.recordStuck_wf {s : State} {x} (w : Memory.wf s.mem) : Memory.wf (State.recordStuck s x).mem := by
  unfold State.recordStuck
  split
  · split
    · exact w
    · exact State.setXfer_wf (State.writeRecord_wf w)
  · exact w

theorem State.recordWaiting_wf {s : State} (w : Memory.wf s.mem) : Memory.wf (State.recordWaiting s).mem := by
  unfold State.recordWaiting
  refine State.foldl_wf (fun s1 a1 h1 => ?_) (State.foldl_wf (fun _ _ h12 => State.recordParked_wf h12) w)
  split
  · exact State.recordStuck_wf h1
  · exact h1

theorem execLocalPullFault_wf {xfer} {s : State} (w : Memory.wf s.mem) : Leaves (execLocalPullFault xfer s) := by
  unfold execLocalPullFault
  split
  · exact State.event_wf w
  · exact State.event_wf (State.recordStuck_wf w)

theorem execParkingSpaceFree_wf {y0} {s : State} (w : Memory.wf s.mem) : Leaves (execParkingSpaceFree y0 s) := by
  unfold execParkingSpaceFree
  exact State.event_wf (State.pumped_wf w)

theorem execChunkRedrive_wf {xfer} {s : State} (w : Memory.wf s.mem) : Leaves (execChunkRedrive xfer s) := by
  unfold execChunkRedrive
  split
  · exact State.event_wf w
  · split
    · exact State.event_wf w
    · split
      · exact State.event_wf (State.pumped_wf (State.ask_wf w))
      · exact State.event_wf w

theorem State.refusedChunk_wf {s : State} {dest xfer pos n} (w : Memory.wf s.mem) : Memory.wf (State.refusedChunk s dest xfer pos n).mem := by
  unfold State.refusedChunk
  split
  · exact w
  · exact State.staleChunk_wf w

theorem execStaleRefuse_wf {p} {s : State} (w : Memory.wf s.mem) : Leaves (execStaleRefuse p s) := by
  unfold execStaleRefuse
  split
  · refine State.event_wf ?_
    split
    · exact w
    · exact w
  · exact State.event_wf (State.refusedChunk_wf w)
  · exact State.event_wf (State.refusedChunk_wf w)
  · exact State.event_wf (State.answerReplica_wf w)
  · refine State.event_wf ?_
    split
    · exact State.contribute_wf w
    · exact w
  · split
    · refine State.event_wf ?_
      split
      · exact State.send_wf w
      · exact w
    · exact State.event_wf w
  · split
    · exact State.event_wf w
    · split
      · exact State.event_wf (State.setCmd_wf w)
      · exact State.event_wf w

theorem State.undelivered_wf {s : State} {p} (w : Memory.wf s.mem) : Memory.wf (State.undelivered s p).mem := by
  unfold State.undelivered
  split
  · exact State.takeServed_wf w
  · split
    · exact w
    · exact State.failChunk_wf w
  · exact State.foldl_wf (fun _ _ h12 => State.countAnswer_wf h12) w
  · exact State.sendAnswer_wf w
  · exact w

theorem State.depart_wf {s : State} (w : Memory.wf s.mem) : Memory.wf (State.depart s).mem := by
  unfold State.depart
  refine State.foldl_wf (fun s1 a1 h1 => ?_) w
  split
  · exact State.undelivered_wf h1
  · exact State.send_wf h1

theorem execTransferIdComplete_wf {sid chan id far} {s : State} (w : Memory.wf s.mem) : Leaves (execTransferIdComplete sid chan id far s) := by
  unfold execTransferIdComplete
  dsimp only
  split
  · split
    · exact State.event_wf (State.pumped_wf (State.completeId_wf (State.foldl_wf (fun _ _ h9 => State.takeServed_wf h9) w)))
    · exact State.event_wf (State.foldl_wf (fun _ _ h11 => State.takeServed_wf h11) w)
  · exact State.event_wf (State.foldl_wf (fun _ _ h11 => State.takeServed_wf h11) w)

theorem execK2TokenPost_wf {sid} {s : State} (w : Memory.wf s.mem) : Leaves (execK2TokenPost sid s) := by
  unfold execK2TokenPost
  split
  · exact State.event_wf w
  · split
    · exact State.event_wf w
    · split
      · exact State.event_wf (State.setStrand_wf w)
      · split
        · exact State.event_wf (State.progress_wf (State.setStrand_wf w))
        · exact State.event_wf w

end Sys2Proof.Machine
end

section
/-! SUPPORT. Memory stays canonical: the engine port, and the calls of the MXE from issue to token. -/

namespace Sys2Proof.Machine

theorem execMpset_wf {h n a} {s : State} (w : Memory.wf s.mem) : Leaves (execMpset h n a s) := by
  unfold execMpset
  exact runSlot_wf (fun _ h11 => trigger_wf (fun _ _ h9 => direct_wf (fun _ _ _ _ _ h7 => Keeps.bind (Frame.settled_wf h7) fun _ h6 => .pure h7)
    h9) h11) w

theorem execMpget_wf {h n} {s : State} (w : Memory.wf s.mem) : Leaves (execMpget h n s) := by
  unfold execMpget
  exact runSlot_wf (fun _ h11 => trigger_wf (fun _ _ h9 => direct_wf (fun _ _ _ _ _ h7 => .ok h7) h9) h11) w

theorem execMxq_wf {h} {s : State} (w : Memory.wf s.mem) : Leaves (execMxq h s) := by
  unfold execMxq
  exact runSlot_wf (fun _ h11 => trigger_wf (fun _ _ h9 => direct_wf (fun _ _ _ _ _ h7 => .ok h7) h9) h11) w

theorem Frame.callPlace_wf {f : Frame} {room} (w : Memory.wf f.s.mem) : Keeps Stop.Wf (fun _ => True) (Frame.callPlace f room) := by
  unfold Frame.callPlace
  split
  · exact .ok trivial
  · split
    · exact .ok trivial
    · exact .error w

theorem Frame.claimCall_wf {f : Frame} {serial blocks} (w : Memory.wf f.s.mem) : Keeps Stop.Wf (fun r => Memory.wf r.s.mem) (Frame.claimCall f
    serial blocks) := by
  unfold Frame.claimCall
  refine Keeps.bind (Frame.reachAll_wf w) fun r1 h1 => ?_
  refine .pure ?_
  dsimp only
  exact State.claim_wf h1

theorem Frame.acceptMxe_wf {f : Frame} {call blocks} (w : Memory.wf f.s.mem) : Keeps Stop.Wf (fun r => Memory.wf r.s.mem) (Frame.acceptMxe f call
    blocks) := by
  unfold Frame.acceptMxe
  exact Keeps.bind (Frame.callPlace_wf w) fun _ h12 => Keeps.bind (Frame.claimCall_wf w) fun _ h11 => .pure h11

theorem execMxcall_wf {h n a} {s : State} (w : Memory.wf s.mem) : Leaves (execMxcall h n a s) := by
  unfold execMxcall
  refine runSlot_wf (fun _ h1 => trigger_wf (fun _ _ h2 => direct_wf (fun f _ _ _ _ h3 => ?_) h2) h1) w
  refine Keeps.bind (Frame.settled_wf h3) fun _ _ => Keeps.bind (need_wf trivial) fun _ _ => Keeps.bind (need_wf trivial) fun _ _ => ?_
  exact Keeps.bind (need_wf trivial) fun _ _ => Keeps.bind (Frame.acceptMxe_wf h3) fun _ h4 => .pure h4

theorem Frame.setIssue_wf {f : Frame} {i e} (w : Memory.wf f.s.mem) : Memory.wf (Frame.setIssue f i e).s.mem := by
  unfold Frame.setIssue
  split
  · exact State.setTile_wf w
  · exact w

theorem execMxload_wf {h a} {s : State} (w : Memory.wf s.mem) : Leaves (execMxload h a s) := by
  unfold execMxload
  refine runSlot_wf (fun x7 h8 => ?_) w
  exact trigger_wf (fun _ _ h11 => direct_wf (fun _ _ _ _ _ h9 => Keeps.bind (Frame.settled_wf h9) fun _ h8 => Keeps.bind (need_wf trivial) fun _
    h7 => Keeps.bind (need_wf trivial) fun _ h6 => Keeps.bind (need_wf trivial) fun _ h5 => Keeps.bind (Frame.acceptMxe_wf h9) fun _ h4 => .pure
      (Frame.setIssue_wf h4)) h11) h8

theorem State.postEngine_wf {s : State} {c e x} (w : Memory.wf s.mem) : Memory.wf (State.postEngine s c e x).mem := by
  unfold State.postEngine
  split
  · dsimp only
    split
    · exact State.setCtx_wf w
    · exact State.progress_wf (State.setCtx_wf w)
  · split
    · exact State.setCtx_wf w
    · exact State.setCtx_wf w

theorem execEngineCallComplete_wf {ctx e} {s : State} (w : Memory.wf s.mem) : Leaves (execEngineCallComplete ctx e s) := by
  unfold execEngineCallComplete
  split
  · exact State.event_wf w
  · split
    · exact State.event_wf w
    · split
      · exact State.event_wf w
      · exact State.event_wf (State.postEngine_wf (State.release_wf w))

theorem execEngineTokenPostDeferred_wf {ctx e} {s : State} (w : Memory.wf s.mem) : Leaves (execEngineTokenPostDeferred ctx e s) := by
  unfold execEngineTokenPostDeferred
  split
  · exact State.event_wf w
  · split
    · exact State.event_wf w
    · split
      · exact State.event_wf (State.postEngine_wf w)
      · exact State.event_wf w

theorem execHeldCallEnqueue_wf {ctx e} {s : State} (w : Memory.wf s.mem) : Leaves (execHeldCallEnqueue ctx e s) := by
  unfold execHeldCallEnqueue
  split
  · exact State.event_wf w
  · split
    · split
      · exact State.event_wf w
      · split
        · exact State.event_wf (State.setCtx_wf w)
        · exact State.event_wf w
    · split
      · exact State.event_wf w
      · split
        · exact State.event_wf (State.setCtx_wf w)
        · exact State.event_wf w

theorem State.lostCall_wf {s : State} {c x} (w : Memory.wf s.mem) : Memory.wf (State.lostCall s c x).mem := by
  unfold State.lostCall
  exact State.machineCheck_wf (State.setCtx_wf w)

theorem execMxeCallStart_wf {ctx} {s : State} (w : Memory.wf s.mem) : Leaves (execMxeCallStart ctx s) := by
  unfold execMxeCallStart
  split
  · exact State.event_wf w
  · split
    · exact State.event_wf w
    · split
      · exact State.event_wf w
      · split
        · exact State.event_wf (State.lostCall_wf w)
        · exact State.event_wf (State.setCtx_wf w)

theorem execMxeQuiesce_wf {ctx} {s : State} (w : Memory.wf s.mem) : Leaves (execMxeQuiesce ctx s) := by
  unfold execMxeQuiesce
  split
  · exact State.event_wf w
  · split
    · exact State.event_wf (State.setCtx_wf w)
    · exact State.event_wf w

theorem execXfuQuiesce_wf {ctx} {s : State} (w : Memory.wf s.mem) : Leaves (execXfuQuiesce ctx s) := by
  unfold execXfuQuiesce
  split
  · exact State.event_wf w
  · split
    · exact State.event_wf (State.setCtx_wf w)
    · exact State.event_wf w

theorem execMxloadRun_wf {ctx} {s : State} (w : Memory.wf s.mem) : Leaves (execMxloadRun ctx s) := by
  unfold execMxloadRun
  split
  · exact State.event_wf w
  · split
    · exact State.event_wf w
    · split
      · exact State.event_wf w
      · dsimp only
        split
        · exact State.event_wf (State.lostCall_wf w)
        · split
          · exact State.event_wf (State.machineCheck_wf (State.setCtx_wf w))
          · exact State.event_wf (State.setCtx_wf (State.setTile_wf w))

end Sys2Proof.Machine
end

section
/-! SUPPORT. Memory stays canonical: the command core's frame: mapped and rotation slots, the packets they start, and the acknowledgements. -/

namespace Sys2Proof.Machine

theorem State.evaluate_wf {s : State} {q p} (w : Memory.wf s.mem) : Memory.wf (State.evaluate s q p).mem := by
  unfold State.evaluate
  dsimp only
  split
  · split
    · exact State.completePacket_wf w
    · exact w
  · split
    · exact w
    · split
      · refine State.completePacket_wf ?_
        split
        · exact State.coreFault_wf w
        · exact w
      · split
        · exact State.completePacket_wf (State.coreHasRead_wf w)
        · exact State.coreHasRead_wf w

theorem State.startSignal_wf {s : State} {q idx w} (m : Memory.wf s.mem) : Memory.wf (State.startSignal s q idx w).mem := by
  unfold State.startSignal
  dsimp only
  split
  · rename_i e1
    have h1 := Keeps.of_ok (State.signal_wf (State.coreRelease_wf m)) e1
    exact h1
  · refine State.completePacket_wf ?_
    split
    · exact State.coreFault_wf m
    · exact m

theorem State.startPacket_wf {s : State} {q idx w} (m : Memory.wf s.mem) : Memory.wf (State.startPacket s q idx w).mem := by
  unfold State.startPacket
  dsimp only
  split
  · exact State.completePacket_wf (State.setQueue_wf m)
  · exact State.packetTask_wf (State.setQueue_wf m)
  · exact State.startGraph_wf (State.setQueue_wf m)
  · exact State.startSignal_wf (State.setQueue_wf m)
  · exact State.setQueue_wf m

theorem State.refusePacket_wf {s : State} {q status type utag idx irq} (w : Memory.wf s.mem) : Memory.wf (State.refusePacket s q status type utag
    idx irq).mem := by
  unfold State.refusePacket
  exact State.settleRecord_wf w

theorem State.readOne_wf {s : State} {q} (w : Memory.wf s.mem) : Memory.wf (State.readOne s q).1.mem := by
  unfold State.readOne
  dsimp only
  split
  · exact w
  · split
    · refine State.refusePacket_wf ?_
      dsimp only
      refine State.setQueue_wf ?_
      split
      · exact State.coreFault_wf w
      · exact w
    · split
      · exact State.refusePacket_wf (State.setQueue_wf (State.coreHasRead_wf w))
      · split
        · exact State.coreHasRead_wf w
        · exact State.startPacket_wf (State.setQueue_wf (State.coreHasRead_wf w))

theorem State.readPackets_wf {s : State} {q n} (w : Memory.wf s.mem) : Memory.wf (State.readPackets s q n).mem := by
  induction n generalizing s with
  | zero => exact w
  | succ n ih =>
    unfold State.readPackets
    dsimp only
    split
    · exact ih (State.readOne_wf w)
    · exact State.readOne_wf w

theorem State.overrun_wf {s : State} {q} (w : Memory.wf s.mem) : Memory.wf (State.overrun s q).mem := by
  unfold State.overrun
  exact State.settleRecord_wf w

theorem State.serve_wf {s : State} {q} (w : Memory.wf s.mem) : Memory.wf (State.serve s q).mem := by
  unfold State.serve
  dsimp only
  split
  · exact w
  · split
    · exact State.overrun_wf w
    · split
      · exact State.readPackets_wf w
      · exact State.evaluate_wf (State.readPackets_wf w)

theorem State.rotate_wf {s : State} (w : Memory.wf s.mem) : Memory.wf (State.rotate s).mem := by
  unfold State.rotate
  split
  · exact w
  · dsimp only
    split
    · exact State.setQueue_wf w
    · exact State.serve_wf w

theorem State.mappedSlot_wf {s : State} {n} (w : Memory.wf s.mem) : Memory.wf (State.mappedSlot s n).mem := by
  unfold State.mappedSlot
  split
  · exact w
  · exact State.serve_wf (State.setQueue_wf w)

theorem State.framePart_wf {s : State} (w : Memory.wf s.mem) : Memory.wf (State.framePart s).mem := by
  unfold State.framePart
  dsimp only
  split
  · exact State.mappedSlot_wf w
  · split
    · exact State.rotate_wf w
    · exact w

theorem execFrameStart_wf {s : State} (w : Memory.wf s.mem) : Leaves (execFrameStart s) := by
  unfold execFrameStart
  exact State.event_wf (State.framePart_wf w)

theorem execQueueIdleUnmap_wf {q} {s : State} (w : Memory.wf s.mem) : Leaves (execQueueIdleUnmap q s) := by
  unfold execQueueIdleUnmap
  refine State.event_wf ?_
  split
  · exact State.setQueue_wf w
  · exact w

theorem execSignalAck_wf {q idx} {s : State} (w : Memory.wf s.mem) : Leaves (execSignalAck q idx s) := by
  unfold execSignalAck
  refine State.event_wf ?_
  split
  · exact State.completePacket_wf w
  · exact w

theorem execInvalAck_wf {q} {s : State} (w : Memory.wf s.mem) : Leaves (execInvalAck q s) := by
  unfold execInvalAck
  split
  · exact State.event_wf w
  · split
    · exact State.event_wf w
    · exact State.event_wf (State.completePacket_wf (State.dropRange_wf w))

end Sys2Proof.Machine
end

section
/-! SUPPORT. Memory stays canonical: tasks on tiles. -/

namespace Sys2Proof.Machine

theorem State.removeTask_wf {s : State} {tid} (w : Memory.wf s.mem) : Memory.wf (State.removeTask s tid).mem := by
  unfold State.removeTask
  exact w

theorem State.abandonCmd_wf {s : State} {k} (w : Memory.wf s.mem) : Memory.wf (State.abandonCmd s k).mem := by
  unfold State.abandonCmd
  split
  · exact w
  · split
    · split
      · exact w
      · exact State.abandonCopy_wf w
    · exact State.undefineGlobal_wf w
    · split
      · exact State.undefineGlobal_wf w
      · exact w
    · exact w

theorem State.abandonTask_wf {s : State} {tid} (w : Memory.wf s.mem) : Memory.wf (State.abandonTask s tid).mem := by
  unfold State.abandonTask
  exact State.foldl_wf (fun _ _ h12 => State.undefinePlaces_wf h12) (State.foldl_wf (fun _ _ h11 => State.abandonCmd_wf h11) w)

theorem State.leaveAll_wf {s : State} {tid} (w : Memory.wf s.mem) : Memory.wf (State.leaveAll s tid).mem := by
  unfold State.leaveAll
  exact State.foldl_wf (fun _ _ h12 => State.leaveGroups_wf h12) w

theorem State.putFaultWords_wf {s : State} {t r} (w : Memory.wf s.mem) : Memory.wf (State.putFaultWords s t r).1.mem := by
  unfold State.putFaultWords
  split
  · rename_i e1
    have h1 := Keeps.of_ok (State.tileWrite_wf w) e1
    exact h1
  · dsimp only
    split
    · exact w
    · exact State.informStrand_wf w

theorem State.performDrain_wf {s : State} {sid} (w : Memory.wf s.mem) : Memory.wf (State.performDrain s sid).mem := by
  unfold State.performDrain
  split
  · exact w
  · rename_i e1
    have h1 := State.frameOf_wf w _ e1
    exact Frame.put_wf (Frame.foldl_wf (fun _ _ h11 => Frame.drainOne_wf h11) h1)

theorem State.endFailed_wf {s : State} {k status} (w : Memory.wf s.mem) : Memory.wf (State.endFailed s k status).mem := by
  unfold State.endFailed
  refine State.taskReport_wf (State.removeTask_wf (State.leaveAll_wf (State.abandonTask_wf ?_)))
  refine foldl_keeps (P := fun p : State × Nat => Memory.wf p.1.mem) (fun p t h => ?_) _ (State.foldl_wf (fun _ _ h => State.performDrain_wf h) w)
  split
  · exact h
  · exact State.putFaultWords_wf h

theorem execTaskFail_wf {sid cause sub addr} {s : State} (w : Memory.wf s.mem) : Leaves (execTaskFail sid cause sub addr s) := by
  unfold execTaskFail
  split
  · exact State.event_wf w
  · dsimp only
    split
    · refine State.event_wf ?_
      split
      · exact w
      · exact State.setStrand_wf w
    · split
      · split
        · exact State.event_wf (State.endFailed_wf w)
        · exact State.event_wf w
      · split
        · exact State.event_wf (State.endFailed_wf (State.setStrand_wf w))
        · exact State.event_wf (State.setStrand_wf w)

theorem State.giveUnit_wf {s : State} {ptn u id} (w : Memory.wf s.mem) : Memory.wf (State.giveUnit s ptn u id).mem := by
  unfold State.giveUnit
  exact State.setTile_wf w

theorem State.spillPairs_wf {s : State} {t c l} (w : Memory.wf s.mem) : Memory.wf (State.spillPairs s t c l).mem := by
  induction l generalizing s with
  | nil => exact w
  | cons e l ih =>
    unfold State.spillPairs
    split
    · exact State.failCheck_wf w
    · split
      · exact State.failSave_wf w
      · rename_i hw
        have h1 := Keeps.of_ok (State.tileWrite_wf w) hw
        exact ih h1

theorem State.spillBank_wf {s : State} {t c i b} (w : Memory.wf s.mem) : Memory.wf (State.spillBank s t c i b).mem := by
  unfold State.spillBank
  split
  · exact w
  · exact State.setCtx_wf (State.spillPairs_wf w)

theorem State.saveUnit_wf {s : State} {t c u} (w : Memory.wf s.mem) : Memory.wf (State.saveUnit s t c u).mem := by
  unfold State.saveUnit
  split
  · exact State.spillBank_wf w
  · split
    · exact w
    · dsimp only
      split
      · split
        · exact State.undefine_wf w
        · split
          · exact State.failCheck_wf w
          · split
            · rename_i e1
              have h1 := Keeps.of_ok (State.saveImage_wf w) e1
              exact State.setCtx_wf h1
            · exact State.failSave_wf w
      · split
        · exact State.undefine_wf w
        · split
          · exact State.failCheck_wf w
          · split
            · rename_i e2
              have h2 := Keeps.of_ok (State.saveImage_wf w) e2
              exact State.setCtx_wf h2
            · exact State.failSave_wf w

theorem State.takeUnit_wf {s : State} {id u} (w : Memory.wf s.mem) : Memory.wf (State.takeUnit s id u).mem := by
  unfold State.takeUnit
  split
  · exact w
  · dsimp only
    split
    · split
      · refine State.restoreUnit_wf ?_
        split
        · exact w
        · exact State.saveUnit_wf w
      · refine State.giveUnit_wf ?_
        split
        · exact w
        · exact State.saveUnit_wf w
    · split
      · exact w
      · exact State.saveUnit_wf w

theorem State.fillWindow_wf {s : State} {sid} (w : Memory.wf s.mem) : Memory.wf (State.fillWindow s sid).mem := by
  unfold State.fillWindow
  split
  · exact w
  · rename_i f0 _
    have hunits (l : List TileUnit) : Memory.wf (l.foldl (fun s u => s.takeUnit f0.t.cur u) s).mem :=
      State.foldl_wf (fun _ _ h => State.takeUnit_wf h) w
    dsimp only
    generalize hu : List.foldl _ s _ = u
    replace hunits := hu ▸ hunits _
    split
    · exact hunits
    · split
      · rename_i t c hok
        have hfold : Keeps (fun _ => True) (fun p : State × Ctx => Memory.wf p.1.mem) (.ok (t, c) : Except (ℕ × Option ℕ) (State × Ctx)) := by
          rw [← hok]
          refine foldl_keeps (P := fun r => Keeps (fun _ => True) (fun p : State × Ctx => Memory.wf p.1.mem) r) (fun r e hr => ?_) _ (.ok hunits)
          split
          · exact .error trivial
          · have hs := hr.of_ok rfl
            split
            · exact .error trivial
            · split
              · exact .error trivial
              · exact .ok (State.tileHasRead_wf hs)
        have ht := hfold.of_ok rfl
        exact State.setCtx_wf ht
      · exact State.failSave_wf hunits
      · exact State.failCheck_wf hunits

theorem State.claimFor_wf {s : State} {t id u es} (w : Memory.wf s.mem) : Memory.wf (State.claimFor s t id u es).mem := by
  unfold State.claimFor
  dsimp only
  split
  · -- no fact
    split
    · exact State.takeUnit_wf (State.foldl_wf (fun _ _ h11 => State.takeUnit_wf h11) w)
    · exact State.fillWindow_wf (State.takeUnit_wf (State.foldl_wf (fun _ _ h10 => State.takeUnit_wf h10) w))
  · exact State.takeUnit_wf (State.foldl_wf (fun _ _ h11 => State.takeUnit_wf h11) w)

theorem execUnitClaimComplete_wf {sid u} {s : State} (w : Memory.wf s.mem) : Leaves (execUnitClaimComplete sid u s) := by
  unfold execUnitClaimComplete
  split
  · exact State.event_wf w
  · split
    · exact State.event_wf w
    · split
      · exact State.event_wf w
      · exact State.event_wf (State.claimFor_wf (State.setStrand_wf w))

theorem State.restartHandler_wf {s : State} {sid} (w : Memory.wf s.mem) : Memory.wf (State.restartHandler s sid).mem := by
  unfold State.restartHandler
  split
  · exact w
  · rename_i e1
    have h1 := State.frameOf_wf w _ e1
    dsimp only
    split
    · exact w
    · split
      · refine State.performDrain_wf ?_
        refine Frame.put_wf ?_
        split
        · exact Frame.restore_wf h1
        · exact h1
      · -- no fact
        refine State.setStrand_wf ?_
        dsimp only
        refine State.dropCtx_wf ?_
        refine State.performDrain_wf ?_
        refine Frame.put_wf ?_
        split
        · exact Frame.restore_wf h1
        · exact h1

theorem State.saveArea_wf {s : State} {sid o n} (w : Memory.wf s.mem) : Memory.wf (State.saveArea s sid o n).mem := by
  unfold State.saveArea
  split
  · exact w
  · split
    · exact w
    · split
      · exact State.failSave_wf w
      · rename_i e1
        have h1 := Keeps.of_ok (State.saveImage_wf w) e1
        exact State.setStrand_wf h1

theorem State.preemptStrand_wf {s : State} {sid} (w : Memory.wf s.mem) : Memory.wf (State.preemptStrand s sid).mem := by
  unfold State.preemptStrand
  dsimp only
  split
  · exact State.restartHandler_wf w
  · split
    · refine State.saveArea_wf ?_
      split
      · exact State.saveArea_wf (State.noticeGroups_wf (State.restartHandler_wf w))
      · exact State.failCheck_wf (State.noticeGroups_wf (State.restartHandler_wf w))
    · split
      · exact State.saveArea_wf (State.noticeGroups_wf (State.restartHandler_wf w))
      · exact State.failCheck_wf (State.noticeGroups_wf (State.restartHandler_wf w))

theorem State.setVacant_wf {s : State} {l vacant} (w : Memory.wf s.mem) : Memory.wf (State.setVacant s l vacant).mem := by
  unfold State.setVacant
  exact State.foldl_wf (fun _ _ h12 => State.setTile_wf h12) w

theorem State.preempt_wf {s : State} {k} (w : Memory.wf s.mem) : Memory.wf (State.preempt s k).mem := by
  unfold State.preempt
  exact State.setVacant_wf (State.foldl_wf (fun _ _ h11 => State.preemptStrand_wf h11) (State.setTask_wf w))

theorem State.restoreHeld_wf {s : State} {sid} (w : Memory.wf s.mem) : Memory.wf (State.restoreHeld s sid).mem := by
  unfold State.restoreHeld
  split
  · exact w
  · split
    · exact w
    · split
      · rename_i e1
        have h1 := Keeps.of_error (State.readArea_wf w) e1
        exact h1
      · rename_i e2
        have h2 := Keeps.of_ok (State.readArea_wf w) e2
        exact h2
      · rename_i e3
        have h3 := Keeps.of_ok (State.readArea_wf w) e3
        exact State.setStrand_wf h3

theorem State.resumeStrand_wf {s : State} {sid} (w : Memory.wf s.mem) : Memory.wf (State.resumeStrand s sid).mem := by
  unfold State.resumeStrand
  split
  · exact w
  · split
    · rename_i e1
      have h1 := Keeps.of_error (State.readArea_wf w) e1
      exact h1
    · rename_i e2
      have h2 := Keeps.of_ok (State.readArea_wf w) e2
      dsimp only
      split
      · exact State.restoreHeld_wf h2
      · exact State.noticeGroups_wf (State.setStrand_wf (State.restoreHeld_wf h2))

theorem execTaskResume_wf {task} {s : State} (w : Memory.wf s.mem) : Leaves (execTaskResume task s) := by
  unfold execTaskResume
  split
  · exact State.event_wf w
  · split
    · exact State.event_wf w
    · exact State.event_wf (State.foldl_wf (fun _ _ h11 => State.resumeStrand_wf h11) (State.setVacant_wf (State.setTask_wf w)))

theorem State.addStrand_wf {s : State} {k h const rank ptn} (w : Memory.wf s.mem) : Memory.wf (State.addStrand s k h const rank ptn).mem := by
  unfold State.addStrand
  exact w

theorem State.bindTask_wf {s : State} {k h const reads cluster} (w : Memory.wf s.mem) : Memory.wf (State.bindTask s k h const reads cluster).mem := by
  unfold State.bindTask
  exact State.setTask_wf (State.foldl_wf (fun _ _ h11 => State.noteRead_wf h11) w)

theorem State.launch_wf {s : State} {k h} (w : Memory.wf s.mem) : Memory.wf (State.launch s k h).mem := by
  unfold State.launch
  exact State.setVacant_wf (State.setTask_wf (State.foldl_wf (fun _ _ h10 => State.addStrand_wf h10) w))

theorem State.refuseTask_wf {s : State} {k status} (w : Memory.wf s.mem) : Memory.wf (State.refuseTask s k status).mem := by
  unfold State.refuseTask
  exact State.taskReport_wf w

theorem State.startPlaced_wf {s : State} {tid} (w : Memory.wf s.mem) : Memory.wf (State.startPlaced s tid).mem := by
  unfold State.startPlaced
  split
  · exact w
  · split
    · exact w
    · dsimp only
      split
      · split
        · exact State.launch_wf (State.foldl_wf (fun _ _ h11 => State.preempt_wf h11) w)
        · exact State.foldl_wf (fun _ _ h12 => State.preempt_wf h12) w
      · exact State.foldl_wf (fun _ _ h12 => State.preempt_wf h12) w

theorem State.placeOn_wf {s : State} {k h cluster} (w : Memory.wf s.mem) : Memory.wf (State.placeOn s k h cluster).mem := by
  unfold State.placeOn
  split
  · exact State.refuseTask_wf (State.inform_wf w)
  · split
    · exact State.refuseTask_wf (State.inform_wf w)
    · exact State.refuseTask_wf w
    · split
      · exact w
      · exact State.startPlaced_wf (State.bindTask_wf w)

theorem execTaskPlace_wf {task} {s : State} (w : Memory.wf s.mem) : Leaves (execTaskPlace task s) := by
  unfold execTaskPlace
  split
  · exact State.event_wf w
  · split
    · exact State.event_wf (State.startPlaced_wf w)
    · split
      · exact State.event_wf w
      · split
        · exact State.event_wf (State.refuseTask_wf w)
        · split
          · exact State.event_wf w
          · exact State.event_wf (State.placeOn_wf (State.coreHasRead_wf w))

theorem State.retireStrand_wf {s : State} {t} (w : Memory.wf s.mem) : Memory.wf (State.retireStrand s t).mem := by
  unfold State.retireStrand
  dsimp only
  exact State.setStrand_wf (State.foldl_wf (fun _ _ h11 => State.release_wf h11) (State.leaveGroups_wf w))

theorem State.endDone_wf {s : State} {k} (w : Memory.wf s.mem) : Memory.wf (State.endDone s k).mem := by
  unfold State.endDone
  refine State.taskReport_wf ?_
  refine State.removeTask_wf ?_
  split
  · exact State.releaseDie_wf w
  · exact w

theorem execRetireComplete_wf {sid} {s : State} (w : Memory.wf s.mem) : Leaves (execRetireComplete sid s) := by
  unfold execRetireComplete
  split
  · exact State.event_wf w
  · split
    · exact State.event_wf w
    · rename_i t _ _
      have hs := State.releaseBarriers_wf (task := t.task) (State.retireStrand_wf (t := t) w)
      dsimp only
      generalize State.releaseBarriers _ _ = u at hs ⊢
      split
      · exact State.event_wf hs
      · split
        · exact State.event_wf (State.endDone_wf hs)
        · exact State.event_wf hs

theorem State.saveUnits_wf {s : State} {sid id} (w : Memory.wf s.mem) : Memory.wf (State.saveUnits s sid id).mem := by
  unfold State.saveUnits
  split
  · refine State.foldl_wf (fun s1 a1 h1 => ?_) (State.setCtx_wf (State.spillPairs_wf w))
    split
    · exact State.saveUnit_wf h1
    · exact h1
  · exact w

theorem execWatchdogFire_wf {task} {s : State} (w : Memory.wf s.mem) : Leaves (execWatchdogFire task s) := by
  unfold execWatchdogFire
  split
  · exact State.event_wf w
  · dsimp only
    split
    · exact State.event_wf w
    · split
      · exact State.event_wf w
      · exact State.event_wf (State.endFailed_wf (State.foldl_wf (fun _ _ h10 => State.foldl_wf (fun _ _ h9 => State.saveUnits_wf h9) h10)
          (State.setStrand_wf w)))

theorem State.reportDie_wf {s : State} {die} (w : Memory.wf s.mem) : Memory.wf (State.reportDie s die).mem := by
  unfold State.reportDie
  split
  · exact w
  · exact w

theorem execDieReport_wf {die} {s : State} (w : Memory.wf s.mem) : Leaves (execDieReport die s) := by
  unfold execDieReport
  exact State.event_wf (State.reportDie_wf w)

theorem State.vacateBanks_wf {s : State} {t id i j b} (w : Memory.wf s.mem) : Memory.wf (State.vacateBanks s t id i j b).mem := by
  unfold State.vacateBanks
  dsimp only
  split
  · split
    · refine State.spillBank_wf ?_
      split
      · exact State.spillBank_wf w
      · exact w
    · split
      · exact State.spillBank_wf w
      · exact w
  · refine State.setCtx_wf ?_
    refine State.spillPairs_wf ?_
    split
    · refine State.spillBank_wf ?_
      split
      · exact State.spillBank_wf w
      · exact w
    · split
      · exact State.spillBank_wf w
      · exact w

theorem execScalarBankRetire_wf {ptn bank} {s : State} (w : Memory.wf s.mem) : Leaves (execScalarBankRetire ptn bank s) := by
  unfold execScalarBankRetire
  dsimp only
  split
  · exact State.event_wf w
  · exact State.event_wf (State.setTile_wf (State.foldl_wf (fun _ _ h10 => State.foldl_wf (fun _ _ h9 => State.vacateBanks_wf h9) h10) w))

end Sys2Proof.Machine
end

section
/-! SUPPORT. Memory stays canonical: what the host, system software, the links and the power circuits do to the module. -/

namespace Sys2Proof.Machine

theorem State.writeMember_wf {s : State} {g m v} (w : Memory.wf s.mem) : Memory.wf (State.writeMember s g m v).mem := by
  unfold State.writeMember
  split
  · exact w
  · exact w

theorem State.writeGroup_wf {s : State} {g v} (w : Memory.wf s.mem) : Memory.wf (State.writeGroup s g v).mem := by
  unfold State.writeGroup
  split
  · exact w
  · exact w

theorem execGroupMemberWrite_wf {g m v} {s : State} (w : Memory.wf s.mem) : Leaves (execGroupMemberWrite g m v s) := by
  unfold execGroupMemberWrite
  exact State.event_wf (State.writeMember_wf w)

theorem execGroupHeaderWrite_wf {g v} {s : State} (w : Memory.wf s.mem) : Leaves (execGroupHeaderWrite g v s) := by
  unfold execGroupHeaderWrite
  exact State.event_wf (State.writeGroup_wf w)

theorem State.writeRoute_wf {s : State} {m via v} (w : Memory.wf s.mem) : Memory.wf (State.writeRoute s m via v).mem := by
  unfold State.writeRoute
  split
  · exact w
  · split
    · exact w
    · exact w

theorem State.stageVersion_wf {s : State} {v} (w : Memory.wf s.mem) : Memory.wf (State.stageVersion s v).mem := by
  unfold State.stageVersion
  exact w

theorem State.swapTables_wf {s : State} (w : Memory.wf s.mem) : Memory.wf (State.swapTables s).mem := by
  unfold State.swapTables
  split
  · exact State.pumped_wf w
  · exact w

theorem State.writeRtctl_wf {s : State} {v} (w : Memory.wf s.mem) : Memory.wf (State.writeRtctl s v).mem := by
  unfold State.writeRtctl
  split
  · exact State.swapTables_wf w
  · exact State.stageVersion_wf w

theorem execRoutingEntryWrite_wf {m via v} {s : State} (w : Memory.wf s.mem) : Leaves (execRoutingEntryWrite m via v s) := by
  unfold execRoutingEntryWrite
  exact State.event_wf (State.writeRoute_wf w)

theorem execRtctlStage_wf {v} {s : State} (w : Memory.wf s.mem) : Leaves (execRtctlStage v s) := by
  unfold execRtctlStage
  exact State.event_wf (State.writeRtctl_wf w)

theorem execTopologySwap_wf {v} {s : State} (w : Memory.wf s.mem) : Leaves (execTopologySwap v s) := by
  unfold execTopologySwap
  exact State.event_wf (State.writeRtctl_wf w)

theorem State.writePtroot_wf {s : State} {v} (w : Memory.wf s.mem) : Memory.wf (State.writePtroot s v).mem := by
  unfold State.writePtroot
  exact w

theorem State.writeFltbase_wf {s : State} {v} (w : Memory.wf s.mem) : Memory.wf (State.writeFltbase s v).mem := by
  unfold State.writeFltbase
  split
  · exact State.recordWaiting_wf w
  · exact w

theorem State.writeFltrd_wf {s : State} {v} (w : Memory.wf s.mem) : Memory.wf (State.writeFltrd s v).mem := by
  unfold State.writeFltrd
  exact State.recordWaiting_wf w

theorem State.resolveFault_wf {s : State} {num} (w : Memory.wf s.mem) : Memory.wf (State.resolveFault s num).mem := by
  unfold State.resolveFault
  exact State.pumped_wf w

theorem State.refuseFault_wf {s : State} {num} (w : Memory.wf s.mem) : Memory.wf (State.refuseFault s num).mem := by
  unfold State.refuseFault
  refine State.pumped_wf ?_
  split
  · split
    · exact w
    · dsimp only
      split
      · exact State.failChunk_wf w
      · exact w
  · split
    · split
      · exact w
      · dsimp only
        split
        · exact State.failChunk_wf w
        · exact w
    · refine State.failChunk_wf ?_
      split
      · exact w
      · dsimp only
        split
        · exact State.failChunk_wf w
        · exact w

theorem State.writeFltresp_wf {s : State} {ok num} (w : Memory.wf s.mem) : Memory.wf (State.writeFltresp s ok num).mem := by
  unfold State.writeFltresp
  split
  · exact State.resolveFault_wf w
  · exact State.refuseFault_wf w

theorem execPtrootWrite_wf {v} {s : State} (w : Memory.wf s.mem) : Leaves (execPtrootWrite v s) := by
  unfold execPtrootWrite
  exact State.event_wf (State.writePtroot_wf w)

theorem execFltbaseWrite_wf {v} {s : State} (w : Memory.wf s.mem) : Leaves (execFltbaseWrite v s) := by
  unfold execFltbaseWrite
  exact State.event_wf (State.writeFltbase_wf w)

theorem execFltrdWrite_wf {v} {s : State} (w : Memory.wf s.mem) : Leaves (execFltrdWrite v s) := by
  unfold execFltrdWrite
  exact State.event_wf (State.writeFltrd_wf w)

theorem execFltrespResolve_wf {num} {s : State} (w : Memory.wf s.mem) : Leaves (execFltrespResolve num s) := by
  unfold execFltrespResolve
  exact State.event_wf (State.writeFltresp_wf w)

theorem execFltrespRefuse_wf {num} {s : State} (w : Memory.wf s.mem) : Leaves (execFltrespRefuse num s) := by
  unfold execFltrespRefuse
  exact State.event_wf (State.writeFltresp_wf w)

theorem State.writeIclamp_wf {s : State} {v} (w : Memory.wf s.mem) : Memory.wf (State.writeIclamp s v).mem := by
  unfold State.writeIclamp
  split
  · exact w
  · exact w

theorem execIclampWrite_wf {v} {s : State} (w : Memory.wf s.mem) : Leaves (execIclampWrite v s) := by
  unfold execIclampWrite
  exact State.event_wf (State.writeIclamp_wf w)

theorem State.writeMembers_wf {s : State} {o v} (w : Memory.wf s.mem) : Memory.wf (State.writeMembers s o v).mem := by
  unfold State.writeMembers
  exact State.writeMember_wf (State.writeMember_wf w)

theorem State.writeFaultRegister_wf {s : State} {o v} (w : Memory.wf s.mem) : Memory.wf (State.writeFaultRegister s o v).mem := by
  unfold State.writeFaultRegister
  split
  · exact State.writePtroot_wf w
  · exact State.writeFltbase_wf w
  · exact State.writeFltrd_wf w
  · exact w
  · exact State.writeFltresp_wf w
  · exact w

theorem State.writeRegister_wf {s : State} {off v} (w : Memory.wf s.mem) : Memory.wf (State.writeRegister s off v).mem := by
  unfold State.writeRegister
  split
  · exact w
  · split
    · exact State.writeQueueWord_wf w
    · split
      · exact State.writeFaultRegister_wf w
      · split
        · exact State.writeGroup_wf w
        · split
          · exact State.writeMembers_wf w
          · split
            · exact State.writeRtctl_wf w
            · split
              · exact State.writeRoute_wf w
              · split
                · exact State.writeIclamp_wf w
                · exact w

theorem execRegisterWrite_wf {off v} {s : State} (w : Memory.wf s.mem) : Leaves (execRegisterWrite off v s) := by
  unfold execRegisterWrite
  exact State.event_wf (State.writeRegister_wf w)

theorem State.writeBarWord_wf {s : State} {bar o v} (w : Memory.wf s.mem) : Memory.wf (State.writeBarWord s bar o v).mem := by
  unfold State.writeBarWord
  split
  · exact State.writeDoorbell_wf w
  · exact State.writeRegister_wf w

theorem State.hostRead_wf {s : State} {bar off n} (w : Memory.wf s.mem) : Memory.wf (State.hostRead s bar off n).mem := by
  unfold State.hostRead
  split
  · split
    · exact State.tellHost_wf w
    · exact State.tellHost_wf (State.noteRead_wf w)
  · exact State.tellHost_wf w

theorem State.hostWrite_wf {s : State} {bar off bs} (w : Memory.wf s.mem) : Memory.wf (State.hostWrite s bar off bs).mem := by
  unfold State.hostWrite
  split
  · exact State.noteWrite_wf (State.write_wf w)
  · exact State.foldl_wf (fun _ _ h12 => State.writeBarWord_wf h12) w

theorem execHostMemoryAccess_wf {place op} {s : State} (w : Memory.wf s.mem) : Leaves (execHostMemoryAccess place op s) := by
  unfold execHostMemoryAccess
  split
  · refine State.event_wf ?_
    split
    · exact State.hostRead_wf w
    · exact State.tellHost_wf w
  · refine State.event_wf ?_
    split
    · exact State.hostWrite_wf w
    · exact State.tellHost_wf w

theorem State.updatePort_wf {s : State} {k h} (w : Memory.wf s.mem) : Memory.wf (State.updatePort s k h).mem := by
  unfold State.updatePort
  exact w

theorem execCircuitChange_wf {port} {s : State} (w : Memory.wf s.mem) : Leaves (execCircuitChange port s) := by
  unfold execCircuitChange
  exact State.event_wf (State.updatePort_wf w)

theorem execLinkRetrained_wf {port} {s : State} (w : Memory.wf s.mem) : Leaves (execLinkRetrained port s) := by
  unfold execLinkRetrained
  exact State.event_wf (State.pumped_wf (State.handWaiting_wf (State.updatePort_wf w)))

theorem execRetrainTimeout_wf {port} {s : State} (w : Memory.wf s.mem) : Leaves (execRetrainTimeout port s) := by
  unfold execRetrainTimeout
  exact State.event_wf (State.pumped_wf (State.handWaiting_wf (State.updatePort_wf w)))

theorem execLinkFail_wf {port} {s : State} (w : Memory.wf s.mem) : Leaves (execLinkFail port s) := by
  unfold execLinkFail
  exact State.event_wf (State.pumped_wf (State.handWaiting_wf (State.updatePort_wf w)))

theorem execPortDisable_wf {port} {s : State} (w : Memory.wf s.mem) : Leaves (execPortDisable port s) := by
  unfold execPortDisable
  exact State.event_wf (State.pumped_wf (State.handWaiting_wf (State.updatePort_wf w)))

theorem execPacketTrainStart_wf {port duty} {s : State} (w : Memory.wf s.mem) : Leaves (execPacketTrainStart port duty s) := by
  unfold execPacketTrainStart
  exact State.event_wf (State.updatePort_wf w)

theorem execErrorMonitorRaise_wf {port level} {s : State} (w : Memory.wf s.mem) : Leaves (execErrorMonitorRaise port level s) := by
  unfold execErrorMonitorRaise
  exact State.event_wf (State.updatePort_wf w)

theorem execHoldExpire_wf {port need} {s : State} (w : Memory.wf s.mem) : Leaves (execHoldExpire port need s) := by
  unfold execHoldExpire
  exact State.event_wf (State.updatePort_wf w)

theorem execOpticalBudgetChange_wf {port budget} {s : State} (w : Memory.wf s.mem) : Leaves (execOpticalBudgetChange port budget s) := by
  unfold execOpticalBudgetChange
  exact State.event_wf (State.updatePort_wf w)

theorem execPcieLinkTrain_wf {rate width} {s : State} (m : Memory.wf s.mem) : Leaves (execPcieLinkTrain rate width s) := by
  unfold execPcieLinkTrain
  refine State.event_wf ?_
  split
  · exact m
  · exact m

theorem State.endQueue_wf {s : State} {q tids} (w : Memory.wf s.mem) : Memory.wf (State.endQueue s q tids).mem := by
  unfold State.endQueue
  exact State.foldl_wf (fun _ _ h12 => State.putRecord_wf h12) (State.setQueue_wf w)

theorem execFunctionLevelReset_wf {s : State} (w : Memory.wf s.mem) : Leaves (execFunctionLevelReset s) := by
  unfold execFunctionLevelReset
  refine State.event_wf ?_
  dsimp only
  refine State.foldl_wf (fun s1 a1 h1 => ?_) ?_
  · exact State.endQueue_wf h1
  · refine State.foldl_wf (fun s2 a2 h2 => ?_) ?_
    · exact State.removeTask_wf (State.leaveAll_wf (State.abandonTask_wf h2))
    · refine State.foldl_wf (fun s3 a3 h3 => ?_) ?_
      · exact State.performDrain_wf h3
      · refine State.foldl_wf (fun s4 a4 h4 => ?_) w
        split
        · exact State.endSync_wf h4
        · exact h4

theorem execModuleReset_wf {verified code measure} {s : State} (w : Memory.wf s.mem) : Leaves (execModuleReset verified code measure s) := by
  unfold execModuleReset
  exact State.event_wf (Memory.filter_wf _ w)

end Sys2Proof.Machine
end

section
/-! SUPPORT. Memory stays canonical: the MXE's micro-operations: what a running call does, step by step, and the arithmetic of a stride. -/

namespace Sys2Proof.Machine

theorem State.mxFrame_wf {s : State} (w : Memory.wf s.mem) : ∀ r, State.mxFrame s = some r → Memory.wf r.s.mem := by
  intro r hr
  obtain ⟨c, _, hc⟩ := Option.bind_eq_some_iff.1 hr
  split at hc
  · cases hc
  · obtain ⟨x, _, rfl⟩ := Option.map_eq_some_iff.1 hc
    exact w

theorem MxFrame.put_wf {f : MxFrame} (w : Memory.wf f.s.mem) : Memory.wf (MxFrame.put f).mem := by
  unfold MxFrame.put
  exact State.setCtx_wf w

theorem MxFrame.setMa_wf {f : MxFrame} {m x} (w : Memory.wf f.s.mem) : Memory.wf (MxFrame.setMa f m x).s.mem := by
  unfold MxFrame.setMa
  exact w

theorem MxFrame.setMc_wf {f : MxFrame} {m x} (w : Memory.wf f.s.mem) : Memory.wf (MxFrame.setMc f m x).s.mem := by
  unfold MxFrame.setMc
  exact w

theorem MxFrame.fail_wf {f : MxFrame} {e} (w : Memory.wf f.s.mem) : Memory.wf (MxFrame.fail f e).mem := by
  unfold MxFrame.fail
  dsimp only
  split
  · exact State.machineCheck_wf (State.setCtx_wf (State.foldl_wf (fun _ _ h10 => State.undefine_wf h10) (State.foldl_wf (fun _ _ h9 =>
      State.undefine_wf h9) w)))
  · exact State.setCtx_wf (State.foldl_wf (fun _ _ h11 => State.undefine_wf h11) (State.foldl_wf (fun _ _ h10 => State.undefine_wf h10) w))

theorem MxFrame.move_wf {f : MxFrame} {off} (w : Memory.wf f.s.mem) : Memory.wf (MxFrame.move f off).mem := by
  unfold MxFrame.move
  dsimp only
  split
  · exact MxFrame.put_wf w
  · exact MxFrame.fail_wf w

theorem MxFrame.stay_wf {f : MxFrame} (w : Memory.wf f.s.mem) : Memory.wf (MxFrame.stay f).1.s.mem := by
  unfold MxFrame.stay
  exact w

theorem microStep_wf {m} {body : MxFrame → Except MxFail (MxFrame × Option ℤ)} {s : State} (w : ∀ a0, Memory.wf a0.s.mem → Keeps (fun _ => True)
    (fun r => Memory.wf r.1.s.mem) (body a0)) (w2 : Memory.wf s.mem) : Leaves (microStep m body s) := by
  unfold microStep
  split
  · exact State.event_wf w2
  · rename_i e1
    have h1 := State.mxFrame_wf w2 _ e1
    split
    · exact State.event_wf (MxFrame.fail_wf h1)
    · split
      · exact State.event_wf (MxFrame.move_wf h1)
      · split
        · exact State.event_wf (MxFrame.fail_wf h1)
        · rename_i e2
          have h2 := Keeps.of_ok (w _ h1) e2
          exact State.event_wf (MxFrame.move_wf h2)
        · rename_i e3
          have h3 := Keeps.of_ok (w _ h1) e3
          exact State.event_wf (MxFrame.put_wf h3)

theorem execMnop_wf {m} {s : State} (w : Memory.wf s.mem) : Leaves (execMnop m s) := by
  unfold execMnop
  exact microStep_wf (fun _ h11 => .ok h11) w

theorem execMend_wf {m} {s : State} (w : Memory.wf s.mem) : Leaves (execMend m s) := by
  unfold execMend
  split
  · exact State.event_wf w
  · rename_i e1
    have h1 := State.mxFrame_wf w _ e1
    dsimp only
    split
    · exact State.event_wf (MxFrame.fail_wf h1)
    · split
      · exact State.event_wf (MxFrame.move_wf h1)
      · exact State.event_wf (State.setCtx_wf h1)

theorem execMseta_wf {m} {s : State} (w : Memory.wf s.mem) : Leaves (execMseta m s) := by
  unfold execMseta
  exact microStep_wf (fun _ h11 => .ok (MxFrame.setMa_wf h11)) w

theorem execMadd_wf {m} {s : State} (w : Memory.wf s.mem) : Leaves (execMadd m s) := by
  unfold execMadd
  exact microStep_wf (fun _ h11 => .ok (MxFrame.setMa_wf h11)) w

theorem execMsetc_wf {m} {s : State} (w : Memory.wf s.mem) : Leaves (execMsetc m s) := by
  unfold execMsetc
  exact microStep_wf (fun _ h11 => .ok (MxFrame.setMc_wf h11)) w

theorem execMloop_wf {m} {s : State} (w : Memory.wf s.mem) : Leaves (execMloop m s) := by
  unfold execMloop
  refine microStep_wf (fun x6 h7 => ?_) w
  dsimp only
  split
  · exact .ok (MxFrame.setMc_wf h7)
  · exact .ok (MxFrame.setMc_wf h7)

theorem execMjmp_wf {m} {s : State} (w : Memory.wf s.mem) : Leaves (execMjmp m s) := by
  unfold execMjmp
  exact microStep_wf (fun _ h11 => .ok h11) w

theorem MxFrame.setStaging_wf {f : MxFrame} {m g} (w : Memory.wf f.s.mem) : Memory.wf (MxFrame.setStaging f m g).s.mem := by
  unfold MxFrame.setStaging
  split
  · exact w
  · exact w

theorem MxFrame.stage_wf {f : MxFrame} {m clear load} (w : Memory.wf f.s.mem) : Keeps (fun _ => True) (fun r => Memory.wf r.1.s.mem)
    (MxFrame.stage f m clear load) := by
  unfold MxFrame.stage
  split
  · exact .ok (MxFrame.stay_wf (MxFrame.setStaging_wf w))
  · split
    · exact .error trivial
    · exact .ok (MxFrame.setStaging_wf w)

theorem execMlda_wf {m} {s : State} (w : Memory.wf s.mem) : Leaves (execMlda m s) := by
  unfold execMlda
  exact microStep_wf (fun _ h11 => MxFrame.stage_wf h11) w

theorem execMldb_wf {m} {s : State} (w : Memory.wf s.mem) : Leaves (execMldb m s) := by
  unfold execMldb
  exact microStep_wf (fun _ h11 => MxFrame.stage_wf h11) w

theorem execMldsa_wf {m} {s : State} (w : Memory.wf s.mem) : Leaves (execMldsa m s) := by
  unfold execMldsa
  refine microStep_wf (fun x6 h7 => ?_) w
  split
  · exact .ok h7
  · exact MxFrame.stage_wf h7

theorem execMldsw_wf {m} {s : State} (w : Memory.wf s.mem) : Leaves (execMldsw m s) := by
  unfold execMldsw
  refine microStep_wf (fun x6 h7 => ?_) w
  split
  · exact .ok h7
  · exact MxFrame.stage_wf h7

theorem execMlde_wf {m} {s : State} (w : Memory.wf s.mem) : Leaves (execMlde m s) := by
  unfold execMlde
  refine microStep_wf (fun x6 h7 => ?_) w
  split
  · exact .ok h7
  · exact MxFrame.stage_wf h7

theorem execMldm_wf {m} {s : State} (w : Memory.wf s.mem) : Leaves (execMldm m s) := by
  unfold execMldm
  refine microStep_wf (fun x6 h7 => ?_) w
  split
  · exact .ok h7
  · exact MxFrame.stage_wf h7

theorem MxFrame.writeRows_wf {f : MxFrame} {b row bs} (w : Memory.wf f.s.mem) : Memory.wf (MxFrame.writeRows f b row bs).s.mem := by
  unfold MxFrame.writeRows
  exact State.write_wf w

theorem execMstr_wf {m} {s : State} (w : Memory.wf s.mem) : Leaves (execMstr m s) := by
  unfold execMstr
  refine microStep_wf (fun x6 h7 => ?_) w
  dsimp only
  split
  · exact .error trivial
  · split
    · exact .error trivial
    · split
      · exact .error trivial
      · refine .ok ?_
        split
        · exact MxFrame.stay_wf (MxFrame.writeRows_wf h7)
        · exact MxFrame.writeRows_wf h7

theorem MxFrame.nextRow_wf {f : MxFrame} (w : Memory.wf f.s.mem) : Memory.wf (MxFrame.nextRow f).1.s.mem := by
  unfold MxFrame.nextRow
  split
  · exact MxFrame.stay_wf w
  · exact w

theorem execMzero_wf {m} {s : State} (w : Memory.wf s.mem) : Leaves (execMzero m s) := by
  unfold execMzero
  exact microStep_wf (fun _ h11 => .ok (MxFrame.nextRow_wf (MxFrame.writeRows_wf h11))) w

theorem execMstacc_wf {m} {s : State} (w : Memory.wf s.mem) : Leaves (execMstacc m s) := by
  unfold execMstacc
  refine microStep_wf (fun x6 h7 => ?_) w
  dsimp only
  split
  · exact .error trivial
  · split
    · exact .error trivial
    · split
      · exact .error trivial
      · exact .ok (MxFrame.nextRow_wf (State.write_wf h7))

theorem execMldacc_wf {m} {s : State} (w : Memory.wf s.mem) : Leaves (execMldacc m s) := by
  unfold execMldacc
  refine microStep_wf (fun x6 h7 => ?_) w
  split
  · exact .error trivial
  · exact .ok (MxFrame.nextRow_wf (MxFrame.writeRows_wf h7))

end Sys2Proof.Machine
end

section
/-! SUPPORT. Memory stays canonical: the transform unit: plans, calls, and the transforms themselves. -/

namespace Sys2Proof.Machine

theorem Frame.planWords_wf {f : Frame} {addr} (w : Memory.wf f.s.mem) : Keeps Stop.Wf (fun r => Memory.wf r.2.s.mem) (Frame.planWords f addr) := by
  unfold Frame.planWords
  exact Keeps.bind (Frame.reach_wf w) fun _ h12 => Keeps.bind (Frame.access_wf h12) fun _ h11 => Keeps.bind Frame.padRead_wf fun _ h10 =>
    .pure h11

theorem execXplan_wf {h a} {s : State} (w : Memory.wf s.mem) : Leaves (execXplan h a s) := by
  unfold execXplan
  refine runSlot_wf (fun x7 h8 => ?_) w
  exact trigger_wf (fun _ _ h11 => direct_wf (fun _ _ _ _ _ h9 => Keeps.bind (Frame.settled_wf h9) fun _ h8 => Keeps.bind (need_wf trivial) fun _
    h7 => Keeps.bind (need_wf trivial) fun _ h6 => Keeps.bind (Frame.planWords_wf h9) fun _ h5 => Keeps.bind (need_wf trivial) fun _ h4 =>
      Keeps.bind (need_wf trivial) fun _ h3 => .pure h5) h11) h8

theorem xfuCall_wf {port h a} {s : State} (w : Memory.wf s.mem) : Leaves (xfuCall port h a s) := by
  unfold xfuCall
  refine runSlot_wf (fun x8 h9 => ?_) w
  refine trigger_wf (fun x11 x12 h13 => ?_) h9
  refine direct_wf (fun x17 x18 x19 x20 x21 h22 => ?_) h13
  refine Keeps.bind (Frame.settled_wf h22) fun r1 h1 => ?_
  dsimp only
  split
  · exact .error trivial
  · refine Keeps.bind (need_wf trivial) fun r2 h2 => ?_
    refine Keeps.bind (need_wf trivial) fun r3 h3 => ?_
    refine Keeps.bind (need_wf trivial) fun r4 h4 => ?_
    split
    · exact .error trivial
    · exact Keeps.bind (P := fun _ => True) (.ok trivial) fun _ h12 => Keeps.bind (Frame.callPlace_wf h22) fun _ h11 => Keeps.bind
        (Frame.claimCall_wf h22) fun _ h10 => .pure h10

theorem XStep.store_wf {x : XStep} {ctx p l} (w : Memory.wf x.s.mem) : Memory.wf (XStep.store x ctx p l).s.mem := by
  unfold XStep.store
  exact foldl_keeps (P := fun x : XStep => Memory.wf x.s.mem) (fun _ _ h => State.write_wf h) l w

theorem XStep.read_wf {x : XStep} {ctx p src work} (m : Memory.wf x.s.mem) : Keeps (fun _ => True) (fun r => Memory.wf r.s.mem) (XStep.read x ctx
    p src work) := by
  unfold XStep.read
  split
  · exact .error trivial
  · exact .ok m

theorem XStep.nextPencil_wf {x : XStep} (w : Memory.wf x.s.mem) : Memory.wf (XStep.nextPencil x).s.mem := by
  unfold XStep.nextPencil
  exact w

theorem XStep.fftStage_wf {x : XStep} {ctx p fwd ring src dst} (w : Memory.wf x.s.mem) : Keeps (fun _ => True) (fun r => Memory.wf r.s.mem)
    (XStep.fftStage x ctx p fwd ring src dst) := by
  unfold XStep.fftStage
  dsimp only
  split
  · refine Keeps.bind (XStep.read_wf w) fun r1 h1 => ?_
    split
    · exact .pure h1
    · exact .pure (XStep.nextPencil_wf (XStep.store_wf h1))
  · refine Keeps.bind (P := fun r => Memory.wf r.s.mem) (.ok w) fun r2 h2 => ?_
    split
    · exact .pure h2
    · exact .pure (XStep.nextPencil_wf (XStep.store_wf h2))

theorem XStep.element_wf {x : XStep} {ctx p src dst reals work row} (m : Memory.wf x.s.mem) : Keeps (fun _ => True) (fun r => Memory.wf r.s.mem)
    (XStep.element x ctx p src dst reals work row) := by
  unfold XStep.element
  dsimp only
  split
  · refine Keeps.bind (P := fun r => Memory.wf r.s.mem) ?_ fun r1 h1 => ?_
    · split
      · exact .error trivial
      · exact XStep.read_wf m
    · split
      · exact .error trivial
      · refine .pure ?_
        split
        · exact XStep.store_wf h1
        · exact XStep.nextPencil_wf (XStep.store_wf h1)
  · refine Keeps.bind (P := fun r => Memory.wf r.s.mem) (.ok m) fun r2 h2 => ?_
    split
    · exact .error trivial
    · refine .pure ?_
      split
      · exact XStep.store_wf h2
      · exact XStep.nextPencil_wf (XStep.store_wf h2)

theorem XStep.next_wf {x : XStep} {ctx} (w : Memory.wf x.s.mem) : Keeps (fun _ => True) (fun r => Memory.wf r.s.mem) (XStep.next x ctx) := by
  unfold XStep.next
  dsimp only
  split
  · exact XStep.fftStage_wf w
  · exact XStep.element_wf w
  · exact XStep.element_wf w

theorem execXfuCallStart_wf {ctx} {s : State} (w : Memory.wf s.mem) : Leaves (execXfuCallStart ctx s) := by
  unfold execXfuCallStart
  split
  · exact State.event_wf w
  · split
    · exact State.event_wf w
    · dsimp only
      split
      · exact State.event_wf (State.machineCheck_wf (State.setCtx_wf w))
      · split
        · exact State.event_wf (State.machineCheck_wf (State.setCtx_wf w))
        · rename_i e1
          have h1 := Keeps.of_ok (XStep.next_wf w) e1
          exact State.event_wf (State.setCtx_wf h1)

end Sys2Proof.Machine
end

section
/-! SUPPORT. Memory stays canonical: the dispatch: one meaning for each instruction and event. -/

namespace Sys2Proof.Machine

theorem exec_wf {i} {s : State} (w : Memory.wf s.mem) : Leaves (exec i s) := by
  cases i with
  | nop => exact execNop_wf w
  | moveOperandPort => exact execMoveOperandPort_wf w
  | moveScalar => exact execMoveScalar_wf w
  | moveVector => exact execMoveVector_wf w
  | movePredicate => exact execMovePredicate_wf w
  | moveLc => exact execMoveLc_wf w
  | moveLb => exact execMoveLb_wf w
  | moveSlk => exact execMoveSlk_wf w
  | moveCbx => exact execMoveCbx_wf w
  | immBindBInt stop imm => exact show Leaves (execImmBindBInt stop imm s) from immBind_wf w
  | immBindCInt stop imm => exact show Leaves (execImmBindCInt stop imm s) from immBind_wf w
  | immBindBF32 stop imm => exact show Leaves (execImmBindBF32 stop imm s) from immBind_wf w
  | immBindCF32 stop imm => exact show Leaves (execImmBindCF32 stop imm s) from immBind_wf w
  | immBindBF64 stop imm => exact show Leaves (execImmBindBF64 stop imm s) from immBind_wf w
  | immBindCF64 stop imm => exact show Leaves (execImmBindCF64 stop imm s) from immBind_wf w
  | immSetLb => exact execImmSetLb_wf w
  | add h a => exact show Leaves (execAdd h a s) from scalarOp_wf w
  | sub h a => exact show Leaves (execSub h a s) from scalarOp_wf w
  | and h a => exact show Leaves (execAnd h a s) from scalarOp_wf w
  | or h a => exact show Leaves (execOr h a s) from scalarOp_wf w
  | xor h a => exact show Leaves (execXor h a s) from scalarOp_wf w
  | andn h a => exact show Leaves (execAndn h a s) from scalarOp_wf w
  | shl h a => exact show Leaves (execShl h a s) from scalarOp_wf w
  | shr h a => exact show Leaves (execShr h a s) from scalarOp_wf w
  | sar h a => exact show Leaves (execSar h a s) from scalarOp_wf w
  | mul h a => exact show Leaves (execMul h a s) from scalarOp_wf w
  | mulh h a => exact show Leaves (execMulh h a s) from scalarOp_wf w
  | mulhu h a => exact show Leaves (execMulhu h a s) from scalarOp_wf w
  | div h a => exact show Leaves (execDiv h a s) from scalarOp_wf w
  | divu h a => exact show Leaves (execDivu h a s) from scalarOp_wf w
  | rem h a => exact show Leaves (execRem h a s) from scalarOp_wf w
  | remu h a => exact show Leaves (execRemu h a s) from scalarOp_wf w
  | min h a => exact show Leaves (execMin h a s) from scalarOp_wf w
  | minu h a => exact show Leaves (execMinu h a s) from scalarOp_wf w
  | max h a => exact show Leaves (execMax h a s) from scalarOp_wf w
  | maxu h a => exact show Leaves (execMaxu h a s) from scalarOp_wf w
  | clz h a => exact show Leaves (execClz h a s) from scalarOp_wf w
  | ctz h a => exact show Leaves (execCtz h a s) from scalarOp_wf w
  | popc h a => exact show Leaves (execPopc h a s) from scalarOp_wf w
  | sext h a => exact show Leaves (execSext h a s) from scalarOp_wf w
  | zext h a => exact show Leaves (execZext h a s) from scalarOp_wf w
  | lea h a => exact show Leaves (execLea h a s) from scalarOp_wf w
  | bfx h a => exact show Leaves (execBfx h a s) from scalarOp_wf w
  | bfi h a => exact show Leaves (execBfi h a s) from scalarOp_wf w
  | cmpeq h a => exact show Leaves (execCmpeq h a s) from scalarOp_wf w
  | cmpne h a => exact show Leaves (execCmpne h a s) from scalarOp_wf w
  | cmplt h a => exact show Leaves (execCmplt h a s) from scalarOp_wf w
  | cmple h a => exact show Leaves (execCmple h a s) from scalarOp_wf w
  | cmpltu h a => exact show Leaves (execCmpltu h a s) from scalarOp_wf w
  | cmpleu h a => exact show Leaves (execCmpleu h a s) from scalarOp_wf w
  | fcmpeq h a => exact show Leaves (execFcmpeq h a s) from scalarOp_wf w
  | fcmplt h a => exact show Leaves (execFcmplt h a s) from scalarOp_wf w
  | fcmple h a => exact show Leaves (execFcmple h a s) from scalarOp_wf w
  | fcmpun h a => exact show Leaves (execFcmpun h a s) from scalarOp_wf w
  | fadd h a => exact show Leaves (execFadd h a s) from scalarOp_wf w
  | fsub h a => exact show Leaves (execFsub h a s) from scalarOp_wf w
  | fmul h a => exact show Leaves (execFmul h a s) from scalarOp_wf w
  | ffma h a => exact show Leaves (execFfma h a s) from scalarOp_wf w
  | fdiv h a => exact show Leaves (execFdiv h a s) from scalarOp_wf w
  | fsqrt h a => exact show Leaves (execFsqrt h a s) from scalarOp_wf w
  | fmin h a => exact show Leaves (execFmin h a s) from scalarOp_wf w
  | fmax h a => exact show Leaves (execFmax h a s) from scalarOp_wf w
  | fabs h a => exact show Leaves (execFabs h a s) from scalarOp_wf w
  | fneg h a => exact show Leaves (execFneg h a s) from scalarOp_wf w
  | fcvtI64 h a => exact show Leaves (execFcvtI64 h a s) from scalarOp_wf w
  | fcvtF64 h a => exact show Leaves (execFcvtF64 h a s) from scalarOp_wf w
  | ldb h a => exact show Leaves (execLdb h a s) from padLoad_wf w
  | ldbu h a => exact show Leaves (execLdbu h a s) from padLoad_wf w
  | ldh h a => exact show Leaves (execLdh h a s) from padLoad_wf w
  | ldhu h a => exact show Leaves (execLdhu h a s) from padLoad_wf w
  | ldw h a => exact show Leaves (execLdw h a s) from padLoad_wf w
  | ldwu h a => exact show Leaves (execLdwu h a s) from padLoad_wf w
  | ldd h a => exact show Leaves (execLdd h a s) from padLoad_wf w
  | stb h a => exact show Leaves (execStb h a s) from padStoreOp_wf w
  | sth h a => exact show Leaves (execSth h a s) from padStoreOp_wf w
  | stw h a => exact show Leaves (execStw h a s) from padStoreOp_wf w
  | std h a => exact show Leaves (execStd h a s) from padStoreOp_wf w
  | ldwCl h a => exact show Leaves (execLdwCl h a s) from windowLoad_wf w
  | lddCl h a => exact show Leaves (execLddCl h a s) from windowLoad_wf w
  | stwCl h a => exact show Leaves (execStwCl h a s) from windowStoreOp_wf w
  | stdCl h a => exact show Leaves (execStdCl h a s) from windowStoreOp_wf w
  | aadd h a => exact show Leaves (execAadd h a s) from padAtomic_wf w
  | aand h a => exact show Leaves (execAand h a s) from padAtomic_wf w
  | aor h a => exact show Leaves (execAor h a s) from padAtomic_wf w
  | axor h a => exact show Leaves (execAxor h a s) from padAtomic_wf w
  | amin h a => exact show Leaves (execAmin h a s) from padAtomic_wf w
  | amax h a => exact show Leaves (execAmax h a s) from padAtomic_wf w
  | aswap h a => exact show Leaves (execAswap h a s) from padAtomic_wf w
  | acas h a => exact show Leaves (execAcas h a s) from padAtomic_wf w
  | aaddCl h a => exact show Leaves (execAaddCl h a s) from windowAtomic_wf w
  | aandCl h a => exact show Leaves (execAandCl h a s) from windowAtomic_wf w
  | aorCl h a => exact show Leaves (execAorCl h a s) from windowAtomic_wf w
  | axorCl h a => exact show Leaves (execAxorCl h a s) from windowAtomic_wf w
  | aminCl h a => exact show Leaves (execAminCl h a s) from windowAtomic_wf w
  | amaxCl h a => exact show Leaves (execAmaxCl h a s) from windowAtomic_wf w
  | aswapCl h a => exact show Leaves (execAswapCl h a s) from windowAtomic_wf w
  | acasCl h a => exact show Leaves (execAcasCl h a s) from windowAtomic_wf w
  | cld => exact execCld_wf w
  | jmp => exact execJmp_wf w
  | jmpr => exact execJmpr_wf w
  | call => exact execCall_wf w
  | callr => exact execCallr_wf w
  | ret => exact execRet_wf w
  | loop => exact execLoop_wf w
  | loopx => exact execLoopx_wf w
  | nest => exact execNest_wf w
  | slack => exact execSlack_wf w
  | bar => exact execBar_wf w
  | tkpost => exact execTkpost_wf w
  | cbr => exact execCbr_wf w
  | agjoin => exact execAgjoin_wf w
  | agleave => exact execAgleave_wf w
  | agexcuse => exact execAgexcuse_wf w
  | heart => exact execHeart_wf w
  | retire => exact execRetire_wf w
  | csync => exact execCsync_wf w
  | tret => exact execTret_wf w
  | rdsr => exact execRdsr_wf w
  | wrsr => exact execWrsr_wf w
  | fenceAcq h sc => exact show Leaves (execFenceAcq h sc s) from fenceOp_wf w
  | fenceRel h sc => exact show Leaves (execFenceRel h sc s) from fenceOp_wf w
  | fenceAr h sc => exact show Leaves (execFenceAr h sc s) from fenceOp_wf w
  | fenceScDevice h => exact show Leaves (execFenceScDevice h s) from fenceOp_wf w
  | fenceScDomain h => exact show Leaves (execFenceScDomain h s) from fenceOp_wf w
  | addF h e a => exact show Leaves (execAddF h e a s) from vectorOp_wf w
  | subF h e a => exact show Leaves (execSubF h e a s) from vectorOp_wf w
  | mulF h e a => exact show Leaves (execMulF h e a s) from vectorOp_wf w
  | fmaF h e a => exact show Leaves (execFmaF h e a s) from vectorOp_wf w
  | fmsF h e a => exact show Leaves (execFmsF h e a s) from vectorOp_wf w
  | fnmaF h e a => exact show Leaves (execFnmaF h e a s) from vectorOp_wf w
  | minF h e a => exact show Leaves (execMinF h e a s) from vectorOp_wf w
  | maxF h e a => exact show Leaves (execMaxF h e a s) from vectorOp_wf w
  | divF h e a => exact show Leaves (execDivF h e a s) from vectorOp_wf w
  | sqrtF h e a => exact show Leaves (execSqrtF h e a s) from vectorOp_wf w
  | absF h e a => exact show Leaves (execAbsF h e a s) from vectorOp_wf w
  | negF h e a => exact show Leaves (execNegF h e a s) from vectorOp_wf w
  | cmpeqF h e a => exact show Leaves (execCmpeqF h e a s) from vectorOp_wf w
  | cmpltF h e a => exact show Leaves (execCmpltF h e a s) from vectorOp_wf w
  | cmpleF h e a => exact show Leaves (execCmpleF h e a s) from vectorOp_wf w
  | cmpunF h e a => exact show Leaves (execCmpunF h e a s) from vectorOp_wf w
  | iadd h e a => exact show Leaves (execIadd h e a s) from vectorOp_wf w
  | isub h e a => exact show Leaves (execIsub h e a s) from vectorOp_wf w
  | iadds h e a => exact show Leaves (execIadds h e a s) from vectorOp_wf w
  | iaddsu h e a => exact show Leaves (execIaddsu h e a s) from vectorOp_wf w
  | isubs h e a => exact show Leaves (execIsubs h e a s) from vectorOp_wf w
  | isubsu h e a => exact show Leaves (execIsubsu h e a s) from vectorOp_wf w
  | imul h e a => exact show Leaves (execImul h e a s) from vectorOp_wf w
  | imulh h e a => exact show Leaves (execImulh h e a s) from vectorOp_wf w
  | imulhu h e a => exact show Leaves (execImulhu h e a s) from vectorOp_wf w
  | imin h e a => exact show Leaves (execImin h e a s) from vectorOp_wf w
  | iminu h e a => exact show Leaves (execIminu h e a s) from vectorOp_wf w
  | imax h e a => exact show Leaves (execImax h e a s) from vectorOp_wf w
  | imaxu h e a => exact show Leaves (execImaxu h e a s) from vectorOp_wf w
  | vecAnd h e a => exact show Leaves (execVecAnd h e a s) from vectorOp_wf w
  | vecOr h e a => exact show Leaves (execVecOr h e a s) from vectorOp_wf w
  | vecXor h e a => exact show Leaves (execVecXor h e a s) from vectorOp_wf w
  | vecAndn h e a => exact show Leaves (execVecAndn h e a s) from vectorOp_wf w
  | vecShl h e a => exact show Leaves (execVecShl h e a s) from vectorOp_wf w
  | vecShr h e a => exact show Leaves (execVecShr h e a s) from vectorOp_wf w
  | vecSar h e a => exact show Leaves (execVecSar h e a s) from vectorOp_wf w
  | icmpeq h e a => exact show Leaves (execIcmpeq h e a s) from vectorOp_wf w
  | icmplt h e a => exact show Leaves (execIcmplt h e a s) from vectorOp_wf w
  | icmpltu h e a => exact show Leaves (execIcmpltu h e a s) from vectorOp_wf w
  | iabs h e a => exact show Leaves (execIabs h e a s) from vectorOp_wf w
  | vecPopc h e a => exact show Leaves (execVecPopc h e a s) from vectorOp_wf w
  | vecClz h e a => exact show Leaves (execVecClz h e a s) from vectorOp_wf w
  | cvt h t a => exact show Leaves (execCvt h t a s) from vectorOp_wf w
  | cvtsc h t a => exact show Leaves (execCvtsc h t a s) from vectorOp_wf w
  | cvtsr h t a => exact show Leaves (execCvtsr h t a s) from vectorOp_wf w
  | redadd h a => exact show Leaves (execRedadd h a s) from vectorOp_wf w
  | redmax h a => exact show Leaves (execRedmax h a s) from vectorOp_wf w
  | redmin h a => exact show Leaves (execRedmin h a s) from vectorOp_wf w
  | vmaxi h a => exact show Leaves (execVmaxi h a s) from vectorOp_wf w
  | vmini h a => exact show Leaves (execVmini h a s) from vectorOp_wf w
  | perm h a => exact show Leaves (execPerm h a s) from vectorOp_wf w
  | bcast h a => exact show Leaves (execBcast h a s) from vectorOp_wf w
  | sel h a => exact show Leaves (execSel h a s) from vectorOp_wf w
  | vld => exact execVld_wf w
  | vst => exact execVst_wf w
  | vldt => exact execVldt_wf w
  | vldCl => exact execVldCl_wf w
  | vstCl => exact execVstCl_wf w
  | gath => exact execGath_wf w
  | scat => exact execScat_wf w
  | fpset => exact execFpset_wf w
  | fpflush => exact execFpflush_wf w
  | trowE8 h a => exact show Leaves (execTrowE8 h a s) from trowOp_wf w
  | trowE16 h a => exact show Leaves (execTrowE16 h a s) from trowOp_wf w
  | trowE32 h a => exact show Leaves (execTrowE32 h a s) from trowOp_wf w
  | trowE64 h a => exact show Leaves (execTrowE64 h a s) from trowOp_wf w
  | tdrain => exact execTdrain_wf w
  | tclr => exact execTclr_wf w
  | mpset => exact execMpset_wf w
  | mpget => exact execMpget_wf w
  | mxload => exact execMxload_wf w
  | mxq => exact execMxq_wf w
  | xplan => exact execXplan_wf w
  | xfft h a => exact show Leaves (execXfft h a s) from xfuCall_wf w
  | xffti h a => exact show Leaves (execXffti h a s) from xfuCall_wf w
  | xlegf h a => exact show Leaves (execXlegf h a s) from xfuCall_wf w
  | xlegi h a => exact show Leaves (execXlegi h a s) from xfuCall_wf w
  | xshtf h a => exact show Leaves (execXshtf h a s) from xfuCall_wf w
  | xshti h a => exact show Leaves (execXshti h a s) from xfuCall_wf w
  | mxcall => exact execMxcall_wf w
  | cpyN h a => exact show Leaves (execCpyN h a s) from descOp_wf w
  | cpyNd h a => exact show Leaves (execCpyNd h a s) from descOp_wf w
  | ceGath h a => exact show Leaves (execCeGath h a s) from descOp_wf w
  | ceScat h a => exact show Leaves (execCeScat h a s) from descOp_wf w
  | accLd h a => exact show Leaves (execAccLd h a s) from descOp_wf w
  | accSt h a => exact show Leaves (execAccSt h a s) from descOp_wf w
  | gaAdd h a => exact show Leaves (execGaAdd h a s) from globalAtomic_wf w
  | gaAnd h a => exact show Leaves (execGaAnd h a s) from globalAtomic_wf w
  | gaOr h a => exact show Leaves (execGaOr h a s) from globalAtomic_wf w
  | gaXor h a => exact show Leaves (execGaXor h a s) from globalAtomic_wf w
  | gaMin h a => exact show Leaves (execGaMin h a s) from globalAtomic_wf w
  | gaMax h a => exact show Leaves (execGaMax h a s) from globalAtomic_wf w
  | gaSwap h a => exact show Leaves (execGaSwap h a s) from globalAtomic_wf w
  | gaCas h a => exact show Leaves (execGaCas h a s) from globalAtomic_wf w
  | mcst => exact execMcst_wf w
  | wbr h a => exact show Leaves (execWbr h a s) from rangeOp_wf w
  | invr h a => exact show Leaves (execInvr h a s) from rangeOp_wf w
  | pref h a => exact show Leaves (execPref h a s) from rangeOp_wf w
  | waitany h a => exact show Leaves (execWaitany h a s) from tagWait_wf w
  | waitall h a => exact show Leaves (execWaitall h a s) from tagWait_wf w
  | ffr => exact execFfr_wf w
  | clrtag => exact execClrtag_wf w
  | bcInit => exact execBcInit_wf w
  | arriveExp h a => exact show Leaves (execArriveExp h a s) from counterOp_wf w
  | bcSub h a => exact show Leaves (execBcSub h a s) from counterOp_wf w
  | bcWait => exact execBcWait_wf w
  | xcoll => exact execXcoll_wf w
  | ttready => exact execTtready_wf w
  | catArm => exact execCatArm_wf w
  | catDisarm => exact execCatDisarm_wf w
  | waitid => exact execWaitid_wf w
  | mnop => exact execMnop_wf w
  | mend => exact execMend_wf w
  | mseta => exact execMseta_wf w
  | madd => exact execMadd_wf w
  | msetc => exact execMsetc_wf w
  | mloop => exact execMloop_wf w
  | mjmp => exact execMjmp_wf w
  | mlda => exact execMlda_wf w
  | mldb => exact execMldb_wf w
  | mldsa => exact execMldsa_wf w
  | mldsw => exact execMldsw_wf w
  | mlde => exact execMlde_wf w
  | mldm => exact execMldm_wf w
  | mstr => exact execMstr_wf w
  | mzero => exact execMzero_wf w
  | mstacc => exact execMstacc_wf w
  | mldacc => exact execMldacc_wf w
  | bundleIssue => exact execBundleIssue_wf w
  | cbxReloadEnd => exact execCbxReloadEnd_wf w
  | windowAccessPerform => exact execWindowAccessPerform_wf w
  | resultPush => exact execResultPush_wf w
  | spillWriteComplete => exact execSpillWriteComplete_wf w
  | fillArrive => exact execFillArrive_wf w
  | feedElementArrive => exact execFeedElementArrive_wf w
  | heldOpRun => exact execHeldOpRun_wf w
  | slackExhausted => exact execSlackExhausted_wf w
  | stallEnd => exact execStallEnd_wf w
  | tkpostDeliver => exact execTkpostDeliver_wf w
  | agexcuseAck => exact execAgexcuseAck_wf w
  | retireComplete => exact execRetireComplete_wf w
  | csyncSnapshot => exact execCsyncSnapshot_wf w
  | l2domSwitchDone => exact execL2domSwitchDone_wf w
  | replayResponse cmd => exact show Leaves (execReplayResponse cmd s) from State.event_wf w
  | fenceComplete => exact execFenceComplete_wf w
  | invalidationApply => exact execInvalidationApply_wf w
  | columnPresent => exact execColumnPresent_wf w
  | heldCallEnqueue => exact execHeldCallEnqueue_wf w
  | mxeCallStart => exact execMxeCallStart_wf w
  | mxloadRun => exact execMxloadRun_wf w
  | engineCallComplete => exact execEngineCallComplete_wf w
  | engineTokenPostDeferred => exact execEngineTokenPostDeferred_wf w
  | xfuCallStart => exact execXfuCallStart_wf w
  | mxeQuiesce => exact execMxeQuiesce_wf w
  | xfuQuiesce => exact execXfuQuiesce_wf w
  | tagCommandAccept => exact execTagCommandAccept_wf w
  | copyChunk => exact execCopyChunk_wf w
  | tagCommandComplete => exact execTagCommandComplete_wf w
  | catalogueDisarmComplete => exact execCatalogueDisarmComplete_wf w
  | counterArrival => exact execCounterArrival_wf w
  | readinessNotice => exact execReadinessNotice_wf w
  | pullRequest => exact execPullRequest_wf w
  | chunkLand => exact execChunkLand_wf w
  | parkedChunkWrite => exact execParkedChunkWrite_wf w
  | localPullFault => exact execLocalPullFault_wf w
  | parkingSpaceFree port => exact show Leaves (execParkingSpaceFree port s) from execParkingSpaceFree_wf w
  | parkedNoticeRelease => exact execParkedNoticeRelease_wf w
  | transferIdComplete => exact execTransferIdComplete_wf w
  | k2TokenPost => exact execK2TokenPost_wf w
  | staleRefuse => exact execStaleRefuse_wf w
  | chunkRedrive => exact execChunkRedrive_wf w
  | noticeResend => exact execNoticeResend_wf w
  | mcstReplicaArrive => exact execMcstReplicaArrive_wf w
  | mcstAckArrive => exact execMcstAckArrive_wf w
  | circuitChange => exact execCircuitChange_wf w
  | linkRetrained => exact execLinkRetrained_wf w
  | retrainTimeout => exact execRetrainTimeout_wf w
  | linkFail => exact execLinkFail_wf w
  | packetTrainStart => exact execPacketTrainStart_wf w
  | errorMonitorRaise => exact execErrorMonitorRaise_wf w
  | holdExpire => exact execHoldExpire_wf w
  | contributionArrive => exact execContributionArrive_wf w
  | agreementTimeout => exact execAgreementTimeout_wf w
  | answerArrive => exact execAnswerArrive_wf w
  | heldStoreDrain => exact execHeldStoreDrain_wf w
  | leaveNotice => exact execLeaveNotice_wf w
  | preemptedNotice => exact execPreemptedNotice_wf w
  | resumeNotice => exact execResumeNotice_wf w
  | taskFail => exact execTaskFail_wf w
  | watchdogFire => exact execWatchdogFire_wf w
  | unitClaimComplete => exact execUnitClaimComplete_wf w
  | dieReport => exact execDieReport_wf w
  | taskPlace => exact execTaskPlace_wf w
  | taskResume => exact execTaskResume_wf w
  | frameStart => exact execFrameStart_wf w
  | queueIdleUnmap => exact execQueueIdleUnmap_wf w
  | signalAck => exact execSignalAck_wf w
  | invalAck => exact execInvalAck_wf w
  | graphStepBegin => exact execGraphStepBegin_wf w
  | graphNodeComplete => exact execGraphNodeComplete_wf w
  | condNodeRead => exact execCondNodeRead_wf w
  | notifyWrite => exact execNotifyWrite_wf w
  | crdidxWrite => exact execCrdidxWrite_wf w
  | queueRegister => exact execQueueRegister_wf w
  | queueUnregister => exact execQueueUnregister_wf w
  | queueHalt => exact execQueueHalt_wf w
  | queueResume => exact execQueueResume_wf w
  | rdidxWrite => exact execRdidxWrite_wf w
  | hostMemoryAccess => exact execHostMemoryAccess_wf w
  | groupMemberWrite => exact execGroupMemberWrite_wf w
  | groupHeaderWrite => exact execGroupHeaderWrite_wf w
  | routingEntryWrite => exact execRoutingEntryWrite_wf w
  | rtctlStage => exact execRtctlStage_wf w
  | topologySwap => exact execTopologySwap_wf w
  | ptrootWrite => exact execPtrootWrite_wf w
  | fltbaseWrite => exact execFltbaseWrite_wf w
  | fltrespResolve => exact execFltrespResolve_wf w
  | fltrespRefuse => exact execFltrespRefuse_wf w
  | iclampWrite => exact execIclampWrite_wf w
  | attestNonceWrite nonce => exact show Leaves (execAttestNonceWrite nonce s) from State.event_wf w
  | registerWrite => exact execRegisterWrite_wf w
  | currentClampReached => exact show Leaves (execCurrentClampReached s) from State.event_wf w
  | clockRecoverStep => exact show Leaves (execClockRecoverStep s) from State.event_wf w
  | functionLevelReset => exact execFunctionLevelReset_wf w
  | moduleReset => exact execModuleReset_wf w
  | pcieLinkTrain => exact execPcieLinkTrain_wf w
  | fltrdWrite => exact execFltrdWrite_wf w
  | scalarBankRetire => exact execScalarBankRetire_wf w
  | opticalBudgetChange => exact execOpticalBudgetChange_wf w
  | portDisable => exact execPortDisable_wf w

end Sys2Proof.Machine
end

section
/-! SUPPORT. Memory stays canonical: what the module does next. -/

namespace Sys2Proof.Machine

theorem microExec_wf {op m} {s : State} (w : Memory.wf s.mem) : Leaves (microExec op m s) := by
  unfold microExec
  split
  · exact execMend_wf w
  · exact execMseta_wf w
  · exact execMadd_wf w
  · exact execMsetc_wf w
  · exact execMloop_wf w
  · exact execMjmp_wf w
  · exact execMlda_wf w
  · exact execMldb_wf w
  · exact execMldsa_wf w
  · exact execMldsw_wf w
  · exact execMlde_wf w
  · exact execMldm_wf w
  · exact execMstr_wf w
  · exact execMzero_wf w
  · exact execMstacc_wf w
  · exact execMldacc_wf w
  · exact execMnop_wf w

theorem Act.run_wf {a} {s : State} (w : Memory.wf s.mem) : Leaves (Act.run a s) := by
  unfold Act.run
  split
  · exact execHoldExpire_wf w
  · exact execCbxReloadEnd_wf w
  · exact execWindowAccessPerform_wf w
  · exact execResultPush_wf w
  · exact execTkpostDeliver_wf w
  · exact execColumnPresent_wf w
  · exact microExec_wf w
  · exact execSpillWriteComplete_wf w
  · exact execFillArrive_wf w
  · exact execFeedElementArrive_wf w
  · exact execHeldOpRun_wf w
  · exact execSlackExhausted_wf w
  · exact execStallEnd_wf w
  · exact execAgexcuseAck_wf w
  · exact execRetireComplete_wf w
  · exact execCsyncSnapshot_wf w
  · exact execL2domSwitchDone_wf w
  · exact execFenceComplete_wf w
  · exact execInvalidationApply_wf w
  · exact execHeldCallEnqueue_wf w
  · exact execMxeCallStart_wf w
  · exact execMxloadRun_wf w
  · exact execEngineCallComplete_wf w
  · exact execEngineTokenPostDeferred_wf w
  · exact execXfuCallStart_wf w
  · exact execMxeQuiesce_wf w
  · exact execXfuQuiesce_wf w
  · exact execTagCommandAccept_wf w
  · exact execCopyChunk_wf w
  · exact execTagCommandComplete_wf w
  · exact execCatalogueDisarmComplete_wf w
  · exact execReadinessNotice_wf w
  · exact execPullRequest_wf w
  · exact execChunkLand_wf w
  · exact execParkedChunkWrite_wf w
  · exact execLocalPullFault_wf w
  · exact execParkedNoticeRelease_wf w
  · exact execTransferIdComplete_wf w
  · exact execK2TokenPost_wf w
  · exact execChunkRedrive_wf w
  · exact execMcstReplicaArrive_wf w
  · exact execMcstAckArrive_wf w
  · exact execContributionArrive_wf w
  · exact execAgreementTimeout_wf w
  · exact execAnswerArrive_wf w
  · exact execHeldStoreDrain_wf w
  · exact execTaskFail_wf w
  · exact execWatchdogFire_wf w
  · exact execUnitClaimComplete_wf w
  · exact execTaskPlace_wf w
  · exact execTaskResume_wf w
  · exact execFrameStart_wf w
  · exact execNoticeResend_wf w
  · exact execQueueIdleUnmap_wf w
  · exact execSignalAck_wf w
  · exact execInvalAck_wf w
  · exact execGraphStepBegin_wf w
  · exact execGraphNodeComplete_wf w
  · exact execCondNodeRead_wf w

theorem State.runTurn_wf {s : State} {t c r} (w : Memory.wf s.mem) : Leaves (State.runTurn s t c r) := by
  unfold State.runTurn
  split
  · exact exec_wf w
  · exact .next (State.setCtx_wf w)

theorem State.spoil_wf {s : State} {y1} (w : Memory.wf s.mem) : Memory.wf (State.spoil s y1).mem := by
  unfold State.spoil
  split
  · split
    · exact w
    · exact w
  · dsimp only
    split
    · exact State.setTile_wf w
    · exact w
  · exact w

theorem State.softError_wf {s : State} {x} (w : Memory.wf s.mem) : Memory.wf (State.softError s x).mem := by
  unfold State.softError
  refine State.tellHost_wf ?_
  dsimp only
  split
  · exact State.spoil_wf w
  · exact w

theorem State.softErrors_wf {s : State} (w : Memory.wf s.mem) : Memory.wf (State.softErrors s).mem := by
  unfold State.softErrors
  exact State.foldl_wf (fun _ _ h12 => State.softError_wf h12) w

theorem State.dieReports_wf {s : State} (w : Memory.wf s.mem) : Memory.wf (State.dieReports s).mem := by
  unfold State.dieReports
  split
  · exact State.reportDie_wf w
  · exact w

theorem State.tick_wf {s : State} (w : Memory.wf s.mem) : Memory.wf (State.tick s).mem := by
  unfold State.tick
  dsimp only
  split
  · exact State.dieReports_wf (State.softErrors_wf (State.endLates_wf w))
  · exact State.depart_wf (State.dieReports_wf (State.softErrors_wf (State.endLates_wf w)))

theorem State.serveRequest_wf {s : State} (w : Memory.wf s.mem) : Leaves (State.serveRequest s) := by
  unfold State.serveRequest
  split
  · exact exec_wf w
  · exact State.event_wf w

theorem State.idleStep_wf {s : State} (w : Memory.wf s.mem) : Leaves (State.idleStep s) := by
  unfold State.idleStep
  split
  · exact Act.run_wf w
  · split
    · exact Act.run_wf w
    · split
      · exact .next (State.framePart_wf w)
      · split
        · exact .next (State.writeDues_wf w)
        · split
          · exact State.serveRequest_wf w
          · split
            · exact Act.run_wf w
            · split
              · exact .next (State.tick_wf w)
              · split
                · exact Act.run_wf w
                · exact .next (State.tick_wf w)

theorem State.pass_wf {s : State} {sid} (w : Memory.wf s.mem) : Memory.wf (State.pass s sid).mem := by
  unfold State.pass
  exact w

theorem State.issue_wf {s : State} {f : Frame} (w : Memory.wf s.mem) (w2 : Memory.wf f.s.mem) : Leaves (State.issue s f) := by
  unfold State.issue
  split
  · exact exec_wf w
  · split
    · exact exec_wf w
    · exact .next (takeTrap_wf w2)

theorem Frame.groupHolds_wf {f : Frame} (w : Memory.wf f.s.mem) : ∀ r, Frame.groupHolds f = some r → Memory.wf r.mem := by
  intro r hr
  unfold Frame.groupHolds at hr
  split at hr
  · cases hr
  · dsimp only at hr
    split at hr
    · cases hr
      exact State.setStrand_wf (State.pass_wf w)
    · obtain ⟨t, _, rfl⟩ := Option.map_eq_some_iff.1 hr
      exact State.setStrand_wf (State.pass_wf (sid := f.t.sid) w)

theorem State.turnStep_wf {s : State} {sid} (w : Memory.wf s.mem) : Leaves (State.turnStep s sid) := by
  unfold State.turnStep
  split
  · exact .next (State.pass_wf w)
  · rename_i e1
    have h1 := State.frameOf_wf w _ e1
    split
    · exact .next (State.pass_wf w)
    · split
      · rename_i e2
        have h2 := Frame.groupHolds_wf h1 _ e2
        exact .next h2
      · exact State.issue_wf w h1

theorem State.nextStep_wf {s : State} (w : Memory.wf s.mem) : Leaves (State.nextStep s) := by
  unfold State.nextStep
  split
  · exact State.runTurn_wf w
  · split
    · split
      · exact .next w
      · exact exec_wf w
    · split
      · exact State.turnStep_wf w
      · exact State.idleStep_wf w

end Sys2Proof.Machine
end

section
/-! PROOF. Every step keeps the canonical form of memory. -/

namespace Sys2Proof.Machine

theorem step_wf {s : State} (w : Memory.wf s.mem) : Leaves (step s) := by
  unfold step
  exact State.nextStep_wf w

/-- Settles O8: every meaning of the dispatch, and every act of the device by itself, leaves memory canonical. -/
theorem memoryStaysCanonical : Obligations.MemoryStaysCanonical := fun _ _ hs ht => (step_wf hs).of_next ht

end Sys2Proof.Machine
end
